-- ==== Sys2Proof/Word.lean ====
section
/-!
DEFINITION. The word and byte types of the CRN-8800 model (spec 00_scope.md, R17: registers are 32 bits wide;
R389: a Wharf storage word carries 64 data bits).
-/
namespace Sys2Proof

/-- A register, or one general register of an Oarsman (R17, R424). -/
abbrev Word := BitVec 32

/-- A data word of a Wharf item (R389). -/
abbrev DWord := BitVec 64

/-- One byte of a frame, a record or a memory. -/
abbrev Byte := BitVec 8

end Sys2Proof
end

