-- ==== Sys2Proof/Machine/Bits.lean ====
section
/-!
DEFINITION. Bit fields of registers, big-endian byte strings (00_scope.md: multi-byte fields are big-endian) and the
two's-complement and saturating helpers that the blocks share.
-/
namespace Sys2Proof.Machine

/-- Bits hi down to lo of a word, as a number. -/
def bitsOf (w : Word) (hi lo : Nat) : Nat := (w.toNat >>> lo) % 2 ^ (hi + 1 - lo)

/-- The word with a one at each of the bits hi down to lo. -/
def maskOf (hi lo : Nat) : Word := BitVec.ofNat 32 ((2 ^ (hi + 1 - lo) - 1) <<< lo)

/-- The word w with bits hi down to lo replaced by the low bits of v. -/
def putBits (w : Word) (hi lo v : Nat) : Word :=
  (w &&& ~~~ maskOf hi lo) ||| (BitVec.ofNat 32 (v <<< lo) &&& maskOf hi lo)

/-- Bit i of a number. -/
def natBit (n i : Nat) : Bool := (n >>> i) % 2 == 1

/-- One as a number for true. -/
def ofBool (b : Bool) : Nat := if b then 1 else 0

/-- Addition that stops at a greatest value ("saturating at"). -/
def satAdd (a b top : Nat) : Nat := min (a + b) top

/-- The two's-complement value of the low n bits of a number. -/
def toSigned (n v : Nat) : Int :=
  let r := v % 2 ^ n
  if r < 2 ^ (n - 1) then (r : Int) else (r : Int) - (2 ^ n : Nat)

/-- The n-bit two's-complement code of an integer. -/
def ofSigned (n : Nat) (i : Int) : Nat := (i % ((2 ^ n : Nat) : Int)).toNat

/-- An integer held within a signed range ("saturating"). -/
def clampInt (lo hi i : Int) : Int := max lo (min hi i)

/-- The n big-endian bytes of a number. -/
def be : Nat → Nat → List Byte
  | 0, _ => []
  | n + 1, v => BitVec.ofNat 8 (v >>> (8 * n)) :: be n v

/-- The number that a big-endian byte string spells. -/
def ofBe (bs : List Byte) : Nat := bs.foldl (fun a b => a * 256 + b.toNat) 0

/-- The n bytes from an offset, as a number; bytes past the end count as 0. -/
def beAt (bs : List Byte) (off n : Nat) : Nat :=
  ofBe ((List.range n).map fun i => bs.getD (off + i) 0)

/-- The n bytes from an offset. -/
def slice (bs : List Byte) (off n : Nat) : List Byte := (bs.drop off).take n

/-- A byte string padded with zeros, or cut, to n bytes. -/
def padTo (n : Nat) (bs : List Byte) : List Byte := (bs ++ List.replicate (n - bs.length) 0).take n

/-- The bytes with those from an offset replaced by others. -/
def patch (bs : List Byte) (off : Nat) (d : List Byte) : List Byte :=
  padTo off bs ++ d ++ bs.drop (off + d.length)

/-- The 64-bit Wharf words of a byte string, the first byte in bits 63:56, the last word padded with zeros. -/
def dwordsAux : Nat → List Byte → List DWord
  | 0, _ => []
  | n + 1, bs => BitVec.ofNat 64 (beAt bs 0 8) :: dwordsAux n (bs.drop 8)

/-- The 64-bit words of a byte string. -/
def dwords (bs : List Byte) : List DWord := dwordsAux ((bs.length + 7) / 8) bs

/-- The bytes of 64-bit words, bits 63:56 first. -/
def dbytes (ws : List DWord) : List Byte := ws.flatMap fun w => be 8 w.toNat

/-- The 32-bit words of a byte string. -/
def words32 (n : Nat) (bs : List Byte) : List Word :=
  (List.range n).map fun k => BitVec.ofNat 32 (beAt bs (4 * k) 4)

/-- One step of a reflected-free CRC-32 with the Castagnoli polynomial 0x1EDC_6F41 (R134): eight shifts. -/
def crcBits : Nat → Nat → Nat
  | 0, c => c
  | n + 1, c => crcBits n (if c ≥ 2 ^ 31 then ((c * 2) % 2 ^ 32) ^^^ 0x1EDC6F41 else c * 2)

/-- The bits of a byte in reverse order. -/
def rev8 (b : Nat) : Nat := (List.range 8).foldl (fun a i => a + (if natBit b i then 2 ^ (7 - i) else 0)) 0

/-- The bits of a 32-bit word in reverse order. -/
def rev32 (b : Nat) : Nat := (List.range 32).foldl (fun a i => a + (if natBit b i then 2 ^ (31 - i) else 0)) 0

/-- CRC-32C of a byte string (R134, R469).
PRESUMED: start value and final exclusive-or all ones, bits reflected, as the Castagnoli CRC of the literature; the
spec names only the polynomial (log entry 12). -/
def crc32c (bs : List Byte) : Nat :=
  rev32 (bs.foldl (fun c b => crcBits 8 (c ^^^ (rev8 b.toNat <<< 24))) 0xFFFFFFFF) ^^^ 0xFFFFFFFF

/-- Replace the element at a position of a list; nothing past its end. -/
def setAt {α : Type} (l : List α) (i : Nat) (x : α) : List α := l.set i x

/-- A list with an element added at its end when it is not in it. -/
def addMem {α : Type} [DecidableEq α] (l : List α) (x : α) : List α := if x ∈ l then l else l ++ [x]

/-- A list without an element. -/
def dropMem {α : Type} [DecidableEq α] (l : List α) (x : α) : List α := l.filter (fun y => y ≠ x)

/-- Round-half-up division, 0 for a zero divisor. -/
def divRound (a b : Nat) : Nat := if b = 0 then 0 else (a + b / 2) / b

end Sys2Proof.Machine
end

