-- ==== Sys2Proof/Machine/Keccak.lean ====
section
/-!
DEFINITION. SHAKE256 and KMAC256 (R84, R92, R234, R309, R432, R486, R495), with the rate blocks that R234's table gives. The spec cites the
permutation (FIPS 202) and SP 800-185 and does not repeat them (PRESUMED, log entry 6).
-/
namespace Sys2Proof.Machine

/-- A 64-bit lane rotated left by r. -/
def rotLane (x r : Nat) : Nat := (x <<< r ||| x >>> (64 - r)) % 2 ^ 64

/-- Rotations of ρ, lane x + 5 y at index x + 5 y. -/
def rhoOffsets : List Nat := [0, 1, 62, 28, 27, 36, 44, 6, 55, 20, 3, 10, 43, 25, 39, 41, 45, 15, 21, 8, 18, 2, 61, 56, 14]

/-- Round constants of ι, the first twelve. -/
def iotaA : List Nat := [0x0000000000000001, 0x0000000000008082, 0x800000000000808A, 0x8000000080008000, 0x000000000000808B,
  0x0000000080000001, 0x8000000080008081, 0x8000000000008009, 0x000000000000008A, 0x0000000000000088, 0x0000000080008009,
  0x000000008000000A]

/-- Round constants of ι, the last twelve. -/
def iotaB : List Nat := [0x000000008000808B, 0x800000000000008B, 0x8000000000008089, 0x8000000000008003, 0x8000000000008002,
  0x8000000000000080, 0x000000000000800A, 0x800000008000000A, 0x8000000080008081, 0x8000000000008080, 0x0000000080000001,
  0x8000000080008008]

/-- θ: every lane with the parities of the column before it and of the column after it, that rotated by 1. -/
def thetaStep (a : List Nat) : List Nat :=
  let l := fun i => a.getD i 0
  let c := (List.range 5).map fun x => l x ^^^ l (x + 5) ^^^ l (x + 10) ^^^ l (x + 15) ^^^ l (x + 20)
  let d := (List.range 5).map fun x => c.getD ((x + 4) % 5) 0 ^^^ rotLane (c.getD ((x + 1) % 5) 0) 1
  (List.range 25).map fun i => l i ^^^ d.getD (i % 5) 0

/-- ρ and π: the lane at (x, y) is the rotated lane at (x + 3 y, x). -/
def rhoPi (a : List Nat) : List Nat :=
  (List.range 25).map fun i =>
    let j := (i % 5 + 3 * (i / 5)) % 5 + 5 * (i % 5)
    rotLane (a.getD j 0) (rhoOffsets.getD j 0)

/-- χ: every lane with the next but one where the next has a 0. -/
def chiStep (b : List Nat) : List Nat :=
  (List.range 25).map fun i =>
    let l := fun k => b.getD ((i % 5 + k) % 5 + 5 * (i / 5)) 0
    l 0 ^^^ ((2 ^ 64 - 1 - l 1) &&& l 2)

/-- ι: the round constant into lane 0. -/
def iotaStep (rc : Nat) : List Nat → List Nat
  | [] => []
  | x :: xs => (x ^^^ rc) :: xs

/-- Keccak-f[1600] of 25 lanes. -/
def keccakF (a : List Nat) : List Nat := (iotaA ++ iotaB).foldl (fun s rc => iotaStep rc (chiStep (rhoPi (thetaStep s)))) a

/-- Eight bytes as a lane, the first the least significant. -/
def laneOf (b : List Byte) : Nat := b.foldr (fun x n => n * 256 + x.toNat) 0

/-- The bytes of a lane. -/
def laneBytes (x : Nat) : List Byte := (List.range 8).map fun k => BitVec.ofNat 8 (x >>> (8 * k))

/-- A byte string cut into pieces of n bytes. -/
def cutBytes (n : Nat) : Nat → List Byte → List (List Byte)
  | 0, _ => []
  | k + 1, b => b.take n :: cutBytes n k (b.drop n)

/-- A rate block of 136 bytes absorbed. -/
def absorb (s : List Nat) (b : List Byte) : List Nat :=
  let ls := (cutBytes 8 17 b).map laneOf
  keccakF ((List.range 25).map fun i => s.getD i 0 ^^^ ls.getD i 0)

/-- The bytes squeezed, so many rate blocks. -/
def squeeze : Nat → List Nat → List Byte
  | 0, _ => []
  | k + 1, s => (s.take 17).flatMap laneBytes ++ squeeze k (keccakF s)

/-- A message filled up to whole rate blocks: the domain byte, zeros, and 0x80 in the last byte. -/
def padRate (dom : Nat) (m : List Byte) : List Byte :=
  let z := 135 - m.length % 136
  if z = 0 then m ++ [BitVec.ofNat 8 (dom + 0x80)] else m ++ [BitVec.ofNat 8 dom] ++ List.replicate (z - 1) 0 ++ [0x80#8]

/-- The sponge of rate 136: n bytes of output. -/
def sponge (dom : Nat) (m : List Byte) (n : Nat) : List Byte :=
  let p := padRate dom m
  (squeeze ((n + 135) / 136) ((cutBytes 136 (p.length / 136) p).foldl absorb (List.replicate 25 0))).take n

/-- SHAKE256 of an input, n output bytes. -/
def shake256 (m : List Byte) (n : Nat) : List Byte := sponge 0x1F m n

/-- The bytes of a number with none to spare, at least one. -/
def leastBe (x : Nat) : List Byte := be (max 1 ((Nat.log2 x + 8) / 8)) x

/-- left_encode of a number. -/
def leftEncode (x : Nat) : List Byte := be 1 (leastBe x).length ++ leastBe x

/-- right_encode of a number. -/
def rightEncode (x : Nat) : List Byte := leastBe x ++ be 1 (leastBe x).length

/-- encode_string: the length in bits, then the bytes. -/
def encodeString (b : List Byte) : List Byte := leftEncode (8 * b.length) ++ b

/-- bytepad to the rate: left_encode(136), the bytes, zeros. -/
def bytepad (b : List Byte) : List Byte :=
  let x := leftEncode 136 ++ b
  x ++ List.replicate ((136 - x.length % 136) % 136) 0

/-- The name "KMAC". -/
def kmacName : List Byte := [0x4B#8, 0x4D#8, 0x41#8, 0x43#8]

/-- KMAC256(key, input, output bits, customisation): block 1 the name and the customisation string, block 2 the key, then the input with
the output length, under the cSHAKE padding (R234). -/
def kmac256 (key input : List Byte) (bits : Nat) (cust : List Byte) : List Byte :=
  sponge 0x04 (bytepad (encodeString kmacName ++ encodeString cust) ++ bytepad (encodeString key) ++ input ++ rightEncode bits) (bits / 8)

end Sys2Proof.Machine
end

