-- ==== Sys2Proof/Machine/SMap.lean ====
section
/-!
DEFINITION. The sparse tables of the state: a list of (key, value) pairs in one canonical form, keys strictly rising
and no pair holding the value that an unlisted key reads as. Registers, memories and every per-number table use it.
-/
namespace Sys2Proof.Machine

/-- A table keyed by numbers; an unlisted key reads as a default that each use names. -/
abbrev SMap (β : Type) := List (Nat × β)

/-- The value at a key, or the default. -/
def smGet {β : Type} (d : β) : SMap β → Nat → β
  | [], _ => d
  | (a, v) :: r, k => if a = k then v else smGet d r k

/-- A pair put at its place by key order. -/
def smInsert {β : Type} (k : Nat) (v : β) : SMap β → SMap β
  | [] => [(k, v)]
  | (a, x) :: r => if k < a then (k, v) :: (a, x) :: r else (a, x) :: smInsert k v r

/-- Every pair but those of a key. -/
def smErase {β : Type} (k : Nat) : SMap β → SMap β
  | [] => []
  | (a, x) :: r => if a = k then smErase k r else (a, x) :: smErase k r

/-- The table with a value at a key; the default is stored by listing nothing. -/
def smPut {β : Type} [DecidableEq β] (d : β) (m : SMap β) (k : Nat) (v : β) : SMap β :=
  if v = d then smErase k m else smInsert k v (smErase k m)

/-- Whether the keys of a table rise strictly from a bound on. -/
def smSorted {β : Type} : Option Nat → SMap β → Bool
  | _, [] => true
  | none, (a, _) :: r => smSorted (some a) r
  | some b, (a, _) :: r => decide (b < a) && smSorted (some a) r

/-- The canonical form: keys strictly rising, no pair equal to the default. -/
def smWf {β : Type} [DecidableEq β] (d : β) (m : SMap β) : Bool :=
  smSorted none m && m.all fun p => decide (p.2 ≠ d)

/-- The table with a function applied to the value at a key. -/
def smMod {β : Type} [DecidableEq β] (d : β) (m : SMap β) (k : Nat) (f : β → β) : SMap β :=
  smPut d m k (f (smGet d m k))

end Sys2Proof.Machine
end

