-- ==== Sys2Proof/Machine/Types.lean ====
section
/-!
DEFINITION. The record types that the state is built from: crossing time, Wharf queues, threads, Oarsmen, commit
groups, the Hold, the Logbook. Plain data; each field names the rule of spec/ that gives it.
-/
namespace Sys2Proof.Machine

/-- Who accesses a register (R17, R43, R559): a core, PCIe, a head-end management frame, Ebfin, an Oarsman or the
seal core. -/
inductive Iface where
  | core (n : Nat)
  | pcie
  | headEnd
  | ebfin
  | oarsman (n : Nat)
  | sealCore
  deriving DecidableEq, Repr

/-- Where a 32-bit access goes: a register address (BAR0), or an offset of a queue's doorbell page (R402). -/
inductive Place where
  | reg (a : Nat)
  | door (q off : Nat)
  deriving DecidableEq, Repr

/-- An Ebfin access to an Oarsman (R440): a general register, the PC or data-memory bytes, read or written. -/
inductive EbAccess where
  | readReg (r : Nat)
  | writeReg (r : Nat) (v : Word)
  | readMem (a : Nat)
  | writeMem (a : Nat) (v : Byte)
  deriving DecidableEq, Repr

/-- What a NAND program wrote (R453, R454, R462): the journal record up to a JSEQ, map records of so many bytes, the
oldest Logbook records, a page of a logical block; `bytes` is what it took of the flush area. -/
inductive NandJob where
  | journal (bytes : Nat)
  | mapRecords (bytes : Nat)
  | logbook (records bytes : Nat)
  | page (lkey page : Nat)
  deriving DecidableEq, Repr

/-- A stamp (R59, R60): PTP time in ns, epoch, crossing time, rank, the FLAGS byte. -/
structure Stamp where
  ptp : Nat := 0
  epoch : Nat := 0
  xt : Nat := 0
  rank : Nat := 8
  flags : Nat := 0
  deriving DecidableEq, Repr

/-- One word of a Wharf item, with its poison bit (R389, R396). -/
structure WWord where
  val : DWord
  poison : Bool := false
  deriving DecidableEq, Repr

/-- A Wharf item (R390): header fields and data words. `done` is the mark of R399, `delayed` whether a perturbation still delays it (R531),
`gone` whether the launch unit removed it, `late` whether it has been counted as late (R65), `deferred` whether the duty budget has
deferred it (R194). -/
structure Item where
  flow : Nat := 0
  epoch : Nat := 0
  rank : Nat := 8
  class0 : Bool := false
  redelivered : Bool := false
  iseq : Nat := 0
  sec : Nat := 0
  ns : Nat := 0
  data : List WWord := []
  done : Bool := false
  gone : Bool := false
  delayed : Bool := false
  /-- When a delayed item becomes visible, in ns (R531). -/
  dueAt : Nat := 0
  late : Bool := false
  deferred : Bool := false
  deriving DecidableEq, Repr

/-- A hardware producer (R393) and what it goes on with when its claim is granted. -/
inductive Producer where
  | oarsman (n gd : Nat)
  | validation
  | balance
  | sealedDom
  | launchUnit
  | oarsmanBlock (n : Nat)
  deriving DecidableEq, Repr

/-- A producer waiting for room, with the item it claims for (R393). -/
structure Waiter where
  prod : Producer
  item : Item
  deriving DecidableEq, Repr

/-- A class-0 item in the priority lane (R401): held until its authentication passes. -/
structure LaneItem where
  item : Item
  hold : Bool
  missed : Bool := false
  deferred : Bool := false
  deriving DecidableEq, Repr

/-- A Wharf queue (R389 to R404): the items from MARK on, the pointers, the lane, the waiting producers, the words
claimed by staged commit enqueues, the idle timer's run bit and the launch unit's hold of the head item, with the instant it
is held for (R63): crossing time or PTP ns, and the value. -/
structure Queue where
  items : List Item := []
  mark : Nat := 0
  head : Nat := 0
  front : Nat := 0
  tail : Nat := 0
  lane : List LaneItem := []
  waiters : List Waiter := []
  claimed : Nat := 0
  idleRun : Bool := false
  held : Bool := false
  due : Option (Bool × Nat) := none
  deriving DecidableEq, Repr

/-- A doorbell page (R402): staging words by index, the item last popped, the last push's result. -/
structure Page where
  staging : SMap Word := []
  popped : List DWord := []
  hdr0 : DWord := 0
  hdr1 : DWord := 0
  res : Nat := 0
  deriving DecidableEq, Repr

/-- The states of a thread (Thread states table, R406). -/
inductive TState where
  | free | ready | prefetched | running | waiting | taking
  deriving DecidableEq, Repr

/-- A thread context (R406): control fields, program counter, fcsr and the two register files. -/
structure Thread where
  st : TState := .free
  prio : Nat := 0
  affinity : Nat := 0
  pool : Option Nat := none
  waitA : Nat := 0
  waitB : Option Nat := none
  waitSeq : Nat := 0
  waitAt : Nat := 0
  lastEvent : Nat := 0
  flow : Option Nat := none
  grant : Option Nat := none
  takeRes : Nat := 0
  pc : Nat := 0
  fcsr : Nat := 0
  x : SMap (BitVec 64) := []
  f : SMap (BitVec 64) := []
  deriving DecidableEq, Repr

/-- One core of the Ferryman's view (R408, R409): the running thread, the prefetched slot, parked and Ebfin halt. -/
structure CoreSt where
  running : Option Nat := none
  slot : Option Nat := none
  loaded : Bool := false
  parked : Bool := false
  halted : Bool := false
  deriving DecidableEq, Repr

/-- Who holds a flow tag (R414, R243, R435). -/
inductive Owner where
  | nobody
  | thread (n : Nat)
  | oarsman (n : Nat)
  | record (n : Nat)
  deriving DecidableEq, Repr

/-- A Keccak hash job of an Oarsman (R432, R433): where its output goes, the output, the result that its key and input give,
and the result once the job is complete. -/
structure HashJob where
  /-- Its precedence (R261, R433) and its place in the order of issue. -/
  cls : Nat := 2
  ord : Nat := 0
  outAddr : Nat := 0
  out : List Byte := []
  code : Nat := 0
  result : Option Nat := none
  deriving DecidableEq, Repr

/-- What a stalled or waiting Oarsman waits for (R426, R431 to R434). -/
inductive OWait where
  | none
  | events (gd a b : Nat) (hit : Option Nat)
  | crossing (gd : Nat) (target : Nat)
  | micros (untilNs : Nat)
  | room (gd : Nat)
  | entry (gd : Nat)
  | submit (gd ga : Nat)
  | job (gd tag : Nat)
  | group (gd g : Nat)
  deriving DecidableEq, Repr

/-- The STATE codes of OAR_STAT_n. -/
inductive OState where
  | notLoaded | running | waiting | halted | trapped
  deriving DecidableEq, Repr

/-- One Oarsman (R424, R431, R432, R437, R442). `haltReq` is OAR_CTRL_n.HALT, `cap*` the last XNOW capture. -/
structure Oarsman where
  st : OState := .notLoaded
  pc : Nat := 0
  g : SMap Word := []
  mem : SMap Byte := []
  latches : List Nat := []
  wait : OWait := .none
  haltReq : Bool := false
  ebHalt : Bool := false
  jobs : SMap (Option HashJob) := []
  capX : Nat := 0
  capP : Nat := 0
  capF : Nat := 0
  deriving DecidableEq, Repr

/-- The states of a commit group (Group states table, R345). -/
inductive GState where
  | free | opened | prestaged | visible | durable
  deriving DecidableEq, Repr

/-- A staged action (R347): the descriptor's fields and its 16 DATA bytes. -/
structure Action where
  kind : Nat := 0
  aflags : Nat := 0
  len : Nat := 0
  target : Nat := 0
  arg : Nat := 0
  data : List Byte := []
  deriving DecidableEq, Repr

/-- Who opened a commit group (CMT_GSTAT.ISSUER codes, R346). -/
abbrev Issuer := Nat

/-- What the device does when a group of its own becomes durable. -/
inductive GPurpose where
  | none
  | logClear
  | validation (records : List Nat)
  | boundary (q : Nat)
  | billing
  | account
  deriving DecidableEq, Repr

/-- A commit group (R344 to R362). -/
structure Group where
  st : GState := .free
  issuer : Issuer := 0
  power : Bool := false
  actions : List Action := []
  jseq : Nat := 0
  intent : Nat := 0
  arm : Nat := 0
  intentDurable : Bool := false
  keptPlaces : Nat := 0
  purpose : GPurpose := .none
  deriving DecidableEq, Repr

/-- What protects a sealed record in the Hold (R92 to R94): the write counter that it carries and the tag of each copy. -/
structure Seal where
  ctr : Nat := 0
  tags : List (List Byte) := []
  deriving DecidableEq, Repr

/-- What the Hold gives back for one copy of a sealed record (R92, R94), by table, key and copy: the write counter, the tag and the
body that are read, each as it was stored where nothing is named. -/
structure SealRead where
  tab : Nat
  key : Nat
  copy : Nat
  ctr : Option Nat
  tag : Option (List Byte)
  body : Option (List Nat)
  deriving DecidableEq, Repr

/-- A change of stored content that a group makes when it takes effect (R353, R361): what the Hold keeps across a reset. -/
inductive StoreUpd where
  | counterAdd (c : Nat) (v : Int)
  | counterSet (c : Nat) (v : Int)
  | ctx (slot off : Nat) (bytes : List Byte)
  | holdWrite (addr : Nat) (bytes : List Byte)
  | append (region : Nat) (bytes : List Byte)
  | record (table key : Nat) (value : List Nat)
  | sealed (table key : Nat) (value : List Nat) (x : Seal)
  deriving DecidableEq, Repr

/-- A journal record (R360): TYPE 1 commit, 2 intent, 3 seal, 4 withdraw; its actions with the data that each carries, and what they
change in the stored content. -/
structure JRec where
  typ : Nat := 1
  group : Nat := 0
  acts : List Action := []
  jseq : Nat := 0
  stamp : Stamp := {}
  jflags : Nat := 0
  arm : Nat := 0
  ref : Nat := 0
  upds : List StoreUpd := []
  durable : Bool := false
  damaged : Bool := false
  deriving DecidableEq, Repr

/-- A Logbook record (R469): number, fields and payload; the CRC is formed when it is read. `jseq` is that of the group that appended it,
0 for a device record. -/
structure LogRec where
  num : Nat := 0
  jseq : Nat := 0
  typ : Nat := 0
  source : Nat := 0
  flags : Nat := 0
  extra : Nat := 0
  opsec : Nat := 0
  pcycle : Nat := 0
  payload : List Byte := []
  crcBad : Bool := false
  deriving DecidableEq, Repr

/-- A stream of the Hold (R447): HEAD, TAIL and the records between, each at its offset. -/
structure Stream where
  head : Nat := 0
  tail : Nat := 0
  recs : List (Nat × List Byte) := []
  fullSeen : Bool := false
  refusing : Bool := false
  deriving DecidableEq, Repr

/-- What the Hold keeps across a reset: commit counters, endpoint contexts by byte (slot × 1,024 + offset), addressed
regions by logical address, streams, records as numbered fields by table and key, the seals of the sealed domain's records by
the same table and key (R92), the billing set as the checkpoint before the newest held it (R94). The device holds one effective
copy and one durable copy of it (R355, R356, R361). -/
structure Image where
  counters : SMap Int := []
  ctx : SMap Byte := []
  bytes : SMap Byte := []
  streams : SMap Stream := []
  tables : SMap (SMap (List Nat)) := []
  seals : SMap (SMap Seal) := []
  prev : SMap (List Nat) := []
  deriving DecidableEq, Repr

/-- A Hold region as the Manifest defines it (R445): size in bytes, mode, kind, domain, logical-block bytes. -/
structure Region where
  size : Nat := 0
  slc : Bool := false
  stream : Bool := false
  keep : Bool := false
  isSealed : Bool := false
  deriving DecidableEq, Repr

/-- A physical block of the Hold (R448 to R458): pool (0 TLC, 1 SLC), use, P/E count. -/
inductive BUse where
  | free | data (l : Nat) | log (l : Nat) | erasing | retired | flushArea | dest (l : Nat)
  deriving DecidableEq, Repr

/-- A physical block and its state. `pages` is the logical page in each programmed page of a log block. -/
structure Block where
  pool : Nat := 0
  use : BUse := .free
  pe : Nat := 0
  pages : List Nat := []
  lastProg : Nat := 0
  refresh : Bool := false
  closed : Bool := false
  deriving DecidableEq, Repr

/-- A merge or move that runs (R450, R456): the logical block, its log block, destination, start, whether a discard drops the block at the
switch (R451), whether its merge record is durable and its copy may begin (R450). -/
structure Merge where
  lb : Nat
  logBlk : Option Nat
  dst : Nat
  startedAt : Nat
  move : Bool
  drop : Bool := false
  logged : Bool := false
  deriving DecidableEq, Repr

/-- NAND work beside the flush set and the journal (R455): map records, a read, the placement of a page, a merge or move of a logical
block, the erase of a block. -/
inductive NandKind where
  | mapRec | read | place (l p : Nat) | merge (l : Nat) | erase (b : Nat)
  deriving DecidableEq, Repr

/-- NAND work that waits or is in progress (R455). -/
structure NandWork where
  kind : NandKind
  started : Bool := false
  deriving DecidableEq, Repr

/-- A logical page that the Hold's buffers gather (R453): its bytes written so far, when the first one was and in what window, the JSEQ it
began with, whether it is to be programmed, the log block of a word line that it was programmed into and that is not complete. -/
structure PageBuf where
  lkey : Nat := 0
  page : Nat := 0
  mask : Nat := 0
  opened : Nat := 0
  window : Option Nat := none
  first : Nat := 0
  due : Bool := false
  line : Option Nat := none
  deriving DecidableEq, Repr

/-- A program into the flush area (R454): its bytes, the newest JSEQ at it, whether it holds map records that no later map image
covers. -/
structure FlushRec where
  bytes : Nat := 0
  jseq : Nat := 0
  map : Bool := false
  deriving DecidableEq, Repr

/-- A discard applied or waiting for a switch (R451, R459): first byte, length, JSEQ of the last group before it. -/
structure Discard where
  addr : Nat
  len : Nat
  jseq : Nat
  durable : Bool := false
  was : SMap Byte := []
  deriving DecidableEq, Repr

/-- An anchor of a hub (R53): crossing number, PTP time in ns, frequency in 2^-16 Hz, grid domain. -/
structure Anchor where
  crossing : Nat := 0
  ptp : Nat := 0
  freq : Nat := 0
  dom : Nat := 0
  deriving DecidableEq, Repr

/-- What a PLC receive path took of one frame (R104 to R118): the phases whose preamble was detected, whether the FCH check held,
the band and modulation are supported, announced modulation and length, Reed-Solomon success, bytes decoded before the signal was
lost, the PGA step the AGC chose, the preamble SNR and the SNR of each tone-map group by phase (linear, in thousandths), the ADC
samples by phase, symbol for symbol, the first `pre` symbols being the preamble, noise floor code, the samples before the frame and the
DAC samples sent meanwhile by phase, the PSDU. -/
structure PlcRx where
  detected : List Nat
  fchOk : Bool
  supported : Bool
  modc : Nat
  len : Nat
  rsOk : Bool
  lost : Option Nat
  gains : List Nat
  snrs : List Nat
  groups : List (List Nat)
  samples : List (List (List Int))
  pre : Nat
  noise : Nat
  before : List (List Int)
  dac : List (List Int)
  psdu : List Byte
  deriving DecidableEq, Repr

/-- What the paths sent and received while a frame was sent (R116): by phase the DAC samples from 63 before the first on, and the ADC
samples. -/
structure XtcRead where
  dac : List (List Int)
  rx : List (List Int)
  deriving DecidableEq, Repr

/-- What the LPDDR5 controller meets at a read of a line (R552): no error, a single-bit error, an uncorrectable one. -/
inductive LineRead where
  | clean
  | corrected
  | damaged
  deriving DecidableEq, Repr

/-- A validation place, and whether reading its buffer words found poison (R241). -/
structure PlaceRead where
  place : Nat
  poison : Bool
  deriving DecidableEq, Repr

/-- The last samples of a path's current-sense converter (R120). -/
structure IsnsRead where
  path : Nat
  samples : List Nat
  deriving DecidableEq, Repr

/-- How a radio transmission ended (R172, R195): 0 sent, 2 no acknowledgement, any other a channel access failure; the transmissions
that the MAC made. -/
structure RadDone where
  result : Nat
  tries : Nat
  deriving DecidableEq, Repr

/-- What a die's ONFI parameter page says (R444): page size and erase block size in bytes, block count. -/
structure DieParam where
  page : Nat := 16384
  block : Nat := 4194304
  count : Nat := 0
  deriving DecidableEq, Repr

/-- An address of an IEEE 802.15.4 frame. -/
inductive RadAddr where
  | absent
  | short (a : Nat)
  | ext (e : Nat)
  deriving DecidableEq, Repr

/-- A received radio frame by the fields of IEEE 802.15.4-2020 (R172): FCS result, version, information elements, type (1 data,
2 acknowledgement, 3 command), sequence, PANs and addresses, acknowledgement request, security with key identifier mode,
key index and frame counter, the header bytes that CCM* authenticates, the payload as received (ciphertext and tag where
secured), and the airtime in µs of an acknowledgement to it. -/
structure RadRx where
  fcsOk : Bool
  version : Nat
  hasIe : Bool
  typ : Nat
  seq : Nat
  dstPan : Nat
  dst : RadAddr
  srcPan : Nat
  src : RadAddr
  ackReq : Bool
  secured : Bool
  keyMode : Nat
  keyIdx : Nat
  fcnt : Nat
  hdr : List Byte
  payload : List Byte
  ackAir : Nat
  deriving DecidableEq, Repr

/-- The pins of the Pin states table (R526), by phase, radio port, Ethernet port or NAND channel. -/
inductive Pin where
  | drven (p : Nat)
  | txdac (p : Nat)
  | paen (r : Nat)
  | txrx (r : Nat)
  | lnaen (r : Nat)
  | rfCs (r : Nat)
  | rfLink (r : Nat)
  | ethTx (x : Nat)
  | pcieTx
  | lp5
  | nand (c : Nat)
  | xspi
  | panRow (n : Nat)
  | panCol (n : Nat)
  | kpRow
  | kpCol
  | sealA
  | avs
  | ebfTdo
  | input
  deriving DecidableEq, Repr

/-- How a pin stands (Pin states table, R526): `select` is chip select high with write protection low, `pulled` an input with its
pull-up, `idle` electrical idle, `mid` a DAC at mid-scale, `driven` under the control of its block. -/
inductive PinLevel where
  | low
  | high
  | hiZ
  | input
  | pulled
  | idle
  | noSwing
  | mid
  | select
  | driven
  deriving DecidableEq, Repr

/-- A PLC frame as it leaves a phase (R100, R110 to R113, R117): attenuation in dB below full scale, delay in 1/16 ADC sample, band,
modulation code, tone map, PSDU. -/
structure PlcTx where
  level : Nat
  delay : Nat
  band : Nat
  modc : Nat
  tones : Nat
  psdu : List Byte
  deriving DecidableEq, Repr

/-- What leaves the device (the model's own record of it; log entry 9). -/
inductive Output where
  | plcFrame (phase : Nat) (x : PlcTx)
  | plcLevel (phase : Nat) (level : Nat)
  | pin (p : Pin) (l : PinLevel)
  | radioFrame (port : Nat) (bytes : List Byte)
  | radioPreamble (port octets : Nat)
  | radioAck (port seq : Nat) (pending : Bool)
  | ethFrame (port : Nat) (bytes : List Byte)

  | msix (vector : Nat)
  | managementAnswer (bytes : List Byte)
  | pcieRead (value : Word)
  | readValue (i : Iface) (value : Word)
  | panelDrive (frame supply : Nat) (levels : List Nat)
  | avsRequest (mv : Nat)
  | coreClock (code : Nat)
  | pulses (n : Nat)
  deriving DecidableEq, Repr

end Sys2Proof.Machine
end

