-- ==== Sys2Proof/Machine/Manifest.lean ====
section
/-!
DEFINITION. What a verified Manifest says, as plain data (R494 to R499): the values of the registers marked Manifest
and the tables of its sections. The spec gives the sections' contents and no byte layout, so the content is held as
data (log entry 8).
-/
namespace Sys2Proof.Machine

/-- Who may push to a queue, or pops from it (R393, R402, R438): the application cores, PCIe, a Ferryman pool, an
Oarsman, a head-end path, or a hardware unit. -/
inductive Agent where
  | cores
  | pcie
  | pool (n : Nat)
  | oarsman (n : Nat)
  | hardware
  deriving DecidableEq, Repr

/-- A thread that exists at start-up (R416). -/
structure ThreadInit where
  num : Nat := 0
  pc : Nat := 0
  arg : Nat := 0
  prio : Nat := 0
  affinity : Nat := 0
  pool : Option Nat := none
  deriving DecidableEq, Repr

/-- One range of an access or privilege map: addresses lo to hi, written as well as read. -/
structure Range where
  lo : Nat := 0
  hi : Nat := 0
  write : Bool := false
  deriving DecidableEq, Repr

/-- The program section of one Oarsman (R438). -/
structure OarProg where
  code : List Word := []
  data : List Byte := []
  events : List Nat := []
  consumes : List Nat := []
  produces : List Nat := []
  access : List Range := []
  keys : List Nat := []
  deriving DecidableEq, Repr

/-- The privilege map of one window or interface (R43, R348, R416): register ranges, commit targets (KIND and target
range), whether it may create threads, the key slots it may touch. -/
structure Priv where
  regs : List Range := []
  commit : List (Nat × Nat × Nat) := []
  create : Bool := false
  keys : List Nat := []
  sram : List Range := []
  hold : List Nat := []
  deriving DecidableEq, Repr

/-- The roles that the Manifest gives queues. 0 means none: queue numbers are kept plus 1. -/
structure QRoles where
  plcLaunch : List Nat := []
  plcRx : List Nat := []
  radLaunch : List Nat := []
  radIndirect : List Nat := []
  radRx : List Nat := []
  ethLaunch : List Nat := []
  ethRx : List Nat := []
  gwyLaunch : List Nat := []
  gwyRx : Nat := 0
  sealedIn : Nat := 0
  sealedOut : Nat := 0
  tariffIn : Nat := 0
  tokenIn : Nat := 0
  balanceIn : Nat := 0
  balanceOut : Nat := 0
  keypad : Nat := 0
  batch : Nat := 0
  validIn : List Nat := []
  completion : List Nat := []
  display : Nat := 0
  deriving DecidableEq, Repr

/-- Where a Gangway peer is reached (R214): Ethernet port, MAC address, IP address; the spec does not say how the Manifest gives them
(PRESUMED, log entry 122). -/
structure NetPlace where
  port : Nat := 0
  mac : List Byte := []
  ip : List Byte := []
  deriving DecidableEq, Repr

/-- A chip that a hub has enrolled (R216, R259): identity, fingerprint, slot of its link key, slot of its identity key. -/
structure ChipEnrol where
  eui : Nat := 0
  fingerprint : Nat := 0
  linkKey : Nat := 0
  idKey : Nat := 0
  domain : Nat := 0
  place : NetPlace := {}
  deriving DecidableEq, Repr

/-- What the PINS section says of one pin (R496, R553): function, pull, slew class, glitch filter. -/
structure PinCfg where
  pin : Nat := 0
  fn : Nat := 0
  pull : Nat := 0
  slew : Nat := 0
  filter : Nat := 0
  deriving DecidableEq, Repr

/-- A node of the balance tree (R283): REF_KIND, PHASE (3 all), parent, loss coefficients, reference index, thresholds. -/
structure NodeCfg where
  refKind : Nat := 0
  phase : Nat := 3
  parent : Option Nat := none
  k0 : Nat := 0
  k1 : Nat := 0
  k2 : Nat := 0
  refIndex : Nat := 0
  absWh : Nat := 0
  lossPm : Nat := 0
  negPm : Nat := 0
  deriving DecidableEq, Repr

/-- An entry of a KEYS section (R497): slot, attribute word, the key, in the clear or wrapped under the transport key of the chip with the
EUI-64 it names, whether it stands in the sealed part. -/
structure KeyEntry where
  slot : Nat := 0
  attr : Word := 0
  key : List Byte := []
  eui : Option Nat := none
  isSealed : Bool := false
  deriving DecidableEq, Repr

/-- A Manifest in force. -/
structure Manifest where
  regs : SMap Word := []
  keyEntries : List KeyEntry := []
  queues : List Nat := []
  producers : SMap (List Agent) := []
  consumers : SMap (Option Agent) := []
  roles : QRoles := {}
  pools : SMap (List Nat) := []
  threads : List ThreadInit := []
  priv : SMap Priv := []
  oar : SMap OarProg := []
  regions : SMap Region := []
  blockBytes : Nat := 4194304
  /-- Physical blocks of the TLC and SLC pools, their spares and rated endurance (R456, R458, R461). -/
  tlcBlocks : Nat := 0
  slcBlocks : Nat := 0
  /-- Dies fitted (R443). -/
  dies : Nat := 1
  spares : SMap Nat := []
  rated : SMap Nat := []
  /-- Channel full scales in mV or mA and nominal phase power in mW (R77, R79). -/
  fullScale : SMap Nat := []
  nominalPower : Nat := 0
  /-- Pulse constant of the test output in mWh of active energy, import or export, 0 for none (R496, METROLOGY; log entry 138). -/
  pulseMwh : Nat := 0
  /-- macMaxFrameRetries (R172). -/
  macRetries : Nat := 3
  /-- Hub identifier of this chip or of its hub, 0 for no hub (R12), and the head-end domain identifier, 64 bits (R9). -/
  hubId : Nat := 0
  headDomain : Nat := 0
  /-- LPDDR5 size in bytes that the MEMORY section declares (R1, R2); 2 GiB, the least of R1, before a Manifest is in force. -/
  dram : Nat := 2147483648
  /-- The PINS section (R496, R553). -/
  pins : List PinCfg := []
  profiles : List Nat := []
  defaultProfile : Nat := 0
  nominalPeriod : Nat := 20000000
  /-- Where the endpoint table lies in LPDDR5 (R265): base and bytes. -/
  eptBase : Nat := 0
  /-- Transaction quotas by issuer (R280). -/
  quota : SMap Nat := []
  /-- First slots of key families: cell keys by cell, Gangway link key and head-end keys (R216, R212). -/
  cellKey : SMap Nat := []
  linkKey : Nat := 0
  headKey : Nat := 0
  headC0Key : Nat := 0
  /-- Chips a hub has enrolled (R216, R259). -/
  chips : List ChipEnrol := []
  /-- Class-0 map: target launch queue plus 1 by cell number (R211). -/
  c0Map : SMap Nat := []
  /-- Load-profile retention in days (R278), batches that may wait unacknowledged (R258). -/
  retention : Nat := 0
  batchLimit : Nat := 0
  /-- Hold region of evidence batches (R256). -/
  batchRegion : Nat := 0
  /-- The Hold region of the Logbook (R447, R471). -/
  logRegion : Nat := 5
  eptBytes : Nat := 0
  /-- Base of the balance records (R287). -/
  balBase : Nat := 0
  /-- Base of the enrolment store (R272); the other regions of the MEMORY section, base and bytes (R496). -/
  enrolBase : Nat := 0
  mem : List (Nat × Nat) := []
  /-- IP addresses of this chip (4 or 16 bytes) and MAC addresses by port (R211). -/
  ipAddrs : List (List Byte) := []
  macs : SMap (List Byte) := []
  /-- Where this chip's hub and its head end are reached (R214). -/
  hubPlace : NetPlace := {}
  headPlace : NetPlace := {}
  /-- The balance tree (R283). -/
  nodes : SMap (Option NodeCfg) := []
  /-- Tariff calendars by group (no bytes: none) and Manifest default rates (R301). -/
  calendars : SMap (List Byte) := []
  defaultRates : SMap Nat := []
  /-- First slot of the token issuer keys (R368); the pixels of the legal mask (R382). -/
  tokenKey : Nat := 0
  legalMask : List Nat := []
  deriving DecidableEq, Repr

/-- A part of a copy (R495): its bytes from offset 0 up to the signature, and whether the signature over them verifies under its AUTH_KEY
(log entry 108). -/
structure MPart where
  bytes : List Byte := []
  sigOk : Bool := false
  deriving DecidableEq, Repr

/-- A firmware slot (R492, R498): the hash that its entry gives, the image's body, whether its signature verifies under the VERIFY slot that
the entry names, whether the sealed part names it. -/
structure FwImg where
  listed : List Byte := []
  body : List Byte := []
  sigOk : Bool := true
  isSealed : Bool := false
  deriving DecidableEq, Repr

/-- A copy of the Manifest (R494, R502 to R506): the 64 bytes of its container header, its parts, what its sections say, its firmware slots
in order, CONFIRM_S, and the checks that its bytes fail beyond what this content shows (log entry 108), as (part, section, check,
code). -/
structure MCopy where
  header : List Byte := []
  opn : MPart := {}
  sld : MPart := {}
  man : Manifest := {}
  fw : List FwImg := []
  confirmS : Nat := 0
  fails : List (Nat × Nat × Nat × Nat) := []
  deriving DecidableEq, Repr

/-! ### The bytes of a copy -/

/-- LEVEL of a part (Part layout table). -/
def MPart.level (p : MPart) : Nat := beAt p.bytes 12 1

/-- The hash of a part's AUTH_KEY, to compare with an authority entry (R500). -/
def MPart.auth (p : MPart) : List Byte := shake256 (slice p.bytes 16 64) 32

/-- NEXT_AUTH of a part, empty for none. -/
def MPart.nextAuth (p : MPart) : List Byte := if (slice p.bytes 80 32).all (· == 0) then [] else slice p.bytes 80 32

/-- The part hash (R495). -/
def MPart.hash (p : MPart) : List Byte := shake256 p.bytes 32

/-- The directory of a part: TYPE, OFFSET, LENGTH, CRC-32C of each section. -/
def MPart.directory (p : MPart) : List (Nat × Nat × Nat × Nat) :=
  (List.range (beAt p.bytes 13 1)).map fun i =>
    (beAt p.bytes (128 + 16 * i) 1, beAt p.bytes (132 + 16 * i) 4, beAt p.bytes (136 + 16 * i) 4, beAt p.bytes (140 + 16 * i) 4)

/-- Whether MAGIC, LEN and the directory of a part hold (check 2): its sections aligned to 8 bytes and within the part. -/
def MPart.formOk (p : MPart) (magic : Nat) : Bool :=
  decide (beAt p.bytes 0 4 = magic) && decide (beAt p.bytes 4 4 = p.bytes.length + 2820) &&
    decide (1 ≤ beAt p.bytes 13 1) && decide (beAt p.bytes 13 1 ≤ 32) && decide (128 + 16 * beAt p.bytes 13 1 ≤ p.bytes.length) &&
    p.directory.all fun e => decide (e.2.1 % 8 = 0) && decide (e.2.1 + e.2.2.1 ≤ p.bytes.length)

/-- The sections of a part whose CRC-32C fails (check 2). -/
def MPart.crcFails (p : MPart) : List Nat :=
  (p.directory.filter fun e => crc32c (slice p.bytes e.2.1 e.2.2.1) != e.2.2.2).map (·.1)

/-- Section types that may stand in the open part, and in the sealed part (Section types table). -/
def sectionTypes (sealedPart : Bool) : List Nat :=
  if sealedPart then [0x05, 0x0B, 0x0C, 0x0D, 0x0E, 0x10, 0x11]
  else [0x01, 0x02, 0x03, 0x04, 0x05, 0x06, 0x07, 0x08, 0x09, 0x0A, 0x0B, 0x0C, 0x0F, 0x10, 0x11]

/-- Section types that must stand in the part. -/
def sectionsNeeded (sealedPart : Bool) : List Nat :=
  if sealedPart then [0x05, 0x0D, 0x0E] else [0x01, 0x02, 0x03, 0x04, 0x05, 0x06, 0x07, 0x08, 0x0A]

/-- Sections of a part that are misplaced, there twice or missing (check 6, R496); PROGRAM may repeat. -/
def MPart.placeFails (p : MPart) (sealedPart : Bool) : List Nat :=
  let ts := p.directory.map (·.1)
  (ts.filter fun t => decide (t ∉ sectionTypes sealedPart) || (t != 5 && decide (1 < ts.count t)) || (t == 5 && decide (16 < ts.count t))) ++
    (sectionsNeeded sealedPart).filter fun t => decide (t ∉ ts)

/-- Check 1 of a container header: MAGIC, VERSION, LEN of at most 8 MiB, CRC with STATE taken as 0xFF. -/
def MCopy.good (c : MCopy) : Bool :=
  decide (beAt c.header 0 4 = 0x434D4631) && decide (beAt c.header 4 1 = 1) && decide (beAt c.header 12 4 ≤ 0x800000) &&
    decide (beAt c.header 56 4 = crc32c ((patch c.header 5 [0xFF#8]).take 56))

/-- STATE of a copy (Copy states table). -/
def MCopy.st (c : MCopy) : Nat := beAt c.header 5 1

/-- SEQ of a copy. -/
def MCopy.seq (c : MCopy) : Nat := beAt c.header 8 4

/-- VARIANTS of a copy. -/
def MCopy.variants (c : MCopy) : Nat := beAt c.header 6 2

/-- STATE programmed in place. -/
def MCopy.setSt (c : MCopy) (n : Nat) : MCopy := { c with header := patch c.header 5 (be 1 n) }

/-- A copy whose header sector is erased (R506). -/
def MCopy.erased (c : MCopy) : MCopy := { c with header := List.replicate 64 0xFF#8 }

/-- The firmware hash of a slot (R492). -/
def FwImg.hash (f : FwImg) : List Byte := shake256 f.body 32

/-- Check 16: an image fails its hash or its signature (R492, R498). -/
def MCopy.fwFails (c : MCopy) : List (Nat × Nat × Nat × Nat) :=
  (c.fw.filter fun f => !f.sigOk || decide (f.listed ≠ f.hash)).map fun f => (if f.isSealed then 2 else 1, 0x0C, 16, 0x0B)

end Sys2Proof.Machine
end

