-- ==== Sys2Proof/Syntax.lean ====
section
/-!
DEFINITION. The commands: one constructor for each row of spec/opcode_table.json. The operands are what the outside
world gives with the command (who writes, what is written, what was measured or received); what the device already
holds is read from its state.
-/
namespace Sys2Proof
open Sys2Proof.Machine

/-- A command of the block. -/
inductive Instr where
  /-- REGISTER_WRITE: A 32-bit write to a register that has no row of its own takes effect atomically, field by field, as the access codes allow (R19). -/
  | registerWrite (i : Iface) (p : Place) (width : Nat) (v : Word)
  /-- PROFILE_REQUEST: A write to SYS_PROFILE_CTRL leaves a profile request pending, cancels it, or is rejected when the Manifest does not permit the profile (R39). -/
  | profileRequest (i : Iface) (v : Word)
  /-- PROFILE_CHANGE: At a superframe boundary a pending profile request is applied in the fixed order of voltage, clock, engine parking and core parking (R37). -/
  | profileChange
  /-- L1_CROSSING: A rising zero crossing on L1 is judged against the valid period range and, when valid, counted and acted on (R48). `raw` holds the samples of the complete crossing before it, by channel. -/
  | l1Crossing (raw : List (List Int))
  /-- PHASE_CROSSING: A rising crossing on L2 or L3 is measured as a phase offset from L1 (R49). `p` is 1 for L2 and 2 for L3. -/
  | phaseCrossing (p : Nat)
  /-- COASTING_BEGINS: No valid L1 crossing within 1.5 periods starts coasting, issues the placed crossing and raises event 18 (R50). `raw` holds the samples up to the placed crossing. -/
  | coastingBegins (raw : List (List Int))
  /-- COASTED_CROSSING: While coasting, each further crossing falls one held period after the previous placed instant (R50). `raw` holds the samples of the crossing before it. -/
  | coastedCrossing (raw : List (List Int))
  /-- ANCHOR_AGE_EXPIRY: An accepted anchor older than 512 crossings stops being used and ANCHOR_LOCK drops (R54). -/
  | anchorAgeExpiry
  /-- HOLDOVER_EXPIRY: 72 h after the last SYNCED instant in HOLDOVER the trust state becomes UNTRUSTED with cause 0x02 (R70). -/
  | holdoverExpiry
  /-- LEAP_INSTANT: At an announced leap instant the TAI-to-UTC offset changes and event 31 is raised (R58). -/
  | leapInstant
  /-- XING_LATCH: A write of LATCH captures PTP time and crossing time at one tick into the latch registers (R59). -/
  | xingLatch (i : Iface)
  /-- XING_LATE_CLEAR: A write of CLR to XING_LATE_q sets LATE and FAR to 0 (R65). -/
  | xingLateClear (i : Iface) (q : Nat)
  /-- LAUNCH_ITEM_AT_HEAD: An item reaching the head of a launch queue is sent, held for its instant, or removed (R63). -/
  | launchItemAtHead (q air : Nat)
  /-- LAUNCH_INSTANT_REACHED: A held launch item starts on the medium at its set PTP or crossing-time instant (R63). -/
  | launchInstantReached (q air : Nat)
  /-- SNAPSHOT_LATCH: At the L1 crossing of snapshot crossing N the metrology latches its four energy counters and raises event 48 (R81). -/
  | snapshotLatch
  /-- CALIBRATION_WRITE: A write to a calibration register changes its staged value only (R83). -/
  | calibrationWrite (i : Iface) (a : Nat) (v : Word)
  /-- CAL_COMMIT: A write of COMMIT copies the staged calibration set for application at the next counted L1 crossing (R84). -/
  | calCommit (i : Iface)
  /-- CAL_DISCARD: A write of DISCARD returns staged values to the active ones and cancels a waiting commit (R85). -/
  | calDiscard (i : Iface)
  /-- CAL_COMMIT_APPLY: At the next counted L1 crossing the copied set is applied, hashed, logged and event 51 raised (R84). -/
  | calCommitApply
  /-- MET_QTY_CAPTURE: A read of MET_QTY_HI captures all 64 bits of the selected quantity (R80). -/
  | metQtyCapture (i : Iface)
  /-- SEAL_CLOSE_REQUEST: A write of CLOSE checks the close conditions and starts a one-second watch of the loop, or is refused (R89). -/
  | sealCloseRequest (i : Iface) (v : Word)
  /-- SEAL_CLOSE_JUDGED: At the end of the close second the conditions are checked again and the seal closes or the request is refused (R89). -/
  | sealCloseJudged
  /-- SEAL_OPENING: A loop mismatch longer than FILTER opens the seal, counts a break and logs type 0x02 (R87). -/
  | sealOpening
  /-- PLC_FRAME_RECEIVED: A PLC frame whose preamble is detected is decoded, given a verdict and delivered or counted (R106). -/
  | plcFrameReceived (p : Nat) (x : PlcRx)
  /-- PLC_TRANSMIT_COMPLETE: A PLC frame leaves the launch queue and yields a completion with status and limiter steps (R114). -/
  | plcTransmitComplete (c : Nat) (x : XtcRead)
  /-- DRIVE_LIMIT_DETECTION: ISNS above LIMIT on 4 of 16 samples adds a 3 dB limiter step at the next symbol boundary (R120). `x` holds the last 16 samples; `last` is set in the frame's last symbol. -/
  | driveLimitDetection (x : Machine.IsnsRead) (last : Bool)
  /-- DRIVER_TRIP: ISNS above TRIP on 5 samples lowers DRVEN, ends the frame with status 0x02 or latches the driver off (R120). `x` holds the last 5 samples. -/
  | driverTrip (x : Machine.IsnsRead)
  /-- DRIVER_REARM: A tripped driver re-arms at the first superframe boundary at least 32 crossings later (R121). -/
  | driverRearm (p : Nat)
  /-- TRIPPED_CLEAR: A write of 1 to TRIPPED clears TRIPPED, OFF and REARMS and re-arms the driver at once (R121). -/
  | trippedClear (i : Iface) (p : Nat)
  /-- PLC_RX_CNT_CLEAR: A write of CLR to PLC_RX_CNT_p sets BAD and IMPULSE to 0 (R106). -/
  | plcRxCntClear (i : Iface) (p : Nat)
  /-- CELL_KEY_SWITCH: The cell switches key generation at the first superframe after all acknowledgements or 96 h (R127). -/
  | cellKeySwitch (c : Nat)
  /-- EXCHANGE_PLANNED: Oarsman 3 picks the next exchange by precedence, takes a transaction entry and places it by the chain rule (R143). -/
  | exchangePlanned (c : Nat)
  /-- UPWARD_FRAME_FAILED: An upward frame missing at the end of its planned slots makes the chip retry more robustly or end the exchange unreached (R144). -/
  | upwardFrameFailed (c fseq : Nat)
  /-- RESPONSE_RECEIVED: A RESPONSE reaching the chip updates link codes and passes its data on (R150). -/
  | responseReceived (c : Nat) (psdu : List Byte)
  /-- PLC_ACK_RECEIVED: An endpoint ACK to a command or route set releases or keeps the marked launch item (R147). -/
  | plcAckReceived (c : Nat) (psdu : List Byte)
  /-- JOIN_REQUEST_RECEIVED: A JOIN_REQUEST is decided in table order and answered with JOIN_ANSWER (R156). -/
  | joinRequestReceived (c : Nat) (psdu : List Byte)
  /-- CLASS0_WINDOW: At the start of a class-0 window the next released class-0 command is sent as a CLASS0 frame (R165). -/
  | class0Window (c : Nat)
  /-- PLC_ROUTE_QUERY: A write to PLC_ROUTE_SEL captures the route of the addressed endpoint into PLC_ROUTE_DATA0 to 2 (R152). -/
  | plcRouteQuery (i : Iface) (v : Word)
  /-- PLC_XCH_FAIL_CLEAR: A write of CLR to PLC_XCH_FAIL_c sets RETRIES and UNREACHED to 0 (R144). -/
  | plcXchFailClear (i : Iface) (c : Nat)
  /-- RADIO_FRAME_RECEIVED: A received radio frame is filtered, acknowledged if requested and security-checked (R179). -/
  | radioFrameReceived (r : Nat) (x : RadRx)
  /-- DATA_REQUEST: A data request is answered with the pending bit from the table and followed by the waiting item or NONE (R185). -/
  | dataRequest (r air : Nat) (x : RadRx)
  /-- INDIRECT_ITEM_UNACKED: An indirect data frame left unacknowledged is rewound for the next data request (R187). -/
  | indirectItemUnacked (r a : Nat)
  /-- ASSOCIATION_REQUEST: An association request is answered with the status of the first applicable decision row (R184). -/
  | associationRequest (r : Nat) (x : RadRx) (caps parent : Nat)
  /-- PROVISIONAL_EXPIRY: A provisional endpoint silent for 60 s loses its short address and raises event 3 of the port (R184). -/
  | provisionalExpiry (r a : Nat)
  /-- READING_MESSAGE: A radio READING message delivers a CRR to the pipeline (R188). `msg` is FLAGS, then the body. -/
  | readingMessage (r a : Nat) (msg : List Byte)
  /-- SEGMENT_MESSAGE: A radio SEGMENT message delivers part of a legal session record for reassembly (R237). -/
  | segmentMessage (r a : Nat) (body : List Byte)
  /-- RADIO_ACK_MESSAGE: A radio ACK message acknowledges a command under the duplicate rules (R188). -/
  | radioAckMessage (r a : Nat) (body : List Byte)
  /-- RELAY_MESSAGE: A RELAY message carries a complete radio message to or from a depth-2 endpoint (R183). -/
  | relayMessage (r a : Nat) (body : List Byte)
  /-- COVER_PLAN: A deadline item or 3 missed data requests make the chip plan a sampled-listening cover transmission (R190). -/
  | coverPlan (r a : Nat)
  /-- COVER_UNACKED: An unacknowledged cover data frame doubles the guard and replans, up to 3 times (R192). -/
  | coverUnacked (r : Nat)
  /-- DUTY_BIN_BOUNDARY: At each bin boundary the duty account advances and held frames are re-checked (R194). -/
  | dutyBinBoundary (r air : Nat)
  /-- PEND_FORCE_SET: RAD_PEND_CTRL OP 0b01 sets FORCE for a short address (R185). -/
  | pendForceSet (i : Iface) (r a : Nat)
  /-- PEND_FORCE_CLEAR: RAD_PEND_CTRL OP 0b10 clears FORCE for a short address (R185). -/
  | pendForceClear (i : Iface) (r a : Nat)
  /-- PEND_QUERY: RAD_PEND_CTRL OP 0b11 captures the pending state into RAD_PEND_STAT_r (R185). -/
  | pendQuery (i : Iface) (r a : Nat)
  /-- RAD_ERR_CLEAR: A write of CLR to RAD_ERR_r sets SECFAIL and FILTERED to 0 (R181). -/
  | radErrClear (i : Iface) (r : Nat)
  /-- SPI_TIMEOUT: An SPI transfer to the transceiver times out and raises event 10 of the port (R173). -/
  | spiTimeout (r : Nat)
  /-- ETH_FRAME_RECEIVED: An Ethernet frame is accepted or discarded, parsed and passed to its queue (R202). -/
  | ethFrameReceived (x : Nat) (fcsOk : Bool) (b : List Byte)
  /-- ETH_LINK_CHANGE: The link of an Ethernet port changes state and raises event 160 or 161 (R201). -/
  | ethLinkChange (x : Nat) (up : Bool) (speed : Nat)
  /-- CLASS0_AUTH_DONE: Authentication of a held class-0 item completes, releasing the hold or removing the item (R28). -/
  | class0AuthDone (q : Nat)
  /-- PTP_SYNC_RECEIVED: A Sync in the slave state gives an offset from which the servo steps or slews the time-stamp unit (R209). `b` is the PTP message. -/
  | ptpSyncReceived (x : Nat) (b : List Byte)
  /-- SYNC_TIMEOUT: No accepted Sync for 3 Sync intervals unlocks the servo (R210). -/
  | syncTimeout
  /-- PTP_ANNOUNCE_RECEIVED: An Announce from the selected master supplies the UTC offset and any leap (R58). `b` is the PTP message. -/
  | ptpAnnounceReceived (x : Nat) (b : List Byte)
  /-- PDELAY_REQ_RECEIVED: A Pdelay_Req is answered by the port with a Pdelay_Resp carrying the residence time (R206). -/
  | pdelayReqReceived (x : Nat) (m : List Byte)
  /-- PTP_PORT_INIT: Oarsman 6 reinitialises the PTP ports within 1 s of a PTP_CFG write (R230). -/
  | ptpPortInit
  /-- ETH_CNT_CLEAR: A write of CLR to ETH_CNT_x sets FCS and SIZE to 0 (R202). -/
  | ethCntClear (i : Iface) (x : Nat)
  /-- ATTACH_RECEIVED: A hub checks an ATTACH under the enrolled link key and assigns cell numbers or refuses it (R216). -/
  | attachReceived (b : List Byte)
  /-- ATTACH_ANSWER_RECEIVED: A cell chip takes an ATTACH_ANSWER, bringing the peer up or scheduling a retry (R217). -/
  | attachAnswerReceived (b : List Byte)
  /-- ATTACH_RESEND: Every 10 s without an answer the chip sends ATTACH again (R217). -/
  | attachResend
  /-- ATTACH_GIVE_UP: 60 s after the first ATTACH without an answer the chip stops and acts as after status 0x02 (R217). -/
  | attachGiveUp
  /-- ATTACH_RETRY: 300 s or 3,600 s after a refusal the chip sends ATTACH again (R217). -/
  | attachRetry
  /-- PEER_DOWN: 30 s without a valid message from the peer marks it down and raises event 169 (R218). -/
  | peerDown (p : Nat)
  /-- KEEPALIVE_SEND: Each second each side sends a KEEPALIVE to its peer (R218). -/
  | keepaliveSend (p : Nat)
  /-- KEEPALIVE_RECEIVED: A KEEPALIVE keeps the peer up and supplies the hub's joined count (R218). -/
  | keepaliveReceived (b : List Byte)
  /-- ANCHOR_RECEIVED: An ANCHOR is accepted when newer and timely, raising event 21, or discarded with event 177 (R219). -/
  | anchorReceived (x : Nat) (b : List Byte)
  /-- SNAPSHOT_RECEIVED: A hub SNAPSHOT fixes N for the cell when early enough, or is logged as a late mismatch (R160). -/
  | snapshotReceived (b : List Byte)
  /-- BATCH_RECEIVED: A hub verifies a reassembled cell batch and enters its accepted entries at stage 5 (R259). -/
  | batchReceived (b : List Byte)
  /-- GANGWAY_ACK_RECEIVED: An ACK or ACKMAP releases acknowledged reliable messages and resets the timer (R224). -/
  | gangwayAckReceived (b : List Byte)
  /-- ACK_DELAY_EXPIRY: ACK_DLY after accepting a reliable message without a piggyback, an ACK message is sent (R223). -/
  | ackDelayExpiry (p : Nat)
  /-- RETRANSMIT_TIMER_EXPIRY: An unacknowledged reliable message is sent again and its timer doubled up to 6.4 s (R224). -/
  | retransmitTimerExpiry (p seq : Nat)
  /-- COMMAND_MESSAGE_RECEIVED: A Gangway COMMAND for an endpoint is accepted once and queued for the cell (R221). -/
  | commandMessageReceived (b : List Byte)
  /-- REGISTER_MESSAGE_HUB: A hub decides a REGISTER in arrival order, assigning an index or refusing for a full hub (R274). -/
  | registerMessageHub (b : List Byte)
  /-- REGISTER_ANSWER_CELL: A cell chip stores the assigned index, or removes the endpoint after a refusal (R275). -/
  | registerAnswerCell (b : List Byte)
  /-- REGACCESS_RECEIVED: A REGACCESS from the head end reads or writes one register under the privilege map and is answered (R43). `b` is the message. -/
  | regaccessReceived (b : List Byte)
  /-- VALIDATION_RECORD: A record taken from a receive queue passes the pipeline stages until a verdict or a wait (R240). -/
  | validationRecord (q : Nat) (line : LineRead)
  /-- RECORD_FLOW_RESUME: A record waiting behind another of its endpoint resumes at stage 3 once the first has its verdict (R243). -/
  | recordFlowResume (x : PlaceRead)
  /-- GROUP_WAIT_EXPIRY: GROUP_WAIT µs after its first record a validation commit group is sealed (R251). -/
  | groupWaitExpiry
  /-- REASSEMBLY_TIMEOUT: A reassembly without a segment for 64 superframes is abandoned and raises event 201 (R238). -/
  | reassemblyTimeout (c a : Nat)
  /-- BATCH_MAXAGE_EXPIRY: The open batch closes when its first entry is MAXAGE seconds old (R256). -/
  | batchMaxageExpiry
  /-- BATCH_SIGNED: A closed batch's XMSS^MT signature completes, and the batch is stored and queued (R256). -/
  | batchSigned
  /-- DEDUP_QUERY: A write to VAL_DEDUP_SEL captures the selected dedup window (R248). -/
  | dedupQuery (i : Iface) (v : Word)
  /-- VAL_VCNT_CLEAR: A write of CLR to VAL_VCNT_SEL sets every verdict count to 0 (R242). -/
  | valVcntClear (i : Iface) (v : Word)
  /-- VAL_BATCH_CFG_WRITE: A write to VAL_BATCH_CFG applies new limits and closes a batch that already meets them (R264). -/
  | valBatchCfgWrite (i : Iface) (v : Word)
  /-- ENROL: EPT_CMD OP 0x1 wraps the staged key and stores the enrolment record (R272). -/
  | enrol (i : Iface)
  /-- BAR: EPT_CMD OP 0x2 sets the barred bit in the enrolment record and context (R273). -/
  | bar (i : Iface) (idx : Nat)
  /-- UNBAR: EPT_CMD OP 0x3 clears the barred bit (R273). -/
  | unbar (i : Iface) (idx : Nat)
  /-- REMOVE: EPT_CMD OP 0x4 sends the endpoint out of its cell and quarantines its index (R273). -/
  | remove (i : Iface) (idx : Nat)
  /-- RE_ENROL: EPT_CMD OP 0x5 replaces the enrolment and resets the context's windows and tops (R273). -/
  | reEnrol (i : Iface) (idx : Nat)
  /-- REWRAP: EPT_CMD OP 0x6 starts rewrapping every key under the new key-encryption slot (R273). -/
  | rewrap (i : Iface)
  /-- REWRAP_COMPLETE: The last key is rewrapped, SLOT becomes NEW_SLOT and event 232 is raised (R273). -/
  | rewrapComplete
  /-- CONTEXT_READ: EPT_CMD OP 0x7 copies a context's hot part into the staging words with WKEY as 0 (R273). -/
  | contextRead (i : Iface) (idx : Nat)
  /-- DELETE_ENROLMENT: EPT_CMD OP 0x8 deletes the enrolment record of a free or removed endpoint (R273). -/
  | deleteEnrolment (i : Iface) (idx : Nat)
  /-- QUARANTINE_EXPIRY: A removed index is freed once load-profile retention has passed and event 228 is raised (R278). -/
  | quarantineExpiry (slot : Nat)
  /-- TABLE_REBUILD_DONE: The endpoint table is rebuilt from image and journal, event 233 and then start-up completion follow (R267). -/
  | tableRebuildDone
  /-- BALANCE_RECORD: The balance engine takes a record from its queue and fills or marks the quarter slot (R288). -/
  | balanceRecord
  /-- BALANCE_EVALUATION: At the deadline crossing the engine evaluates every node for the snapshot and enqueues results (R289). -/
  | balanceEvaluation (n : Nat)
  /-- BAL_NODE_QUERY: A write to BAL_NODE_SEL captures the node's configuration and last result (R283). -/
  | balNodeQuery (i : Iface) (v : Word)
  /-- BAL_EP_QUERY: A write to BAL_EP_SEL captures the endpoint's balance status (R287). -/
  | balEpQuery (i : Iface) (v : Word)
  /-- BAL_EP_NODE_WRITE: A write to BAL_EP_NODE sets the selected endpoint's member node override (R285). -/
  | balEpNodeWrite (i : Iface) (v : Word)
  /-- TARIFF_OPEN: A tariff request OP 0x01 starts a zeroed passive image for the group (R307). -/
  | tariffOpen
  /-- TARIFF_WRITE: A tariff request OP 0x02 copies data into the image being built (R307). -/
  | tariffWrite
  /-- TARIFF_CLOSE: A tariff request OP 0x03 checks hash and calendar and stores the pending passive calendar (R309). -/
  | tariffClose
  /-- TARIFF_ACTIVATE: A tariff request OP 0x04 replaces the activation instant of the pending passive (R311). -/
  | tariffActivate
  /-- TARIFF_CANCEL: A tariff request OP 0x05 discards the passive being built or pending (R311). -/
  | tariffCancel
  /-- ACCOUNT_SET: An account request OP 0x10 writes an account's fields and activates it (R374). -/
  | accountSet
  /-- ACCOUNT_CLOSE: An account request OP 0x11 clears the account and makes it unused (R374). -/
  | accountClose
  /-- CLEAR_LOCKOUT: An account request OP 0x12 ends a token lockout and sets FAILS to 0 (R372). -/
  | clearLockout
  /-- CALENDAR_MINUTE: Each minute each group's calendar is evaluated, raising events 259 and 263 on rate and daylight changes (R306). -/
  | calendarMinute
  /-- TRF_GROUP_QUERY: A write to TRF_GROUP_SEL captures the selected calendar's status, activation and hash (R300). -/
  | trfGroupQuery (i : Iface) (v : Word)
  /-- RATE_QUERY: A write to TRF_QRY_Q evaluates the rate selection at that quarter into TRF_QRY_RES (R317). -/
  | rateQuery (i : Iface) (v : Word)
  /-- BOUNDARY_PRESTAGE: At crossing N minus 50 the boundary group is pre-staged in a reserved group (R322). -/
  | boundaryPrestage
  /-- BILLING_STEP: An accepted record from the sealed inbound queue is booked over the quarters in one endpoint close group (R326). `reads` tells what the Hold gives back of a sealed record's copies otherwise than stored (R94). -/
  | billingStep (reads : List Machine.SealRead)
  /-- PASSED_BOUNDARY_CATCHUP: At the first crossing after leaving LOST or a forward step, passed boundaries are sealed in order (R325). -/
  | passedBoundaryCatchup
  /-- BACKSTEP_HOLD_END: The first crossing at or past the high-water ends the backstep hold and sets BACK_E (R341). -/
  | backstepHoldEnd
  /-- SESSION_RESULT: Once every touched quarter has its boundary record, an LSR is split across rates into a session result (R334). -/
  | sessionResult
  /-- BILLING_QUERY: A write to BIL_SEL captures the selected billing registers and demand (R343). -/
  | billingQuery (i : Iface) (v : Word)
  /-- LOAD_PROFILE_QUERY: A write to BIL_LP_Q captures the selected load-profile entry (R343). `reads` tells what the Hold gives back of a sealed record's copies otherwise than stored (R94). -/
  | loadProfileQuery (i : Iface) (v : Word) (reads : List Machine.SealRead)
  /-- GROUP_OPEN: A read of CMT_ALLOC opens a commit group for the window or is refused (R344). -/
  | groupOpen (i : Iface)
  /-- ACTION_STAGE: A write to CMT_PUSH_w stages the window's descriptor into the group or refuses it (R347). -/
  | actionStage (i : Iface) (w g : Nat)
  /-- GROUP_SEAL: CMT_CTRL OP seal assigns JSEQ, switches visibility and hands the journal record to the Hold (R354). -/
  | groupSeal (i : Iface) (g : Nat)
  /-- GROUP_ABORT: CMT_CTRL OP abort frees an open group's places, credits and pins (R357). -/
  | groupAbort (i : Iface) (g : Nat)
  /-- GROUP_DURABLE: A group's journal record and all lower ones are programmed, making it durable (R355). -/
  | groupDurable (g : Nat)
  /-- DURABILITY_OVERRUN: A group exceeding its durability time raises event 294 (R355). -/
  | durabilityOverrun (g : Nat)
  /-- INTENT_DURABLE: A pre-staged group's intent record becomes durable and the group shows PRESTAGED (R358). -/
  | intentDurable (g : Nat)
  /-- GROUP_WITHDRAW: The sealed domain withdraws a PRESTAGED group by journalling a withdraw record (R359). -/
  | groupWithdraw (g : Nat)
  /-- SEALED_GROUP_RETRY: When a refused group number, place or credit frees, the sealed domain opens or stages again (R560). -/
  | sealedGroupRetry
  /-- CMT_GSTAT_READ: A read of CMT_GSTAT showing DURABLE returns the group number to FREE (R345). -/
  | cmtGstatRead (i : Iface)
  /-- JSEQ_CAPTURE: A read of CMT_JSEQ_HI captures all 64 bits of the last durable JSEQ (R354). -/
  | jseqCapture (i : Iface)
  /-- COUNTER_CAPTURE: A read of CMT_CNT_HI captures all 64 bits of the selected counter (R347). -/
  | counterCapture (i : Iface)
  /-- JOURNAL_REPLAY_DONE: Journal replay at start-up completes, event 293 is raised and the start-up work that waits on it begins (R361). -/
  | journalReplayDone
  /-- IDENTITY_KEY_GENERATED: The identity root is computed and slots 0 and 1 are written to eFuse (R487). -/
  | identityKeyGenerated
  /-- EPOCH_TREE_BUILT: After an epoch advance the new bottom tree is built and signing resumes (R489). -/
  | epochTreeBuilt
  /-- TOKEN_ENTRY: The sealed domain checks a token entry in order and issues a token result record (R369). -/
  | tokenEntry
  /-- LOCKOUT_END: The lockout's operating seconds run out, FAILS is cleared and event 307 is raised (R371). -/
  | lockoutEnd
  /-- KEY_STATE_CHANGE: DEB agreeing scans change a key's state and yield a key item (R378). -/
  | keyStateChange (k : Nat) (down : Bool)
  /-- PANEL_FRAME_START: A display frame starts at a crossing or half a period later and draws from frame memory (R380). -/
  | panelFrameStart
  /-- TEMPERATURE_BAND_CHANGE: The temperature crosses a band threshold and the band changes at the next frame start (R384). -/
  | temperatureBandChange (t : Nat)
  /-- DISCHARGE_HOLD_END: Two frames after a warning the LCD pins are released and VLCD turned off (R385). -/
  | dischargeHoldEnd
  /-- FRAME_MEMORY_WRITE: A write to PAN_FB_DATA writes eight open-page levels, skipping masked pixels, and advances WORD (R382). -/
  | frameMemoryWrite (i : Iface) (v : Word)
  /-- FRAME_MEMORY_READ: A read of PAN_FB_DATA returns eight levels and advances WORD (R382). -/
  | frameMemoryRead (i : Iface)
  /-- ACCOUNT_QUERY: A write to PAN_ACCT_SEL captures the account's state and balance (R388). -/
  | accountQuery (i : Iface) (v : Word)
  /-- DOORBELL_PUSH: A write to a doorbell PUSH enqueues the staged words or is refused with a result (R393). -/
  | doorbellPush (i : Iface) (q : Nat) (v : Word)
  /-- DOORBELL_POP: A read of a doorbell POP dequeues the next item into DATA and the header words (R402). -/
  | doorbellPop (i : Iface) (q : Nat)
  /-- PRODUCER_CLAIM_GRANTED: A waiting hardware producer's claim is granted when FREE allows it (R393). -/
  | producerClaimGranted (q : Nat)
  /-- QUEUE_IDLE_TIMEOUT: A queue's idle timer reaches TIMEOUT, sets IDLE and raises the condition once (R397). -/
  | queueIdleTimeout (q : Nat)
  /-- QUEUE_RELEASE: WHF_Q_CTRL OP release advances MARK and frees the released items' words (R399). -/
  | queueRelease (i : Iface) (q : Nat) (all : Bool) (iseq : Nat)
  /-- QUEUE_REWIND: WHF_Q_CTRL OP rewind returns HEAD to MARK for redelivery (R399). -/
  | queueRewind (i : Iface) (q : Nat)
  /-- QUEUE_DONE: WHF_Q_CTRL OP done marks a retained item to be passed over at redelivery (R399). -/
  | queueDone (i : Iface) (q : Nat) (iseq : Nat)
  /-- WHF_Q_CNT_CLEAR: A write of CLR to WHF_Q_CNT_q sets OVERRUN, LANE_FULL and POISONED to 0 (R394). -/
  | whfQCntClear (i : Iface) (q : Nat)
  /-- THREAD_DISPATCH: A ready thread is dispatched onto a core from its prefetched slot or ready list (R410). -/
  | threadDispatch (core ns : Nat)
  /-- PREFETCH_LOAD_DONE: A thread's context finishes loading into a core's prefetched slot (R408). -/
  | prefetchLoadDone (core : Nat)
  /-- THREAD_WAIT: A write to FRY_SELF_WAIT makes the thread wait on one or two events or consume a latch (R412). -/
  | threadWait (core a : Nat) (b : Option Nat)
  /-- WORK_TAKE: A read of FRY_SELF_TAKE releases the held tag and grants a pool item or enters TAKING (R413). -/
  | workTake (core : Nat)
  /-- TAKE_GRANTED: A TAKING thread is granted a head item whose flow tag has become free (R413). -/
  | takeGranted (thread : Nat)
  /-- THREAD_YIELD: FRY_SELF_CTRL OP yield moves the thread to the tail of its ready list (R407). -/
  | threadYield (core : Nat)
  /-- THREAD_DONE: FRY_SELF_CTRL OP done releases the thread's held flow tag (R414). -/
  | threadDone (core : Nat)
  /-- THREAD_EXIT: FRY_SELF_CTRL OP exit releases the flow and frees the context, raising event 385 (R416). -/
  | threadExit (core : Nat)
  /-- SET_PRIORITY: FRY_SELF_CTRL OP set priority changes the thread's priority at once (R422). -/
  | setPriority (core prio : Nat)
  /-- THREAD_CREATE: A read of FRY_CREATE creates a READY thread from the new-thread registers or returns a refusal (R416). -/
  | threadCreate (i : Iface)
  /-- C0_STAT_READ: A read of FRY_C0_STAT_i returns the dispatch times and sets MAX to 0 (R419). -/
  | c0StatRead (i : Iface) (k : Nat)
  /-- FRY_CNT_CLEAR: A write of CLR to FRY_CNT sets FLOWWAIT and COALESCED to 0 (R411). -/
  | fryCntClear (i : Iface)
  /-- ADD: Oarsman instruction: gd := ga + gb (R426). -/
  | opAdd (n gd ga gb : Nat)
  /-- SUB: Oarsman instruction: gd := ga − gb (R426). -/
  | opSub (n gd ga gb : Nat)
  /-- AND: Oarsman instruction: bitwise and of ga and gb (R426). -/
  | opAnd (n gd ga gb : Nat)
  /-- OR: Oarsman instruction: bitwise or of ga and gb (R426). -/
  | opOr (n gd ga gb : Nat)
  /-- XOR: Oarsman instruction: bitwise xor of ga and gb (R426). -/
  | opXor (n gd ga gb : Nat)
  /-- SHL: Oarsman instruction: left shift of ga by gb and 31 (R426). -/
  | opShl (n gd ga gb : Nat)
  /-- SHR: Oarsman instruction: logical right shift (R426). -/
  | opShr (n gd ga gb : Nat)
  /-- SRA: Oarsman instruction: arithmetic right shift (R426). -/
  | opSra (n gd ga gb : Nat)
  /-- MUL: Oarsman instruction: low 32 bits of ga × gb (R426). -/
  | opMul (n gd ga gb : Nat)
  /-- MULH: Oarsman instruction: high 32 bits of the unsigned product (R426). -/
  | opMulh (n gd ga gb : Nat)
  /-- SLTU: Oarsman instruction: unsigned set-less-than (R426). -/
  | opSltu (n gd ga gb : Nat)
  /-- SLT: Oarsman instruction: signed set-less-than (R426). -/
  | opSlt (n gd ga gb : Nat)
  /-- TXT: Oarsman instruction: takes a transaction entry, waiting when none is free (R280). -/
  | opTxt (n gd : Nat)
  /-- TXF: Oarsman instruction: frees a transaction entry, handing it to the first waiting issuer (R280). -/
  | opTxf (n ga : Nat)
  /-- FACQ: Oarsman instruction: tries to take a flow tag without waiting (R435). -/
  | opFacq (n gd ga : Nat)
  /-- FREL: Oarsman instruction: releases a flow tag (R426). -/
  | opFrel (n ga : Nat)
  /-- ADDI: Oarsman instruction: gd := ga + sign-extended immediate (R426). -/
  | opAddi (n gd ga imm : Nat)
  /-- ANDI: Oarsman instruction: and with immediate (R426). -/
  | opAndi (n gd ga imm : Nat)
  /-- ORI: Oarsman instruction: or with immediate (R426). -/
  | opOri (n gd ga imm : Nat)
  /-- XORI: Oarsman instruction: xor with immediate (R426). -/
  | opXori (n gd ga imm : Nat)
  /-- SHLI: Oarsman instruction: left shift by immediate (R426). -/
  | opShli (n gd ga imm : Nat)
  /-- SHRI: Oarsman instruction: logical right shift by immediate (R426). -/
  | opShri (n gd ga imm : Nat)
  /-- LUI: Oarsman instruction: gd := imm shl 14 (R426). -/
  | opLui (n gd imm : Nat)
  /-- LDW: Oarsman instruction: loads a data-memory word (R426). -/
  | opLdw (n gd ga imm : Nat)
  /-- STW: Oarsman instruction: stores a data-memory word (R426). -/
  | opStw (n gd ga imm : Nat)
  /-- LDB: Oarsman instruction: loads a byte zero-extended (R426). -/
  | opLdb (n gd ga imm : Nat)
  /-- STB: Oarsman instruction: stores bits 7:0 of gd (R426). -/
  | opStb (n gd ga imm : Nat)
  /-- FEX: Oarsman instruction: extracts a big-endian bit field from data memory (R427). -/
  | opFex (n gd ga imm : Nat)
  /-- FINS: Oarsman instruction: inserts the low bits of gd into a bit field (R427). -/
  | opFins (n gd ga imm : Nat)
  /-- XLD: Oarsman instruction: 32-bit read at an external address within its access map (R426). -/
  | opXld (n gd ga imm : Nat)
  /-- XST: Oarsman instruction: 32-bit write at an external address within its access map (R426). -/
  | opXst (n gd ga imm : Nat)
  /-- BEQ: Oarsman instruction: branch when equal (R426). -/
  | opBeq (n ga gb target : Nat)
  /-- BNE: Oarsman instruction: branch when not equal (R426). -/
  | opBne (n ga gb target : Nat)
  /-- BLTU: Oarsman instruction: branch when less, unsigned (R426). -/
  | opBltu (n ga gb target : Nat)
  /-- BGEU: Oarsman instruction: branch when greater or equal, unsigned (R426). -/
  | opBgeu (n ga gb target : Nat)
  /-- JMP: Oarsman instruction: jump to target (R426). -/
  | opJmp (n target : Nat)
  /-- CALL: Oarsman instruction: saves PC + 1 and jumps (R426). -/
  | opCall (n gd target : Nat)
  /-- JR: Oarsman instruction: jumps to ga bits 11:0 (R426). -/
  | opJr (n ga : Nat)
  /-- POP: Oarsman instruction: dequeues the next item of a consumed queue into data memory (R428). -/
  | opPop (n gd ga imm : Nat)
  /-- PUSH: Oarsman instruction: enqueues an item described by a push descriptor, waiting for room unless NOWAIT (R428). -/
  | opPush (n gd ga imm : Nat)
  /-- QOP: Oarsman instruction: release, rewind or done on a retained queue (R426). -/
  | opQop (n ga imm : Nat)
  /-- LWX: Oarsman instruction: writes a crossing-time launch word (R429). -/
  | opLwx (n gd ga gb : Nat)
  /-- STAMP: Oarsman instruction: writes a rank-8 stamp record to data memory (R426). -/
  | opStamp (n ga : Nat)
  /-- XNOW: Oarsman instruction: captures or returns parts of PTP and crossing time (R430). -/
  | opXnow (n gd imm : Nat)
  /-- LWP: Oarsman instruction: writes a PTP launch word (R429). -/
  | opLwp (n gd ga gb : Nat)
  /-- WAIT: Oarsman instruction: waits on one or two events or consumes a set latch (R431). -/
  | opWait (n gd imm : Nat)
  /-- OARSMAN_WAIT_END: An awaited event is asserted and the waiting Oarsman continues with it in gd (R431). -/
  | oarsmanWaitEnd (n : Nat)
  /-- WAITX: Oarsman instruction: waits for a crossing-time instant (R431). -/
  | opWaitx (n gd ga imm : Nat)
  /-- WAITX_INSTANT_REACHED: Crossing time reaches the awaited instant and the Oarsman continues (R431). -/
  | waitxInstantReached (n : Nat)
  /-- WAITU: Oarsman instruction: waits a number of microseconds (R431). -/
  | opWaitu (n ga : Nat)
  /-- WAITU_EXPIRY: The microsecond wait runs out on the time-stamp unit and the Oarsman continues (R431). -/
  | waituExpiry (n : Nat)
  /-- SIGNAL: Oarsman instruction: raises event 416 + n (R441). -/
  | opSignal (n : Nat)
  /-- HSUB: Oarsman instruction: submits a hash job to the Keccak engines (R432). -/
  | opHsub (n gd ga : Nat)
  /-- HWAIT: Oarsman instruction: waits for a hash job and returns its result (R433). -/
  | opHwait (n gd ga : Nat)
  /-- HASH_JOB_COMPLETE: A Keccak hash job completes with its result (R433). -/
  | hashJobComplete (n tag : Nat) (poisoned : Bool)
  /-- COPEN: Oarsman instruction: opens a commit group, reserved only for Oarsmen 12 and 13 (R434). -/
  | opCopen (n gd imm : Nat)
  /-- CSTAGE: Oarsman instruction: stages a descriptor into a commit group (R434). -/
  | opCstage (n gd ga imm : Nat)
  /-- CSEAL: Oarsman instruction: seals a commit group and returns after visibility (R434). -/
  | opCseal (n gd imm : Nat)
  /-- CABORT: Oarsman instruction: aborts a commit group (R434). -/
  | opCabort (n gd imm : Nat)
  /-- CWAITD: Oarsman instruction: waits until a group is durable or aborted by power (R434). -/
  | opCwaitd (n gd imm : Nat)
  /-- TRAP: Oarsman instruction: traps with cause 0x08 and an immediate detail (R426). -/
  | opTrap (n imm : Nat)
  /-- OARSMAN_RESTART: A write of RESTART reloads data memory, clears registers and latches and starts at PC 0 (R437). -/
  | oarsmanRestart (i : Iface) (n : Nat)
  /-- OARSMAN_HALT: A write of HALT 1 halts the Oarsman at the next instruction boundary (R442). -/
  | oarsmanHalt (i : Iface) (n : Nat)
  /-- OARSMAN_RESUME: A write of HALT 0 resumes a halted Oarsman (R442). -/
  | oarsmanResume (i : Iface) (n : Nat)
  /-- SEAL_CORE_RESTART: The seal core restarts a trapped Oarsman 12 or 13 within 1 ms (R437). -/
  | sealCoreRestart (n : Nat)
  /-- EBFIN_HALT: Ebfin halts an Oarsman, for 12 and 13 only while the seal is OPEN or EXHAUSTED (R440). -/
  | ebfinHalt (n : Nat)
  /-- EBFIN_STEP: Ebfin steps a halted Oarsman by one instruction (R440). -/
  | ebfinStep (n : Nat)
  /-- EBFIN_ACCESS: Ebfin reads or writes an Oarsman's registers or data memory (R440). -/
  | ebfinAccess (n : Nat) (a : EbAccess)
  /-- HOLD_MOUNT: Oarsman 15 mounts the Hold from map image and records, resolves merges and raises event 432 (R465). `a` and `b` are the parameter pages of the dies at channels NANDA and NANDB (R444); `reads` tells what the Hold gives back of a sealed record's copies otherwise than stored (R94). -/
  | holdMount (a b : List Machine.DieParam) (reads : List Machine.SealRead)
  /-- NAND_PROGRAM_DONE: A NAND program completes, or its failure retires the block (R458). -/
  | nandProgramDone (b : Nat) (job : NandJob) (ok : Bool)
  /-- NAND_ERASE_DONE: A NAND erase completes and the block returns to its pool, or is retired on failure (R458). -/
  | nandEraseDone (b : Nat) (ok : Bool)
  /-- NAND_READ_DONE: A NAND read completes; heavy correction schedules a refresh and uncorrectable data is poisoned (R457). -/
  | nandReadDone (b lkey page bits bad : Nat)
  /-- PLACEMENT_WINDOW_EXPIRY: A logical page's coalescing window runs out and the page is programmed to its place (R453). -/
  | placementWindowExpiry (lkey page : Nat)
  /-- MERGE_SWITCH: A merge's copy ends, its switch record is written and the mapping changes (R450). -/
  | mergeSwitch (lkey : Nat)
  /-- HOLD_READ: HLD_CMD OP 0x1 starts a read of a logical range into LPDDR5 (R467). -/
  | holdRead (i : Iface)
  /-- HOLD_DISCARD: HLD_CMD OP 0x2 marks a page-aligned range of an addressed region invalid (R459). -/
  | holdDiscard (i : Iface)
  /-- HOLD_TRIM: HLD_CMD OP 0x3 moves a KEEP stream's HEAD forward (R460). -/
  | holdTrim (i : Iface)
  /-- HOLD_CMD_COMPLETE: An HLD_CMD operation completes with its result and event 444 (R467). -/
  | holdCmdComplete
  /-- STREAM_QUERY: A write to HLD_STR_SEL captures the stream's status, head and tail (R447). -/
  | streamQuery (i : Iface) (v : Word)
  /-- HLD_ECC_CLEAR: A write of CLR to HLD_ECC sets UNCORR and REFRESH to 0 (R457). -/
  | hldEccClear (i : Iface)
  /-- FLUSH_COMPLETE: The flush set, ending with its flush-end record, is programmed and event 439 raised (R462). -/
  | flushComplete
  /-- LOGBOOK_READ_SELECT: A write to LGB_RD_SEL_w captures the named record into the window (R474). -/
  | logbookReadSelect (i : Iface) (w : Nat) (number : Word)
  /-- LOGBOOK_CLEAR: A write of CLEAR starts a clear through the sealed domain, or is refused (R476). -/
  | logbookClear (i : Iface)
  /-- KEY_WRITE: KEY_CMD OP 0x1 replaces the selected slot's key and settings in one step (R483). -/
  | keyWrite (i : Iface)
  /-- KEY_ERASE: KEY_CMD OP 0x2 zeroises the slot and discards its persistent record (R484). -/
  | keyErase (i : Iface)
  /-- KEY_LOCK: KEY_CMD OP 0x3 locks the slot until reset (R484). -/
  | keyLock (i : Iface)
  /-- KEY_READ: KEY_CMD OP 0x4 copies a readable slot into KEY_DATA_k (R484). -/
  | keyRead (i : Iface)
  /-- SIGNING_INDEX_CAPTURE: A read of KEY_IDX_HI captures all 40 bits of the next signing index (R488). -/
  | signingIndexCapture (i : Iface)
  /-- ATTESTATION_REQUEST: A write of START captures the statement fields and starts signing, or is refused (R491). -/
  | attestationRequest (i : Iface) (v : Word)
  /-- ATTESTATION_COMPLETE: The statement is signed, written to LPDDR5 and event 464 raised (R491). -/
  | attestationComplete
  /-- MANIFEST_VERIFIED: Copy selection and verification end in a start from a copy, a fallback or rescue (R503). -/
  | manifestVerified
  /-- MANIFEST_CHECK: MFT_CMD OP 0x1 applies every check to the staged copy without writing (R506). `m` is what the staged bytes hold. -/
  | manifestCheck (i : Iface) (m : MCopy)
  /-- MANIFEST_STAGE: MFT_CMD OP 0x2 checks the copy and starts writing it to the copy not in force (R506). `m` is what the staged bytes hold. -/
  | manifestStage (i : Iface) (m : MCopy)
  /-- MANIFEST_STAGE_COMPLETE: The staged copy's header is programmed with STATE 0xFF and event 476 raised (R506). -/
  | manifestStageComplete
  /-- MANIFEST_APPLY: MFT_CMD OP 0x3 waits for a superframe boundary without a staged boundary group (R506). -/
  | manifestApply (i : Iface)
  /-- MANIFEST_APPLY_BOUNDARY: At that boundary the device declares a warning, flushes and resets with cause 0x06 (R506). `vin` is the VIN_SENSE reading in mV. -/
  | manifestApplyBoundary (vin : Nat)
  /-- MANIFEST_CONFIRM: MFT_CMD OP 0x4 confirms the trial copy, raising floors and fusing authorities (R504). -/
  | manifestConfirm (i : Iface)
  /-- MANIFEST_INVALIDATE: MFT_CMD OP 0x5 sets the copy not in force to STATE 0x00 (R506). -/
  | manifestInvalidate (i : Iface)
  /-- TRIAL_EXPIRY: CONFIRM_S seconds without confirmation declare a warning and reset with cause 0x07 (R504). `vin` is the VIN_SENSE reading in mV. -/
  | trialExpiry (vin : Nat)
  /-- POWER_WARNING: A warning from PWRWARN_N, VIN_SENSE or temperature makes every block act under its warning rule and starts the flush (R513). `thermal` tells a junction at 125 degrees or more, `vin` is the VIN_SENSE reading in mV. -/
  | powerWarning (thermal : Bool) (vin : Nat)
  /-- RIDE_THROUGH: After the flush and 2 ms of good supply, ride-through is declared and blocks resume (R517). -/
  | rideThrough
  /-- RAIL_DROPOUT: A rail monitor trip resets the device at once (R509). -/
  | railDropout
  /-- PORST: PORST_N low resets the device at once, or at the flush end during a flush (R518). -/
  | porst
  /-- EBFIN_SYSTEM_RESET: An Ebfin system reset resets the device with cause 0x09 (R519). -/
  | ebfinSystemReset
  /-- SOFTWARE_RESET: A write to PWR_RESET with KEY 0xC5 and RESET 1 declares a warning, flushes and resets (R520). `vin` is the VIN_SENSE reading in mV. -/
  | softwareReset (i : Iface) (v : Word) (vin : Nat)
  /-- RESET_RELEASE: With rails in tolerance and PORST_N high, reset is released and start-up begins (R522). `elapsed` is the time since the reset in ns, as the RTC crystal counts it. -/
  | resetRelease (elapsed : Nat)
  /-- LPDDR5_TRAINED: LPDDR5 training completes and AVS starts (R522). -/
  | lpddr5Trained
  /-- HOLD_SENSE_WAIT_EXPIRY: HOLD_WAIT seconds without HOLD_SENSE make the device mount anyway and raise event 4 (R522). -/
  | holdSenseWaitExpiry
  /-- HOLD_SENSE_CHANGE: A filtered edge of HOLD_SENSE changes HOLD_OK and raises event 4 or 5 (R515). -/
  | holdSenseChange (up : Bool)
  /-- TEMPERATURE_WARN: The junction reaching PWR_TEMP.WARN raises event 7 once (R521). `t` is the junction temperature, 8 bits signed. -/
  | temperatureWarn (t : Nat)
  /-- AVS_UPDATE: Every 100 µs the AVS request is recomputed from the ring-oscillator margins (R511). The operands are the lowest voltages in mV at which every monitor shows MARGIN at each core clock. -/
  | avsUpdate (n400 n800 n1200 : Nat)
  /-- VBAT_LOW: VBAT below 2.4 V sets VBAT_LOW and raises event 6 (R525). -/
  | vbatLow
  /-- VIN_MIN_READ: A read of PWR_VIN returns the readings and sets MIN to NOW (R528). `now` is the reading, `least` the lowest since the last read, in mV. -/
  | vinMinRead (i : Iface) (now least : Nat)
  /-- TEST_UNLOCK_FIRST: A write of KEY 0x3C to TST_CTRL begins the unlock sequence (R529). -/
  | testUnlockFirst (i : Iface)
  /-- TEST_UNLOCK_SECOND: A write of KEY 0xC3 within 1 ms from the same window unlocks the test block, or is refused (R529). -/
  | testUnlockSecond (i : Iface)
  /-- TEST_LOCK: A write of KEY 0x00 locks the block and disarms every entry (R529). -/
  | testLock (i : Iface)
  /-- ENTRY_ARM: A write of TST_PCFG with EN 1 arms or changes the selected entry, or is refused (R530). -/
  | entryArm (i : Iface) (v : Word)
  /-- ENTRY_DISARM: A write of TST_PCFG with EN 0 disarms the selected entry (R530). -/
  | entryDisarm (i : Iface) (v : Word)
  /-- ENTRY_LIMIT_EXPIRY: LIMIT seconds after arming an entry disarms itself and logs cause 0x02 (R530). -/
  | entryLimitExpiry (n : Nat)
  /-- DRAM_ECC_CLEAR: A write of CLR to SYS_DRAM_ECC sets UNCORR and CORR to 0 (R552). -/
  | dramEccClear (i : Iface)
  /-- RADIO_TRANSMIT_COMPLETE: A radio frame leaves its launch queue and completes with a status of the Radio transmit status table after CSMA-CA and MAC retries (R195). -/
  | radioTransmitComplete (r : Nat) (x : Machine.RadDone)
  /-- ETH_TRANSMIT_COMPLETE: An Ethernet frame finishes transmission and yields its transmit completion stamp, from which Oarsman 6 builds a two-step Follow_Up (R207). -/
  | ethTransmitComplete (x : Nat)
  /-- PTP_MESSAGE_INTERVAL: A PTP port's message interval runs out and it sends its next Sync, Announce, Delay_Req or Pdelay_Req (R204). -/
  | ptpMessageInterval (x typ : Nat)
  /-- ANNOUNCE_RECEIPT_TIMEOUT: No Announce within the receipt timeout makes the PTP port leave the slave state, unlocking the servo and raising event 164 (R210). -/
  | announceReceiptTimeout (x : Nat)
  /-- PERTURBED_ITEM_VISIBLE: The random delay of an armed kind 0x1 entry runs out and the delayed item becomes visible in its queue (R531). -/
  | perturbedItemVisible (q : Nat)
  /-- ALWAYS_ON_INVALID: VBAT falls below 2.0 V with VDDIO33 absent and every item of the always-on domain becomes invalid (R525). -/
  | alwaysOnInvalid
  /-- TEMPERATURE_WARN_REARM: The junction temperature falls 5 °C below PWR_TEMP.WARN, so the next reach of WARN raises event 7 again (R521). `t` is the junction temperature, 8 bits signed. -/
  | temperatureWarnRearm (t : Nat)
  /-- PORST_FLUSH_TIMEOUT: PORST_N taken low during a flush resets the device 15 ms after the warning when the flush has not yet ended (R518). -/
  | porstFlushTimeout
  deriving DecidableEq, Repr

end Sys2Proof
end

