-- ==== Sys2Proof/Machine/RegMap.lean ====
section
/-!
DEFINITION. The register map: for every register table of the spec its address, its field positions and its access
codes (R15), as data. Written from the register tables of spec/ (the heading line gives name and address, the rows the
fields); reserved rows are left out, so a bit that no field names reads 0 and ignores writes (R16).
-/
namespace Sys2Proof.Machine

/-- The access codes of R15. -/
inductive Acc where
  | rw | ro | w1c | wo | sl
  deriving DecidableEq, Repr

/-- One field of a register: its bits and its access code. -/
structure FieldDesc where
  hi : Nat
  lo : Nat
  acc : Acc
  deriving DecidableEq, Repr

/-- One register table: the first address, (count, stride) for each index, the fields. -/
structure RegDesc where
  base : Nat
  dims : List (Nat × Nat)
  fields : List FieldDesc
  deriving DecidableEq, Repr

/-- A named field at an address. -/
structure Fld where
  addr : Nat
  hi : Nat
  lo : Nat
  deriving DecidableEq, Repr


/-- Address of SYS_DEVICE_ID, device identification (00_scope.md). -/
def sysDeviceId : Nat := 0x0

/-- SYS_DEVICE_ID.PART_NUMBER -/
def sysDeviceId_PART_NUMBER : Fld := ⟨sysDeviceId, 31, 16⟩

/-- SYS_DEVICE_ID.VARIANT -/
def sysDeviceId_VARIANT : Fld := ⟨sysDeviceId, 15, 12⟩

/-- SYS_DEVICE_ID.STEP_MAJOR -/
def sysDeviceId_STEP_MAJOR : Fld := ⟨sysDeviceId, 11, 8⟩

/-- SYS_DEVICE_ID.STEP_MINOR -/
def sysDeviceId_STEP_MINOR : Fld := ⟨sysDeviceId, 7, 4⟩

/-- Address of SYS_PROFILE_CTRL, profile request (01_architecture.md). -/
def sysProfileCtrl : Nat := 0x40

/-- SYS_PROFILE_CTRL.REQUEST -/
def sysProfileCtrl_REQUEST : Fld := ⟨sysProfileCtrl, 1, 0⟩

/-- Address of SYS_PROFILE_STAT, profile status (01_architecture.md). -/
def sysProfileStat : Nat := 0x44

/-- SYS_PROFILE_STAT.REJECT -/
def sysProfileStat_REJECT : Fld := ⟨sysProfileStat, 8, 8⟩

/-- SYS_PROFILE_STAT.PENDING -/
def sysProfileStat_PENDING : Fld := ⟨sysProfileStat, 4, 4⟩

/-- SYS_PROFILE_STAT.TARGET -/
def sysProfileStat_TARGET : Fld := ⟨sysProfileStat, 3, 2⟩

/-- SYS_PROFILE_STAT.ACTIVE -/
def sysProfileStat_ACTIVE : Fld := ⟨sysProfileStat, 1, 0⟩

/-- Address of SYS_PROFILE_SWXING, crossing of the last profile change (01_architecture.md). -/
def sysProfileSwxing : Nat := 0x48

/-- SYS_PROFILE_SWXING.XING -/
def sysProfileSwxing_XING : Fld := ⟨sysProfileSwxing, 31, 0⟩

/-- Address of TRF_CLOCK_TRUST, clock-trust state (02_crossing_time.md). -/
def trfClockTrust : Nat := 0x900100

/-- TRF_CLOCK_TRUST.CAUSE -/
def trfClockTrust_CAUSE : Fld := ⟨trfClockTrust, 15, 8⟩

/-- TRF_CLOCK_TRUST.STATE -/
def trfClockTrust_STATE : Fld := ⟨trfClockTrust, 1, 0⟩

/-- Address of XING_CONFIG, crossing-time configuration (02_crossing_time.md). -/
def xingConfig : Nat := 0x100000

/-- XING_CONFIG.GRID_DOMAIN -/
def xingConfig_GRID_DOMAIN : Fld := ⟨xingConfig, 15, 8⟩

/-- XING_CONFIG.ANCHOR_EN -/
def xingConfig_ANCHOR_EN : Fld := ⟨xingConfig, 2, 2⟩

/-- XING_CONFIG.SRC -/
def xingConfig_SRC : Fld := ⟨xingConfig, 1, 1⟩

/-- XING_CONFIG.NOM60 -/
def xingConfig_NOM60 : Fld := ⟨xingConfig, 0, 0⟩

/-- Address of XING_STATUS, crossing-time status (02_crossing_time.md). -/
def xingStatus : Nat := 0x100004

/-- XING_STATUS.RENUMBER -/
def xingStatus_RENUMBER : Fld := ⟨xingStatus, 11, 11⟩

/-- XING_STATUS.ANCHOR_FAULT -/
def xingStatus_ANCHOR_FAULT : Fld := ⟨xingStatus, 10, 10⟩

/-- XING_STATUS.OFFSET_LEARNED -/
def xingStatus_OFFSET_LEARNED : Fld := ⟨xingStatus, 9, 9⟩

/-- XING_STATUS.ANCHOR_LOCK -/
def xingStatus_ANCHOR_LOCK : Fld := ⟨xingStatus, 8, 8⟩

/-- XING_STATUS.PHASE_OOR -/
def xingStatus_PHASE_OOR : Fld := ⟨xingStatus, 6, 6⟩

/-- XING_STATUS.ROT_REVERSED -/
def xingStatus_ROT_REVERSED : Fld := ⟨xingStatus, 5, 5⟩

/-- XING_STATUS.FREQ_OOR -/
def xingStatus_FREQ_OOR : Fld := ⟨xingStatus, 4, 4⟩

/-- XING_STATUS.MAINS_L3 -/
def xingStatus_MAINS_L3 : Fld := ⟨xingStatus, 3, 3⟩

/-- XING_STATUS.MAINS_L2 -/
def xingStatus_MAINS_L2 : Fld := ⟨xingStatus, 2, 2⟩

/-- XING_STATUS.MAINS_L1 -/
def xingStatus_MAINS_L1 : Fld := ⟨xingStatus, 1, 1⟩

/-- XING_STATUS.COASTING -/
def xingStatus_COASTING : Fld := ⟨xingStatus, 0, 0⟩

/-- Address of XING_PERIOD, measured mains period (02_crossing_time.md). -/
def xingPeriod : Nat := 0x100008

/-- XING_PERIOD.PERIOD -/
def xingPeriod_PERIOD : Fld := ⟨xingPeriod, 31, 0⟩

/-- Address of XING_PHASE_OFS, L2 and L3 phase offsets (02_crossing_time.md). -/
def xingPhaseOfs : Nat := 0x10000C

/-- XING_PHASE_OFS.L3 -/
def xingPhaseOfs_L3 : Fld := ⟨xingPhaseOfs, 31, 16⟩

/-- XING_PHASE_OFS.L2 -/
def xingPhaseOfs_L2 : Fld := ⟨xingPhaseOfs, 15, 0⟩

/-- Address of XING_CELL_OFS, learned phase offset to the hub (02_crossing_time.md). -/
def xingCellOfs : Nat := 0x100010

/-- XING_CELL_OFS.ANCHORS -/
def xingCellOfs_ANCHORS : Fld := ⟨xingCellOfs, 31, 24⟩

/-- XING_CELL_OFS.OFFSET -/
def xingCellOfs_OFFSET : Fld := ⟨xingCellOfs, 15, 0⟩

/-- Address of XING_EVT_EN, event enables (02_crossing_time.md). -/
def xingEvtEn : Nat := 0x100014

/-- XING_EVT_EN.EN -/
def xingEvtEn_EN : Fld := ⟨xingEvtEn, 15, 0⟩

/-- Address of XING_RENUM, last renumbering (02_crossing_time.md). -/
def xingRenum : Nat := 0x100018

/-- XING_RENUM.STEP -/
def xingRenum_STEP : Fld := ⟨xingRenum, 31, 0⟩

/-- Address of XING_LATCH, time latch (02_crossing_time.md). -/
def xingLatch : Nat := 0x100020

/-- XING_LATCH.LATCH -/
def xingLatch_LATCH : Fld := ⟨xingLatch, 0, 0⟩

/-- Address of XING_LAT_XHI, latched crossing time, high word (02_crossing_time.md). -/
def xingLatXhi : Nat := 0x100024

/-- XING_LAT_XHI.XHI -/
def xingLatXhi_XHI : Fld := ⟨xingLatXhi, 31, 0⟩

/-- Address of XING_LAT_XLO, latched crossing time, low word (02_crossing_time.md). -/
def xingLatXlo : Nat := 0x100028

/-- XING_LAT_XLO.XLO -/
def xingLatXlo_XLO : Fld := ⟨xingLatXlo, 31, 0⟩

/-- Address of XING_LAT_SHI, latched PTP seconds, high part (02_crossing_time.md). -/
def xingLatShi : Nat := 0x10002C

/-- XING_LAT_SHI.COAST -/
def xingLatShi_COAST : Fld := ⟨xingLatShi, 19, 19⟩

/-- XING_LAT_SHI.EPOCH -/
def xingLatShi_EPOCH : Fld := ⟨xingLatShi, 18, 16⟩

/-- XING_LAT_SHI.SEC_HI -/
def xingLatShi_SEC_HI : Fld := ⟨xingLatShi, 15, 0⟩

/-- Address of XING_LAT_SLO, latched PTP seconds, low word (02_crossing_time.md). -/
def xingLatSlo : Nat := 0x100030

/-- XING_LAT_SLO.SEC_LO -/
def xingLatSlo_SEC_LO : Fld := ⟨xingLatSlo, 31, 0⟩

/-- Address of XING_LAT_NS, latched PTP nanoseconds (02_crossing_time.md). -/
def xingLatNs : Nat := 0x100034

/-- XING_LAT_NS.NS -/
def xingLatNs_NS : Fld := ⟨xingLatNs, 31, 0⟩

/-- Address of XING_UTC_OFS, TAI-to-UTC offset (02_crossing_time.md). -/
def xingUtcOfs : Nat := 0x100040

/-- XING_UTC_OFS.PENDING -/
def xingUtcOfs_PENDING : Fld := ⟨xingUtcOfs, 17, 17⟩

/-- XING_UTC_OFS.FROM_PTP -/
def xingUtcOfs_FROM_PTP : Fld := ⟨xingUtcOfs, 16, 16⟩

/-- XING_UTC_OFS.OFFSET -/
def xingUtcOfs_OFFSET : Fld := ⟨xingUtcOfs, 15, 0⟩

/-- Address of XING_RXCOMP_s, receive stamp compensation for rank s = 0 to 7 (02_crossing_time.md). -/
def xingRxcomp (s : Nat) : Nat := 0x100100 + 0x8 * s

/-- XING_RXCOMP_s.DELAY -/
def xingRxcomp_DELAY (s : Nat) : Fld := ⟨xingRxcomp s, 23, 0⟩

/-- Address of XING_TXCOMP_s, transmit stamp compensation for rank s = 0 to 7 (02_crossing_time.md). -/
def xingTxcomp (s : Nat) : Nat := 0x100104 + 0x8 * s

/-- XING_TXCOMP_s.DELAY -/
def xingTxcomp_DELAY (s : Nat) : Fld := ⟨xingTxcomp s, 23, 0⟩

/-- Address of XING_LATE_q, launch lateness of Wharf queue q = 0 to 255 (02_crossing_time.md). -/
def xingLate (q : Nat) : Nat := 0x100400 + 0x4 * q

/-- XING_LATE_q.POLICY -/
def xingLate_POLICY (q : Nat) : Fld := ⟨xingLate q, 31, 31⟩

/-- XING_LATE_q.CLR -/
def xingLate_CLR (q : Nat) : Fld := ⟨xingLate q, 30, 30⟩

/-- XING_LATE_q.FAR -/
def xingLate_FAR (q : Nat) : Fld := ⟨xingLate q, 23, 16⟩

/-- XING_LATE_q.LATE -/
def xingLate_LATE (q : Nat) : Fld := ⟨xingLate q, 15, 0⟩

/-- Address of MET_CONFIG, metrology configuration (03_metrology_seal.md). -/
def metConfig : Nat := 0x200000

/-- MET_CONFIG.WIRING -/
def metConfig_WIRING : Fld := ⟨metConfig, 7, 6⟩

/-- MET_CONFIG.IN_EN -/
def metConfig_IN_EN : Fld := ⟨metConfig, 5, 5⟩

/-- Address of MET_STATUS, metrology status (03_metrology_seal.md). -/
def metStatus : Nat := 0x200004

/-- MET_STATUS.SAT -/
def metStatus_SAT : Fld := ⟨metStatus, 14, 8⟩

/-- MET_STATUS.CAL_LOST -/
def metStatus_CAL_LOST : Fld := ⟨metStatus, 0, 0⟩

/-- Address of MET_QTY_SEL, quantity select (03_metrology_seal.md). -/
def metQtySel : Nat := 0x200010

/-- MET_QTY_SEL.CODE -/
def metQtySel_CODE : Fld := ⟨metQtySel, 7, 0⟩

/-- Address of MET_QTY_HI, quantity value, high word (03_metrology_seal.md). -/
def metQtyHi : Nat := 0x200014

/-- MET_QTY_HI.HI -/
def metQtyHi_HI : Fld := ⟨metQtyHi, 31, 0⟩

/-- Address of MET_QTY_LO, quantity value, low word (03_metrology_seal.md). -/
def metQtyLo : Nat := 0x200018

/-- MET_QTY_LO.LO -/
def metQtyLo_LO : Fld := ⟨metQtyLo, 31, 0⟩

/-- Address of MET_SEAL_CTRL, seal control (03_metrology_seal.md). -/
def metSealCtrl : Nat := 0x200040

/-- MET_SEAL_CTRL.FILTER -/
def metSealCtrl_FILTER : Fld := ⟨metSealCtrl, 29, 12⟩

/-- MET_SEAL_CTRL.CLOSE -/
def metSealCtrl_CLOSE : Fld := ⟨metSealCtrl, 0, 0⟩

/-- Address of MET_SEAL_STAT, seal status (03_metrology_seal.md). -/
def metSealStat : Nat := 0x200044

/-- MET_SEAL_STAT.BREAKS -/
def metSealStat_BREAKS : Fld := ⟨metSealStat, 15, 8⟩

/-- MET_SEAL_STAT.REFUSED -/
def metSealStat_REFUSED : Fld := ⟨metSealStat, 4, 4⟩

/-- MET_SEAL_STAT.LOOP -/
def metSealStat_LOOP : Fld := ⟨metSealStat, 2, 2⟩

/-- MET_SEAL_STAT.STATE -/
def metSealStat_STATE : Fld := ⟨metSealStat, 1, 0⟩

/-- Address of MET_CAL_GAIN_c, channel gain for c = 0 to 6 (03_metrology_seal.md). -/
def metCalGain (c : Nat) : Nat := 0x200100 + 0x10 * c

/-- MET_CAL_GAIN_c.GAIN -/
def metCalGain_GAIN (c : Nat) : Fld := ⟨metCalGain c, 31, 0⟩

/-- Address of MET_CAL_OFS_c, channel offset for c = 0 to 6 (03_metrology_seal.md). -/
def metCalOfs (c : Nat) : Nat := 0x200104 + 0x10 * c

/-- MET_CAL_OFS_c.OFFSET -/
def metCalOfs_OFFSET (c : Nat) : Fld := ⟨metCalOfs c, 31, 0⟩

/-- Address of MET_CAL_PHASE_c, channel phase correction for c = 0 to 6 (03_metrology_seal.md). -/
def metCalPhase (c : Nat) : Nat := 0x200108 + 0x10 * c

/-- MET_CAL_PHASE_c.PHASE -/
def metCalPhase_PHASE (c : Nat) : Fld := ⟨metCalPhase c, 31, 0⟩

/-- Address of MET_CAL_CREEP, no-load thresholds (03_metrology_seal.md). -/
def metCalCreep : Nat := 0x200170

/-- MET_CAL_CREEP.REACTIVE -/
def metCalCreep_REACTIVE : Fld := ⟨metCalCreep, 31, 16⟩

/-- MET_CAL_CREEP.ACTIVE -/
def metCalCreep_ACTIVE : Fld := ⟨metCalCreep, 15, 0⟩

/-- Address of MET_CAL_CTRL, calibration control (03_metrology_seal.md). -/
def metCalCtrl : Nat := 0x200180

/-- MET_CAL_CTRL.DISCARD -/
def metCalCtrl_DISCARD : Fld := ⟨metCalCtrl, 1, 1⟩

/-- MET_CAL_CTRL.COMMIT -/
def metCalCtrl_COMMIT : Fld := ⟨metCalCtrl, 0, 0⟩

/-- Address of MET_CAL_STAT, calibration status (03_metrology_seal.md). -/
def metCalStat : Nat := 0x200184

/-- MET_CAL_STAT.REFUSED -/
def metCalStat_REFUSED : Fld := ⟨metCalStat, 1, 1⟩

/-- MET_CAL_STAT.PENDING -/
def metCalStat_PENDING : Fld := ⟨metCalStat, 0, 0⟩

/-- Address of MET_CAL_HASH_k, calibration hash word k = 0 to 7 (03_metrology_seal.md). -/
def metCalHash (k : Nat) : Nat := 0x2001C0 + 0x4 * k

/-- MET_CAL_HASH_k.HASH -/
def metCalHash_HASH (k : Nat) : Fld := ⟨metCalHash k, 31, 0⟩

/-- Address of MET_MLOG_STAT, metrological-log status (03_metrology_seal.md). -/
def metMlogStat : Nat := 0x200200

/-- MET_MLOG_STAT.FULL -/
def metMlogStat_FULL : Fld := ⟨metMlogStat, 31, 31⟩

/-- MET_MLOG_STAT.NEAR_FULL -/
def metMlogStat_NEAR_FULL : Fld := ⟨metMlogStat, 30, 30⟩

/-- MET_MLOG_STAT.OVERFLOW -/
def metMlogStat_OVERFLOW : Fld := ⟨metMlogStat, 29, 19⟩

/-- MET_MLOG_STAT.COUNT -/
def metMlogStat_COUNT : Fld := ⟨metMlogStat, 18, 0⟩

/-- Address of MET_MLOG_SEL, metrological-log record select (03_metrology_seal.md). -/
def metMlogSel : Nat := 0x200204

/-- MET_MLOG_SEL.INDEX -/
def metMlogSel_INDEX : Fld := ⟨metMlogSel, 17, 0⟩

/-- Address of MET_MLOG_DATA_k, selected record word k = 0 to 15 (03_metrology_seal.md). -/
def metMlogData (k : Nat) : Nat := 0x200210 + 0x4 * k

/-- MET_MLOG_DATA_k.DATA -/
def metMlogData_DATA (k : Nat) : Fld := ⟨metMlogData k, 31, 0⟩

/-- Address of MET_EVT_EN, metrology event enables (03_metrology_seal.md). -/
def metEvtEn : Nat := 0x200060

/-- MET_EVT_EN.EN -/
def metEvtEn_EN : Fld := ⟨metEvtEn, 9, 0⟩

/-- Address of PLC_CONFIG, PLC configuration (04_plc_physical.md). -/
def plcConfig : Nat := 0x300000

/-- PLC_CONFIG.SPHASE -/
def plcConfig_SPHASE : Fld := ⟨plcConfig, 7, 6⟩

/-- PLC_CONFIG.MODE -/
def plcConfig_MODE : Fld := ⟨plcConfig, 5, 4⟩

/-- PLC_CONFIG.BAND -/
def plcConfig_BAND : Fld := ⟨plcConfig, 0, 0⟩

/-- Address of PLC_STATUS, PLC status (04_plc_physical.md). -/
def plcStatus : Nat := 0x300004

/-- PLC_STATUS.XTC_CONV -/
def plcStatus_XTC_CONV : Fld := ⟨plcStatus, 10, 8⟩

/-- PLC_STATUS.OFF -/
def plcStatus_OFF : Fld := ⟨plcStatus, 6, 4⟩

/-- PLC_STATUS.PATH_ON -/
def plcStatus_PATH_ON : Fld := ⟨plcStatus, 2, 0⟩

/-- Address of PLC_ALLPH_TRIM, all-phase transmit alignment (04_plc_physical.md). -/
def plcAllphTrim : Nat := 0x300010

/-- PLC_ALLPH_TRIM.L3 -/
def plcAllphTrim_L3 : Fld := ⟨plcAllphTrim, 15, 8⟩

/-- PLC_ALLPH_TRIM.L2 -/
def plcAllphTrim_L2 : Fld := ⟨plcAllphTrim, 7, 0⟩

/-- Address of PLC_MRC_CFG, combining configuration (04_plc_physical.md). -/
def plcMrcCfg : Nat := 0x300014

/-- PLC_MRC_CFG.EXCL -/
def plcMrcCfg_EXCL : Fld := ⟨plcMrcCfg, 7, 0⟩

/-- Address of PLC_MRC_STAT, last combined frame (04_plc_physical.md). -/
def plcMrcStat : Nat := 0x300018

/-- PLC_MRC_STAT.SNR_L3 -/
def plcMrcStat_SNR_L3 : Fld := ⟨plcMrcStat, 23, 16⟩

/-- PLC_MRC_STAT.SNR_L2 -/
def plcMrcStat_SNR_L2 : Fld := ⟨plcMrcStat, 15, 8⟩

/-- PLC_MRC_STAT.SNR_L1 -/
def plcMrcStat_SNR_L1 : Fld := ⟨plcMrcStat, 7, 0⟩

/-- Address of PLC_XT_CFG, crosstalk cancellation (04_plc_physical.md). -/
def plcXtCfg : Nat := 0x30001C

/-- PLC_XT_CFG.XTC_EN -/
def plcXtCfg_XTC_EN : Fld := ⟨plcXtCfg, 0, 0⟩

/-- Address of PLC_EVT_EN, PHY event enables (04_plc_physical.md). -/
def plcEvtEn : Nat := 0x300020

/-- PLC_EVT_EN.EN -/
def plcEvtEn_EN : Fld := ⟨plcEvtEn, 14, 0⟩

/-- Address of PLC_RX_CFG_p, receive configuration of phase p = 0 to 2 (04_plc_physical.md). -/
def plcRxCfg (p : Nat) : Nat := 0x300100 + 0x40 * p

/-- PLC_RX_CFG_p.REPORT_BAD -/
def plcRxCfg_REPORT_BAD (p : Nat) : Fld := ⟨plcRxCfg p, 16, 16⟩

/-- PLC_RX_CFG_p.AGC_FIX -/
def plcRxCfg_AGC_FIX (p : Nat) : Fld := ⟨plcRxCfg p, 15, 15⟩

/-- PLC_RX_CFG_p.FIXGAIN -/
def plcRxCfg_FIXGAIN (p : Nat) : Fld := ⟨plcRxCfg p, 11, 8⟩

/-- PLC_RX_CFG_p.IMP_K -/
def plcRxCfg_IMP_K (p : Nat) : Fld := ⟨plcRxCfg p, 7, 4⟩

/-- PLC_RX_CFG_p.BLANK_EN -/
def plcRxCfg_BLANK_EN (p : Nat) : Fld := ⟨plcRxCfg p, 0, 0⟩

/-- Address of PLC_RX_STAT_p, receive status of phase p (04_plc_physical.md). -/
def plcRxStat (p : Nat) : Nat := 0x300104 + 0x40 * p

/-- PLC_RX_STAT_p.GAIN -/
def plcRxStat_GAIN (p : Nat) : Fld := ⟨plcRxStat p, 27, 24⟩

/-- PLC_RX_STAT_p.NOISE -/
def plcRxStat_NOISE (p : Nat) : Fld := ⟨plcRxStat p, 23, 16⟩

/-- PLC_RX_STAT_p.SNR -/
def plcRxStat_SNR (p : Nat) : Fld := ⟨plcRxStat p, 15, 8⟩

/-- Address of PLC_RX_CNT_p, receive counters of phase p (04_plc_physical.md). -/
def plcRxCnt (p : Nat) : Nat := 0x300108 + 0x40 * p

/-- PLC_RX_CNT_p.CLR -/
def plcRxCnt_CLR (p : Nat) : Fld := ⟨plcRxCnt p, 31, 31⟩

/-- PLC_RX_CNT_p.BAD -/
def plcRxCnt_BAD (p : Nat) : Fld := ⟨plcRxCnt p, 30, 16⟩

/-- PLC_RX_CNT_p.IMPULSE -/
def plcRxCnt_IMPULSE (p : Nat) : Fld := ⟨plcRxCnt p, 14, 0⟩

/-- Address of PLC_TX_CFG_p, transmit configuration of phase p (04_plc_physical.md). -/
def plcTxCfg (p : Nat) : Nat := 0x300110 + 0x40 * p

/-- PLC_TX_CFG_p.TRIP -/
def plcTxCfg_TRIP (p : Nat) : Fld := ⟨plcTxCfg p, 31, 24⟩

/-- PLC_TX_CFG_p.LIMIT -/
def plcTxCfg_LIMIT (p : Nat) : Fld := ⟨plcTxCfg p, 23, 16⟩

/-- PLC_TX_CFG_p.MAXSTEP -/
def plcTxCfg_MAXSTEP (p : Nat) : Fld := ⟨plcTxCfg p, 10, 8⟩

/-- PLC_TX_CFG_p.ATTEN -/
def plcTxCfg_ATTEN (p : Nat) : Fld := ⟨plcTxCfg p, 4, 0⟩

/-- Address of PLC_TX_STAT_p, transmit status of phase p (04_plc_physical.md). -/
def plcTxStat (p : Nat) : Nat := 0x300114 + 0x40 * p

/-- PLC_TX_STAT_p.LIMITED -/
def plcTxStat_LIMITED (p : Nat) : Fld := ⟨plcTxStat p, 31, 16⟩

/-- PLC_TX_STAT_p.REARMS -/
def plcTxStat_REARMS (p : Nat) : Fld := ⟨plcTxStat p, 9, 8⟩

/-- PLC_TX_STAT_p.OFF -/
def plcTxStat_OFF (p : Nat) : Fld := ⟨plcTxStat p, 1, 1⟩

/-- PLC_TX_STAT_p.TRIPPED -/
def plcTxStat_TRIPPED (p : Nat) : Fld := ⟨plcTxStat p, 0, 0⟩

/-- Address of PLC_CELL_CFG_c, cell configuration for c = 0 to 2 (05_plc_cell_protocol.md). -/
def plcCellCfg (c : Nat) : Nat := 0x301000 + 0x100 * c

/-- PLC_CELL_CFG_c.CELL -/
def plcCellCfg_CELL (c : Nat) : Fld := ⟨plcCellCfg c, 31, 24⟩

/-- PLC_CELL_CFG_c.C0MOD -/
def plcCellCfg_C0MOD (c : Nat) : Fld := ⟨plcCellCfg c, 23, 20⟩

/-- PLC_CELL_CFG_c.ECHO_DEPTH -/
def plcCellCfg_ECHO_DEPTH (c : Nat) : Fld := ⟨plcCellCfg c, 19, 18⟩

/-- PLC_CELL_CFG_c.C0_REPEAT -/
def plcCellCfg_C0_REPEAT (c : Nat) : Fld := ⟨plcCellCfg c, 17, 16⟩

/-- PLC_CELL_CFG_c.RETRY_MAX -/
def plcCellCfg_RETRY_MAX (c : Nat) : Fld := ⟨plcCellCfg c, 15, 14⟩

/-- PLC_CELL_CFG_c.PROBE_PERIOD -/
def plcCellCfg_PROBE_PERIOD (c : Nat) : Fld := ⟨plcCellCfg c, 11, 9⟩

/-- PLC_CELL_CFG_c.JOIN_OPEN -/
def plcCellCfg_JOIN_OPEN (c : Nat) : Fld := ⟨plcCellCfg c, 8, 8⟩

/-- PLC_CELL_CFG_c.JOIN_PERIOD -/
def plcCellCfg_JOIN_PERIOD (c : Nat) : Fld := ⟨plcCellCfg c, 7, 0⟩

/-- Address of PLC_CELL_LAYOUT_c, superframe layout (05_plc_cell_protocol.md). -/
def plcCellLayout (c : Nat) : Nat := 0x301004 + 0x100 * c

/-- PLC_CELL_LAYOUT_c.BCN_SLOTS -/
def plcCellLayout_BCN_SLOTS (c : Nat) : Fld := ⟨plcCellLayout c, 31, 28⟩

/-- PLC_CELL_LAYOUT_c.C0_SLOTS -/
def plcCellLayout_C0_SLOTS (c : Nat) : Fld := ⟨plcCellLayout c, 27, 24⟩

/-- PLC_CELL_LAYOUT_c.RESERVED -/
def plcCellLayout_RESERVED (c : Nat) : Fld := ⟨plcCellLayout c, 13, 7⟩

/-- PLC_CELL_LAYOUT_c.EXCH -/
def plcCellLayout_EXCH (c : Nat) : Fld := ⟨plcCellLayout c, 6, 0⟩

/-- Address of PLC_CELL_CNT_c, cell occupancy (05_plc_cell_protocol.md). -/
def plcCellCnt (c : Nat) : Nat := 0x301008 + 0x100 * c

/-- PLC_CELL_CNT_c.FREE -/
def plcCellCnt_FREE (c : Nat) : Fld := ⟨plcCellCnt c, 29, 16⟩

/-- PLC_CELL_CNT_c.JOINED -/
def plcCellCnt_JOINED (c : Nat) : Fld := ⟨plcCellCnt c, 13, 0⟩

/-- Address of PLC_SNAP_HI_c, announced snapshot crossing, high part (05_plc_cell_protocol.md). -/
def plcSnapHi (c : Nat) : Nat := 0x30100C + 0x100 * c

/-- PLC_SNAP_HI_c.VALID -/
def plcSnapHi_VALID (c : Nat) : Fld := ⟨plcSnapHi c, 31, 31⟩

/-- PLC_SNAP_HI_c.LOCAL -/
def plcSnapHi_LOCAL (c : Nat) : Fld := ⟨plcSnapHi c, 30, 30⟩

/-- PLC_SNAP_HI_c.N_HI -/
def plcSnapHi_N_HI (c : Nat) : Fld := ⟨plcSnapHi c, 15, 0⟩

/-- Address of PLC_SNAP_LO_c, announced snapshot crossing, low word (05_plc_cell_protocol.md). -/
def plcSnapLo (c : Nat) : Nat := 0x301010 + 0x100 * c

/-- PLC_SNAP_LO_c.N_LO -/
def plcSnapLo_N_LO (c : Nat) : Fld := ⟨plcSnapLo c, 31, 0⟩

/-- Address of PLC_XCH_OK_c, completed exchanges (05_plc_cell_protocol.md). -/
def plcXchOk (c : Nat) : Nat := 0x301014 + 0x100 * c

/-- PLC_XCH_OK_c.COUNT -/
def plcXchOk_COUNT (c : Nat) : Fld := ⟨plcXchOk c, 31, 0⟩

/-- Address of PLC_XCH_FAIL_c, exchange failures (05_plc_cell_protocol.md). -/
def plcXchFail (c : Nat) : Nat := 0x301018 + 0x100 * c

/-- PLC_XCH_FAIL_c.CLR -/
def plcXchFail_CLR (c : Nat) : Fld := ⟨plcXchFail c, 31, 31⟩

/-- PLC_XCH_FAIL_c.RETRIES -/
def plcXchFail_RETRIES (c : Nat) : Fld := ⟨plcXchFail c, 30, 16⟩

/-- PLC_XCH_FAIL_c.UNREACHED -/
def plcXchFail_UNREACHED (c : Nat) : Fld := ⟨plcXchFail c, 15, 0⟩

/-- Address of PLC_C0_STAT_c, last class-0 command (05_plc_cell_protocol.md). -/
def plcC0Stat (c : Nat) : Nat := 0x30101C + 0x100 * c

/-- PLC_C0_STAT_c.CSEQ -/
def plcC0Stat_CSEQ (c : Nat) : Fld := ⟨plcC0Stat c, 31, 0⟩

/-- Address of PLC_ROUTE_SEL, route query (05_plc_cell_protocol.md). -/
def plcRouteSel : Nat := 0x301400

/-- PLC_ROUTE_SEL.CELL -/
def plcRouteSel_CELL : Fld := ⟨plcRouteSel, 17, 16⟩

/-- PLC_ROUTE_SEL.ADDR -/
def plcRouteSel_ADDR : Fld := ⟨plcRouteSel, 15, 0⟩

/-- Address of PLC_ROUTE_DATA0, route relays 1 and 2 (05_plc_cell_protocol.md). -/
def plcRouteData0 : Nat := 0x301404

/-- PLC_ROUTE_DATA0.RELAY1 -/
def plcRouteData0_RELAY1 : Fld := ⟨plcRouteData0, 31, 16⟩

/-- PLC_ROUTE_DATA0.RELAY2 -/
def plcRouteData0_RELAY2 : Fld := ⟨plcRouteData0, 15, 0⟩

/-- Address of PLC_ROUTE_DATA1, route relay 3, cost and phase (05_plc_cell_protocol.md). -/
def plcRouteData1 : Nat := 0x301408

/-- PLC_ROUTE_DATA1.RELAY3 -/
def plcRouteData1_RELAY3 : Fld := ⟨plcRouteData1, 31, 16⟩

/-- PLC_ROUTE_DATA1.COST -/
def plcRouteData1_COST : Fld := ⟨plcRouteData1, 15, 4⟩

/-- PLC_ROUTE_DATA1.PHASE -/
def plcRouteData1_PHASE : Fld := ⟨plcRouteData1, 3, 2⟩

/-- PLC_ROUTE_DATA1.VALID -/
def plcRouteData1_VALID : Fld := ⟨plcRouteData1, 1, 1⟩

/-- Address of PLC_ROUTE_DATA2, route modulation codes (05_plc_cell_protocol.md). -/
def plcRouteData2 : Nat := 0x30140C

/-- PLC_ROUTE_DATA2.DOWN_MODS -/
def plcRouteData2_DOWN_MODS : Fld := ⟨plcRouteData2, 31, 16⟩

/-- PLC_ROUTE_DATA2.UP_MODS -/
def plcRouteData2_UP_MODS : Fld := ⟨plcRouteData2, 15, 0⟩

/-- Address of PLC_MAC_EVT_EN0, cell MAC event enables, low part (05_plc_cell_protocol.md). -/
def plcMacEvtEn0 : Nat := 0x301410

/-- PLC_MAC_EVT_EN0.EN -/
def plcMacEvtEn0_EN : Fld := ⟨plcMacEvtEn0, 31, 0⟩

/-- Address of PLC_MAC_EVT_EN1, cell MAC event enables, high part (05_plc_cell_protocol.md). -/
def plcMacEvtEn1 : Nat := 0x301414

/-- PLC_MAC_EVT_EN1.EN -/
def plcMacEvtEn1_EN : Fld := ⟨plcMacEvtEn1, 15, 0⟩

/-- Address of RAD_CFG_r, radio configuration for r = 0 to 1 (06_radio.md). -/
def radCfg (r : Nat) : Nat := 0x400000 + 0x1000 * r

/-- RAD_CFG_r.CELL -/
def radCfg_CELL (r : Nat) : Fld := ⟨radCfg r, 31, 24⟩

/-- RAD_CFG_r.CHANNEL -/
def radCfg_CHANNEL (r : Nat) : Fld := ⟨radCfg r, 23, 16⟩

/-- RAD_CFG_r.PHY -/
def radCfg_PHY (r : Nat) : Fld := ⟨radCfg r, 13, 12⟩

/-- RAD_CFG_r.SUNBAND -/
def radCfg_SUNBAND (r : Nat) : Fld := ⟨radCfg r, 11, 11⟩

/-- RAD_CFG_r.IQRATE -/
def radCfg_IQRATE (r : Nat) : Fld := ⟨radCfg r, 10, 8⟩

/-- RAD_CFG_r.TIME_PER -/
def radCfg_TIME_PER (r : Nat) : Fld := ⟨radCfg r, 7, 4⟩

/-- RAD_CFG_r.ROUTERS -/
def radCfg_ROUTERS (r : Nat) : Fld := ⟨radCfg r, 3, 3⟩

/-- RAD_CFG_r.ASSOC_OPEN -/
def radCfg_ASSOC_OPEN (r : Nat) : Fld := ⟨radCfg r, 2, 2⟩

/-- RAD_CFG_r.EN -/
def radCfg_EN (r : Nat) : Fld := ⟨radCfg r, 0, 0⟩

/-- Address of RAD_PAN_r, PAN identifier (06_radio.md). -/
def radPan (r : Nat) : Nat := 0x400004 + 0x1000 * r

/-- RAD_PAN_r.PANID -/
def radPan_PANID (r : Nat) : Fld := ⟨radPan r, 15, 0⟩

/-- Address of RAD_CNT_r, cell occupancy (06_radio.md). -/
def radCnt (r : Nat) : Nat := 0x400008 + 0x1000 * r

/-- RAD_CNT_r.FREE -/
def radCnt_FREE (r : Nat) : Fld := ⟨radCnt r, 27, 16⟩

/-- RAD_CNT_r.JOINED -/
def radCnt_JOINED (r : Nat) : Fld := ⟨radCnt r, 11, 0⟩

/-- Address of RAD_PEND_CTRL_r, pending-table access (06_radio.md). -/
def radPendCtrl (r : Nat) : Nat := 0x400010 + 0x1000 * r

/-- RAD_PEND_CTRL_r.OP -/
def radPendCtrl_OP (r : Nat) : Fld := ⟨radPendCtrl r, 31, 30⟩

/-- RAD_PEND_CTRL_r.ADDR -/
def radPendCtrl_ADDR (r : Nat) : Fld := ⟨radPendCtrl r, 15, 0⟩

/-- Address of RAD_PEND_STAT_r, pending-table status (06_radio.md). -/
def radPendStat (r : Nat) : Nat := 0x400014 + 0x1000 * r

/-- RAD_PEND_STAT_r.FORCE -/
def radPendStat_FORCE (r : Nat) : Fld := ⟨radPendStat r, 17, 17⟩

/-- RAD_PEND_STAT_r.PENDING -/
def radPendStat_PENDING (r : Nat) : Fld := ⟨radPendStat r, 16, 16⟩

/-- RAD_PEND_STAT_r.COUNT -/
def radPendStat_COUNT (r : Nat) : Fld := ⟨radPendStat r, 11, 0⟩

/-- Address of RAD_SL_CFG_r, sampled-listening parameters (06_radio.md). -/
def radSlCfg (r : Nat) : Nat := 0x400020 + 0x1000 * r

/-- RAD_SL_CFG_r.DRIFT_MIN -/
def radSlCfg_DRIFT_MIN (r : Nat) : Fld := ⟨radSlCfg r, 31, 24⟩

/-- RAD_SL_CFG_r.SAMPLE -/
def radSlCfg_SAMPLE (r : Nat) : Fld := ⟨radSlCfg r, 23, 16⟩

/-- RAD_SL_CFG_r.GUARD -/
def radSlCfg_GUARD (r : Nat) : Fld := ⟨radSlCfg r, 15, 0⟩

/-- Address of RAD_SL_LAST_r, last cover transmission (06_radio.md). -/
def radSlLast (r : Nat) : Nat := 0x400024 + 0x1000 * r

/-- RAD_SL_LAST_r.WHOLE -/
def radSlLast_WHOLE (r : Nat) : Fld := ⟨radSlLast r, 31, 31⟩

/-- RAD_SL_LAST_r.TRUNC -/
def radSlLast_TRUNC (r : Nat) : Fld := ⟨radSlLast r, 30, 30⟩

/-- RAD_SL_LAST_r.UNITS -/
def radSlLast_UNITS (r : Nat) : Fld := ⟨radSlLast r, 23, 0⟩

/-- Address of RAD_DUTY_CFG_r, duty window and dwell (06_radio.md). -/
def radDutyCfg (r : Nat) : Nat := 0x400030 + 0x1000 * r

/-- RAD_DUTY_CFG_r.WINDOW -/
def radDutyCfg_WINDOW (r : Nat) : Fld := ⟨radDutyCfg r, 31, 16⟩

/-- RAD_DUTY_CFG_r.MAX_DWELL -/
def radDutyCfg_MAX_DWELL (r : Nat) : Fld := ⟨radDutyCfg r, 15, 0⟩

/-- Address of RAD_DUTY_BUDGET_r, duty budget (06_radio.md). -/
def radDutyBudget (r : Nat) : Nat := 0x400034 + 0x1000 * r

/-- RAD_DUTY_BUDGET_r.BUDGET -/
def radDutyBudget_BUDGET (r : Nat) : Fld := ⟨radDutyBudget r, 31, 16⟩

/-- RAD_DUTY_BUDGET_r.RESERVE -/
def radDutyBudget_RESERVE (r : Nat) : Fld := ⟨radDutyBudget r, 15, 0⟩

/-- Address of RAD_DUTY_USED_r, duty account (06_radio.md). -/
def radDutyUsed (r : Nat) : Nat := 0x400038 + 0x1000 * r

/-- RAD_DUTY_USED_r.DEFERRED -/
def radDutyUsed_DEFERRED (r : Nat) : Fld := ⟨radDutyUsed r, 31, 16⟩

/-- RAD_DUTY_USED_r.USED -/
def radDutyUsed_USED (r : Nat) : Fld := ⟨radDutyUsed r, 15, 0⟩

/-- Address of RAD_ERR_r, receive error counters (06_radio.md). -/
def radErr (r : Nat) : Nat := 0x400040 + 0x1000 * r

/-- RAD_ERR_r.CLR -/
def radErr_CLR (r : Nat) : Fld := ⟨radErr r, 31, 31⟩

/-- RAD_ERR_r.SECFAIL -/
def radErr_SECFAIL (r : Nat) : Fld := ⟨radErr r, 30, 16⟩

/-- RAD_ERR_r.FILTERED -/
def radErr_FILTERED (r : Nat) : Fld := ⟨radErr r, 15, 0⟩

/-- Address of RAD_EVT_EN, radio event enables (06_radio.md). -/
def radEvtEn : Nat := 0x402000

/-- RAD_EVT_EN.EN -/
def radEvtEn_EN : Fld := ⟨radEvtEn, 31, 0⟩

/-- Address of ETH_CFG_x, port configuration for x = 0 to 1 (07_ethernet_gangway.md). -/
def ethCfg (x : Nat) : Nat := 0x500000 + 0x100 * x

/-- ETH_CFG_x.SLOWDLY -/
def ethCfg_SLOWDLY (x : Nat) : Fld := ⟨ethCfg x, 31, 16⟩

/-- ETH_CFG_x.C0_EN -/
def ethCfg_C0_EN (x : Nat) : Fld := ⟨ethCfg x, 4, 4⟩

/-- ETH_CFG_x.ANEG -/
def ethCfg_ANEG (x : Nat) : Fld := ⟨ethCfg x, 3, 3⟩

/-- ETH_CFG_x.MODE -/
def ethCfg_MODE (x : Nat) : Fld := ⟨ethCfg x, 2, 1⟩

/-- ETH_CFG_x.EN -/
def ethCfg_EN (x : Nat) : Fld := ⟨ethCfg x, 0, 0⟩

/-- Address of ETH_STAT_x, port status (07_ethernet_gangway.md). -/
def ethStat (x : Nat) : Nat := 0x500004 + 0x100 * x

/-- ETH_STAT_x.SPEED -/
def ethStat_SPEED (x : Nat) : Fld := ⟨ethStat x, 2, 1⟩

/-- ETH_STAT_x.LINK -/
def ethStat_LINK (x : Nat) : Fld := ⟨ethStat x, 0, 0⟩

/-- Address of ETH_CNT_x, discard counters (07_ethernet_gangway.md). -/
def ethCnt (x : Nat) : Nat := 0x500008 + 0x100 * x

/-- ETH_CNT_x.CLR -/
def ethCnt_CLR (x : Nat) : Fld := ⟨ethCnt x, 31, 31⟩

/-- ETH_CNT_x.FCS -/
def ethCnt_FCS (x : Nat) : Fld := ⟨ethCnt x, 30, 16⟩

/-- ETH_CNT_x.SIZE -/
def ethCnt_SIZE (x : Nat) : Fld := ⟨ethCnt x, 15, 0⟩

/-- Address of PTP_CFG, PTP configuration (07_ethernet_gangway.md). -/
def ptpCfg : Nat := 0x501000

/-- PTP_CFG.DOMAIN -/
def ptpCfg_DOMAIN : Fld := ⟨ptpCfg, 31, 24⟩

/-- PTP_CFG.TC_EN -/
def ptpCfg_TC_EN : Fld := ⟨ptpCfg, 10, 10⟩

/-- PTP_CFG.TRANSPORT -/
def ptpCfg_TRANSPORT : Fld := ⟨ptpCfg, 9, 8⟩

/-- PTP_CFG.DELAY -/
def ptpCfg_DELAY : Fld := ⟨ptpCfg, 7, 7⟩

/-- PTP_CFG.TWOSTEP -/
def ptpCfg_TWOSTEP : Fld := ⟨ptpCfg, 6, 6⟩

/-- PTP_CFG.CLOCK -/
def ptpCfg_CLOCK : Fld := ⟨ptpCfg, 5, 4⟩

/-- PTP_CFG.PROFILE -/
def ptpCfg_PROFILE : Fld := ⟨ptpCfg, 0, 0⟩

/-- Address of PTP_STAT, PTP status (07_ethernet_gangway.md). -/
def ptpStat : Nat := 0x501004

/-- PTP_STAT.OVERRIDE -/
def ptpStat_OVERRIDE : Fld := ⟨ptpStat, 9, 9⟩

/-- PTP_STAT.LOCKED -/
def ptpStat_LOCKED : Fld := ⟨ptpStat, 8, 8⟩

/-- PTP_STAT.STATE_B -/
def ptpStat_STATE_B : Fld := ⟨ptpStat, 7, 4⟩

/-- PTP_STAT.STATE_A -/
def ptpStat_STATE_A : Fld := ⟨ptpStat, 3, 0⟩

/-- Address of PTP_OFFSET, last offset from master (07_ethernet_gangway.md). -/
def ptpOffset : Nat := 0x501008

/-- PTP_OFFSET.OFFSET -/
def ptpOffset_OFFSET : Fld := ⟨ptpOffset, 31, 0⟩

/-- Address of PTP_SERVO, servo thresholds (07_ethernet_gangway.md). -/
def ptpServo : Nat := 0x50100C

/-- PTP_SERVO.STEP_US -/
def ptpServo_STEP_US : Fld := ⟨ptpServo, 31, 16⟩

/-- PTP_SERVO.LOCK_NS -/
def ptpServo_LOCK_NS : Fld := ⟨ptpServo, 15, 0⟩

/-- Address of PTP_PDELAY_x, mean link delay of port x (07_ethernet_gangway.md). -/
def ptpPdelay (x : Nat) : Nat := 0x501010 + 0x4 * x

/-- PTP_PDELAY_x.DELAY -/
def ptpPdelay_DELAY (x : Nat) : Fld := ⟨ptpPdelay x, 31, 0⟩

/-- Address of PTP_ADJ, frequency adjustment (07_ethernet_gangway.md). -/
def ptpAdj : Nat := 0x501020

/-- PTP_ADJ.PPB -/
def ptpAdj_PPB : Fld := ⟨ptpAdj, 31, 0⟩

/-- Address of GWY_CFG, Gangway configuration (07_ethernet_gangway.md). -/
def gwyCfg : Nat := 0x502000

/-- GWY_CFG.PORT -/
def gwyCfg_PORT : Fld := ⟨gwyCfg, 31, 16⟩

/-- GWY_CFG.ANCHOR_DLY -/
def gwyCfg_ANCHOR_DLY : Fld := ⟨gwyCfg, 15, 8⟩

/-- GWY_CFG.ACK_DLY -/
def gwyCfg_ACK_DLY : Fld := ⟨gwyCfg, 7, 2⟩

/-- GWY_CFG.IPVER -/
def gwyCfg_IPVER : Fld := ⟨gwyCfg, 1, 1⟩

/-- GWY_CFG.HUB -/
def gwyCfg_HUB : Fld := ⟨gwyCfg, 0, 0⟩

/-- Address of GWY_PEER_SEL, peer select (07_ethernet_gangway.md). -/
def gwyPeerSel : Nat := 0x502004

/-- GWY_PEER_SEL.CHIP -/
def gwyPeerSel_CHIP : Fld := ⟨gwyPeerSel, 15, 0⟩

/-- Address of GWY_PEER_STAT, selected peer status (07_ethernet_gangway.md). -/
def gwyPeerStat : Nat := 0x502008

/-- GWY_PEER_STAT.UP -/
def gwyPeerStat_UP : Fld := ⟨gwyPeerStat, 16, 16⟩

/-- GWY_PEER_STAT.KEYGEN -/
def gwyPeerStat_KEYGEN : Fld := ⟨gwyPeerStat, 15, 8⟩

/-- GWY_PEER_STAT.OUTSTANDING -/
def gwyPeerStat_OUTSTANDING : Fld := ⟨gwyPeerStat, 6, 0⟩

/-- Address of GWY_CNT, selected peer counters (07_ethernet_gangway.md). -/
def gwyCnt : Nat := 0x50200C

/-- GWY_CNT.RETRANS -/
def gwyCnt_RETRANS : Fld := ⟨gwyCnt, 31, 16⟩

/-- GWY_CNT.TAGFAIL -/
def gwyCnt_TAGFAIL : Fld := ⟨gwyCnt, 15, 8⟩

/-- GWY_CNT.DUP -/
def gwyCnt_DUP : Fld := ⟨gwyCnt, 7, 0⟩

/-- Address of ETH_EVT_EN, event enables (07_ethernet_gangway.md). -/
def ethEvtEn : Nat := 0x503000

/-- ETH_EVT_EN.EN -/
def ethEvtEn_EN : Fld := ⟨ethEvtEn, 17, 0⟩

/-- Address of ETH_MSIX_ROUTE_e, MSI-X routing of event e = 0 to 511 (07_ethernet_gangway.md). -/
def ethMsixRoute (e : Nat) : Nat := 0x504000 + 0x4 * e

/-- ETH_MSIX_ROUTE_e.EN -/
def ethMsixRoute_EN (e : Nat) : Fld := ⟨ethMsixRoute e, 31, 31⟩

/-- ETH_MSIX_ROUTE_e.VECTOR -/
def ethMsixRoute_VECTOR (e : Nat) : Fld := ⟨ethMsixRoute e, 5, 0⟩

/-- Address of VAL_CFG, pipeline configuration (08_reading_validation.md). -/
def valCfg : Nat := 0x600000

/-- VAL_CFG.GROUP_WAIT -/
def valCfg_GROUP_WAIT : Fld := ⟨valCfg, 23, 16⟩

/-- VAL_CFG.REASM_MAX -/
def valCfg_REASM_MAX : Fld := ⟨valCfg, 15, 8⟩

/-- Address of VAL_STAT, pipeline status (08_reading_validation.md). -/
def valStat : Nat := 0x600004

/-- VAL_STAT.INFLIGHT -/
def valStat_INFLIGHT : Fld := ⟨valStat, 25, 16⟩

/-- VAL_STAT.REASM -/
def valStat_REASM : Fld := ⟨valStat, 15, 8⟩

/-- VAL_STAT.GROUPS -/
def valStat_GROUPS : Fld := ⟨valStat, 5, 0⟩

/-- Address of VAL_FRESH, freshness limits (08_reading_validation.md). -/
def valFresh : Nat := 0x600008

/-- VAL_FRESH.AHEAD -/
def valFresh_AHEAD : Fld := ⟨valFresh, 31, 24⟩

/-- VAL_FRESH.SELF_TOL -/
def valFresh_SELF_TOL : Fld := ⟨valFresh, 23, 16⟩

/-- VAL_FRESH.AGE -/
def valFresh_AGE : Fld := ⟨valFresh, 15, 0⟩

/-- Address of VAL_PLAUS, plausibility margin (08_reading_validation.md). -/
def valPlaus : Nat := 0x60000C

/-- VAL_PLAUS.MARGIN -/
def valPlaus_MARGIN : Fld := ⟨valPlaus, 15, 0⟩

/-- Address of VAL_VCNT_SEL, verdict counter select (08_reading_validation.md). -/
def valVcntSel : Nat := 0x600010

/-- VAL_VCNT_SEL.CLR -/
def valVcntSel_CLR : Fld := ⟨valVcntSel, 31, 31⟩

/-- VAL_VCNT_SEL.VERDICT -/
def valVcntSel_VERDICT : Fld := ⟨valVcntSel, 7, 0⟩

/-- Address of VAL_VCNT, selected verdict count (08_reading_validation.md). -/
def valVcnt : Nat := 0x600014

/-- VAL_VCNT.COUNT -/
def valVcnt_COUNT : Fld := ⟨valVcnt, 31, 0⟩

/-- Address of VAL_DEDUP_SEL, dedup window query (08_reading_validation.md). -/
def valDedupSel : Nat := 0x600020

/-- VAL_DEDUP_SEL.SESSION -/
def valDedupSel_SESSION : Fld := ⟨valDedupSel, 31, 31⟩

/-- VAL_DEDUP_SEL.INDEX -/
def valDedupSel_INDEX : Fld := ⟨valDedupSel, 19, 0⟩

/-- Address of VAL_DEDUP_TOP, captured window top (08_reading_validation.md). -/
def valDedupTop : Nat := 0x600024

/-- VAL_DEDUP_TOP.TOP -/
def valDedupTop_TOP : Fld := ⟨valDedupTop, 31, 0⟩

/-- Address of VAL_DEDUP_WHI, captured window bitmap, high word (08_reading_validation.md). -/
def valDedupWhi : Nat := 0x600028

/-- VAL_DEDUP_WHI.WHI -/
def valDedupWhi_WHI : Fld := ⟨valDedupWhi, 31, 0⟩

/-- Address of VAL_DEDUP_WLO, captured window bitmap, low word (08_reading_validation.md). -/
def valDedupWlo : Nat := 0x60002C

/-- VAL_DEDUP_WLO.WLO -/
def valDedupWlo_WLO : Fld := ⟨valDedupWlo, 31, 0⟩

/-- Address of VAL_BATCH_CFG, batch closing (08_reading_validation.md). -/
def valBatchCfg : Nat := 0x600040

/-- VAL_BATCH_CFG.MAXAGE -/
def valBatchCfg_MAXAGE : Fld := ⟨valBatchCfg, 31, 16⟩

/-- VAL_BATCH_CFG.MAX_ENTRIES -/
def valBatchCfg_MAX_ENTRIES : Fld := ⟨valBatchCfg, 12, 0⟩

/-- Address of VAL_BATCH_STAT, batch status (08_reading_validation.md). -/
def valBatchStat : Nat := 0x600044

/-- VAL_BATCH_STAT.UNACKED -/
def valBatchStat_UNACKED : Fld := ⟨valBatchStat, 31, 16⟩

/-- VAL_BATCH_STAT.OPEN -/
def valBatchStat_OPEN : Fld := ⟨valBatchStat, 12, 0⟩

/-- Address of VAL_BSEQ_HI, last signed batch sequence, high word (08_reading_validation.md). -/
def valBseqHi : Nat := 0x600048

/-- VAL_BSEQ_HI.BSEQ_HI -/
def valBseqHi_BSEQ_HI : Fld := ⟨valBseqHi, 31, 0⟩

/-- Address of VAL_BSEQ_LO, last signed batch sequence, low word (08_reading_validation.md). -/
def valBseqLo : Nat := 0x60004C

/-- VAL_BSEQ_LO.BSEQ_LO -/
def valBseqLo_BSEQ_LO : Fld := ⟨valBseqLo, 31, 0⟩

/-- Address of VAL_EVT_EN, validation event enables (08_reading_validation.md). -/
def valEvtEn : Nat := 0x600060

/-- VAL_EVT_EN.EN -/
def valEvtEn_EN : Fld := ⟨valEvtEn, 17, 0⟩

/-- Address of EPT_CFG, table configuration (09_endpoint_table.md). -/
def eptCfg : Nat := 0x700000

/-- EPT_CFG.CAPACITY -/
def eptCfg_CAPACITY : Fld := ⟨eptCfg, 20, 0⟩

/-- Address of EPT_KEK, key-encryption key slots (09_endpoint_table.md). -/
def eptKek : Nat := 0x700004

/-- EPT_KEK.NEW_SLOT -/
def eptKek_NEW_SLOT : Fld := ⟨eptKek, 25, 16⟩

/-- EPT_KEK.SLOT -/
def eptKek_SLOT : Fld := ⟨eptKek, 9, 0⟩

/-- Address of EPT_COUNT, registered endpoints (09_endpoint_table.md). -/
def eptCount : Nat := 0x700008

/-- EPT_COUNT.REGISTERED -/
def eptCount_REGISTERED : Fld := ⟨eptCount, 20, 0⟩

/-- Address of EPT_QUAR, quarantined indices (09_endpoint_table.md). -/
def eptQuar : Nat := 0x70000C

/-- EPT_QUAR.QUARANTINED -/
def eptQuar_QUARANTINED : Fld := ⟨eptQuar, 20, 0⟩

/-- Address of EPT_CMD, table operation (09_endpoint_table.md). -/
def eptCmd : Nat := 0x700010

/-- EPT_CMD.OP -/
def eptCmd_OP : Fld := ⟨eptCmd, 31, 28⟩

/-- EPT_CMD.INDEX -/
def eptCmd_INDEX : Fld := ⟨eptCmd, 19, 0⟩

/-- Address of EPT_CMD_STAT, operation status (09_endpoint_table.md). -/
def eptCmdStat : Nat := 0x700014

/-- EPT_CMD_STAT.BUSY -/
def eptCmdStat_BUSY : Fld := ⟨eptCmdStat, 31, 31⟩

/-- EPT_CMD_STAT.RESULT -/
def eptCmdStat_RESULT : Fld := ⟨eptCmdStat, 7, 0⟩

/-- Address of EPT_CACHE_HIT, hot-cache hits (09_endpoint_table.md). -/
def eptCacheHit : Nat := 0x700020

/-- EPT_CACHE_HIT.COUNT -/
def eptCacheHit_COUNT : Fld := ⟨eptCacheHit, 31, 0⟩

/-- Address of EPT_CACHE_MISS, hot-cache misses (09_endpoint_table.md). -/
def eptCacheMiss : Nat := 0x700024

/-- EPT_CACHE_MISS.COUNT -/
def eptCacheMiss_COUNT : Fld := ⟨eptCacheMiss, 31, 0⟩

/-- Address of EPT_CACHE_STAT, hot-cache occupancy (09_endpoint_table.md). -/
def eptCacheStat : Nat := 0x700028

/-- EPT_CACHE_STAT.PINNED -/
def eptCacheStat_PINNED : Fld := ⟨eptCacheStat, 29, 16⟩

/-- EPT_CACHE_STAT.DIRTY -/
def eptCacheStat_DIRTY : Fld := ⟨eptCacheStat, 15, 0⟩

/-- Address of EPT_TXN_STAT, transaction table (09_endpoint_table.md). -/
def eptTxnStat : Nat := 0x700030

/-- EPT_TXN_STAT.WAITERS -/
def eptTxnStat_WAITERS : Fld := ⟨eptTxnStat, 20, 16⟩

/-- EPT_TXN_STAT.INFLIGHT -/
def eptTxnStat_INFLIGHT : Fld := ⟨eptTxnStat, 12, 0⟩

/-- Address of EPT_REFUSE, registration refusals (09_endpoint_table.md). -/
def eptRefuse : Nat := 0x700034

/-- EPT_REFUSE.HUBFULL -/
def eptRefuse_HUBFULL : Fld := ⟨eptRefuse, 31, 16⟩

/-- EPT_REFUSE.CELLFULL -/
def eptRefuse_CELLFULL : Fld := ⟨eptRefuse, 15, 0⟩

/-- Address of EPT_EVT_EN, event enables (09_endpoint_table.md). -/
def eptEvtEn : Nat := 0x700040

/-- EPT_EVT_EN.EN -/
def eptEvtEn_EN : Fld := ⟨eptEvtEn, 9, 0⟩

/-- Address of EPT_STAGE_k, staging word k = 0 to 31 (09_endpoint_table.md). -/
def eptStage (k : Nat) : Nat := 0x700100 + 0x4 * k

/-- EPT_STAGE_k.DATA -/
def eptStage_DATA (k : Nat) : Fld := ⟨eptStage k, 31, 0⟩

/-- Address of BAL_CFG, balance configuration (10_balance.md). -/
def balCfg : Nat := 0x800000

/-- BAL_CFG.INC_EPCT -/
def balCfg_INC_EPCT : Fld := ⟨balCfg, 31, 24⟩

/-- BAL_CFG.INC_PCT -/
def balCfg_INC_PCT : Fld := ⟨balCfg, 23, 16⟩

/-- BAL_CFG.DEADLINE -/
def balCfg_DEADLINE : Fld := ⟨balCfg, 15, 8⟩

/-- BAL_CFG.CKPT_PERIOD -/
def balCfg_CKPT_PERIOD : Fld := ⟨balCfg, 7, 1⟩

/-- BAL_CFG.EN -/
def balCfg_EN : Fld := ⟨balCfg, 0, 0⟩

/-- Address of BAL_STAT, engine status (10_balance.md). -/
def balStat : Nat := 0x800004

/-- BAL_STAT.BUSY -/
def balStat_BUSY : Fld := ⟨balStat, 31, 31⟩

/-- BAL_STAT.LATE -/
def balStat_LATE : Fld := ⟨balStat, 30, 16⟩

/-- BAL_STAT.NODES -/
def balStat_NODES : Fld := ⟨balStat, 12, 0⟩

/-- Address of BAL_LAST_Q, last evaluated quarter (10_balance.md). -/
def balLastQ : Nat := 0x800008

/-- BAL_LAST_Q.Q -/
def balLastQ_Q : Fld := ⟨balLastQ, 31, 0⟩

/-- Address of BAL_CORR_CFG, bypass test limits (10_balance.md). -/
def balCorrCfg : Nat := 0x800010

/-- BAL_CORR_CFG.CORR_MIN -/
def balCorrCfg_CORR_MIN : Fld := ⟨balCorrCfg, 31, 16⟩

/-- BAL_CORR_CFG.SLOPE_MIN -/
def balCorrCfg_SLOPE_MIN : Fld := ⟨balCorrCfg, 15, 8⟩

/-- BAL_CORR_CFG.MIN_SAMPLES -/
def balCorrCfg_MIN_SAMPLES : Fld := ⟨balCorrCfg, 7, 0⟩

/-- Address of BAL_PERSIST_k, persistence of alarm class k = 0 to 5 (10_balance.md). -/
def balPersist (k : Nat) : Nat := 0x800020 + 0x4 * k

/-- BAL_PERSIST_k.M -/
def balPersist_M (k : Nat) : Fld := ⟨balPersist k, 11, 8⟩

/-- BAL_PERSIST_k.N -/
def balPersist_N (k : Nat) : Fld := ⟨balPersist k, 3, 0⟩

/-- Address of BAL_SITE, site record (10_balance.md). -/
def balSite : Nat := 0x800040

/-- BAL_SITE.EMIT -/
def balSite_EMIT : Fld := ⟨balSite, 31, 31⟩

/-- BAL_SITE.KEY_SLOT -/
def balSite_KEY_SLOT : Fld := ⟨balSite, 9, 0⟩

/-- Address of BAL_NODE_SEL, node query (10_balance.md). -/
def balNodeSel : Nat := 0x800100

/-- BAL_NODE_SEL.NODE -/
def balNodeSel_NODE : Fld := ⟨balNodeSel, 11, 0⟩

/-- Address of BAL_NODE_CFG, node structure (10_balance.md). -/
def balNodeCfg : Nat := 0x800104

/-- BAL_NODE_CFG.REF_KIND -/
def balNodeCfg_REF_KIND : Fld := ⟨balNodeCfg, 31, 30⟩

/-- BAL_NODE_CFG.PHASE -/
def balNodeCfg_PHASE : Fld := ⟨balNodeCfg, 29, 28⟩

/-- BAL_NODE_CFG.PARENT -/
def balNodeCfg_PARENT : Fld := ⟨balNodeCfg, 27, 15⟩

/-- BAL_NODE_CFG.K1 -/
def balNodeCfg_K1 : Fld := ⟨balNodeCfg, 11, 0⟩

/-- Address of BAL_NODE_REF, node reference (10_balance.md). -/
def balNodeRef : Nat := 0x800108

/-- BAL_NODE_REF.REF_INDEX -/
def balNodeRef_REF_INDEX : Fld := ⟨balNodeRef, 19, 0⟩

/-- Address of BAL_NODE_LOSS, loss coefficients (10_balance.md). -/
def balNodeLoss : Nat := 0x80010C

/-- BAL_NODE_LOSS.K0 -/
def balNodeLoss_K0 : Fld := ⟨balNodeLoss, 31, 16⟩

/-- BAL_NODE_LOSS.K2 -/
def balNodeLoss_K2 : Fld := ⟨balNodeLoss, 15, 0⟩

/-- Address of BAL_NODE_THR, alarm thresholds (10_balance.md). -/
def balNodeThr : Nat := 0x800110

/-- BAL_NODE_THR.LOSS_PM -/
def balNodeThr_LOSS_PM : Fld := ⟨balNodeThr, 31, 24⟩

/-- BAL_NODE_THR.NEG_PM -/
def balNodeThr_NEG_PM : Fld := ⟨balNodeThr, 23, 16⟩

/-- BAL_NODE_THR.ABS_WH -/
def balNodeThr_ABS_WH : Fld := ⟨balNodeThr, 15, 0⟩

/-- Address of BAL_NODE_STAT, last result (10_balance.md). -/
def balNodeStat : Nat := 0x800114

/-- BAL_NODE_STAT.RATIO -/
def balNodeStat_RATIO : Fld := ⟨balNodeStat, 31, 16⟩

/-- BAL_NODE_STAT.ALARMS -/
def balNodeStat_ALARMS : Fld := ⟨balNodeStat, 15, 8⟩

/-- BAL_NODE_STAT.RFLAGS -/
def balNodeStat_RFLAGS : Fld := ⟨balNodeStat, 7, 0⟩

/-- Address of BAL_NODE_RES_HI, last residual, high word (10_balance.md). -/
def balNodeResHi : Nat := 0x800118

/-- BAL_NODE_RES_HI.HI -/
def balNodeResHi_HI : Fld := ⟨balNodeResHi, 31, 0⟩

/-- Address of BAL_NODE_RES_LO, last residual, low word (10_balance.md). -/
def balNodeResLo : Nat := 0x80011C

/-- BAL_NODE_RES_LO.LO -/
def balNodeResLo_LO : Fld := ⟨balNodeResLo, 31, 0⟩

/-- Address of BAL_EP_SEL, endpoint query (10_balance.md). -/
def balEpSel : Nat := 0x800200

/-- BAL_EP_SEL.INDEX -/
def balEpSel_INDEX : Fld := ⟨balEpSel, 19, 0⟩

/-- Address of BAL_EP_STAT, endpoint balance status (10_balance.md). -/
def balEpStat : Nat := 0x800204

/-- BAL_EP_STAT.NODE -/
def balEpStat_NODE : Fld := ⟨balEpStat, 28, 16⟩

/-- BAL_EP_STAT.BYPASS_PM -/
def balEpStat_BYPASS_PM : Fld := ⟨balEpStat, 15, 6⟩

/-- BAL_EP_STAT.PH_ALARM -/
def balEpStat_PH_ALARM : Fld := ⟨balEpStat, 5, 5⟩

/-- BAL_EP_STAT.BYP_ALARM -/
def balEpStat_BYP_ALARM : Fld := ⟨balEpStat, 4, 4⟩

/-- BAL_EP_STAT.BASIS -/
def balEpStat_BASIS : Fld := ⟨balEpStat, 3, 3⟩

/-- Address of BAL_EP_CORR, last correlation (10_balance.md). -/
def balEpCorr : Nat := 0x800208

/-- BAL_EP_CORR.CORR -/
def balEpCorr_CORR : Fld := ⟨balEpCorr, 31, 16⟩

/-- BAL_EP_CORR.SAMPLES -/
def balEpCorr_SAMPLES : Fld := ⟨balEpCorr, 15, 8⟩

/-- Address of BAL_EP_SLOPE, last slope (10_balance.md). -/
def balEpSlope : Nat := 0x80020C

/-- BAL_EP_SLOPE.SLOPE -/
def balEpSlope_SLOPE : Fld := ⟨balEpSlope, 31, 0⟩

/-- Address of BAL_EP_NODE, member node override (10_balance.md). -/
def balEpNode : Nat := 0x800210

/-- BAL_EP_NODE.NODE_OVR -/
def balEpNode_NODE_OVR : Fld := ⟨balEpNode, 15, 0⟩

/-- Address of BAL_EVT_EN, event enables (10_balance.md). -/
def balEvtEn : Nat := 0x800300

/-- BAL_EVT_EN.EN -/
def balEvtEn_EN : Fld := ⟨balEvtEn, 8, 0⟩

/-- Address of BAL_MAP_k, node map entries 2k and 2k + 1, k = 0 to 511 (10_balance.md). -/
def balMap (k : Nat) : Nat := 0x801000 + 0x4 * k

/-- BAL_MAP_k.ODD -/
def balMap_ODD (k : Nat) : Fld := ⟨balMap k, 28, 16⟩

/-- BAL_MAP_k.EVEN -/
def balMap_EVEN (k : Nat) : Fld := ⟨balMap k, 12, 0⟩

/-- Address of TRF_CFG, tariff configuration (11_tariff_calendar.md). -/
def trfCfg : Nat := 0x900000

/-- TRF_CFG.KEY_SLOT -/
def trfCfg_KEY_SLOT : Fld := ⟨trfCfg, 25, 16⟩

/-- TRF_CFG.GROUPS -/
def trfCfg_GROUPS : Fld := ⟨trfCfg, 6, 0⟩

/-- Address of TRF_STAT, tariff status (11_tariff_calendar.md). -/
def trfStat : Nat := 0x900004

/-- TRF_STAT.PENDING -/
def trfStat_PENDING : Fld := ⟨trfStat, 14, 8⟩

/-- TRF_STAT.SUSPENDED -/
def trfStat_SUSPENDED : Fld := ⟨trfStat, 0, 0⟩

/-- Address of TRF_RSEQ, request window top (11_tariff_calendar.md). -/
def trfRseq : Nat := 0x900008

/-- TRF_RSEQ.TOP -/
def trfRseq_TOP : Fld := ⟨trfRseq, 31, 0⟩

/-- Address of TRF_LAST_REQ, last request result (11_tariff_calendar.md). -/
def trfLastReq : Nat := 0x90000C

/-- TRF_LAST_REQ.GROUP -/
def trfLastReq_GROUP : Fld := ⟨trfLastReq, 29, 24⟩

/-- TRF_LAST_REQ.OP -/
def trfLastReq_OP : Fld := ⟨trfLastReq, 19, 16⟩

/-- TRF_LAST_REQ.DETAIL -/
def trfLastReq_DETAIL : Fld := ⟨trfLastReq, 15, 8⟩

/-- TRF_LAST_REQ.RESULT -/
def trfLastReq_RESULT : Fld := ⟨trfLastReq, 7, 0⟩

/-- Address of TRF_GROUP_SEL, group select (11_tariff_calendar.md). -/
def trfGroupSel : Nat := 0x900010

/-- TRF_GROUP_SEL.CAL -/
def trfGroupSel_CAL : Fld := ⟨trfGroupSel, 8, 8⟩

/-- TRF_GROUP_SEL.GROUP -/
def trfGroupSel_GROUP : Fld := ⟨trfGroupSel, 5, 0⟩

/-- Address of TRF_GROUP_STAT, selected calendar status (11_tariff_calendar.md). -/
def trfGroupStat : Nat := 0x900014

/-- TRF_GROUP_STAT.PRESENT -/
def trfGroupStat_PRESENT : Fld := ⟨trfGroupStat, 31, 31⟩

/-- TRF_GROUP_STAT.PENDING -/
def trfGroupStat_PENDING : Fld := ⟨trfGroupStat, 30, 30⟩

/-- TRF_GROUP_STAT.BUILDING -/
def trfGroupStat_BUILDING : Fld := ⟨trfGroupStat, 29, 29⟩

/-- TRF_GROUP_STAT.INTEGRITY -/
def trfGroupStat_INTEGRITY : Fld := ⟨trfGroupStat, 28, 28⟩

/-- TRF_GROUP_STAT.DEFAULT -/
def trfGroupStat_DEFAULT : Fld := ⟨trfGroupStat, 27, 24⟩

/-- TRF_GROUP_STAT.CURRENT -/
def trfGroupStat_CURRENT : Fld := ⟨trfGroupStat, 23, 20⟩

/-- TRF_GROUP_STAT.DST -/
def trfGroupStat_DST : Fld := ⟨trfGroupStat, 19, 19⟩

/-- TRF_GROUP_STAT.VERSION_ID -/
def trfGroupStat_VERSION_ID : Fld := ⟨trfGroupStat, 15, 0⟩

/-- Address of TRF_GROUP_ACT_HI, activation instant, high part (11_tariff_calendar.md). -/
def trfGroupActHi : Nat := 0x900018

/-- TRF_GROUP_ACT_HI.SEC_HI -/
def trfGroupActHi_SEC_HI : Fld := ⟨trfGroupActHi, 15, 0⟩

/-- Address of TRF_GROUP_ACT_LO, activation instant, low word (11_tariff_calendar.md). -/
def trfGroupActLo : Nat := 0x90001C

/-- TRF_GROUP_ACT_LO.SEC_LO -/
def trfGroupActLo_SEC_LO : Fld := ⟨trfGroupActLo, 31, 0⟩

/-- Address of TRF_GROUP_HASH_k, calendar hash word k = 0 to 7 (11_tariff_calendar.md). -/
def trfGroupHash (k : Nat) : Nat := 0x900020 + 0x4 * k

/-- TRF_GROUP_HASH_k.HASH -/
def trfGroupHash_HASH (k : Nat) : Fld := ⟨trfGroupHash k, 31, 0⟩

/-- Address of TRF_QRY_SEL, rate query select (11_tariff_calendar.md). -/
def trfQrySel : Nat := 0x900040

/-- TRF_QRY_SEL.CAL -/
def trfQrySel_CAL : Fld := ⟨trfQrySel, 8, 8⟩

/-- TRF_QRY_SEL.GROUP -/
def trfQrySel_GROUP : Fld := ⟨trfQrySel, 5, 0⟩

/-- Address of TRF_QRY_Q, rate query instant (11_tariff_calendar.md). -/
def trfQryQ : Nat := 0x900044

/-- TRF_QRY_Q.Q -/
def trfQryQ_Q : Fld := ⟨trfQryQ, 31, 0⟩

/-- Address of TRF_QRY_RES, rate query result (11_tariff_calendar.md). -/
def trfQryRes : Nat := 0x900048

/-- TRF_QRY_RES.VALID -/
def trfQryRes_VALID : Fld := ⟨trfQryRes, 31, 31⟩

/-- TRF_QRY_RES.SPECIAL -/
def trfQryRes_SPECIAL : Fld := ⟨trfQryRes, 30, 30⟩

/-- TRF_QRY_RES.DST -/
def trfQryRes_DST : Fld := ⟨trfQryRes, 29, 29⟩

/-- TRF_QRY_RES.DAYPROF -/
def trfQryRes_DAYPROF : Fld := ⟨trfQryRes, 28, 24⟩

/-- TRF_QRY_RES.SEASON -/
def trfQryRes_SEASON : Fld := ⟨trfQryRes, 23, 20⟩

/-- TRF_QRY_RES.RATE -/
def trfQryRes_RATE : Fld := ⟨trfQryRes, 19, 16⟩

/-- TRF_QRY_RES.MINUTE -/
def trfQryRes_MINUTE : Fld := ⟨trfQryRes, 10, 0⟩

/-- Address of TRF_EVT_EN, tariff event enables (11_tariff_calendar.md). -/
def trfEvtEn : Nat := 0x900060

/-- TRF_EVT_EN.EN -/
def trfEvtEn_EN : Fld := ⟨trfEvtEn, 7, 0⟩

/-- Address of BIL_CFG, billing configuration (12_billing_registers.md). -/
def bilCfg : Nat := 0x901000

/-- BIL_CFG.RETAIN -/
def bilCfg_RETAIN : Fld := ⟨bilCfg, 31, 16⟩

/-- BIL_CFG.CLOSE_HOUR -/
def bilCfg_CLOSE_HOUR : Fld := ⟨bilCfg, 12, 8⟩

/-- BIL_CFG.CLOSE_DAY -/
def bilCfg_CLOSE_DAY : Fld := ⟨bilCfg, 4, 0⟩

/-- Address of BIL_STAT, billing status (12_billing_registers.md). -/
def bilStat : Nat := 0x901004

/-- BIL_STAT.HOLD -/
def bilStat_HOLD : Fld := ⟨bilStat, 31, 31⟩

/-- BIL_STAT.STAGED -/
def bilStat_STAGED : Fld := ⟨bilStat, 30, 30⟩

/-- BIL_STAT.OPEN -/
def bilStat_OPEN : Fld := ⟨bilStat, 14, 0⟩

/-- Address of BIL_Q, open quarter (12_billing_registers.md). -/
def bilQ : Nat := 0x901008

/-- BIL_Q.Q -/
def bilQ_Q : Fld := ⟨bilQ, 31, 0⟩

/-- Address of BIL_HW_HI, high-water, high part (12_billing_registers.md). -/
def bilHwHi : Nat := 0x90100C

/-- BIL_HW_HI.SEC_HI -/
def bilHwHi_SEC_HI : Fld := ⟨bilHwHi, 15, 0⟩

/-- Address of BIL_HW_LO, high-water, low word (12_billing_registers.md). -/
def bilHwLo : Nat := 0x901010

/-- BIL_HW_LO.SEC_LO -/
def bilHwLo_SEC_LO : Fld := ⟨bilHwLo, 31, 0⟩

/-- Address of BIL_SEL, billing register query (12_billing_registers.md). -/
def bilSel : Nat := 0x901020

/-- BIL_SEL.SITE -/
def bilSel_SITE : Fld := ⟨bilSel, 31, 31⟩

/-- BIL_SEL.RATE -/
def bilSel_RATE : Fld := ⟨bilSel, 28, 24⟩

/-- BIL_SEL.PERIOD -/
def bilSel_PERIOD : Fld := ⟨bilSel, 23, 20⟩

/-- BIL_SEL.SLOT -/
def bilSel_SLOT : Fld := ⟨bilSel, 19, 0⟩

/-- Address of BIL_IMP_HI, captured import register, high part (12_billing_registers.md). -/
def bilImpHi : Nat := 0x901024

/-- BIL_IMP_HI.VALID -/
def bilImpHi_VALID : Fld := ⟨bilImpHi, 31, 31⟩

/-- BIL_IMP_HI.HI -/
def bilImpHi_HI : Fld := ⟨bilImpHi, 15, 0⟩

/-- Address of BIL_IMP_LO, captured import register, low word (12_billing_registers.md). -/
def bilImpLo : Nat := 0x901028

/-- BIL_IMP_LO.LO -/
def bilImpLo_LO : Fld := ⟨bilImpLo, 31, 0⟩

/-- Address of BIL_EXP_HI, captured export register, high part (12_billing_registers.md). -/
def bilExpHi : Nat := 0x90102C

/-- BIL_EXP_HI.HI -/
def bilExpHi_HI : Fld := ⟨bilExpHi, 15, 0⟩

/-- Address of BIL_EXP_LO, captured export register, low word (12_billing_registers.md). -/
def bilExpLo : Nat := 0x901030

/-- BIL_EXP_LO.LO -/
def bilExpLo_LO : Fld := ⟨bilExpLo, 31, 0⟩

/-- Address of BIL_MD, captured maximum demand (12_billing_registers.md). -/
def bilMd : Nat := 0x901034

/-- BIL_MD.W -/
def bilMd_W : Fld := ⟨bilMd, 31, 0⟩

/-- Address of BIL_MD_Q, quarter of the maximum (12_billing_registers.md). -/
def bilMdQ : Nat := 0x901038

/-- BIL_MD_Q.Q -/
def bilMdQ_Q : Fld := ⟨bilMdQ, 31, 0⟩

/-- Address of BIL_LP_SEL, load-profile query (12_billing_registers.md). -/
def bilLpSel : Nat := 0x901040

/-- BIL_LP_SEL.VALID -/
def bilLpSel_VALID : Fld := ⟨bilLpSel, 31, 31⟩

/-- BIL_LP_SEL.SITE -/
def bilLpSel_SITE : Fld := ⟨bilLpSel, 30, 30⟩

/-- BIL_LP_SEL.SLOT -/
def bilLpSel_SLOT : Fld := ⟨bilLpSel, 19, 0⟩

/-- Address of BIL_LP_Q, load-profile quarter (12_billing_registers.md). -/
def bilLpQ : Nat := 0x901044

/-- BIL_LP_Q.Q -/
def bilLpQ_Q : Fld := ⟨bilLpQ, 31, 0⟩

/-- Address of BIL_LP_DATA_k, captured entry word k = 0 to 5 (12_billing_registers.md). -/
def bilLpData (k : Nat) : Nat := 0x901048 + 0x4 * k

/-- BIL_LP_DATA_k.DATA -/
def bilLpData_DATA (k : Nat) : Fld := ⟨bilLpData k, 31, 0⟩

/-- Address of BIL_EVT_EN, billing event enables (12_billing_registers.md). -/
def bilEvtEn : Nat := 0x901070

/-- BIL_EVT_EN.EN -/
def bilEvtEn_EN : Fld := ⟨bilEvtEn, 12, 0⟩

/-- Address of CMT_ALLOC, open a group (13_commit_groups.md). -/
def cmtAlloc : Nat := 0xA00000

/-- CMT_ALLOC.VALID -/
def cmtAlloc_VALID : Fld := ⟨cmtAlloc, 31, 31⟩

/-- CMT_ALLOC.RESULT -/
def cmtAlloc_RESULT : Fld := ⟨cmtAlloc, 15, 8⟩

/-- CMT_ALLOC.GROUP -/
def cmtAlloc_GROUP : Fld := ⟨cmtAlloc, 5, 0⟩

/-- Address of CMT_CTRL, seal or abort (13_commit_groups.md). -/
def cmtCtrl : Nat := 0xA00004

/-- CMT_CTRL.OP -/
def cmtCtrl_OP : Fld := ⟨cmtCtrl, 31, 30⟩

/-- CMT_CTRL.GROUP -/
def cmtCtrl_GROUP : Fld := ⟨cmtCtrl, 5, 0⟩

/-- Address of CMT_STAT, group occupancy (13_commit_groups.md). -/
def cmtStat : Nat := 0xA00008

/-- CMT_STAT.FREE_PLACES -/
def cmtStat_FREE_PLACES : Fld := ⟨cmtStat, 25, 13⟩

/-- CMT_STAT.VISIBLE -/
def cmtStat_VISIBLE : Fld := ⟨cmtStat, 12, 7⟩

/-- CMT_STAT.HELD -/
def cmtStat_HELD : Fld := ⟨cmtStat, 6, 0⟩

/-- Address of CMT_GSEL, group select (13_commit_groups.md). -/
def cmtGsel : Nat := 0xA00010

/-- CMT_GSEL.GROUP -/
def cmtGsel_GROUP : Fld := ⟨cmtGsel, 5, 0⟩

/-- Address of CMT_GSTAT, selected group status (13_commit_groups.md). -/
def cmtGstat : Nat := 0xA00014

/-- CMT_GSTAT.STATE -/
def cmtGstat_STATE : Fld := ⟨cmtGstat, 31, 28⟩

/-- CMT_GSTAT.POWER -/
def cmtGstat_POWER : Fld := ⟨cmtGstat, 27, 27⟩

/-- CMT_GSTAT.ISSUER -/
def cmtGstat_ISSUER : Fld := ⟨cmtGstat, 26, 21⟩

/-- CMT_GSTAT.ACTIONS -/
def cmtGstat_ACTIONS : Fld := ⟨cmtGstat, 8, 0⟩

/-- Address of CMT_JSEQ_HI, last durable JSEQ, high word (13_commit_groups.md). -/
def cmtJseqHi : Nat := 0xA00018

/-- CMT_JSEQ_HI.HI -/
def cmtJseqHi_HI : Fld := ⟨cmtJseqHi, 31, 0⟩

/-- Address of CMT_JSEQ_LO, last durable JSEQ, low word (13_commit_groups.md). -/
def cmtJseqLo : Nat := 0xA0001C

/-- CMT_JSEQ_LO.LO -/
def cmtJseqLo_LO : Fld := ⟨cmtJseqLo, 31, 0⟩

/-- Address of CMT_ABORTS, power outcomes since reset (13_commit_groups.md). -/
def cmtAborts : Nat := 0xA00020

/-- CMT_ABORTS.POWER -/
def cmtAborts_POWER : Fld := ⟨cmtAborts, 31, 16⟩

/-- CMT_ABORTS.REPLAYED -/
def cmtAborts_REPLAYED : Fld := ⟨cmtAborts, 15, 0⟩

/-- Address of CMT_EVT_EN, event enables (13_commit_groups.md). -/
def cmtEvtEn : Nat := 0xA00030

/-- CMT_EVT_EN.EN -/
def cmtEvtEn_EN : Fld := ⟨cmtEvtEn, 9, 0⟩

/-- Address of CMT_CNT_SEL, counter select (13_commit_groups.md). -/
def cmtCntSel : Nat := 0xA00040

/-- CMT_CNT_SEL.COUNTER -/
def cmtCntSel_COUNTER : Fld := ⟨cmtCntSel, 9, 0⟩

/-- Address of CMT_CNT_HI, counter value, high word (13_commit_groups.md). -/
def cmtCntHi : Nat := 0xA00044

/-- CMT_CNT_HI.HI -/
def cmtCntHi_HI : Fld := ⟨cmtCntHi, 31, 0⟩

/-- Address of CMT_CNT_LO, counter value, low word (13_commit_groups.md). -/
def cmtCntLo : Nat := 0xA00048

/-- CMT_CNT_LO.LO -/
def cmtCntLo_LO : Fld := ⟨cmtCntLo, 31, 0⟩

/-- Address of CMT_ACT_w_k, staging descriptor word k = 0 to 7 of window w = 0 to 9 (13_commit_groups.md). -/
def cmtAct (w : Nat) (k : Nat) : Nat := 0xA01000 + 0x40 * w + 0x4 * k

/-- CMT_ACT_w_k.DATA -/
def cmtAct_DATA (w : Nat) (k : Nat) : Fld := ⟨cmtAct w k, 31, 0⟩

/-- Address of CMT_PUSH_w, stage the descriptor of window w (13_commit_groups.md). -/
def cmtPush (w : Nat) : Nat := 0xA01020 + 0x40 * w

/-- CMT_PUSH_w.GROUP -/
def cmtPush_GROUP (w : Nat) : Fld := ⟨cmtPush w, 5, 0⟩

/-- Address of CMT_RES_w, result of window w (13_commit_groups.md). -/
def cmtRes (w : Nat) : Nat := 0xA01024 + 0x40 * w

/-- CMT_RES_w.RESULT -/
def cmtRes_RESULT (w : Nat) : Fld := ⟨cmtRes w, 7, 0⟩

/-- Address of PAN_CFG, panel configuration (14_prepayment_panel.md). -/
def panCfg : Nat := 0xB00000

/-- PAN_CFG.LED_CUR -/
def panCfg_LED_CUR : Fld := ⟨panCfg, 29, 24⟩

/-- PAN_CFG.TEMP_SRC -/
def panCfg_TEMP_SRC : Fld := ⟨panCfg, 8, 8⟩

/-- PAN_CFG.BIAS -/
def panCfg_BIAS : Fld := ⟨panCfg, 1, 1⟩

/-- PAN_CFG.MODE -/
def panCfg_MODE : Fld := ⟨panCfg, 0, 0⟩

/-- Address of PAN_STAT, panel status (14_prepayment_panel.md). -/
def panStat : Nat := 0xB00004

/-- PAN_STAT.LEGAL_READY -/
def panStat_LEGAL_READY : Fld := ⟨panStat, 31, 31⟩

/-- PAN_STAT.DRIVE -/
def panStat_DRIVE : Fld := ⟨panStat, 30, 30⟩

/-- PAN_STAT.BAND -/
def panStat_BAND : Fld := ⟨panStat, 25, 24⟩

/-- PAN_STAT.TEMP -/
def panStat_TEMP : Fld := ⟨panStat, 23, 16⟩

/-- PAN_STAT.FRAMES -/
def panStat_FRAMES : Fld := ⟨panStat, 15, 0⟩

/-- Address of PAN_TBAND, band thresholds (14_prepayment_panel.md). -/
def panTband : Nat := 0xB00008

/-- PAN_TBAND.TEMP -/
def panTband_TEMP : Fld := ⟨panTband, 31, 24⟩

/-- PAN_TBAND.T3 -/
def panTband_T3 : Fld := ⟨panTband, 23, 16⟩

/-- PAN_TBAND.T2 -/
def panTband_T2 : Fld := ⟨panTband, 15, 8⟩

/-- PAN_TBAND.T1 -/
def panTband_T1 : Fld := ⟨panTband, 7, 0⟩

/-- Address of PAN_BAND_b, band settings for b = 0 to 3 (14_prepayment_panel.md). -/
def panBand (b : Nat) : Nat := 0xB00010 + 0x4 * b

/-- PAN_BAND_b.VLCD -/
def panBand_VLCD (b : Nat) : Fld := ⟨panBand b, 12, 8⟩

/-- PAN_BAND_b.OD_FRAMES -/
def panBand_OD_FRAMES (b : Nat) : Fld := ⟨panBand b, 3, 0⟩

/-- Address of PAN_FB_ADDR, frame memory address (14_prepayment_panel.md). -/
def panFbAddr : Nat := 0xB00040

/-- PAN_FB_ADDR.HOLD -/
def panFbAddr_HOLD : Fld := ⟨panFbAddr, 31, 31⟩

/-- PAN_FB_ADDR.WORD -/
def panFbAddr_WORD : Fld := ⟨panFbAddr, 6, 0⟩

/-- Address of PAN_FB_DATA, frame memory data (14_prepayment_panel.md). -/
def panFbData : Nat := 0xB00044

/-- PAN_FB_DATA.PIXELS -/
def panFbData_PIXELS : Fld := ⟨panFbData, 31, 0⟩

/-- Address of PAN_EVT_EN, panel event enables (14_prepayment_panel.md). -/
def panEvtEn : Nat := 0xB00060

/-- PAN_EVT_EN.EN -/
def panEvtEn_EN : Fld := ⟨panEvtEn, 10, 0⟩

/-- Address of PAN_OD_b_p_h, overdrive table of band b = 0 to 3, previous level p = 0 to 15, half h = 0 to 1 (14_prepayment_panel.md). -/
def panOd (b : Nat) (p : Nat) (h : Nat) : Nat := 0xB00100 + 0x80 * b + 0x8 * p + 0x4 * h

/-- PAN_OD_b_p_h.LEVELS -/
def panOd_LEVELS (b : Nat) (p : Nat) (h : Nat) : Fld := ⟨panOd b p h, 31, 0⟩

/-- Address of KP_CFG, keypad configuration (14_prepayment_panel.md). -/
def kpCfg : Nat := 0xB01000

/-- KP_CFG.FILTER -/
def kpCfg_FILTER : Fld := ⟨kpCfg, 29, 12⟩

/-- KP_CFG.DEB -/
def kpCfg_DEB : Fld := ⟨kpCfg, 7, 4⟩

/-- KP_CFG.EN -/
def kpCfg_EN : Fld := ⟨kpCfg, 0, 0⟩

/-- Address of KP_STAT, keys down (14_prepayment_panel.md). -/
def kpStat : Nat := 0xB01004

/-- KP_STAT.DOWN -/
def kpStat_DOWN : Fld := ⟨kpStat, 15, 0⟩

/-- Address of PAN_TOK_HIGH, highest accepted serial (14_prepayment_panel.md). -/
def panTokHigh : Nat := 0xB02000

/-- PAN_TOK_HIGH.SERIAL -/
def panTokHigh_SERIAL : Fld := ⟨panTokHigh, 25, 0⟩

/-- Address of PAN_TOK_LAST, last token result (14_prepayment_panel.md). -/
def panTokLast : Nat := 0xB02004

/-- PAN_TOK_LAST.FAILS -/
def panTokLast_FAILS : Fld := ⟨panTokLast, 31, 24⟩

/-- PAN_TOK_LAST.ACCOUNT -/
def panTokLast_ACCOUNT : Fld := ⟨panTokLast, 23, 8⟩

/-- PAN_TOK_LAST.RESULT -/
def panTokLast_RESULT : Fld := ⟨panTokLast, 7, 0⟩

/-- Address of PAN_TOK_LOCK, lockout (14_prepayment_panel.md). -/
def panTokLock : Nat := 0xB02008

/-- PAN_TOK_LOCK.LOCKED -/
def panTokLock_LOCKED : Fld := ⟨panTokLock, 31, 31⟩

/-- PAN_TOK_LOCK.REMAIN -/
def panTokLock_REMAIN : Fld := ⟨panTokLock, 16, 0⟩

/-- Address of PAN_ACCT_SEL, account query (14_prepayment_panel.md). -/
def panAcctSel : Nat := 0xB02010

/-- PAN_ACCT_SEL.ACCOUNT -/
def panAcctSel_ACCOUNT : Fld := ⟨panAcctSel, 15, 0⟩

/-- Address of PAN_ACCT_STAT, account state (14_prepayment_panel.md). -/
def panAcctStat : Nat := 0xB02014

/-- PAN_ACCT_STAT.STATE -/
def panAcctStat_STATE : Fld := ⟨panAcctStat, 9, 8⟩

/-- PAN_ACCT_STAT.LOW -/
def panAcctStat_LOW : Fld := ⟨panAcctStat, 0, 0⟩

/-- Address of PAN_ACCT_BAL_HI, balance, high word (14_prepayment_panel.md). -/
def panAcctBalHi : Nat := 0xB02018

/-- PAN_ACCT_BAL_HI.HI -/
def panAcctBalHi_HI : Fld := ⟨panAcctBalHi, 31, 0⟩

/-- Address of PAN_ACCT_BAL_LO, balance, low word (14_prepayment_panel.md). -/
def panAcctBalLo : Nat := 0xB0201C

/-- PAN_ACCT_BAL_LO.LO -/
def panAcctBalLo_LO : Fld := ⟨panAcctBalLo, 31, 0⟩

/-- Address of WHF_Q_CFG_q, queue configuration for q = 0 to 255 (15_wharf.md). -/
def whfQCfg (q : Nat) : Nat := 0xC00000 + 0x20 * q

/-- WHF_Q_CFG_q.FLAG -/
def whfQCfg_FLAG (q : Nat) : Fld := ⟨whfQCfg q, 31, 31⟩

/-- WHF_Q_CFG_q.RETAIN -/
def whfQCfg_RETAIN (q : Nat) : Fld := ⟨whfQCfg q, 30, 30⟩

/-- WHF_Q_CFG_q.LANE -/
def whfQCfg_LANE (q : Nat) : Fld := ⟨whfQCfg q, 29, 29⟩

/-- WHF_Q_CFG_q.LAUNCH -/
def whfQCfg_LAUNCH (q : Nat) : Fld := ⟨whfQCfg q, 28, 28⟩

/-- WHF_Q_CFG_q.EVT -/
def whfQCfg_EVT (q : Nat) : Fld := ⟨whfQCfg q, 27, 22⟩

/-- WHF_Q_CFG_q.BASE -/
def whfQCfg_BASE (q : Nat) : Fld := ⟨whfQCfg q, 21, 11⟩

/-- WHF_Q_CFG_q.SIZE -/
def whfQCfg_SIZE (q : Nat) : Fld := ⟨whfQCfg q, 10, 0⟩

/-- Address of WHF_Q_TMO_q, timeout and condition enables (15_wharf.md). -/
def whfQTmo (q : Nat) : Nat := 0xC00004 + 0x20 * q

/-- WHF_Q_TMO_q.EN -/
def whfQTmo_EN (q : Nat) : Fld := ⟨whfQTmo q, 28, 24⟩

/-- WHF_Q_TMO_q.TIMEOUT -/
def whfQTmo_TIMEOUT (q : Nat) : Fld := ⟨whfQTmo q, 23, 0⟩

/-- Address of WHF_Q_STAT_q, queue status (15_wharf.md). -/
def whfQStat (q : Nat) : Nat := 0xC00008 + 0x20 * q

/-- WHF_Q_STAT_q.FULL -/
def whfQStat_FULL (q : Nat) : Fld := ⟨whfQStat q, 31, 31⟩

/-- WHF_Q_STAT_q.IDLE -/
def whfQStat_IDLE (q : Nat) : Fld := ⟨whfQStat q, 30, 30⟩

/-- WHF_Q_STAT_q.OVERRUN -/
def whfQStat_OVERRUN (q : Nat) : Fld := ⟨whfQStat q, 29, 29⟩

/-- WHF_Q_STAT_q.POISON -/
def whfQStat_POISON (q : Nat) : Fld := ⟨whfQStat q, 28, 28⟩

/-- WHF_Q_STAT_q.CREDIT -/
def whfQStat_CREDIT (q : Nat) : Fld := ⟨whfQStat q, 27, 27⟩

/-- WHF_Q_STAT_q.HELD -/
def whfQStat_HELD (q : Nat) : Fld := ⟨whfQStat q, 26, 26⟩

/-- WHF_Q_STAT_q.WAIT -/
def whfQStat_WAIT (q : Nat) : Fld := ⟨whfQStat q, 25, 25⟩

/-- WHF_Q_STAT_q.ITEMS -/
def whfQStat_ITEMS (q : Nat) : Fld := ⟨whfQStat q, 17, 0⟩

/-- Address of WHF_Q_FREE_q, free words (15_wharf.md). -/
def whfQFree (q : Nat) : Nat := 0xC0000C + 0x20 * q

/-- WHF_Q_FREE_q.FREE -/
def whfQFree_FREE (q : Nat) : Fld := ⟨whfQFree q, 19, 0⟩

/-- Address of WHF_Q_CTRL_q, retained-item operation (15_wharf.md). -/
def whfQCtrl (q : Nat) : Nat := 0xC00010 + 0x20 * q

/-- WHF_Q_CTRL_q.OP -/
def whfQCtrl_OP (q : Nat) : Fld := ⟨whfQCtrl q, 31, 30⟩

/-- WHF_Q_CTRL_q.ALL -/
def whfQCtrl_ALL (q : Nat) : Fld := ⟨whfQCtrl q, 24, 24⟩

/-- WHF_Q_CTRL_q.ISEQ -/
def whfQCtrl_ISEQ (q : Nat) : Fld := ⟨whfQCtrl q, 23, 0⟩

/-- Address of WHF_Q_HEAD_q, head pointer (15_wharf.md). -/
def whfQHead (q : Nat) : Nat := 0xC00014 + 0x20 * q

/-- WHF_Q_HEAD_q.ISEQ -/
def whfQHead_ISEQ (q : Nat) : Fld := ⟨whfQHead q, 31, 0⟩

/-- Address of WHF_Q_MARK_q, mark pointer (15_wharf.md). -/
def whfQMark (q : Nat) : Nat := 0xC00018 + 0x20 * q

/-- WHF_Q_MARK_q.ISEQ -/
def whfQMark_ISEQ (q : Nat) : Fld := ⟨whfQMark q, 31, 0⟩

/-- Address of WHF_Q_CNT_q, queue counters (15_wharf.md). -/
def whfQCnt (q : Nat) : Nat := 0xC0001C + 0x20 * q

/-- WHF_Q_CNT_q.CLR -/
def whfQCnt_CLR (q : Nat) : Fld := ⟨whfQCnt q, 31, 31⟩

/-- WHF_Q_CNT_q.OVERRUN -/
def whfQCnt_OVERRUN (q : Nat) : Fld := ⟨whfQCnt q, 30, 20⟩

/-- WHF_Q_CNT_q.LANE_FULL -/
def whfQCnt_LANE_FULL (q : Nat) : Fld := ⟨whfQCnt q, 19, 16⟩

/-- WHF_Q_CNT_q.POISONED -/
def whfQCnt_POISONED (q : Nat) : Fld := ⟨whfQCnt q, 15, 0⟩

/-- Address of WHF_PEND_k, pending queues k = 0 to 7 (15_wharf.md). -/
def whfPend (k : Nat) : Nat := 0xC04000 + 0x4 * k

/-- WHF_PEND_k.PEND -/
def whfPend_PEND (k : Nat) : Fld := ⟨whfPend k, 31, 0⟩

/-- Address of WHF_EVT_EN0, Wharf event enables, low part (15_wharf.md). -/
def whfEvtEn0 : Nat := 0xC04020

/-- WHF_EVT_EN0.EN -/
def whfEvtEn0_EN : Fld := ⟨whfEvtEn0, 31, 0⟩

/-- Address of WHF_EVT_EN1, Wharf event enables, high part (15_wharf.md). -/
def whfEvtEn1 : Nat := 0xC04024

/-- WHF_EVT_EN1.EN -/
def whfEvtEn1_EN : Fld := ⟨whfEvtEn1, 31, 0⟩

/-- Address of FRY_STAT, scheduler status (16_ferryman.md). -/
def fryStat : Nat := 0xD00000

/-- FRY_STAT.READY -/
def fryStat_READY : Fld := ⟨fryStat, 26, 16⟩

/-- FRY_STAT.LIVE -/
def fryStat_LIVE : Fld := ⟨fryStat, 10, 0⟩

/-- Address of FRY_CNT, scheduler counters (16_ferryman.md). -/
def fryCnt : Nat := 0xD00004

/-- FRY_CNT.CLR -/
def fryCnt_CLR : Fld := ⟨fryCnt, 31, 31⟩

/-- FRY_CNT.FLOWWAIT -/
def fryCnt_FLOWWAIT : Fld := ⟨fryCnt, 30, 16⟩

/-- FRY_CNT.COALESCED -/
def fryCnt_COALESCED : Fld := ⟨fryCnt, 15, 0⟩

/-- Address of FRY_CORE_n, core state for n = 0 to 7 (16_ferryman.md). -/
def fryCore (n : Nat) : Nat := 0xD00010 + 0x4 * n

/-- FRY_CORE_n.PARKED -/
def fryCore_PARKED (n : Nat) : Fld := ⟨fryCore n, 31, 31⟩

/-- FRY_CORE_n.RUN_VALID -/
def fryCore_RUN_VALID (n : Nat) : Fld := ⟨fryCore n, 30, 30⟩

/-- FRY_CORE_n.SLOT_VALID -/
def fryCore_SLOT_VALID (n : Nat) : Fld := ⟨fryCore n, 29, 29⟩

/-- FRY_CORE_n.C0_HOME -/
def fryCore_C0_HOME (n : Nat) : Fld := ⟨fryCore n, 28, 28⟩

/-- FRY_CORE_n.SLOT -/
def fryCore_SLOT (n : Nat) : Fld := ⟨fryCore n, 25, 16⟩

/-- FRY_CORE_n.RUNNING -/
def fryCore_RUNNING (n : Nat) : Fld := ⟨fryCore n, 9, 0⟩

/-- Address of FRY_NEW_PC, entry address of a new thread (16_ferryman.md). -/
def fryNewPc : Nat := 0xD00040

/-- FRY_NEW_PC.PC -/
def fryNewPc_PC : Fld := ⟨fryNewPc, 31, 2⟩

/-- Address of FRY_NEW_ARG, argument of a new thread (16_ferryman.md). -/
def fryNewArg : Nat := 0xD00044

/-- FRY_NEW_ARG.ARG -/
def fryNewArg_ARG : Fld := ⟨fryNewArg, 31, 0⟩

/-- Address of FRY_NEW_CFG, control of a new thread (16_ferryman.md). -/
def fryNewCfg : Nat := 0xD00048

/-- FRY_NEW_CFG.AFFINITY -/
def fryNewCfg_AFFINITY : Fld := ⟨fryNewCfg, 31, 24⟩

/-- FRY_NEW_CFG.PRIO -/
def fryNewCfg_PRIO : Fld := ⟨fryNewCfg, 21, 16⟩

/-- FRY_NEW_CFG.POOL -/
def fryNewCfg_POOL : Fld := ⟨fryNewCfg, 13, 8⟩

/-- FRY_NEW_CFG.POOL_EN -/
def fryNewCfg_POOL_EN : Fld := ⟨fryNewCfg, 7, 7⟩

/-- Address of FRY_CREATE, create a thread (16_ferryman.md). -/
def fryCreate : Nat := 0xD0004C

/-- FRY_CREATE.VALID -/
def fryCreate_VALID : Fld := ⟨fryCreate, 31, 31⟩

/-- FRY_CREATE.RESULT -/
def fryCreate_RESULT : Fld := ⟨fryCreate, 23, 16⟩

/-- FRY_CREATE.THREAD -/
def fryCreate_THREAD : Fld := ⟨fryCreate, 9, 0⟩

/-- Address of FRY_THR_SEL, thread select (16_ferryman.md). -/
def fryThrSel : Nat := 0xD00050

/-- FRY_THR_SEL.THREAD -/
def fryThrSel_THREAD : Fld := ⟨fryThrSel, 9, 0⟩

/-- Address of FRY_THR_STAT, selected thread status (16_ferryman.md). -/
def fryThrStat : Nat := 0xD00054

/-- FRY_THR_STAT.STATE -/
def fryThrStat_STATE : Fld := ⟨fryThrStat, 31, 29⟩

/-- FRY_THR_STAT.HOLDS -/
def fryThrStat_HOLDS : Fld := ⟨fryThrStat, 28, 28⟩

/-- FRY_THR_STAT.PRIO -/
def fryThrStat_PRIO : Fld := ⟨fryThrStat, 27, 22⟩

/-- FRY_THR_STAT.AFFINITY -/
def fryThrStat_AFFINITY : Fld := ⟨fryThrStat, 21, 14⟩

/-- FRY_THR_STAT.FLOW -/
def fryThrStat_FLOW : Fld := ⟨fryThrStat, 11, 0⟩

/-- Address of FRY_C0_CFG, class-0 threads (16_ferryman.md). -/
def fryC0Cfg : Nat := 0xD00060

/-- FRY_C0_CFG.EN1 -/
def fryC0Cfg_EN1 : Fld := ⟨fryC0Cfg, 31, 31⟩

/-- FRY_C0_CFG.CORE1 -/
def fryC0Cfg_CORE1 : Fld := ⟨fryC0Cfg, 30, 28⟩

/-- FRY_C0_CFG.THREAD1 -/
def fryC0Cfg_THREAD1 : Fld := ⟨fryC0Cfg, 25, 16⟩

/-- FRY_C0_CFG.EN0 -/
def fryC0Cfg_EN0 : Fld := ⟨fryC0Cfg, 15, 15⟩

/-- FRY_C0_CFG.CORE0 -/
def fryC0Cfg_CORE0 : Fld := ⟨fryC0Cfg, 14, 12⟩

/-- FRY_C0_CFG.THREAD0 -/
def fryC0Cfg_THREAD0 : Fld := ⟨fryC0Cfg, 9, 0⟩

/-- Address of FRY_C0_STAT_i, class-0 dispatch times for i = 0 to 1 (16_ferryman.md). -/
def fryC0Stat (i : Nat) : Nat := 0xD00064 + 0x4 * i

/-- FRY_C0_STAT_i.MAX -/
def fryC0Stat_MAX (i : Nat) : Fld := ⟨fryC0Stat i, 31, 16⟩

/-- FRY_C0_STAT_i.LAST -/
def fryC0Stat_LAST (i : Nat) : Fld := ⟨fryC0Stat i, 15, 0⟩

/-- Address of FRY_EVT_EN, event enables (16_ferryman.md). -/
def fryEvtEn : Nat := 0xD00070

/-- FRY_EVT_EN.EN -/
def fryEvtEn_EN : Fld := ⟨fryEvtEn, 4, 0⟩

/-- Address of FRY_SELF_WAIT, wait of the calling thread (16_ferryman.md). -/
def frySelfWait : Nat := 0xD00100

/-- FRY_SELF_WAIT.B_EN -/
def frySelfWait_B_EN : Fld := ⟨frySelfWait, 31, 31⟩

/-- FRY_SELF_WAIT.EVENT_B -/
def frySelfWait_EVENT_B : Fld := ⟨frySelfWait, 24, 16⟩

/-- FRY_SELF_WAIT.EVENT_A -/
def frySelfWait_EVENT_A : Fld := ⟨frySelfWait, 8, 0⟩

/-- Address of FRY_SELF_TAKE, work take of the calling thread (16_ferryman.md). -/
def frySelfTake : Nat := 0xD00104

/-- FRY_SELF_TAKE.GRANTED -/
def frySelfTake_GRANTED : Fld := ⟨frySelfTake, 31, 31⟩

/-- FRY_SELF_TAKE.FLOW -/
def frySelfTake_FLOW : Fld := ⟨frySelfTake, 19, 8⟩

/-- FRY_SELF_TAKE.QUEUE -/
def frySelfTake_QUEUE : Fld := ⟨frySelfTake, 7, 0⟩

/-- Address of FRY_SELF_CTRL, control of the calling thread (16_ferryman.md). -/
def frySelfCtrl : Nat := 0xD00108

/-- FRY_SELF_CTRL.OP -/
def frySelfCtrl_OP : Fld := ⟨frySelfCtrl, 31, 29⟩

/-- FRY_SELF_CTRL.PRIO -/
def frySelfCtrl_PRIO : Fld := ⟨frySelfCtrl, 5, 0⟩

/-- Address of OAR_CTRL_n, control of Oarsman n = 0 to 15 (17_oarsman.md). -/
def oarCtrl (n : Nat) : Nat := 0xE00000 + 0x40 * n

/-- OAR_CTRL_n.RESTART -/
def oarCtrl_RESTART (n : Nat) : Fld := ⟨oarCtrl n, 31, 31⟩

/-- OAR_CTRL_n.HALT -/
def oarCtrl_HALT (n : Nat) : Fld := ⟨oarCtrl n, 30, 30⟩

/-- Address of OAR_STAT_n, status (17_oarsman.md). -/
def oarStat (n : Nat) : Nat := 0xE00004 + 0x40 * n

/-- OAR_STAT_n.STATE -/
def oarStat_STATE (n : Nat) : Fld := ⟨oarStat n, 31, 29⟩

/-- OAR_STAT_n.JOBS -/
def oarStat_JOBS (n : Nat) : Fld := ⟨oarStat n, 23, 20⟩

/-- OAR_STAT_n.PC -/
def oarStat_PC (n : Nat) : Fld := ⟨oarStat n, 11, 0⟩

/-- Address of OAR_TRAP_n, last trap (17_oarsman.md). -/
def oarTrap (n : Nat) : Nat := 0xE00008 + 0x40 * n

/-- OAR_TRAP_n.CAUSE -/
def oarTrap_CAUSE (n : Nat) : Fld := ⟨oarTrap n, 31, 24⟩

/-- OAR_TRAP_n.DETAIL -/
def oarTrap_DETAIL (n : Nat) : Fld := ⟨oarTrap n, 23, 16⟩

/-- OAR_TRAP_n.PC -/
def oarTrap_PC (n : Nat) : Fld := ⟨oarTrap n, 11, 0⟩

/-- Address of OAR_COUNT_n, trap and restart counts (17_oarsman.md). -/
def oarCount (n : Nat) : Nat := 0xE0000C + 0x40 * n

/-- OAR_COUNT_n.TRAPS -/
def oarCount_TRAPS (n : Nat) : Fld := ⟨oarCount n, 31, 16⟩

/-- OAR_COUNT_n.RESTARTS -/
def oarCount_RESTARTS (n : Nat) : Fld := ⟨oarCount n, 15, 0⟩

/-- Address of OAR_PROG_n, loaded program (17_oarsman.md). -/
def oarProg (n : Nat) : Nat := 0xE00010 + 0x40 * n

/-- OAR_PROG_n.SEALED -/
def oarProg_SEALED (n : Nat) : Fld := ⟨oarProg n, 31, 31⟩

/-- OAR_PROG_n.DATA -/
def oarProg_DATA (n : Nat) : Fld := ⟨oarProg n, 28, 16⟩

/-- OAR_PROG_n.CODE -/
def oarProg_CODE (n : Nat) : Fld := ⟨oarProg n, 12, 0⟩

/-- Address of OAR_BUSY_n, busy cycles (17_oarsman.md). -/
def oarBusy (n : Nat) : Nat := 0xE00014 + 0x40 * n

/-- OAR_BUSY_n.CYCLES -/
def oarBusy_CYCLES (n : Nat) : Fld := ⟨oarBusy n, 31, 0⟩

/-- Address of OAR_EVT_EN, Oarsman event enables (17_oarsman.md). -/
def oarEvtEn : Nat := 0xE01000

/-- OAR_EVT_EN.EN -/
def oarEvtEn_EN : Fld := ⟨oarEvtEn, 31, 0⟩

/-- Address of HLD_CFG, Hold configuration (18_hold.md). -/
def hldCfg : Nat := 0xF00000

/-- HLD_CFG.WL_SPREAD -/
def hldCfg_WL_SPREAD : Fld := ⟨hldCfg, 31, 20⟩

/-- HLD_CFG.LIFE_WARN -/
def hldCfg_LIFE_WARN : Fld := ⟨hldCfg, 15, 8⟩

/-- HLD_CFG.REGIONS -/
def hldCfg_REGIONS : Fld := ⟨hldCfg, 4, 0⟩

/-- Address of HLD_STAT, Hold status (18_hold.md). -/
def hldStat : Nat := 0xF00004

/-- HLD_STAT.MOUNTED -/
def hldStat_MOUNTED : Fld := ⟨hldStat, 31, 31⟩

/-- HLD_STAT.FLUSHING -/
def hldStat_FLUSHING : Fld := ⟨hldStat, 30, 30⟩

/-- HLD_STAT.GEOMETRY -/
def hldStat_GEOMETRY : Fld := ⟨hldStat, 29, 29⟩

/-- HLD_STAT.MERGES -/
def hldStat_MERGES : Fld := ⟨hldStat, 28, 27⟩

/-- HLD_STAT.MOVE -/
def hldStat_MOVE : Fld := ⟨hldStat, 26, 26⟩

/-- HLD_STAT.FLUSH_AREA -/
def hldStat_FLUSH_AREA : Fld := ⟨hldStat, 23, 17⟩

/-- HLD_STAT.BACKLOG -/
def hldStat_BACKLOG : Fld := ⟨hldStat, 16, 0⟩

/-- Address of HLD_LIFE, life percentage (18_hold.md). -/
def hldLife : Nat := 0xF00008

/-- HLD_LIFE.LIFE -/
def hldLife_LIFE : Fld := ⟨hldLife, 31, 24⟩

/-- HLD_LIFE.WEAR -/
def hldLife_WEAR : Fld := ⟨hldLife, 23, 16⟩

/-- HLD_LIFE.SPARE -/
def hldLife_SPARE : Fld := ⟨hldLife, 15, 8⟩

/-- Address of HLD_POOL_p, wear of pool p = 0 (TLC) to 1 (SLC) (18_hold.md). -/
def hldPool (p : Nat) : Nat := 0xF00010 + 0x4 * p

/-- HLD_POOL_p.MEAN -/
def hldPool_MEAN (p : Nat) : Fld := ⟨hldPool p, 31, 16⟩

/-- HLD_POOL_p.SPREAD -/
def hldPool_SPREAD (p : Nat) : Fld := ⟨hldPool p, 15, 0⟩

/-- Address of HLD_SPARE_p, spares of pool p (18_hold.md). -/
def hldSpare (p : Nat) : Nat := 0xF00018 + 0x4 * p

/-- HLD_SPARE_p.SPARES -/
def hldSpare_SPARES (p : Nat) : Fld := ⟨hldSpare p, 31, 16⟩

/-- HLD_SPARE_p.RETIRED -/
def hldSpare_RETIRED (p : Nat) : Fld := ⟨hldSpare p, 15, 0⟩

/-- Address of HLD_MERGE, merge record (18_hold.md). -/
def hldMerge : Nat := 0xF00020

/-- HLD_MERGE.LAST_MS -/
def hldMerge_LAST_MS : Fld := ⟨hldMerge, 31, 16⟩

/-- HLD_MERGE.COUNT -/
def hldMerge_COUNT : Fld := ⟨hldMerge, 15, 0⟩

/-- Address of HLD_ECC, read errors (18_hold.md). -/
def hldEcc : Nat := 0xF00024

/-- HLD_ECC.CLR -/
def hldEcc_CLR : Fld := ⟨hldEcc, 31, 31⟩

/-- HLD_ECC.UNCORR -/
def hldEcc_UNCORR : Fld := ⟨hldEcc, 30, 16⟩

/-- HLD_ECC.REFRESH -/
def hldEcc_REFRESH : Fld := ⟨hldEcc, 15, 0⟩

/-- Address of HLD_FLUSH, last flush (18_hold.md). -/
def hldFlush : Nat := 0xF00028

/-- HLD_FLUSH.TIME -/
def hldFlush_TIME : Fld := ⟨hldFlush, 31, 16⟩

/-- HLD_FLUSH.SIZE -/
def hldFlush_SIZE : Fld := ⟨hldFlush, 15, 0⟩

/-- Address of HLD_CMD, Hold operation (18_hold.md). -/
def hldCmd : Nat := 0xF00040

/-- HLD_CMD.OP -/
def hldCmd_OP : Fld := ⟨hldCmd, 31, 28⟩

/-- Address of HLD_CMD_ADDR_HI, operation address, high part (18_hold.md). -/
def hldCmdAddrHi : Nat := 0xF00044

/-- HLD_CMD_ADDR_HI.REGION -/
def hldCmdAddrHi_REGION : Fld := ⟨hldCmdAddrHi, 31, 24⟩

/-- HLD_CMD_ADDR_HI.OFS_HI -/
def hldCmdAddrHi_OFS_HI : Fld := ⟨hldCmdAddrHi, 23, 0⟩

/-- Address of HLD_CMD_ADDR_LO, operation address, low word (18_hold.md). -/
def hldCmdAddrLo : Nat := 0xF00048

/-- HLD_CMD_ADDR_LO.OFS_LO -/
def hldCmdAddrLo_OFS_LO : Fld := ⟨hldCmdAddrLo, 31, 0⟩

/-- Address of HLD_CMD_LEN, operation length (18_hold.md). -/
def hldCmdLen : Nat := 0xF0004C

/-- HLD_CMD_LEN.LEN -/
def hldCmdLen_LEN : Fld := ⟨hldCmdLen, 31, 0⟩

/-- Address of HLD_CMD_DRAM, read destination (18_hold.md). -/
def hldCmdDram : Nat := 0xF00050

/-- HLD_CMD_DRAM.ADDR -/
def hldCmdDram_ADDR : Fld := ⟨hldCmdDram, 27, 0⟩

/-- Address of HLD_CMD_STAT, operation status (18_hold.md). -/
def hldCmdStat : Nat := 0xF00054

/-- HLD_CMD_STAT.BUSY -/
def hldCmdStat_BUSY : Fld := ⟨hldCmdStat, 31, 31⟩

/-- HLD_CMD_STAT.RESULT -/
def hldCmdStat_RESULT : Fld := ⟨hldCmdStat, 7, 0⟩

/-- Address of HLD_STR_SEL, stream select (18_hold.md). -/
def hldStrSel : Nat := 0xF00060

/-- HLD_STR_SEL.REGION -/
def hldStrSel_REGION : Fld := ⟨hldStrSel, 3, 0⟩

/-- Address of HLD_STR_STAT, stream status (18_hold.md). -/
def hldStrStat : Nat := 0xF00064

/-- HLD_STR_STAT.STREAM -/
def hldStrStat_STREAM : Fld := ⟨hldStrStat, 31, 31⟩

/-- HLD_STR_STAT.KEEP -/
def hldStrStat_KEEP : Fld := ⟨hldStrStat, 30, 30⟩

/-- HLD_STR_STAT.FULL -/
def hldStrStat_FULL : Fld := ⟨hldStrStat, 29, 29⟩

/-- HLD_STR_STAT.USED -/
def hldStrStat_USED : Fld := ⟨hldStrStat, 6, 0⟩

/-- Address of HLD_STR_HEAD, stream head (18_hold.md). -/
def hldStrHead : Nat := 0xF00068

/-- HLD_STR_HEAD.HEAD -/
def hldStrHead_HEAD : Fld := ⟨hldStrHead, 31, 0⟩

/-- Address of HLD_STR_TAIL, stream tail (18_hold.md). -/
def hldStrTail : Nat := 0xF0006C

/-- HLD_STR_TAIL.TAIL -/
def hldStrTail_TAIL : Fld := ⟨hldStrTail, 31, 0⟩

/-- Address of HLD_EVT_EN, event enables (18_hold.md). -/
def hldEvtEn : Nat := 0xF00080

/-- HLD_EVT_EN.EN -/
def hldEvtEn_EN : Fld := ⟨hldEvtEn, 15, 0⟩

/-- Address of LGB_STAT, Logbook status (19_logbook.md). -/
def lgbStat : Nat := 0x1000000

/-- LGB_STAT.BUF -/
def lgbStat_BUF : Fld := ⟨lgbStat, 24, 16⟩

/-- LGB_STAT.LOST -/
def lgbStat_LOST : Fld := ⟨lgbStat, 15, 0⟩

/-- Address of LGB_FIRST, oldest readable record (19_logbook.md). -/
def lgbFirst : Nat := 0x1000004

/-- LGB_FIRST.NUMBER -/
def lgbFirst_NUMBER : Fld := ⟨lgbFirst, 31, 0⟩

/-- Address of LGB_NEXT, next record number (19_logbook.md). -/
def lgbNext : Nat := 0x1000008

/-- LGB_NEXT.NUMBER -/
def lgbNext_NUMBER : Fld := ⟨lgbNext, 31, 0⟩

/-- Address of LGB_CLEARS, clear count (19_logbook.md). -/
def lgbClears : Nat := 0x100000C

/-- LGB_CLEARS.COUNT -/
def lgbClears_COUNT : Fld := ⟨lgbClears, 31, 0⟩

/-- Address of LGB_OPHOURS, operating time (19_logbook.md). -/
def lgbOphours : Nat := 0x1000010

/-- LGB_OPHOURS.HOURS -/
def lgbOphours_HOURS : Fld := ⟨lgbOphours, 31, 0⟩

/-- Address of LGB_PCYCLE, power-cycle count (19_logbook.md). -/
def lgbPcycle : Nat := 0x1000014

/-- LGB_PCYCLE.COUNT -/
def lgbPcycle_COUNT : Fld := ⟨lgbPcycle, 31, 0⟩

/-- Address of LGB_CLEAR, clear request (19_logbook.md). -/
def lgbClear : Nat := 0x1000020

/-- LGB_CLEAR.CLEAR -/
def lgbClear_CLEAR : Fld := ⟨lgbClear, 0, 0⟩

/-- Address of LGB_CLR_STAT, clear status (19_logbook.md). -/
def lgbClrStat : Nat := 0x1000024

/-- LGB_CLR_STAT.BUSY -/
def lgbClrStat_BUSY : Fld := ⟨lgbClrStat, 31, 31⟩

/-- LGB_CLR_STAT.RESULT -/
def lgbClrStat_RESULT : Fld := ⟨lgbClrStat, 7, 0⟩

/-- Address of LGB_EVT_EN, event enables (19_logbook.md). -/
def lgbEvtEn : Nat := 0x1000030

/-- LGB_EVT_EN.EN -/
def lgbEvtEn_EN : Fld := ⟨lgbEvtEn, 5, 0⟩

/-- Address of LGB_RD_SEL_w, read select of window w = 0 to 9 (19_logbook.md). -/
def lgbRdSel (w : Nat) : Nat := 0x1001000 + 0x80 * w

/-- LGB_RD_SEL_w.NUMBER -/
def lgbRdSel_NUMBER (w : Nat) : Fld := ⟨lgbRdSel w, 31, 0⟩

/-- Address of LGB_RD_STAT_w, captured record status (19_logbook.md). -/
def lgbRdStat (w : Nat) : Nat := 0x1001004 + 0x80 * w

/-- LGB_RD_STAT_w.VALID -/
def lgbRdStat_VALID (w : Nat) : Fld := ⟨lgbRdStat w, 31, 31⟩

/-- LGB_RD_STAT_w.CRCERR -/
def lgbRdStat_CRCERR (w : Nat) : Fld := ⟨lgbRdStat w, 30, 30⟩

/-- LGB_RD_STAT_w.HOURS -/
def lgbRdStat_HOURS (w : Nat) : Fld := ⟨lgbRdStat w, 23, 0⟩

/-- Address of LGB_RD_DATA_w_k, captured record word k = 0 to 15 (19_logbook.md). -/
def lgbRdData (w : Nat) (k : Nat) : Nat := 0x1001040 + 0x80 * w + 0x4 * k

/-- LGB_RD_DATA_w_k.DATA -/
def lgbRdData_DATA (w : Nat) (k : Nat) : Fld := ⟨lgbRdData w k, 31, 0⟩

/-- Address of KEY_SEL, slot select (20_keys_attestation.md). -/
def keySel : Nat := 0x1100000

/-- KEY_SEL.SLOT -/
def keySel_SLOT : Fld := ⟨keySel, 9, 0⟩

/-- Address of KEY_ATTR, selected slot attributes (20_keys_attestation.md). -/
def keyAttr : Nat := 0x1100004

/-- KEY_ATTR.ATTR -/
def keyAttr_ATTR : Fld := ⟨keyAttr, 31, 0⟩

/-- Address of KEY_NEW_ATTR, attributes to write (20_keys_attestation.md). -/
def keyNewAttr : Nat := 0x1100008

/-- KEY_NEW_ATTR.ATTR -/
def keyNewAttr_ATTR : Fld := ⟨keyNewAttr, 31, 0⟩

/-- Address of KEY_CMD, slot operation (20_keys_attestation.md). -/
def keyCmd : Nat := 0x110000C

/-- KEY_CMD.OP -/
def keyCmd_OP : Fld := ⟨keyCmd, 31, 28⟩

/-- Address of KEY_CMD_STAT, operation status (20_keys_attestation.md). -/
def keyCmdStat : Nat := 0x1100010

/-- KEY_CMD_STAT.BUSY -/
def keyCmdStat_BUSY : Fld := ⟨keyCmdStat, 31, 31⟩

/-- KEY_CMD_STAT.RESULT -/
def keyCmdStat_RESULT : Fld := ⟨keyCmdStat, 7, 0⟩

/-- Address of KEY_ID_STAT, identity key status (20_keys_attestation.md). -/
def keyIdStat : Nat := 0x1100020

/-- KEY_ID_STAT.READY -/
def keyIdStat_READY : Fld := ⟨keyIdStat, 31, 31⟩

/-- KEY_ID_STAT.GENERATING -/
def keyIdStat_GENERATING : Fld := ⟨keyIdStat, 30, 30⟩

/-- KEY_ID_STAT.EPOCH -/
def keyIdStat_EPOCH : Fld := ⟨keyIdStat, 5, 0⟩

/-- Address of KEY_FP_HI, identity fingerprint, high word (20_keys_attestation.md). -/
def keyFpHi : Nat := 0x1100024

/-- KEY_FP_HI.FP_HI -/
def keyFpHi_FP_HI : Fld := ⟨keyFpHi, 31, 0⟩

/-- Address of KEY_FP_LO, identity fingerprint, low word (20_keys_attestation.md). -/
def keyFpLo : Nat := 0x1100028

/-- KEY_FP_LO.FP_LO -/
def keyFpLo_FP_LO : Fld := ⟨keyFpLo, 31, 0⟩

/-- Address of KEY_IDX_HI, next signing index, high part (20_keys_attestation.md). -/
def keyIdxHi : Nat := 0x110002C

/-- KEY_IDX_HI.IDX_HI -/
def keyIdxHi_IDX_HI : Fld := ⟨keyIdxHi, 7, 0⟩

/-- Address of KEY_IDX_LO, next signing index, low word (20_keys_attestation.md). -/
def keyIdxLo : Nat := 0x1100030

/-- KEY_IDX_LO.IDX_LO -/
def keyIdxLo_IDX_LO : Fld := ⟨keyIdxLo, 31, 0⟩

/-- Address of KEY_EUI_HI, chip EUI-64, high word (20_keys_attestation.md). -/
def keyEuiHi : Nat := 0x1100034

/-- KEY_EUI_HI.EUI_HI -/
def keyEuiHi_EUI_HI : Fld := ⟨keyEuiHi, 31, 0⟩

/-- Address of KEY_EUI_LO, chip EUI-64, low word (20_keys_attestation.md). -/
def keyEuiLo : Nat := 0x1100038

/-- KEY_EUI_LO.EUI_LO -/
def keyEuiLo_EUI_LO : Fld := ⟨keyEuiLo, 31, 0⟩

/-- Address of KEY_ATT_CTRL, attestation request (20_keys_attestation.md). -/
def keyAttCtrl : Nat := 0x1100040

/-- KEY_ATT_CTRL.START -/
def keyAttCtrl_START : Fld := ⟨keyAttCtrl, 31, 31⟩

/-- KEY_ATT_CTRL.ADDR -/
def keyAttCtrl_ADDR : Fld := ⟨keyAttCtrl, 27, 0⟩

/-- Address of KEY_ATT_STAT, attestation status (20_keys_attestation.md). -/
def keyAttStat : Nat := 0x1100044

/-- KEY_ATT_STAT.BUSY -/
def keyAttStat_BUSY : Fld := ⟨keyAttStat, 31, 31⟩

/-- KEY_ATT_STAT.RESULT -/
def keyAttStat_RESULT : Fld := ⟨keyAttStat, 7, 0⟩

/-- Address of KEY_EVT_EN, event enables (20_keys_attestation.md). -/
def keyEvtEn : Nat := 0x1100048

/-- KEY_EVT_EN.EN -/
def keyEvtEn_EN : Fld := ⟨keyEvtEn, 12, 0⟩

/-- Address of KEY_STAGE_k, staging word k = 0 to 15 (20_keys_attestation.md). -/
def keyStage (k : Nat) : Nat := 0x1100100 + 0x4 * k

/-- KEY_STAGE_k.DATA -/
def keyStage_DATA (k : Nat) : Fld := ⟨keyStage k, 31, 0⟩

/-- Address of KEY_DATA_k, read-back word k = 0 to 15 (20_keys_attestation.md). -/
def keyData (k : Nat) : Nat := 0x1100140 + 0x4 * k

/-- KEY_DATA_k.DATA -/
def keyData_DATA (k : Nat) : Fld := ⟨keyData k, 31, 0⟩

/-- Address of KEY_ATT_NONCE_k, nonce word k = 0 to 7 (20_keys_attestation.md). -/
def keyAttNonce (k : Nat) : Nat := 0x1100180 + 0x4 * k

/-- KEY_ATT_NONCE_k.NONCE -/
def keyAttNonce_NONCE (k : Nat) : Fld := ⟨keyAttNonce k, 31, 0⟩

/-- Address of MFT_STAT, Manifest status (21_manifest.md). -/
def mftStat : Nat := 0x1200000

/-- MFT_STAT.RESCUE -/
def mftStat_RESCUE : Fld := ⟨mftStat, 31, 31⟩

/-- MFT_STAT.INFORCE -/
def mftStat_INFORCE : Fld := ⟨mftStat, 30, 30⟩

/-- MFT_STAT.TRIAL -/
def mftStat_TRIAL : Fld := ⟨mftStat, 29, 29⟩

/-- MFT_STAT.FALLBACK -/
def mftStat_FALLBACK : Fld := ⟨mftStat, 28, 28⟩

/-- MFT_STAT.OTHER_STATE -/
def mftStat_OTHER_STATE : Fld := ⟨mftStat, 23, 16⟩

/-- MFT_STAT.INFORCE_STATE -/
def mftStat_INFORCE_STATE : Fld := ⟨mftStat, 15, 8⟩

/-- Address of MFT_ERR, last rejection (21_manifest.md). -/
def mftErr : Nat := 0x1200004

/-- MFT_ERR.VALID -/
def mftErr_VALID : Fld := ⟨mftErr, 31, 31⟩

/-- MFT_ERR.COPY -/
def mftErr_COPY : Fld := ⟨mftErr, 30, 30⟩

/-- MFT_ERR.PART -/
def mftErr_PART : Fld := ⟨mftErr, 29, 28⟩

/-- MFT_ERR.SECTION -/
def mftErr_SECTION : Fld := ⟨mftErr, 23, 16⟩

/-- MFT_ERR.CHECK -/
def mftErr_CHECK : Fld := ⟨mftErr, 15, 8⟩

/-- MFT_ERR.CODE -/
def mftErr_CODE : Fld := ⟨mftErr, 7, 0⟩

/-- Address of MFT_SEQ, copy in force (21_manifest.md). -/
def mftSeq : Nat := 0x1200008

/-- MFT_SEQ.SEQ -/
def mftSeq_SEQ : Fld := ⟨mftSeq, 31, 0⟩

/-- Address of MFT_FLOOR, levels and authorities (21_manifest.md). -/
def mftFloor : Nat := 0x120000C

/-- MFT_FLOOR.SEALED_LVL -/
def mftFloor_SEALED_LVL : Fld := ⟨mftFloor, 29, 24⟩

/-- MFT_FLOOR.OPEN_LVL -/
def mftFloor_OPEN_LVL : Fld := ⟨mftFloor, 21, 16⟩

/-- MFT_FLOOR.SEALED_AUTH -/
def mftFloor_SEALED_AUTH : Fld := ⟨mftFloor, 10, 8⟩

/-- MFT_FLOOR.OPEN_AUTH -/
def mftFloor_OPEN_AUTH : Fld := ⟨mftFloor, 2, 0⟩

/-- Address of MFT_TRIAL, trial time left (21_manifest.md). -/
def mftTrial : Nat := 0x1200010

/-- MFT_TRIAL.SECONDS -/
def mftTrial_SECONDS : Fld := ⟨mftTrial, 31, 0⟩

/-- Address of MFT_CMD, loader operation (21_manifest.md). -/
def mftCmd : Nat := 0x1200020

/-- MFT_CMD.OP -/
def mftCmd_OP : Fld := ⟨mftCmd, 31, 28⟩

/-- Address of MFT_CMD_STAT, operation status (21_manifest.md). -/
def mftCmdStat : Nat := 0x1200024

/-- MFT_CMD_STAT.BUSY -/
def mftCmdStat_BUSY : Fld := ⟨mftCmdStat, 31, 31⟩

/-- MFT_CMD_STAT.RESULT -/
def mftCmdStat_RESULT : Fld := ⟨mftCmdStat, 7, 0⟩

/-- Address of MFT_STAGE_ADDR, staged image address (21_manifest.md). -/
def mftStageAddr : Nat := 0x1200028

/-- MFT_STAGE_ADDR.ADDR -/
def mftStageAddr_ADDR : Fld := ⟨mftStageAddr, 27, 0⟩

/-- Address of MFT_STAGE_LEN, staged image length (21_manifest.md). -/
def mftStageLen : Nat := 0x120002C

/-- MFT_STAGE_LEN.LEN -/
def mftStageLen_LEN : Fld := ⟨mftStageLen, 23, 0⟩

/-- Address of MFT_RESCUE_WIN, rescue window base (21_manifest.md). -/
def mftRescueWin : Nat := 0x1200030

/-- MFT_RESCUE_WIN.BASE -/
def mftRescueWin_BASE : Fld := ⟨mftRescueWin, 9, 0⟩

/-- Address of MFT_HASH_OPEN_k, open part hash word k = 0 to 7 (21_manifest.md). -/
def mftHashOpen (k : Nat) : Nat := 0x1200040 + 0x4 * k

/-- MFT_HASH_OPEN_k.HASH -/
def mftHashOpen_HASH (k : Nat) : Fld := ⟨mftHashOpen k, 31, 0⟩

/-- Address of MFT_HASH_SEALED_k, sealed part hash word k = 0 to 7 (21_manifest.md). -/
def mftHashSealed (k : Nat) : Nat := 0x1200060 + 0x4 * k

/-- MFT_HASH_SEALED_k.HASH -/
def mftHashSealed_HASH (k : Nat) : Fld := ⟨mftHashSealed k, 31, 0⟩

/-- Address of MFT_EVT_EN, event enables (21_manifest.md). -/
def mftEvtEn : Nat := 0x1200080

/-- MFT_EVT_EN.EN -/
def mftEvtEn_EN : Fld := ⟨mftEvtEn, 7, 0⟩

/-- Address of PWR_STAT, power status (22_power_reset.md). -/
def pwrStat : Nat := 0x1300000

/-- PWR_STAT.WARN -/
def pwrStat_WARN : Fld := ⟨pwrStat, 31, 31⟩

/-- PWR_STAT.FLUSHING -/
def pwrStat_FLUSHING : Fld := ⟨pwrStat, 30, 30⟩

/-- PWR_STAT.RIDE_PEND -/
def pwrStat_RIDE_PEND : Fld := ⟨pwrStat, 29, 29⟩

/-- PWR_STAT.HOLD_OK -/
def pwrStat_HOLD_OK : Fld := ⟨pwrStat, 28, 28⟩

/-- PWR_STAT.VBAT_LOW -/
def pwrStat_VBAT_LOW : Fld := ⟨pwrStat, 27, 27⟩

/-- PWR_STAT.AON_VALID -/
def pwrStat_AON_VALID : Fld := ⟨pwrStat, 26, 26⟩

/-- PWR_STAT.STORAGE_FAIL -/
def pwrStat_STORAGE_FAIL : Fld := ⟨pwrStat, 25, 25⟩

/-- PWR_STAT.CLAMPED -/
def pwrStat_CLAMPED : Fld := ⟨pwrStat, 24, 24⟩

/-- PWR_STAT.PHASE -/
def pwrStat_PHASE : Fld := ⟨pwrStat, 19, 16⟩

/-- PWR_STAT.RIDES -/
def pwrStat_RIDES : Fld := ⟨pwrStat, 15, 0⟩

/-- Address of PWR_VIN_CFG, supply warning threshold (22_power_reset.md). -/
def pwrVinCfg : Nat := 0x1300004

/-- PWR_VIN_CFG.EN -/
def pwrVinCfg_EN : Fld := ⟨pwrVinCfg, 31, 31⟩

/-- PWR_VIN_CFG.WARN -/
def pwrVinCfg_WARN : Fld := ⟨pwrVinCfg, 26, 16⟩

/-- PWR_VIN_CFG.HYST -/
def pwrVinCfg_HYST : Fld := ⟨pwrVinCfg, 7, 0⟩

/-- Address of PWR_VIN, supply reading (22_power_reset.md). -/
def pwrVin : Nat := 0x1300008

/-- PWR_VIN.MIN -/
def pwrVin_MIN : Fld := ⟨pwrVin, 26, 16⟩

/-- PWR_VIN.NOW -/
def pwrVin_NOW : Fld := ⟨pwrVin, 10, 0⟩

/-- Address of PWR_CFG, warning filter and hold-up wait (22_power_reset.md). -/
def pwrCfg : Nat := 0x130000C

/-- PWR_CFG.WFILT -/
def pwrCfg_WFILT : Fld := ⟨pwrCfg, 29, 12⟩

/-- PWR_CFG.HOLD_WAIT -/
def pwrCfg_HOLD_WAIT : Fld := ⟨pwrCfg, 7, 0⟩

/-- Address of PWR_RESET, reset control and cause (22_power_reset.md). -/
def pwrReset : Nat := 0x1300010

/-- PWR_RESET.KEY -/
def pwrReset_KEY : Fld := ⟨pwrReset, 31, 24⟩

/-- PWR_RESET.RESET -/
def pwrReset_RESET : Fld := ⟨pwrReset, 8, 8⟩

/-- PWR_RESET.CAUSE -/
def pwrReset_CAUSE : Fld := ⟨pwrReset, 7, 0⟩

/-- Address of PWR_AVS, core voltage (22_power_reset.md). -/
def pwrAvs : Nat := 0x1300014

/-- PWR_AVS.EN -/
def pwrAvs_EN : Fld := ⟨pwrAvs, 31, 31⟩

/-- PWR_AVS.MARGIN -/
def pwrAvs_MARGIN : Fld := ⟨pwrAvs, 23, 16⟩

/-- PWR_AVS.VCORE -/
def pwrAvs_VCORE : Fld := ⟨pwrAvs, 9, 0⟩

/-- Address of PWR_TEMP, junction temperature (22_power_reset.md). -/
def pwrTemp : Nat := 0x1300018

/-- PWR_TEMP.WARN -/
def pwrTemp_WARN : Fld := ⟨pwrTemp, 23, 16⟩

/-- PWR_TEMP.TJ -/
def pwrTemp_TJ : Fld := ⟨pwrTemp, 7, 0⟩

/-- Address of PWR_BOOT, start-up times (22_power_reset.md). -/
def pwrBoot : Nat := 0x130001C

/-- PWR_BOOT.REPLAY_MS -/
def pwrBoot_REPLAY_MS : Fld := ⟨pwrBoot, 31, 16⟩

/-- PWR_BOOT.READY_MS -/
def pwrBoot_READY_MS : Fld := ⟨pwrBoot, 15, 0⟩

/-- Address of PWR_EVT_EN, power event enables (22_power_reset.md). -/
def pwrEvtEn : Nat := 0x1300020

/-- PWR_EVT_EN.EN -/
def pwrEvtEn_EN : Fld := ⟨pwrEvtEn, 15, 0⟩

/-- Address of TST_CTRL, unlock and time limit (23_test_perturbation.md). -/
def tstCtrl : Nat := 0x1400000

/-- TST_CTRL.KEY -/
def tstCtrl_KEY : Fld := ⟨tstCtrl, 31, 24⟩

/-- TST_CTRL.LIMIT -/
def tstCtrl_LIMIT : Fld := ⟨tstCtrl, 11, 0⟩

/-- Address of TST_STAT, block status (23_test_perturbation.md). -/
def tstStat : Nat := 0x1400004

/-- TST_STAT.UNLOCKED -/
def tstStat_UNLOCKED : Fld := ⟨tstStat, 31, 31⟩

/-- TST_STAT.RESULT -/
def tstStat_RESULT : Fld := ⟨tstStat, 23, 16⟩

/-- TST_STAT.ARMED -/
def tstStat_ARMED : Fld := ⟨tstStat, 15, 8⟩

/-- TST_STAT.REFUSED -/
def tstStat_REFUSED : Fld := ⟨tstStat, 7, 0⟩

/-- Address of TST_PSEL, entry select (23_test_perturbation.md). -/
def tstPsel : Nat := 0x1400010

/-- TST_PSEL.ENTRY -/
def tstPsel_ENTRY : Fld := ⟨tstPsel, 2, 0⟩

/-- Address of TST_PCFG, entry configuration (23_test_perturbation.md). -/
def tstPcfg : Nat := 0x1400014

/-- TST_PCFG.EN -/
def tstPcfg_EN : Fld := ⟨tstPcfg, 31, 31⟩

/-- TST_PCFG.KIND -/
def tstPcfg_KIND : Fld := ⟨tstPcfg, 27, 24⟩

/-- TST_PCFG.TARGET -/
def tstPcfg_TARGET : Fld := ⟨tstPcfg, 15, 0⟩

/-- Address of TST_PARAM, entry parameters (23_test_perturbation.md). -/
def tstParam : Nat := 0x1400018

/-- TST_PARAM.A -/
def tstParam_A : Fld := ⟨tstParam, 31, 16⟩

/-- TST_PARAM.B -/
def tstParam_B : Fld := ⟨tstParam, 15, 0⟩

/-- Address of TST_PSTAT, entry status (23_test_perturbation.md). -/
def tstPstat : Nat := 0x140001C

/-- TST_PSTAT.ARMED -/
def tstPstat_ARMED : Fld := ⟨tstPstat, 31, 31⟩

/-- TST_PSTAT.REMAIN -/
def tstPstat_REMAIN : Fld := ⟨tstPstat, 27, 16⟩

/-- TST_PSTAT.HITS -/
def tstPstat_HITS : Fld := ⟨tstPstat, 15, 0⟩

/-- Address of TST_EVT_EN, event enables (23_test_perturbation.md). -/
def tstEvtEn : Nat := 0x1400020

/-- TST_EVT_EN.EN -/
def tstEvtEn_EN : Fld := ⟨tstEvtEn, 5, 0⟩

/-- Address of SYS_DRAM_ECC, LPDDR5 ECC counters (24_pins_electrical.md). -/
def sysDramEcc : Nat := 0x90

/-- SYS_DRAM_ECC.CLR -/
def sysDramEcc_CLR : Fld := ⟨sysDramEcc, 31, 31⟩

/-- SYS_DRAM_ECC.UNCORR -/
def sysDramEcc_UNCORR : Fld := ⟨sysDramEcc, 30, 16⟩

/-- SYS_DRAM_ECC.CORR -/
def sysDramEcc_CORR : Fld := ⟨sysDramEcc, 15, 0⟩

/-- Address of SYS_SSC, spread-spectrum setting (24_pins_electrical.md). -/
def sysSsc : Nat := 0x80

/-- SYS_SSC.EN -/
def sysSsc_EN : Fld := ⟨sysSsc, 31, 31⟩

/-- SYS_SSC.DEPTH -/
def sysSsc_DEPTH : Fld := ⟨sysSsc, 4, 0⟩

/-- Register tables, part 0. -/
def regTable0 : List RegDesc := [
  ⟨0x0, [], [⟨31, 16, .ro⟩, ⟨15, 12, .ro⟩, ⟨11, 8, .ro⟩, ⟨7, 4, .ro⟩]⟩,
  ⟨0x40, [], [⟨1, 0, .rw⟩]⟩,
  ⟨0x44, [], [⟨8, 8, .w1c⟩, ⟨4, 4, .ro⟩, ⟨3, 2, .ro⟩, ⟨1, 0, .ro⟩]⟩,
  ⟨0x48, [], [⟨31, 0, .ro⟩]⟩,
  ⟨0x900100, [], [⟨15, 8, .ro⟩, ⟨1, 0, .ro⟩]⟩,
  ⟨0x100000, [], [⟨15, 8, .ro⟩, ⟨2, 2, .ro⟩, ⟨1, 1, .ro⟩, ⟨0, 0, .ro⟩]⟩,
  ⟨0x100004, [], [⟨11, 11, .w1c⟩, ⟨10, 10, .w1c⟩, ⟨9, 9, .ro⟩, ⟨8, 8, .ro⟩, ⟨6, 6, .ro⟩, ⟨5, 5, .ro⟩, ⟨4, 4, .ro⟩, ⟨3, 3, .ro⟩, ⟨2, 2, .ro⟩, ⟨1, 1, .ro⟩, ⟨0, 0, .ro⟩]⟩,
  ⟨0x100008, [], [⟨31, 0, .ro⟩]⟩,
  ⟨0x10000C, [], [⟨31, 16, .ro⟩, ⟨15, 0, .ro⟩]⟩,
  ⟨0x100010, [], [⟨31, 24, .ro⟩, ⟨15, 0, .ro⟩]⟩,
  ⟨0x100014, [], [⟨15, 0, .rw⟩]⟩,
  ⟨0x100018, [], [⟨31, 0, .ro⟩]⟩,
  ⟨0x100020, [], [⟨0, 0, .wo⟩]⟩,
  ⟨0x100024, [], [⟨31, 0, .ro⟩]⟩,
  ⟨0x100028, [], [⟨31, 0, .ro⟩]⟩,
  ⟨0x10002C, [], [⟨19, 19, .ro⟩, ⟨18, 16, .ro⟩, ⟨15, 0, .ro⟩]⟩,
  ⟨0x100030, [], [⟨31, 0, .ro⟩]⟩,
  ⟨0x100034, [], [⟨31, 0, .ro⟩]⟩,
  ⟨0x100040, [], [⟨17, 17, .ro⟩, ⟨16, 16, .ro⟩, ⟨15, 0, .ro⟩]⟩,
  ⟨0x100100, [(8, 0x8)], [⟨23, 0, .rw⟩]⟩]

/-- Register tables, part 1. -/
def regTable1 : List RegDesc := [
  ⟨0x100104, [(8, 0x8)], [⟨23, 0, .rw⟩]⟩,
  ⟨0x100400, [(256, 0x4)], [⟨31, 31, .ro⟩, ⟨30, 30, .wo⟩, ⟨23, 16, .ro⟩, ⟨15, 0, .ro⟩]⟩,
  ⟨0x200000, [], [⟨7, 6, .ro⟩, ⟨5, 5, .ro⟩]⟩,
  ⟨0x200004, [], [⟨14, 8, .ro⟩, ⟨0, 0, .ro⟩]⟩,
  ⟨0x200010, [], [⟨7, 0, .rw⟩]⟩,
  ⟨0x200014, [], [⟨31, 0, .ro⟩]⟩,
  ⟨0x200018, [], [⟨31, 0, .ro⟩]⟩,
  ⟨0x200040, [], [⟨29, 12, .sl⟩, ⟨0, 0, .wo⟩]⟩,
  ⟨0x200044, [], [⟨15, 8, .ro⟩, ⟨4, 4, .w1c⟩, ⟨2, 2, .ro⟩, ⟨1, 0, .ro⟩]⟩,
  ⟨0x200100, [(7, 0x10)], [⟨31, 0, .sl⟩]⟩,
  ⟨0x200104, [(7, 0x10)], [⟨31, 0, .sl⟩]⟩,
  ⟨0x200108, [(7, 0x10)], [⟨31, 0, .sl⟩]⟩,
  ⟨0x200170, [], [⟨31, 16, .sl⟩, ⟨15, 0, .sl⟩]⟩,
  ⟨0x200180, [], [⟨1, 1, .wo⟩, ⟨0, 0, .wo⟩]⟩,
  ⟨0x200184, [], [⟨1, 1, .w1c⟩, ⟨0, 0, .ro⟩]⟩,
  ⟨0x2001C0, [(8, 0x4)], [⟨31, 0, .ro⟩]⟩,
  ⟨0x200200, [], [⟨31, 31, .ro⟩, ⟨30, 30, .ro⟩, ⟨29, 19, .ro⟩, ⟨18, 0, .ro⟩]⟩,
  ⟨0x200204, [], [⟨17, 0, .rw⟩]⟩,
  ⟨0x200210, [(16, 0x4)], [⟨31, 0, .ro⟩]⟩,
  ⟨0x200060, [], [⟨9, 0, .rw⟩]⟩]

/-- Register tables, part 2. -/
def regTable2 : List RegDesc := [
  ⟨0x300000, [], [⟨7, 6, .ro⟩, ⟨5, 4, .ro⟩, ⟨0, 0, .ro⟩]⟩,
  ⟨0x300004, [], [⟨10, 8, .ro⟩, ⟨6, 4, .ro⟩, ⟨2, 0, .ro⟩]⟩,
  ⟨0x300010, [], [⟨15, 8, .rw⟩, ⟨7, 0, .rw⟩]⟩,
  ⟨0x300014, [], [⟨7, 0, .rw⟩]⟩,
  ⟨0x300018, [], [⟨23, 16, .ro⟩, ⟨15, 8, .ro⟩, ⟨7, 0, .ro⟩]⟩,
  ⟨0x30001C, [], [⟨0, 0, .rw⟩]⟩,
  ⟨0x300020, [], [⟨14, 0, .rw⟩]⟩,
  ⟨0x300100, [(3, 0x40)], [⟨16, 16, .rw⟩, ⟨15, 15, .rw⟩, ⟨11, 8, .rw⟩, ⟨7, 4, .rw⟩, ⟨0, 0, .rw⟩]⟩,
  ⟨0x300104, [(3, 0x40)], [⟨27, 24, .ro⟩, ⟨23, 16, .ro⟩, ⟨15, 8, .ro⟩]⟩,
  ⟨0x300108, [(3, 0x40)], [⟨31, 31, .wo⟩, ⟨30, 16, .ro⟩, ⟨14, 0, .ro⟩]⟩,
  ⟨0x300110, [(3, 0x40)], [⟨31, 24, .rw⟩, ⟨23, 16, .rw⟩, ⟨10, 8, .rw⟩, ⟨4, 0, .rw⟩]⟩,
  ⟨0x300114, [(3, 0x40)], [⟨31, 16, .ro⟩, ⟨9, 8, .ro⟩, ⟨1, 1, .ro⟩, ⟨0, 0, .w1c⟩]⟩,
  ⟨0x301000, [(3, 0x100)], [⟨31, 24, .ro⟩, ⟨23, 20, .ro⟩, ⟨19, 18, .ro⟩, ⟨17, 16, .ro⟩, ⟨15, 14, .rw⟩, ⟨11, 9, .rw⟩, ⟨8, 8, .rw⟩, ⟨7, 0, .rw⟩]⟩,
  ⟨0x301004, [(3, 0x100)], [⟨31, 28, .ro⟩, ⟨27, 24, .ro⟩, ⟨13, 7, .ro⟩, ⟨6, 0, .ro⟩]⟩,
  ⟨0x301008, [(3, 0x100)], [⟨29, 16, .ro⟩, ⟨13, 0, .ro⟩]⟩,
  ⟨0x30100C, [(3, 0x100)], [⟨31, 31, .ro⟩, ⟨30, 30, .ro⟩, ⟨15, 0, .ro⟩]⟩,
  ⟨0x301010, [(3, 0x100)], [⟨31, 0, .ro⟩]⟩,
  ⟨0x301014, [(3, 0x100)], [⟨31, 0, .ro⟩]⟩,
  ⟨0x301018, [(3, 0x100)], [⟨31, 31, .wo⟩, ⟨30, 16, .ro⟩, ⟨15, 0, .ro⟩]⟩,
  ⟨0x30101C, [(3, 0x100)], [⟨31, 0, .ro⟩]⟩]

/-- Register tables, part 3. -/
def regTable3 : List RegDesc := [
  ⟨0x301400, [], [⟨17, 16, .rw⟩, ⟨15, 0, .rw⟩]⟩,
  ⟨0x301404, [], [⟨31, 16, .ro⟩, ⟨15, 0, .ro⟩]⟩,
  ⟨0x301408, [], [⟨31, 16, .ro⟩, ⟨15, 4, .ro⟩, ⟨3, 2, .ro⟩, ⟨1, 1, .ro⟩]⟩,
  ⟨0x30140C, [], [⟨31, 16, .ro⟩, ⟨15, 0, .ro⟩]⟩,
  ⟨0x301410, [], [⟨31, 0, .rw⟩]⟩,
  ⟨0x301414, [], [⟨15, 0, .rw⟩]⟩,
  ⟨0x400000, [(2, 0x1000)], [⟨31, 24, .ro⟩, ⟨23, 16, .ro⟩, ⟨13, 12, .ro⟩, ⟨11, 11, .ro⟩, ⟨10, 8, .ro⟩, ⟨7, 4, .rw⟩, ⟨3, 3, .ro⟩, ⟨2, 2, .rw⟩, ⟨0, 0, .ro⟩]⟩,
  ⟨0x400004, [(2, 0x1000)], [⟨15, 0, .ro⟩]⟩,
  ⟨0x400008, [(2, 0x1000)], [⟨27, 16, .ro⟩, ⟨11, 0, .ro⟩]⟩,
  ⟨0x400010, [(2, 0x1000)], [⟨31, 30, .wo⟩, ⟨15, 0, .rw⟩]⟩,
  ⟨0x400014, [(2, 0x1000)], [⟨17, 17, .ro⟩, ⟨16, 16, .ro⟩, ⟨11, 0, .ro⟩]⟩,
  ⟨0x400020, [(2, 0x1000)], [⟨31, 24, .rw⟩, ⟨23, 16, .rw⟩, ⟨15, 0, .rw⟩]⟩,
  ⟨0x400024, [(2, 0x1000)], [⟨31, 31, .ro⟩, ⟨30, 30, .ro⟩, ⟨23, 0, .ro⟩]⟩,
  ⟨0x400030, [(2, 0x1000)], [⟨31, 16, .rw⟩, ⟨15, 0, .rw⟩]⟩,
  ⟨0x400034, [(2, 0x1000)], [⟨31, 16, .rw⟩, ⟨15, 0, .rw⟩]⟩,
  ⟨0x400038, [(2, 0x1000)], [⟨31, 16, .ro⟩, ⟨15, 0, .ro⟩]⟩,
  ⟨0x400040, [(2, 0x1000)], [⟨31, 31, .wo⟩, ⟨30, 16, .ro⟩, ⟨15, 0, .ro⟩]⟩,
  ⟨0x402000, [], [⟨31, 0, .rw⟩]⟩,
  ⟨0x500000, [(2, 0x100)], [⟨31, 16, .rw⟩, ⟨4, 4, .rw⟩, ⟨3, 3, .ro⟩, ⟨2, 1, .ro⟩, ⟨0, 0, .ro⟩]⟩,
  ⟨0x500004, [(2, 0x100)], [⟨2, 1, .ro⟩, ⟨0, 0, .ro⟩]⟩]

/-- Register tables, part 4. -/
def regTable4 : List RegDesc := [
  ⟨0x500008, [(2, 0x100)], [⟨31, 31, .wo⟩, ⟨30, 16, .ro⟩, ⟨15, 0, .ro⟩]⟩,
  ⟨0x501000, [], [⟨31, 24, .rw⟩, ⟨10, 10, .rw⟩, ⟨9, 8, .rw⟩, ⟨7, 7, .rw⟩, ⟨6, 6, .rw⟩, ⟨5, 4, .rw⟩, ⟨0, 0, .rw⟩]⟩,
  ⟨0x501004, [], [⟨9, 9, .ro⟩, ⟨8, 8, .ro⟩, ⟨7, 4, .ro⟩, ⟨3, 0, .ro⟩]⟩,
  ⟨0x501008, [], [⟨31, 0, .ro⟩]⟩,
  ⟨0x50100C, [], [⟨31, 16, .rw⟩, ⟨15, 0, .rw⟩]⟩,
  ⟨0x501010, [(2, 0x4)], [⟨31, 0, .ro⟩]⟩,
  ⟨0x501020, [], [⟨31, 0, .rw⟩]⟩,
  ⟨0x502000, [], [⟨31, 16, .ro⟩, ⟨15, 8, .ro⟩, ⟨7, 2, .rw⟩, ⟨1, 1, .ro⟩, ⟨0, 0, .ro⟩]⟩,
  ⟨0x502004, [], [⟨15, 0, .rw⟩]⟩,
  ⟨0x502008, [], [⟨16, 16, .ro⟩, ⟨15, 8, .ro⟩, ⟨6, 0, .ro⟩]⟩,
  ⟨0x50200C, [], [⟨31, 16, .ro⟩, ⟨15, 8, .ro⟩, ⟨7, 0, .ro⟩]⟩,
  ⟨0x503000, [], [⟨17, 0, .rw⟩]⟩,
  ⟨0x504000, [(512, 0x4)], [⟨31, 31, .rw⟩, ⟨5, 0, .rw⟩]⟩,
  ⟨0x600000, [], [⟨23, 16, .rw⟩, ⟨15, 8, .rw⟩]⟩,
  ⟨0x600004, [], [⟨25, 16, .ro⟩, ⟨15, 8, .ro⟩, ⟨5, 0, .ro⟩]⟩,
  ⟨0x600008, [], [⟨31, 24, .rw⟩, ⟨23, 16, .rw⟩, ⟨15, 0, .rw⟩]⟩,
  ⟨0x60000C, [], [⟨15, 0, .rw⟩]⟩,
  ⟨0x600010, [], [⟨31, 31, .wo⟩, ⟨7, 0, .rw⟩]⟩,
  ⟨0x600014, [], [⟨31, 0, .ro⟩]⟩,
  ⟨0x600020, [], [⟨31, 31, .rw⟩, ⟨19, 0, .rw⟩]⟩]

/-- Register tables, part 5. -/
def regTable5 : List RegDesc := [
  ⟨0x600024, [], [⟨31, 0, .ro⟩]⟩,
  ⟨0x600028, [], [⟨31, 0, .ro⟩]⟩,
  ⟨0x60002C, [], [⟨31, 0, .ro⟩]⟩,
  ⟨0x600040, [], [⟨31, 16, .rw⟩, ⟨12, 0, .rw⟩]⟩,
  ⟨0x600044, [], [⟨31, 16, .ro⟩, ⟨12, 0, .ro⟩]⟩,
  ⟨0x600048, [], [⟨31, 0, .ro⟩]⟩,
  ⟨0x60004C, [], [⟨31, 0, .ro⟩]⟩,
  ⟨0x600060, [], [⟨17, 0, .rw⟩]⟩,
  ⟨0x700000, [], [⟨20, 0, .ro⟩]⟩,
  ⟨0x700004, [], [⟨25, 16, .rw⟩, ⟨9, 0, .ro⟩]⟩,
  ⟨0x700008, [], [⟨20, 0, .ro⟩]⟩,
  ⟨0x70000C, [], [⟨20, 0, .ro⟩]⟩,
  ⟨0x700010, [], [⟨31, 28, .wo⟩, ⟨19, 0, .wo⟩]⟩,
  ⟨0x700014, [], [⟨31, 31, .ro⟩, ⟨7, 0, .ro⟩]⟩,
  ⟨0x700020, [], [⟨31, 0, .ro⟩]⟩,
  ⟨0x700024, [], [⟨31, 0, .ro⟩]⟩,
  ⟨0x700028, [], [⟨29, 16, .ro⟩, ⟨15, 0, .ro⟩]⟩,
  ⟨0x700030, [], [⟨20, 16, .ro⟩, ⟨12, 0, .ro⟩]⟩,
  ⟨0x700034, [], [⟨31, 16, .ro⟩, ⟨15, 0, .ro⟩]⟩,
  ⟨0x700040, [], [⟨9, 0, .rw⟩]⟩]

/-- Register tables, part 6. -/
def regTable6 : List RegDesc := [
  ⟨0x700100, [(32, 0x4)], [⟨31, 0, .rw⟩]⟩,
  ⟨0x800000, [], [⟨31, 24, .rw⟩, ⟨23, 16, .rw⟩, ⟨15, 8, .rw⟩, ⟨7, 1, .rw⟩, ⟨0, 0, .ro⟩]⟩,
  ⟨0x800004, [], [⟨31, 31, .ro⟩, ⟨30, 16, .ro⟩, ⟨12, 0, .ro⟩]⟩,
  ⟨0x800008, [], [⟨31, 0, .ro⟩]⟩,
  ⟨0x800010, [], [⟨31, 16, .rw⟩, ⟨15, 8, .rw⟩, ⟨7, 0, .rw⟩]⟩,
  ⟨0x800020, [(6, 0x4)], [⟨11, 8, .rw⟩, ⟨3, 0, .rw⟩]⟩,
  ⟨0x800040, [], [⟨31, 31, .ro⟩, ⟨9, 0, .ro⟩]⟩,
  ⟨0x800100, [], [⟨11, 0, .rw⟩]⟩,
  ⟨0x800104, [], [⟨31, 30, .ro⟩, ⟨29, 28, .ro⟩, ⟨27, 15, .ro⟩, ⟨11, 0, .ro⟩]⟩,
  ⟨0x800108, [], [⟨19, 0, .ro⟩]⟩,
  ⟨0x80010C, [], [⟨31, 16, .ro⟩, ⟨15, 0, .ro⟩]⟩,
  ⟨0x800110, [], [⟨31, 24, .ro⟩, ⟨23, 16, .ro⟩, ⟨15, 0, .ro⟩]⟩,
  ⟨0x800114, [], [⟨31, 16, .ro⟩, ⟨15, 8, .ro⟩, ⟨7, 0, .ro⟩]⟩,
  ⟨0x800118, [], [⟨31, 0, .ro⟩]⟩,
  ⟨0x80011C, [], [⟨31, 0, .ro⟩]⟩,
  ⟨0x800200, [], [⟨19, 0, .rw⟩]⟩,
  ⟨0x800204, [], [⟨28, 16, .ro⟩, ⟨15, 6, .ro⟩, ⟨5, 5, .ro⟩, ⟨4, 4, .ro⟩, ⟨3, 3, .ro⟩]⟩,
  ⟨0x800208, [], [⟨31, 16, .ro⟩, ⟨15, 8, .ro⟩]⟩,
  ⟨0x80020C, [], [⟨31, 0, .ro⟩]⟩,
  ⟨0x800210, [], [⟨15, 0, .rw⟩]⟩]

/-- Register tables, part 7. -/
def regTable7 : List RegDesc := [
  ⟨0x800300, [], [⟨8, 0, .rw⟩]⟩,
  ⟨0x801000, [(512, 0x4)], [⟨28, 16, .ro⟩, ⟨12, 0, .ro⟩]⟩,
  ⟨0x900000, [], [⟨25, 16, .ro⟩, ⟨6, 0, .ro⟩]⟩,
  ⟨0x900004, [], [⟨14, 8, .ro⟩, ⟨0, 0, .ro⟩]⟩,
  ⟨0x900008, [], [⟨31, 0, .ro⟩]⟩,
  ⟨0x90000C, [], [⟨29, 24, .ro⟩, ⟨19, 16, .ro⟩, ⟨15, 8, .ro⟩, ⟨7, 0, .ro⟩]⟩,
  ⟨0x900010, [], [⟨8, 8, .rw⟩, ⟨5, 0, .rw⟩]⟩,
  ⟨0x900014, [], [⟨31, 31, .ro⟩, ⟨30, 30, .ro⟩, ⟨29, 29, .ro⟩, ⟨28, 28, .ro⟩, ⟨27, 24, .ro⟩, ⟨23, 20, .ro⟩, ⟨19, 19, .ro⟩, ⟨15, 0, .ro⟩]⟩,
  ⟨0x900018, [], [⟨15, 0, .ro⟩]⟩,
  ⟨0x90001C, [], [⟨31, 0, .ro⟩]⟩,
  ⟨0x900020, [(8, 0x4)], [⟨31, 0, .ro⟩]⟩,
  ⟨0x900040, [], [⟨8, 8, .rw⟩, ⟨5, 0, .rw⟩]⟩,
  ⟨0x900044, [], [⟨31, 0, .rw⟩]⟩,
  ⟨0x900048, [], [⟨31, 31, .ro⟩, ⟨30, 30, .ro⟩, ⟨29, 29, .ro⟩, ⟨28, 24, .ro⟩, ⟨23, 20, .ro⟩, ⟨19, 16, .ro⟩, ⟨10, 0, .ro⟩]⟩,
  ⟨0x900060, [], [⟨7, 0, .rw⟩]⟩,
  ⟨0x901000, [], [⟨31, 16, .ro⟩, ⟨12, 8, .ro⟩, ⟨4, 0, .ro⟩]⟩,
  ⟨0x901004, [], [⟨31, 31, .ro⟩, ⟨30, 30, .ro⟩, ⟨14, 0, .ro⟩]⟩,
  ⟨0x901008, [], [⟨31, 0, .ro⟩]⟩,
  ⟨0x90100C, [], [⟨15, 0, .ro⟩]⟩,
  ⟨0x901010, [], [⟨31, 0, .ro⟩]⟩]

/-- Register tables, part 8. -/
def regTable8 : List RegDesc := [
  ⟨0x901020, [], [⟨31, 31, .rw⟩, ⟨28, 24, .rw⟩, ⟨23, 20, .rw⟩, ⟨19, 0, .rw⟩]⟩,
  ⟨0x901024, [], [⟨31, 31, .ro⟩, ⟨15, 0, .ro⟩]⟩,
  ⟨0x901028, [], [⟨31, 0, .ro⟩]⟩,
  ⟨0x90102C, [], [⟨15, 0, .ro⟩]⟩,
  ⟨0x901030, [], [⟨31, 0, .ro⟩]⟩,
  ⟨0x901034, [], [⟨31, 0, .ro⟩]⟩,
  ⟨0x901038, [], [⟨31, 0, .ro⟩]⟩,
  ⟨0x901040, [], [⟨31, 31, .ro⟩, ⟨30, 30, .rw⟩, ⟨19, 0, .rw⟩]⟩,
  ⟨0x901044, [], [⟨31, 0, .rw⟩]⟩,
  ⟨0x901048, [(6, 0x4)], [⟨31, 0, .ro⟩]⟩,
  ⟨0x901070, [], [⟨12, 0, .rw⟩]⟩,
  ⟨0xA00000, [], [⟨31, 31, .ro⟩, ⟨15, 8, .ro⟩, ⟨5, 0, .ro⟩]⟩,
  ⟨0xA00004, [], [⟨31, 30, .wo⟩, ⟨5, 0, .wo⟩]⟩,
  ⟨0xA00008, [], [⟨25, 13, .ro⟩, ⟨12, 7, .ro⟩, ⟨6, 0, .ro⟩]⟩,
  ⟨0xA00010, [], [⟨5, 0, .rw⟩]⟩,
  ⟨0xA00014, [], [⟨31, 28, .ro⟩, ⟨27, 27, .ro⟩, ⟨26, 21, .ro⟩, ⟨8, 0, .ro⟩]⟩,
  ⟨0xA00018, [], [⟨31, 0, .ro⟩]⟩,
  ⟨0xA0001C, [], [⟨31, 0, .ro⟩]⟩,
  ⟨0xA00020, [], [⟨31, 16, .ro⟩, ⟨15, 0, .ro⟩]⟩,
  ⟨0xA00030, [], [⟨9, 0, .rw⟩]⟩]

/-- Register tables, part 9. -/
def regTable9 : List RegDesc := [
  ⟨0xA00040, [], [⟨9, 0, .rw⟩]⟩,
  ⟨0xA00044, [], [⟨31, 0, .ro⟩]⟩,
  ⟨0xA00048, [], [⟨31, 0, .ro⟩]⟩,
  ⟨0xA01000, [(10, 0x40), (8, 0x4)], [⟨31, 0, .rw⟩]⟩,
  ⟨0xA01020, [(10, 0x40)], [⟨5, 0, .wo⟩]⟩,
  ⟨0xA01024, [(10, 0x40)], [⟨7, 0, .ro⟩]⟩,
  ⟨0xB00000, [], [⟨29, 24, .rw⟩, ⟨8, 8, .rw⟩, ⟨1, 1, .ro⟩, ⟨0, 0, .ro⟩]⟩,
  ⟨0xB00004, [], [⟨31, 31, .ro⟩, ⟨30, 30, .ro⟩, ⟨25, 24, .ro⟩, ⟨23, 16, .ro⟩, ⟨15, 0, .ro⟩]⟩,
  ⟨0xB00008, [], [⟨31, 24, .rw⟩, ⟨23, 16, .rw⟩, ⟨15, 8, .rw⟩, ⟨7, 0, .rw⟩]⟩,
  ⟨0xB00010, [(4, 0x4)], [⟨12, 8, .rw⟩, ⟨3, 0, .rw⟩]⟩,
  ⟨0xB00040, [], [⟨31, 31, .rw⟩, ⟨6, 0, .rw⟩]⟩,
  ⟨0xB00044, [], [⟨31, 0, .rw⟩]⟩,
  ⟨0xB00060, [], [⟨10, 0, .rw⟩]⟩,
  ⟨0xB00100, [(4, 0x80), (16, 0x8), (2, 0x4)], [⟨31, 0, .rw⟩]⟩,
  ⟨0xB01000, [], [⟨29, 12, .rw⟩, ⟨7, 4, .rw⟩, ⟨0, 0, .rw⟩]⟩,
  ⟨0xB01004, [], [⟨15, 0, .ro⟩]⟩,
  ⟨0xB02000, [], [⟨25, 0, .ro⟩]⟩,
  ⟨0xB02004, [], [⟨31, 24, .ro⟩, ⟨23, 8, .ro⟩, ⟨7, 0, .ro⟩]⟩,
  ⟨0xB02008, [], [⟨31, 31, .ro⟩, ⟨16, 0, .ro⟩]⟩,
  ⟨0xB02010, [], [⟨15, 0, .rw⟩]⟩]

/-- Register tables, part 10. -/
def regTable10 : List RegDesc := [
  ⟨0xB02014, [], [⟨9, 8, .ro⟩, ⟨0, 0, .ro⟩]⟩,
  ⟨0xB02018, [], [⟨31, 0, .ro⟩]⟩,
  ⟨0xB0201C, [], [⟨31, 0, .ro⟩]⟩,
  ⟨0xC00000, [(256, 0x20)], [⟨31, 31, .ro⟩, ⟨30, 30, .ro⟩, ⟨29, 29, .ro⟩, ⟨28, 28, .ro⟩, ⟨27, 22, .ro⟩, ⟨21, 11, .ro⟩, ⟨10, 0, .ro⟩]⟩,
  ⟨0xC00004, [(256, 0x20)], [⟨28, 24, .rw⟩, ⟨23, 0, .ro⟩]⟩,
  ⟨0xC00008, [(256, 0x20)], [⟨31, 31, .ro⟩, ⟨30, 30, .w1c⟩, ⟨29, 29, .w1c⟩, ⟨28, 28, .w1c⟩, ⟨27, 27, .w1c⟩, ⟨26, 26, .ro⟩, ⟨25, 25, .ro⟩, ⟨17, 0, .ro⟩]⟩,
  ⟨0xC0000C, [(256, 0x20)], [⟨19, 0, .ro⟩]⟩,
  ⟨0xC00010, [(256, 0x20)], [⟨31, 30, .wo⟩, ⟨24, 24, .wo⟩, ⟨23, 0, .wo⟩]⟩,
  ⟨0xC00014, [(256, 0x20)], [⟨31, 0, .ro⟩]⟩,
  ⟨0xC00018, [(256, 0x20)], [⟨31, 0, .ro⟩]⟩,
  ⟨0xC0001C, [(256, 0x20)], [⟨31, 31, .wo⟩, ⟨30, 20, .ro⟩, ⟨19, 16, .ro⟩, ⟨15, 0, .ro⟩]⟩,
  ⟨0xC04000, [(8, 0x4)], [⟨31, 0, .ro⟩]⟩,
  ⟨0xC04020, [], [⟨31, 0, .rw⟩]⟩,
  ⟨0xC04024, [], [⟨31, 0, .rw⟩]⟩,
  ⟨0xD00000, [], [⟨26, 16, .ro⟩, ⟨10, 0, .ro⟩]⟩,
  ⟨0xD00004, [], [⟨31, 31, .wo⟩, ⟨30, 16, .ro⟩, ⟨15, 0, .ro⟩]⟩,
  ⟨0xD00010, [(8, 0x4)], [⟨31, 31, .ro⟩, ⟨30, 30, .ro⟩, ⟨29, 29, .ro⟩, ⟨28, 28, .ro⟩, ⟨25, 16, .ro⟩, ⟨9, 0, .ro⟩]⟩,
  ⟨0xD00040, [], [⟨31, 2, .rw⟩]⟩,
  ⟨0xD00044, [], [⟨31, 0, .rw⟩]⟩,
  ⟨0xD00048, [], [⟨31, 24, .rw⟩, ⟨21, 16, .rw⟩, ⟨13, 8, .rw⟩, ⟨7, 7, .rw⟩]⟩]

/-- Register tables, part 11. -/
def regTable11 : List RegDesc := [
  ⟨0xD0004C, [], [⟨31, 31, .ro⟩, ⟨23, 16, .ro⟩, ⟨9, 0, .ro⟩]⟩,
  ⟨0xD00050, [], [⟨9, 0, .rw⟩]⟩,
  ⟨0xD00054, [], [⟨31, 29, .ro⟩, ⟨28, 28, .ro⟩, ⟨27, 22, .ro⟩, ⟨21, 14, .ro⟩, ⟨11, 0, .ro⟩]⟩,
  ⟨0xD00060, [], [⟨31, 31, .ro⟩, ⟨30, 28, .ro⟩, ⟨25, 16, .ro⟩, ⟨15, 15, .ro⟩, ⟨14, 12, .ro⟩, ⟨9, 0, .ro⟩]⟩,
  ⟨0xD00064, [(2, 0x4)], [⟨31, 16, .ro⟩, ⟨15, 0, .ro⟩]⟩,
  ⟨0xD00070, [], [⟨4, 0, .rw⟩]⟩,
  ⟨0xD00100, [], [⟨31, 31, .wo⟩, ⟨24, 16, .wo⟩, ⟨8, 0, .rw⟩]⟩,
  ⟨0xD00104, [], [⟨31, 31, .ro⟩, ⟨19, 8, .ro⟩, ⟨7, 0, .ro⟩]⟩,
  ⟨0xD00108, [], [⟨31, 29, .wo⟩, ⟨5, 0, .wo⟩]⟩,
  ⟨0xE00000, [(16, 0x40)], [⟨31, 31, .wo⟩, ⟨30, 30, .rw⟩]⟩,
  ⟨0xE00004, [(16, 0x40)], [⟨31, 29, .ro⟩, ⟨23, 20, .ro⟩, ⟨11, 0, .ro⟩]⟩,
  ⟨0xE00008, [(16, 0x40)], [⟨31, 24, .ro⟩, ⟨23, 16, .ro⟩, ⟨11, 0, .ro⟩]⟩,
  ⟨0xE0000C, [(16, 0x40)], [⟨31, 16, .ro⟩, ⟨15, 0, .ro⟩]⟩,
  ⟨0xE00010, [(16, 0x40)], [⟨31, 31, .ro⟩, ⟨28, 16, .ro⟩, ⟨12, 0, .ro⟩]⟩,
  ⟨0xE00014, [(16, 0x40)], [⟨31, 0, .ro⟩]⟩,
  ⟨0xE01000, [], [⟨31, 0, .rw⟩]⟩,
  ⟨0xF00000, [], [⟨31, 20, .rw⟩, ⟨15, 8, .rw⟩, ⟨4, 0, .ro⟩]⟩,
  ⟨0xF00004, [], [⟨31, 31, .ro⟩, ⟨30, 30, .ro⟩, ⟨29, 29, .ro⟩, ⟨28, 27, .ro⟩, ⟨26, 26, .ro⟩, ⟨23, 17, .ro⟩, ⟨16, 0, .ro⟩]⟩,
  ⟨0xF00008, [], [⟨31, 24, .ro⟩, ⟨23, 16, .ro⟩, ⟨15, 8, .ro⟩]⟩,
  ⟨0xF00010, [(2, 0x4)], [⟨31, 16, .ro⟩, ⟨15, 0, .ro⟩]⟩]

/-- Register tables, part 12. -/
def regTable12 : List RegDesc := [
  ⟨0xF00018, [(2, 0x4)], [⟨31, 16, .ro⟩, ⟨15, 0, .ro⟩]⟩,
  ⟨0xF00020, [], [⟨31, 16, .ro⟩, ⟨15, 0, .ro⟩]⟩,
  ⟨0xF00024, [], [⟨31, 31, .wo⟩, ⟨30, 16, .ro⟩, ⟨15, 0, .ro⟩]⟩,
  ⟨0xF00028, [], [⟨31, 16, .ro⟩, ⟨15, 0, .ro⟩]⟩,
  ⟨0xF00040, [], [⟨31, 28, .wo⟩]⟩,
  ⟨0xF00044, [], [⟨31, 24, .rw⟩, ⟨23, 0, .rw⟩]⟩,
  ⟨0xF00048, [], [⟨31, 0, .rw⟩]⟩,
  ⟨0xF0004C, [], [⟨31, 0, .rw⟩]⟩,
  ⟨0xF00050, [], [⟨27, 0, .rw⟩]⟩,
  ⟨0xF00054, [], [⟨31, 31, .ro⟩, ⟨7, 0, .ro⟩]⟩,
  ⟨0xF00060, [], [⟨3, 0, .rw⟩]⟩,
  ⟨0xF00064, [], [⟨31, 31, .ro⟩, ⟨30, 30, .ro⟩, ⟨29, 29, .ro⟩, ⟨6, 0, .ro⟩]⟩,
  ⟨0xF00068, [], [⟨31, 0, .ro⟩]⟩,
  ⟨0xF0006C, [], [⟨31, 0, .ro⟩]⟩,
  ⟨0xF00080, [], [⟨15, 0, .rw⟩]⟩,
  ⟨0x1000000, [], [⟨24, 16, .ro⟩, ⟨15, 0, .ro⟩]⟩,
  ⟨0x1000004, [], [⟨31, 0, .ro⟩]⟩,
  ⟨0x1000008, [], [⟨31, 0, .ro⟩]⟩,
  ⟨0x100000C, [], [⟨31, 0, .ro⟩]⟩,
  ⟨0x1000010, [], [⟨31, 0, .ro⟩]⟩]

/-- Register tables, part 13. -/
def regTable13 : List RegDesc := [
  ⟨0x1000014, [], [⟨31, 0, .ro⟩]⟩,
  ⟨0x1000020, [], [⟨0, 0, .wo⟩]⟩,
  ⟨0x1000024, [], [⟨31, 31, .ro⟩, ⟨7, 0, .ro⟩]⟩,
  ⟨0x1000030, [], [⟨5, 0, .rw⟩]⟩,
  ⟨0x1001000, [(10, 0x80)], [⟨31, 0, .rw⟩]⟩,
  ⟨0x1001004, [(10, 0x80)], [⟨31, 31, .ro⟩, ⟨30, 30, .ro⟩, ⟨23, 0, .ro⟩]⟩,
  ⟨0x1001040, [(10, 0x80), (16, 0x4)], [⟨31, 0, .ro⟩]⟩,
  ⟨0x1100000, [], [⟨9, 0, .rw⟩]⟩,
  ⟨0x1100004, [], [⟨31, 0, .ro⟩]⟩,
  ⟨0x1100008, [], [⟨31, 0, .rw⟩]⟩,
  ⟨0x110000C, [], [⟨31, 28, .wo⟩]⟩,
  ⟨0x1100010, [], [⟨31, 31, .ro⟩, ⟨7, 0, .ro⟩]⟩,
  ⟨0x1100020, [], [⟨31, 31, .ro⟩, ⟨30, 30, .ro⟩, ⟨5, 0, .ro⟩]⟩,
  ⟨0x1100024, [], [⟨31, 0, .ro⟩]⟩,
  ⟨0x1100028, [], [⟨31, 0, .ro⟩]⟩,
  ⟨0x110002C, [], [⟨7, 0, .ro⟩]⟩,
  ⟨0x1100030, [], [⟨31, 0, .ro⟩]⟩,
  ⟨0x1100034, [], [⟨31, 0, .ro⟩]⟩,
  ⟨0x1100038, [], [⟨31, 0, .ro⟩]⟩,
  ⟨0x1100040, [], [⟨31, 31, .wo⟩, ⟨27, 0, .rw⟩]⟩]

/-- Register tables, part 14. -/
def regTable14 : List RegDesc := [
  ⟨0x1100044, [], [⟨31, 31, .ro⟩, ⟨7, 0, .ro⟩]⟩,
  ⟨0x1100048, [], [⟨12, 0, .rw⟩]⟩,
  ⟨0x1100100, [(16, 0x4)], [⟨31, 0, .wo⟩]⟩,
  ⟨0x1100140, [(16, 0x4)], [⟨31, 0, .ro⟩]⟩,
  ⟨0x1100180, [(8, 0x4)], [⟨31, 0, .rw⟩]⟩,
  ⟨0x1200000, [], [⟨31, 31, .ro⟩, ⟨30, 30, .ro⟩, ⟨29, 29, .ro⟩, ⟨28, 28, .ro⟩, ⟨23, 16, .ro⟩, ⟨15, 8, .ro⟩]⟩,
  ⟨0x1200004, [], [⟨31, 31, .ro⟩, ⟨30, 30, .ro⟩, ⟨29, 28, .ro⟩, ⟨23, 16, .ro⟩, ⟨15, 8, .ro⟩, ⟨7, 0, .ro⟩]⟩,
  ⟨0x1200008, [], [⟨31, 0, .ro⟩]⟩,
  ⟨0x120000C, [], [⟨29, 24, .ro⟩, ⟨21, 16, .ro⟩, ⟨10, 8, .ro⟩, ⟨2, 0, .ro⟩]⟩,
  ⟨0x1200010, [], [⟨31, 0, .ro⟩]⟩,
  ⟨0x1200020, [], [⟨31, 28, .wo⟩]⟩,
  ⟨0x1200024, [], [⟨31, 31, .ro⟩, ⟨7, 0, .ro⟩]⟩,
  ⟨0x1200028, [], [⟨27, 0, .rw⟩]⟩,
  ⟨0x120002C, [], [⟨23, 0, .rw⟩]⟩,
  ⟨0x1200030, [], [⟨9, 0, .rw⟩]⟩,
  ⟨0x1200040, [(8, 0x4)], [⟨31, 0, .ro⟩]⟩,
  ⟨0x1200060, [(8, 0x4)], [⟨31, 0, .ro⟩]⟩,
  ⟨0x1200080, [], [⟨7, 0, .rw⟩]⟩,
  ⟨0x1300000, [], [⟨31, 31, .ro⟩, ⟨30, 30, .ro⟩, ⟨29, 29, .ro⟩, ⟨28, 28, .ro⟩, ⟨27, 27, .ro⟩, ⟨26, 26, .ro⟩, ⟨25, 25, .ro⟩, ⟨24, 24, .ro⟩, ⟨19, 16, .ro⟩, ⟨15, 0, .ro⟩]⟩,
  ⟨0x1300004, [], [⟨31, 31, .rw⟩, ⟨26, 16, .rw⟩, ⟨7, 0, .rw⟩]⟩]

/-- Register tables, part 15. -/
def regTable15 : List RegDesc := [
  ⟨0x1300008, [], [⟨26, 16, .ro⟩, ⟨10, 0, .ro⟩]⟩,
  ⟨0x130000C, [], [⟨29, 12, .rw⟩, ⟨7, 0, .rw⟩]⟩,
  ⟨0x1300010, [], [⟨31, 24, .wo⟩, ⟨8, 8, .wo⟩, ⟨7, 0, .ro⟩]⟩,
  ⟨0x1300014, [], [⟨31, 31, .ro⟩, ⟨23, 16, .rw⟩, ⟨9, 0, .ro⟩]⟩,
  ⟨0x1300018, [], [⟨23, 16, .rw⟩, ⟨7, 0, .ro⟩]⟩,
  ⟨0x130001C, [], [⟨31, 16, .ro⟩, ⟨15, 0, .ro⟩]⟩,
  ⟨0x1300020, [], [⟨15, 0, .rw⟩]⟩,
  ⟨0x1400000, [], [⟨31, 24, .wo⟩, ⟨11, 0, .rw⟩]⟩,
  ⟨0x1400004, [], [⟨31, 31, .ro⟩, ⟨23, 16, .ro⟩, ⟨15, 8, .ro⟩, ⟨7, 0, .ro⟩]⟩,
  ⟨0x1400010, [], [⟨2, 0, .rw⟩]⟩,
  ⟨0x1400014, [], [⟨31, 31, .rw⟩, ⟨27, 24, .rw⟩, ⟨15, 0, .rw⟩]⟩,
  ⟨0x1400018, [], [⟨31, 16, .rw⟩, ⟨15, 0, .rw⟩]⟩,
  ⟨0x140001C, [], [⟨31, 31, .ro⟩, ⟨27, 16, .ro⟩, ⟨15, 0, .ro⟩]⟩,
  ⟨0x1400020, [], [⟨5, 0, .rw⟩]⟩,
  ⟨0x90, [], [⟨31, 31, .wo⟩, ⟨30, 16, .ro⟩, ⟨15, 0, .ro⟩]⟩,
  ⟨0x80, [], [⟨31, 31, .ro⟩, ⟨4, 0, .ro⟩]⟩]

/-- Every register table of the spec. -/
def regTable : List RegDesc :=
  regTable0 ++ regTable1 ++ regTable2 ++ regTable3 ++ regTable4 ++ regTable5 ++ regTable6 ++ regTable7 ++ regTable8 ++ regTable9 ++ regTable10 ++ regTable11 ++ regTable12 ++ regTable13 ++ regTable14 ++ regTable15

/-- Whether an address is one of a register table's, index by index. -/
def inDims : Nat → List (Nat × Nat) → Bool
  | off, [] => off == 0
  | off, (n, st) :: r => (List.range n).any fun i => decide (st * i ≤ off) && inDims (off - st * i) r

/-- The same for a table of one index or none, by one division. -/
def descHas (d : RegDesc) (a : Nat) : Bool :=
  match d.dims with
  | [] => a == d.base
  | [(n, st)] => decide (d.base ≤ a) && (a - d.base) % st == 0 && decide ((a - d.base) / st < n)
  | ds => decide (d.base ≤ a) && inDims (a - d.base) ds

/-- The register table that lists an address. -/
def regDesc? (a : Nat) : Option RegDesc := regTable.find? fun d => descHas d a

end Sys2Proof.Machine
end

