-- ==== Sys2Proof/Config.lean ====
section
/-!
DEFINITION. What the spec leaves open and what it names without giving: free values (a constant without a body, so no
proof can see what it is), and the device's random source.
-/
namespace Sys2Proof.Config

/-- The value of the i-th result that the spec does not state, as a 64-bit word (log entry 2). -/
opaque freeValue : Nat → BitVec 64

/-- The i-th draw of the device's random source (R487, R531; log entry 2). -/
opaque randomDraw : Nat → BitVec 64


/-- A channel's sample k at a shifted instant, from the shift in 2^-24 cycle and the samples of the crossing without shift: the
resampling filter, which the spec does not give (R75; log entry 115). -/
opaque resample : Int → List Int → Nat → Int

/-- The DAC samples of a PLC frame by band, modulation code, tone map and PSDU: preamble, frame control header, scrambler, coding,
interleaver, tone mapping, cyclic prefix and windowing of IEEE 1901.2, whose text the spec names and does not give (R100; log entry
70). -/
opaque plcSamples : Nat → Nat → Nat → List Byte → List Int

/-- The taps of a crosstalk canceller, in 2^-16, after one more frame of its source, from the taps before, the DAC samples sent and the
samples received meanwhile: the adaptation, whose arithmetic the spec does not give (R116; log entry 135). -/
opaque adaptTaps : List Int → List Int → List Int → List Int

/-- Bytes of a map record of the Hold, which the spec does not give (R450, R463; log entry 127). -/
opaque mapRecordBytes : Nat

end Sys2Proof.Config
end

