-- ==== Sys2Proof/Machine/Blocks.lean ====
section
/-!
DEFINITION. The state that each block keeps beside its registers, one structure a block, as plain data.
-/
namespace Sys2Proof.Machine

/-- The clocks (R59, R62): local time since t0, the time-stamp unit in ns of PTP time, the servo's fractional part in
10^-9 ns / 64, the rate correction in force in 2^-8 ppb (R230), the epoch. -/
structure Clock where
  mono : Nat := 0
  ptp : Nat := 0
  acc : Int := 0
  adj : Int := 0
  epoch : Nat := 0
  deriving DecidableEq, Repr

/-- The tracking of one of L2 and L3 (R49): the last offsets, L1 crossings without it, L1 periods with it, crossings out
of range and in range, whether it came in this L1 period. -/
structure PhaseTrack where
  offs : List Nat := []
  missing : Nat := 0
  present : Nat := 0
  out : Nat := 0
  came : Bool := false
  deriving DecidableEq, Repr

/-- The crossing counter (R44 to R58). -/
structure Xing where
  /-- Crossing number. -/
  num : Nat := 0
  /-- Whether a first number has been taken (R46). -/
  valid : Bool := false
  /-- Local time at which the present crossing began (its placed instant, R50). -/
  placed : Nat := 0
  /-- The last valid L1 periods, newest first, at most 8 (R48). -/
  periods : List Nat := []
  /-- Local time of the last L1 rising crossing. -/
  lastEdge : Option Nat := none
  /-- XING_PERIOD as it stood when coasting began (R50); 0 while none is held. -/
  held : Nat := 0
  /-- Consecutive valid L1 periods while coasting (R51). -/
  goodRun : Nat := 0
  /-- Real crossings still held (R52 case 2). -/
  hold : Nat := 0
  /-- FRACTION that the present number has already reached when a reset interrupted it (R44): it never falls below. -/
  floor : Nat := 0
  /-- Crossing numbers skipped by the last renumbering: from, to (R52 case 1). -/
  skipFrom : Nat := 0
  skipTo : Nat := 0
  anchor : Option Anchor := none
  anchorAge : Nat := 0
  /-- Whether the anchor in use has not been checked yet (R55, R56). -/
  anchorFresh : Bool := false
  /-- Residuals gathered while learning (R55). -/
  residuals : List Int := []
  /-- Consecutive consistent crossings that disagree, and consecutive residuals beyond 8,192 (R56). -/
  disagree : Nat := 0
  far : Nat := 0
  l2 : PhaseTrack := {}
  l3 : PhaseTrack := {}
  inRange : Nat := 0
  /-- Pending leap (R58): PTP instant in ns and new offset. -/
  leap : Option (Nat × Int) := none
  /-- The instants of the last 257 crossings in local time, which no step of PTP time moves, newest first (R53). -/
  instants : List Nat := []
  /-- Clock-trust evaluation (R69, R70): whether start-up trust was evaluated; the last step was a backstep. -/
  trustOk : Bool := false
  rtcValid : Bool := false
  deriving DecidableEq, Repr

/-- The always-on domain (R525). -/
structure AlwaysOn where
  valid : Bool := false
  rtc : Nat := 0
  crossing : Nat := 0
  pendingBreak : Bool := false
  sealedCounter : Nat := 0
  powerCycles : Nat := 0
  opSeconds : Nat := 0
  reservation : Nat := 0
  cause : Nat := 0x01
  flushDone : Bool := false
  /-- Last SYNCED instant (R69) in PTP ns; coasted ns and counted crossings since it. -/
  syncedPtp : Option Nat := none
  coastNs : Nat := 0
  counted : Nat := 0
  /-- At the loss of power: ns since the placed instant of the present crossing, the held period and FRACTION (R44, R50, R525). -/
  since : Nat := 0
  held : Nat := 0
  frac : Nat := 0
  /-- A break that has been counted and whose metrological record waits for the mount (log type; 0 none; R90). -/
  breakLog : Nat := 0
  /-- The loop has been seen open and no seal close has watched it since (R87). -/
  loopOpen : Bool := false
  deriving DecidableEq, Repr

/-- The eFuses that the model holds; values at manufacture are a DESIGN CHOICE (log entry 5). -/
structure Fuses where
  /-- SYS_DEVICE_ID.VARIANT: 1 the CRN-8800-H, 2 the CRN-8800-C (R1). -/
  variant : Nat := 1
  breaks : Nat := 0
  everClosed : Bool := false
  epoch : Nat := 0
  fingerprint : Nat := 0
  eui : Nat := 0
  identity : Bool := false
  openFloor : Nat := 0
  sealedFloor : Nat := 0
  openAuth : Nat := 0
  sealedAuth : Nat := 0
  authHashes : SMap (List Byte) := []
  /-- The device root key (R482) and the chip transport key (R497). -/
  rootKey : List Byte := []
  transport : List Byte := []
  deriving DecidableEq, Repr

/-- The Wharf (R389 to R405). -/
structure Wharf where
  queues : SMap Queue := []
  pages : SMap Page := []
  deriving DecidableEq, Repr

/-- The Ferryman (R406 to R422): contexts, ready lists by priority, cores, event latches, coalescing episodes, the
rotation of each pool, the waiting order, blocked queues, the class-0 dispatch times. -/
structure Ferry where
  threads : SMap Thread := []
  ready : SMap (List Nat) := []
  cores : SMap CoreSt := []
  latches : List Nat := []
  episodes : List Nat := []
  rot : SMap Nat := []
  nextSeq : Nat := 0
  blocked : List Nat := []
  /-- Local time at which a class-0 thread's awaited event was asserted, by thread. -/
  asserted : SMap (Option Nat) := []
  deriving DecidableEq, Repr

/-- What waits for a transaction entry (R280): an Oarsman's TXT, or the planner of a cell. -/
inductive TxnWaiter where
  | instr (n : Nat)
  | planner (cell : Nat)
  | work (key issuer : Nat)
  deriving DecidableEq, Repr

/-- The issuer that waits. -/
def TxnWaiter.issuer : TxnWaiter → Nat
  | .instr n => n
  | .planner c => if c < 3 then 3 else c + 1
  | .work _ i => i

/-- A transaction entry (R279). -/
structure Txn where
  kind : Nat := 5
  issuer : Nat := 0
  flow : Nat := 0
  slot : Option Nat := none
  started : Stamp := {}
  deadline : Nat := 0
  data : List Byte := List.replicate 28 0
  deriving DecidableEq, Repr

/-- The transaction table (R279, R280): entries in use, waiting issuers in order, entries granted to work that waited (0 to 4 a cell's
planner, 8 and 9 a port's cover, from 16 on a reassembly). -/
structure Txns where
  used : SMap (Option Txn) := []
  waiting : List TxnWaiter := []
  granted : SMap (Option Nat) := []
  deriving DecidableEq, Repr

/-- Commit groups (R344 to R366). `durJseq` is the last durable JSEQ, `next` the next to assign. -/
structure Commit where
  groups : SMap Group := []
  next : Nat := 1
  durJseq : Nat := 0
  journal : List JRec := []
  torn : List Nat := []
  /-- Groups aborted by power whose issuers wait for the report of R363. -/
  report : List Nat := []
  deriving DecidableEq, Repr

/-- NAND work in the order it arose, and the pages that the Hold's buffers gather (R453, R455). -/
structure Nand where
  work : List NandWork := []
  pages : List PageBuf := []
  deriving DecidableEq, Repr

/-- The Hold (R443 to R468): physical blocks, the block map by region × 2^32 + logical block, merges, discards, pages
that read poisoned, map records not yet durable, the running HLD_CMD operation, flush figures. -/
structure Hold where
  blocks : SMap Block := []
  map : SMap (Option Nat) := []
  merges : List Merge := []
  discards : List Discard := []
  poisonPages : List Nat := []
  mapPending : Nat := 0
  mapSinceImage : Nat := 0
  flushUsed : Nat := 0
  flushLog : List FlushRec := []
  placedJseq : Nat := 0
  progSeq : Nat := 0
  /-- OP, address, length, destination and interface window of the operation that runs. -/
  op : Option (Nat × Nat × Nat × Nat × Nat) := none

  flushStart : Nat := 0
  lifeWarned : Bool := false
  erases : SMap Nat := []
  endPcycle : Nat := 0
  endOpsec : Nat := 0
  endJseq : Nat := 0
  deriving DecidableEq, Repr

/-- The Logbook (R469 to R478): the buffer, the ring in the Hold, FIRST, NEXT, the lost count of the present run. -/
structure Logbook where
  buf : List LogRec := []
  ring : List LogRec := []
  first : Nat := 0
  next : Nat := 0
  lostRun : Nat := 0
  lostAt : Nat := 0
  /-- A record was discarded since the last one entered (R469 FLAGS bit 2). -/
  lostJust : Bool := false
  keptUsed : Bool := false
  over192 : Bool := false
  claimed : Nat := 0
  clearBusy : Bool := false
  clearWindow : Nat := 0
  clearWaits : Bool := false
  /-- FIRST before a clear that is sealed and not yet durable (R356, R476). -/
  firstWas : Option Nat := none
  deriving DecidableEq, Repr

/-- The site metrology and the seal (R74 to R99): the active calibration by register address, the copy a commit waits
with, energy accumulators in mW·ns, instantaneous quantities, the latched counters, the last quarter cycle of voltages,
a close request under watch, the "calibration changed" flag of the open interval, continuity (R93). -/
structure Metrology where
  active : SMap Word := []
  copy : Option (SMap Word) := none
  impA : Nat := 0
  expA : Nat := 0
  impR : Nat := 0
  expR : Nat := 0
  inst : SMap Int := []
  latched : List Nat := []
  latchStamp : Stamp := {}
  lastV : List (List Int) := []
  closing : Bool := false
  calChanged : Bool := false
  notProven : Bool := false
  /-- Whether the open quarter was uncalibrated at any time (R94, R329). -/
  uncal : Bool := false
  /-- Before the mount: records of the metrological log that wait (type, detail, bytes 8 to 47) and sealed records that wait (R95). -/
  waitLog : List (Nat × Nat × List Byte) := []
  waitStore : List (Nat × Nat × List Nat) := []
  deriving DecidableEq, Repr

/-- One direction of a link (R150): whether a suggestion has come, the current code, consecutive higher suggestions. -/
structure DirLink where
  known : Bool := false
  code : Nat := 0
  up : Nat := 0
  tone : Nat := 0
  deriving DecidableEq, Repr

/-- An endpoint that has joined a cell: table slot, identity, capabilities, place in the tree, route, bookkeeping. -/
structure Node where
  slot : Nat := 0
  eui : Nat := 0
  relay : Bool := false
  maxMod : Nat := 0
  parent : Nat := 0
  depth : Nat := 1
  role : Bool := false
  branch : Nat := 0
  route : List Nat := []
  unreached : Nat := 0
  polled : Nat := 0
  probed : Nat := 0
  snapDone : Nat := 0
  keyAcked : Bool := false
  routeDue : Bool := false
  leaving : Bool := false
  lsrHeld : Nat := 0
  deriving DecidableEq, Repr

/-- A command or route set that waits for a cell (R143): the endpoint, command type and payload, launch deadline as a
crossing number, command sequence; a ROUTE_SET has its 8 body bytes in the payload. -/
structure CmdJob where
  addr : Nat
  typ : Nat := 0
  payload : List Byte := []
  deadline : Option Nat := none
  routeSet : Bool := false
  leave : Bool := false
  deriving DecidableEq, Repr

/-- An exchange in progress (R143, R144): its KIND (1 to 6 of POLL, 7 route set), endpoint, the request's fields, the
planned slots, retries and their limit (R170), the links that failed, the drive-limited transmissions, whether an answer came that is
to be acknowledged, and the FSEQ of the frame that ends it, an ACK or a JOIN_ANSWER. -/
structure Exchange where
  kind : Nat := 1
  addr : Nat := 0
  route : List Nat := []
  fseq : Nat := 0
  cseq : Nat := 0
  snap : Nat := 0
  offset : Nat := 0
  job : Option CmdJob := none
  txn : Nat := 0
  iseq : Nat := 0
  start : Nat := 0
  nextDown : Nat := 0
  retries : Nat := 0
  limit : Nat := 0
  fails : List (Nat × Nat) := []
  failHop : Option (Nat × Nat) := none
  limited : Nat := 0
  acking : Bool := false
  ack : Option Nat := none
  deriving DecidableEq, Repr

/-- A frame of the chip that waits for its slot (R128, R131): slot, modulation code, tone map, flow tag, PSDU. -/
structure PlcFrame where
  slot : Nat
  modc : Nat
  tone : Nat
  flow : Nat
  psdu : List Byte
  deriving DecidableEq, Repr

/-- A cell's scheduler (R125 to R170): 0 to 2 PLC cells, 3 and 4 the radio ports. `ready` holds the frames whose slot lies ahead, in the
order of their slots, `beaconAt` the crossing of the superframe whose beacon or TIME was built last, with its FSEQ, `keySince` the PTP
second in which the first command of a key change was sent. -/
structure Cell where
  nodes : SMap (Option Node) := []
  links : SMap DirLink := []
  pens : SMap Nat := []
  xch : List Exchange := []
  fseq : Nat := 0
  nextSlot : Nat := 0
  ready : List PlcFrame := []
  beaconAt : Option Nat := none
  beaconSeq : Nat := 0
  cmds : List CmdJob := []
  invited : SMap Nat := []
  polls : Nat := 0
  c0Cur : Option (List Byte) := none
  c0Left : Nat := 0
  cseq : Nat := 0
  keyGen : Nat := 0
  keyNew : Option (Nat × List Byte) := none
  keyOwn : SMap (List Byte) := []
  keySince : Option Nat := none
  suspended : Bool := false
  renum : Bool := false
  cfg : Word := 0
  waiting : Bool := false
  deriving DecidableEq, Repr

/-- A PLC frame in transmission on one path (R110 to R120), with the settings that stood at its preamble (R123): the attenuation
without limiter steps, the steps, the limits of the path's current, whether crosstalk cancellation was on. -/
structure TxJob where
  q : Nat := 0
  flow : Nat := 0
  modc : Nat := 0
  phases : List Nat := []
  base : Nat := 0
  steps : Nat := 0
  maxStep : Nat := 0
  limit : Nat := 0
  trip : Nat := 0
  xtc : Bool := false
  limited : Bool := false
  rep : Bool := false
  stamp : Stamp := {}
  psdu : List Byte := []
  deriving DecidableEq, Repr

/-- A crosstalk canceller (R116): its 64 taps in 2^-16, whether it is converged. -/
structure Canceller where
  taps : List Int := []
  conv : Bool := false
  deriving DecidableEq, Repr

/-- A transmit path (R110, R121): the frame it sends, the crossing of its trip. -/
structure PlcPath where
  job : Option TxJob := none
  tripAt : Option Nat := none
  deriving DecidableEq, Repr

/-- PLC: paths by phase, crosstalk cancellers by ordered phase pair (three times the receiving phase plus the sending one), cells, the fixed snapshot crossing with its boundary (UTC seconds) and LOCAL flag, the last 96
snapshot crossings with their boundaries, newest first. -/
structure Plc where
  paths : SMap PlcPath := []
  xtc : SMap Canceller := []
  cells : SMap Cell := []
  snapN : Nat := 0
  snapB : Nat := 0
  snapLocal : Bool := false
  snaps : List (Nat × Nat) := []
  deriving DecidableEq, Repr

/-- The wake model of a sleepy endpoint (R189): next sample instant in ns, interval in µs, poll code, drift in ppm, last
resynchronisation in ns, covers that failed since, each of which doubles the guard (R192). -/
structure Sleepy where
  next : Nat := 0
  wake : Nat := 0
  poll : Nat := 0
  drift : Nat := 0
  sync : Nat := 0
  tries : Nat := 0
  deriving DecidableEq, Repr

/-- A radio endpoint beside its cell node: the router above it, capability, whether it is provisional, whether its association response
has been delivered (R184), wake model, whether a unicast TIME is due (R197). -/
structure RNode where
  parent : Nat := 0
  router : Bool := false
  provisional : Bool := false
  answered : Bool := false
  sleepy : Option Sleepy := none
  timeDue : Bool := false
  /-- Data requests received (R253). -/
  asked : Nat := 0
  /-- The endpoint key and frame counter of a refused endpoint until it is out of the cell (R275). -/
  away : Option (List Byte × Nat) := none
  deriving DecidableEq, Repr

/-- A radio frame in transmission: queue, flow tag, destination, kind of frame and message TYPE, sequence, the indirect item's ISEQ,
airtime in µs, the endpoint that the message is for, whether the duty budget deferred it, acknowledgement wanted, a cover transmission,
stamp, EUI-64 of an association response, bin boundaries since it was booked, what leads it, its bytes. -/
structure RadJob where
  q : Nat := 0
  flow : Nat := 0
  dst : Nat := 0
  kind : Nat := 0
  typ : Nat := 0
  seq : Nat := 0
  iseq : Option Nat := none
  air : Nat := 0
  dest : Nat := 0
  deferred : Bool := false
  ackReq : Bool := false
  cover : Bool := false
  stamp : Stamp := {}
  ext : Nat := 0
  bin : Nat := 0
  lead : List Output := []
  bytes : List Byte := []
  deriving DecidableEq, Repr

/-- A planned cover transmission (R190): endpoint, start in ns, length in µs, whole interval, transaction entry, the item's ISEQ, whether
the duty budget deferred it. -/
structure Cover where
  addr : Nat
  start : Nat
  len : Nat
  whole : Bool
  txn : Nat
  iseq : Nat := 0
  deferred : Bool := false
  deriving DecidableEq, Repr

/-- A radio port (R171 to R200). `marks` holds the frames without an item that the duty budget deferred (R194), `ext` the association responses that wait: EUI-64, short address, status; `budget` and `dwell`
the settings of the present bin (R200). -/
structure RadPort where
  nodes : SMap (Option RNode) := []
  force : List Nat := []
  ext : List (Nat × Nat × Nat) := []
  bins : List Nat := []
  job : Option RadJob := none
  seq : Nat := 0
  cellFcnt : Nat := 0
  marks : List (Nat × Nat) := []
  cover : Option Cover := none
  budget : Word := 0
  dwell : Word := 0
  deriving DecidableEq, Repr

/-- The radio ports. -/
structure Radio where
  ports : SMap RadPort := []
  deriving DecidableEq, Repr

/-- An Ethernet frame in transmission: queue, bytes, stamp. -/
structure EthJob where
  q : Nat := 0
  flow : Nat := 0
  bytes : List Byte := []
  stamp : Stamp := {}
  deriving DecidableEq, Repr

/-- What a PTP port measures against its master (R204, R209): the two-step Sync that waits for its Follow_Up (sequence, receive
stamp in ns, correction); the last Sync's t2 - t1 less corrections in 2^-16 ns; the transmit stamp of the last Delay_Req; the mean
path delay of the E2E mechanism in 2^-16 ns. -/
structure PtpPort where
  wait : Option (Nat × Nat × Int) := none
  span : Int := 0
  t3 : Option Nat := none
  path : Int := 0
  deriving DecidableEq, Repr

/-- Ethernet and PTP (R201 to R230): frames in transmission by port, small offsets in a row, the selected master, the PTP settings
that a port initialisation took, sequence numbers by port, whether Oarsman 6 has started PTP, frames that a transparent clock
forwards by egress port with their ingress ns, the times of a peer delay measurement by port (t1, t2, t4, correction), what each
port measures against its master. -/
structure Ether where
  jobs : SMap (Option EthJob) := []
  lockRun : Nat := 0
  master : Nat := 0
  ptpOn : Bool := false
  cfg : Word := 0
  seqs : SMap Nat := []
  fwd : List (Nat × List Byte × Nat) := []
  pdel : SMap (List Nat) := []
  slaves : SMap PtpPort := []
  deriving DecidableEq, Repr

/-- A reliable message not yet acknowledged (R224): sequence, TYPE, body, timer in ms, whether sent again, acknowledged in
ACKMAP, the batch it carries. -/
structure OutMsg where
  seq : Nat := 0
  typ : Nat := 0
  body : List Byte := []
  timer : Nat := 200
  mapped : Bool := false
  batch : Option Nat := none
  deriving DecidableEq, Repr

/-- A Gangway peer (R216 to R225). -/
structure Peer where
  up : Bool := false
  eui : Nat := 0
  keygen : Nat := 0
  domain : Nat := 0
  cells : List Nat := []
  relNext : Nat := 1
  unrelNext : Nat := 1
  ack : Nat := 0
  map : Nat := 0
  unrelLast : Option Nat := none
  out : List OutMsg := []
  waiting : List (Nat × List Byte) := []
  heard : Nat := 0
  ackDue : Bool := false
  retrans : Nat := 0
  tagFail : Nat := 0
  dup : Nat := 0
  /-- BATCH messages accepted and not yet part of a whole batch: SEQ, OFFSET, TOTAL, bytes. -/
  parts : List (Nat × Nat × Nat × List Byte) := []
  bTop : Nat := 0
  bWin : Nat := 0
  /-- The SEQ of the message that completed an unsound batch, which stays unacknowledged (R259). -/
  badSeq : Option Nat := none
  deriving DecidableEq, Repr

/-- The Gangway: peers by sender number (0 the hub, 0xFFFF the head end), the state of this chip's ATTACH (0 idle, 1 sent,
2 refused or given up), the last accepted anchor's number, the hub's joined count. -/
structure Gangway where
  peers : SMap Peer := []
  attach : Nat := 0
  lastAnchor : Option Nat := none
  hubJoined : Nat := 0
  chip : Nat := 0xFFFE
  discards : Nat := 0
  deriving DecidableEq, Repr

/-- A record in a validation buffer (R240, R241): its bytes, receive stamp, cell, sender address, table slot, signal codes,
whether it came in a cell batch with the cell's verdict, the marks of stage 3, the group it waits in, how far it is
(1 waits for its flow, 2 waits for room or a group, 3 staged), the verdict of a rejected one whose evidence entry waits, whether its
buffer words carry poison. -/
structure VRec where
  bytes : List Byte := []
  lsr : Bool := false
  stamp : Stamp := {}
  cell : Nat := 0
  addr : Nat := 0
  slot : Option Nat := none
  snr : List Nat := []
  fromBatch : Option Nat := none
  mark : Nat := 0
  group : Option Nat := none
  stage : Nat := 0
  rejected : Option Nat := none
  poison : Bool := false
  /-- Its place in the order in which records took their buffers (R243), and the radio endpoint's turn in which it came (R253). -/
  ord : Nat := 0
  turn : Nat := 0
  /-- The phase byte that it gives its context, whether that is a new adoption, whether it is undecided for the fourth time (R158). -/
  phase : Option (Nat × Bool × Bool) := none
  deriving DecidableEq, Repr

/-- A reassembly of a session record (R238): cell, address, total, bytes held, place, transaction entry. -/
structure Reasm where
  cell : Nat := 0
  addr : Nat := 0
  total : Nat := 0
  bytes : List Byte := []
  stamp : Stamp := {}
  txn : Nat := 0
  deriving DecidableEq, Repr

/-- An evidence batch (R255 to R258): entries' bytes, count, opening stamp, FLAGS and closing time, BSEQ once signed, the
message bytes, messages acknowledged. -/
structure Batch where
  entries : List Byte := []
  count : Nat := 0
  openStamp : Stamp := {}
  flags : Nat := 0
  closeNs : Nat := 0
  bseq : Nat := 0
  idx : Nat := 0
  bytes : List Byte := []
  deriving DecidableEq, Repr

/-- The validation pipeline (R240 to R264). -/
structure Valid where
  recs : SMap (Option VRec) := []
  order : List Nat := []
  group : Option Nat := none
  members : List Nat := []
  /-- Records staged in the open group, rejected ones too; its GROUP_WAIT in µs, taken at its opening, and the monotonic ns of that (R251,
  R264). -/
  staged : Nat := 0
  groupWait : Nat := 0
  groupAt : Nat := 0
  /-- Evidence entries of rejected records that wait for the next group (R262). -/
  held : List (List Byte) := []
  arrivals : Nat := 0
  pend : List (List Byte) := []
  vcnt : SMap Nat := []
  reasm : List Reasm := []
  /-- First segments that wait for a transaction entry (R280). -/
  segs : List Reasm := []
  /-- Cell-batch entries that wait for a place (R260). -/
  entries : List VRec := []
  batch : Batch := {}
  closed : List Batch := []
  signed : List Batch := []
  bseq : Nat := 0
  /-- The oldest closed batch's signature had started when a power warning began (R488). -/
  signing : Bool := false
  fullSeen : Bool := false
  reasmSeen : Bool := false
  groupSeen : Bool := false
  limitSeen : Bool := false
  deriving DecidableEq, Repr

/-- An entry of the hot cache (R270). -/
structure CacheE where
  slot : Nat
  ref : Bool
  dirty : Bool
  deriving DecidableEq, Repr

/-- The endpoint table beside the contexts (R265 to R278): the hot cache by entry, the clock hand, how many entries were
ever filled, a rewrap that runs (the endpoints left), when an EUI was last reported for a full hub. -/
structure EptTable where
  cache : SMap (Option CacheE) := []
  hand : Nat := 0
  rewrap : Option (List Nat) := none
  reported : SMap Nat := []
  /-- Whether staging words 2 to 11 read 0 (R272). -/
  hideKey : Bool := false
  /-- A table operation that waits for its endpoint's flow tag (R273): OP and index. -/
  waitOp : Option (Nat × Nat) := none
  deriving DecidableEq, Repr

/-- An endpoint's balance record (R287), by field; slots of the 96 quarter-hours by number: STATE (1 real, 2 estimated, 3
estimate stands) and REG. `unc` and `selfFix` are the slots whose reading carried STATUS bit 3, or a self-fixed N (R292, R293). -/
structure BRec where
  ovr : Nat := 0xFFFF
  node : Nat := 0xFFFF
  since : Nat := 0
  qNew : Nat := 0
  mean : Int := 0
  meanValid : Bool := false
  st : SMap Nat := []
  reg : SMap Nat := []
  bypAlarm : Bool := false
  phAlarm : Bool := false
  bypHits : Nat := 0
  phHits : Nat := 0
  corr : Nat := 0
  slope : Int := 0
  bypPm : Nat := 0
  samples : Nat := 0
  unc : List Nat := []
  selfFix : List Nat := []
  deriving DecidableEq, Repr

/-- A node's state (R291 to R296): histories and active alarms by class, the last result, complete residuals in Wh by quarter
index. -/
structure BNode where
  hist : SMap Nat := []
  alarms : Nat := 0
  rflags : Nat := 0
  ratio : Int := 0
  residual : Int := 0
  res : List (Nat × Int) := []
  deriving DecidableEq, Repr

/-- What a node passes up and reports (R291): its input to the parent, whether that is its own C with its loss, C, the estimated part,
members, estimated members, whether a self-fixed reading is among them. -/
structure NodeSum where
  input : Int := 0
  own : Bool := true
  c : Int := 0
  est : Int := 0
  members : Nat := 0
  ests : Nat := 0
  selfFix : Bool := false
  deriving DecidableEq, Repr

/-- An evaluation that runs (R289 to R294): the snapshot crossing, its boundary, quarter, crossings since the snapshot before, that
snapshot, whether a ride-through lies behind it, the nodes still to come, the stored sums of those done, and the settings that it
began with (R299). -/
structure EvalRun where
  cross : Nat := 0
  bt : Nat := 0
  q : Nat := 0
  delta : Nat := 0
  prev : Option Nat := none
  ride : Bool := false
  rest : List Nat := []
  sums : SMap NodeSum := []
  cfg : SMap Word := []
  deriving DecidableEq, Repr

/-- A checkpoint of the balance engine (R294): the JSEQ that completes it, the newest quarter evaluated, records and node states. -/
structure Ckpt where
  jseq : Nat := 0
  q : Nat := 0
  recs : SMap BRec := []
  nodes : SMap BNode := []
  deriving DecidableEq, Repr

/-- The balance engine (R283 to R299): records by context slot, nodes, the site's net import in mWh at latched snapshots, the
evaluation that runs, the snapshots whose evaluation waits with the stamp of their deadline, evaluations since a checkpoint, the
newest checkpoint, the site record's sequence. -/
structure Balance where
  recs : SMap BRec := []
  nodes : SMap BNode := []
  site : List (Nat × Int) := []
  run : Option EvalRun := none
  due : List (Nat × Stamp) := []
  evals : Nat := 0
  ckRecs : SMap BRec := []
  ckNodes : SMap BNode := []
  ckQ : Nat := 0
  /-- A checkpoint on its way to the Hold: it counts once the journal is durable up to its JSEQ (R294). -/
  ckNext : Option Ckpt := none
  /-- The newest quarter index evaluated; it outlives a reset with the checkpoint (R288, R294). -/
  evalQ : Nat := 0
  siteSeq : Nat := 0
  deriving DecidableEq, Repr

/-- The tariff engine beside its stored calendars (R300 to R317): passive images being built by group (none being built: no
bytes), groups whose activation the boundary group in force has fixed, the last rate and daylight time of each group's active
calendar, groups whose active calendar was lost (R309). -/
structure Tariff where
  building : SMap (List Byte) := []
  fixedAct : List Nat := []
  cur : SMap (Option (Nat × Bool)) := []
  lost : List Nat := []
  deriving DecidableEq, Repr

/-- What pre-staging fixes of a boundary group (R322, R323): by group the calendar rate and the default rate of the closing quarter,
what its period close carries, the index of the last close, the provisional rate at the boundary. -/
structure BPlan where
  rates : List Nat := []
  deflt : List Nat := []
  closes : List Nat := []
  index : List Nat := []
  next : List Nat := []
  deriving DecidableEq, Repr

/-- A boundary group that is pre-staged or abandoned (R322, R337): group number, boundary in UTC seconds, crossing N, groups
whose calendar it activates, the JSEQ of its intent, what is fixed of its actions. -/
structure Staged where
  grp : Nat := 0
  b : Nat := 0
  n : Nat := 0
  acts : List Nat := []
  intent : Nat := 0
  plan : BPlan := {}
  deriving DecidableEq, Repr

/-- A session record that waits for its quarters (R334): context slot, index, tariff group, EUI-64 and the record's bytes. -/
structure Sess where
  slot : Nat := 0
  index : Nat := 0
  tgroup : Nat := 0
  eui : Nat := 0
  bytes : List Byte := []
  deriving DecidableEq, Repr

/-- Billing beside its stored sets and records (R318 to R343): whether a quarter is open, the group pre-staged, one abandoned by
the warning, whether trust failed or the seal was open in the open quarter, QFLAGS gathered for it, status bits for the site's
next entry, the site's counters that a restart begins with (R337), a catch-up that runs (crossing, UTC seconds, restart), whether the first
crossing after a backstep is still to come and whether passed boundaries are, the latched set and its crossing, the sets that
have not closed the last period, whether a restart waits for its catch-up. -/
structure Billing where
  isOpen : Bool := false
  staged : Option Staged := none
  left : Option Staged := none
  trustBad : Bool := true
  sealOpen : Bool := false
  qflags : Nat := 0
  siteBits : Nat := 0
  base : List Nat := []
  wantS : Bool := false
  catchup : Option (Nat × Nat × Bool) := none
  latchN : Nat := 0
  latch : List Nat := []
  openSets : List Nat := []
  restart : Bool := false
  deriving DecidableEq, Repr

/-- The token store beside its stored window (R370 to R376): accounts that a group not yet durable changes, with its JSEQ;
whether a lockout is in force. -/
structure Tokens where
  busy : List (Nat × Nat) := []
  locked : Bool := false
  deriving DecidableEq, Repr

/-- A pixel's drive (R383): target level, previous level, overdrive frames left. -/
structure Pixel where
  target : Nat := 0
  prev : Nat := 0
  od : Nat := 0
  shown : Nat := 0
  deriving DecidableEq, Repr

/-- The panel (R377 to R388): open page and sealed page by pixel, the pages as they stood when HOLD was set, each pixel's drive,
the band of the next frame, the last reading of the on-die sensor, the frames left of a discharge (none: no discharge), whether the power
warning stopped the keypad. -/
structure Panel where
  opn : SMap Nat := []
  sld : SMap Nat := []
  held : Option (SMap Nat × SMap Nat) := none
  drive : SMap Pixel := []
  band : Nat := 0
  sensor : Option Nat := none
  discharge : Option Nat := none
  stopped : Bool := false
  deriving DecidableEq, Repr

/-- A key slot (R479): attribute word and key bytes. -/
structure Slot where
  attr : Word := 0
  key : List Byte := []
  deriving DecidableEq, Repr

/-- The key block (R479 to R493): slots, staged words by window × 16 + k, the next signing index, the first block not
reserved (R488), whether the identity key or a tree is being made and the seeds drawn, the epoch warning given, a
statement being signed (address, bytes 0 to 487). -/
structure Keys where
  slots : SMap Slot := []
  staged : SMap Word := []
  next : Nat := 0
  reserved : Nat := 0
  generating : Option (List Byte) := none
  treeWait : Bool := false
  lowSeen : Bool := false
  attest : Option (Nat × List Byte) := none
  /-- Windows whose slot operation waits for its record to be durable: window, JSEQ (R483). -/
  waits : List (Nat × Nat) := []
  deriving DecidableEq, Repr

/-- The Manifest loader (R494 to R507): copies A and B of the boot NOR, the one in force (0 A, 1 B; none in rescue), its
trial's start in ns, a staged copy being written, an apply that waits for its boundary and the window that asked. -/
structure Mft where
  a : MCopy := {}
  b : MCopy := {}
  inForce : Option Nat := none
  trialAt : Nat := 0
  staging : Option MCopy := none
  applyDue : Bool := false
  deriving DecidableEq, Repr

/-- Power and start-up (R509 to R528): the reset that follows the flush (its cause), the local time of the warning, whether its
flush has ended, PORST_N taken low during the flush, event 7 given, how far start-up is (Manifest verified, LPDDR5 trained, the
wait for HOLD_SENSE over, Hold mounted, journal replayed), the present HOLD_SENSE level and junction temperature, the crossing at
which the class-0 bounds were suspended (R30), the core clock that the AVS clamp allows (codes of the Profiles table, 3 none), t0
in local time (R522), the core clock
in force (0 400 MHz, 1 800 MHz, 2 1.2 GHz), the voltage in mV that the last AVS update found for each clock (R511), whether the rails
are gone (R526), the Keccak
engines that are active and those that finish their work before they park (R34, R37), the LPDDR5 bytes trained (R3). -/
structure Power where
  cause : Option Nat := none
  warnAt : Nat := 0
  flushed : Bool := false
  porst : Bool := false
  hot : Bool := false
  /-- After a thermal shutdown, until the junction has been read below 105 °C (R521). -/
  heat : Bool := false
  verified : Bool := false
  trained : Bool := false
  waited : Bool := false
  mounted : Bool := false
  replayed : Bool := false
  warnXing : Nat := 0
  clamp : Nat := 3
  t0 : Nat := 0
  clock : Nat := 0
  need : List Nat := []
  off : Bool := false
  engines : Nat := 0
  parking : Nat := 0
  /-- The hash jobs that the Keccak engines serve: Oarsman, tag, place in the order of issue; jobs issued (R261). -/
  serving : List (Nat × Nat × Nat) := []
  hashOrd : Nat := 0
  dram : Nat := 0
  deriving DecidableEq, Repr

/-- An entry of the test block (R530): settings in force, when it was armed (ns), hits, items counted toward an interval N, the
window that armed it; TST_PCFG and TST_PARAM of the entry as last written. -/
structure TEntry where
  armed : Bool := false
  kind : Nat := 0
  target : Nat := 0
  a : Nat := 0
  b : Nat := 0
  since : Nat := 0
  hits : Nat := 0
  count : Nat := 0
  win : Nat := 0
  pcfg : Word := 0
  param : Word := 0
  deriving DecidableEq, Repr

/-- MSI-X of PCIe (R227, R228): words 0 to 2 of each table entry by 4 × vector + word; the vectors whose mask bit is 0; those pending. -/
structure Msix where
  table : SMap Word := []
  unmasked : List Nat := []
  waiting : List Nat := []
  deriving DecidableEq, Repr

/-- The test block (R529 to R539): entries, the first half of an unlock (window, instant), places claimed for disarm
records. -/
structure TestBlk where
  entries : SMap TEntry := []
  first : Option (Nat × Nat) := none
  deriving DecidableEq, Repr

end Sys2Proof.Machine
end

