-- ==== Sys2Proof/Machine/State.lean ====
section
/-!
DEFINITION. The state of the CRN-8800: every register by address, every table, queue, memory and latch of the blocks,
the queue of waiting commands, the model's own free-value counter; the state after reset; the stop reasons.
-/
namespace Sys2Proof.Machine

/-- The whole device. Registers of the register tables stand in `regs` by address (an unlisted address reads 0);
registers that show other state are computed from it when read. -/
structure State where
  /-- Commands that wait, first in, first out (the model's own field). -/
  pending : List Instr := []
  /-- How many free values have been drawn (the model's own field; log entry 2). -/
  free : Nat := 0
  /-- Registers by address; own copies of R559 above 2^32 × copy. -/
  regs : SMap Word := []
  clk : Clock := {}
  xing : Xing := {}
  aon : AlwaysOn := {}
  fuses : Fuses := {}
  whf : Wharf := {}
  fry : Ferry := {}
  oar : SMap Oarsman := []
  flows : SMap Owner := []
  txn : Txns := {}
  cmt : Commit := {}
  hld : Hold := {}
  nand : Nand := {}
  lgb : Logbook := {}
  man : Manifest := {}
  /-- Effective stored content (R453) and what is durable of it (R355). -/
  live : Image := {}
  img : Image := {}
  met : Metrology := {}
  plc : Plc := {}
  rad : Radio := {}
  eth : Ether := {}
  gwy : Gangway := {}
  val : Valid := {}
  ept : EptTable := {}
  bal : Balance := {}
  trf : Tariff := {}
  bil : Billing := {}
  tok : Tokens := {}
  pan : Panel := {}
  keys : Keys := {}
  mft : Mft := {}
  pwr : Power := {}
  tst : TestBlk := {}
  msix : Msix := {}
  /-- On-chip SRAM by address; an unwritten byte reads 0 (DESIGN CHOICE, log entry 4). -/
  sram : SMap Byte := []
  /-- LPDDR5 by address; an unwritten byte reads 0 (DESIGN CHOICE, log entry 4). -/
  dram : SMap Byte := []
  /-- What has left the device, newest first (the model's own record; log entry 9). -/
  sent : List Output := []
  deriving DecidableEq, Repr

/-- Why the device stops with a fault. No command of the spec stops this device: a trap, a refusal or an integrity
failure is a next state. The constructor is here because the interface asks for the type; nothing raises it. -/
inductive Fault where
  /-- Raised by nothing. Safe: a stop that never happens proves nothing. -/
  | none
  deriving DecidableEq, Repr

/-- Why a command has no meaning. -/
inductive Refusal where
  /-- Raised by the arm of a command that has no meaning yet, by its name. Safe: no next state is claimed. -/
  | notModelled (mnemonic : String)
  deriving DecidableEq, Repr

/-- The registers whose reset value the spec gives and is not 0, by address, in rising order. -/
def resetRegs : SMap Word := [
  (0x0, 0x88001110#32),
  (0x100004, 0x1#32),
  (0x10000C, 0xAAAB5555#32),
  (0x200040, 0x4E20000#32),
  (0x200100, 0x40000000#32),
  (0x200110, 0x40000000#32),
  (0x200120, 0x40000000#32),
  (0x200130, 0x40000000#32),
  (0x200140, 0x40000000#32),
  (0x200150, 0x40000000#32),
  (0x200160, 0x40000000#32),
  (0x501004, 0x11#32),
  (0x800210, 0xFFFF#32),
  (0x900004, 0x1#32),
  (0x900100, 0x601#32),
  (0x1300014, 0x320#32)]

/-- The device right after reset (the Reset columns; R46, R404, R420, R522): registers at the values the tables give,
fuses and Manifest fields at the values of log entries 3 and 5, every queue, thread, group and latch empty. -/
def State.reset : State := { regs := resetRegs }

end Sys2Proof.Machine
end

