-- ==== Sys2Proof/Machine/Ops.lean ====
section
/-!
DEFINITION. The operations every block shares: register fields, the clocks and stamps (R44, R59, R60), free values,
raising an event (R41, R411, R431), the Logbook (R469 to R473), and the metrological parts of access control.
-/
namespace Sys2Proof.Machine

/-- What a command answers. -/
abbrev Out := Host.Outcome State Fault Refusal

/-- eFuses after a command: a fuse once blown stays blown (R88, R89, R486, R489, R500, R501); variant and EUI-64 are fixed. -/
def Fuses.burn (old new : Fuses) : Fuses :=
  { new with
    variant := old.variant
    eui := old.eui
    breaks := max old.breaks new.breaks
    everClosed := old.everClosed || new.everClosed
    epoch := max old.epoch new.epoch
    fingerprint := if old.identity then old.fingerprint else new.fingerprint
    identity := old.identity || new.identity
    openFloor := max old.openFloor new.openFloor
    sealedFloor := max old.sealedFloor new.sealedFloor
    openAuth := max old.openAuth new.openAuth
    sealedAuth := max old.sealedAuth new.sealedAuth }

/-- What a command leaves: its effect on everything but the queue of waiting commands, with eFuses that only burn. -/
def State.out (s t : State) : Out := .next { t with pending := s.pending, fuses := s.fuses.burn t.fuses }

/-! ### Registers -/

/-- A register's stored word. -/
def State.reg (s : State) (a : Nat) : Word := smGet 0 s.regs a

/-- The state with a register's stored word. -/
def State.setReg (s : State) (a : Nat) (w : Word) : State := { s with regs := smPut 0 s.regs a w }

/-- A register field as a number. -/
def State.get (s : State) (f : Fld) : Nat := bitsOf (s.reg f.addr) f.hi f.lo

/-- The state with a register field. -/
def State.set (s : State) (f : Fld) (v : Nat) : State := s.setReg f.addr (putBits (s.reg f.addr) f.hi f.lo v)

/-- A one-bit field. -/
def State.flag (s : State) (f : Fld) : Bool := s.get f != 0

/-- The largest value of a field. -/
def Fld.top (f : Fld) : Nat := 2 ^ (f.hi + 1 - f.lo) - 1

/-- A counter field raised by n, stopping at its largest value ("saturating"). -/
def State.bump (s : State) (f : Fld) (n : Nat) : State := s.set f (satAdd (s.get f) n f.top)

/-- A counter field raised by n, wrapping to 0. -/
def State.wrapUp (s : State) (f : Fld) (n : Nat) : State := s.set f ((s.get f + n) % (f.top + 1))

/-- Whether this chip is the hub end (GWY_CFG.HUB). -/
def State.isHub (s : State) : Bool := s.flag gwyCfg_HUB

/-- Whether this chip reports to a hub (R12): a cell-role chip whose hub identifier is not 0x0000, which means "no hub". -/
def State.underHub (s : State) : Bool := !s.isHub && decide (s.man.hubId ≠ 0)

/-- A number held within a field ("saturating"). -/
def State.setSat (s : State) (f : Fld) (v : Nat) : State := s.set f (min v f.top)

/-- Consecutive words stored from an address on, 4 bytes apart. -/
def State.setWords (s : State) (a : Nat) : List Word → State
  | [] => s
  | w :: ws => State.setWords (s.setReg a w) (a + 4) ws

/-- The bytes of n consecutive registers, big-endian. -/
def State.regBytes (s : State) (a n : Nat) : List Byte :=
  (List.range n).flatMap fun k => be 4 (s.reg (a + 4 * k)).toNat

/-! ### Free values -/

/-- The next free value, n bits wide, and the state that has drawn it (log entry 2). -/
def State.draw (s : State) (n : Nat) : Nat × State :=
  ((Config.freeValue s.free).toNat % 2 ^ n, { s with free := s.free + 1 })

/-- The next random draw, n bits wide (log entry 2). -/
def State.random (s : State) (n : Nat) : Nat × State :=
  ((Config.randomDraw s.free).toNat % 2 ^ n, { s with free := s.free + 1 })

/-! ### Clocks and stamps -/

/-- Nanoseconds in a second. -/
def nsPerSec : Nat := 1000000000

/-- PTP seconds. -/
def State.ptpSec (s : State) : Nat := s.clk.ptp / nsPerSec

/-- UTC seconds (R58). -/
def State.utcSec (s : State) : Nat := ((s.ptpSec : Int) - toSigned 16 (s.get xingUtcOfs_OFFSET)).toNat

/-- The mains period in use, in ns (XING_PERIOD; the nominal one until a value stands). -/
def State.period (s : State) : Nat :=
  let p := s.get xingPeriod_PERIOD
  if p = 0 then s.man.nominalPeriod else p

/-- The period that FRACTION is interpolated from (R45, R50): the last measured one, or the held one while coasting. -/
def State.lastPeriod (s : State) : Nat := if s.xing.held ≠ 0 then s.xing.held else s.xing.periods.headD s.period

/-- FRACTION (R45): the phase since the crossing began, stopping at 0xFFFF; 0xFFFF through held crossings (R52), 0 while there is no
number yet, and never below what the number has reached (R44). -/
def State.fraction (s : State) : Nat :=
  if !s.xing.valid then 0
  else if s.xing.hold > 0 then 0xFFFF
  else min 0xFFFF (max s.xing.floor ((s.clk.mono - s.xing.placed) * 65536 / s.lastPeriod))

/-- Crossing time (R44). -/
def State.xt (s : State) : Nat := (s.xing.num % 2 ^ 48) * 65536 + s.fraction

/-- Whether the last renumbering skipped a crossing number (R52 case 1). -/
def State.wasSkipped (s : State) (n : Nat) : Bool := decide (s.xing.skipFrom ≤ n) && decide (n < s.xing.skipTo)

/-- Whether the counter coasts. -/
def State.coasting (s : State) : Bool := s.flag xingStatus_COASTING

/-- The FLAGS byte of a stamp taken now (R60): bit 0 coasting, bit 1 PTP not locked. -/
def State.stampFlags (s : State) : Nat := ofBool s.coasting + 2 * ofBool (!s.flag ptpStat_LOCKED)

/-- A stamp of a rank taken now, uncompensated (R59, R61: rank 8 is never compensated). -/
def State.stamp (s : State) (rank : Nat) : Stamp :=
  { ptp := s.clk.ptp, epoch := s.clk.epoch, xt := s.xt, rank := rank, flags := s.stampFlags }

/-- A signed delay in ps as whole ns, rounded toward minus infinity (DESIGN CHOICE, log entry 130; R206 inserts the rest on transmit). -/
def compNs (v : Nat) : Int := toSigned 24 v / 1000

/-- A signed delay in ps in crossing-time units of the period that FRACTION runs by (R45), rounded toward minus infinity (DESIGN CHOICE,
log entry 130). -/
def State.compXt (s : State) (v : Nat) : Int := toSigned 24 v * 65536 / ((1000 * max 1 s.lastPeriod : Nat) : Int)

/-- A time moved by a signed number of ns, never below 0. -/
def shiftNs (t : Nat) (d : Int) : Nat := ((t : Int) + d).toNat

/-- A receive stamp of a rank: the capture minus XING_RXCOMP (R61), in both its times (DEDUCED, log entry 130). -/
def State.rxStamp (s : State) (rank : Nat) : Stamp :=
  { s.stamp rank with ptp := shiftNs s.clk.ptp (- compNs (s.get (xingRxcomp_DELAY rank)))
                      xt := shiftNs s.xt (- s.compXt (s.get (xingRxcomp_DELAY rank))) }

/-- A transmit stamp of a rank: the launch instant plus XING_TXCOMP, in both its times (DEDUCED, log entry 130), FLAGS bit 2 (R61); bit 3
a late launch (R65), bit 4 a renumbered one (R52). -/
def State.txStamp (s : State) (rank : Nat) (late renum : Bool) : Stamp :=
  { s.stamp rank with
    ptp := if rank ≥ 7 then s.clk.ptp else shiftNs s.clk.ptp (compNs (s.get (xingTxcomp_DELAY rank)))
    xt := if rank ≥ 7 then s.xt else shiftNs s.xt (s.compXt (s.get (xingTxcomp_DELAY rank)))
    flags := s.stampFlags + 4 + 8 * ofBool late + 16 * ofBool renum }

/-- The 20 bytes of a stamp record (R60). -/
def Stamp.bytes (t : Stamp) : List Byte :=
  be 6 (t.ptp / nsPerSec) ++ be 4 (t.ptp % nsPerSec) ++ be 8 t.xt ++ be 1 ((t.epoch % 8) * 32 + t.rank % 32) ++ be 1 t.flags

/-- A stamp read back from its record. -/
def Stamp.ofBytes (b : List Byte) : Stamp :=
  { ptp := beAt b 0 6 * nsPerSec + beAt b 6 4, xt := beAt b 10 8, epoch := beAt b 18 1 / 32,
    rank := beAt b 18 1 % 32, flags := beAt b 19 1 }

/-- The stamp order of R67. -/
def Stamp.earlier (a b : Stamp) : Bool :=
  if a.epoch ≠ b.epoch then
    let de := (b.epoch + 8 - a.epoch % 8) % 8
    decide (1 ≤ de) && decide (de ≤ 3)
  else if a.ptp ≠ b.ptp then decide (a.ptp < b.ptp)
  else decide (a.rank < b.rank)

/-- What the stamp order sees of an item: its header stamp (R67, R390). -/
def Item.order (it : Item) : Stamp := { ptp := it.sec * nsPerSec + it.ns, epoch := it.epoch, rank := it.rank }

/-- A list with an element put before the first that must follow it. -/
def insertBy {α : Type} (before : α → α → Bool) (x : α) : List α → List α
  | [] => [x]
  | y :: ys => if before x y then x :: y :: ys else y :: insertBy before x ys

/-- A list in the order of a relation, equal elements as they stood. -/
def sortBy {α : Type} (before : α → α → Bool) : List α → List α
  | [] => []
  | x :: xs => insertBy (fun a b => before a b || !before b a) x (sortBy before xs)

/-! ### Events -/

/-- The enable register and bit of an event (R41 and the event tables of the chapters); none for an event that is
never asserted. -/
def evtEnable (e : Nat) : Option (Nat × Nat) :=
  if e < 16 then some (pwrEvtEn, e)
  else if e < 32 then some (xingEvtEn, e - 16)
  else if 48 ≤ e ∧ e < 58 then some (metEvtEn, e - 48)
  else if 64 ≤ e ∧ e < 79 then some (plcEvtEn, e - 64)
  else if 80 ≤ e ∧ e < 112 then some (plcMacEvtEn0, e - 80)
  else if 112 ≤ e ∧ e < 128 then some (plcMacEvtEn1, e - 112)
  else if 128 ≤ e ∧ e < 160 then some (radEvtEn, e - 128)
  else if 160 ≤ e ∧ e < 178 then some (ethEvtEn, e - 160)
  else if 192 ≤ e ∧ e < 210 then some (valEvtEn, e - 192)
  else if 224 ≤ e ∧ e < 234 then some (eptEvtEn, e - 224)
  else if 240 ≤ e ∧ e < 249 then some (balEvtEn, e - 240)
  else if 256 ≤ e ∧ e < 264 then some (trfEvtEn, e - 256)
  else if 264 ≤ e ∧ e < 277 then some (bilEvtEn, e - 264)
  else if 288 ≤ e ∧ e < 298 then some (cmtEvtEn, e - 288)
  else if 304 ≤ e ∧ e < 315 then some (panEvtEn, e - 304)
  else if 320 ≤ e ∧ e < 352 then some (whfEvtEn0, e - 320)
  else if 352 ≤ e ∧ e < 384 then some (whfEvtEn1, e - 352)
  else if 384 ≤ e ∧ e < 389 then some (fryEvtEn, e - 384)
  else if 400 ≤ e ∧ e < 432 then some (oarEvtEn, e - 400)
  else if 432 ≤ e ∧ e < 448 then some (hldEvtEn, e - 432)
  else if 448 ≤ e ∧ e < 454 then some (lgbEvtEn, e - 448)
  else if 456 ≤ e ∧ e < 469 then some (keyEvtEn, e - 456)
  else if 472 ≤ e ∧ e < 480 then some (mftEvtEn, e - 472)
  else if 480 ≤ e ∧ e < 486 then some (tstEvtEn, e - 480)
  else none

/-- Whether an event's enable bit is 1. Events 96 to 127 exist in independent-phase mode alone (R169). -/
def State.evtOn (s : State) (e : Nat) : Bool :=
  if 96 ≤ e ∧ e < 128 ∧ s.get plcConfig_MODE ≠ 1 then false
  else match evtEnable e with
  | some (a, b) => natBit (s.reg a).toNat b
  | none => false

/-- A thread context. -/
def State.thr (s : State) (t : Nat) : Thread := smGet {} s.fry.threads t

/-- The state with a thread context. -/
def State.setThr (s : State) (t : Nat) (x : Thread) : State :=
  { s with fry := { s.fry with threads := smPut {} s.fry.threads t x } }

/-- An Oarsman. -/
def State.oarN (s : State) (n : Nat) : Oarsman := smGet {} s.oar n

/-- The state with an Oarsman. -/
def State.setOar (s : State) (n : Nat) (o : Oarsman) : State := { s with oar := smPut {} s.oar n o }

/-- A thread joins the tail, or the head, of the ready list of its priority (R407). -/
def State.joinReady (s : State) (t : Nat) (atHead : Bool) : State :=
  let p := (s.thr t).prio
  let l := smGet [] s.fry.ready p
  { s with fry := { s.fry with ready := smPut [] s.fry.ready p (if atHead then t :: l else l ++ [t]) } }

/-- A waiting thread becomes ready with the event that ended its wait (R411, R412). -/
def State.wake (s : State) (e : Nat) (t : Nat) : State :=
  let x := s.thr t
  let s1 := (s.setThr t { x with st := .ready, lastEvent := e }).joinReady t false
  { s1 with fry := { s1.fry with asserted := smPut none s1.fry.asserted t (some s1.clk.mono) } }

/-- The threads waiting on an event, in the order in which they began to wait. -/
def State.waitersOn (s : State) (e : Nat) : List Nat :=
  (sortBy (fun (a b : Nat × Thread) => decide (a.2.waitSeq < b.2.waitSeq))
    (s.fry.threads.filter fun p => p.2.st = .waiting ∧ (p.2.waitA = e ∨ p.2.waitB = some e))).map (·.1)

/-- The event reaches one Oarsman whose event map holds it: a wait on it ends, else its latch is set (R431). -/
def oarAssert (e : Nat) (s : State) (n : Nat) : State :=
  if e ∈ (smGet {} s.man.oar n).events then
    let o := s.oarN n
    match o.wait with
    | .events gd a b none =>
      if a = e ∨ b = e then s.setOar n { o with wait := .events gd a b (some e) }
      else s.setOar n { o with latches := addMem o.latches e }
    | _ => s.setOar n { o with latches := addMem o.latches e }
  else s

/-- The MSI-X message of an event that is routed to PCIe (R41, R228); a masked vector becomes pending instead. -/
def msixOf (e : Nat) (s : State) : State :=
  let v := s.get (ethMsixRoute_VECTOR e)
  if !s.flag (ethMsixRoute_EN e) then s
  else if v ∈ s.msix.unmasked then { s with sent := .msix v :: s.sent }
  else { s with msix := { s.msix with waiting := addMem s.msix.waiting v } }

/-- An assertion of an event, its enable bit taken as 1 (R411, R431): every waiting thread becomes ready, else the
latch is set, else the assertion is coalesced. True when a coalescing episode begins. -/
def State.assertEvt (s : State) (e : Nat) : State × Bool :=
  let s0 := (List.range 16).foldl (oarAssert e) (msixOf e s)
  match s0.waitersOn e with
  | [] =>
    if e ∈ s0.fry.latches then
      let s1 := s0.bump fryCnt_COALESCED 1
      if e ∈ s1.fry.episodes then (s1, false)
      else ({ s1 with fry := { s1.fry with episodes := e :: s1.fry.episodes } }, true)
    else ({ s0 with fry := { s0.fry with latches := e :: s0.fry.latches } }, false)
  | ws => (ws.foldl (fun st t => st.wake e t) s0, false)

/-- Raise an event (R41): nothing while its enable bit is 0. A coalescing episode raises event 388 once; the episode
of event 388 itself raises nothing more (DEDUCED, log entry 13). -/
def State.raise (s : State) (e : Nat) : State :=
  if s.evtOn e then
    let r := s.assertEvt e
    if r.2 && e != 388 && r.1.evtOn 388 then (r.1.assertEvt 388).1 else r.1
  else s

/-- Raise an event when a condition holds. -/
def State.raiseIf (s : State) (c : Bool) (e : Nat) : State := if c then s.raise e else s

/-- An output of the device (log entry 9). -/
def State.emit (s : State) (o : Output) : State := { s with sent := o :: s.sent }

/-! ### The Logbook -/

/-- Ordinary buffer places that are free (R473): 255 less the records and claims in them. -/
def State.lgbRoom (s : State) : Nat := 255 + ofBool s.lgb.keptUsed - (s.lgb.buf.length + s.lgb.claimed)

/-- A record enters the buffer and takes the next number; event 448, and event 450 at 192 records (R471, R473). -/
def State.lgbEnter (s : State) (r : LogRec) : State :=
  let warn := s.flag pwrStat_WARN
  let rec1 := { r with num := s.lgb.next, opsec := s.aon.opSeconds, pcycle := s.aon.powerCycles,
                       flags := r.flags + 2 * ofBool warn }
  let s1 := { s with lgb := { s.lgb with buf := s.lgb.buf ++ [rec1], next := s.lgb.next + 1,
                                          first := max s.lgb.first (s.lgb.next + 1 - 16777216) } }
  let s2 := s1.raise 448
  if s2.lgb.buf.length ≥ 192 ∧ ¬ s2.lgb.over192 then
    ({ s2 with lgb := { s2.lgb with over192 := true } }).raise 450
  else s2

/-- A record enters; the first after discards carries FLAGS bit 2 and a TYPE 0x02 record follows in the kept place. While that place is
in use none follows, and the next one counts these losses too (R473). -/
def State.lgbAppend (s : State) (r : LogRec) : State :=
  let s1 := State.lgbEnter { s with lgb := { s.lgb with lostJust := false } } { r with flags := r.flags + 4 * ofBool s.lgb.lostJust }
  let n := s.lgb.lostRun
  if n = 0 ∨ s.lgb.keptUsed = true then s1
  else
    let s2 : State := { s1 with lgb := { s1.lgb with lostRun := 0, keptUsed := true } }
    s2.lgbEnter { typ := 0x02, source := 0x10, payload := padTo 48 ((s2.stamp 8).bytes ++ be 4 n ++ be 4 s.lgb.lostAt) }

/-- A device record (R469, R473): the stamp of the happening and type-specific bytes; discarded and counted when no
ordinary place is free. -/
def State.logRec (s : State) (typ source extra : Nat) (detail : List Byte) : State :=
  if s.lgbRoom = 0 then
    let s1 := s.bump lgbStat_LOST 1
    let s2 := { s1 with lgb := { s1.lgb with lostRun := s1.lgb.lostRun + 1, lostJust := true,
                                              lostAt := if s1.lgb.lostRun = 0 then s1.aon.opSeconds else s1.lgb.lostAt } }
    s2.raise 451
  else s.lgbAppend { typ := typ, source := source, extra := extra,
                     payload := padTo 48 ((s.stamp 8).bytes ++ detail) }

/-- The register block of an event, as a Logbook SOURCE (Event map, R41). -/
def evtSource (e : Nat) : Nat :=
  if e < 16 then 0x13 else if e < 48 then 0x01 else if e < 64 then 0x02 else if e < 128 then 0x03
  else if e < 160 then 0x04 else if e < 192 then 0x05 else if e < 224 then 0x06 else if e < 240 then 0x07
  else if e < 256 then 0x08 else if e < 288 then 0x09 else if e < 304 then 0x0A else if e < 320 then 0x0B
  else if e < 384 then 0x0C else if e < 400 then 0x0D else if e < 432 then 0x0E else if e < 448 then 0x0F
  else if e < 456 then 0x10 else if e < 472 then 0x11 else if e < 480 then 0x12 else 0x14

/-- A TYPE 0x10 record: event number and detail (Logbook record types). -/
def State.logEvt (s : State) (e : Nat) (detail : List Byte) : State :=
  s.logRec 0x10 (evtSource e) 0 (be 2 e ++ padTo 26 detail)

/-- Raise an event and write its event-linked record. -/
def State.raiseLog (s : State) (e : Nat) (detail : List Byte) : State := (s.raise e).logEvt e detail

/-- The records that a program has made durable leave the buffer; the kept place is restored first (R471, R473). -/
def State.lgbDrain (s : State) (n : Nat) : State :=
  let done := s.lgb.buf.take n
  { s with lgb := { s.lgb with
      buf := s.lgb.buf.drop n
      ring := s.lgb.ring ++ done
      keptUsed := if done = [] then s.lgb.keptUsed else false
      over192 := if s.lgb.buf.length - n < 128 then false else s.lgb.over192 } }

/-! ### Access control -/

/-- Whether the seal lets SL fields be written: OPEN or EXHAUSTED (R20, R88; codes of MET_SEAL_STAT.STATE). -/
def State.sealOpen (s : State) : Bool := s.get metSealStat_STATE != 1

/-- The interface code of a TYPE 0x06 record; Oarsmen and the seal core have none and use 0 (log entry 14). -/
def Iface.code : Iface → Nat
  | .core n => 0x10 + n
  | .pcie => 0x18
  | .headEnd => 0x19
  | .ebfin => 0x1A
  | .oarsman _ => 0
  | .sealCore => 0

/-- The window number of an interface (R559): 0 to 7 cores, 8 PCIe and Ebfin, 9 head end; 16 + n and 32 the own
copies of Oarsmen and the seal core. -/
def Iface.window : Iface → Nat
  | .core n => n
  | .pcie => 8
  | .ebfin => 8
  | .headEnd => 9
  | .oarsman n => 16 + n
  | .sealCore => 32

/-- The issuer code of an interface (CMT_GSTAT.ISSUER). -/
def Iface.issuer : Iface → Nat
  | .oarsman n => n
  | .sealCore => 0x3F
  | i => 0x10 + i.window

/-- Whether a list of ranges grants an address. -/
def granted (rs : List Range) (a : Nat) (write : Bool) : Bool :=
  rs.any fun r => decide (r.lo ≤ a) && decide (a ≤ r.hi) && (r.write || !write)

/-- Whether a list of ranges grants each of `len` bytes from an address. -/
def grantedAll (rs : List Range) (a len : Nat) (write : Bool) : Bool :=
  (List.range len).all fun k => granted rs (a + k) write

/-- The Logbook's read and clear registers, which every interface is always granted (R474). -/
def alwaysGranted (a : Nat) : Bool := decide (0x01000000 ≤ a) && decide (a < 0x01002000)

/-- The registers of the metrological log (R98): any interface reads them, and the privilege map grants no write. -/
def mlogReg (a : Nat) : Bool := decide (metMlogStat ≤ a) && decide (a ≤ metMlogData 15)

/-- Whether the privilege map of a window grants an access (R43, R98, R474). -/
def mapGrants (m : List Range) (a : Nat) (write : Bool) : Bool :=
  if mlogReg a then !write else alwaysGranted a || granted m a write

/-- Whether the privilege map decides for every window, the cores' too: the test block (R529), and writes of MFT_CMD (R506)
and PWR_RESET (R520). -/
def mapGated (a : Nat) (write : Bool) : Bool :=
  (decide (0x1400000 ≤ a) && decide (a < 0x1500000)) || (write && (a == mftCmd || a == pwrReset))

/-- What rescue serves, to PCIe and Ebfin alone (R505): reads of the SYS_, MFT_ and KEY_ registers, writes of four of them. -/
def rescueServes (i : Iface) (a : Nat) (write : Bool) : Bool :=
  (i == .pcie || i == .ebfin) &&
  (if write then a == mftStageAddr || a == mftStageLen || a == mftRescueWin || a == mftCmd
   else decide (a < 0x100000) || (decide (0x1100000 ≤ a) && decide (a < 0x1300000)))

/-- Whether an interface may access a register address (R43: PCIe and the head end by the privilege map; R423, R438: an
Oarsman by its access map; R505 in rescue; others always, but for what the map decides for every window). -/
def State.mayAccess (s : State) (i : Iface) (a : Nat) (write : Bool) : Bool :=
  if s.flag mftStat_RESCUE then rescueServes i a write
  else match i with
  | .pcie => mapGrants (smGet {} s.man.priv 8).regs a write
  | .headEnd => mapGrants (smGet {} s.man.priv 9).regs a write
  | .oarsman n => granted (smGet {} s.man.oar n).access a write
  | .core n => !mapGated a write || granted (smGet {} s.man.priv n).regs a write
  | .ebfin => !mapGated a write || granted (smGet {} s.man.priv 8).regs a write
  | .sealCore => true

/-- The Logbook record of a refused register access (TYPE 0x06; R18, R39, R43, R520). -/
def State.logRefused (s : State) (i : Iface) (a : Nat) (v : Word) : State :=
  s.logRec 0x06 (a / 0x100000) i.code (be 4 a ++ be 4 v.toNat)

/-- A write that is refused: logged for PCIe, the head end and PWR_RESET (R43, R520), RESULT 0x06 for MFT_CMD (R506), ignored
otherwise (R505, R529). -/
def State.refuse (s : State) (i : Iface) (a : Nat) (v : Word) : State :=
  if s.flag mftStat_RESCUE then s
  else
    let s1 := if i = .pcie ∨ i = .headEnd ∨ a = pwrReset then s.logRefused i a v else s
    if a = mftCmd ∧ s1.flag mftCmdStat_BUSY = false then s1.set mftCmdStat_RESULT 0x06 else s1

end Sys2Proof.Machine
end

