-- ==== Sys2Proof/Machine/Operands.lean ====
section
/-!
DEFINITION. The operand of a register command: which stored copy an address reaches (R559), the access codes applied
field by field (R15 to R19), the privilege map (R43), the seal (R18).
-/
namespace Sys2Proof.Machine

/-- The register sets that exist once for each interface at one address (R559, R416). -/
def ownByIface (a : Nat) : Bool :=
  decide (a = keySel) || decide (a = keyNewAttr) || decide (a = keyCmdStat) ||
  (decide (keyStage 0 ≤ a) && decide (a ≤ keyStage 15)) || (decide (keyData 0 ≤ a) && decide (a ≤ keyData 15)) ||
  decide (a = fryNewPc) || decide (a = fryNewArg) || decide (a = fryNewCfg)

/-- The windowed registers: window w's set starts at base + stride × w (R559). -/
def windowed (a : Nat) : Option (Nat × Nat) :=
  if 0xA01000 ≤ a ∧ a < 0xA01280 then some (0xA01000, 0x40)
  else if 0x1001000 ≤ a ∧ a < 0x1001500 then some (0x1001000, 0x80)
  else none

/-- The key under which an access by an interface at an address is stored (R559): the address, or a copy above 2^32.
An Oarsman or the seal core reaches its own copy of a windowed register, whatever window the address names. -/
def regKey (i : Iface) (a : Nat) : Nat :=
  if ownByIface a then a + 2 ^ 32 * (1 + i.window)
  else match windowed a with
    | some (b, st) => if i.window ≥ 16 then b + (a - b) % st + 2 ^ 32 * (1 + i.window) else a
    | none => a

/-- The window whose register set an access reaches. -/
def windowOf (i : Iface) (a : Nat) : Nat :=
  match windowed a with
  | some (b, st) => if i.window ≥ 16 then i.window else (a - b) / st
  | none => i.window

/-- Whether a field of the register at an address acts as SL: SL fields, and the fields of OAR_CTRL_12 and 13 but for
the seal core's own writes (17_oarsman.md). -/
def actsAsSl (i : Iface) (a : Nat) (f : FieldDesc) : Bool :=
  f.acc == .sl || ((a == oarCtrl 12 || a == oarCtrl 13) && i != .sealCore)

/-- One field under a write (R15): the new bits of the field. -/
def fieldNew (sealOpen slLike : Bool) (f : FieldDesc) (old new : Word) : Nat :=
  if slLike && !sealOpen then bitsOf old f.hi f.lo
  else match f.acc with
    | .rw => bitsOf new f.hi f.lo
    | .sl => bitsOf new f.hi f.lo
    | .w1c => bitsOf (old &&& ~~~ new) f.hi f.lo
    | .ro => bitsOf old f.hi f.lo
    | .wo => 0

/-- A register's word after a write, all fields at once (R19). -/
def writeFields (i : Iface) (a : Nat) (sealOpen : Bool) (fs : List FieldDesc) (old new : Word) : Word :=
  fs.foldl (fun w f => putBits w f.hi f.lo (fieldNew sealOpen (actsAsSl i a f) f old new)) old

/-- Whether a write attempts an SL field (R18): a changed SL field, or a 1 in a WO field that acts as SL. -/
def slAttempt (i : Iface) (a : Nat) (fs : List FieldDesc) (old new : Word) : Bool :=
  fs.any fun f => actsAsSl i a f &&
    (if f.acc == .wo then bitsOf new f.hi f.lo != 0 else bitsOf new f.hi f.lo != bitsOf old f.hi f.lo)

/-- The stored effect of a whole-word write by access codes; a refused SL attempt is logged (R18). -/
def State.storeWord (s : State) (i : Iface) (a : Nat) (v : Word) : State :=
  match regDesc? a with
  | none => s
  | some d =>
    let k := regKey i a
    let old := s.reg k
    let s1 := s.setReg k (writeFields i a s.sealOpen d.fields old v)
    if !s.sealOpen && slAttempt i a d.fields old v then s1.logRefused i a v else s1

/-- A register write that reaches the block (R17, R43): refused and logged when the map does not grant it, else the
stored effect and then what the register does. -/
def State.writeGate (s : State) (i : Iface) (a : Nat) (v : Word) (act : State → State) : State :=
  if s.mayAccess i a true then act (s.storeWord i a v) else s.refuse i a v

/-- A register read that has an effect (R17, R43): a refused read returns 0 and has none. The value read leaves by the
interface. -/
def State.readGate (s : State) (i : Iface) (a : Nat) (act : State → Word × State) : State :=
  if s.mayAccess i a false then (act s).2.emit (.readValue i (act s).1) else s.emit (.readValue i 0)

/-- Set an instant write's WO trigger: the bit that a command's value carries at a field. -/
def wordBits (v : Word) (f : Fld) : Nat := bitsOf v f.hi f.lo

/-- A register field as an interface reaches it, its own copy where there is one (R559). -/
def State.getOf (s : State) (i : Iface) (f : Fld) : Nat := bitsOf (s.reg (regKey i f.addr)) f.hi f.lo

/-- The state with a register field in the interface's copy. -/
def State.setOf (s : State) (i : Iface) (f : Fld) (v : Nat) : State :=
  s.setReg (regKey i f.addr) (putBits (s.reg (regKey i f.addr)) f.hi f.lo v)

end Sys2Proof.Machine
end

