-- ==== Sys2Proof/Machine/TestOps.lean ====
section
/-!
DEFINITION. The perturbations of the test block as the other blocks meet them (R530 to R539).
-/
namespace Sys2Proof.Machine

/-- An entry of the test block. -/
def State.entry (s : State) (n : Nat) : TEntry := smGet {} s.tst.entries n

/-- The state with an entry of the test block. -/
def State.setEntry (s : State) (n : Nat) (e : TEntry) : State :=
  { s with tst := { s.tst with entries := smPut {} s.tst.entries n e } }

/-- The lowest armed entry of a kind that meets a condition. -/
def State.armedEntry (s : State) (kind : Nat) (p : TEntry → Bool) : Option Nat :=
  (List.range 8).find? fun n => (s.entry n).armed && (s.entry n).kind == kind && p (s.entry n)

/-- HITS counts what an entry perturbed, saturating at 65,535. -/
def State.hit (s : State) (n : Nat) : State :=
  s.setEntry n { s.entry n with hits := satAdd (s.entry n).hits 1 65535 }

/-- Whether an armed entry of a kind with an interval acts on this item or frame: every Nth, N = 0 acting as 1 (R531). -/
def State.everyNth (s : State) (kind : Nat) (p : TEntry → Bool) : Bool × State :=
  match s.armedEntry kind p with
  | none => (false, s)
  | some n =>
    let e := s.entry n
    if max 1 e.b ≤ e.count + 1 then (true, (s.setEntry n { e with count := 0 }).hit n)
    else (false, s.setEntry n { e with count := e.count + 1 })

/-- Whether a clock-fault code is armed (R531 kind 0x9). -/
def State.clockFault (s : State) (code : Nat) : Bool := (s.armedEntry 9 fun e => e.target == code).isSome

/-- The 14 detail bytes of a test record (R535). -/
def State.testDetail (s : State) (n win cause : Nat) : List Byte :=
  let e := s.entry n
  be 1 n ++ be 1 e.kind ++ be 2 e.target ++ be 2 e.a ++ be 2 e.b ++ be 1 win ++ be 1 cause ++ be 4 e.hits

/-- An armed entry disarms with a cause (R530, R535, R536): its record takes the place reserved for it. -/
def State.disarm (s : State) (n win cause : Nat) : State :=
  if (s.entry n).armed then
    let s1 := { s with lgb := { s.lgb with claimed := s.lgb.claimed - 1 } }
    let d := s1.testDetail n win cause
    let s2 := s1.setEntry n { s1.entry n with armed := false }
    let s3 := s2.set tstStat_ARMED (s2.get tstStat_ARMED &&& (255 - 2 ^ n))
    s3.raiseLog 483 d
  else s

/-- Every armed entry that meets a condition disarms, in entry order. -/
def State.disarmAll (s : State) (p : TEntry → Bool) (win cause : Nat) : State :=
  (List.range 8).foldl (fun st n => if p (st.entry n) then st.disarm n win cause else st) s

end Sys2Proof.Machine
end

