-- ==== Sys2Proof/Machine/WharfOps.lean ====
section
/-!
DEFINITION. The Wharf (15_wharf.md): free words and claims, enqueue, delivery, rewind, release, the priority lane, the
queue conditions and their events.
-/
namespace Sys2Proof.Machine

/-- The queue of a role list at an index; queue numbers are held plus 1, 0 for none. -/
def roleQ (l : List Nat) (i : Nat) : Option Nat :=
  match l.getD i 0 with
  | 0 => none
  | n + 1 => some n

/-- The receive queues that the validation pipeline merges: those of the PLC phases and the radio ports (R67, R116). -/
def State.validQueues (s : State) : List Nat :=
  [0, 1, 2].filterMap (roleQ s.man.roles.plcRx) ++ [0, 1].filterMap (roleQ s.man.roles.validIn)

/-- A queue. -/
def State.q (s : State) (n : Nat) : Queue := smGet {} s.whf.queues n

/-- The state with a queue. -/
def State.setQ (s : State) (n : Nat) (x : Queue) : State :=
  { s with whf := { s.whf with queues := smPut {} s.whf.queues n x } }

/-- Whether the Manifest allocates a queue (R389). -/
def State.qUsed (s : State) (n : Nat) : Bool := decide (n ∈ s.man.queues)

/-- Storage words of an item: two header words and its data (R390). -/
def Item.words (it : Item) : Nat := if it.gone then 0 else it.data.length + 2

/-- Words that items hold. -/
def Queue.heldWords (x : Queue) : Nat := (x.items.map Item.words).sum

/-- Words that an armed credit withhold takes from a queue (R531 kind 0x2). -/
def State.withheld (s : State) (n : Nat) : Nat :=
  match s.armedEntry 2 fun e => e.target == n with
  | some k => (s.entry k).b
  | none => 0

/-- Words neither held nor claimed (R393); the lane's 144 words are outside it (R401). -/
def State.qFree (s : State) (n : Nat) : Nat :=
  if s.qUsed n then
    (s.get (whfQCfg_SIZE n) + 1) * 256 - (if s.flag (whfQCfg_LANE n) then 144 else 0)
      - (s.q n).heldWords - (s.q n).claimed - s.withheld n
  else 0

/-- The index, among a queue's items, of the next main-queue item to deliver: at or past HEAD, done items passed over
before FRONT (R399). -/
def Queue.nextIdx (x : Queue) : Option Nat :=
  (List.range x.items.length).find? fun i =>
    decide ((x.head + 2 ^ 32 - x.mark) % 2 ^ 32 ≤ i) &&
    !((x.items.getD i {}).done && decide (i < (x.front + 2 ^ 32 - x.mark) % 2 ^ 32))

/-- Whether something can be delivered now (R400, R401): a lane item not held, else the next main item when neither
the lane nor the launch unit holds it and it is visible (R395). -/
def Queue.deliverable (x : Queue) : Bool :=
  match x.lane with
  | l :: _ => !l.hold
  | [] => match x.nextIdx with
    | some i => !x.held && !(x.items.getD i {}).delayed
    | none => false

/-- Undelivered items, the lane's included (WHF_Q_STAT.ITEMS). -/
def Queue.undelivered (x : Queue) : Nat :=
  x.lane.length + ((List.range x.items.length).filter fun i =>
    decide ((x.head + 2 ^ 32 - x.mark) % 2 ^ 32 ≤ i) &&
    !((x.items.getD i {}).done && decide (i < (x.front + 2 ^ 32 - x.mark) % 2 ^ 32))).length

/-- The conditions that stand (R403), as bits 0 ITEM, 1 IDLE, 2 OVERRUN, 3 CREDIT, 4 POISON. -/
def State.qConds (s : State) (n : Nat) : Nat :=
  ofBool (s.q n).deliverable + 2 * s.get (whfQStat_IDLE n) + 4 * s.get (whfQStat_OVERRUN n)
    + 8 * s.get (whfQStat_CREDIT n) + 16 * s.get (whfQStat_POISON n)

/-- Whether a queue is pending (R403). -/
def State.qPending (s : State) (n : Nat) : Bool := s.qUsed n && (s.qConds n &&& s.get (whfQTmo_EN n)) != 0

/-- A change of a queue with what follows from it (R403): CREDIT when FREE rises to 258 or more, the queue's event when
it becomes pending. -/
def State.touchQ (s : State) (n : Nat) (f : State → State) : State :=
  let s1 := f s
  let s2 := if s.qFree n < 258 ∧ 258 ≤ s1.qFree n then s1.set (whfQStat_CREDIT n) 1 else s1
  if !s.qPending n && s2.qPending n then s2.raise (320 + s2.get (whfQCfg_EVT n)) else s2

/-- An item of data bytes with a flow tag and a stamp (R390, R391). -/
def mkItem (flow : Nat) (t : Stamp) (data : List Byte) : Item :=
  { flow := flow % 4096, epoch := t.epoch, rank := t.rank, sec := (t.ptp / nsPerSec) % 2 ^ 32, ns := t.ptp % nsPerSec,
    data := (dwords data).map fun w => { val := w } }

/-- The bytes of an item's data words. -/
def Item.bytes (it : Item) : List Byte := dbytes (it.data.map (·.val))

/-- Whether any word of an item carries poison (R396). -/
def Item.poisoned (it : Item) : Bool := it.data.any (·.poison)

/-- What an armed delay or parity entry does to an item that enters a main queue (R531 kinds 0x1 and 0x6): it becomes
visible a random A to B µs later; word A, or the last word, is damaged. -/
def State.perturbItem (s : State) (n : Nat) (it : Item) : Item × State :=
  let r := s.everyNth 6 fun e => e.target == n
  let it1 := match r.1, s.armedEntry 6 fun e => e.target == n with
    | true, some k =>
      let w := min (s.entry k).a (it.data.length - 1)
      { it with data := it.data.set w { it.data.getD w { val := 0 } with poison := true } }
    | _, _ => it
  match r.2.armedEntry 1 fun e => e.target == n with
  | some k =>
    let d := r.2.random 16
    let us := (s.entry k).a + d.1 % ((s.entry k).b + 1 - (s.entry k).a)
    ({ it1 with delayed := true, dueAt := s.clk.mono + 1000 * us }, d.2.hit k)
  | none => (it1, r.2)

/-- An item becomes visible at the tail (R395): it takes the next ISEQ and restarts the idle timer (R397). -/
def State.enqueueNow (s : State) (n : Nat) (it : Item) : State :=
  let r := s.perturbItem n it
  r.2.touchQ n fun s =>
    let x := s.q n
    s.setQ n { x with items := x.items ++ [{ r.1 with iseq := x.tail }],
                      tail := (x.tail + 1) % 2 ^ 32,
                      idleRun := (decide (s.get (whfQTmo_TIMEOUT n) ≠ 0) && !r.1.delayed) || x.idleRun }

/-- Whether a credit-mode claim for an item can be granted now (R393). -/
def State.qRoom (s : State) (n : Nat) (words : Nat) : Bool :=
  decide ((s.q n).waiters = []) && decide (words ≤ s.qFree n)

/-- A hardware producer's enqueue (R393): at once when room allows and nobody waits, else it joins the waiting
producers. False when it waits. A queue without an allocation takes nothing (R389). -/
def State.hwEnqueue (s : State) (p : Producer) (n : Nat) (it : Item) : State × Bool :=
  if !s.qUsed n then (s, true)
  else if s.qRoom n it.words then (s.enqueueNow n it, true)
  else (s.setQ n { s.q n with waiters := (s.q n).waiters ++ [{ prod := p, item := it }] }, false)

/-- A hardware enqueue whose producer goes on without looking at the outcome. -/
def State.produce (s : State) (p : Producer) (n : Nat) (it : Item) : State := (s.hwEnqueue p n it).1

/-- A receive path's enqueue (R394): into a flag-mode queue it never waits, an item that does not fit is discarded
whole and counted; into a credit-mode queue it is a hardware producer. -/
def State.rxEnqueue (s : State) (who : Producer) (n : Nat) (it : Item) : State :=
  if !s.qUsed n then s
  else if s.flag (whfQCfg_FLAG n) then
    if it.words ≤ s.qFree n then s.enqueueNow n it
    else s.touchQ n fun s => (s.bump (whfQCnt_OVERRUN n) 1).set (whfQStat_OVERRUN n) 1
  else s.produce who n it

/-- The header words of a delivered item (R390). -/
def Item.hdr0 (it : Item) : DWord :=
  BitVec.ofNat 64 ((it.data.length - 1) % 512 * 2 ^ 55 + it.flow % 4096 * 2 ^ 43 + it.epoch % 8 * 2 ^ 40
    + it.rank % 32 * 2 ^ 35 + ofBool it.poisoned * 2 ^ 34 + ofBool it.redelivered * 2 ^ 33 + ofBool it.class0 * 2 ^ 32
    + it.iseq % 2 ^ 32)

/-- Header word 1: stamp seconds and nanoseconds. -/
def Item.hdr1 (it : Item) : DWord := BitVec.ofNat 64 (it.sec % 2 ^ 32 * 2 ^ 32 + it.ns % 2 ^ 32)

/-- Poisoned delivery (R396): counted, and the POISON condition. -/
def State.noteDelivery (s : State) (n : Nat) (it : Item) : State :=
  if it.poisoned then (s.bump (whfQCnt_POISONED n) 1).set (whfQStat_POISON n) 1 else s

/-- Delivery of the next item (R395 to R401), or none. A delivery that empties the queue stops the idle timer. -/
def State.deliver (s : State) (n : Nat) : Option (Item × State) :=
  let x := s.q n
  if !s.qUsed n || !x.deliverable then none
  else match x.lane with
    | l :: rest =>
      let it := { l.item with class0 := true }
      let x1 := { x with lane := rest }
      some (it, s.touchQ n fun s => (s.setQ n (if x1.undelivered = 0 then { x1 with idleRun := false } else x1)).noteDelivery n it)
    | [] => match x.nextIdx with
      | none => none
      | some i =>
        let it0 := x.items.getD i {}
        let it := { it0 with redelivered := decide (i < (x.front + 2 ^ 32 - x.mark) % 2 ^ 32) }
        let newHead := (x.mark + i + 1) % 2 ^ 32
        let newFront := if it.redelivered then x.front else newHead
        let x1 := { x with head := newHead, front := newFront }
        let x2 := if s.flag (whfQCfg_RETAIN n) then x1
                  else { x1 with items := x.items.drop (i + 1), mark := newHead, front := newHead }
        let x3 := if x2.undelivered = 0 then { x2 with idleRun := false } else x2
        some (it, s.touchQ n fun s => (s.setQ n x3).noteDelivery n it)

/-- The 32-bit item sequence nearest HEAD that 24 bits name (R399). -/
def Queue.extend (x : Queue) (i : Nat) : Nat :=
  let d := toSigned 24 (i + 2 ^ 24 - x.head % 2 ^ 24)
  (((x.head : Int) + d) % (2 ^ 32 : Nat)).toNat

/-- How far an item sequence lies past MARK, negative below it. -/
def Queue.rel (x : Queue) (i : Nat) : Int := toSigned 32 (i + 2 ^ 32 - x.mark)

/-- The sequence number of the item that stands at the head. -/
def Queue.headSeq (x : Queue) : Option Nat := x.nextIdx.map fun i => (x.items.getD i {}).iseq

/-- A queue whose head an operation has moved (R397, R400): with nothing undelivered the idle timer stops, and the launch unit's hold
ends with the item it held. -/
def Queue.settle (x old : Queue) : Queue :=
  let x1 := if x.undelivered = 0 then { x with idleRun := false } else x
  if x.headSeq = old.headSeq then x1 else { x1 with held := false, due := none }

/-- Release (R399): MARK moves to one past the named retained item, or to FRONT; HEAD follows when MARK passes it. -/
def State.qRelease (s : State) (n : Nat) (all : Bool) (iseq : Nat) : State :=
  if !s.qUsed n || !s.flag (whfQCfg_RETAIN n) then s
  else
    let x := s.q n
    let nm := x.rel (x.extend iseq)
    let fr := x.rel x.front
    if !all && decide (nm < 0) then s
    else
      let k := (if all || decide (fr ≤ nm) then fr else nm + 1).toNat
      let m := (x.mark + k) % 2 ^ 32
      let h := if decide (x.rel x.head < k) then m else x.head
      s.touchQ n fun s => s.setQ n ({ x with items := x.items.drop k, mark := m, head := h : Queue }.settle x)

/-- Rewind (R399): HEAD returns to MARK; when an item becomes deliverable again the idle timer restarts (R397). -/
def State.qRewind (s : State) (n : Nat) : State :=
  if !s.qUsed n || !s.flag (whfQCfg_RETAIN n) then s
  else
    let x := s.q n
    let x1 := { x with head := x.mark }
    let again := decide (x.undelivered < x1.undelivered)
    let run := if again then decide (s.get (whfQTmo_TIMEOUT n) ≠ 0) else x1.idleRun
    s.touchQ n fun s => s.setQ n ({ x1 with idleRun := run }.settle x)

/-- Done (R399): the named retained item is marked. -/
def State.qDone (s : State) (n : Nat) (iseq : Nat) : State :=
  if !s.qUsed n || !s.flag (whfQCfg_RETAIN n) then s
  else
    let x := s.q n
    let r := x.rel (x.extend iseq)
    if 0 ≤ r ∧ r < x.rel x.front then
      let i := r.toNat
      s.touchQ n fun s => s.setQ n ({ x with items := x.items.set i { x.items.getD i {} with done := true } : Queue }.settle x)
    else s

/-- A retained-item operation by its OP code (WHF_Q_CTRL_q, R399). -/
def State.qOp (s : State) (n op : Nat) (all : Bool) (iseq : Nat) : State :=
  if op = 1 then s.qRelease n all iseq
  else if op = 2 then s.qRewind n
  else if op = 3 then s.qDone n iseq
  else s

/-- Removal of the main item at HEAD by the launch unit without sending it (R64, R65, R112): its words are freed and
HEAD passes it; a retained queue keeps only its place in the sequence. -/
def State.qDropHead (s : State) (n : Nat) : State :=
  let x := s.q n
  match x.nextIdx with
  | none => s
  | some i =>
    let newHead := (x.mark + i + 1) % 2 ^ 32
    let x1 : Queue :=
      if s.flag (whfQCfg_RETAIN n) then
        { x with items := x.items.set i { x.items.getD i {} with gone := true, done := true, data := [] },
                 head := newHead, held := false, due := none,
                 front := if decide (i < (x.front + 2 ^ 32 - x.mark) % 2 ^ 32) then x.front else newHead }
      else { x with items := x.items.drop (i + 1), mark := newHead, head := newHead, front := newHead, held := false, due := none }
    s.touchQ n fun s => s.setQ n (x1.settle x)

/-- Placement in the priority lane (R401): false when the lane is full or the item too long. It restarts the idle timer (R397). -/
def State.lanePlace (s : State) (n : Nat) (it : Item) : State × Bool :=
  let x := s.q n
  if s.qUsed n && s.flag (whfQCfg_LANE n) && decide (x.lane.length < 8) && decide (it.data.length ≤ 16) then
    (s.touchQ n fun s => s.setQ n { x with lane := x.lane ++ [{ item := { it with class0 := true }, hold := true }]
                                           idleRun := decide (s.get (whfQTmo_TIMEOUT n) ≠ 0) || x.idleRun }, true)
  else (s, false)

/-- The first class-0 item of a lane when its hold is released (R401). -/
def Queue.releasedLane (x : Queue) : Option LaneItem := x.lane.head?.filter fun l => !l.hold

/-- A lane item leaves its lane (R401). -/
def State.dropLane (s : State) (n : Nat) (l : LaneItem) : State :=
  let x := { s.q n with lane := (s.q n).lane.erase l }
  s.touchQ n fun s => s.setQ n (if x.undelivered = 0 then { x with idleRun := false } else x)

/-- The main item that the launch unit held goes (R63, R66): it is delivered, whatever waits in the lane. -/
def State.takeMain (s : State) (n : Nat) : Option (Item × State) :=
  let x := s.q n
  ((s.setQ n { x with lane := [], held := false, due := none }).deliver n).map fun r =>
    (r.1, r.2.setQ n { r.2.q n with lane := x.lane, idleRun := if x.lane = [] then (r.2.q n).idleRun else x.idleRun })

/-- The launch unit holds the main item at the head for an instant (R63). -/
def State.holdFor (s : State) (n : Nat) (due : Option (Bool × Nat)) : State := s.setQ n { s.q n with held := true, due := due }

/-- The launch unit holds the main item at the head. -/
def State.holdMain (s : State) (n : Nat) : State := s.setQ n { s.q n with held := true }

/-- The main item at the head, changed where it stands. -/
def State.markHead (s : State) (n : Nat) (f : Item → Item) : State :=
  let x := s.q n
  match x.nextIdx with
  | none => s
  | some i => s.setQ n { x with items := x.items.set i (f (x.items.getD i {})) }

/-- The main item at the head is marked as counted late (R65). -/
def State.markLate (s : State) (n : Nat) : State := s.markHead n fun it => { it with late := true }

/-- The main item at the head is marked as deferred by the duty budget (R194). -/
def State.markDeferred (s : State) (n : Nat) : State := s.markHead n fun it => { it with deferred := true }

end Sys2Proof.Machine
end

