-- ==== Sys2Proof/Machine/NandOps.lean ====
section
/-!
DEFINITION. What lies under the content of the Hold (18_hold.md): regions, physical blocks and their pools, the order of NAND work
(R35, R455), and the buffers that gather writes until their pages are programmed (R453).
-/
namespace Sys2Proof.Machine

/-- Bytes of one logical block of a region (R443, R445): a physical block's capacity in the region's mode. -/
def Manifest.lbBytes (m : Manifest) (r : Region) : Nat :=
  if r.slc then m.blockBytes / 16384 / 3 * 16384 else m.blockBytes

/-- A region of the Manifest. -/
def Manifest.region (m : Manifest) (n : Nat) : Region := smGet {} m.regions n

/-- Whether a power warning stands. -/
def State.warned (s : State) : Bool := s.flag pwrStat_WARN

/-! ### Blocks and pools -/

/-- A physical block. -/
def State.blk (s : State) (b : Nat) : Block := smGet {} s.hld.blocks b

/-- The state with a physical block. -/
def State.setBlk (s : State) (b : Nat) (x : Block) : State :=
  { s with hld := { s.hld with blocks := smPut {} s.hld.blocks b x } }

/-- The pool of a physical block: 0 TLC, 1 SLC (R445, HLD_POOL_p). -/
def State.poolOf (s : State) (b : Nat) : Nat := if b < s.man.tlcBlocks then 0 else 1

/-- The physical blocks of a pool. -/
def State.poolBlocks (s : State) (p : Nat) : List Nat :=
  if p = 0 then List.range s.man.tlcBlocks else (List.range s.man.slcBlocks).map (· + s.man.tlcBlocks)

/-- The pool of a region. -/
def State.regionPool (s : State) (r : Nat) : Nat := if (s.man.region r).slc then 1 else 0

/-- The pool of a logical block's region. -/
def State.lkeyPool (s : State) (l : Nat) : Nat := s.regionPool (l / 2 ^ 32)

/-- Pages of a logical block. -/
def State.lbPages (s : State) (l : Nat) : Nat := s.man.lbBytes (s.man.region (l / 2 ^ 32)) / 16384

/-- The best of a list by a strict order, the first on a tie. -/
def bestBy (better : Nat → Nat → Bool) : List Nat → Option Nat
  | [] => none
  | b :: bs => match bestBy better bs with
    | none => some b
    | some c => if better c b then some c else some b

/-- The blocks of a pool that hold nothing. -/
def State.freeBlocks (s : State) (p : Nat) : List Nat := (s.poolBlocks p).filter fun b => (s.blk b).use == .free

/-- Free blocks beyond the spares that no retirement has used yet (R458). -/
def State.usable (s : State) (p : Nat) : Nat :=
  (s.freeBlocks p).length - (smGet 0 s.man.spares p - s.get (hldSpare_RETIRED p))

/-- Whether a pool is short of free blocks (R458): placement into its regions waits, KEEP appends are refused. -/
def State.poolShort (s : State) (p : Nat) : Bool := decide (s.poolBlocks p ≠ []) && decide (s.usable p < 2)

/-- The free block of a pool with the lowest P/E count (R450, R456); the spares are kept for retirements. -/
def State.takeFree (s : State) (p : Nat) : Option Nat :=
  if s.usable p = 0 then none else bestBy (fun a b => decide ((s.blk a).pe < (s.blk b).pe)) (s.freeBlocks p)

/-- The free block of a pool with the highest P/E count (R456). -/
def State.takeWorn (s : State) (p : Nat) : Option Nat :=
  if s.usable p = 0 then none else bestBy (fun a b => decide ((s.blk b).pe < (s.blk a).pe)) (s.freeBlocks p)

/-! ### The order of NAND work -/

/-- Whether Maintenance is in force (R35). -/
def State.maintenance (s : State) : Bool := s.get sysProfileStat_ACTIVE == 3

/-- The precedence of NAND work beside the flush set and the journal (R455); in Maintenance merges, moves and erases go before reads and
placement (R35). -/
def NandKind.level (maint : Bool) : NandKind → Nat
  | .mapRec => 2
  | .read => if maint then 4 else 3
  | .place _ _ => if maint then 5 else 4
  | .merge _ => if maint then 3 else 5
  | .erase _ => if maint then 3 else 5

/-- Dies that work goes on in (R443). -/
def State.dies (s : State) : Nat := max 1 s.man.dies

/-- Works in progress. -/
def State.nandStarted (s : State) : Nat := (s.nand.work.filter (·.started)).length

/-- Whether a journal record is still to be programmed: it takes the next die (R455). -/
def State.journalDue (s : State) : Bool := s.cmt.journal.any fun r => !r.durable

/-- Dies free for other work. -/
def State.diesFree (s : State) : Nat := s.dies - s.nandStarted - ofBool s.journalDue

/-- Whether the program of a journal record has to wait: every die is at work, or the flush area is full (R454, R455). -/
def State.journalWaits (s : State) : Bool :=
  !s.warned && (decide (s.dies ≤ s.nandStarted) ||
    (decide ((s.man.region 0).size ≠ 0) && decide ((s.man.region 0).size ≤ s.hld.flushUsed)))

/-- Whether waiting work may start, a die being free (R458). -/
def State.mayStart (s : State) (w : NandWork) : Bool :=
  !w.started && match w.kind with
    | .place l _ => !s.poolShort (s.lkeyPool l)
    | _ => true

/-- The work that starts next: of the lowest level, the oldest within it (R455). -/
def State.nandPick (s : State) : Option Nat :=
  let lv := fun (i : Nat) => match s.nand.work[i]? with
    | some w => w.kind.level s.maintenance
    | none => 0
  bestBy (fun a b => decide (lv a < lv b)) ((List.range s.nand.work.length).filter fun i => match s.nand.work[i]? with
    | some w => s.mayStart w
    | none => false)

/-- Waiting work starts while dies are free (R455); from a warning on none starts (R462). -/
def State.nandGo : Nat → State → State
  | 0, s => s
  | fuel + 1, s =>
    if s.warned || s.diesFree == 0 then s
    else match s.nandPick with
      | none => s
      | some i => State.nandGo fuel { s with nand := { s.nand with work := s.nand.work.modify i fun w => { w with started := true } } }

/-- Whatever can start does. -/
def State.nandRun (s : State) : State := State.nandGo s.nand.work.length s

/-- Whether work still waits for its turn; its completion cannot come yet. -/
def State.nandWaits (s : State) (k : NandKind) : Bool := s.nand.work.any fun w => w.kind == k && !w.started

/-- Work arises; it stands in the queue once while it waits. -/
def State.nandAdd (s : State) (k : NandKind) : State :=
  if s.nandWaits k then s else State.nandRun { s with nand := { s.nand with work := s.nand.work ++ [{ kind := k }] } }

/-- Work is done; the next starts. -/
def State.nandDone (s : State) (k : NandKind) : State :=
  State.nandRun { s with nand := { s.nand with work := s.nand.work.eraseP fun w => w.kind == k && w.started } }

/-- Work that was started and could not be done waits again. -/
def State.nandAgain (s : State) (k : NandKind) : State :=
  { s with nand := { s.nand with work := s.nand.work.map fun w => if w.kind = k then { w with started := false } else w } }

/-- At a warning erases are aborted (R462): they wait again. -/
def State.abortErases (s : State) : State :=
  { s with nand := { s.nand with work := s.nand.work.map fun w => match w.kind with
    | .erase _ => { w with started := false }
    | _ => w } }

/-! ### Gathering -/

/-- The coalescing window of the profile in force in ns; none in Maintenance (R34, R453). -/
def State.gatherWindow (s : State) : Option Nat :=
  match s.get sysProfileStat_ACTIVE with
  | 0 => some 2000000000
  | 1 => some 500000000
  | 2 => some 100000000
  | _ => none

/-- A gathered page is to be programmed (R453): work of its own. -/
def State.pageDue (s : State) (l p : Nat) : State :=
  State.nandAdd { s with nand := { s.nand with pages := s.nand.pages.map fun (x : PageBuf) =>
    if x.lkey = l ∧ x.page = p then { x with due := true } else x } } (.place l p)

/-- Every gathered page is to be programmed. -/
def State.allDue (s : State) : State :=
  (s.nand.pages.filter fun x => !x.due).foldl (fun (st : State) x => st.pageDue x.lkey x.page) s

/-- Pages that the Hold's buffers gather: 1 MiB (R33) of 16 KiB pages (DESIGN CHOICE, log entry 127). -/
def gatherPages : Nat := 64

/-- Bytes written into a logical page (R453): it is gathered from its first write on; a full page is programmed, and the oldest one when
the buffers are full. A write to a page whose program runs begins a new gathering. -/
def State.gatherPage (s : State) (l p at0 n : Nat) : State :=
  let m := (2 ^ n - 1) * 2 ^ at0
  let running := s.nand.work.any fun w => w.kind == .place l p && w.started
  let gathers := fun (x : PageBuf) => decide (x.lkey = l) && decide (x.page = p) && x.line.isNone && !(x.due && running)
  let more := s.nand.pages.map fun x => if gathers x then { x with mask := x.mask ||| m } else x
  let opened : PageBuf :=
    { lkey := l, page := p, mask := m, opened := s.clk.mono, window := s.gatherWindow, first := s.cmt.next }
  let pages := if s.nand.pages.any gathers then more else s.nand.pages ++ [opened]
  let s1 : State := { s with nand := { s.nand with pages := pages } }
  let full := pages.any fun x => gathers x && x.mask == 2 ^ 16384 - 1 && !x.due
  let s2 := if full then s1.pageDue l p else s1
  if s2.nand.pages.length ≤ gatherPages then s2
  else match s2.nand.pages.find? (!·.due) with
    | some x => s2.pageDue x.lkey x.page
    | none => s2

/-- Bytes written at a Hold logical address, page by page. -/
def State.gatherAt (s : State) (a len : Nat) : State :=
  let r := a / 2 ^ 56
  let off := a % 2 ^ 56
  let per := s.man.lbBytes (s.man.region r) / 16384
  if (s.man.region r).size = 0 ∨ len = 0 ∨ per = 0 then s
  else
    let p0 := off / 16384
    (List.range ((off + len - 1) / 16384 + 1 - p0)).foldl (fun (st : State) k =>
      let b := (p0 + k) * 16384
      let x := max off b
      st.gatherPage (r * 2 ^ 32 + (p0 + k) / per) ((p0 + k) % per) (x - b) (min (off + len) (b + 16384) - x)) s

/-- A page has been programmed: what was gathered for it is placed, or, in a word line that is not complete, waits for its other pages
(R453). -/
def State.pagePlaced (s : State) (l p : Nat) (line : Option Nat) : State :=
  let here := fun (x : PageBuf) => decide (x.lkey = l) && decide (x.page = p) && x.line.isNone
  let rest := s.nand.pages.eraseP here
  let pages := match line, s.nand.pages.find? here with
    | some b, some x => rest ++ [{ x with due := true, line := some b }]
    | _, _ => rest
  { s with nand := { s.nand with pages := pages } }

/-- The pages that waited for a word line of a block are placed (R453). -/
def State.linePlaced (s : State) (b : Nat) : State :=
  { s with nand := { s.nand with pages := s.nand.pages.filter fun x => x.line ≠ some b } }

/-- The pages that wait for a word line of a block wait for it in another one. -/
def State.lineMoved (s : State) (b d : Nat) : State :=
  { s with nand := { s.nand with pages := s.nand.pages.map fun x => if x.line = some b then { x with line := some d } else x } }

/-- PLACED_JSEQ once the map records are durable (R454): every Hold action up to it is placed. -/
def State.placedTo (s : State) : Nat :=
  s.nand.pages.foldl (fun n x => min n (x.first - 1)) s.cmt.durJseq

end Sys2Proof.Machine
end

