-- ==== Sys2Proof/Machine/CommitOps.lean ====
section
/-!
DEFINITION. Commit groups (13_commit_groups.md) and the streams of the Hold (R447): opening, staging with its refusals
in the order of R561, sealing, aborting, durability, and what a group changes in the stored content.
-/
namespace Sys2Proof.Machine

/-! ### Stored content -/

/-- Bytes put into a byte table from an address on. -/
def putBytes (m : SMap Byte) (a : Nat) : List Byte → SMap Byte
  | [] => m
  | b :: bs => putBytes (smPut 0 m a b) (a + 1) bs

/-- n bytes of a byte table from an address on. -/
def getBytes (m : SMap Byte) (a n : Nat) : List Byte := (List.range n).map fun i => smGet 0 m (a + i)

/-- A length rounded up to 64 bytes (R447). -/
def up64 (n : Nat) : Nat := (n + 63) / 64 * 64

/-- Where a record of a length goes in a stream (R447): at TAIL, or at the next logical block when it would straddle. -/
def appendAt (lb tail len : Nat) : Nat :=
  if lb ≠ 0 ∧ tail / lb ≠ (tail + len - 1) / lb then (tail / lb + 1) * lb else tail

/-- A stream after an append (R447): a RING's HEAD advances past the oldest whole records that the append overwrites. -/
def Stream.append (st : Stream) (m : Manifest) (r : Region) (bs : List Byte) : Stream :=
  let o := appendAt (m.lbBytes r) st.tail bs.length
  let t := o + up64 bs.length
  if r.keep then { st with tail := t, recs := st.recs ++ [(o, bs)] }
  else
    let kept := st.recs.filter fun p => decide (t ≤ p.1 + r.size)
    let h := match kept with
      | (a, _) :: _ => if kept.length = st.recs.length then st.head else a
      | [] => if st.recs = [] then st.head else o
    { st with tail := t, head := h, recs := kept ++ [(o, bs)] }

/-! ### Sealed records -/

/-- Tables of the stored content that this section names: the metrological log, the active calibration, billing sets, load-profile
entries, the flags that outlive a reset (1 a calibration change of the open interval, 0 continuity not proven). -/
def tabMlog : Nat := 1
/-- The active calibration set. -/
def tabCal : Nat := 2
/-- Billing sets: 0 the site's, slot + 1 an endpoint's. -/
def tabSet : Nat := 13
/-- Load-profile entries, by set × 2^40 + position. -/
def tabLp : Nat := 15
/-- Flags of the metrology that outlive a reset: 0 continuity not proven (R93), 1 a calibration change in the open quarter (R84), 2 the
open quarter uncalibrated in part, 4 calibration lost (R94), 3 the seal open in the open quarter before it closed (R88), 5 trust UNTRUSTED or LOST in it (R313),
6 the groups have had their first start (R301). -/
def tabFlag : Nat := 25
/-- Boundary records by quarter. -/
def tabBnd : Nat := 14
/-- Period records, by set × 16 + number mod 13. -/
def tabPer : Nat := 16
/-- Session results. -/
def tabSessRes : Nat := 23
/-- Active calendars by group. -/
def tabCalAct : Nat := 10
/-- What Oarsmen 12 and 13 and the seal core write into sealed regions by actions of KIND 0x06 and 0x07, by Hold logical address (R22). -/
def tabRaw : Nat := 26

/-- The session top of each endpoint (R247): SSEQ and END_XING of its top session record. -/
def tabSessTop : Nat := 27

/-- Whether a table holds records of the sealed domain; the others hold enrolments, frame counters, session tops and evidence batches. A
key slot's record is a sealed one where its attribute word says SEALED (R482). -/
def sealedRec (t : Nat) (v : List Nat) : Bool :=
  if t = 8 then natBit (v.headD 0) 29 else !(t == 3 || t == 4 || t == 5 || t == 6 || t == 7 || t == 9 || t == tabSessTop)

/-- Copies of a sealed record (R94, R309, R320, R324, R333, R482): two, one of a load-profile entry and of what an action writes. -/
def sealCopies (t : Nat) : Nat := if t = tabLp ∨ t = tabRaw then 1 else 2

/-- The region of a record of the sealed domain (Typical layout table). -/
def sealRegion (t : Nat) : Nat := if t = tabMlog then 2 else if t = tabLp then 3 else 1

/-- Bytes from one record of a table to the next in region 1 (DESIGN CHOICE, log entry 114). -/
def sealPitch (t : Nat) : Nat := if t = tabSet then 1024 else if t = tabBnd then 128 else if t = tabPer then 512 else if t = 11 then 65536 else 4096

/-- The Hold logical address of a copy of a sealed record (R92, R95, R330, R446). The places within the regions are a DESIGN CHOICE (log
entry 114). -/
def sealAddr (t k c : Nat) : Nat :=
  if t = tabRaw then k
  else sealRegion t * 2 ^ 56 +
    (if t = tabMlog then c * 2 ^ 24 + 64 * k
     else if t = tabLp then (k / 2 ^ 40 * 2 ^ 20 + k % 2 ^ 40) * 40
     else c * 2 ^ 32 + t * 2 ^ 27 + (if t = tabBnd then k % 4096 else k) * sealPitch t % 2 ^ 27)

/-- The stream number that a tag covers (R92): the region that the record lies in. -/
def sealStream (t k : Nat) : Nat := sealAddr t k 0 / 2 ^ 56

/-- Twelve bytes of a billing set's register pair, sixteen rates (Billing set table). -/
def pairBytes (n : Nat) (f : Nat → Nat) (o w : Nat) : List Byte := (List.range n).flatMap fun i => be w (f (o + i)) ++ be w (f (o + n + i))

/-- The bytes of a billing set (R319): 512 of them. -/
def setBytes (f : Nat → Nat) : List Byte :=
  be 8 (f 0) ++ be 4 (f 1) ++ be 1 (f 2) ++ be 1 (f 3) ++ be 2 (f 4) ++ be 6 (f 5) ++ be 2 0
    ++ (List.range 4).flatMap (fun i => be 6 (f (11 + i))) ++ be 4 (f 6) ++ be 2 (f 7) ++ be 2 0
    ++ (List.range 4).flatMap (fun i => be 4 (f (15 + i))) ++ be 4 (f 8) ++ be 4 0 ++ pairBytes 16 f 23 6 ++ pairBytes 16 f 55 4
    ++ pairBytes 1 f 87 6 ++ pairBytes 1 f 89 6 ++ List.replicate 88 0

/-- The bytes of a boundary record (R324): 96 of them. -/
def bndBytes (f : Nat → Nat) : List Byte :=
  be 4 (f 0) ++ be 2 (f 1) ++ (List.range 4).flatMap (fun i => be 6 (f (2 + i))) ++ be 2 0 ++ (List.range 64).flatMap fun g => be 1 (f (6 + g))

/-- The bytes of a period record (R333): 368 of them. -/
def perBytes (f : Nat → Nat) : List Byte :=
  be 2 (f 0) ++ be 2 (f 1) ++ be 4 (f 2) ++ be 4 (f 3) ++ be 6 (f 4) ++ be 2 0 ++ pairBytes 16 f 5 6 ++ pairBytes 16 f 37 4
    ++ pairBytes 1 f 69 6 ++ pairBytes 1 f 71 6 ++ be 4 0

/-- Prepayment accounts (R373). -/
def tabAcct : Nat := 17

/-- The bytes of an account record (R373): 96 of them. -/
def acctBytes (f : Nat → Nat) : List Byte :=
  be 8 (f 0) ++ be 1 (f 1) ++ be 1 (f 2) ++ be 2 0 ++ be 4 (f 3) ++ be 4 (f 4) ++ be 4 0 ++ be 8 (f 5)
    ++ (List.range 16).flatMap fun i => be 4 (f (6 + i))

/-- The body of a sealed record as the Hold holds it (R84, R96, R319, R324, R329, R333, R335). A record whose body the spec does not lay
out has its fields as 8 bytes each (DESIGN CHOICE, log entry 114). -/
def recBytes (t : Nat) (v : List Nat) : List Byte :=
  let f := fun i => v.getD i 0
  if t = tabMlog ∨ t = tabCal ∨ t = tabSessRes ∨ t = tabCalAct ∨ t = tabRaw then v.map (BitVec.ofNat 8)
  else if t = tabSet then setBytes f
  else if t = tabBnd then bndBytes f
  else if t = tabPer then perBytes f
  else if t = tabAcct then acctBytes f
  else if t = tabLp then (List.range 4).flatMap (fun i => be 4 (f (1 + i))) ++ be 2 (f 5) ++ List.replicate 6 0
  else v.flatMap fun n => be 8 n

/-- Bytes of the Hold that a copy of a sealed record takes: its body and its tag, which a record of the metrological log holds itself. -/
def recPlace (t : Nat) (v : List Nat) : Nat := (recBytes t v).length + (if t = tabMlog then 0 else 16)

/-- The characters of a customisation string as bytes. -/
def ascii (t : String) : List Byte := t.toList.map fun c => BitVec.ofNat 8 c.toNat

/-- A KMAC256 tag of n bytes. -/
def tagOf (key input : List Byte) (n : Nat) (cust : String) : List Byte :=
  padTo n (kmac256 key input (8 * n) (ascii cust))

/-- The tag of a copy of a sealed record (R92): kind, stream, write counter, logical address and body under the sealed storage key
of slot 2. The kind byte is the table's number (DESIGN CHOICE, log entry 114). -/
def State.sealTag (s : State) (t k c ctr : Nat) (v : List Nat) : List Byte :=
  tagOf (smGet {} s.keys.slots 2).key
    (be 1 t ++ be 1 (sealStream t k) ++ be 8 ctr ++ be 8 (sealAddr t k c) ++ recBytes t v) 16 "SLD1"

/-- One change of the stored content (R347 kinds 0x03, 0x06, 0x07, 0x09, 0x0A, and the sealed domain's records). -/
def Image.apply (m : Manifest) (im : Image) : StoreUpd → Image
  | .counterAdd c v => { im with counters := smPut 0 im.counters c (toSigned 64 (ofSigned 64 (smGet 0 im.counters c + v))) }
  | .counterSet c v => { im with counters := smPut 0 im.counters c v }
  | .ctx slot off bs => { im with ctx := putBytes im.ctx (slot * 1024 + off) bs }
  | .holdWrite a bs => { im with bytes := putBytes im.bytes a bs }
  | .append r bs => { im with streams := smPut {} im.streams r ((smGet {} im.streams r).append m (m.region r) bs) }
  | .record t k v => { im with tables := smPut [] im.tables t (smPut [] (smGet [] im.tables t) k v) }
  | .sealed t k v x =>
    { im with tables := smPut [] im.tables t (smPut [] (smGet [] im.tables t) k v)
              seals := smPut [] im.seals t (smPut {} (smGet [] im.seals t) k x)
              prev := if t = tabSet then smPut [] im.prev k (smGet [] (smGet [] im.tables t) k) else im.prev }

/-- Changes in order (R353). -/
def Image.applyAll (m : Manifest) (im : Image) (us : List StoreUpd) : Image := us.foldl (Image.apply m) im

/-- A change on its way to the Hold (R93): a record of the sealed domain takes the next value of the write counter and its tags. -/
def State.sealUpd (s : State) (u : StoreUpd) : StoreUpd × State :=
  match u with
  | .record t k v =>
    if sealedRec t v then
      let n := s.aon.sealedCounter + 1
      (.sealed t k v { ctr := n, tags := (List.range (sealCopies t)).map fun c => s.sealTag t k c n v },
       { s with aon := { s.aon with sealedCounter := n } })
    else (u, s)
  | _ => (u, s)

/-- The Hold addresses that a change in the content writes: address and length (R446, R447, R453). -/
def State.updPlaces (s : State) (u : StoreUpd) : List (Nat × Nat) :=
  match u with
  | .holdWrite a bs => [(a, bs.length)]
  | .append r bs => match ((smGet {} s.live.streams r).recs.reverse.find? fun p => p.2 == bs) with
    | some p => [(r * 2 ^ 56 + p.1 % max 1 (s.man.region r).size, bs.length)]
    | none => []
  | .sealed t k v _ => if t = tabRaw then [] else (List.range (sealCopies t)).map fun c => (sealAddr t k c, recPlace t v)
  | _ => []

/-- Effective writes and appends gathered by the Hold's buffers (R453). -/
def State.gather (s : State) (us : List StoreUpd) : State :=
  (us.flatMap s.updPlaces).foldl (fun (st : State) p => st.gatherAt p.1 p.2) s

/-- Changes on their way to the Hold, in order. -/
def State.sealUpds (s : State) : List StoreUpd → List StoreUpd × State
  | [] => ([], s)
  | u :: us =>
    let r := s.sealUpd u
    let q := State.sealUpds r.2 us
    (r.1 :: q.1, q.2)

/-- A record by table and key; the empty list where none is stored. -/
def Image.row (im : Image) (t k : Nat) : List Nat := smGet [] (smGet [] im.tables t) k

/-- A field of a record. -/
def Image.rowN (im : Image) (t k i : Nat) : Nat := (im.row t k).getD i 0

/-- Bytes of an endpoint context (R265). -/
def State.ctxAt (s : State) (slot off n : Nat) : Nat := ofBe (getBytes s.live.ctx (slot * 1024 + off) n)

/-- Bytes of an endpoint context as a list. -/
def State.ctxBytes (s : State) (slot off n : Nat) : List Byte := getBytes s.live.ctx (slot * 1024 + off) n

/-! ### Groups -/

/-- A commit group. -/
def State.grp (s : State) (g : Nat) : Group := smGet {} s.cmt.groups g

/-- The state with a commit group. -/
def State.setGrp (s : State) (g : Nat) (x : Group) : State :=
  { s with cmt := { s.cmt with groups := smPut {} s.cmt.groups g x } }

/-- Whether a group number is held (R345). -/
def Group.held (x : Group) : Bool := x.st == .opened || x.st == .prestaged || x.st == .visible

/-- Staging places taken outside the kept 1,024 and within them (R350). -/
def State.placesUsed (s : State) (kept : Bool) : Nat :=
  (s.cmt.groups.map fun p =>
    if p.2.held then (if kept then p.2.keptPlaces else p.2.actions.length - p.2.keptPlaces) else 0).sum

/-- Opening a group (R344, R345, R561): result, group, state. The lowest free number is taken (DESIGN CHOICE, log
entry 15). -/
def State.openGroup (s : State) (iss : Issuer) (reserved : Bool) : Nat × Nat × State :=
  if s.warned then (0x08, 0, s)
  else
    let cand := if reserved then [60, 61, 62, 63] else List.range 60
    match cand.find? (fun g => !(s.grp g).held) with
    | none => (0x01, 0, s.raise 288)
    | some g => (0x00, g, s.setGrp g { st := .opened, issuer := iss })

/-- Bytes of on-chip SRAM (R33): the bound of data by reference. -/
def sramBytes : Nat := 24 * 1048576

/-- The shares of the on-chip SRAM in bytes (On-chip SRAM table, R33), in the table's order, which is taken as the order of their
addresses (DESIGN CHOICE, log entry 110): hot cache, Wharf memory, shared L2, validation buffers, Hold, sealed domain, Ferryman contexts,
core L1, Oarsmen, transaction table, key store, commit staging, panel, link buffers. -/
def sramShares : List Nat :=
  [8388608, 4194304, 4194304, 2097152, 1048576, 1048576, 655360, 524288, 393216, 262144, 262144, 262144, 4096, 1830912]

/-- First byte of the sealed domain's share, and one past its last. -/
def sealedSram : Nat × Nat := ((sramShares.take 5).sum, (sramShares.take 6).sum)

/-- Whether a range of on-chip SRAM touches the sealed domain's share (R20, R33). -/
def touchesSealed (a n : Nat) : Bool := decide (a < sealedSram.2) && decide (sealedSram.1 < a + n)

/-- Whether an issuer stands in the sealed domain: Oarsmen 12 and 13 and the seal core. -/
def sealedIssuer (iss : Issuer) : Bool := iss == 0x3F || iss == 12 || iss == 13

/-- Bytes of LPDDR5 that the device trains and refreshes (R1, R3): what the Manifest declares, the first 2 GiB on a CRN-8800-C. -/
def State.dramUsed (s : State) : Nat := if s.fuses.variant = 2 then min 2147483648 s.man.dram else s.man.dram

/-- Bytes of LPDDR5 that the device addresses (R3, R552): what lies below the carve-out for the ECC. -/
def State.dramTop (s : State) : Nat := s.dramUsed - s.dramUsed / 32

/-- Bytes stored in LPDDR5; what would lie above the capacity used goes nowhere (R3; DESIGN CHOICE, log entry 110). -/
def State.dramPut (s : State) (a : Nat) (bs : List Byte) : State := { s with dram := putBytes s.dram a (bs.take (s.dramTop - a)) }

/-- The nodes of the balance tree with their settings. -/
def Manifest.nodeList (m : Manifest) : List (Nat × NodeCfg) := m.nodes.filterMap fun p => p.2.map fun c => (p.1, c)

/-- Whether an endpoint index serves as a reference (R284). -/
def Manifest.isRef (m : Manifest) (i : Nat) : Bool := m.nodeList.any fun p => p.2.refKind == 2 && p.2.refIndex == i

/-- A balance record as it lies in LPDDR5 (R287); `ref` for a reference meter. -/
def BRec.toBytes (b : BRec) (ref : Bool) : List Byte :=
  be 2 b.ovr ++ be 2 b.node ++ be 2 b.since ++ be 2 0 ++ be 4 b.qNew ++ be 4 (ofSigned 32 b.mean)
    ++ be 24 ((List.range 96).map fun i => smGet 0 b.st i * 4 ^ i).sum
    ++ be 1 (ofBool b.meanValid + 2 * ofBool b.bypAlarm + 4 * ofBool b.phAlarm + 8 * ofBool ref) ++ be 1 0 ++ be 2 b.bypHits
    ++ be 2 b.phHits ++ be 2 b.corr ++ be 4 (ofSigned 32 b.slope) ++ be 2 b.bypPm ++ be 1 b.samples ++ List.replicate 9 0
    ++ (List.range 96).flatMap (fun i => be 4 (smGet 0 b.reg i)) ++ List.replicate 64 0

/-- A byte of LPDDR5: in the table region the byte of a context (R265), in that of the balance engine the byte of a balance record
(R287), elsewhere what is stored there. -/
def State.dramByte (s : State) (a : Nat) : Byte :=
  let k := (a - s.man.balBase) / 512
  if s.man.eptBase ≤ a ∧ a < s.man.eptBase + s.man.eptBytes then smGet 0 s.live.ctx (a - s.man.eptBase)
  else if s.flag balCfg_EN = true ∧ s.man.balBase ≤ a ∧ k < s.get eptCfg_CAPACITY + ofBool (!s.isHub) then
    ((smGet {} s.bal.recs k).toBytes (s.man.isRef (ofBe (getBytes s.live.ctx (k * 1024 + 8) 4) % 2 ^ 20))).getD ((a - s.man.balBase) % 512) 0
  else smGet 0 s.dram a

/-- Bytes read from LPDDR5; what lies above the capacity used reads 0 (R3; DESIGN CHOICE, log entry 110). -/
def State.dramGet (s : State) (a n : Nat) : List Byte :=
  (List.range n).map fun k => if a + k < s.dramTop then s.dramByte (a + k) else 0

/-- The site slot of a chip in the cell role (R265). -/
def State.siteSlot (s : State) : Nat := if s.underHub then 16384 else s.get eptCfg_CAPACITY

/-- Whether a context slot is one of the table: within the capacity, or the site slot (R265). -/
def State.slotOk (s : State) (k : Nat) : Bool := decide (k < s.get eptCfg_CAPACITY) || (!s.isHub && k == s.siteSlot)

/-- What changes of contexts make dirty in the hot cache (R270). -/
def State.dirtyCtx (s : State) (us : List StoreUpd) : State :=
  let ks := us.filterMap fun u => match u with
    | .ctx k _ _ => some k
    | _ => none
  if ks = [] then s
  else { s with ept := { s.ept with cache := s.ept.cache.map fun p =>
           (p.1, p.2.map fun e => { e with dirty := e.dirty || decide (e.slot ∈ ks) }) } }

/-- Whether data is by reference. -/
def Action.byRef (a : Action) : Bool := natBit a.aflags 0

/-- Whether an operand is late-bound (R358). -/
def Action.late (a : Action) : Bool := natBit a.aflags 1

/-- The address of data by reference (R347). -/
def Action.refAddr (a : Action) : Nat := beAt a.data 0 8

/-- The region of a Hold target: a region number for an append, address bits 63:56 for a write. -/
def Action.holdRegion (a : Action) : Nat := if a.kind = 6 then a.target else a.target / 2 ^ 56

/-- KIND, LEN and TARGET within the Action kinds table (R347, R348). -/
def State.actionFits (s : State) (a : Action) : Bool :=
  (a.byRef || decide (a.len ≤ max 16 a.data.length) || a.late) &&
  match a.kind with
  | 1 => decide (1 ≤ a.len) && decide (a.len ≤ 4096) && decide (a.target + a.len ≤ sramBytes)
  | 2 => decide (1 ≤ a.len) && decide (a.len ≤ 4096) && decide (a.target + a.len ≤ s.dramTop) &&
         (decide (a.target + a.len ≤ s.man.eptBase) || decide (s.man.eptBase + s.man.eptBytes ≤ a.target))
  | 3 => decide (1 ≤ a.len) && decide (a.arg + a.len ≤ 1024) && s.slotOk a.target
  | 4 => decide (8 ≤ a.len) && decide (a.len ≤ 2048) && a.len % 8 == 0 && s.qUsed a.target &&
         !s.flag (whfQCfg_FLAG a.target)
  | 5 => a.len == 0 && s.qUsed a.target && s.flag (whfQCfg_RETAIN a.target)
  | 6 => decide (1 ≤ a.len) && decide (a.len ≤ 4096) && (s.man.region a.target).stream
  | 7 => decide (1 ≤ a.len) && decide (a.len ≤ 4096) && decide (a.holdRegion ≠ 0) &&
         decide ((s.man.region a.holdRegion).size ≠ 0) && !(s.man.region a.holdRegion).stream &&
         decide (a.target % 2 ^ 56 + a.len ≤ (s.man.region a.holdRegion).size)
  | 8 => a.len == 48 && a.target == 0
  | 9 => a.len == 8 && decide (a.target < 1024)
  | 10 => a.len == 8 && decide (a.target < 1024)
  | _ => false

/-- Whether the issuer may reach the target (R348): the privilege map for windows 0 to 9; the access and queue maps
for Oarsmen; nothing more for the seal core. Nobody in the open domain reaches the sealed domain's SRAM (R20, R33, R423). -/
def State.actionAllowed (s : State) (iss : Issuer) (a : Action) : Bool :=
  if a.kind = 1 ∧ touchesSealed a.target a.len = true ∧ sealedIssuer iss = false then false
  else if iss = 0x3F then true
  else if iss < 16 then
    let p := smGet {} s.man.oar iss
    match a.kind with
    | 1 => grantedAll p.access a.target a.len true
    | 2 => grantedAll p.access a.target a.len true
    | 4 => decide (a.target ∈ p.produces)
    | 5 => decide (a.target ∈ p.produces ∨ a.target ∈ p.consumes)
    | _ => true
  else (smGet {} s.man.priv (iss - 0x10)).commit.any fun r =>
    decide (r.1 = a.kind) && decide (r.2.1 ≤ a.target) &&
      decide (a.target + (if a.kind ∈ [1, 2, 7] then a.len - 1 else 0) ≤ r.2.2)

/-- Whether the issuer may read data by reference (R348); the sealed domain's share is reachable from the sealed domain alone (R33). -/
def State.refAllowed (s : State) (iss : Issuer) (a : Action) : Bool :=
  !a.byRef || (decide (a.refAddr + a.len ≤ sramBytes) && (sealedIssuer iss || !touchesSealed a.refAddr a.len) &&
    (if iss = 0x3F then true
     else if iss < 16 then grantedAll (smGet {} s.man.oar iss).access a.refAddr a.len false
     else grantedAll (smGet {} s.man.priv (iss - 0x10)).sram a.refAddr a.len false))

/-- The refusals with result 0x07 (R348, R394, R446, R472). -/
def State.actionValid (s : State) (g : Nat) (iss : Issuer) (a : Action) : Bool :=
  s.actionFits a && s.actionAllowed iss a && s.refAllowed iss a &&
  (!(a.kind == 9 || a.kind == 10) || decide (a.target < 896) || iss == 0x3F || iss == 12 || iss == 13) &&
  (a.kind != 3 || iss == 0x3F || iss == 12 || iss == 13 || decide (a.arg + a.len ≤ 248) || decide (264 ≤ a.arg)) &&
  (a.kind != 3 || iss == 0x3F || decide (iss < 16) || decide (264 ≤ a.arg)) &&
  (!a.late || decide (60 ≤ g)) &&
  (!(a.kind == 6 || a.kind == 7) || !(s.man.region a.holdRegion).isSealed || iss == 0x3F || iss == 12 || iss == 13) &&
  (a.kind != 8 || decide (0x80 ≤ a.arg ∧ a.arg ≤ 0xFF) || iss == 0x3F || iss == 12 || iss == 13)

/-- Whether two byte ranges meet. -/
def meets (a n b m : Nat) : Bool := decide (a < b + m) && decide (b < a + n)

/-- Whether two actions of different groups conflict (R352): 64-byte lines of SRAM and DRAM, byte ranges of contexts,
Hold addresses, a counter set with a set or an add. -/
def Action.conflicts (a b : Action) : Bool :=
  if a.kind = b.kind then
    match a.kind with
    | 1 => decide (a.target / 64 ≤ (b.target + b.len - 1) / 64) && decide (b.target / 64 ≤ (a.target + a.len - 1) / 64)
    | 2 => decide (a.target / 64 ≤ (b.target + b.len - 1) / 64) && decide (b.target / 64 ≤ (a.target + a.len - 1) / 64)
    | 3 => a.target == b.target && meets a.arg a.len b.arg b.len
    | 7 => meets a.target a.len b.target b.len
    | 10 => a.target == b.target
    | _ => false
  else ((a.kind == 9 && b.kind == 10) || (a.kind == 10 && b.kind == 9)) && a.target == b.target

/-- Whether another held group has staged something an action conflicts with. -/
def State.conflict (s : State) (g : Nat) (a : Action) : Bool :=
  s.cmt.groups.any fun p => p.1 != g && p.2.held && p.2.actions.any (fun b => a.conflicts b)

/-- Bytes that staged appends to a stream will take. -/
def State.appendClaims (s : State) (r : Nat) : Nat :=
  (s.cmt.groups.map fun p =>
    if p.2.st = .opened ∨ p.2.st = .prestaged then
      ((p.2.actions.filter fun a => a.kind == 6 && a.target == r).map fun a => up64 a.len).sum else 0).sum

/-- Whether the credit an action needs is there (R351, R393, R447, R472). -/
def State.actionCredit (s : State) (a : Action) : Bool :=
  match a.kind with
  | 4 => s.qRoom a.target (a.len / 8 + 2)
  | 6 =>
    let r := s.man.region a.target
    let st := smGet {} s.live.streams a.target
    !r.keep || !s.poolShort (s.regionPool a.target) && decide (appendAt (s.man.lbBytes r) (st.tail + s.appendClaims a.target) a.len + up64 a.len
                        ≤ st.head + r.size)
  | 8 => decide (0 < s.lgbRoom)
  | _ => true

/-- Claim what a staged action claims (R351, R472). -/
def State.claim (s : State) (a : Action) : State :=
  match a.kind with
  | 4 => s.setQ a.target { s.q a.target with claimed := (s.q a.target).claimed + (a.len / 8 + 2) }
  | 8 => { s with lgb := { s.lgb with claimed := s.lgb.claimed + 1 } }
  | _ => s

/-- Return what a staged action claimed (R351, R357, R472). -/
def State.unclaim (s : State) (a : Action) : State :=
  match a.kind with
  | 4 => s.touchQ a.target fun s =>
      s.setQ a.target { s.q a.target with claimed := (s.q a.target).claimed - (a.len / 8 + 2) }
  | 8 => { s with lgb := { s.lgb with claimed := s.lgb.claimed - 1 } }
  | _ => s

/-- The words that a staged enqueue claimed become its item's (R351): FREE stays as it is. -/
def State.spendClaim (s : State) (a : Action) : State :=
  s.setQ a.target { s.q a.target with claimed := (s.q a.target).claimed - (a.len / 8 + 2) }

/-- A stream of the effective content. -/
def State.str (s : State) (r : Nat) : Stream := smGet {} s.live.streams r

/-- The state with a stream of the effective content. -/
def State.setStr (s : State) (r : Nat) (x : Stream) : State :=
  { s with live := { s.live with streams := smPut {} s.live.streams r x } }

/-- A refused append to a KEEP stream: event 441 once for each episode, and the FULL mark (R447). -/
def State.noteStreamFull (s : State) (a : Action) : State :=
  if a.kind = 6 then
    (s.setStr a.target { s.str a.target with fullSeen := true, refusing := true }).raiseIf
      (!(s.str a.target).refusing) 441
  else s

/-- Staging an action (R346 to R352, R561): the first refusal that applies, else the action is added with its claims. -/
def State.stage (s : State) (g : Nat) (iss : Issuer) (a : Action) : Nat × State :=
  let x := s.grp g
  let keptFree := 1024 - s.placesUsed true
  let commonFree := 7168 - s.placesUsed false
  if s.warned then (0x08, s)
  else if x.st ≠ .opened ∨ x.issuer ≠ iss then (0x02, s)
  else if !s.actionValid g iss a then (0x07, s)
  else if 256 ≤ x.actions.length then (0x05, s.raise 290)
  else if commonFree = 0 ∧ (g < 60 ∨ keptFree = 0) then (0x03, s.raise 297)
  else if s.conflict g a then (0x04, s.raise 289)
  else if !s.actionCredit a then (0x06, s.noteStreamFull a)
  else
    let kept := if 60 ≤ g ∧ 0 < keptFree then x.keptPlaces + 1 else x.keptPlaces
    (0x00, (s.claim a).setGrp g { x with actions := x.actions ++ [a], keptPlaces := kept })

/-- An action of a 32-byte descriptor (R347). -/
def Action.ofBytes (b : List Byte) : Action :=
  { kind := beAt b 0 1, aflags := beAt b 1 1, len := beAt b 2 2, target := beAt b 4 8, arg := beAt b 12 4,
    data := padTo 16 (slice b 16 16) }

/-- The bytes an action carries at the seal (R347): by value, by reference, or the bound operand (R358). -/
def State.actionData (s : State) (bound : List Byte) (a : Action) : List Byte :=
  if a.late then padTo a.len bound
  else if a.byRef then getBytes s.sram a.refAddr a.len
  else padTo a.len a.data

/-- The change of stored content that an action makes, none for those that make none. -/
def Action.upd (a : Action) (d : List Byte) : List StoreUpd :=
  match a.kind with
  | 3 => [.ctx a.target a.arg d]
  | 6 => [.append a.target d]
  | 7 => [.holdWrite a.target d]
  | 9 => [.counterAdd a.target (toSigned 64 (ofBe d))]
  | 10 => [.counterSet a.target (toSigned 64 (ofBe d))]
  | _ => []

/-- An action's effect at the seal (R347, R353). -/
def State.applyAction (iss : Issuer) (s : State) (ad : Action × List Byte) : State :=
  let a := ad.1
  let d := ad.2
  match a.kind with
  | 1 => { s with sram := putBytes s.sram a.target d }
  | 2 => s.dramPut a.target d
  | 4 => (s.spendClaim a).enqueueNow a.target (mkItem a.arg (s.stamp 8) d)
  | 5 => s.qRelease a.target true 0
  | 8 => (s.unclaim a).lgbAppend { jseq := s.cmt.next, typ := a.arg % 256, source := 0x80 + iss, flags := 1,
                                    extra := a.arg / 256 % 256, payload := padTo 48 d }
  | _ => { s with live := s.live.applyAll s.man (a.upd d) }

/-- The sealed records among changes; a place that is only emptied is no record. -/
def sealedCount (us : List StoreUpd) : Nat :=
  (us.filter fun u => match u with
    | .record t _ v => sealedRec t v && decide (v ≠ [])
    | .sealed _ _ v _ => decide (v ≠ [])
    | _ => false).length

/-- The actions that the sealed domain's own records are in its groups (R320, R322): each is written where it lies. -/
def recActions (us : List StoreUpd) : List Action :=
  us.flatMap fun u => match u with
    | .record t k v => if sealedRec t v && decide (v ≠ []) then
        [{ kind := 7, len := (recBytes t v).length, target := sealAddr t k 0, data := recBytes t v }] else []
    | _ => []

/-- A journal record without its CHECK (R360): AFLAGS bit 0 cleared, data beyond 16 bytes behind its descriptor, padded to a multiple of
8. -/
def JRec.body (r : JRec) : List Byte :=
  let long := fun (a : Action) => decide (16 < a.data.length)
  let acts := r.acts.flatMap fun a =>
    be 1 a.kind ++ be 1 (a.aflags / 2 * 2) ++ be 2 a.len ++ be 8 a.target ++ be 4 a.arg ++ padTo 16 (if long a then [] else a.data)
      ++ (if long a then padTo (up64 a.data.length) a.data else [])
  be 4 0x434A5231 ++ be 1 r.typ ++ be 1 r.group ++ be 2 r.acts.length ++ be 8 r.jseq ++ r.stamp.bytes ++ be 4 (80 + acts.length)
    ++ be 2 r.jflags ++ be 6 r.arm ++ be 8 r.ref ++ be 8 0 ++ acts

/-- The CHECK of a journal record's bytes (R360). -/
def State.jrnCheck (s : State) (r : JRec) (bs : List Byte) : List Byte :=
  if natBit r.jflags 0 then tagOf (smGet {} s.keys.slots 2).key bs 16 "CJR1" else be 4 (crc32c bs) ++ List.replicate 12 0

/-- Bytes a journal record takes (R360). -/
def JRec.size (r : JRec) : Nat := r.body.length + 16

/-- Sealed records handed to the Hold and not yet durable (R93). -/
def State.sealedOpen (s : State) : Nat := ((s.cmt.journal.filter fun r => !r.durable).map fun r => sealedCount r.upds).sum

/-- Whether the sealed domain may hand over so many more records (R93: never more than 256 not yet durable). -/
def State.sealedRoom (s : State) (n : Nat) : Bool := decide (s.sealedOpen + n ≤ 256)

/-- The sealed records that actions into sealed regions make (R22): each carries its tag, kept by its Hold logical address. Only issuers
of the sealed domain stage such actions (R446). -/
def State.rawRecs (s : State) (us : List StoreUpd) : List StoreUpd :=
  us.flatMap fun u => match u with
    | .holdWrite a bs => if (s.man.region (a / 2 ^ 56)).isSealed then [.record tabRaw a (bs.map (·.toNat))] else []
    | .append r bs => if (s.man.region r).isSealed then (s.updPlaces u).map fun p => .record tabRaw p.1 (bs.map (·.toNat)) else []
    | _ => []

/-- How many of a reserved group's places are kept ones: those first, while there are any (R350). -/
def State.keptFor (s : State) (g n : Nat) : Nat :=
  if g < 60 then 0 else min n (1024 - (s.placesUsed true - (s.grp g).keptPlaces))

/-- The seal of a group (R354): JSEQ, bound operands, visibility of every effect in staging order, the journal record.
`extra` are the sealed domain's own records of the group; the actions of a boundary group are such records, whose two late choices
have been made (R323). -/
def State.sealGroup (s : State) (g : Nat) (bound : List Byte) (jflags : Nat) (extra : List StoreUpd) : State :=
  let x := s.grp g
  let j := s.cmt.next
  let own := match x.purpose with
    | .boundary _ => true
    | _ => false
  let ads := if own then [] else x.actions.map fun a => (a, s.actionData bound a)
  let s1 := ads.foldl (State.applyAction x.issuer) s
  let plain := ads.flatMap fun p => p.1.upd p.2
  let q := s1.sealUpds (s1.rawRecs plain ++ extra)
  let upds := plain ++ q.1
  let s2 := State.dirtyCtx (State.gather { q.2 with live := q.2.live.applyAll q.2.man q.1 } upds) upds
  let pre := x.intent != 0
  let recs := recActions extra
  let r : JRec := { typ := if pre then 3 else 1, group := g, acts := (ads.map fun p => { p.1 with data := p.2 }) ++ recs, jseq := j
                    stamp := s.stamp 8, jflags := jflags, ref := x.intent, upds := upds }
  let s3 := { s2 with cmt := { s2.cmt with next := j + 1, journal := s2.cmt.journal ++ [r] } }
  s3.setGrp g (if own then { x with st := .visible, jseq := j }
    else { x with st := .visible, jseq := j, actions := x.actions ++ recs, keptPlaces := s.keptFor g (x.actions ++ recs).length })

/-- The validation group is lost with its members: they are neither accepted nor acknowledged, their places and flows are free (R241,
R253). -/
def State.loseVal (s : State) (g : Nat) : State :=
  if s.val.group = some g then
    let ms := s.val.members
    { s with val := { s.val with group := none, members := [], pend := [], staged := 0, fullSeen := false
                                 recs := ms.foldl (fun m n => smPut none m n none) s.val.recs }
             flows := s.flows.filter fun p => ms.all fun n => p.2 != .record n }
  else s

/-- Freeing a group's claims and places (R357). -/
def State.abortGroup (s : State) (g : Nat) : State :=
  let x := s.grp g
  ((x.actions.foldl State.unclaim s).setGrp g {}).loseVal g

/-- A PRESTAGED group withdrawn (R359): the withdraw record, event 296; a boundary group is staged no more. -/
def State.withdraw (s : State) (g : Nat) : State :=
  let j := s.cmt.next
  let r : JRec := { typ := 4, group := g, jseq := j, stamp := s.stamp 8, jflags := 1, ref := (s.grp g).intent }
  let s1 : State := { s with cmt := { s.cmt with next := j + 1, journal := s.cmt.journal ++ [r] } }
  let s2 := (s1.abortGroup g).raise 296
  match s2.bil.staged with
  | some t =>
    if t.grp = g then State.set { s2 with bil := { s2.bil with staged := none }, trf := { s2.trf with fixedAct := [] } } bilStat_STAGED 0
    else s2
  | none => s2

/-- Seal by request (R346, R354, R358): result and state. -/
def State.sealRequest (s : State) (g : Nat) (iss : Issuer) : Nat × State :=
  let x := s.grp g
  if s.warned then (0x08, s)
  else if x.issuer ≠ iss ∨ ¬ (x.st = .opened ∨ x.st = .prestaged) then (0x02, s)
  else if x.actions.any Action.late then (0x07, s)
  else if x.st = .prestaged then (0x02, s)
  else (0x00, s.sealGroup g [] (ofBool (iss == 0x3F || iss == 12 || iss == 13)) [])

/-- Abort by request (R346, R357). -/
def State.abortRequest (s : State) (g : Nat) (iss : Issuer) : Nat × State :=
  let x := s.grp g
  if x.st ≠ .opened ∨ x.issuer ≠ iss then (0x02, s) else (0x00, s.abortGroup g)

/-- The journal record of a JSEQ becomes durable (R355): its changes enter the durable content, its group is DURABLE. -/
def State.durableRec (s : State) (r : JRec) : State :=
  if r.durable then s
  else
    let s1 := { s with
      img := if r.typ = 1 ∨ r.typ = 3 then s.img.applyAll s.man r.upds else s.img
      cmt := { s.cmt with durJseq := max s.cmt.durJseq r.jseq
                          journal := s.cmt.journal.map fun k => if k.jseq = r.jseq then { k with durable := true } else k } }
    let x := s1.grp r.group
    if (r.typ = 1 ∨ r.typ = 3) ∧ x.st = .visible ∧ x.jseq = r.jseq then s1.setGrp r.group { x with st := .durable }
    else s1

/-- Every record up to a JSEQ becomes durable, in order (R355). -/
def State.durableUpTo (s : State) (j : Nat) : State :=
  (s.cmt.journal.filter fun r => decide (r.jseq ≤ j)).foldl State.durableRec s

/-- Free staging places for a group (R350): those outside the kept ones, for a reserved group the kept ones too. -/
def State.placesFor (s : State) (g : Nat) : Nat := (7168 - s.placesUsed false) + (if g < 60 then 0 else 1024 - s.placesUsed true)

/-- A group the sealed domain makes in one step (R560): opened, its records and actions staged, sealed. A billing boundary's takes a
reserved number (R344). While an open, a place or credit is refused, or too many of its records are not yet durable (R93), the work
waits: false. -/
def State.sealedGroup (s : State) (acts : List Action) (upds : List StoreUpd) (p : GPurpose) : State × Bool :=
  let reserved := match p with
    | .boundary _ => true
    | _ => false
  if !s.sealedRoom (sealedCount upds) then (s, false)
  else match s.openGroup 0x3F reserved with
  | (0x00, g, s1) =>
    let r := acts.foldl (fun (st : State × Bool) a =>
      if st.2 then let q := st.1.stage g 0x3F a; (q.2, q.1 == 0) else st) (s1, true)
    if r.2 && decide (r.1.placesFor g < (recActions upds).length) then ((r.1.abortGroup g).raise 297, false)
    else if r.2 then
      let s2 := r.1.sealGroup g [] 1 upds
      (s2.setGrp g { s2.grp g with purpose := p }, true)
    else (r.1.abortGroup g, false)
  | (_, _, s1) => (s1, false)

end Sys2Proof.Machine
end

