-- ==== Sys2Proof/Machine/MetOps.lean ====
section
/-!
DEFINITION. Site metrology, the metrological log and the seal as shared operations (03_metrology_seal.md).
-/
namespace Sys2Proof.Machine

/-! ### Sealed records -/

/-- A sealed record handed to the Hold outside a group (R92, R93): the write counter advances first. It stands in the
effective and in the durable content at once (DESIGN CHOICE, log entry 21). Before the mount it waits for it. -/
def State.sealedStore (s : State) (t k : Nat) (v : List Nat) : State :=
  if s.flag hldStat_MOUNTED then
    let q := s.sealUpd (.record t k v)
    State.gather { q.2 with live := s.live.apply s.man q.1, img := s.img.apply s.man q.1 } [q.1]
  else { s with met := { s.met with waitStore := s.met.waitStore ++ [(t, k, v)] } }

/-- The seal of a stored record. -/
def Image.sealOf (im : Image) (t k : Nat) : Seal := smGet {} (smGet [] im.seals t) k

/-- What the Hold gives back for a copy of a record: write counter, tag and body, as stored where `reads` names nothing else, and where
the bytes read are those stored. -/
def State.copyRead (s : State) (reads : List SealRead) (t k c : Nat) : Nat × List Byte × List Nat :=
  let x := s.live.sealOf t k
  let v := s.live.row t k
  match reads.find? fun r => r.tab == t && r.key == k && r.copy == c with
  | none => (x.ctr, x.tags.getD c [], v)
  | some r =>
    let b := r.body.getD v
    (r.ctr.getD x.ctr, r.tag.getD (x.tags.getD c []), if recBytes t b = recBytes t v then v else b)

/-- Whether a copy passes its check (R92): it reads as it was stored, or its tag is that of what is read. A record that is not sealed
passes as it was stored alone. -/
def State.copyGood (s : State) (reads : List SealRead) (t k c : Nat) : Bool :=
  match reads.find? fun r => r.tab == t && r.key == k && r.copy == c with
  | none => true
  | some r =>
    if sealedRec t (s.live.row t k) then
      let x := s.copyRead reads t k c
      decide (s.sealTag t k c x.1 x.2.2 = x.2.1)
    else r.body.isNone

/-- The copies of a stored record. -/
def State.copiesOf (s : State) (t k : Nat) : Nat := if sealedRec t (s.live.row t k) then sealCopies t else 1

/-- The copies of a record that fail, and the first that passes: its write counter and body (R94). -/
def State.copies (s : State) (reads : List SealRead) (t k : Nat) : List Nat × Option (Nat × List Nat) :=
  let cs := List.range (s.copiesOf t k)
  (cs.filter fun c => !s.copyGood reads t k c,
   (cs.find? fun c => s.copyGood reads t k c).map fun c => ((s.copyRead reads t k c).1, (s.copyRead reads t k c).2.2))

/-- The newest record with a valid tag (R93): its write counter S and its Hold logical address. -/
def State.newestSeal (s : State) (reads : List SealRead) : Nat × Nat :=
  s.live.seals.foldl (fun m p => p.2.foldl (fun (n : Nat × Nat) r =>
    match (s.copies reads p.1 r.1).2 with
    | some x => if n.1 < x.1 then (x.1, sealAddr p.1 r.1 0) else n
    | none => n) m) (0, 0)

/-- Whether the metrological log is full (R97). -/
def State.mlogFull (s : State) : Bool := s.flag metMlogStat_FULL

/-- Bytes 8 to 47 of a record of the metrological log: stamp, seal state, break count, payload (R96). -/
def State.mlogRest (s : State) (payload : List Byte) : List Byte :=
  (s.stamp 8).bytes ++ be 1 (s.get metSealStat_STATE) ++ be 1 (s.get metSealStat_BREAKS) ++ be 2 0 ++ padTo 16 payload

/-- A record of the metrological log is written (R96, R97): its tag chains to the previous record's; near-full and full events;
while full the record is counted in OVERFLOW. -/
def State.mlogPut (s : State) (typ detail : Nat) (rest : List Byte) : State :=
  if s.mlogFull then s.bump metMlogStat_OVERFLOW 1
  else
    let n := s.get metMlogStat_COUNT
    let prev := if n = 0 then List.replicate 16 0 else ((s.live.row tabMlog (n - 1)).drop 48).map (BitVec.ofNat 8)
    let body := be 1 1 ++ be 1 typ ++ be 2 detail ++ be 4 n ++ rest
    let tag := padTo 16 (kmac256 (smGet {} s.keys.slots 3).key (prev ++ body) 128 ("MLG1".toList.map fun c => BitVec.ofNat 8 c.toNat))
    let s1 := (s.sealedStore tabMlog n ((body ++ tag).map (·.toNat))).set metMlogStat_COUNT (n + 1)
    let s2 := if n + 1 = 235930 then (s1.set metMlogStat_NEAR_FULL 1).raise 56 else s1
    if n + 1 = 262144 then (s2.set metMlogStat_FULL 1).raise 57 else s2

/-- A record of the metrological log (R95, R96): before the mount it waits for it, with its stamp. -/
def State.mlog (s : State) (typ detail : Nat) (payload : List Byte) : State :=
  if s.flag hldStat_MOUNTED then s.mlogPut typ detail (s.mlogRest payload)
  else { s with met := { s.met with waitLog := s.met.waitLog ++ [(typ, detail, s.mlogRest payload)] } }

/-- An integrity failure of a copy of a sealed record (R94): log type 0x09 with the record's kind and logical address, event 54 and a
Logbook record. The kinds are the tables' numbers (DESIGN CHOICE, log entry 114). -/
def State.integrityFailure (s : State) (t k c : Nat) : State :=
  (s.mlog 0x09 t (be 8 (sealAddr t k c))).raiseLog 54 (be 1 t ++ be 8 (sealAddr t k c))

/-! ### Calibration -/

/-- The 22 calibration registers (R83). -/
def calAddrs : List Nat :=
  (List.range 7).flatMap (fun c => [metCalGain c, metCalOfs c, metCalPhase c]) ++ [metCalCreep]

/-- The active value of a calibration register; unity gain and zeros where none was committed. -/
def State.activeCal (s : State) (a : Nat) : Word :=
  match s.met.active.find? fun p => p.1 == a with
  | some p => p.2
  | none => smGet 0 resetRegs a

/-- The staged set. -/
def State.stagedCal (s : State) : SMap Word := calAddrs.map fun a => (a, s.reg a)

/-- PENDING (R83): a staged value differs from its active one, or a commit waits. -/
def State.showPending (s : State) : State :=
  s.set metCalStat_PENDING (ofBool (s.met.copy.isSome || calAddrs.any fun a => s.reg a != s.activeCal a))

/-- The 128 bytes of the calibration window (R84): reserved words 0. -/
def calWindow (m : SMap Word) : List Byte :=
  (List.range 32).flatMap fun k => match m.find? fun p => p.1 == 0x200100 + 4 * k with
    | some p => be 4 p.2.toNat
    | none => be 4 0

/-- A refused calibration command (R85, R97): REFUSED, event 52, a Logbook record. -/
def State.refuseCal (s : State) : State := (s.set metCalStat_REFUSED 1).raiseLog 52 (be 1 0)

/-- A refused seal close (R89). -/
def State.refuseClose (s : State) : State := (s.set metSealStat_REFUSED 1).raiseLog 52 (be 1 1)

/-- The channels a set changes, bit c (log type 0x04). -/
def State.changedChannels (s : State) (m : SMap Word) : Nat :=
  ((List.range 7).map fun c =>
    if [metCalGain c, metCalOfs c, metCalPhase c].any fun a => smGet 0 m a != s.activeCal a then 2 ^ c else 0).sum

/-! ### The measuring chain -/

/-- Integer square root by bits. -/
def isqrtAux : Nat → Nat → Nat → Nat
  | 0, _, r => r
  | k + 1, n, r => let c := r + 2 ^ k; isqrtAux k n (if c * c ≤ n then c else r)

/-- Integer square root, rounded down. -/
def isqrt (n : Nat) : Nat := isqrtAux 40 n 0

/-- A sample in primary units (R77): raw less the offset, times gain, times the channel's full scale over 2^23.
Rounding toward zero is a DESIGN CHOICE (log entry 22). -/
def State.primary (s : State) (c : Nat) (raw : Int) : Int :=
  ((raw - toSigned 32 (s.activeCal (metCalOfs c)).toNat) * (s.activeCal (metCalGain c)).toNat * smGet 0 s.man.fullScale c).tdiv
    (2 ^ 53 : Nat)

/-- The mean of products of two channels' samples over a crossing, rounded toward zero (log entry 22). -/
def meanProd (a b : List Int) : Int := ((List.zipWith (· * ·) a b).foldl (· + ·) 0).tdiv 256

/-- RMS of a channel's samples. -/
def rms (a : List Int) : Nat := isqrt (meanProd a a).toNat

/-- A voltage delayed by a quarter cycle (R76): the last 64 samples of the crossing before, then the first 192. -/
def delayed (prev cur : List Int) : List Int := (List.replicate (64 - prev.length) 0 ++ prev ++ cur).take 256

/-- Difference of two channels, sample by sample. -/
def diffs (a b : List Int) : List Int := List.zipWith (· - ·) a b

/-- An element's power after the no-load threshold (R79). -/
def noLoad (p : Int) (thr : Nat) : Int := if p.natAbs < thr then 0 else p

/-- A no-load threshold in mW: units of 2^-16 of nominal phase power, from the active set (R79). -/
def State.creep (s : State) (hi lo : Nat) : Nat := bitsOf (s.activeCal metCalCreep) hi lo * s.man.nominalPower / 65536

/-- The sum of a list of numbers. -/
def sumInt (l : List Int) : Int := l.foldl (fun a b => a + b) 0

/-- Channels whose samples lie beyond 98 % of full scale, bit c (R548). -/
def satChannels (raw : List (List Int)) : Nat :=
  ((List.range 7).map fun c =>
    if (raw.getD c []).any fun x => decide (8220836 < x.natAbs) then 2 ^ c else 0).sum

/-- A phase correction in 2^-24 cycle, clamped to ±2^18 (MET_CAL_PHASE_c). -/
def clampPhase (v : Word) : Int := max (-262144) (min 262144 (toSigned 32 v.toNat))

/-- How much later than its instant a channel is sampled, in 2^-24 cycle (R75): a positive phase correction delays the channel, so that an
earlier sample stands at the instant; XING_RXCOMP_7 is subtracted from the raw sample instant, so that a later one does. `dur` is the
crossing's duration in ns; the ps of RXCOMP_7 are rounded toward zero to 2^-24 cycle (DESIGN CHOICE, log entry 115). -/
def State.sampleShift (s : State) (c dur : Nat) : Int :=
  (toSigned 24 (s.get (xingRxcomp_DELAY 7)) * 16777216).tdiv ((1000 * max 1 dur : Nat) : Int) - clampPhase (s.activeCal (metCalPhase c))

/-- A channel's samples at its 256 instants (R75): `raw` holds them at the instants without correction; shifted ones follow from
them by the resampling filter, which the spec does not give (a free value; log entry 115). -/
def State.resampled (s : State) (c dur : Nat) (raw : List Int) : List Int :=
  if s.sampleShift c dur = 0 then raw else (List.range raw.length).map fun k => Config.resample (s.sampleShift c dur) raw k

/-- A crossing's channel samples in primary units. -/
def State.channels (s : State) (dur : Nat) (raw : List (List Int)) : List (List Int) :=
  (List.range 7).map fun c => (s.resampled c dur (raw.getD c [])).map (s.primary c)

/-- The power of a phase in mW or mvar: mean of products of voltage and current samples. -/
def phasePower (v i : List Int) : Int := (meanProd v i).tdiv 1000

/-- Powers of the metering elements (R78): per phase, two elements of a three-wire supply, or L1 alone. -/
def elements (wiring : Nat) (v i : Nat → List Int) : List Int :=
  if wiring = 1 then [phasePower (diffs (v 0) (v 1)) (i 0), phasePower (diffs (v 2) (v 1)) (i 2)]
  else if wiring = 2 then [phasePower (v 0) (i 0)]
  else (List.range 3).map fun p => phasePower (v p) (i p)

/-- The instantaneous quantities of a crossing by code (Metrology quantities table). -/
def State.instants (s : State) (dur : Nat) (ch : List (List Int)) (vd : Nat → List Int) : SMap Int :=
  let v := fun p => ch.getD p []
  let i := fun p => ch.getD (p + 3) []
  let rows : List (Nat × Int) :=
    ((List.range 3).map fun p => (p, (rms (v p) : Int))) ++ ((List.range 3).map fun p => (p + 3, (rms (i p) : Int)))
    ++ [(6, if s.flag metConfig_IN_EN then (rms (ch.getD 6 []) : Int) else 0)]
    ++ ((List.range 3).map fun p => (p + 7, phasePower (v p) (i p)))
    ++ ((List.range 3).map fun p => (p + 10, phasePower (vd p) (i p)))
    ++ [(13, ((10 ^ 12 / max 1 dur : Nat) : Int))]
  rows.filter fun p => p.2 ≠ 0

/-- Pulses of the test output for active energy that grows from one reading to another (Sensing inputs table, MET_PULSE; what a pulse
counts is DESIGN CHOICE, log entry 138). -/
def State.pulse (s : State) (before after : Nat) : State :=
  let c := s.man.pulseMwh * 3600000000000
  if c = 0 ∨ after / c = before / c then s else s.emit (.pulses (after / c - before / c))

/-- The metrology's work for one complete crossing (R76 to R80, R548): quantities, and energies booked by sign. -/
def State.metCrossing (s : State) (dur : Nat) (raw : List (List Int)) : State :=
  let sat := satChannels raw
  let ch := s.channels dur raw
  let v := fun p => ch.getD p []
  let i := fun p => ch.getD (p + 3) []
  let vd := fun p => delayed (s.met.lastV.getD p []) (v p)
  let wiring := s.get metConfig_WIRING
  let ps := sumInt ((elements wiring v i).map fun x => noLoad x (s.creep 15 0)) * (dur : Int)
  let qs := sumInt ((elements wiring vd i).map fun x => noLoad x (s.creep 31 16)) * (dur : Int)
  let m : Metrology := { s.met with
    impA := s.met.impA + ps.toNat, expA := s.met.expA + (-ps).toNat
    impR := s.met.impR + qs.toNat, expR := s.met.expR + (-qs).toNat
    inst := s.instants dur ch vd
    lastV := (List.range 3).map fun p => (v p).drop 192 }
  (State.set (State.pulse { s with met := m } (s.met.impA + s.met.expA) (m.impA + m.expA)) metStatus_SAT sat).raiseIf
    (decide (sat ||| s.get metStatus_SAT ≠ s.get metStatus_SAT)) 53

/-- A 64-bit energy counter in mWh (R80): the accumulator in mW·ns over 3.6 × 10^12, wrapping to 0. -/
def energy (acc : Nat) : Nat := acc / 3600000000000 % 2 ^ 64

/-- The four cumulative energies. -/
def State.energies (s : State) : List Nat := [energy s.met.impA, energy s.met.expA, energy s.met.impR, energy s.met.expR]

/-- The value of a quantity code as 64 bits (Metrology quantities table, R80). -/
def State.quantity (s : State) (code : Nat) : Nat :=
  if code ≤ 0x0D then ofSigned 64 (smGet 0 s.met.inst code)
  else if 0x10 ≤ code ∧ code ≤ 0x13 then s.energies.getD (code - 0x10) 0
  else if 0x20 ≤ code ∧ code ≤ 0x23 then s.met.latched.getD (code - 0x20) 0
  else 0

/-- A flag that outlives a reset, with its sealed record (tabFlag): 0 continuity not proven until the next monthly close (R93),
1 a calibration change in the open interval (R84), 2 the open interval uncalibrated (R94), 3 the seal open in it (R88), 4 calibration
lost (R94), 5 trust UNTRUSTED or LOST in it (R313). -/
def State.setFlag (s : State) (k : Nat) : State :=
  let s1 := s.sealedStore tabFlag k [1]
  { s1 with
    met := if k = 0 then { s1.met with notProven := true } else if k = 1 then { s1.met with calChanged := true }
           else if k = 2 then { s1.met with uncal := true } else s1.met
    bil := if k = 3 then { s1.bil with sealOpen := true } else s1.bil }

/-- The calibration hash of a set shown in MET_CAL_HASH (R84). -/
def State.showCalHash (s : State) (m : SMap Word) : State :=
  s.setWords (metCalHash 0) (words32 8 (padTo 32 (shake256 (calWindow m) 32)))

/-- The stored changes that end a flag. -/
def flagEnds (k : Nat) (stands : Bool) : List StoreUpd := if stands then [.record tabFlag k []] else []

end Sys2Proof.Machine
end

