-- ==== Sys2Proof/Machine/Aes.lean ====
section
/-!
DEFINITION. AES with 128- and 256-bit keys, the AES key wrap (R266, R482, R497) and AES-CCM* with an 8-byte tag (R172, R176). The spec cites
FIPS 197, RFC 3394 and IEEE 802.15.4 and does not repeat them (PRESUMED, log entry 6).
-/
namespace Sys2Proof.Machine

/-! ### The cipher -/

/-- Rows 0 to 7 of the S-box. -/
def sboxA : List Nat :=
  [0x63, 0x7C, 0x77, 0x7B, 0xF2, 0x6B, 0x6F, 0xC5, 0x30, 0x01, 0x67, 0x2B, 0xFE, 0xD7, 0xAB, 0x76] ++
  [0xCA, 0x82, 0xC9, 0x7D, 0xFA, 0x59, 0x47, 0xF0, 0xAD, 0xD4, 0xA2, 0xAF, 0x9C, 0xA4, 0x72, 0xC0] ++
  [0xB7, 0xFD, 0x93, 0x26, 0x36, 0x3F, 0xF7, 0xCC, 0x34, 0xA5, 0xE5, 0xF1, 0x71, 0xD8, 0x31, 0x15] ++
  [0x04, 0xC7, 0x23, 0xC3, 0x18, 0x96, 0x05, 0x9A, 0x07, 0x12, 0x80, 0xE2, 0xEB, 0x27, 0xB2, 0x75] ++
  [0x09, 0x83, 0x2C, 0x1A, 0x1B, 0x6E, 0x5A, 0xA0, 0x52, 0x3B, 0xD6, 0xB3, 0x29, 0xE3, 0x2F, 0x84] ++
  [0x53, 0xD1, 0x00, 0xED, 0x20, 0xFC, 0xB1, 0x5B, 0x6A, 0xCB, 0xBE, 0x39, 0x4A, 0x4C, 0x58, 0xCF] ++
  [0xD0, 0xEF, 0xAA, 0xFB, 0x43, 0x4D, 0x33, 0x85, 0x45, 0xF9, 0x02, 0x7F, 0x50, 0x3C, 0x9F, 0xA8] ++
  [0x51, 0xA3, 0x40, 0x8F, 0x92, 0x9D, 0x38, 0xF5, 0xBC, 0xB6, 0xDA, 0x21, 0x10, 0xFF, 0xF3, 0xD2]

/-- Rows 8 to 15 of the S-box. -/
def sboxB : List Nat :=
  [0xCD, 0x0C, 0x13, 0xEC, 0x5F, 0x97, 0x44, 0x17, 0xC4, 0xA7, 0x7E, 0x3D, 0x64, 0x5D, 0x19, 0x73] ++
  [0x60, 0x81, 0x4F, 0xDC, 0x22, 0x2A, 0x90, 0x88, 0x46, 0xEE, 0xB8, 0x14, 0xDE, 0x5E, 0x0B, 0xDB] ++
  [0xE0, 0x32, 0x3A, 0x0A, 0x49, 0x06, 0x24, 0x5C, 0xC2, 0xD3, 0xAC, 0x62, 0x91, 0x95, 0xE4, 0x79] ++
  [0xE7, 0xC8, 0x37, 0x6D, 0x8D, 0xD5, 0x4E, 0xA9, 0x6C, 0x56, 0xF4, 0xEA, 0x65, 0x7A, 0xAE, 0x08] ++
  [0xBA, 0x78, 0x25, 0x2E, 0x1C, 0xA6, 0xB4, 0xC6, 0xE8, 0xDD, 0x74, 0x1F, 0x4B, 0xBD, 0x8B, 0x8A] ++
  [0x70, 0x3E, 0xB5, 0x66, 0x48, 0x03, 0xF6, 0x0E, 0x61, 0x35, 0x57, 0xB9, 0x86, 0xC1, 0x1D, 0x9E] ++
  [0xE1, 0xF8, 0x98, 0x11, 0x69, 0xD9, 0x8E, 0x94, 0x9B, 0x1E, 0x87, 0xE9, 0xCE, 0x55, 0x28, 0xDF] ++
  [0x8C, 0xA1, 0x89, 0x0D, 0xBF, 0xE6, 0x42, 0x68, 0x41, 0x99, 0x2D, 0x0F, 0xB0, 0x54, 0xBB, 0x16]

/-- SubBytes of a byte. -/
def subByte (x : Nat) : Nat := if x < 128 then sboxA.getD x 0 else sboxB.getD (x - 128) 0

/-- The inverse of SubBytes. -/
def invSubByte (y : Nat) : Nat := (sboxA ++ sboxB).findIdx (· == y)

/-- A byte times x in GF(2^8). -/
def xtime (a : Nat) : Nat := if a < 128 then 2 * a else (2 * a) % 256 ^^^ 0x1B

/-- The product of two bytes in GF(2^8), over the lowest n bits of the first. -/
def gfMul : Nat → Nat → Nat → Nat
  | 0, _, _ => 0
  | n + 1, a, b => (if a % 2 = 1 then b else 0) ^^^ gfMul n (a / 2) (xtime b)

/-- A column times a circulant matrix, given by its first row. -/
def mixColumn (m c : List Nat) : List Nat :=
  (List.range 4).map fun i => (List.range 4).foldl (fun v j => v ^^^ gfMul 4 (m.getD ((j + 4 - i) % 4) 0) (c.getD j 0)) 0

/-- A block's four columns each mixed. -/
def mixColumns (m s : List Nat) : List Nat := (List.range 4).flatMap fun c => mixColumn m ((s.drop (4 * c)).take 4)

/-- ShiftRows: row r of the column-wise block turned by k r columns. -/
def shiftRows (k : Nat) (s : List Nat) : List Nat :=
  (List.range 16).map fun i => s.getD (i % 4 + 4 * ((i / 4 + k * (i % 4)) % 4)) 0

/-- Bytes under exclusive or. -/
def xorN (a b : List Nat) : List Nat := List.zipWith (· ^^^ ·) a b

/-- The words of the key schedule up to a count, newest first, of a key of nk words. -/
def keyWords (nk : Nat) (key : List Nat) : Nat → List (List Nat)
  | 0 => []
  | i + 1 =>
    let ws := keyWords nk key i
    if i < nk then (key.drop (4 * i)).take 4 :: ws
    else
      let t := ws.headD []
      let rot := (t.drop 1 ++ t.take 1).map subByte
      let rc := (List.range (i / nk - 1)).foldl (fun r _ => xtime r) 1
      let u := if i % nk = 0 then xorN rot [rc, 0, 0, 0] else if 6 < nk ∧ i % nk = 4 then t.map subByte else t
      xorN (ws.getD (nk - 1) []) u :: ws

/-- The round keys of 16 bytes, in order. -/
def roundKeys (key : List Byte) : List (List Nat) :=
  let nk := key.length / 4
  let ws := (keyWords nk (key.map (·.toNat)) (4 * (nk + 7))).reverse
  (List.range (nk + 7)).map fun r => ((ws.drop (4 * r)).take 4).flatten

/-- AES of one block under a key of 16 or 32 bytes. -/
def aesEncrypt (key block : List Byte) : List Byte :=
  let ks := roundKeys key
  let n := ks.length - 1
  let s0 := xorN (block.map (·.toNat)) (ks.getD 0 [])
  let mid := (List.range (n - 1)).foldl (fun s r => xorN (mixColumns [2, 3, 1, 1] (shiftRows 1 (s.map subByte))) (ks.getD (r + 1) [])) s0
  (xorN (shiftRows 1 (mid.map subByte)) (ks.getD n [])).map (BitVec.ofNat 8)

/-- The inverse of AES of one block. -/
def aesDecrypt (key block : List Byte) : List Byte :=
  let ks := roundKeys key
  let n := ks.length - 1
  let s0 := xorN (block.map (·.toNat)) (ks.getD n [])
  let mid := (List.range (n - 1)).foldl
    (fun s r => mixColumns [14, 11, 13, 9] (xorN ((shiftRows 3 s).map invSubByte) (ks.getD (n - 1 - r) []))) s0
  (xorN ((shiftRows 3 mid).map invSubByte) (ks.getD 0 [])).map (BitVec.ofNat 8)

/-! ### Key wrap -/

/-- The initial value of the key wrap. -/
def wrapIv : List Byte := List.replicate 8 0xA6#8

/-- A counter into the low bytes of the wrap's register. -/
def xorTail (a : List Byte) (t : Nat) : List Byte := List.zipWith (· ^^^ ·) a (be 8 t)

/-- One step of the wrap: the register and the pieces, piece i enciphered with step number t. -/
def wrapStep (kek : List Byte) (st : List Byte × List (List Byte)) (i t : Nat) : List Byte × List (List Byte) :=
  let b := aesEncrypt kek (st.1 ++ st.2.getD i [])
  (xorTail (b.take 8) t, st.2.set i (b.drop 8))

/-- AES key wrap of a key under a key-encryption key of 32 bytes (R266). -/
def aesWrap (kek key : List Byte) : List Byte :=
  let n := key.length / 8
  let ps := (List.range n).map fun i => slice key (8 * i) 8
  let r := (List.range (6 * n)).foldl (fun st k => wrapStep (padTo 32 kek) st (k % n) (k + 1)) (wrapIv, ps)
  r.1 ++ r.2.flatten

/-- One step of the unwrap. -/
def unwrapStep (kek : List Byte) (st : List Byte × List (List Byte)) (i t : Nat) : List Byte × List (List Byte) :=
  let b := aesDecrypt kek (xorTail st.1 t ++ st.2.getD i [])
  (b.take 8, st.2.set i (b.drop 8))

/-- AES key unwrap; none where the integrity check fails (R266). -/
def aesUnwrap (kek w : List Byte) : Option (List Byte) :=
  let n := w.length / 8 - 1
  let ps := (List.range n).map fun i => slice w (8 * (i + 1)) 8
  let r := (List.range (6 * n)).foldl (fun st k => unwrapStep (padTo 32 kek) st ((6 * n - 1 - k) % n) (6 * n - k)) (w.take 8, ps)
  if w.length % 8 = 0 ∧ 2 ≤ n ∧ r.1 = wrapIv then some r.2.flatten else none

/-! ### CCM* -/

/-- A byte string cut into blocks of 16 bytes, the last one filled with zeros. -/
def blocks16 (b : List Byte) : List (List Byte) := (List.range ((b.length + 15) / 16)).map fun i => padTo 16 (slice b (16 * i) 16)

/-- The 8-byte authentication value of CCM* over a header and a plaintext, before it is enciphered. -/
def ccmMac (key nonce hdr m : List Byte) : List Byte :=
  let b0 := be 1 (0x19 + (if hdr = [] then 0 else 0x40)) ++ padTo 13 nonce ++ be 2 m.length
  let a := if hdr = [] then [] else blocks16 (be 2 hdr.length ++ hdr)
  ((b0 :: a ++ blocks16 m).foldl (fun x b => aesEncrypt key (List.zipWith (· ^^^ ·) x b)) (List.replicate 16 0)).take 8

/-- The key stream of CCM*: block i. -/
def ccmStream (key nonce : List Byte) (i : Nat) : List Byte := aesEncrypt key (be 1 1 ++ padTo 13 nonce ++ be 2 i)

/-- Bytes under the key stream from block 1 on. -/
def ccmCrypt (key nonce m : List Byte) : List Byte :=
  List.zipWith (· ^^^ ·) m ((List.range ((m.length + 15) / 16)).flatMap fun i => ccmStream key nonce (i + 1))

/-- AES-CCM* seal of (key, nonce, header, plaintext): ciphertext and 8-byte tag (R172, R176). -/
def ccmSeal (key nonce hdr m : List Byte) : List Byte :=
  let k := padTo 16 key
  ccmCrypt k nonce m ++ List.zipWith (· ^^^ ·) (ccmMac k nonce hdr m) (ccmStream k nonce 0)

/-- AES-CCM* open; none where the tag fails (R181). -/
def ccmOpen (key nonce hdr c : List Byte) : Option (List Byte) :=
  let k := padTo 16 key
  let m := ccmCrypt k nonce (c.take (c.length - 8))
  if 8 ≤ c.length ∧ c.drop (c.length - 8) = List.zipWith (· ^^^ ·) (ccmMac k nonce hdr m) (ccmStream k nonce 0) then some m else none

end Sys2Proof.Machine
end

