-- ==== Sys2Proof/Machine/Xmss.lean ====
section
/-!
DEFINITION. XMSS-SHAKE256_20_256 and XMSSMT-SHAKE256_40/2_256 (R236, R255, R259, R486, R492, R495): n = 32, w = 16, trees of height 20. The
spec cites NIST SP 800-208 and RFC 8391 and does not repeat them (PRESUMED, log entry 6).
-/
namespace Sys2Proof.Machine

/-! ### Hashes and addresses -/

/-- The keyed hashes: 0 F, 1 H, 2 H_msg, 3 PRF, 4 PRF_keygen. -/
def xmssHash (kind : Nat) (key m : List Byte) : List Byte := shake256 (be 32 kind ++ key ++ m) 32

/-- A hash address: layer, tree, type (0 OTS, 1 L-tree, 2 hash tree), three words by type, keyAndMask. -/
structure XAdrs where
  layer : Nat := 0
  tree : Nat := 0
  typ : Nat := 0
  a : Nat := 0
  b : Nat := 0
  c : Nat := 0
  mask : Nat := 0
  deriving DecidableEq, Repr

/-- The 32 bytes of an address. -/
def XAdrs.bytes (x : XAdrs) : List Byte := be 4 x.layer ++ be 8 x.tree ++ be 4 x.typ ++ be 4 x.a ++ be 4 x.b ++ be 4 x.c ++ be 4 x.mask

/-- A value that the public seed gives for an address. -/
def xmssPrf (seed : List Byte) (x : XAdrs) : List Byte := xmssHash 3 seed x.bytes

/-- Byte strings under exclusive or. -/
def xorB (a b : List Byte) : List Byte := List.zipWith (· ^^^ ·) a b

/-- RAND_HASH of two nodes. -/
def randHash (seed : List Byte) (x : XAdrs) (l r : List Byte) : List Byte :=
  xmssHash 1 (xmssPrf seed { x with mask := 0 })
    (xorB l (xmssPrf seed { x with mask := 1 }) ++ xorB r (xmssPrf seed { x with mask := 2 }))

/-! ### WOTS+ -/

/-- A chain of n steps from step i. -/
def wotsChain (seed : List Byte) (x : XAdrs) : Nat → Nat → List Byte → List Byte
  | 0, _, v => v
  | n + 1, i, v =>
    let y := { x with c := i }
    wotsChain seed x n (i + 1) (xmssHash 0 (xmssPrf seed { y with mask := 0 }) (xorB v (xmssPrf seed { y with mask := 1 })))

/-- The 67 digits of a message of 32 bytes: 64 of the message, 3 of the checksum. -/
def wotsDigits (m : List Byte) : List Nat :=
  let d := m.flatMap fun b => [b.toNat / 16, b.toNat % 16]
  let s := (d.map (15 - ·)).sum
  d ++ [s / 256, s / 16 % 16, s % 16]

/-- The public key that a WOTS+ signature gives. -/
def wotsPkOf (seed : List Byte) (x : XAdrs) (m : List Byte) (sig : List (List Byte)) : List (List Byte) :=
  (List.range 67).map fun i =>
    let d := (wotsDigits m).getD i 0
    wotsChain seed { x with b := i } (15 - d) d (sig.getD i [])

/-- The secret chain heads at an address, from the secret seed. -/
def wotsSk (sk seed : List Byte) (x : XAdrs) : List (List Byte) :=
  (List.range 67).map fun i => xmssHash 4 sk (seed ++ ({ x with b := i, c := 0, mask := 0 } : XAdrs).bytes)

/-- A WOTS+ signature. -/
def wotsSign (sk seed : List Byte) (x : XAdrs) (m : List Byte) : List (List Byte) :=
  (List.range 67).map fun i => wotsChain seed { x with b := i } ((wotsDigits m).getD i 0) 0 ((wotsSk sk seed x).getD i [])

/-- One level of an L-tree; an odd last node goes up as it is. -/
def ltreeLevel (seed : List Byte) (x : XAdrs) : Nat → List (List Byte) → List (List Byte)
  | i, l :: r :: rest => randHash seed { x with c := i } l r :: ltreeLevel seed x (i + 1) rest
  | _, rest => rest

/-- The L-tree of a WOTS+ public key, seven levels for 67 nodes. -/
def ltree (seed : List Byte) (x : XAdrs) (pk : List (List Byte)) : List Byte :=
  ((List.range 7).foldl (fun p h => ltreeLevel seed { x with b := h } 0 p) pk).headD []

/-! ### Trees -/

/-- The node of a hash tree above a leaf, up an authentication path from a height. -/
def climb (seed : List Byte) (x : XAdrs) (idx : Nat) : Nat → List (List Byte) → List Byte → List Byte
  | _, [], v => v
  | h, p :: ps, v =>
    let y : XAdrs := { x with typ := 2, a := 0, b := h, c := idx / 2 ^ (h + 1) }
    climb seed x idx (h + 1) ps (if idx / 2 ^ h % 2 = 0 then randHash seed y v p else randHash seed y p v)

/-- The root that a one-time signature with its authentication path gives (`sig`: 67 chain values, then the path). -/
def xmssRootFrom (seed : List Byte) (x : XAdrs) (idx : Nat) (m : List Byte) (sig : List (List Byte)) : List Byte :=
  let pk := wotsPkOf seed { x with typ := 0, a := idx } m (sig.take 67)
  climb seed x idx 0 (sig.drop 67) (ltree seed { x with typ := 1, a := idx } pk)

/-- The node of a tree at a height, from the secret seed. -/
def treeNode (sk seed : List Byte) (x : XAdrs) : Nat → Nat → List Byte
  | 0, i =>
    let y : XAdrs := { x with typ := 0, a := i }
    let pk := (List.range 67).map fun k => wotsChain seed { y with b := k } 15 0 ((wotsSk sk seed y).getD k [])
    ltree seed { x with typ := 1, a := i } pk
  | h + 1, i =>
    randHash seed { x with typ := 2, a := 0, b := h, c := i } (treeNode sk seed x h (2 * i)) (treeNode sk seed x h (2 * i + 1))

/-- A tree's part of a signature: the one-time signature and the authentication path. -/
def treeSign (sk seed : List Byte) (x : XAdrs) (idx : Nat) (m : List Byte) : List (List Byte) :=
  wotsSign sk seed { x with typ := 0, a := idx } m ++ (List.range 20).map fun j => treeNode sk seed x j ((idx / 2 ^ j) ^^^ 1)

/-! ### Signatures -/

/-- The hash of a message that is signed at an index. -/
def xmssMsg (r root : List Byte) (idx : Nat) (m : List Byte) : List Byte := xmssHash 2 (r ++ root ++ be 32 idx) m

/-- Whether an XMSS-SHAKE256_20_256 signature of 2,820 bytes is valid under a public key: root 32, public seed 32 (R236, R432, R492). -/
def xmssVerify (pk m sig : List Byte) : Bool :=
  let root := pk.take 32
  let seed := slice pk 32 32
  let idx := beAt sig 0 4
  decide (sig.length = 2820) && decide (idx < 2 ^ 20) &&
    xmssRootFrom seed {} idx (xmssMsg (slice sig 4 32) root idx m) (cutBytes 32 87 (sig.drop 36)) == root

/-- Whether an XMSSMT-SHAKE256_40/2_256 signature of 5,605 bytes is valid under a public key (R259, R486). -/
def xmssMtVerify (pk m sig : List Byte) : Bool :=
  let root := pk.take 32
  let seed := slice pk 32 32
  let idx := beAt sig 0 5
  let low := xmssRootFrom seed { layer := 0, tree := idx / 2 ^ 20 } (idx % 2 ^ 20) (xmssMsg (slice sig 5 32) root idx m)
    (cutBytes 32 87 (slice sig 37 2784))
  decide (sig.length = 5605) && decide (idx < 2 ^ 40) &&
    xmssRootFrom seed { layer := 1 } (idx / 2 ^ 20) low (cutBytes 32 87 (sig.drop 2821)) == root

/-- The XMSS^MT signature at an index (R486): of the identity secret, SK_SEED 32 bytes and SK_PRF 32, and the public key, root 32 and
PUB_SEED 32. -/
def xmssMtSign (sk pk : List Byte) (idx : Nat) (m : List Byte) : List Byte :=
  let root := pk.take 32
  let seed := slice pk 32 32
  let r := xmssHash 3 (slice sk 32 32) (be 32 idx)
  let x0 : XAdrs := { layer := 0, tree := idx / 2 ^ 20 }
  be 5 idx ++ r ++ (treeSign (sk.take 32) seed x0 (idx % 2 ^ 20) (xmssMsg r root idx m)).flatten ++
    (treeSign (sk.take 32) seed { layer := 1 } (idx / 2 ^ 20) (treeNode (sk.take 32) seed x0 20 0)).flatten

/-- The root of the identity key that the seeds SK_SEED, SK_PRF, PUB_SEED give (R487): of the top tree. -/
def xmssMtRoot (d : List Byte) : List Byte := treeNode (d.take 32) (slice d 64 32) { layer := 1 } 20 0

end Sys2Proof.Machine
end

