-- ==== Sys2Proof/Machine/KeyOps.lean ====
section
/-!
DEFINITION. Keys as the blocks use them (20_keys_attestation.md): slots and families, the endpoint key under its wrap,
tags, the identity fingerprint; and changes of the stored content that the hardware journals outside a group (R267).
-/
namespace Sys2Proof.Machine

/-- A key slot. -/
def State.slot (s : State) (n : Nat) : Slot := smGet {} s.keys.slots n

/-- The state with a key slot. -/
def State.setSlot (s : State) (n : Nat) (x : Slot) : State :=
  { s with keys := { s.keys with slots := smPut {} s.keys.slots n x } }

/-- VALID (R479). -/
def Slot.valid (x : Slot) : Bool := bitsOf x.attr 31 31 == 1
/-- PERSIST. -/
def Slot.persist (x : Slot) : Bool := bitsOf x.attr 30 30 == 1
/-- SEALED. -/
def Slot.isSealed (x : Slot) : Bool := bitsOf x.attr 29 29 == 1
/-- READABLE. -/
def Slot.readable (x : Slot) : Bool := bitsOf x.attr 28 28 == 1
/-- LOCKED. -/
def Slot.locked (x : Slot) : Bool := bitsOf x.attr 27 27 == 1
/-- LEN. -/
def Slot.len (x : Slot) : Nat := bitsOf x.attr 25 19
/-- SPAN. -/
def Slot.span (x : Slot) : Nat := bitsOf x.attr 18 15
/-- GEN. -/
def Slot.gen (x : Slot) : Nat := bitsOf x.attr 14 7
/-- The usage bits: 4 VERIFY, 3 SIGN, 2 CCM, 1 WRAP, 0 KMAC. -/
def Slot.usage (x : Slot) : Nat := bitsOf x.attr 4 0

/-- The slot of a family that holds a generation (R481). -/
def State.family (s : State) (first gen : Nat) : Option Nat :=
  ((List.range ((s.slot first).span + 1)).map (first + ·)).find? fun n => (s.slot n).valid && (s.slot n).gen == gen

/-- The key of a slot for a use whose usage bit is set (R480). -/
def State.keyFor (s : State) (n usageBit : Nat) : Option (List Byte) :=
  if (s.slot n).valid && natBit (s.slot n).usage usageBit then some (s.slot n).key else none

/-- The key of a family's generation for a use. -/
def State.familyKey (s : State) (first gen usageBit : Nat) : Option (List Byte) :=
  match s.family first gen with
  | some n => s.keyFor n usageBit
  | none => none


/-- Two byte strings, byte by byte under exclusive or. -/
def xorBytes (a b : List Byte) : List Byte := List.zipWith (· ^^^ ·) a b

/-- The identity fingerprint (R486), 0 before the key exists. -/
def State.fingerprint (s : State) : Nat := s.fuses.fingerprint

/-- A change of stored content that the hardware journals by itself (R267): effective at once, durable with its record. -/
def State.journalUpd (s : State) (us : List StoreUpd) : State :=
  let q := s.sealUpds us
  let j := s.cmt.next
  let ctx := us.flatMap fun u => match u with
    | .ctx k o bs => [{ kind := 3, len := bs.length, target := k, arg := o, data := bs : Action }]
    | _ => []
  let r : JRec := { typ := 1, group := 255, acts := ctx ++ recActions us, jseq := j, stamp := s.stamp 8
                    jflags := ofBool (decide (sealedCount us ≠ 0)), upds := q.1 }
  let s1 := State.dirtyCtx (State.gather { q.2 with live := s.live.applyAll s.man q.1 } q.1) q.1
  { s1 with cmt := { s1.cmt with next := j + 1, journal := s1.cmt.journal ++ [r] } }

/-- A checkpoint of the balance engine that has become complete (R294). -/
def State.ckSettle (s : State) : State :=
  match s.bal.ckNext with
  | some c =>
    if c.jseq ≤ s.cmt.durJseq then { s with bal := { s.bal with ckRecs := c.recs, ckNodes := c.nodes, ckQ := c.q, ckNext := none } } else s
  | none => s

/-- Context bytes changed by the table hardware or an Oarsman of the chip (R267). -/
def State.ctxPut (s : State) (slot off : Nat) (bs : List Byte) : State := s.journalUpd [.ctx slot off bs]

/-- The endpoint key of a context (R266): none where the slot lacks the wrap usage or the integrity check fails. -/
def State.endpointKey (s : State) (slot : Nat) : Option (List Byte) :=
  match s.keyFor (s.ctxAt slot 64 2 % 1024) 1 with
  | some kek => aesUnwrap kek (s.ctxBytes slot 24 40)
  | none => none

/-- The key of an enrolment record's wrapped bytes under a slot. -/
def State.unwrapUnder (s : State) (kekSlot : Nat) (w : List Byte) : Option (List Byte) :=
  match s.keyFor kekSlot 1 with
  | some kek => aesUnwrap kek w
  | none => none

/-- The radio link key (R177). -/
def linkKeyOf (endpointKey : List Byte) (eui : Nat) : List Byte := tagOf endpointKey (be 8 eui) 16 "RLK1"

end Sys2Proof.Machine
end

