-- ==== Sys2Proof/Machine/OarOps.lean ====
section
/-!
DEFINITION. What the blocks share of the Oarsmen (17_oarsman.md): registers, the end of a wait, transaction entries
(R279, R280), flow tags (R414, R435), traps (R437), restart.
-/
namespace Sys2Proof.Machine

/-- A general register; g0 reads 0 (R424). -/
def Oarsman.gr (o : Oarsman) (r : Nat) : Word := if r = 0 then 0 else smGet 0 o.g r

/-- The Oarsman with a general register; writes to g0 are ignored (R424). -/
def Oarsman.setG (o : Oarsman) (r : Nat) (v : Word) : Oarsman := if r = 0 then o else { o with g := smPut 0 o.g r v }

/-- A number as a register word. -/
def wd (n : Nat) : Word := BitVec.ofNat 32 n

/-- A wait or stall ends (R431, R442): the result stands in gd, the PC moves on, and the Oarsman halts at once when
HALT was written while it waited. -/
def State.oarResume (s : State) (n gd : Nat) (v : Word) : State :=
  let o := s.oarN n
  s.setOar n { o.setG gd v with wait := .none, pc := o.pc + 1, st := if o.haltReq || o.ebHalt then .halted else .running }

/-- An Oarsman begins to wait; STATE 2 (OAR_STAT_n). -/
def State.oarWait (s : State) (n : Nat) (w : OWait) : State :=
  s.setOar n { s.oarN n with st := .waiting, wait := w }

/-- The lowest free transaction entry (R279). -/
def State.txnFree (s : State) : Option Nat :=
  (List.range 4096).find? fun e => smGet none s.txn.used e == none

/-- Entries that an issuer holds. -/
def State.txnHeld (s : State) (n : Nat) : Nat :=
  (s.txn.used.filter fun p => match p.2 with | some t => t.issuer == n | none => false).length

/-- Entries of the shared pool in use: what each issuer holds past its quota (R280). -/
def State.txnPoolUsed (s : State) : Nat :=
  ((List.range 24).map fun n => s.txnHeld n - smGet 0 s.man.quota n).sum

/-- Whether an issuer finds an entry: in its own quota, else in the shared pool (R280). -/
def State.txnCan (s : State) (n : Nat) : Bool :=
  decide (s.txnHeld n < smGet 0 s.man.quota n) ||
  decide (s.txnPoolUsed < 4096 - (s.man.quota.map (·.2)).sum)

/-- A transaction entry taken. -/
def State.txnGive (s : State) (e : Nat) (t : Txn) : State :=
  { s with txn := { s.txn with used := smPut none s.txn.used e (some { t with started := s.stamp 8 }) } }

/-- An issuer begins to wait for an entry; event 230 once an episode (R280). -/
def State.txnWait (s : State) (w : TxnWaiter) : State :=
  State.raiseIf { s with txn := { s.txn with waiting := s.txn.waiting ++ [w] } }
    (s.txn.waiting.all fun x => x.issuer != w.issuer) 230

/-- An issuer takes an entry for some work, or none (R280). -/
def State.txnTake (s : State) (t : Txn) : Option (Nat × State) :=
  if s.txnCan t.issuer then s.txnFree.map fun e => (e, s.txnGive e t) else none

/-- A waiting issuer gets an entry. -/
def State.txnServe (s : State) (w : TxnWaiter) : State :=
  match s.txnTake { issuer := w.issuer }, w with
  | some (e, s1), .instr n =>
    match (s1.oarN n).wait with
    | .entry gd => s1.oarResume n gd (wd e)
    | _ => s1
  | some (e, s1), .planner c => { s1 with txn := { s1.txn with granted := smPut none s1.txn.granted c (some e) } }
  | some (e, s1), .work k _ => { s1 with txn := { s1.txn with granted := smPut none s1.txn.granted k (some e) } }
  | none, _ => s

/-- The entry that was granted to work that waited. -/
def State.takeGranted (s : State) (c : Nat) : Option (Nat × State) :=
  (smGet none s.txn.granted c).map fun e => (e, { s with txn := { s.txn with granted := smPut none s.txn.granted c none } })

/-- An entry for work that may have waited (R280): the one granted to it, else a fresh one. -/
def State.txnFor (s : State) (key : Nat) (t : Txn) : Option (Nat × State) :=
  match s.takeGranted key with
  | some (e, s1) => some (e, s1.txnGive e t)
  | none => s.txnTake t

/-- Work waits for an entry, once (R280). -/
def State.workWaits (s : State) (key issuer : Nat) : State :=
  if TxnWaiter.work key issuer ∈ s.txn.waiting then s else s.txnWait (.work key issuer)

/-- A freed transaction entry goes to the first waiting issuer that may take one (R280). -/
def State.txnRelease (s : State) (e : Nat) : State :=
  let s1 := { s with txn := { s.txn with used := smPut none s.txn.used e none } }
  match s1.txn.waiting.find? fun w => s1.txnCan w.issuer with
  | none => s1
  | some w => State.txnServe { s1 with txn := { s1.txn with waiting := s1.txn.waiting.erase w } } w

/-- The owner of a flow tag. -/
def State.flow (s : State) (t : Nat) : Owner := smGet .nobody s.flows (t % 4096)

/-- The state with the owner of a flow tag. -/
def State.setFlow (s : State) (t : Nat) (o : Owner) : State := { s with flows := smPut .nobody s.flows (t % 4096) o }

/-- Every tag of an owner released. -/
def State.dropFlows (s : State) (o : Owner) : State := { s with flows := s.flows.filter fun p => p.2 ≠ o }

/-- How many tags an owner holds. -/
def State.flowCount (s : State) (o : Owner) : Nat := (s.flows.filter fun p => p.2 = o).length

/-- The Oarsmen waiting on a group's outcome get it (R434): the result in bits 15:8. -/
def State.endGroupWaits (s : State) (g res : Nat) : State :=
  (List.range 16).foldl (fun st n =>
    match (st.oarN n).wait with
    | .group gd g' => if g' = g then st.oarResume n gd (wd (res * 256)) else st
    | _ => st) s

/-- A trap (R437): CAUSE, DETAIL and PC recorded, STATE trapped; the Oarsman's open groups aborted, its tags and
entries freed, its jobs' results discarded; event 400 + n and a Logbook record. -/
def State.trapOar (s : State) (n cause detail : Nat) : State :=
  let o := s.oarN n
  let pc := o.pc % 4096
  let s1 := s.setReg (oarTrap n) (wd (cause * 2 ^ 24 + detail % 256 * 2 ^ 16 + pc))
  let s2 := (s1.bump (oarCount_TRAPS n) 1).setOar n { o with st := .trapped, wait := .none, jobs := [] }
  let gs := (s2.cmt.groups.filter fun p => p.2.st = .opened ∧ p.2.issuer = n).map (·.1)
  let s3 := gs.foldl State.abortGroup s2
  let s4 := s3.dropFlows (.oarsman n)
  let es := (s4.txn.used.filter fun p => match p.2 with | some t => t.issuer == n | none => false).map (·.1)
  let s5 := es.foldl State.txnRelease { s4 with txn := { s4.txn with waiting := s4.txn.waiting.filter (· ≠ .instr n) } }
  s5.raiseLog (400 + n) (be 1 cause ++ be 2 pc ++ be 1 detail)

/-- Hash jobs that wait for a Keccak engine: precedence, place in the order of issue, Oarsman, tag (R261). -/
def State.hashWaiting (s : State) : List (Nat × Nat × Nat × Nat) :=
  s.oar.flatMap fun p => p.2.jobs.filterMap fun j => match j.2 with
    | some h => if h.result.isNone && !(s.pwr.serving.any fun x => x.2.2 == h.ord) then some (h.cls, h.ord, p.1, j.1) else none
    | none => none

/-- The waiting job that is served next: by precedence, then by order of issue (R261). -/
def State.nextHash (s : State) : Option (Nat × Nat × Nat × Nat) :=
  s.hashWaiting.foldl (fun b x => match b with
    | none => some x
    | some y => if x.1 < y.1 ∨ (x.1 = y.1 ∧ x.2.1 < y.2.1) then some x else b) none

/-- A free engine takes the next job; class-0 authentication does not wait, its engine goes on with the interrupted job after it
(R27, R261). -/
def State.fillEngines : Nat → State → State
  | 0, s => s
  | k + 1, s => match s.nextHash with
    | none => s
    | some x =>
      if s.pwr.serving.length < s.pwr.engines ∨ x.1 = 1 then
        State.fillEngines k { s with pwr := { s.pwr with serving := s.pwr.serving ++ [(x.2.2.1, x.2.2.2, x.2.1)] } }
      else s

/-- The data image of an Oarsman, the rest of data memory zero (R438). -/
def dataImage (p : OarProg) : SMap Byte := putBytes [] 0 (p.data.take 8192)

/-- A start or restart at PC 0 (R437, R438): data memory reloaded, registers and latches cleared. -/
def State.oarStart (s : State) (n : Nat) : State :=
  let p := smGet {} s.man.oar n
  s.setOar n { st := .running, pc := 0, mem := dataImage p }

/-- A restart on request (R437), counted. -/
def State.oarRestart (s : State) (n : Nat) : State :=
  let o := s.oarN n
  if o.st = .trapped ∨ o.st = .halted then (s.oarStart n).bump (oarCount_RESTARTS n) 1 else s

end Sys2Proof.Machine
end

