-- ==== Sys2Proof/Machine/EptOps.lean ====
section
/-!
DEFINITION. The endpoint table as the blocks use it (09_endpoint_table.md): contexts, enrolment records, registration,
the hot cache.
-/
namespace Sys2Proof.Machine

/-- The table of enrolment records, by EUI-64 (R272). -/
def tabEnrol : Nat := 3

/-- Context fields: STATE, FLAGS, EUI, INDEX, CELL, ADDR, TGROUP, ACCOUNT (R265). -/
def State.epState (s : State) (slot : Nat) : Nat := s.ctxAt slot 12 1
/-- FLAGS. -/
def State.epFlags (s : State) (slot : Nat) : Nat := s.ctxAt slot 13 1
/-- EUI. -/
def State.epEui (s : State) (slot : Nat) : Nat := s.ctxAt slot 0 8
/-- INDEX. -/
def State.epIndex (s : State) (slot : Nat) : Nat := s.ctxAt slot 8 4 % 2 ^ 20
/-- CELL. -/
def State.epCell (s : State) (slot : Nat) : Nat := s.ctxAt slot 14 1
/-- ADDR. -/
def State.epAddr (s : State) (slot : Nat) : Nat := s.ctxAt slot 16 2
/-- Barred (FLAGS bit 0). -/
def State.epBarred (s : State) (slot : Nat) : Bool := natBit (s.epFlags slot) 0

/-- The flow tag of an endpoint (R269). -/
def State.epFlow (s : State) (slot : Nat) : Nat :=
  let i := if s.epState slot = 2 then slot else s.epIndex slot
  (i % 4096) ^^^ (i / 4096)

/-- Table slots whose context holds any byte. -/
def State.ctxSlots (s : State) : List Nat := (s.live.ctx.map fun p => p.1 / 1024).dedup

/-- The slot that holds an EUI-64, registered, awaiting or removed. -/
def State.slotOfEui (s : State) (eui : Nat) : Option Nat :=
  s.ctxSlots.find? fun i => s.epState i != 0 && s.epEui i == eui

/-- The live context of an EUI-64: registered or awaiting an index. -/
def State.liveSlot (s : State) (eui : Nat) : Option Nat :=
  s.ctxSlots.find? fun i => (s.epState i == 1 || s.epState i == 2) && s.epEui i == eui

/-- The flow tag of the endpoint of an EUI-64 that has a context (R26); 0 where none has. -/
def State.euiFlow (s : State) (eui : Nat) : Nat :=
  match s.liveSlot eui with
  | some i => s.epFlow i
  | none => 0

/-- The slot that holds an endpoint index. -/
def State.slotOfIndex (s : State) (i : Nat) : Option Nat :=
  s.ctxSlots.find? fun k => s.epState k != 0 && s.epIndex k == i

/-- Contexts in given states. -/
def State.ctxCount (s : State) (p : Nat → Bool) : Nat :=
  (s.ctxSlots.filter fun i => p (s.epState i) && decide (i < s.get eptCfg_CAPACITY)).length

/-- EPT_COUNT and EPT_QUAR after a change of the table. -/
def State.recount (s : State) : State :=
  (s.setSat eptCount_REGISTERED (s.ctxCount fun x => x == 1 || x == 2)).setSat eptQuar_QUARANTINED
    (s.ctxCount fun x => x == 3)

/-- The lowest free slot within the capacity (R278). -/
def State.freeSlot (s : State) : Option Nat :=
  ((List.range (s.ctxSlots.length + 1)).find? fun i => s.epState i == 0).filter fun i => decide (i < s.get eptCfg_CAPACITY)

/-- Whether the table total of R274 is reached. -/
def State.hubFull (s : State) : Bool :=
  decide (s.get eptCfg_CAPACITY ≤ s.ctxCount fun x => x != 0) || decide (1048576 ≤ s.ctxCount fun x => x != 0)

/-- An enrolment record, 128 bytes; none when the EUI is not enrolled. -/
def State.enrolment (s : State) (eui : Nat) : Option (List Byte) :=
  match s.live.row tabEnrol eui with
  | [] => none
  | r => some (r.map fun n => BitVec.ofNat 8 n)

/-- The bytes of a list as numbers, as a record holds them. -/
def nums (b : List Byte) : List Nat := b.map (·.toNat)

/-- A byte string read back from a record. -/
def bytesOf (r : List Nat) : List Byte := r.map (BitVec.ofNat 8)

/-- A new context (R265, R272): identity and parameters of the enrolment record, everything else at its initial value. -/
def newContext (r : List Byte) (index st cell addr depth parent regSec : Nat) : List Byte :=
  let eflags := beAt r 51 1
  let flags := eflags % 4 + (if natBit eflags 2 then 8 else 0)
  slice r 0 8 ++ be 4 index ++ be 1 st ++ be 1 flags ++ be 1 cell ++ be 1 0x0F ++ be 2 addr ++ slice r 50 1
    ++ slice r 59 1 ++ slice r 52 4 ++ slice r 8 40 ++ slice r 48 2 ++ be 6 0 ++ be 4 0 ++ be 4 0 ++ be 8 0
    ++ List.replicate 24 0 ++ be 4 0 ++ slice r 56 2 ++ List.replicate 10 0
    ++ be 4 0 ++ be 4 0xFFFFFFFF ++ be 8 0 ++ slice r 64 32 ++ slice r 96 32 ++ slice r 58 1 ++ List.replicate 3 0
    ++ be 4 0 ++ be 4 0 ++ be 4 0 ++ be 6 0 ++ be 4 0 ++ be 2 0 ++ be 2 parent ++ be 1 depth ++ be 1 0
    ++ be 6 regSec ++ be 2 0 ++ be 8 0 ++ be 8 0 ++ List.replicate 760 0

/-- The balance record of a slot begins anew with its endpoint (DESIGN CHOICE, log entry 124). -/
def State.freshBrec (s : State) (slot : Nat) : State := { s with bal := { s.bal with recs := smPut {} s.bal.recs slot {} } }

/-- Registration of an endpoint that a cell accepted (R275): awaiting an index under a hub, else at once, its index the
slot; event 224 when registered. -/
def State.registerEp (s : State) (r : List Byte) (cell addr depth parent : Nat) : Option (Nat × State) :=
  s.freeSlot.map fun i =>
    let st := if s.underHub then 2 else 1
    let s1 := ((s.ctxPut i 0 (newContext r (if s.underHub then 0 else i) st cell addr depth parent s.ptpSec)).recount).freshBrec i
    (i, s1.raiseIf (st == 1) 224)

/-- A context freed: STATE 0x00 and every byte behind the EUI 0. The EUI stays until the slot is used again, as OP 0x8 on an
endpoint in STATE 0x00 needs it (DEDUCED, log entry 39). -/
def State.freeCtx (s : State) (slot : Nat) : State := (s.ctxPut slot 8 (List.replicate 1016 0)).recount

/-- An EUI that the device takes as an identity (R11). -/
def euiOk (e : Nat) : Bool := decide (e ≠ 0) && decide (e ≠ 2 ^ 64 - 1)

/-- Whether the retention of a removed index has passed (R13, R278): the UTC day REMOVED_DAY plus the Manifest's retention is over
(DEDUCED, log entry 109). -/
def State.retainOver (s : State) (slot : Nat) : Bool := decide (s.ctxAt slot 246 2 + s.man.retention < s.utcSec / 86400)

/-- A refusal for a full cell or hub (R277): counted, its event, and a Logbook record. -/
def State.refuseReg (s : State) (hub : Bool) (eui cell : Nat) : State :=
  if hub then (s.bump eptRefuse_HUBFULL 1).raiseLog 226 (be 8 eui ++ be 1 cell)
  else (s.bump eptRefuse_CELLFULL 1).raiseLog 225 (be 8 eui ++ be 1 cell)

/-! ### The hot cache -/

/-- Slots whose hot part is pinned (R270). -/
def State.pinned (s : State) : List Nat :=
  ((s.val.recs.filterMap fun p => match p.2 with | some v => v.slot | none => none) ++
   (s.txn.used.filterMap fun p => match p.2 with | some t => t.slot | none => none) ++
   ((s.cmt.groups.filter fun p => p.2.st = .opened).flatMap fun p =>
      (p.2.actions.filter fun a => a.kind == 3).map (·.target))).dedup

/-- The cache entry that holds a slot. -/
def State.cacheAt (s : State) (slot : Nat) : Option Nat :=
  (s.ept.cache.find? fun p => match p.2 with | some e => e.slot == slot | none => false).map (·.1)

/-- A cache entry. -/
def State.cacheE (s : State) (k : Nat) : Option CacheE := smGet none s.ept.cache k

/-- The state with a cache entry. -/
def State.setCacheE (s : State) (k : Nat) (e : Option CacheE) : State :=
  { s with ept := { s.ept with cache := smPut none s.ept.cache k e } }

/-- Entries of the hot cache. -/
def cacheSize : Nat := 65536

/-- The clock hand looks for a victim (R271): pinned entries are skipped, a set reference bit is cleared. -/
def clockSweep (pins : List Nat) : Nat → State → Option Nat × State
  | 0, s => (none, s)
  | fuel + 1, s =>
    let h := s.ept.hand
    let s1 := { s with ept := { s.ept with hand := (h + 1) % cacheSize } }
    match s.cacheE h with
    | none => (some h, s1)
    | some e =>
      if e.slot ∈ pins then clockSweep pins fuel s1
      else if e.ref then clockSweep pins fuel (s1.setCacheE h (some { e with ref := false }))
      else (some h, s1)

/-- A free entry, or the victim of the clock. -/
def State.cacheRoom (s : State) : Option Nat × State :=
  if s.ept.cache.length < cacheSize then ((List.range cacheSize).find? fun k => s.cacheE k == none, s)
  else clockSweep s.pinned (2 * cacheSize + 1) s

/-- A damaged context read is restored from the Hold (R268); an armed poison inject has acted once (R531 kind 0x7). -/
def State.restoreCtx (s : State) (slot : Nat) : State := s.raiseLog 231 (be 4 slot)

/-- The armed poison inject of a context slot. -/
def State.poisonEntry (s : State) (slot : Nat) : Option Nat :=
  s.armedEntry 7 fun e => e.target + e.a % 16 * 65536 == slot

/-- The LPDDR5 controller counts what it met at a read (R552): a corrected line, or one with an uncorrectable error. -/
def State.dramCount (s : State) : LineRead → State
  | .clean => s
  | .corrected => s.bump sysDramEcc_CORR 1
  | .damaged => s.bump sysDramEcc_UNCORR 1

/-- A DRAM read of a context (R268, R531, R552): whether it came back poisoned. The record that R552 asks for at an uncorrectable error is
that of event 231 (DESIGN CHOICE, log entry 137). -/
def State.ctxFetch (s0 : State) (slot : Nat) (line : LineRead) : Bool × State :=
  let s := s0.dramCount line
  match s.poisonEntry slot with
  | some n =>
    let s1 := s.hit n
    let s2 := s1.raiseLog 485 (s1.testDetail n (s1.entry n).win 0x06)
    (true, (s2.disarm n (s1.entry n).win 0x06).restoreCtx slot)
  | none => if line = .damaged then (true, s.restoreCtx slot) else (false, s)

/-- An access to a hot part (R270, R271): a hit, or a miss that fetches it; whether the fetch came back poisoned. -/
def State.hot (s : State) (slot : Nat) (write : Bool) (line : LineRead) : Bool × State :=
  match s.cacheAt slot with
  | some k =>
    let was := match s.cacheE k with
      | some e => e.dirty
      | none => false
    (false, (s.wrapUp eptCacheHit_COUNT 1).setCacheE k (some { slot := slot, ref := true, dirty := write || was }))
  | none =>
    let s1 := s.wrapUp eptCacheMiss_COUNT 1
    let r := s1.ctxFetch slot line
    match r.2.cacheRoom with
    | (some k, s2) => (r.1, s2.setCacheE k (some { slot := slot, ref := true, dirty := write }))
    | (none, s2) => (r.1, s2)

end Sys2Proof.Machine
end

