-- ==== Sys2Proof/Machine/PlcOps.lean ====
section
/-!
DEFINITION. The power-line physical layer as shared operations (04_plc_physical.md): paths, the transmit job, completion,
the receive descriptor, the modulation suggestion; and the launch queues of the media.
-/
namespace Sys2Proof.Machine

/-! ### Launch queues -/

/-- The medium that a launch queue serves. -/
inductive Medium where
  | plc (c : Nat)
  | rad (r : Nat)
  | eth (x : Nat)
  | gwy
  | other
  deriving DecidableEq, Repr

/-- The medium of a queue by the Manifest's roles. -/
def Manifest.medium (m : Manifest) (q : Nat) : Medium :=
  let at_ := fun (l : List Nat) => (List.range l.length).find? fun i => roleQ l i == some q
  match at_ m.roles.plcLaunch with
  | some c => .plc c
  | none => match at_ m.roles.radLaunch, at_ m.roles.radIndirect with
    | some r, _ => .rad r
    | none, some r => .rad r
    | none, none => match at_ m.roles.ethLaunch with
      | some x => .eth x
      | none => if (at_ m.roles.gwyLaunch).isSome then .gwy else .other

/-- A launch word for a crossing-time instant (R63). -/
def launchAt (xt : Nat) : DWord := BitVec.ofNat 64 (2 ^ 63 + 2 ^ 62 + xt % 2 ^ 62)

/-- A launch word for a PTP instant in ns (R63). -/
def launchPtp (t : Nat) : DWord := BitVec.ofNat 64 (2 ^ 63 + t / nsPerSec % 2 ^ 30 * 2 ^ 32 + t % nsPerSec)

/-- An item of words with a stamp of rank 8. -/
def State.wordItem (s : State) (flow : Nat) (ws : List DWord) : Item :=
  { mkItem flow (s.stamp 8) [] with data := ws.map fun w => { val := w } }

/-! ### PLC paths -/

/-- Coupling mode (R115). -/
def State.plcMode (s : State) : Nat := s.get plcConfig_MODE

/-- The PLC cells that exist. -/
def State.plcCells (s : State) : List Nat := if s.plcMode = 1 then [0, 1, 2] else [0]

/-- The paths of a cell (Coupling modes table). -/
def State.cellPaths (s : State) (c : Nat) : List Nat :=
  if s.plcMode = 0 then [s.get plcConfig_SPHASE] else if s.plcMode = 1 then [c] else [0, 1, 2]

/-- The cell that a path carries. -/
def State.pathCell (s : State) (p : Nat) : Nat := if s.plcMode = 1 then p else 0

/-- The Oarsman that drives a path (Coupling modes table). -/
def State.pathOarsman (s : State) (p : Nat) : Nat := s.pathCell p

/-- The path whose number ranks a cell's stamps. -/
def State.mainPath (s : State) (c : Nat) : Nat := (s.cellPaths c).headD 0

/-- A path. -/
def State.path (s : State) (p : Nat) : PlcPath := smGet {} s.plc.paths p

/-- The state with a path. -/
def State.setPath (s : State) (p : Nat) (x : PlcPath) : State :=
  { s with plc := { s.plc with paths := smPut {} s.plc.paths p x } }

/-- Whether a path's driver is off after a trip, or latched off (R121). -/
def State.driverOff (s : State) (p : Nat) : Bool := (s.path p).tripAt.isSome || s.flag (plcTxStat_OFF p)

/-- A completion of a PLC launch item (R114), with the item's flow tag (R26). -/
def State.plcCompletion (s : State) (c flow : Nat) (t : Stamp) (status steps : Nat) : State :=
  match roleQ s.man.roles.completion c with
  | some q => s.produce .launchUnit q (mkItem flow (s.stamp 8) (t.bytes ++ be 1 status ++ be 1 steps ++ be 2 0))
  | none => s

/-- The head item of a launch queue: the next main-queue item that is visible. -/
def State.launchHead (s : State) (q : Nat) : Option Item :=
  match (s.q q).nextIdx with
  | some i => if ((s.q q).items.getD i {}).delayed then none else some ((s.q q).items.getD i {})
  | none => none

/-- The n-th data word of an item. -/
def Item.word (it : Item) (n : Nat) : Nat := (it.data.getD n { val := 0 }).val.toNat

/-- The bytes of an item from its n-th data word on. -/
def Item.bytesFrom (it : Item) (n : Nat) : List Byte := dbytes ((it.data.drop n).map (·.val))

/-- Fields of the PLC transmit descriptor, the second word of an item (R112): MOD, PHASES, EXTRA, LEN. -/
def Item.plcMod (it : Item) : Nat := it.word 1 / 2 ^ 60
/-- TONEMAP. -/
def Item.plcTones (it : Item) : Nat := it.word 1 / 2 ^ 24 % 2 ^ 24
/-- PHASES. -/
def Item.plcPhases (it : Item) : Nat := it.word 1 / 2 ^ 56 % 8
/-- EXTRA. -/
def Item.plcExtra (it : Item) : Nat := it.word 1 / 2 ^ 51 % 32
/-- LEN. -/
def Item.plcLen (it : Item) : Nat := it.word 1 % 65536
/-- The PSDU. -/
def Item.psdu (it : Item) : List Byte := padTo it.plcLen (it.bytesFrom 2)

/-- A valid PLC launch item (R112). -/
def Item.plcValid (it : Item) : Bool := decide (it.plcMod < 8) && decide (it.plcLen ≤ 254)

/-- The phases that send a frame (R117). -/
def State.txPhases (s : State) (c phases : Nat) : List Nat :=
  if s.plcMode = 2 then (if phases = 0 then [0, 1, 2] else (List.range 3).filter fun p => natBit phases p)
  else s.cellPaths c

/-- Tone-map groups of the band (PLC bands table). -/
def State.toneGroups (s : State) : Nat := if s.get plcConfig_BAND = 0 then 6 else 24

/-- The tone map in use of a descriptor's TONEMAP (R112): the groups of the band alone, all of them where none is on. -/
def State.tonesOf (s : State) (t : Nat) : Nat :=
  let n := s.toneGroups
  if t % 2 ^ n = 0 then 2 ^ n - 1 else t % 2 ^ n

/-- The delay of a phase after L1 in 1/16 ADC sample (R117). -/
def State.trimOf (s : State) (k : Nat) : Nat :=
  if s.plcMode = 2 then (if k = 1 then s.get plcAllphTrim_L2 else if k = 2 then s.get plcAllphTrim_L3 else 0) else 0

/-- The transmit level as dB below full scale (R113). -/
def TxJob.level (j : TxJob) : Nat := min 63 (j.base + 3 * j.steps)

/-- The rank of a cell's stamps. -/
def State.cellRank (s : State) (c : Nat) : Nat := if s.plcMode = 2 then 2 else 2 + s.mainPath c

/-- A path begins to send a frame (R110, R113, R117, R123): its settings of this moment hold for the frame, the driver is enabled, which
happens 20 µs before the preamble. -/
def State.pathStart (s : State) (job : TxJob) (extra tones : Nat) (k : Nat) : State :=
  let j := { job with base := s.get (plcTxCfg_ATTEN k) + extra, maxStep := min 4 (s.get (plcTxCfg_MAXSTEP k))
                      limit := s.get (plcTxCfg_LIMIT k), trip := max 1 (s.get (plcTxCfg_TRIP k)) }
  let x : PlcTx := { level := j.level, delay := s.trimOf k, band := s.get plcConfig_BAND, modc := j.modc, tones := s.tonesOf tones
                     psdu := j.psdu }
  ((s.setPath k { s.path k with job := some j }).emit (.pin (.drven k) .high)).emit (.plcFrame k x)

/-- XING_TXCOMP of a rank in crossing-time units (R61). -/
def State.txCompXt (s : State) (rank : Nat) : Int := s.compXt (s.get (xingTxcomp_DELAY rank))

/-- What is inserted on the fly into a departing PSDU (R61, R135): into a routed cell frame LAUNCH, bits 31:0 of the crossing time of the
first preamble sample, with the check sequence anew. -/
def State.insertLaunch (s : State) (c : Nat) (b : List Byte) : List Byte :=
  let t := b.take (b.length - 4)
  if 28 ≤ b.length ∧ natBit (beAt b 0 1) 2 ∧ beAt b 0 1 % 4 = 1 ∧ beAt b (b.length - 4) 4 = crc32c t then
    let u := patch t 20 (be 4 (((s.xt : Int) + s.txCompXt (s.cellRank c)).toNat % 2 ^ 32))
    u ++ be 4 (crc32c u)
  else b

/-- A beacon or TIME that tells of a renumbering leaves: the next one tells of it no more (R164). -/
def State.tellRenum (s : State) (c : Nat) (told : Bool) : State :=
  let x : Cell := smGet {} s.plc.cells c
  if told then { s with plc := { s.plc with cells := smPut {} s.plc.cells c { x with renum := false } } } else s

/-- A frame starts on the medium, on each of its phases; `rep` marks the repeat of a class-0 frame, whose item has left its queue (R114,
R166). -/
def State.plcStart (s : State) (c q flow modc phases extra tones : Nat) (psdu : List Byte) (late renum rep : Bool) : State :=
  let ps := s.txPhases c phases
  let job : TxJob := { q := q, flow := flow, modc := modc, phases := ps, xtc := s.flag plcXtCfg_XTC_EN, rep := rep
                       stamp := s.txStamp (s.cellRank c) late renum, psdu := s.insertLaunch c psdu }
  let s2 := ps.foldl (fun st k => st.pathStart job extra tones k) s
  if beAt psdu 0 1 / 16 = 1 then (s2.tellRenum c (natBit (beAt psdu 36 1) 1)).raise (80 + 16 * c) else s2

/-- A path sends no longer: its driver is disabled, 10 µs after the last sample, or at once at a trip (R110, R120). -/
def State.pathStop (s : State) (k : Nat) : State := (s.setPath k { s.path k with job := none }).emit (.pin (.drven k) .low)

/-- A frame leaves every phase that sends it. -/
def State.clearJob (s : State) (j : TxJob) : State := j.phases.foldl State.pathStop s

/-- The frame that a cell sends: that of the first of its paths that sends one. -/
def State.cellJob (s : State) (c : Nat) : Option TxJob := (s.cellPaths c).findSome? fun p => (s.path p).job

/-- The limiter steps of a frame (R114): the most of its phases. -/
def State.jobSteps (s : State) (j : TxJob) : Nat :=
  (j.phases.map fun k => match (s.path k).job with
    | some x => x.steps
    | none => 0).foldl max 0

/-- The phases on which a frame has been drive limited (R120). -/
def State.jobLimited (s : State) (j : TxJob) : List Nat :=
  j.phases.filter fun k => match (s.path k).job with
    | some x => x.limited
    | none => false

/-- The DAC samples of a frame (R100), before its level and its delay. -/
def PlcTx.wave (x : PlcTx) : List Int := Config.plcSamples x.band x.modc x.tones x.psdu

/-! ### Receiving -/

/-- Whether a linear ratio in thousandths lies at or above (2h - 1)/4 dB: whether it rounds to h half-decibels or more. -/
def atLeastHalfDb (n : Nat) (h : Int) : Bool :=
  let e := 2 * h - 1
  if 0 ≤ e then decide (10 ^ e.toNat * 1000 ^ 40 ≤ n ^ 40) else decide (1000 ^ 40 ≤ n ^ 40 * 10 ^ (-e).toNat)

/-- A linear SNR in thousandths in 0.5 dB units, rounded to nearest, between -20 and 235 (R107). -/
def halfDb (n : Nat) : Int := ((((List.range 256).takeWhile fun k => k == 0 || atLeastHalfDb n ((k : Int) - 20)).length : Nat) : Int) - 21

/-- An SNR in 0.5 dB as its code (R107). -/
def snrCode (h : Int) : Nat := (clampInt 0 255 (h + 20)).toNat

/-- The suggestion thresholds in 0.5 dB (R109). -/
def sugThr : List Int := [-2, 2, 8, 12, 14, 18, 22, 26]

/-- The tone map of the groups that reach a threshold. -/
def toneMap (snr : List Int) (thr : Int) : Nat :=
  ((List.range snr.length).map fun g => if thr ≤ snr.getD g 0 then 2 ^ g else 0).sum

/-- The groups that reach a threshold. -/
def toneCount (snr : List Int) (thr : Int) : Nat := (snr.filter fun x => thr ≤ x).length

/-- The suggestion of R109, from the least robust code down. -/
def suggestFrom (snr : List Int) : Nat → Nat × Nat
  | 0 => (0, if 2 * toneCount snr (-2) ≥ snr.length then toneMap snr (-2) else 2 ^ snr.length - 1)
  | r + 1 =>
    let thr := sugThr.getD (r + 1) 0
    if 2 * toneCount snr thr ≥ snr.length then (r + 1, toneMap snr thr) else suggestFrom snr r

/-- The modulation and tone map suggested for a frame (R109). -/
def suggest (snr : List Int) : Nat × Nat := suggestFrom snr 7

/-- The verdict of a frame (R106, R112); `broken` where a frame-error entry damages it (R531 kind 0x8). Where several rows of the Receive
verdicts table apply, 0x01 goes before 0x03, that before 0x04, that before 0x02 (DESIGN CHOICE, log entry 117). -/
def PlcRx.verdict (x : PlcRx) (broken : Bool) : Nat :=
  if !x.fchOk then 0x01
  else if !x.supported || decide (8 ≤ x.modc) || decide (254 < x.len) then 0x03
  else if x.lost.isSome then 0x04
  else if !x.rsOk || broken then 0x02
  else 0x00

/-- The last samples that were not blanked, newest first, at most 256, and the sum of their squares (R105). -/
structure RmsWindow where
  last : List Int := []
  sum : Nat := 0
  deriving DecidableEq, Repr

/-- A sample that is not blanked enters the window. -/
def RmsWindow.push (w : RmsWindow) (x : Int) : RmsWindow :=
  let old := if 256 ≤ w.last.length then (w.last.getLast?.getD 0).natAbs ^ 2 else 0
  { last := (x :: w.last).take 256, sum := w.sum + x.natAbs ^ 2 - old }

/-- Whether a sample's magnitude exceeds k times the running RMS (R105). Nothing is blanked before the first sample. -/
def RmsWindow.blanks (w : RmsWindow) (k : Nat) (x : Int) : Bool := decide (k ^ 2 * w.sum < x.natAbs ^ 2 * w.last.length)

/-- Samples after blanking, in order, with the window behind them. -/
def blankSamples (k : Nat) : RmsWindow → List Int → List Int × RmsWindow
  | w, [] => ([], w)
  | w, x :: xs =>
    if w.blanks k x then let r := blankSamples k w xs; (0 :: r.1, r.2)
    else let r := blankSamples k (w.push x) xs; (x :: r.1, r.2)

/-- The symbols of a frame after blanking (R105). -/
def blankSymbols (k : Nat) : RmsWindow → List (List Int) → List (List Int)
  | _, [] => []
  | w, y :: ys => let r := blankSamples k w y; r.1 :: blankSymbols k r.2 ys

/-! ### Crosstalk -/

/-- The phases whose crosstalk a path hears (R116). -/
def otherPhases (p : Nat) : List Nat := [0, 1, 2].filter fun q => decide (q ≠ p)

/-- The canceller of an ordered phase pair: a receiving phase, a sending one (R116). -/
def State.canceller (s : State) (p q : Nat) : Canceller := smGet {} s.plc.xtc (3 * p + q)

/-- The state with a canceller. -/
def State.setCanceller (s : State) (p q : Nat) (x : Canceller) : State :=
  { s with plc := { s.plc with xtc := smPut {} s.plc.xtc (3 * p + q) x } }

/-- A canceller's estimate at the n-th sample: its 64 taps over the DAC samples up to that one (R116). -/
def Canceller.estimate (x : Canceller) (dac : List Int) (n : Nat) : Int :=
  (((List.range 64).map fun i => x.taps.getD i 0 * dac.getD (n + 63 - i) 0).sum).tdiv 65536

/-- What a path takes for crosstalk of the other two phases at the n-th sample (R116). -/
def State.crosstalk (s : State) (p : Nat) (dac : List (List Int)) (n : Nat) : Int :=
  ((otherPhases p).map fun q => (s.canceller p q).estimate (dac.getD q []) n).sum

/-- Samples from the n-th on, less an estimate. -/
def lessCrosstalk (f : Nat → Int) : Nat → List Int → List Int
  | _, [] => []
  | n, v :: vs => (v - f n) :: lessCrosstalk f (n + 1) vs

/-- Symbols from the n-th sample on, less an estimate. -/
def symbolsLess (f : Nat → Int) : Nat → List (List Int) → List (List Int)
  | _, [] => []
  | n, y :: ys => lessCrosstalk f n y :: symbolsLess f (n + y.length) ys

/-- Whether the paths cancel crosstalk (R116). -/
def State.cancels (s : State) : Bool := s.plcMode == 1 && s.flag plcXtCfg_XTC_EN

/-- The samples of a phase after crosstalk cancellation (R116). -/
def State.received (s : State) (p : Nat) (x : PlcRx) : List (List Int) :=
  if s.cancels then symbolsLess (s.crosstalk p x.dac) 0 (x.samples.getD p []) else x.samples.getD p []

/-- The samples of a phase that go to the FFT: with blanking on, those beyond IMP_K times the running RMS of the 256 samples before them
that were not blanked, of this frame or ahead of it, are 0 (R105). -/
def State.fftInput (s : State) (p : Nat) (x : PlcRx) : List (List Int) :=
  let k := max 4 (s.get (plcRxCfg_IMP_K p))
  if s.flag (plcRxCfg_BLANK_EN p) then blankSymbols k (blankSamples k {} (x.before.getD p [])).2 (s.received p x) else s.received p x

/-- Whether each symbol of a phase contains a blanked sample. -/
def State.blankFlags (s : State) (p : Nat) (x : PlcRx) : List Bool :=
  List.zipWith (fun a b => decide (a ≠ b)) (s.fftInput p x) (s.received p x)

/-- Symbols with blanked samples on any of some phases (R105, R107). -/
def State.blanked (s : State) (ps : List Nat) (x : PlcRx) : Nat :=
  let n := ((ps.map fun p => (x.samples.getD p []).length).foldl max 0)
  min 255 ((List.range n).filter fun k => ps.any fun p => (s.blankFlags p x).getD k false).length

/-- The sum of squares of some samples. -/
def sumSquares (l : List Int) : Nat := (l.map fun x => x.natAbs ^ 2).sum

/-- Whether two mean squares, each as a sum over a count, lie more than 6 dB apart. -/
def apart6 (a m b n : Nat) : Bool := decide (3981 * b * m < 1000 * a * n) || decide (3981 * a * n < 1000 * b * m)

/-- The impedance-change flag of a phase (R108): the input RMS over some 4 symbols in a row after the preamble differs from the
preamble's by more than 6 dB. -/
def PlcRx.impedance (x : PlcRx) (p : Nat) : Bool :=
  let y := x.samples.getD p []
  let pre := (y.take x.pre).flatten
  let z := y.drop x.pre
  pre ≠ [] && (List.range (z.length - 3)).any fun i =>
    let w := ((z.drop i).take 4).flatten
    apart6 (sumSquares w) w.length (sumSquares pre) pre.length

/-- Whether a phase's ADC of 14 bits reached full scale. -/
def PlcRx.fullScale (x : PlcRx) (p : Nat) : Bool := (x.samples.getD p []).any fun y => y.any fun v => decide (8191 ≤ v) || decide (v ≤ -8192)

/-- The PGA step of a path (R104). -/
def State.pgaStep (s : State) (p : Nat) (x : PlcRx) : Nat :=
  if s.flag (plcRxCfg_AGC_FIX p) then min 14 (s.get (plcRxCfg_FIXGAIN p)) else min 14 (x.gains.getD p 0)

/-- Whether a linear ratio lies more than m half-decibels below another. -/
def belowHalfDbs (m n best : Nat) : Bool := decide (n ^ 20 * 10 ^ m < best ^ 20)

/-- The paths excluded from combining (R118). -/
def State.excluded (s : State) (x : PlcRx) : List Nat :=
  let best := (x.detected.map fun p => x.snrs.getD p 0).foldl max 0
  let m := s.get plcMrcCfg_EXCL
  (List.range 3).filter fun p => decide (p ∉ x.detected) || (decide (m ≠ 0) && belowHalfDbs m (x.snrs.getD p 0) best)

/-- The phases that contribute to a frame on a path: those not excluded in all-phase mode, else the path's own (R118). -/
def State.contributors (s : State) (p : Nat) (x : PlcRx) : List Nat :=
  if s.plcMode = 2 then (List.range 3).filter fun k => decide (k ∉ s.excluded x) else [p]

/-- SNR after combining: the contributors' ratios add (R118 and its worked example). -/
def PlcRx.combined (x : PlcRx) (con : List Nat) : Int := halfDb ((con.map fun k => x.snrs.getD k 0).sum)

/-- The SNR of each tone-map group after combining, in 0.5 dB (R109, R118). -/
def PlcRx.groupDb (x : PlcRx) (con : List Nat) (n : Nat) : List Int :=
  (List.range n).map fun g => halfDb ((con.map fun k => (x.groups.getD k []).getD g 0).sum)

/-- The suggestion that a frame yields (R109). -/
def State.suggestion (s : State) (p : Nat) (x : PlcRx) : Nat × Nat := suggest (x.groupDb (s.contributors p x) s.toneGroups)

/-- A bit set of phases. -/
def phaseBits (l : List Nat) : Nat := (l.map fun p => 2 ^ p).sum

/-- What a verdict delivers of the PSDU (Receive verdicts table). -/
def PlcRx.delivered (x : PlcRx) (v : Nat) : List Byte :=
  if v = 0x01 ∨ v = 0x03 then []
  else match x.lost with
    | some n => padTo x.len (x.psdu.take n)
    | none => padTo x.len x.psdu

/-- The 40 bytes of a receive descriptor (R107). Of a frame that is not decoded, verdicts 0x01, 0x03 and 0x04, SUG_MOD and SUG_TONEMAP are 0
(DESIGN CHOICE, log entry 117). -/
def State.rxDescriptor (s : State) (p v : Nat) (x : PlcRx) (ex : List Nat) (t : Stamp) : List Byte :=
  let allp := s.plcMode == 2
  let con := s.contributors p x
  let code := fun k => if decide (k ∈ x.detected) && (allp || k == p) then snrCode (halfDb (x.snrs.getD k 0)) else 0
  let gain := if allp then (con.map fun k => s.pgaStep k x).foldl max 0 else s.pgaStep p x
  let sg := if v = 0 ∨ v = 2 then s.suggestion p x else (0, 0)
  let cancel := s.cancels && natBit (s.get plcStatus_XTC_CONV) p
  let flags := ofBool (con.any x.impedance) + 2 * ofBool (con.any x.fullScale) + 4 * ofBool cancel
  t.bytes ++ be 1 v ++ be 1 (x.modc % 16) ++ be 1 (phaseBits con + 16 * phaseBits (if allp then ex else [])) ++ be 1 gain
    ++ be 1 (code 0) ++ be 1 (code 1) ++ be 1 (code 2) ++ be 1 (snrCode (x.combined con))
    ++ be 1 (s.blanked con x) ++ be 1 sg.1 ++ be 2 flags ++ be 3 sg.2 ++ be 1 0
    ++ be 2 (if v = 1 ∨ v = 3 then 0 else x.len) ++ be 2 0

end Sys2Proof.Machine
end

