-- ==== Sys2Proof/Machine/CellOps.lean ====
section
/-!
DEFINITION. The polled cell as shared operations (05_plc_cell_protocol.md): the slot grid and the chain rule, frames, links,
costs and routes, the end of an exchange.
-/
namespace Sys2Proof.Machine

/-- A cell: 0 to 2 PLC, 3 and 4 radio ports A and B. -/
def State.cell (s : State) (c : Nat) : Cell := smGet {} s.plc.cells c

/-- The state with a cell. -/
def State.setCell (s : State) (c : Nat) (x : Cell) : State :=
  { s with plc := { s.plc with cells := smPut {} s.plc.cells c x } }

/-- A joined endpoint by cell address. -/
def State.node (s : State) (c a : Nat) : Option Node := smGet none (s.cell c).nodes a

/-- The state with a joined endpoint. -/
def State.setNode (s : State) (c a : Nat) (n : Option Node) : State :=
  s.setCell c { s.cell c with nodes := smPut none (s.cell c).nodes a n }

/-- The joined endpoints of a cell with their addresses. -/
def Cell.members (x : Cell) : List (Nat × Node) := x.nodes.filterMap fun p => p.2.map fun n => (p.1, n)

/-- Cell numbers assigned to the cells (R8): the CELL fields. -/
def State.cellNo (s : State) (c : Nat) : Nat := if c < 3 then s.get (plcCellCfg_CELL c) else s.get (radCfg_CELL (c - 3))

/-- Whether mains are 60 Hz. -/
def State.is60 (s : State) : Bool := s.flag xingConfig_NOM60

/-! ### The grid -/

/-- T_HDR, T_SYM in µs and twice N_B of a code family (Sizing constants table). -/
def sizing (band code : Nat) : Nat × Nat × Nat :=
  if band = 0 then (15200, 695, [9, 36, 72, 108].getD (code / 2) 9) else (4900, 238, [18, 72, 144, 216].getD (code / 2) 18)

/-- Division rounded up. -/
def ceilDiv (a b : Nat) : Nat := (a + b - 1) / b

/-- Slots that a frame occupies (R130). -/
def slotsOf (band : Nat) (is60 : Bool) (len code : Nat) : Nat :=
  let k := sizing band (code % 8)
  let t := k.1 + ceilDiv (16 * (len + 16)) k.2.2 * k.2.1
  if is60 then ceilDiv (101 * 3 * (t + 1000)) (100 * 25000) else ceilDiv (101 * (t + 1000)) (100 * 10000)

/-- Slots of a frame on this chip. -/
def State.slots (s : State) (len code : Nat) : Nat := slotsOf (s.get plcConfig_BAND) s.is60 len code

/-- Whether a slot of a superframe lies in a class-0 window (R129). -/
def inC0 (c0 j : Nat) : Bool := decide (4 ≤ j % 8) && decide (j % 8 < 4 + c0)

/-- The first slot from k on from which n slots lie outside every class-0 window. -/
def echoStart (c0 n : Nat) : Nat → Nat → Nat
  | 0, k => k
  | fuel + 1, k => if (List.range n).all fun i => !inC0 c0 (k + i) then k else echoStart c0 n fuel (k + 1)

/-- The first slots of the beacon and the echo regions (R129). -/
def echoRegions (bcn c0 : Nat) : Nat → Nat → List Nat
  | 0, _ => []
  | d + 1, k => let r := echoStart c0 bcn 64 k; r :: echoRegions bcn c0 d (r + bcn)

/-- Whether a slot of the superframe is an exchange slot of a cell (R129). -/
def State.exchSlot (s : State) (c j : Nat) : Bool :=
  let bcn := s.get (plcCellLayout_BCN_SLOTS c)
  let c0 := s.get (plcCellLayout_C0_SLOTS c)
  let rs := 0 :: echoRegions bcn c0 (s.get (plcCellCfg_ECHO_DEPTH c)) bcn
  !inC0 c0 j && !(rs.any fun r => decide (r ≤ j) && decide (j < r + bcn))

/-- The first slot from k on at which a frame of n slots fits (R131). -/
def State.chain (s : State) (c n : Nat) : Nat → Nat → Nat
  | 0, k => k
  | fuel + 1, k => if (List.range n).all fun i => s.exchSlot c ((k + i) % 64) then k else State.chain s c n fuel (k + 1)

/-- A frame's place by the chain rule. -/
def State.place (s : State) (c n k : Nat) : Nat := s.chain c n 256 k

/-- Frames placed one after another: the start of each and the slot after the last. -/
def State.placeAll (s : State) (c : Nat) : List Nat → Nat → List Nat × Nat
  | [], k => ([], k)
  | n :: ns, k => let a := s.place c n k; let r := State.placeAll s c ns (a + n); (a :: r.1, r.2)

/-- The slot of the present crossing time, and the next one that begins. -/
def State.nowSlot (s : State) : Nat := s.xt / 32768 + 1

/-- The crossing time at which a slot begins (R128). -/
def slotXt (k : Nat) : Nat := k * 32768

/-! ### Links -/

/-- Key of a directed link. -/
def lkey (a b : Nat) : Nat := a * 65536 + b

/-- A direction of a link. -/
def Cell.link (x : Cell) (a b : Nat) : DirLink := smGet {} x.links (lkey a b)

/-- The penalty of a link (R151). -/
def Cell.pen (x : Cell) (a b : Nat) : Nat := smGet 0 x.pens (lkey (min a b) (max a b))

/-- The control modulation of a cell. -/
def State.c0mod (s : State) (c : Nat) : Nat := s.get (plcCellCfg_C0MOD c)

/-- The highest code a node supports (CAPS of its join request); the chip supports every code. -/
def State.topCode (s : State) (c a : Nat) : Nat :=
  match s.node c a with
  | some n => n.maxMod
  | none => 15

/-- The current code of a direction, within what both ends support; the control modulation before any suggestion came
(DESIGN CHOICE, log entry 25). -/
def State.code (s : State) (c a b : Nat) : Nat :=
  if ((s.cell c).link a b).known then min ((s.cell c).link a b).code (min (s.topCode c a) (s.topCode c b)) else s.c0mod c

/-- A suggestion for a direction (R150): lower takes effect at once, higher by one step after 4 in a row. -/
def DirLink.suggested (l : DirLink) (m tone : Nat) : DirLink :=
  if !l.known then { known := true, code := m, up := 0, tone := tone }
  else if m < l.code then { l with code := m, up := 0, tone := tone }
  else if l.code < m then
    (if 4 ≤ l.up + 1 then { l with code := l.code + 1, up := 0, tone := tone } else { l with up := l.up + 1, tone := tone })
  else { l with up := 0, tone := tone }

/-- The state after a suggestion for a direction. -/
def State.suggestLink (s : State) (c a b m tone : Nat) : State :=
  let x := s.cell c
  s.setCell c { x with links := smPut {} x.links (lkey a b) ((x.link a b).suggested m tone) }

/-- A failed hop goes one code more robust (R102, R144). -/
def State.lowerLink (s : State) (c a b : Nat) : State :=
  let x := s.cell c
  let l := x.link a b
  s.setCell c { x with links := smPut {} x.links (lkey a b) { l with known := true, code := s.code c a b - 1, up := 0 } }

/-- The cost of a link (R151): its slower current code and its penalty. -/
def State.linkCost (s : State) (c a b : Nat) : Nat :=
  16 * max (s.slots 104 (s.code c a b)) (s.slots 104 (s.code c b a)) + (s.cell c).pen a b

/-- Whether a link is known. -/
def Cell.knows (x : Cell) (a b : Nat) : Bool := (x.link a b).known || (x.link b a).known

/-- The links of a path from the chip over relays to an endpoint. -/
def hopsOf (route : List Nat) (a : Nat) : List (Nat × Nat) :=
  (List.zip (0 :: route) (route ++ [a]))

/-- The cost of a path. -/
def State.pathCost (s : State) (c : Nat) (route : List Nat) (a : Nat) : Nat :=
  ((hopsOf route a).map fun h => s.linkCost c h.1 h.2).sum

/-- The relays of a cell: joined endpoints that declared CAPS bit 0 (R152). -/
def Cell.relays (x : Cell) : List Nat := (x.members.filter fun p => p.2.relay).map (·.1)

/-- The relay lists of at most n relays. -/
def relayLists (rs : List Nat) : Nat → List (List Nat)
  | 0 => [[]]
  | n + 1 => [] :: (rs.flatMap fun r => ((relayLists rs n).filter fun l => decide (r ∉ l)).map fun l => r :: l)

/-- Whether a path uses known links only. -/
def Cell.pathKnown (x : Cell) (route : List Nat) (a : Nat) : Bool :=
  decide (a ∉ route) && (hopsOf route a).all fun h => x.knows h.1 h.2

/-- Whether a path is better than another (R152): cost, then hops, then the lower first relay. -/
def State.better (s : State) (c a : Nat) (p q : List Nat) : Bool :=
  let cp := s.pathCost c p a
  let cq := s.pathCost c q a
  decide (cp < cq) || (cp == cq && (decide (p.length < q.length) ||
    (p.length == q.length && decide (p.headD 0 < q.headD 0))))

/-- The path of lowest cost to an endpoint, among known links, other than one that is shut out. -/
def State.bestPath (s : State) (c a : Nat) (out : Option (List Nat)) : Option (List Nat) :=
  let x := s.cell c
  let ps := (relayLists x.relays (s.get (plcCellCfg_ECHO_DEPTH c))).filter fun p => x.pathKnown p a && some p != out
  match ps with
  | [] => none
  | p :: rest => some (rest.foldl (fun b q => if s.better c a q b then q else b) p)

/-! ### Frames -/

/-- The frame check sequence put behind a frame (R134). -/
def withFcs (b : List Byte) : List Byte := b ++ be 4 (crc32c b)

/-- Whether a received PSDU is a frame of this cell (R134). -/
def State.frameOk (s : State) (c : Nat) (b : List Byte) : Bool :=
  decide (12 ≤ b.length) && beAt b (b.length - 4) 4 == crc32c (b.take (b.length - 4)) && beAt b 0 1 % 4 == 1 &&
  beAt b 1 1 == s.cellNo c && decide (1 ≤ beAt b 0 1 / 16) && decide (beAt b 0 1 / 16 ≤ 9)

/-- TYPE of a frame. -/
def frType (b : List Byte) : Nat := beAt b 0 1 / 16
/-- ROUTED. -/
def frRouted (b : List Byte) : Bool := natBit (beAt b 0 1) 2
/-- DST. -/
def frDst (b : List Byte) : Nat := beAt b 2 2
/-- SRC. -/
def frSrc (b : List Byte) : Nat := beAt b 4 2
/-- FSEQ. -/
def frSeq (b : List Byte) : Nat := beAt b 6 2
/-- The body, without the check sequence. -/
def frBody (b : List Byte) : List Byte :=
  let h := if frRouted b then 24 else 8
  (b.drop h).take (b.length - h - 4)
/-- The node that sent a frame as it is heard (R135): of a routed one the far end of the hop that it travels upward, the near end of the hop
that it travels downward; else its source. -/
def frSender (b : List Byte) : Nat :=
  let path := beAt b 8 1
  let pos := path % 8
  let relay := fun (k : Nat) => if k = 0 then 0 else beAt b (8 + 2 * k) 2
  if !frRouted b then frSrc b
  else if natBit path 7 then (if path / 16 % 8 ≤ pos then frSrc b else relay pos)
  else relay (pos - 1)

/-- The common header (R134). -/
def State.header (s : State) (c typ dst fseq : Nat) (retry routed : Bool) : List Byte :=
  be 1 (typ * 16 + 8 * ofBool retry + 4 * ofBool routed + 1) ++ be 1 (s.cellNo c) ++ be 2 dst ++ be 2 0 ++ be 2 fseq

/-- MODS of a route (R135): a byte for each hop, downward code above, upward code below. -/
def State.modBytes (s : State) (c : Nat) (route : List Nat) (a : Nat) (ctl : Bool) : List Byte :=
  padTo 4 ((hopsOf route a).map fun h =>
    BitVec.ofNat 8 (if ctl then s.c0mod c * 17 else s.code c h.1 h.2 * 16 + s.code c h.2 h.1))

/-- The relay header of a frame sent by the chip (R135), its first transmission beginning at a slot. -/
def State.relayHeader (s : State) (c : Nat) (route : List Nat) (a slot : Nat) (ctl : Bool) : List Byte :=
  if route = [] then []
  else be 1 ((route.length + 1) * 16 + 1) ++ be 1 0 ++ padTo 6 (route.flatMap fun r => be 2 r)
    ++ s.modBytes c route a ctl ++ be 4 (slotXt slot)

/-- A frame of the chip: header, relay header, body, check sequence. -/
def State.frame (s : State) (c typ a fseq : Nat) (route : List Nat) (slot : Nat) (retry ctl : Bool) (body : List Byte) :
    List Byte :=
  withFcs (s.header c typ a fseq retry (route ≠ []) ++ s.relayHeader c route a slot ctl ++ body)

/-- The PLC transmit descriptor of a frame (R112). -/
def txDesc (modc tone len : Nat) : DWord := BitVec.ofNat 64 (modc * 2 ^ 60 + tone % 2 ^ 24 * 2 ^ 24 + len)

/-- The words of a frame's launch item (R63, R112): launch word, descriptor, PSDU. -/
def PlcFrame.words (f : PlcFrame) : List DWord := launchAt (slotXt f.slot) :: txDesc f.modc f.tone f.psdu.length :: dwords f.psdu

/-- Whether a frame may go into its launch queue now (DESIGN CHOICE, log entry 118): its slot begins within the present crossing or with
the next one, and no exchange still expects a frame of the chip before it, so that the queue holds frames in the order of their slots. -/
def State.mayRelease (s : State) (c : Nat) (f : PlcFrame) : Bool :=
  decide (f.slot ≤ s.nowSlot + 1) &&
  !((s.cell c).xch.any fun e => e.ack.isNone && decide (e.nextDown < f.slot) && decide (s.nowSlot ≤ e.nextDown))

/-- The frames whose time has come go into the launch queue (R63); no exchange is placed before the last of them any more (R131; DESIGN
CHOICE, log entry 118). -/
def State.releaseFrames (s : State) (c : Nat) : State :=
  let now := (s.cell c).ready.takeWhile (s.mayRelease c)
  let s1 := s.setCell c { s.cell c with ready := (s.cell c).ready.drop now.length
                                        nextSlot := now.foldl (fun n f => max n (f.slot + 1)) (s.cell c).nextSlot }
  match roleQ s.man.roles.plcLaunch c with
  | some q => now.foldl (fun (st : State) f => st.produce (.oarsman 3 0) q (st.wordItem f.flow f.words)) s1
  | none => s1

/-- A frame is given to the scheduler for a slot. -/
def State.queuePlc (s : State) (c slot modc tone flow : Nat) (psdu : List Byte) : State :=
  let f : PlcFrame := { slot := slot, modc := modc, tone := tone, flow := flow, psdu := psdu }
  (s.setCell c { s.cell c with ready := insertBy (fun a b => decide (a.slot < b.slot)) f (s.cell c).ready }).releaseFrames c

/-- The next frame sequence of the chip in a cell (R134). -/
def State.takeFseq (s : State) (c : Nat) : Nat × State :=
  ((s.cell c).fseq, s.setCell c { s.cell c with fseq := ((s.cell c).fseq + 1) % 65536 })

/-- The tone map of the hop touching the chip (R136): that of its link; every group where the hop is a broadcast. -/
def State.hopTone (s : State) (c : Nat) (route : List Nat) (a : Nat) : Nat :=
  let h := (route ++ [a]).headD 0
  if 0xFFFE ≤ h then 0 else ((s.cell c).link 0 h).tone

/-- The flow tag of a joined endpoint, 0 of any other (R26). -/
def State.nodeFlow (s : State) (c a : Nat) : Nat :=
  match s.node c a with
  | some n => s.epFlow n.slot
  | none => 0

/-- The key of a cell of a generation (R126): one the chip made itself, else the slot of the family. -/
def State.cellKeyOf (s : State) (c gen : Nat) : List Byte :=
  match smGet [] (s.cell c).keyOwn gen with
  | [] => (s.familyKey (smGet 0 s.man.cellKey c) gen (if c < 3 then 0 else 2)).getD []
  | k => k

/-- The cell key in force. -/
def State.cellKey (s : State) (c : Nat) : List Byte := s.cellKeyOf c (s.cell c).keyGen

/-- The endpoint limit of a cell (R5). -/
def State.cellLimit (s : State) (c : Nat) : Nat := if c < 3 then (if s.plcMode = 2 then 8192 else 4096) else 2048

/-- Whether the hub total is reached, as this chip sees it (R274, R275). -/
def State.totalReached (s : State) : Bool := s.hubFull || (s.underHub && decide (1048576 ≤ s.gwy.hubJoined))

/-- FREE of a cell (R138): what is left under R5, 0 at the hub total of R6. -/
def State.freeOf (s : State) (c : Nat) : Nat := if s.totalReached then 0 else s.cellLimit c - (s.cell c).members.length

/-- JOINED and FREE of a cell as its registers show them. -/
def State.showCell (s : State) (c : Nat) : State :=
  let n := (s.cell c).members.length
  let free := s.freeOf c
  if c < 3 then (s.setSat (plcCellCnt_JOINED c) n).setSat (plcCellCnt_FREE c) free
  else (s.setSat (radCnt_JOINED (c - 3)) n).setSat (radCnt_FREE (c - 3)) free

/-- Whether a snapshot crossing is announced and has not passed. -/
def State.snapNow (s : State) : Nat := if s.xing.num < s.plc.snapN then s.plc.snapN else 0

/-- The FLAGS byte of beacons and TIME messages (R137, R182). -/
def State.cellFlags (s : State) (c : Nat) (joins : Bool) : Nat :=
  ofBool s.coasting + 2 * ofBool (s.cell c).renum + 4 * ofBool (s.snapNow ≠ 0 && s.plc.snapLocal) + 8 * ofBool s.is60
    + 16 * ofBool joins

/-- A beacon for the superframe that begins at a crossing (R137, R138). -/
def State.beacon (s : State) (c x : Nat) : List Byte :=
  let cl := s.cell c
  let launch := (((x * 65536 : Nat) : Int) + s.txCompXt (s.cellRank c)).toNat
  let h := s.header c 1 0xFFFF cl.beaconSeq false false
  let b := be 8 launch ++ be 8 s.fingerprint ++ be 2 s.man.hubId ++ be 1 cl.keyGen
    ++ be 1 (s.c0mod c * 16 + s.get (plcCellCfg_ECHO_DEPTH c) * 4 + s.get (plcCellCfg_C0_REPEAT c)) ++ be 2 (s.freeOf c)
    ++ be 6 s.snapNow ++ be 1 (s.cellFlags c (s.flag (plcCellCfg_JOIN_OPEN c))) ++ be 1 0 ++ be 2 0
  withFcs (h ++ b ++ tagOf (s.cellKey c) (h.drop 1 ++ b) 8 "CBN1")

/-- The beacon of a superframe is queued at its slot 0 (R138). -/
def State.queueBeacon (s : State) (c x : Nat) : State :=
  let p := s.takeFseq c
  let s1 := (p.2.setCell c { p.2.cell c with beaconAt := some x, beaconSeq := p.1 }).showCell c
  s1.queuePlc c (2 * x) (s.c0mod c) 0 0 (s1.beacon c x)

/-- An item's words replaced where it waits in its queue. -/
def Item.rewrite (it : Item) (l : List DWord) : Item := { it with data := l.map fun w => { val := w } }

/-- The beacon of a superframe as it stands now, in place of the one that waits (R127, R161, R164; DESIGN CHOICE, log entry 118). -/
def State.refreshBeacon (s : State) (c x : Nat) : State :=
  if (s.cell c).beaconAt ≠ some x then s
  else
    let s0 := s.showCell c
    let f : PlcFrame := { slot := 2 * x, modc := s0.c0mod c, tone := 0, flow := 0, psdu := s0.beacon c x }
    let isMine := fun (b : List Byte) => frType b == 1 && frSeq b == (s0.cell c).beaconSeq
    let s1 := s0.setCell c { s0.cell c with ready := (s0.cell c).ready.map fun g => if isMine g.psdu then f else g }
    match roleQ s1.man.roles.plcLaunch c with
    | some q => s1.setQ q { s1.q q with items := (s1.q q).items.map fun it =>
        if !it.gone && !it.done && isMine it.psdu then it.rewrite f.words else it }
    | none => s1

/-- The beacon of the next superframe is built at the crossing before it, and as it stands at its own crossing (R138, R161, R164; DESIGN
CHOICE, log entry 118). -/
def State.beaconStep (s : State) (c : Nat) : State :=
  let x := (s.xing.num + 31) / 32 * 32
  if s.xing.num + 1 < x then s
  else
    let s1 := if (s.cell c).beaconAt = some x then s else s.queueBeacon c x
    if s.xing.num = x then s1.refreshBeacon c x else s1

/-! ### The end of an exchange -/

/-- A penalty after an exchange (R151). -/
def penAfter (p f l : Nat) : Nat := if f = 0 ∧ l = 0 then p - (p + 7) / 8 else min 255 (p + 32 * f + 16 * l)

/-- The penalties of the links an exchange used (R151). -/
def State.penalise (s : State) (c : Nat) (x : Exchange) : State :=
  ((hopsOf x.route x.addr).filter fun h => decide (h.2 < 0xFFFE)).foldl (fun st h =>
    let cl := st.cell c
    let f := (x.fails.filter fun k => k == h || k == (h.2, h.1)).length
    let l := if h.1 = 0 then x.limited else 0
    st.setCell c { cl with pens := smPut 0 cl.pens (lkey (min h.1 h.2) (max h.1 h.2)) (penAfter (cl.pen h.1 h.2) f l) }) s

/-- A node's place by its route. -/
def Node.placed (n : Node) (a : Nat) (route : List Nat) (isRelay : Bool) : Node :=
  let parent := route.getLastD 0
  let depth := route.length + 1
  let changed := n.parent != parent || n.depth != depth || n.role != isRelay
  { n with route := route, parent := parent, depth := depth, role := isRelay, branch := route.headD a
           routeDue := n.routeDue || changed }

/-- The route fields of a context (R265). -/
def State.ctxRoute (s : State) (c a : Nat) (n : Node) : State :=
  s.ctxPut n.slot 224 (padTo 6 (n.route.flatMap fun r => be 2 r) ++ s.modBytes c n.route a false
    ++ be 2 (min 65535 (s.pathCost c n.route a)) ++ be 2 n.parent ++ be 1 n.depth ++ be 1 (ofBool n.role))

/-- Relay roles follow the routes (R152): ROLE bit 0 exactly for relays on some route; a ROUTE_SET for each change. -/
def State.roles (s : State) (c : Nat) : State :=
  let ms := (s.cell c).members
  let used : List Nat := ms.flatMap fun p => p.2.route
  ms.foldl (fun st p =>
    match st.node c p.1 with
    | none => st
    | some n =>
      let n1 := n.placed p.1 n.route (decide (p.1 ∈ used))
      if n1.routeDue then
        let st1 := (st.setNode c p.1 (some { n1 with routeDue := false })).ctxRoute c p.1 n1
        let cl := st1.cell c
        st1.setCell c { cl with cmds := cl.cmds ++ [{ addr := p.1, routeSet := true }] }
      else st) s

/-- An endpoint takes a route (R152): a ROUTE_SET is due where its parent or depth changes; event 80 + 16c + 8. -/
def State.takeRoute (s : State) (c a : Nat) (n : Node) (p : List Nat) : State :=
  let m := { n.placed a p n.role with unreached := 0 }
  ((s.setNode c a (some m)).ctxRoute c a m).raise (80 + 16 * c + 8)

/-- A route is replaced by the best other path when that costs at most three quarters, or the route has left the endpoint unreached in 2
exchanges in a row (R152). -/
def State.reroute (s : State) (c a : Nat) : State :=
  match s.node c a with
  | none => s
  | some n => match s.bestPath c a (some n.route) with
    | none => s
    | some p =>
      if 4 * s.pathCost c p a ≤ 3 * s.pathCost c n.route a ∨ 2 ≤ n.unreached then (s.takeRoute c a n p).roles c else s

/-- Routes over a relay that has left the cell are replaced (R152); where no known path is left, by the direct one (DESIGN CHOICE, log
entry 118). -/
def State.routesWithout (s : State) (c r : Nat) : State :=
  let l := (s.cell c).members.filter fun p => decide (r ∈ p.2.route)
  (l.foldl (fun (st : State) p => st.takeRoute c p.1 p.2 ((st.bestPath c p.1 none).getD [])) s).roles c

/-- An exchange leaves the scheduler (R143, R151, R152): penalties, route, transaction entry. -/
def State.dropExchange (s : State) (c : Nat) (x : Exchange) : State :=
  let cl := s.cell c
  let s1 := s.setCell c { cl with xch := cl.xch.filter fun y => decide (y.fseq ≠ x.fseq) }
  let s2 := if c < 3 then (s1.penalise c x).reroute c x.addr else s1
  s2.txnRelease x.txn

/-- An exchange that reached its end (PLC_XCH_OK). -/
def State.endExchange (s : State) (c : Nat) (x : Exchange) : State :=
  let s1 := if c < 3 then s.wrapUp (plcXchOk_COUNT c) 1 else s
  let s2 := match s1.node c x.addr with
    | some n => s1.setNode c x.addr (some { n with unreached := 0 })
    | none => s1
  s2.dropExchange c x

/-- The exchange of a cell with an endpoint. -/
def Cell.exchangeOf (x : Cell) (a : Nat) : Option Exchange := x.xch.find? fun e => e.addr == a

/-- The state with a changed exchange. -/
def State.setExchange (s : State) (c : Nat) (e : Exchange) : State :=
  let cl := s.cell c
  s.setCell c { cl with xch := cl.xch.map fun y => if y.fseq = e.fseq then e else y }

/-- Commands waiting for an endpoint leave with it; its exchange ends. -/
def State.dropWork (s : State) (c a : Nat) : State :=
  let cl := s.cell c
  let s1 := s.setCell c { cl with cmds := cl.cmds.filter fun j => decide (j.addr ≠ a) }
  match (s1.cell c).exchangeOf a with
  | some e => s1.dropExchange c e
  | none => s1

/-- The context of an endpoint that leaves a cell gives the address of no cell any more (R125; DESIGN CHOICE, log entry 136). -/
def State.leaveAddr (s : State) (c a : Nat) : State :=
  match s.node c a with
  | some n => if s.epEui n.slot = n.eui ∧ s.epCell n.slot = s.cellNo c ∧ s.epAddr n.slot = a then s.ctxPut n.slot 16 (be 2 0xFFFE) else s
  | none => s

/-- An endpoint leaves a cell (R153, R184, R273); on a polled cell the routes over it are replaced (R152). -/
def State.dropNode (s : State) (c a : Nat) : State :=
  let s1 := ((((s.leaveAddr c a).dropWork c a)).setNode c a none).showCell c
  if c < 3 then s1.routesWithout c a else s1

/-- The identifier of an endpoint's branch (R9): the endpoint index of the first-hop relay or radio parent, its own at depth 1. -/
def State.branchIndex (s : State) (c : Nat) (n : Node) : Nat :=
  match s.node c n.branch with
  | some r => s.epIndex r.slot
  | none => s.epIndex n.slot

/-- The place in a queue of the frame of an FSEQ (R147). -/
def State.frameIdx (s : State) (q fseq : Nat) : Option Nat :=
  (List.range (s.q q).items.length).find? fun i =>
    let it := (s.q q).items.getD i {}
    !it.gone && !it.done && frSeq it.psdu == fseq

end Sys2Proof.Machine
end

