-- ==== Sys2Proof/Machine/RadOps.lean ====
section
/-!
DEFINITION. The radio ports as shared operations (06_radio.md): messages and frames, keys and frame counters, the pending
table, the wake model, the duty account.
-/
namespace Sys2Proof.Machine

/-- A radio port. -/
def State.port (s : State) (r : Nat) : RadPort := smGet {} s.rad.ports r

/-- The state with a radio port. -/
def State.setPort (s : State) (r : Nat) (x : RadPort) : State :=
  { s with rad := { s.rad with ports := smPut {} s.rad.ports r x } }

/-- The radio part of an endpoint by short address. -/
def State.rnode (s : State) (r a : Nat) : Option RNode := smGet none (s.port r).nodes a

/-- The state with the radio part of an endpoint. -/
def State.setRnode (s : State) (r a : Nat) (n : Option RNode) : State :=
  s.setPort r { s.port r with nodes := smPut none (s.port r).nodes a n }

/-- PHY code (R171). -/
def State.phy (s : State) (r : Nat) : Nat := s.get (radCfg_PHY r)

/-- Event k of port r (R199). -/
def radEvt (r k : Nat) : Nat := 128 + 16 * r + k

/-! ### The duty account -/

/-- Airtime in the window, in µs (R193). -/
def RadPort.usedUs (x : RadPort) : Nat := x.bins.sum

/-- BUDGET and RESERVE in force, in µs. -/
def RadPort.budgetUs (x : RadPort) : Nat := bitsOf x.budget 31 16 * 10000
/-- RESERVE. -/
def RadPort.reserveUs (x : RadPort) : Nat := bitsOf x.budget 15 0 * 10000

/-- Whether a frame may launch (R193). -/
def RadPort.mayLaunch (x : RadPort) (air : Nat) (ack : Bool) : Bool :=
  decide (x.budgetUs = 0) || decide (air + x.usedUs + (if ack then 0 else x.reserveUs) ≤ x.budgetUs)

/-- Airtime booked to the present bin; USED in 10 ms, rounded up. -/
def State.book (s : State) (r air : Nat) : State :=
  let x := s.port r
  let bins := match x.bins with
    | b :: rest => (b + air) :: rest
    | [] => [air]
  let s1 := s.setPort r { x with bins := bins }
  s1.setSat (radDutyUsed_USED r) (ceilDiv (bins.sum) 10000)

/-- Whether a frame's airtime exceeds MAX_DWELL (R195). -/
def RadPort.tooLong (x : RadPort) (air : Nat) : Bool := decide (bitsOf x.dwell 15 0 ≠ 0) && decide (bitsOf x.dwell 15 0 * 1000 < air)

/-! ### Messages -/

/-- A radio message of a type without a sleepy header (R182). -/
def radMsg (typ : Nat) (body : List Byte) : List Byte := be 1 typ ++ be 1 0 ++ body

/-- A message to an endpoint: inside RELAY to its router at depth 2 (R183). -/
def State.radWrap (s : State) (r a : Nat) (msg : List Byte) : Nat × List Byte :=
  match s.rnode r a, s.node (3 + r) a with
  | some x, some n => if x.parent = 0 then (a, msg) else (x.parent, radMsg 7 (be 8 n.eui ++ msg))
  | _, _ => (a, msg)

/-- The second word of a radio or Gangway launch item: destination, kind of frame (0 data, 1 MAC command, 2 beacon,
3 association response), length (DESIGN CHOICE, log entry 26). -/
def radDescK (dst kind len : Nat) : DWord := BitVec.ofNat 64 (dst * 2 ^ 48 + kind * 2 ^ 40 + len)

/-- The second word of a data frame's item. -/
def radDesc (dst len : Nat) : DWord := radDescK dst 0 len

/-- Destination of a radio launch item. -/
def Item.radDst (it : Item) : Nat := it.word 1 / 2 ^ 48
/-- Kind of frame of a radio launch item. -/
def Item.radKind (it : Item) : Nat := it.word 1 / 2 ^ 40 % 16
/-- Message of a radio launch item. -/
def Item.radMsg (it : Item) : List Byte := padTo (it.word 1 % 65536) (it.bytesFrom 2)

/-- Whether an endpoint of a port sleeps: enrolled as sleepy, or known by its sleepy header. -/
def State.isSleepy (s : State) (r a : Nat) : Bool :=
  (match s.rnode r a with
   | some x => x.sleepy.isSome
   | none => false) ||
  match s.node (3 + r) a with
  | some n => natBit (s.epFlags n.slot) 3
  | none => false

/-- Bytes queued as a frame of a kind: a sleepy endpoint's into the indirect launch queue (R185), others into the launch
queue. -/
def State.queueRadK (s : State) (r dst kind flow : Nat) (launch : DWord) (m : List Byte) : State :=
  match roleQ (if s.isSleepy r dst then s.man.roles.radIndirect else s.man.roles.radLaunch) r with
  | some q => s.produce (.oarsman (4 + r) 0) q (s.wordItem flow (launch :: radDescK dst kind m.length :: dwords m))
  | none => s

/-- A message queued (R185, R188), inside RELAY where its endpoint is at depth 2. -/
def State.queueRad (s : State) (r a flow : Nat) (launch : DWord) (msg : List Byte) : State :=
  let w := s.radWrap r a msg
  s.queueRadK r w.1 0 flow launch w.2

/-- A MAC command to an endpoint, inside RELAY to its router at depth 2 (R183; its place there is a DESIGN CHOICE, log entry 119). -/
def State.queueMac (s : State) (r a flow : Nat) (m : List Byte) : State :=
  let w := s.radWrap r a m
  s.queueRadK r w.1 (if w.1 = a then 1 else 0) flow 0 w.2

/-- The endpoint that a message to a radio address is for: inside RELAY the one with its EUI-64. -/
def State.radFinal (s : State) (r dst : Nat) (msg : List Byte) : Nat :=
  if beAt msg 0 1 = 7 then
    (((s.cell (3 + r)).members.find? fun p => p.2.eui == beAt msg 2 8).map (·.1)).getD dst
  else dst

/-- The TIME body (R182): LAUNCH at a crossing time, PTP of the same instant. -/
def State.timeBody (s : State) (r launch ptp : Nat) : List Byte :=
  be 8 launch ++ be 6 (ptp / nsPerSec) ++ be 4 (ptp % nsPerSec) ++ be 2 (s.get xingUtcOfs_OFFSET)
    ++ be 4 (65536 * nsPerSec / s.period) ++ be 8 s.fingerprint ++ be 2 s.man.hubId ++ be 6 s.snapNow
    ++ be 1 (s.cell (3 + r)).keyGen ++ be 1 (s.cellFlags (3 + r) (s.flag (radCfg_ASSOC_OPEN r)))

/-- The words of a TIME broadcast for a superframe boundary (R197). -/
def State.timeWords (s : State) (r x : Nat) : List DWord :=
  let m := radMsg 6 (s.timeBody r (x * 65536) (s.clk.ptp + (x - s.xing.num) * s.period))
  launchAt (x * 65536) :: radDesc 0xFFFF m.length :: dwords m

/-- The TIME broadcast of a superframe as it stands now, in place of the one that waits (R164, R197; DESIGN CHOICE, log entry 118). -/
def State.refreshTime (s : State) (r x : Nat) : State :=
  match roleQ s.man.roles.radLaunch r with
  | none => s
  | some q => s.setQ q { s.q q with items := (s.q q).items.map fun it =>
      if !it.gone && !it.done && it.word 0 == (launchAt (x * 65536)).toNat && it.radDst == 0xFFFF
        then { it with data := (s.timeWords r x).map fun w => { val := w } } else it }

/-- The TIME broadcast of a port's due superframe is queued at the crossing before its boundary, and stands as of that boundary (R197;
DESIGN CHOICE, log entry 118). -/
def State.timeStep (s : State) (r : Nat) : State :=
  let c := 3 + r
  let x := (s.xing.num + 31) / 32 * 32
  let due := decide (x ≤ s.xing.num + 1) && x / 32 % 2 ^ s.get (radCfg_TIME_PER r) == 0
  match roleQ s.man.roles.radLaunch r with
  | none => s
  | some q =>
    if !due then s
    else if (s.cell c).beaconAt = some x then s.refreshTime r x
    else
      let s1 := s.setCell c { s.cell c with beaconAt := some x }
      s1.produce (.oarsman (4 + r) 0) q (s1.wordItem 0 (s1.timeWords r x))

/-! ### Frames and counters -/

/-- A number in little-endian bytes, as the 802.15.4 headers carry them. -/
def le (n v : Nat) : List Byte := (be n v).reverse

/-- The MAC header of a secured frame of the chip (R172): frame type, PAN compression, short addresses, frame version 0b01. -/
def State.macHeader (s : State) (r typ dst seq : Nat) (ackReq : Bool) : List Byte :=
  le 2 (typ + 8 + 32 * ofBool ackReq + 64 + 2 * 1024 + 1 * 4096 + 2 * 16384) ++ le 1 seq ++ le 2 (s.get (radPan_PANID r))
    ++ le 2 dst ++ le 2 0

/-- The cell key's frame counters as stored (R178). -/
def tabFcnt : Nat := 4

/-- The next outgoing counter of a link key (R178): every 1,024 increments the counter is stored. -/
def State.nextLinkCount (s : State) (slot : Nat) : Nat × State :=
  let n := s.ctxAt slot 212 4 + 1
  let s1 := { s with live := { s.live with ctx := putBytes s.live.ctx (slot * 1024 + 212) (be 4 n) } }
  (n, if n % 1024 = 0 then s1.ctxPut slot 212 (be 4 n) else s1)

/-- Random bytes. -/
def State.randomBytes : Nat → State → List Byte × State
  | 0, s => ([], s)
  | n + 1, s => let a := s.random 8; let r := State.randomBytes n a.2; (BitVec.ofNat 8 a.1 :: r.1, r.2)

/-- A change of the cell key begins (R127, R177): a KEY message or command type 0x10 to every joined endpoint. -/
def State.startKeyChange (s : State) (c gen : Nat) (key : List Byte) : State :=
  let cl := s.cell c
  let jobs := cl.members.map fun p => ({ addr := p.1, typ := 0x10 } : CmdJob)
  s.setCell c { cl with keyNew := some (gen, key), keySince := none, cmds := cl.cmds ++ jobs
                        nodes := cl.nodes.map fun p => (p.1, p.2.map fun n => { n with keyAcked := false }) }

/-- The next outgoing counter of a port's cell key (R178); from 0xFFFF_FF00 on the generation changes. -/
def State.nextCellCount (s : State) (r : Nat) : Nat × State :=
  let n := (s.port r).cellFcnt + 1
  let s1 := s.setPort r { s.port r with cellFcnt := n }
  let s2 := if n % 1024 = 0 then s1.journalUpd [.record tabFcnt r [n]] else s1
  if 0xFFFFFF00 ≤ n ∧ (s2.cell (3 + r)).keyNew.isNone then
    let k := s2.randomBytes 16
    (n, k.2.startKeyChange (3 + r) (((s2.cell (3 + r)).keyGen + 1) % 256) k.1)
  else (n, s2)

/-- The CCM* nonce: source extended address, frame counter, security level 6. -/
def State.ccmNonce (eui fcnt : Nat) : List Byte := be 8 eui ++ be 4 fcnt ++ be 1 6

/-- The key and counter kept of a refused endpoint until it is out of the cell (R275). -/
def State.setAway (s : State) (r a : Nat) (k : Option (List Byte × Nat)) : State :=
  match s.rnode r a with
  | some n => s.setRnode r a (some { n with away := k })
  | none => s

/-- The secured frame of a message (R177): link key for unicast, cell key for broadcast. None where the key's counter is exhausted. -/
def State.secure (s : State) (r typ dst : Nat) (msg : List Byte) (ackReq : Bool) : Option (List Byte) × State :=
  let h := s.macHeader r typ dst (s.port r).seq ackReq
  let s0 := s.setPort r { s.port r with seq := ((s.port r).seq + 1) % 256 }
  if dst = 0xFFFF then
    if 0xFFFFFFFF ≤ (s0.port r).cellFcnt then (none, s0)
    else
    let g := (s0.cell (3 + r)).keyGen
    let k := s0.cellKey (3 + r)
    let c := s0.nextCellCount r
    let hdr := h ++ le 1 (6 + 8) ++ le 4 c.1 ++ le 1 g
    (some (hdr ++ ccmSeal k (State.ccmNonce c.2.fuses.eui c.1) hdr msg), c.2)
  else match s0.node (3 + r) dst, (s0.rnode r dst).bind (·.away) with
    | none, _ => (none, s0)
    | some n, some (ek, f) =>
      let hdr := h ++ le 1 6 ++ le 4 (f + 1)
      (some (hdr ++ ccmSeal (linkKeyOf ek n.eui) (State.ccmNonce s0.fuses.eui (f + 1)) hdr msg),
        s0.setAway r dst (some (ek, f + 1)))
    | some n, none =>
      if 0xFFFFFFFF ≤ s0.ctxAt n.slot 212 4 then (none, s0.raise (radEvt r 6))
      else match s0.endpointKey n.slot with
        | none => (none, s0)
        | some ek =>
          let c := s0.nextLinkCount n.slot
          let hdr := h ++ le 1 6 ++ le 4 c.1
          (some (hdr ++ ccmSeal (linkKeyOf ek n.eui) (State.ccmNonce c.2.fuses.eui c.1) hdr msg), c.2)

/-- A beacon (R172, R182, R184): beacon and superframe order 15, the association permit, a 14-byte payload. -/
def State.radBeacon (s : State) (r : Nat) : List Byte :=
  let permit := ofBool (s.flag (radCfg_ASSOC_OPEN r) && decide (s.freeOf (3 + r) ≠ 0))
  le 2 (4096 * 1 + 2 * 16384) ++ le 1 (s.port r).seq ++ le 2 (s.get (radPan_PANID r)) ++ le 2 0
    ++ le 2 (0x4FFF + 32768 * permit) ++ le 1 0 ++ le 1 0
    ++ be 8 s.fingerprint ++ be 2 s.man.hubId ++ be 2 (s.freeOf (3 + r)) ++ be 1 (s.cell (3 + r)).keyGen
    ++ be 1 (s.cellFlags (3 + r) (s.flag (radCfg_ASSOC_OPEN r)))

/-- An association response to an extended address: short address and status (R172, R184). -/
def State.assocResponse (s : State) (r eui addr status : Nat) : List Byte :=
  le 2 (3 + 32 + 64 + 3 * 1024 + 1 * 4096 + 3 * 16384) ++ le 1 (s.port r).seq ++ le 2 (s.get (radPan_PANID r)) ++ le 8 eui
    ++ le 8 s.fuses.eui ++ le 1 2 ++ le 2 addr ++ le 1 status

/-- A TIME message with LAUNCH and PTP time of its SFD inserted, each with XING_TXCOMP (R61, R182). In a broadcast LAUNCH is the crossing
nearest to the SFD, FRACTION 0, and the PTP time is that of the same crossing (DEDUCED, log entry 119). -/
def State.stampTime (s : State) (r dst : Nat) (m : List Byte) : List Byte :=
  if beAt m 0 1 = 6 then
    let t := s.txStamp (5 + r) false false
    let l := if dst = 0xFFFF then (t.xt + 32768) / 65536 * 65536 else t.xt
    let p := shiftNs t.ptp (((l : Int) - (t.xt : Int)) * (s.period : Int) / 65536)
    patch m 2 (be 8 l ++ be 6 (p / nsPerSec) ++ be 4 (p % nsPerSec))
  else m

/-- A wait of a radio frame that has no item in a launch queue for the duty budget (R194): the kind, 0 a TIME, 1 an association response,
2 a NONE, and the address. -/
def State.waitsFor (s : State) (r : Nat) (m : Nat × Nat) : Bool := decide (m ∈ (s.port r).marks)

/-- The frame of a launch item (R177, R182): none where it cannot be secured. -/
def State.radFrame (s : State) (r : Nat) (it : Item) : Option (List Byte) × State :=
  if it.radKind = 2 then (some (s.radBeacon r), s.setPort r { s.port r with seq := ((s.port r).seq + 1) % 256 })
  else s.secure r (if it.radKind = 1 then 3 else 1) it.radDst
    (if it.radKind = 1 then it.radMsg else s.stampTime r it.radDst it.radMsg) (it.radDst ≠ 0xFFFF)

/-- The transceiver is switched to transmit 50 µs before the first sample (R174). -/
def State.radOn (s : State) (r : Nat) : State := (s.emit (.pin (.txrx r) .high)).emit (.pin (.paen r) .high)

/-- The transceiver is switched back 10 µs after the last sample, or at once at a power warning (R174, R196). -/
def State.radOff (s : State) (r : Nat) : State := (s.emit (.pin (.paen r) .low)).emit (.pin (.txrx r) .low)

/-- A frame is given to the MAC with what leads it (R172, R191, R193): its first transmission is booked, the job is under way. -/
def State.radStart (s : State) (r : Nat) (j : RadJob) (lead : List Output) (bytes : List Byte) : State :=
  let s1 := s.book r j.air
  s1.setPort r { s1.port r with job := some { j with lead := lead, bytes := bytes } }

/-- One transmission of a port's frame: the transceiver switched to transmit, what leads the frame, the frame, the transceiver switched back
(R174, R191). -/
def State.radSend (s : State) (r : Nat) (j : RadJob) : State :=
  ((j.lead ++ [Output.radioFrame r j.bytes]).foldl State.emit (s.radOn r)).radOff r

/-- The transmissions that the MAC made of a frame, on record when it is over (R172; DESIGN CHOICE, log entry 119). -/
def State.radSends (s : State) (r : Nat) (j : RadJob) : Nat → State
  | 0 => s
  | n + 1 => (State.radSends s r j n).radSend r j

/-- The port has no frame any more. -/
def State.radDone (s : State) (r : Nat) : State := s.setPort r { s.port r with job := none }

/-- A completion of a radio launch item: a stamp record, the status and three zero bytes, as on PLC, with the item's flow tag (R26). -/
def State.radCompletion (s : State) (r flow : Nat) (t : Stamp) (status : Nat) : State :=
  match roleQ s.man.roles.completion (3 + r) with
  | some q => s.produce .launchUnit q (mkItem flow (s.stamp 8) (t.bytes ++ be 1 status ++ be 3 0))
  | none => s

/-! ### The pending table -/

/-- The place, among the indirect queue's items, of the first waiting item for an address. -/
def State.indirectIdx (s : State) (r a : Nat) : Option (Nat × Nat) :=
  match roleQ s.man.roles.radIndirect r with
  | none => none
  | some q => ((List.range (s.q q).items.length).find? fun i =>
      let it := (s.q q).items.getD i {}
      !it.gone && !it.done && it.radDst == a).map fun i => (q, i)

/-- The pending bit of a short address (R185). -/
def State.pendingBit (s : State) (r a : Nat) : Bool :=
  decide (1 ≤ a) && decide (a ≤ 0x800) && ((s.indirectIdx r a).isSome || decide (a ∈ (s.port r).force))

/-- The pending bit of a source address: short, or extended with an association response waiting (R185). -/
def State.pendingFor (s : State) (r : Nat) : RadAddr → Bool
  | .short a => s.pendingBit r a
  | .ext e => (s.port r).ext.any fun p => p.1 == e
  | .absent => false

/-- An item of a queue that its endpoint has acknowledged leaves it (R187): its words are freed; leading spent items go. -/
def State.spend (s : State) (q i : Nat) : State :=
  s.touchQ q fun s =>
    let x := s.q q
    let items := x.items.set i { x.items.getD i {} with gone := true, done := true, data := [] }
    let k := (items.takeWhile fun it => it.gone).length
    let m := (x.mark + k) % 2 ^ 32
    let behind := decide ((x.head + 2 ^ 32 - x.mark) % 2 ^ 32 < k)
    s.setQ q { x with items := items.drop k, mark := m, head := if behind then m else x.head
                      front := if behind then m else x.front }

/-! ### The wake model -/

/-- The resynchronisation of a sleepy endpoint by a frame (R189): wake code, poll code, NEXT_WAKE in µs. -/
def State.resync (s : State) (r : Nat) (old : Option Sleepy) (t wake poll nextWake : Nat) : Sleepy × Nat :=
  let w := 2 ^ wake * 15625
  let rep := t + nextWake * 1000
  let dmin := s.get (radSlCfg_DRIFT_MIN r)
  match old with
  | none => ({ next := rep, wake := w, poll := poll, drift := dmin, sync := t }, dmin)
  | some m =>
    let wn := max 1 (m.wake * 1000)
    let off := ((rep : Int) - (m.next : Int)) % (wn : Int)
    let e := ceilDiv (min off.toNat (wn - off.toNat)) 1000
    let dt := max 1 ((t - m.sync) / nsPerSec)
    let d := max dmin ((3 * m.drift + ceilDiv e dt) / 4)
    ({ next := rep, wake := w, poll := poll, drift := d, sync := t }, d)

/-- A planned cover transmission to an endpoint is removed. -/
def State.dropCover (s : State) (r a : Nat) : State :=
  match (s.port r).cover with
  | some c => if c.addr = a then (s.setPort r { s.port r with cover := none }).txnRelease c.txn else s
  | none => s

/-- A frame of a sleepy endpoint without the sleepy header, an acknowledgement: it ends the attempts and restarts the elapsed time, the
predicted instants stand (R189, R192; DESIGN CHOICE, log entry 119). -/
def State.ackSync (s : State) (r a : Nat) : State :=
  match s.rnode r a with
  | some n => s.setRnode r a (some { n with sleepy := n.sleepy.map fun m => { m with sync := (s.rxStamp (5 + r)).ptp, tries := 0 } })
  | none => s

/-- A frame from a sleepy endpoint (R189): its model restarts; event 12 above 1,000 ppm; covers and misses end. -/
def State.sleepySync (s : State) (r a : Nat) (t : Stamp) (msg : List Byte) : State :=
  match s.rnode r a with
  | none => s
  | some n =>
    if natBit (beAt msg 1 1) 0 then
      let wk := beAt msg 2 1
      let m := s.resync r n.sleepy t.ptp (wk % 16) (wk / 16) (beAt msg 3 4)
      let s1 := s.setRnode r a (some { n with sleepy := some m.1 })
      (s1.dropCover r a).raiseIf (decide (1000 < m.2)) (radEvt r 12)
    else s

/-- Endpoints that leave a radio cell lose their radio part too. -/
def State.radDrop (s : State) (r a : Nat) : State :=
  (s.setRnode r a none).setPort r { (s.setRnode r a none).port r with force := dropMem (s.port r).force a }

/-- An endpoint leaves a cell of either medium (R153, R184, R273). -/
def State.leaveNow (s : State) (c a : Nat) : State :=
  if 3 ≤ c then (s.dropNode c a).radDrop (c - 3) a else s.dropNode c a

/-- An endpoint is sent out of its cell: ROUTE_SET DEPTH 0xFF, or a disassociation notification (R153, R184, R273). -/
def State.sendAway (s : State) (c a : Nat) : State :=
  match s.node c a with
  | none => s
  | some n =>
    let s1 := (s.dropWork c a).setNode c a (some { n with leaving := true })
    let j : CmdJob := { addr := a, routeSet := true, leave := true }
    s1.setCell c { s1.cell c with cmds := (s1.cell c).cmds ++ [j] }

/-- The message body behind the header, sleepy fields or not (R182). -/
def radBody (msg : List Byte) : List Byte := msg.drop (if natBit (beAt msg 1 1) 0 then 7 else 2)

/-- Ns between predicted data requests, one at every 2^p-th wake (R182). -/
def Sleepy.reqEvery (m : Sleepy) : Nat := max 1 (2 ^ m.poll * m.wake * 1000)

/-- The first predicted data request: at the 2^p-th sample instant of the model (R190). -/
def Sleepy.firstReq (m : Sleepy) : Nat := m.next + (m.reqEvery - m.wake * 1000)

/-- Predicted data requests that passed unseen. -/
def Sleepy.missedReqs (m : Sleepy) (now : Nat) : Nat :=
  if now ≤ m.firstReq then 0 else (now - m.firstReq - 1) / m.reqEvery + 1

/-- The first predicted sample instant at or after an instant. -/
def Sleepy.predicted (m : Sleepy) (t : Nat) : Nat :=
  if t ≤ m.next then m.next else m.next + ceilDiv (t - m.next) (max 1 (m.wake * 1000)) * (m.wake * 1000)

/-- The Cover procedure (R190): start in ns, length in µs, whole interval. The guard, doubled for each cover that failed (R192), and the
least drift are those of this planning (R200). -/
def State.coverOf (s : State) (r : Nat) (m : Sleepy) : Nat × Nat × Bool :=
  let now := s.clk.ptp
  let pred := m.predicted (now + 2000000)
  let u := s.get (radSlCfg_GUARD r) * 2 ^ m.tries + max m.drift (s.get (radSlCfg_DRIFT_MIN r)) * ((now - m.sync) / nsPerSec)
  let smp := max 1 (s.get (radSlCfg_SAMPLE r)) * 100
  if m.wake < 2 * u then (now, m.wake + smp, true) else (pred - u * 1000, 2 * u + smp, false)

/-- The airtime in µs of a unit of a cover: a WAKE frame, a preamble octet (R191). -/
def unitUs (phy : Nat) : Nat := if phy = 0 then 608 else if phy = 1 then 160 else 40

/-- Units of a cover: preamble octets, or WAKE frames, one every 800 µs (R191). -/
def coverUnits (phy len : Nat) : Nat := if phy = 0 then ceilDiv len 800 else ceilDiv len (unitUs phy)

/-- A WAKE frame (R182, R191): unsecured, without a sequence number or a source, 13 bytes with its check sequence (DESIGN CHOICE, log
entry 119). -/
def wakeFrame (pan a rz : Nat) : List Byte :=
  le 2 (1 + 256 + 2 * 1024 + 2 * 4096) ++ le 2 pan ++ le 2 a ++ radMsg 0x0B (be 3 rz)

/-- Ns from the start of a cover of n units to the data frame's first sample behind its preamble or train (R175, R191). -/
def coverLeadNs (phy n : Nat) : Nat := (if phy = 0 then n * 800 else n * unitUs phy) * 1000

/-- What leads the data frame of a cover of n units (R191): its preamble, or the train of WAKE frames, each with RZ pointing at the data
frame's SFD; beyond 24 bits RZ is a free value. -/
def State.coverLead (s : State) (r a n : Nat) : List Output × State :=
  if s.phy r ≠ 0 then ([Output.radioPreamble r n], s)
  else
    let rz := fun (k : Nat) =>
      if (n - k) * 800 < 2 ^ 24 then (n - k) * 800 else (Config.freeValue (s.free + k)).toNat % 2 ^ 24
    ((List.range n).map fun k => Output.radioFrame r (wakeFrame (s.get (radPan_PANID r)) a (rz k)), { s with free := s.free + n })

/-- The relays of the route that a context holds (R265). -/
def State.ctxRelays (s : State) (i : Nat) : List Nat := ((List.range 3).map fun k => s.ctxAt i (224 + 2 * k) 2).filter fun a => decide (a ≠ 0)

/-- A joined endpoint as its context gives it (R125, R265): its route on a polled cell, its parent on a radio port. A context does not hold
CAPS: a relay is one that is a relay, and every modulation counts as supported (DESIGN CHOICE, log entry 136). -/
def State.ctxNode (s : State) (c i : Nat) : Node :=
  let rel := natBit (s.ctxAt i 239 1) 0
  let parent := s.ctxAt i 236 2
  let route := if c < 3 then s.ctxRelays i else []
  { slot := i, eui := s.epEui i, relay := rel && decide (c < 3), maxMod := 15, parent := parent, depth := s.ctxAt i 238 1
    role := rel && decide (c < 3), branch := if c < 3 then route.headD (s.epAddr i) else if parent = 0 then s.epAddr i else parent
    route := route, probed := s.ptpSec }

/-- An endpoint whose context names a cell is joined there again after a start (R125, R176, R267). -/
def State.rebuildNode (s : State) (c i : Nat) : State :=
  let s1 := s.setNode c (s.epAddr i) (some (s.ctxNode c i))
  if c < 3 then s1
  else s1.setRnode (c - 3) (s.epAddr i) (some { parent := s.ctxAt i 236 2, router := natBit (s.ctxAt i 239 1) 0, answered := true })

/-- The contexts of endpoints that stand in a cell by its number and have no place in its table. -/
def State.rebuildSlots (s : State) (c : Nat) : List Nat :=
  s.ctxSlots.filter fun i => (s.epState i == 1 || s.epState i == 2) && s.epCell i == s.cellNo c && decide (1 ≤ s.epAddr i) &&
    decide (s.epAddr i ≤ s.cellLimit c) && s.node c (s.epAddr i) == none

/-- The cells' tables from the contexts (R125, R267): at the end of the table rebuild, and when a hub has numbered the cells. -/
def State.rebuildCells (s : State) (cells : List Nat) : State :=
  cells.foldl (fun (st : State) c => ((st.rebuildSlots c).foldl (fun (st : State) i => st.rebuildNode c i) st).showCell c) s

/-- The cells' settings that the Manifest gives hold from start-up on (R170, R200); the registers show the cells (R138). -/
def State.loadCells (s : State) : State :=
  let s1 := [0, 1].foldl (fun (st : State) r =>
    st.setPort r { st.port r with budget := st.reg (radDutyBudget r), dwell := st.reg (radDutyCfg r) }) s
  let s2 := [0, 1, 2].foldl (fun (st : State) c => st.setCell c { st.cell c with cfg := st.reg (plcCellCfg c) }) s1
  [0, 1, 2, 3, 4].foldl State.showCell s2

end Sys2Proof.Machine
end

