-- ==== Sys2Proof/Machine/GwyOps.lean ====
section
/-!
DEFINITION. The Gangway as shared operations (07_ethernet_gangway.md): peers and keys, messages, sequences in serial-number
arithmetic, acknowledgement; and the dedup window that the validation pipeline shares with it (R248).
-/
namespace Sys2Proof.Machine

/-! ### Windows -/

/-- dedup_check (R248). -/
def dedupCheck (seq top win : Nat) : Nat :=
  if seq = 0 then 0x30
  else if top < seq then 0x00
  else if 64 ≤ top - seq then 0x30
  else if natBit win (top - seq) then 0x01
  else 0x00

/-- dedup_mark (R248): the new top and bitmap. -/
def dedupMark (seq top win : Nat) : Nat × Nat :=
  if top < seq then
    (seq, ((if 64 ≤ seq - top then 0 else (win <<< (seq - top)) % 2 ^ 64) ||| 1))
  else (top, win ||| (1 <<< (top - seq)) % 2 ^ 64)

/-- The serial-number difference a − b (R222). -/
def serialSub (a b : Nat) : Nat := (a + 2 ^ 32 - b % 2 ^ 32) % 2 ^ 32

/-- Whether a is above b in serial-number arithmetic (R222). -/
def serialAbove (a b : Nat) : Bool := decide (1 ≤ serialSub a b) && decide (serialSub a b ≤ 2 ^ 31 - 1)

/-! ### Peers -/

/-- A Gangway peer by sender number: 0 the hub, 0xFFFF the head end. -/
def State.peer (s : State) (p : Nat) : Peer := smGet {} s.gwy.peers p

/-- The state with a peer. -/
def State.setPeer (s : State) (p : Nat) (x : Peer) : State :=
  { s with gwy := { s.gwy with peers := smPut {} s.gwy.peers p x } }


/-- The enrolment of a chip by EUI-64. -/
def State.chipEnrol (s : State) (eui : Nat) : Option ChipEnrol := s.man.chips.find? fun c => c.eui == eui

/-- The first slot of the key family of a peer (R216). -/
def State.peerFamily (s : State) (p : Nat) : Nat :=
  if p = 0xFFFF then s.man.headKey
  else if p = 0 then s.man.linkKey
  else match s.chipEnrol (s.peer p).eui with
    | some c => c.linkKey
    | none => 1024

/-- The newest generation of a key family (DESIGN CHOICE, log entry 37): the highest valid GEN. -/
def State.newestGen (s : State) (first : Nat) : Nat :=
  ((List.range ((s.slot first).span + 1)).map fun k =>
    if (s.slot (first + k)).valid then (s.slot (first + k)).gen else 0).foldl max 0

/-- The generation of the key that tags messages to a peer (R215): that of its attachment; toward the head end, which attaches nothing,
the newest of its family (DESIGN CHOICE, log entry 37). -/
def State.genFor (s : State) (p : Nat) : Nat := if p = 0xFFFF then s.newestGen s.man.headKey else (s.peer p).keygen

/-- The key of a peer's generation (R216, R481). -/
def State.peerKey (s : State) (p gen : Nat) : Option (List Byte) := s.familyKey (s.peerFamily p) gen 0

/-- The sender number of this chip. -/
def State.ownChip (s : State) : Nat := if s.isHub then 0 else s.gwy.chip

/-- The peer that evidence and reports go to: the hub, or the head end without one. -/
def State.upPeer (s : State) : Nat := if s.underHub then 0 else 0xFFFF

/-! ### Messages -/

/-- A Gangway message (R215): header, body, tag. FLAGS bit 1 is left out of the tag. -/
def State.gwyBytes (s : State) (p typ flags seq : Nat) (body : List Byte) : List Byte :=
  let x := s.peer p
  let h := be 2 s.man.hubId ++ be 2 s.ownChip ++ be 4 seq ++ be 4 x.ack ++ be 8 x.map ++ be 2 body.length ++ be 2 0
  let g := s.genFor p
  let tag := tagOf ((s.peerKey p g).getD []) (be 1 (flags &&& 0xFD) ++ be 1 g ++ h ++ body) 16 "GWY1"
  be 1 1 ++ be 1 typ ++ be 1 flags ++ be 1 g ++ h ++ body ++ tag

/-- Whether a message to a peer can be tagged (R216): a key stands. Without one nothing is sent, and reliable messages wait (DESIGN
CHOICE, log entry 86). -/
def State.gwyKeyed (s : State) (p : Nat) : Bool := (s.peerKey p (s.genFor p)).isSome

/-- Whether reliable messages may go to a peer now (R218, R224): it is up; the head end is always reached. -/
def State.gwyOpen (s : State) (p : Nat) : Bool := ((s.peer p).up || p == 0xFFFF) && s.gwyKeyed p

/-- The launch queue of the Gangway toward a peer: the first of the role for all (DESIGN CHOICE, log entry 27). -/
def State.gwyQueue (s : State) : Option Nat := roleQ s.man.roles.gwyLaunch 0

/-- The flow tag of a message (R26): that of the endpoint that a COMMAND or REGISTER concerns, else 0. -/
def State.gwyFlow (s : State) (b : List Byte) : Nat :=
  if beAt b 1 1 = 8 ∨ beAt b 1 1 = 9 then s.euiFlow (beAt b 28 8) else 0

/-- A message queued for a peer with a launch word. -/
def State.gwyPut (s : State) (p : Nat) (launch : DWord) (bytes : List Byte) : State :=
  match s.gwyQueue with
  | some q => s.produce (.oarsman 6 0) q (s.wordItem (s.gwyFlow bytes) (launch :: radDesc p bytes.length :: dwords bytes))
  | none => s

/-- An unreliable message (R221). -/
def State.gwyUnreliable (s : State) (p typ : Nat) (launch : DWord) (body : List Byte) : State :=
  if !s.gwyKeyed p then s
  else
    let x := s.peer p
    let s1 := s.setPeer p { x with unrelNext := (x.unrelNext + 1) % 2 ^ 32 }
    s1.gwyPut p launch (s1.gwyBytes p typ 0 x.unrelNext body)

/-- A reliable message takes the next SEQ and goes out (R221). -/
def State.gwySend (s : State) (p typ : Nat) (body : List Byte) (batch : Option Nat) : State :=
  let x := s.peer p
  let s1 := s.setPeer p { x with relNext := (x.relNext + 1) % 2 ^ 32
                                 out := x.out ++ [{ seq := x.relNext, typ := typ, body := body, batch := batch }] }
  s1.gwyPut p 0 (s1.gwyBytes p typ 1 x.relNext body)

/-- Reliable messages that wait go out, in order, while the peer is up and fewer than 64 are unacknowledged (R224). -/
def State.gwyDrain : Nat → State → Nat → State
  | 0, s, _ => s
  | fuel + 1, s, p =>
    let x := s.peer p
    match x.waiting with
    | [] => s
    | (tb, body) :: rest =>
      if decide (64 ≤ x.out.length) || !s.gwyOpen p then s
      else
        let b := if tb / 256 = 0 then none else some (tb / 256 - 1)
        State.gwyDrain fuel ((s.setPeer p { x with waiting := rest }).gwySend p (tb % 256) body b) p

/-- A reliable message goes out behind those that wait, or waits with them (R224): nothing is dropped. -/
def State.gwyReliable (s : State) (p typ : Nat) (body : List Byte) (batch : Option Nat) : State :=
  let x := s.peer p
  let w := typ + 256 * (match batch with | some b => b + 1 | none => 0)
  State.gwyDrain 64 (s.setPeer p { x with waiting := x.waiting ++ [(w, body)] }) p

/-- An ACK message toward a peer (R221, R223). -/
def State.gwyAck (s : State) (p : Nat) : State :=
  (s.setPeer p { s.peer p with ackDue := false }).gwyUnreliable p 6 0 []

/-- A message with the acknowledgement fields that stand has left for a peer: it carried the acknowledgement (R223). -/
def State.ackCarried (s : State) (p : Nat) (b : List Byte) : State :=
  if beAt b 12 4 = (s.peer p).ack ∧ beAt b 16 8 = (s.peer p).map then s.setPeer p { s.peer p with ackDue := false } else s

/-- The body of a received message. -/
def gwyBody (b : List Byte) : List Byte := slice b 28 (beAt b 24 2)

/-- The check of R215 under a key: version, hub, length, tag; none when it passes, else whether the tag failed. -/
def State.gwyCheck (s : State) (b : List Byte) (key : Option (List Byte)) (anyHub : Bool) : Option Bool :=
  let len := beAt b 24 2
  if beAt b 0 1 ≠ 1 ∨ (beAt b 4 2 ≠ s.man.hubId ∧ ¬ anyHub) ∨ b.length ≠ 44 + len then some false
  else
    let input := be 1 (beAt b 2 1 &&& 0xFD) ++ slice b 3 (25 + len)
    match key with
    | none => some true
    | some k => if tagOf k input 16 "GWY1" = b.drop (28 + len) then none else some true

/-- A discarded message is counted (R215); a tag failure raises event 171 too. -/
def State.gwyDiscard (s : State) (p : Nat) (tag : Bool) : State :=
  if tag then (s.setPeer p { s.peer p with tagFail := satAdd (s.peer p).tagFail 1 255 }).raise 171
  else { s with gwy := { s.gwy with discards := s.gwy.discards + 1 } }

/-- What the acknowledgement fields of a message release (R224): every message up to ACK; those in ACKMAP are not sent
again; the timer returns to 200 ms when ACK advances. The batches of released messages come back. -/
def Peer.release (x : Peer) (ack map : Nat) : Peer × List Nat :=
  let gone := x.out.filter fun m => !serialAbove m.seq ack
  let kept := (x.out.filter fun m => serialAbove m.seq ack).map fun m =>
    { m with mapped := m.mapped || (decide (serialSub m.seq ack ≤ 64) && natBit map (serialSub m.seq ack - 1))
             timer := if gone = [] then m.timer else 200 }
  ({ x with out := kept }, gone.filterMap (·.batch))

/-- The receive side of a reliable SEQ (R221): 0 accepted, 1 already accepted, 2 too far above. -/
def Peer.judge (x : Peer) (seq : Nat) : Nat :=
  let d := serialSub seq x.ack
  if 1 ≤ d ∧ d ≤ 64 then (if natBit x.map (d - 1) then 1 else 0)
  else if serialAbove seq x.ack then 2 else 1

/-- ACK moves past every SEQ accepted without a gap; ACKMAP shifts with it. -/
def advanceAck : Nat → Nat → Nat → Nat × Nat
  | 0, a, m => (a, m)
  | fuel + 1, a, m => if natBit m 0 then advanceAck fuel ((a + 1) % 2 ^ 32) (m / 2) else (a, m)

/-- A reliable SEQ is accepted. -/
def Peer.accept (x : Peer) (seq : Nat) : Peer :=
  let m := x.map ||| 2 ^ (serialSub seq x.ack - 1)
  let r := advanceAck 64 x.ack m
  { x with ack := r.1, map := r.2 % 2 ^ 64, ackDue := true }

/-- A valid message of a peer arrives (R218, R221): the peer is heard; a reliable one is accepted once. The flag tells
whether it is to be processed. -/
def State.gwyArrive (s : State) (p : Nat) (b : List Byte) : Bool × State :=
  let x := s.peer p
  let seq := beAt b 8 4
  let s1 := s.setPeer p { x with heard := s.clk.mono }
  if natBit (beAt b 2 1) 0 then
    match x.judge seq with
    | 0 => (true, s1.setPeer p ((s1.peer p).accept seq))
    | 1 =>
      let s2 := (s1.setPeer p { s1.peer p with dup := satAdd (s1.peer p).dup 1 255 }).raise 173
      (false, s2.gwyAck p)
    | _ => (false, s1)
  else
    let ok := match x.unrelLast with
      | none => true
      | some l => serialAbove seq l
    (ok, if ok then s1.setPeer p { s1.peer p with unrelLast := some seq } else s1)

/-- A peer comes up or goes down (R218). -/
def State.gwyUp (s : State) (p : Nat) : State :=
  if (s.peer p).up then s else (s.setPeer p { s.peer p with up := true, heard := s.clk.mono }).raise 170

end Sys2Proof.Machine
end

