-- ==== Sys2Proof/Machine/ValOps.lean ====
section
/-!
DEFINITION. The validation pipeline as shared operations (08_reading_validation.md): acknowledgements, evidence batches,
the stages, verdicts, the validation commit group.
-/
namespace Sys2Proof.Machine

/-! ### Acknowledgements -/

/-- The ACK body (R137). -/
def ackBody (seq status verdict : Nat) : List Byte := be 4 seq ++ be 1 status ++ be 1 verdict ++ be 2 0

/-- The place of the chip's own site record among the cells (R286): no cell, nobody to acknowledge to. -/
def siteCell : Nat := 5

/-- The context of the chip's own EUI-64, where it is registered (R286). -/
def State.siteCtx (s : State) : Option Nat :=
  s.ctxSlots.find? fun i => s.epState i == 1 && s.epEui i == s.fuses.eui

/-- The cell number that a record carries: its cell's; a site record's is the first cell's (R286). -/
def State.recCell (s : State) (c : Nat) : Nat := s.cellNo (if c = siteCell then s.plcCells.headD 0 else c)

/-- An acknowledgement to the endpoint at an address of a cell (R143, R253): on PLC in its planned slot, or not at all when
that has passed; on radio as an ACK message. -/
def State.sendAck (s : State) (c a seq status verdict : Nat) : State :=
  if c = siteCell then s
  else if c < 3 then
    match (s.cell c).exchangeOf a with
    | none => s
    | some e =>
      if e.acking ∧ e.ack = none ∧ s.nowSlot ≤ e.nextDown then
        let p := s.takeFseq c
        let hop := (e.route ++ [a]).headD a
        (p.2.setExchange c { e with ack := some p.1 }).queuePlc c e.nextDown (s.code c 0 hop) (s.hopTone c e.route a) (s.nodeFlow c a)
          (s.frame c 4 a p.1 e.route e.nextDown false false (ackBody seq status verdict))
      else s
  else s.queueRad (c - 3) a (s.nodeFlow c a) 0 (radMsg 4 (ackBody seq status verdict))

/-- The turn of a radio endpoint: its data requests and records so far (R253). -/
def State.turnOf (s : State) (c a : Nat) : Nat :=
  (((s.node c a).map (·.polled)).getD 0 + ((s.rnode (c - 3) a).map (·.asked)).getD 0) % 65536

/-- Whether the data frame planned for a record's acknowledgement has passed (R253): a later turn of its radio endpoint has begun (log
entry 23). -/
def State.ackLate (s : State) (v : VRec) : Bool := decide (3 ≤ v.cell) && v.cell != siteCell && v.turn != s.turnOf v.cell v.addr

/-! ### Evidence batches -/

/-- Tables of the batches in the stored content: the open batch, closed ones, signed ones by BSEQ. -/
def tabBatch : Nat := 5
/-- Closed batches that wait for their signature. -/
def tabClosed : Nat := 6
/-- Signed batches. -/
def tabSigned : Nat := 7

/-- A batch as a stored record: count, FLAGS, closing ns, opening stamp, entries. -/
def Batch.row (b : Batch) : List Nat := [b.count, b.flags, b.closeNs] ++ nums b.openStamp.bytes ++ nums b.entries

/-- A batch read back from its stored record. -/
def Batch.ofRow (r : List Nat) : Batch :=
  { count := r.getD 0 0, flags := r.getD 1 0, closeNs := r.getD 2 0
    openStamp := Stamp.ofBytes (((r.drop 3).take 20).map fun n => BitVec.ofNat 8 n)
    entries := (r.drop 23).map fun n => BitVec.ofNat 8 n }

/-- Entries a batch may hold (VAL_BATCH_CFG.MAX_ENTRIES). -/
def State.maxEntries (s : State) : Nat :=
  let n := s.get valBatchCfg_MAX_ENTRIES
  if n = 0 ∨ 4096 < n then 4096 else n

/-- OPEN of VAL_BATCH_STAT. -/
def State.showBatch (s : State) : State :=
  (s.set valBatchStat_OPEN s.val.batch.count).setSat valBatchStat_UNACKED s.val.signed.length

/-- The idle timer of the batch queue starts anew with an entry, and stops with the batch (R256, R397; DEDUCED, log entry 23): entries
wait in the open batch, not as items of the queue. -/
def State.batchIdle (s : State) (run : Bool) : State :=
  match s.man.roles.batch with
  | 0 => s
  | k + 1 => if s.get (whfQTmo_TIMEOUT k) = 0 then s else s.touchQ k fun s => s.setQ k { s.q k with idleRun := run }

/-- Whether more batches wait unacknowledged than the Manifest allows: event 207 once an episode (R258). -/
def State.noteLimit (s : State) : State :=
  if s.val.signed.length ≤ s.man.batchLimit then { s with val := { s.val with limitSeen := false } }
  else if s.val.limitSeen then s
  else State.raise { s with val := { s.val with limitSeen := true } } 207

/-- The open batch closes (R256): FLAGS, closing time, event 204. An empty batch does not close. -/
def State.closeBatch (s : State) (flags : Nat) : State :=
  if s.val.batch.count = 0 then s
  else
    let trust := 8 * ofBool (s.get trfClockTrust_STATE != 0)
    let b := { s.val.batch with flags := flags + trust, closeNs := s.clk.ptp }
    let s1 := s.journalUpd [.record tabClosed (s.cmt.next) b.row, .record tabBatch 0 []]
    ((State.showBatch { s1 with val := { s1.val with batch := {}, closed := s1.val.closed ++ [b] } }).batchIdle false).raise 204

/-- An entry takes its place in the open batch (R255, R256): one that would pass 1 MiB closes the batch first; the last
entry it may hold closes it. -/
def State.appendEntry (s : State) (e : List Byte) : State :=
  let s0 := if 1048576 < 64 + s.val.batch.entries.length + e.length then s.closeBatch 0 else s
  let b := s0.val.batch
  let b1 := { b with entries := b.entries ++ e, count := b.count + 1
                     openStamp := if b.count = 0 then s0.stamp 8 else b.openStamp }
  let s1 := (State.showBatch { s0 with val := { s0.val with batch := b1 } }).batchIdle true
  if s1.maxEntries ≤ b1.count then s1.closeBatch 0 else s1

/-- The evidence entry of a record (R255). -/
def State.evidence (s : State) (v : VRec) (verdict : Nat) : List Byte :=
  let ok := decide (verdict < 0x10)
  let kind := (if v.lsr then 3 else 1) + ofBool (!ok)
  let ph := match v.slot with
    | some i => s.ctxAt i 15 1 &&& 0x83
    | none => 3
  let idx := match v.slot with
    | some i => if verdict = 0x13 then 0xFFFFFFFF else s.epIndex i
    | none => 0xFFFFFFFF
  let pad := (4 - v.bytes.length % 4) % 4
  be 1 kind ++ be 1 verdict ++ be 1 (s.recCell v.cell) ++ be 1 ph ++ be 4 idx ++ be 4 (v.stamp.ptp / nsPerSec)
    ++ be 4 (v.stamp.ptp % nsPerSec) ++ v.bytes ++ List.replicate pad 0

/-! ### Places -/

/-- The state with a validation buffer's record. -/
def State.setRec (s : State) (n : Nat) (v : Option VRec) : State :=
  { s with val := { s.val with recs := smPut none s.val.recs n v } }

/-- A record in a validation buffer. -/
def State.vrec (s : State) (n : Nat) : Option VRec := smGet none s.val.recs n

/-- Places held: records and reassemblies (R239, R241). -/
def State.placesHeld (s : State) : Nat := s.val.recs.length + s.val.reasm.length

/-- All places are held: event 200 at each filling (R252, R263). -/
def State.noteFull (s : State) : State :=
  if 512 ≤ s.placesHeld ∧ ¬ s.val.fullSeen then State.raise { s with val := { s.val with fullSeen := true } } 200 else s

/-- A free place. -/
def State.freePlace (s : State) : Option Nat :=
  if 512 ≤ s.placesHeld then none else (List.range 512).find? fun n => s.vrec n == none

/-- Fields of a record: sequence, crossing number, registers, EUI-64. -/
def VRec.seq (v : VRec) : Nat := if v.lsr then beAt v.bytes 12 4 else beAt v.bytes 10 4
/-- The crossing number (R244): END_XING of a session record. -/
def VRec.xing (v : VRec) : Nat := if v.lsr then beAt v.bytes 50 6 else beAt v.bytes 14 6
/-- EUI-64. -/
def VRec.eui (v : VRec) : Nat := if v.lsr then beAt v.bytes 4 8 else beAt v.bytes 2 8
/-- The four registers of a CRR. -/
def VRec.regs (v : VRec) : List Nat := (List.range 4).map fun i => beAt v.bytes (20 + 6 * i) 6
/-- BLEN of a session record. -/
def VRec.blen (v : VRec) : Nat := beAt v.bytes 2 2

/-! ### The stages -/

/-- Stage 1 (R240, R231): format, then the endpoint at the sender's address. -/
def State.stageParse (s : State) (v : VRec) : Nat × Option Nat :=
  if v.poison then (0x60, none)
  else if !v.lsr && decide (v.bytes.length ≠ 64) then (0x10, none)
  else if v.lsr && decide (v.bytes.length ≠ 32 + v.blen + 2820 ∨ v.blen < 48 ∨ 448 < v.blen) then (0x10, none)
  else if beAt v.bytes 0 1 / 16 ≠ 1 then (0x11, none)
  else if !v.lsr && beAt v.bytes 0 1 % 16 != 1 && beAt v.bytes 0 1 % 16 != 2 then (0x12, none)
  else if v.lsr && beAt v.bytes 0 1 % 16 != 8 then (0x12, none)
  else if v.cell = siteCell then
    match s.siteCtx with
    | none => (0x13, none)
    | some i => if v.eui ≠ s.fuses.eui ∨ s.epBarred i then (0x13, some i) else (0, some i)
  else match s.node v.cell v.addr with
    | none => (0x13, none)
    | some n =>
      if n.eui ≠ v.eui ∨ s.epBarred n.slot ∨ s.epState n.slot ≠ 1 then (0x13, some n.slot) else (0, some n.slot)

/-- Stage 2 (R234, R236, R266). -/
def State.stageAuth (s : State) (v : VRec) (slot : Nat) : Nat :=
  if v.lsr then
    let body := v.bytes.take (32 + v.blen)
    if natBit (s.epFlags slot) 1 = false ∨ s.ctxAt slot 208 1 ≠ beAt v.bytes 16 1 then 0x24
    else if xmssVerify (s.ctxBytes slot 144 64) body (v.bytes.drop (32 + v.blen)) then 0 else 0x22
  else match s.endpointKey slot with
    | none => 0x21
    | some k => if tagOf k (v.bytes.take 48) 16 "CRR1" = v.bytes.drop 48 then 0 else 0x20

/-- The snapshot crossing nearest a number (R245). -/
def nearestSnap (ns : List Nat) (n : Nat) : Nat :=
  ns.foldl (fun (b x : Nat) => if ((x : Int) - (n : Int)).natAbs < ((b : Int) - (n : Int)).natAbs then x else b) (ns.headD 0)

/-- The snapshot check of a KIND 0x2 record (R245): the mark. -/
def State.snapMark (s : State) (v : VRec) : Nat :=
  let ns := s.plc.snaps.map (·.1)
  if v.lsr ∨ beAt v.bytes 0 1 % 16 ≠ 2 ∨ v.xing ∈ ns then 0
  else if natBit (beAt v.bytes 1 1) 2 && decide (ns ≠ []) &&
      decide (((v.xing : Int) - nearestSnap ns v.xing).natAbs ≤ s.get valFresh_SELF_TOL) then 0x03
  else 0x02

/-- The window of an endpoint that a record is tested against: top and bitmap (R248). -/
def State.window (s : State) (slot : Nat) (lsr : Bool) : Nat × Nat :=
  if lsr then (s.ctxAt slot 128 4, s.ctxAt slot 136 8) else (s.ctxAt slot 72 4, s.ctxAt slot 80 8)

/-- Stage 3 (R244): sequence and crossing number against the window and the present. -/
def State.stageFresh (s : State) (v : VRec) (slot : Nat) : Nat :=
  let top := (s.window slot v.lsr).1
  if v.seq = 0 ∨ (v.seq < top ∧ 64 ≤ top - v.seq) then 0x30
  else if s.xing.num + s.get valFresh_AHEAD < v.xing then 0x31
  else if v.xing + 65536 * max 1 (s.get valFresh_AGE) < s.xing.num then 0x32
  else 0

/-- The energy that rated power delivers over crossings, by the margin (R246); the product is a u64, which wraps. -/
def State.advanceLimit (s : State) (slot dn : Nat) : Nat :=
  s.ctxAt slot 20 4 * dn * max 100 (s.get valPlaus_MARGIN) % 2 ^ 64 / ((if s.is60 then 60 else 50) * 360000) + 1

/-- Stage 4 for a CRR: the Plausibility procedure (R246). -/
def State.plausible (s : State) (v : VRec) (slot : Nat) : Nat :=
  let top := s.ctxAt slot 72 4
  let nTop := s.ctxAt slot 66 6
  let rTop := (List.range 4).map fun i => s.ctxAt slot (88 + 6 * i) 6
  let rs := List.zip v.regs rTop
  if top = 0 then 0
  else if v.seq = top then (if v.xing ≠ nTop ∨ v.regs ≠ rTop then 0x43 else 0)
  else if top < v.seq then
    if v.xing < nTop then 0x42
    else
      let lim := s.advanceLimit slot (v.xing - nTop)
      match rs.find? fun p => decide (p.1 < p.2) || decide (lim < p.1 - p.2) with
      | some p => if p.1 < p.2 then 0x40 else 0x41
      | none => 0
  else if nTop < v.xing then 0x42
  else if rs.any fun p => decide (p.2 < p.1) then 0x40 else 0

/-- SSEQ and END_XING of an endpoint's top session record, where one is stored for the window's top (R247; DESIGN CHOICE, log entry
123: they stand beside the context, which has no field for the crossing number). -/
def State.sessTop (s : State) (slot : Nat) : Option (Nat × Nat) :=
  let top := s.ctxAt slot 128 4
  if top ≠ 0 ∧ s.live.rowN tabSessTop slot 0 = top then some (top, s.live.rowN tabSessTop slot 1) else none

/-- R246's tests of the sequence with the registers left out, for a session record (R247). -/
def State.sseqPlausible (s : State) (v : VRec) (slot : Nat) : Nat :=
  match s.sessTop slot with
  | none => 0
  | some (top, x) =>
    if v.seq = top then (if v.xing = x then 0 else 0x43)
    else if top < v.seq then (if v.xing < x then 0x42 else 0)
    else if x < v.xing then 0x42 else 0

/-- Stage 4 for a session record (R247): the record itself, then its sequence (DESIGN CHOICE, log entry 123). -/
def State.lsrPlausible (s : State) (v : VRec) (slot : Nat) : Nat :=
  let sw := beAt v.bytes 32 6
  let ew := beAt v.bytes 38 6
  let sx := beAt v.bytes 44 6
  let nint := beAt v.bytes 68 1
  let sum := ((List.range nint).map fun i => beAt v.bytes (80 + 6 * i) 6).sum
  if ew < sw ∨ v.xing < sx ∨ s.advanceLimit slot (v.xing - sx) < ew - sw ∨ (0 < nint ∧ sum ≠ ew - sw) then 0x44
  else s.sseqPlausible v slot

/-- Stage 5 (R248, R250): the dedup window; the XMSS index of a new session record above the top. -/
def State.stageDedup (s : State) (v : VRec) (slot : Nat) : Nat :=
  let w := s.window slot v.lsr
  let d := dedupCheck v.seq w.1 w.2
  let idx := beAt v.bytes (32 + v.blen) 4
  let hi := s.ctxAt slot 132 4
  if d ≠ 0 then d
  else if v.lsr ∧ w.1 < v.seq ∧ hi ≠ 0xFFFFFFFF ∧ idx ≤ hi then 0x23
  else 0

/-- Stages 3 to 5 for a record; a cell-batch entry enters at stage 5 (R260). -/
def State.stageMid (s : State) (v : VRec) (slot : Nat) : Nat :=
  if v.fromBatch.isSome then s.stageDedup v slot
  else
    let f := s.stageFresh v slot
    if f ≠ 0 then f
    else
      let p := if v.lsr then s.lsrPlausible v slot else s.plausible v slot
      if p ≠ 0 then p else s.stageDedup v slot

/-! ### Verdicts -/

/-- The class event of a verdict (R263). -/
def verdictEvent (v : Nat) : Option Nat :=
  if v = 0x20 ∨ v = 0x21 then some 193
  else if v = 0x22 ∨ v = 0x24 then some 194
  else if v = 0x23 then some 195
  else if 0x40 ≤ v ∧ v ≤ 0x44 then some 196
  else if 0x30 ≤ v ∧ v ≤ 0x32 then some 197
  else if v = 0x60 then some 199
  else none

/-- A verdict is counted, with event 192 from 0x10 upward and its class event (R242). -/
def State.countVerdict (s : State) (v : Nat) : State :=
  let s1 := { s with val := { s.val with vcnt := smPut 0 s.val.vcnt v ((smGet 0 s.val.vcnt v + 1) % 2 ^ 32) } }
  let s2 := s1.raiseIf (decide (0x10 ≤ v)) 192
  match verdictEvent v with
  | some e => s2.raise e
  | none => s2

/-- A record leaves its place; the flow it held is free (R241, R243). -/
def State.leavePlace (s : State) (n : Nat) : State :=
  let s1 := (s.setRec n none).dropFlows (.record n)
  { s1 with val := { s1.val with fullSeen := false } }

/-- Verdicts whose record enters a batch although rejected (Verdicts table). -/
def hasEvidence (v : Nat) : Bool := decide (0x13 ≤ v) && decide (v ≠ 0x60)

/-! ### The validation commit group -/

/-- The group in force, opened when none is (R251, R252): event 203 once for each episode in which none can be opened. -/
def State.valGroup (s : State) : Option (Nat × State) :=
  match s.val.group with
  | some g => some (g, s)
  | none =>
    match s.openGroup 7 false with
    | (0x00, g, s1) => some (g, { s1 with val := { s1.val with group := some g, members := [], staged := 0, groupSeen := false
                                                               groupWait := max 1 (s1.get valCfg_GROUP_WAIT), groupAt := s.clk.mono } })
    | _ => none

/-- The wait for a group is seen (R252). -/
def State.noteNoGroup (s : State) : State :=
  if s.val.groupSeen then s else State.raise { s with val := { s.val with groupSeen := true } } 203

/-- The actions of a list staged in order; false at the first refusal. -/
def State.stageAll (s : State) (g : Nat) (acts : List Action) : State × Bool :=
  acts.foldl (fun r a => if r.2 then let q := r.1.stage g 7 a; (q.2, q.1 == 0) else r) (s, true)

/-- The context write-back of an accepted record (R251): window, top record, receive time, highest XMSS index. -/
def State.writeBack (s : State) (v : VRec) (slot : Nat) : Action :=
  let w := s.window slot v.lsr
  let m := dedupMark v.seq w.1 w.2
  let sec := be 4 (v.stamp.ptp / nsPerSec)
  if v.lsr then
    let i := beAt v.bytes (32 + v.blen) 4
    let hi := s.ctxAt slot 132 4
    let idx := if hi = 0xFFFFFFFF then i else max hi i
    let d := sec ++ s.ctxBytes slot 116 12 ++ be 4 m.1 ++ be 4 idx ++ be 8 m.2
    { kind := 3, len := d.length, target := slot, arg := 112, data := d }
  else
    let newTop := decide (w.1 < v.seq)
    let nTop := if newTop then v.xing else s.ctxAt slot 66 6
    let regs := if newTop then v.regs.flatMap (be 6) else s.ctxBytes slot 88 24
    let d := be 6 nTop ++ be 4 m.1 ++ be 4 0 ++ be 8 m.2 ++ regs ++ sec
    { kind := 3, len := d.length, target := slot, arg := 66, data := d }

/-- The record as the balance engine and the sealed domain take it (DESIGN CHOICE, log entry 23): slot, index, verdict, cell,
receive stamp, then the record without its signature. -/
def State.forwarded (s : State) (v : VRec) (slot verdict : Nat) : List Byte :=
  let r := if v.lsr then v.bytes.take (32 + v.blen) else v.bytes
  let b := be 4 slot ++ be 4 (s.epIndex slot) ++ be 1 verdict
    ++ be 1 (if v.fromBatch.isSome then v.cell else s.recCell v.cell) ++ be 2 0 ++ v.stamp.bytes ++ r
  padTo ((b.length + 7) / 8 * 8) b

/-- An enqueue action of a group. -/
def enqueueAct (q flow : Nat) (d : List Byte) : Action := { kind := 4, len := d.length, target := q, arg := flow, data := d }

/-- The evidence append of a group (R251 action 2). -/
def State.batchAct (s : State) (e : List Byte) : Action :=
  { kind := 6, len := e.length, target := s.man.batchRegion, data := e }

/-- The four actions of an accepted record (R251), three for a cell-batch entry, which the hub's sealed domain does not
bill (R260). -/
def State.acceptActs (s : State) (v : VRec) (slot verdict : Nat) : List Action :=
  let d := s.forwarded v slot verdict
  let fl := s.epFlow slot
  let q := fun (n : Nat) => if n = 0 then [] else [enqueueAct (n - 1) fl d]
  [s.writeBack v slot] ++ (if v.fromBatch.isSome then [] else [s.batchAct (s.evidence v verdict)])
    ++ q s.man.roles.balanceIn ++ (if v.fromBatch.isSome then [] else q s.man.roles.sealedIn)

/-- The batch entries of a group take effect with it (R251, R255). -/
def State.applyPend (s : State) : State :=
  let s1 := s.val.pend.foldl State.appendEntry s
  { s1 with val := { s1.val with pend := [] } }

/-! ### Phase identification -/

/-- circ of the Phase decision (R158). -/
def circ (a b : Nat) : Nat := let d := (max a b) - (min a b); min d (65536 - d)

/-- phase_of of the Phase decision (R158). -/
def phaseOf (phi o2 o3 : Nat) (snr : List Nat) (mode : Nat) : Nat :=
  let d0 := circ phi 0
  let d1 := circ phi o2
  let d2 := circ phi o3
  let best := if d0 ≤ d1 ∧ d0 ≤ d2 then 0 else if d1 ≤ d2 then 1 else 2
  let dmin := min d0 (min d1 d2)
  let q := if snr.getD 1 0 ≤ snr.getD 0 0 ∧ snr.getD 2 0 ≤ snr.getD 0 0 then 0
           else if snr.getD 2 0 ≤ snr.getD 1 0 then 1 else 2
  if 5461 < dmin then 3
  else if mode ≠ 2 then best
  else if q ≠ best ∧ snr.getD best 0 + 12 ≤ snr.getD q 0 then 3
  else best

/-- The phase byte after a result (R158, R265): candidate and run, the adopted phase at the fourth equal result, the
cross-phase flag in independent-phase mode. Whether it is adopted anew, and whether it is undecided for the fourth time. -/
def phaseByte (old res cell mode : Nat) : Nat × Bool × Bool :=
  let run := if res = old / 4 % 4 ∧ 0 < old / 16 % 8 then min 4 (old / 16 % 8 + 1) else 1
  let fresh := run = 4 ∧ old / 16 % 8 < 4
  let adopted := if run = 4 then res else old % 4
  let cross := if mode = 1 then ofBool (decide (adopted < 3) && decide (adopted ≠ cell)) else 0
  (adopted + 4 * res + 16 * run + 128 * cross, decide (adopted ≠ old % 4), decide (fresh ∧ res = 3))

/-- Phase identification on an accepted CRR of a PLC cell (R158): what its group writes into the context (R267). -/
def State.phaseDecide (s : State) (v : VRec) (slot : Nat) : Option (Nat × Bool × Bool) :=
  if v.lsr ∨ 3 ≤ v.cell ∨ v.fromBatch.isSome then none
  else
    let res := phaseOf (beAt v.bytes 46 2) (s.get xingPhaseOfs_L2) (s.get xingPhaseOfs_L3) v.snr s.plcMode
    some (phaseByte (s.ctxAt slot 15 1) res v.cell s.plcMode)

/-- The phase bytes that the members of the group write (R158). -/
def State.phaseUpds (s : State) : List StoreUpd :=
  s.val.members.filterMap fun n => (s.vrec n).bind fun v => v.slot.bind fun k => v.phase.map fun b => .ctx k 15 (be 1 b.1)

/-- The events of a member's phase decision, with its group (R158). -/
def State.phaseEvents (s : State) (n : Nat) : State :=
  match s.vrec n with
  | some v => match v.phase with
    | some b => (s.raiseIf b.2.1 (80 + 16 * v.cell + 9)).raiseIf b.2.2 (80 + 16 * v.cell + 10)
    | none => s
  | none => s

/-- The session tops that the members of the group set (R247). -/
def State.sessTops (s : State) : List StoreUpd :=
  s.val.members.filterMap fun n => match s.vrec n with
    | some v => match v.slot with
      | some k => if v.lsr ∧ s.ctxAt k 128 4 < v.seq then some (.record tabSessTop k [v.seq, v.xing]) else none
      | none => none
    | none => none

/-- The validation group is sealed (R251): the open batch as it then stands goes with it. -/
def State.sealVal (s : State) : State :=
  match s.val.group with
  | none => s
  | some g =>
    let s1 := s.applyPend
    let s2 := s1.sealGroup g [] 0 (.record tabBatch 0 s1.val.batch.row :: s1.sessTops ++ s1.phaseUpds)
    let s3 := s2.setGrp g { s2.grp g with purpose := .validation s2.val.members }
    let s4 := s3.val.members.foldl (fun st n => (st.phaseEvents n).dropFlows (.record n)) s3
    { s4 with val := { s4.val with group := none, members := [], staged := 0 } }

/-- The group is sealed when 64 records are staged in it (R251). -/
def State.sealFull (s : State) : State := if 64 ≤ s.val.staged then s.sealVal else s

/-- Whether the open group already holds a record of an endpoint. -/
def State.groupHas (s : State) (slot : Nat) : Bool :=
  s.val.members.any fun n => match s.vrec n with
    | some v => v.slot == some slot
    | none => false

/-! ### One record through the stages -/

/-- An evidence entry staged alone in the group in force; whether there was room. -/
def State.stageEntry (s : State) (g : Nat) (e : List Byte) : State × Bool :=
  let r := s.stageAll g [s.batchAct e]
  if r.2 then ({ r.1 with val := { r.1.val with pend := r.1.val.pend ++ [e], staged := r.1.val.staged + 1 } }, true) else (s, false)

/-- The entries of rejected records that wait for a group go into the one just opened, in order, while there is room (R262). -/
def State.stageHeld : Nat → State → Nat → State
  | 0, s, _ => s
  | fuel + 1, s, g => match s.val.held with
    | [] => s
    | e :: rest =>
      let r := s.stageEntry g e
      if r.2 && decide (r.1.val.staged < 64) then State.stageHeld fuel { r.1 with val := { r.1.val with held := rest } } g else s

/-- The evidence entry of a rejected record is staged in the group in force and its place is free; without room the record waits in its
buffer (R251, R252), without its flow. It opens no group of its own (R262): its entry then waits for the next one, outside the places
(R241; DESIGN CHOICE, log entry 23). -/
def State.stageEvidence (s : State) (n : Nat) (v : VRec) (verdict : Nat) : State :=
  match s.val.group with
  | none => State.leavePlace { s with val := { s.val with held := s.val.held ++ [s.evidence v verdict] } } n
  | some g =>
    let r := s.stageEntry g (s.evidence v verdict)
    if r.2 then (r.1.leavePlace n).sealFull
    else (s.dropFlows (.record n)).setRec n (some { v with stage := 2, rejected := some verdict })

/-- A rejected record (R241, R242): counted, acknowledged with STATUS 0x02, its evidence entry staged, its place free. -/
def State.rejectRec (s : State) (n : Nat) (v : VRec) (verdict : Nat) : State :=
  let s1 := s.countVerdict verdict
  let s2 := if verdict = 0x60 ∨ v.fromBatch.isSome then s1 else s1.sendAck v.cell v.addr v.seq 0x02 verdict
  if hasEvidence verdict && v.fromBatch.isNone then s2.stageEvidence n v verdict else s2.leavePlace n

/-- A repeat (R249): acknowledged with STATUS 0x01, event 198, nothing else. A cell-batch entry is only counted (R260). -/
def State.duplicateRec (s : State) (n : Nat) (v : VRec) : State :=
  let s1 := s.countVerdict 0x01
  (if v.fromBatch.isSome then s1 else (s1.raise 198).sendAck v.cell v.addr v.seq 0x01 0).leavePlace n

/-- Stages 6 and 7 (R251, R252): the actions are staged, or the record waits in its buffer. -/
def State.storeRec (s : State) (n : Nat) (v : VRec) (slot : Nat) : State :=
  let verdict := match v.fromBatch with
    | some k => k
    | none => v.mark
  if s.groupHas slot then s.setRec n (some { v with stage := 2 })
  else match s.valGroup with
  | none => (s.noteNoGroup).setRec n (some { v with stage := 2 })
  | some (g, s0) =>
    let s1 := s0.stageHeld s0.val.held.length g
    let r := s1.stageAll g (s1.acceptActs v slot verdict)
    if r.2 then
      let es := if v.fromBatch.isSome then [] else [r.1.evidence v verdict]
      let s2 := { r.1 with val := { r.1.val with members := r.1.val.members ++ [n], pend := r.1.val.pend ++ es
                                                 staged := r.1.val.staged + 1 } }
      let w := { v with stage := 3, group := some g, phase := s2.phaseDecide v slot }
      ((s2.setRec n (some w)).countVerdict verdict).sealFull
    else s1.setRec n (some { v with stage := 2 })

/-- Whether a record of the same flow tag reached stage 3 before record n and waits for the tag (R243). -/
def State.olderWaits (s : State) (n t : Nat) (v : VRec) : Bool :=
  s.val.recs.any fun p => p.1 != n && match p.2 with
    | some w => w.stage == 1 && decide (w.ord < v.ord) && w.slot.any fun k => s.epFlow k == t
    | none => false

/-- Stages 3 to 7 (R243 to R251): under the endpoint's flow tag, or the record waits for it. -/
def State.resumeRec (s : State) (n : Nat) : State :=
  match s.vrec n with
  | none => s
  | some v => match v.slot with
    | none => s
    | some slot =>
      let t := s.epFlow slot
      if (s.flow t ≠ .nobody ∧ s.flow t ≠ .record n) ∨ s.olderWaits n t v = true then s.setRec n (some { v with stage := 1 })
      else
        let s1 := s.setFlow t (.record n)
        let m := s1.stageMid v slot
        if m = 0x01 then s1.duplicateRec n v
        else if m ≠ 0 then s1.rejectRec n v m
        else s1.storeRec n { v with mark := s1.snapMark v } slot

/-- What stages 1 to 5 read of a context (R268, R270): the hot part, for a session record the cold fields behind it too; whether it came
back poisoned. -/
def State.fetchFor (s : State) (v : VRec) (slot : Nat) (line : LineRead) : Bool × State :=
  let h := s.hot slot false line
  if v.lsr ∧ h.1 = false then h.2.ctxFetch slot line else h

/-- A record takes a place, behind those that came before it (R241, R243). -/
def State.takePlace (s : State) (n : Nat) (v : VRec) : State :=
  State.noteFull (State.setRec { s with val := { s.val with arrivals := s.val.arrivals + 1 } } n (some v))

/-- A record enters a place and passes the stages (R240). `line` tells what its context fetch met in DRAM (R552). -/
def State.enterRec (s : State) (v : VRec) (line : LineRead) : State :=
  match s.freePlace with
  | none => s
  | some n =>
    let p := s.stageParse v
    let v1 := { v with slot := p.2, ord := s.val.arrivals }
    let s2 := s.takePlace n v1
    match p with
    | (0, some slot) =>
      let h := s2.fetchFor v1 slot line
      if h.1 then h.2.rejectRec n v1 0x60
      else
        let a := h.2.stageAuth v1 slot
        if a ≠ 0 then h.2.rejectRec n v1 a else h.2.resumeRec n
    | (k, _) => s2.rejectRec n v1 k

/-- An entry of a verified cell batch enters at stage 5 (R260), against the hub's own context of its endpoint. -/
def State.enterEntry (s : State) (n : Nat) (v : VRec) : State :=
  let v1 := { v with slot := s.slotOfEui v.eui, ord := s.val.arrivals }
  let s1 := s.takePlace n v1
  match v1.slot with
  | some slot =>
    let h := s1.fetchFor v1 slot .clean
    if h.1 then h.2.rejectRec n v1 0x60 else h.2.resumeRec n
  | none => s1.rejectRec n v1 0x13

/-- Whether the table in DRAM is rebuilt, so that the pipeline takes records (R267). -/
def State.tableReady (s : State) : Bool := s.get pwrStat_PHASE == 4

/-- Cell-batch entries and site records that wait take the free places, in order. -/
def State.enterWaiting : Nat → State → State
  | 0, s => s
  | fuel + 1, s =>
    if !s.tableReady then s
    else match s.val.entries, s.freePlace with
    | v :: rest, some n =>
      let s1 : State := { s with val := { s.val with entries := rest } }
      State.enterWaiting fuel (if v.fromBatch.isSome then s1.enterEntry n v else s1.enterRec v .clean)
    | _, _ => s

/-- The record that waits longest for the flow tag of a waiting record (R243). -/
def State.firstWaiter (s : State) (n : Nat) (v : VRec) : Nat :=
  match v.slot with
  | none => n
  | some k => (s.val.recs.foldl (fun (b : Nat × Nat) p => match p.2 with
      | some w => if w.stage = 1 ∧ w.ord < b.2 ∧ (w.slot.any fun j => s.epFlow j == s.epFlow k) = true then (p.1, w.ord) else b
      | none => b) (n, v.ord)).1

/-- A waiting record whose buffer words carry poison (R241): verdict 0x60; one rejected already leaves without its entry. What is staged
has left its buffer words. -/
def State.poisonRec (s : State) (n : Nat) (v : VRec) : State :=
  if v.stage = 3 then s
  else if v.rejected.isSome then s.leavePlace n
  else s.rejectRec n { v with poison := true } 0x60

/-- A record that waits for room or a group tries again (R252). It has passed stages 3 to 5, and keeps what they found (R264). -/
def State.retryRec (s : State) (n : Nat) : State :=
  match s.vrec n with
  | none => s
  | some v => match v.rejected, v.slot with
    | some k, _ => s.stageEvidence n v k
    | none, some slot => s.storeRec n v slot
    | none, none => s

/-- Records that wait for room or a group try again, in order of place (R252); then cell-batch entries. -/
def State.retryRecs (s : State) : State :=
  let s1 := (s.val.recs.filterMap fun p => match p.2 with
    | some v => if v.stage = 2 then some p.1 else none
    | none => none).foldl State.retryRec s
  s1.enterWaiting s1.val.entries.length

end Sys2Proof.Machine
end

