-- ==== Sys2Proof/Machine/RecOps.lean ====
section
/-!
DEFINITION. Records on their way to the pipeline (08_reading_validation.md): segments and reassembly; what registration
tells the hub and the head end (R274 to R277).
-/
namespace Sys2Proof.Machine

/-- The reassembly of an endpoint. -/
def State.reasmOf (s : State) (c a : Nat) : Option Reasm := s.val.reasm.find? fun r => r.cell == c && r.addr == a

/-- Reassemblies that may run (R239). -/
def State.reasmMax (s : State) : Nat := min 128 (s.get valCfg_REASM_MAX)

/-- The state without an endpoint's reassembly; its transaction entry is free. -/
def State.dropReasm (s : State) (c a : Nat) : State :=
  match s.reasmOf c a with
  | none => s
  | some r => State.txnRelease
      { s with val := { s.val with reasm := s.val.reasm.filter fun x => !(x.cell == c && x.addr == a), reasmSeen := false
                                   fullSeen := false } } r.txn

/-- The state with a reassembly in place of the endpoint's earlier one. -/
def State.putReasm (s : State) (r : Reasm) : State :=
  { s with val := { s.val with
      reasm := (s.val.reasm.filter fun x => !(x.cell == r.cell && x.addr == r.addr)) ++ [r] } }

/-- A session-record exchange that may not start for want of a reassembly: event 202 once an episode (R239). -/
def State.noteReasm (s : State) : State :=
  if s.val.reasmSeen then s else State.raise { s with val := { s.val with reasmSeen := true } } 202

/-- Whether a new reassembly may start (R239). -/
def State.reasmRoom (s : State) : Bool := decide (s.val.reasm.length < s.reasmMax) && decide (s.placesHeld < 512)

/-- A segment at the expected offset joins its reassembly (R238 steps 2 and 3). -/
def State.segmentIn (s : State) (r : Reasm) (data : List Byte) (t : Stamp) : State :=
  let r1 := { r with bytes := r.bytes ++ data, stamp := t }
  let sseq := beAt r1.bytes 12 4
  let blen := beAt r1.bytes 2 2
  if 32 ≤ r1.bytes.length ∧ (r1.total ≠ 32 + blen + 2820 ∨ blen < 48 ∨ 448 < blen) then
    ((s.dropReasm r.cell r.addr).countVerdict 0x10).sendAck r.cell r.addr sseq 0x02 0x10
  else if r1.total ≤ r1.bytes.length then
    let s1 := s.dropReasm r.cell r.addr
    ({ s1 with val := { s1.val with fullSeen := s.val.fullSeen } } : State).enterRec
      { bytes := r1.bytes.take r1.total, lsr := true, stamp := t, cell := r.cell, addr := r.addr, turn := s.turnOf r.cell r.addr } .clean
  else (s.putReasm r1).sendAck r.cell r.addr sseq 0x03 0

/-- The key under which a reassembly waits for its transaction entry. -/
def segKey (c a : Nat) : Nat := 16 + c * 65536 + a

/-- A session-record segment (R237 to R239, R280). A wrong OFFSET or TOTAL ends the reassembly. A first segment waits while no entry is to
be had. -/
def State.segment (s : State) (c a off total : Nat) (data : List Byte) (t : Stamp) : State :=
  match s.reasmOf c a with
  | some r => if off = r.bytes.length ∧ total = r.total then s.segmentIn r data t else s.dropReasm c a
  | none =>
    if off ≠ 0 then s
    else if !s.reasmRoom then s.noteReasm
    else
      let i := if c < 3 then 3 else c + 1
      let x : Reasm := { cell := c, addr := a, total := total, bytes := data, stamp := t }
      match s.txnFor (segKey c a) { kind := 4, issuer := i, slot := (s.node c a).map (·.slot), flow := s.nodeFlow c a } with
      | none => State.workWaits { s with val := { s.val with segs := (s.val.segs.filter fun y => !(y.cell == c && y.addr == a)) ++ [x] } }
          (segKey c a) i
      | some (e, s1) =>
        let r : Reasm := { cell := c, addr := a, total := total, bytes := [], stamp := t, txn := e }
        (s1.putReasm r).noteFull.segmentIn r data t

/-- First segments of a cell whose transaction entry has been granted go on (R280). -/
def State.retrySegs (s : State) (c : Nat) : State :=
  (s.val.segs.filter fun x => x.cell == c && (smGet none s.txn.granted (segKey c x.addr)).isSome).foldl
    (fun (st : State) x => State.segment { st with val := { st.val with segs := st.val.segs.erase x } } c x.addr 0 x.total x.bytes x.stamp) s

/-! ### Registration -/

/-- The body of a REGISTER message (R221 table). -/
def registerBody (eui cell status index : Nat) : List Byte := be 8 eui ++ be 1 cell ++ be 1 status ++ be 4 index

/-- A refusal for a full hub reported to the head end, at most once in 24 h for each EUI (R277); the time is kept plus 1, 0 standing for
never. -/
def State.reportFull (s : State) (eui cell : Nat) : State :=
  let last := smGet 0 s.ept.reported eui
  if last ≠ 0 ∧ s.ptpSec + 1 < last + 86400 then s
  else State.gwyReliable { s with ept := { s.ept with reported := smPut 0 s.ept.reported eui (s.ptpSec + 1) } } 0xFFFF 0x09
    (registerBody eui cell 0x02 0xFFFFFFFF) none

/-- A registration that a cell refuses for want of room (R277): `hub` for the hub total. -/
def State.noRoom (s : State) (hub : Bool) (eui cell : Nat) : State :=
  let s1 := s.refuseReg hub eui cell
  if hub && !s.underHub then s1.reportFull eui cell else s1


/-- The cell in which an EUI-64 is joined, and its address. -/
def State.joinedAt (s : State) (eui : Nat) : Option (Nat × Nat) :=
  (List.range 5).findSome? fun c => ((s.cell c).members.find? fun p => p.2.eui == eui && !p.2.leaving).map fun p => (c, p.1)

/-- The addresses of a cell that contexts hold (R125): of endpoints that have joined and not left. -/
def State.heldAddrs (s : State) (c : Nat) : List Nat :=
  (s.ctxSlots.filter fun i => (s.epState i == 1 || s.epState i == 2) && s.epCell i == s.cellNo c).map s.epAddr

/-- The lowest free address of a cell (R125, R184): no joined endpoint's, in the cell's table or in a context. -/
def State.freeAddr (s : State) (c : Nat) : Nat :=
  let held := s.heldAddrs c
  ((List.range (s.cellLimit c)).find? fun k => s.node c (k + 1) == none && decide (k + 1 ∉ held)).getD 0 + 1

/-- Whether a group and a transaction entry are to be had for a registration (R156 row 5; DEDUCED, log entry 28). -/
def State.regResources (s : State) : Bool :=
  !s.warned && (List.range 60).any (fun g => !(s.grp g).held) && s.txnCan 3

/-- An endpoint registers at an address of a cell (R275, R276): its live context moves with it, else a new one; a chip under
a hub tells the hub. -/
def State.register (s : State) (r : List Byte) (c addr depth parent : Nat) : Option (Nat × State) :=
  let eui := beAt r 0 8
  let s0 := match s.joinedAt eui with
    | some (c', a') => if c' = c ∧ a' = addr then s else s.sendAway c' a'
    | none => s
  let reg := fun (st : State) =>
    if st.underHub then st.gwyReliable 0 0x09 (registerBody eui (st.cellNo c) 0 0) none else st
  match s0.liveSlot eui with
  | some i =>
    let s1 := (s0.ctxPut i 14 (be 1 (s0.cellNo c))).ctxPut i 16 (be 2 addr)
    some (i, if s1.epState i = 2 ∨ s0.epCell i ≠ s0.cellNo c then reg s1 else s1)
  | none => (s0.registerEp r (s0.cellNo c) addr depth parent).map fun p => (p.1, reg p.2)

end Sys2Proof.Machine
end

