-- ==== Sys2Proof/Machine/MacOps.lean ====
section
/-!
DEFINITION. Exchanges of a polled cell as shared operations (05_plc_cell_protocol.md): frame bodies, slot planning, the choice
of the next exchange, retransmission.
-/
namespace Sys2Proof.Machine

/-! ### Bodies -/

/-- The endpoint key of a joined endpoint; the enrolled one where its context is no longer its own. -/
def State.nodeKey (s : State) (c a : Nat) : List Byte :=
  match s.node c a with
  | some n =>
    match (if s.epEui n.slot = n.eui then s.endpointKey n.slot else none) with
    | some k => k
    | none => ((s.enrolment n.eui).bind fun r => s.unwrapUnder (beAt r 48 2 % 1024) (slice r 8 40)).getD []
  | none => []

/-- EUI-64 of a joined endpoint. -/
def State.nodeEui (s : State) (c a : Nat) : Nat :=
  match s.node c a with
  | some n => n.eui
  | none => 0

/-- The generation and key that a cell key command sends (R127, R177): the new ones, or those in force where the command says so. -/
def State.sentKey (s : State) (c : Nat) (j : CmdJob) : Nat × List Byte :=
  match (s.cell c).keyNew with
  | some p => if j.payload = [] then p else ((s.cell c).keyGen, s.cellKey c)
  | none => ((s.cell c).keyGen, s.cellKey c)

/-- The payload of a command: for a cell key change the generation and the masked key (R127). -/
def State.cmdPayload (s : State) (c : Nat) (j : CmdJob) : List Byte :=
  if j.typ = 0x10 ∧ ¬ j.routeSet then
    let g := (s.sentKey c j).1
    be 1 g ++ xorBytes (s.sentKey c j).2 (tagOf (s.nodeKey c j.addr) (be 8 (s.nodeEui c j.addr) ++ be 1 g) 32 "CKY1")
  else j.payload

/-- The instant of the first command of a key change (R127). -/
def State.noteKeySent (s : State) (c : Nat) (x : Exchange) : State :=
  let cl := s.cell c
  if x.job.any (fun j => j.typ == 0x10 && !j.routeSet) && cl.keyNew.isSome && cl.keySince.isNone then
    s.setCell c { cl with keySince := some s.ptpSec }
  else s

/-- Largest answer PSDU of an exchange kind, relay header excluded (RESP_LEN). -/
def respLen (kind : Nat) : Nat :=
  if kind = 1 ∨ kind = 2 then 88 else if kind = 3 then 152 else if kind = 5 then 56 else if kind = 6 then 44 else 20

/-- Whether an exchange's frames keep to the control modulation (R136). -/
def Exchange.ctl (x : Exchange) : Bool := x.kind == 6

/-- The modulation of one direction of a hop of an exchange. -/
def State.hopCode (s : State) (c : Nat) (ctl : Bool) (a b : Nat) : Nat := if ctl then s.c0mod c else s.code c a b

/-- The POLL body (R137). -/
def State.pollBody (s : State) (c : Nat) (x : Exchange) : List Byte :=
  let last := x.route.getLastD 0
  let tone := if x.route = [] ∧ x.kind ≠ 6 then ((s.cell c).link x.addr 0).tone else 0
  let head := be 1 x.kind ++ be 1 (s.hopCode c x.ctl x.addr last) ++ be 3 tone ++ be 2 (respLen x.kind) ++ be 6 x.snap
    ++ be 2 x.offset ++ be 1 0
  match x.job with
  | none => head
  | some j =>
    let p := s.cmdPayload c j
    let cmd := be 4 x.cseq ++ be 1 j.typ ++ be 1 p.length ++ be 2 0 ++ p
    head ++ cmd ++ tagOf (s.nodeKey c x.addr) (be 8 (s.nodeEui c x.addr) ++ cmd) 16 "CMD1"

/-- The ROUTE_SET body (R137, R153): DEPTH 0xFF sends the endpoint out of the cell. -/
def State.routeBody (s : State) (c : Nat) (x : Exchange) (leave : Bool) : List Byte :=
  let n := (s.node c x.addr).getD {}
  let b := be 2 n.parent ++ be 1 (if leave then 0xFF else n.depth) ++ be 1 (ofBool n.role)
    ++ be 2 (if n.depth = 1 then x.addr else n.branch) ++ be 1 (s.code c x.addr n.parent) ++ be 1 0 ++ be 4 x.cseq ++ be 4 0
  b ++ tagOf (s.nodeKey c x.addr) (be 8 n.eui ++ b) 8 "RTS1"

/-- The body of an exchange's request. -/
def State.requestBody (s : State) (c : Nat) (x : Exchange) : List Byte :=
  if x.kind = 7 then s.routeBody c x (match x.job with | some j => j.leave | none => false) else s.pollBody c x

/-! ### Planning -/

/-- Octets that ROUTED adds. -/
def routedExtra (route : List Nat) : Nat := if route = [] then 0 else 16

/-- Slots of each hop of a downward frame, and of an upward one (R130, R136). -/
def State.downSlots (s : State) (c : Nat) (x : Exchange) (len : Nat) : List Nat :=
  (hopsOf x.route x.addr).map fun h => s.slots (len + routedExtra x.route) (s.hopCode c x.ctl h.1 h.2)
/-- Upward hops, the endpoint's first. -/
def State.upSlots (s : State) (c : Nat) (x : Exchange) (len : Nat) : List Nat :=
  ((hopsOf x.route x.addr).reverse).map fun h => s.slots (len + routedExtra x.route) (s.hopCode c x.ctl h.2 h.1)

/-- The length of an exchange's request, unrouted. -/
def State.reqLen (s : State) (c : Nat) (x : Exchange) : Nat := 12 + (s.requestBody c x).length

/-- The slots of an exchange placed by the chain rule from a slot on (R131, R143): the exchange, and the slot after it. -/
def State.planFrom (s : State) (c : Nat) (x : Exchange) (k : Nat) : Exchange × Nat :=
  let d := s.placeAll c (s.downSlots c x (s.reqLen c x)) k
  let u := s.placeAll c (s.upSlots c x (respLen x.kind)) d.2
  let third := if x.kind = 4 ∨ x.kind = 5 ∨ x.kind = 7 then [] else s.downSlots c x (if x.kind = 6 then 80 else 20)
  let t := s.placeAll c third u.2
  let req := s.place c ((s.downSlots c x (s.reqLen c x)).headD 1) u.2
  ({ x with start := d.1.headD k, nextDown := t.1.headD req }, t.2)

/-- The first relay or the endpoint: the far end of the hop touching the chip. -/
def Exchange.firstHop (x : Exchange) : Nat := (x.route ++ [x.addr]).headD 0


/-- The request of an exchange for a slot: the exchange as planned, the slot after it, the frame (R131, R135, R136). -/
def State.requestFrame (s : State) (c : Nat) (x : Exchange) (k : Nat) (retry : Bool) : Exchange × Nat × PlcFrame :=
  let p := s.planFrom c x k
  let f := s.frame c (if x.kind = 7 then 5 else 2) x.addr x.fseq x.route p.1.start retry x.ctl (s.requestBody c p.1)
  (p.1, p.2, { slot := p.1.start, modc := s.hopCode c x.ctl 0 x.firstHop, tone := s.hopTone c x.route x.addr
               flow := s.nodeFlow c x.addr, psdu := f })

/-- An exchange as it now stands; the cell's slot pointer moves past it. -/
def State.putExchange (s : State) (c : Nat) (x : Exchange) (next : Nat) : State :=
  let cl := s.cell c
  s.setCell c { cl with xch := (cl.xch.filter fun y => decide (y.fseq ≠ x.fseq)) ++ [x], nextSlot := max cl.nextSlot next }

/-- The request of an exchange goes to the launch queue for its slot. -/
def State.sendRequest (s : State) (c : Nat) (x : Exchange) (k : Nat) (retry : Bool) : State :=
  let p := s.requestFrame c x k retry
  ((s.putExchange c p.1 p.2.1).queuePlc c p.2.2.slot p.2.2.modc p.2.2.tone p.2.2.flow p.2.2.psdu).noteKeySent c x

/-- A request to a radio endpoint (R182, R188): POLL, COMMAND, KEY or a disassociation notification; the deadline of an
item for a sleepy endpoint stands in its launch word. -/
def State.sendRadio (s : State) (c : Nat) (x : Exchange) : State :=
  let r := c - 3
  let flow := s.nodeFlow c x.addr
  let s1 := match x.job with
    | none => s.queueRad r x.addr flow 0
        (radMsg 3 (be 1 x.kind ++ be 1 0 ++ be 3 0 ++ be 2 (respLen x.kind) ++ be 6 x.snap ++ be 2 x.offset ++ be 1 0))
    | some j =>
      let l : DWord := match j.deadline with
        | some k => if s.isSleepy r x.addr then launchAt (k * 65536) else 0
        | none => 0
      if j.leave then s.queueMac r x.addr flow (le 1 3 ++ le 1 1)
      else if j.typ = 0x10 then s.queueRad r x.addr flow l (radMsg 8 (be 1 (s.sentKey c j).1 ++ (s.sentKey c j).2))
      else s.queueRad r x.addr flow l (radMsg 5 (be 4 x.cseq ++ be 1 j.typ ++ be 1 j.payload.length ++ be 2 0 ++ j.payload))
  (s1.putExchange c x 0).noteKeySent c x

/-! ### The choice of the next exchange (R143) -/

/-- The first of a list by a key, the earlier on a tie. -/
def minOn {α : Type} (key : α → Nat) : List α → Option α
  | [] => none
  | x :: xs => match minOn key xs with
    | some y => if key x ≤ key y then some x else some y
    | none => some x

/-- Whether an endpoint of a cell listens all the time: on radio one that neither sleeps nor is provisional (R188). -/
def State.listens (s : State) (c a : Nat) : Bool :=
  decide (c < 3) || match s.rnode (c - 3) a with
    | some x => !s.isSleepy (c - 3) a && !x.provisional
    | none => true

/-- Endpoints that may be polled: joined, registered, listening, no exchange under way (R188, R275). -/
def State.pollable (s : State) (c : Nat) : List (Nat × Node) :=
  (s.cell c).members.filter fun p => s.listens c p.1 && s.epState p.2.slot == 1 && !p.2.leaving && ((s.cell c).exchangeOf p.1).isNone

/-- An exchange with a joined endpoint over its route. -/
def xchTo (kind : Nat) (p : Nat × Node) : Exchange := { kind := kind, addr := p.1, route := p.2.route }

/-- A command or route set as an exchange. -/
def State.jobXch (s : State) (c : Nat) (j : CmdJob) : Option Exchange :=
  match s.node c j.addr with
  | none => none
  | some n =>
    if ((s.cell c).exchangeOf j.addr).isSome then none
    else some { kind := if j.routeSet then 7 else 4, addr := j.addr, route := n.route, job := some j }

/-- The earliest command with a launch deadline. -/
def State.pickDeadline (s : State) (c : Nat) : Option Exchange :=
  (minOn (fun j : CmdJob => j.deadline.getD 0)
    ((s.cell c).cmds.filter fun j => j.deadline.isSome && (s.jobXch c j).isSome)).bind (s.jobXch c)

/-- The next command without a deadline. -/
def State.pickCmd (s : State) (c : Nat) : Option Exchange := (s.cell c).cmds.findSome? fun j => s.jobXch c j

/-- A snapshot poll for the latest snapshot that has passed, in ascending address; an endpoint left unreached goes to the
end. -/
def State.pickSnap (s : State) (c : Nat) : Option Exchange :=
  match s.plc.snaps.find? fun p => decide (p.1 ≤ s.xing.num) with
  | none => none
  | some (n, _) =>
    (minOn (fun p : Nat × Node => p.2.unreached * 65536 + p.1) ((s.pollable c).filter fun p => decide (p.2.snapDone < n))).map
      fun p => { xchTo 2 p with snap := n }

/-- Nodes that send invitations: the chip and every relay that may have endpoints below it (R154; DEDUCED, log entry 29). -/
def State.branches (s : State) (c : Nat) : List (Nat × List Nat) :=
  (0, []) :: ((s.cell c).members.filterMap fun p =>
    if p.2.relay && decide (p.2.route.length < s.get (plcCellCfg_ECHO_DEPTH c)) then some (p.1, p.2.route ++ [p.1]) else none)

/-- The settings of a cell that hold in this superframe (R170). -/
def Cell.retryMax (x : Cell) : Nat := bitsOf x.cfg 15 14
/-- Hours between link probes of an endpoint. -/
def Cell.probeHours (x : Cell) : Nat := 2 ^ bitsOf x.cfg 11 9
/-- JOIN_OPEN. -/
def Cell.joinOpen (x : Cell) : Bool := bitsOf x.cfg 8 8 == 1
/-- JOIN_PERIOD in crossings. -/
def Cell.joinCrossings (x : Cell) : Nat := 32 * max 1 (bitsOf x.cfg 7 0)

/-- The next join invitation that is due. -/
def State.pickJoin (s : State) (c : Nat) : Option Exchange :=
  let cl := s.cell c
  if decide (3 ≤ c) || !cl.joinOpen || (cl.exchangeOf 0xFFFF).isSome then none
  else ((s.branches c).find? fun b =>
    let last := smGet 0 cl.invited b.1
    decide (last = 0) || decide (last + cl.joinCrossings ≤ s.xing.num)).map fun b =>
      { kind := 6, addr := 0xFFFF, route := b.2 }

/-- The link probe that is due: half a PROBE_PERIOD has passed (DESIGN CHOICE, log entry 30). -/
def State.pickProbe (s : State) (c : Nat) : Option Exchange :=
  (minOn (fun p : Nat × Node => p.2.probed) ((s.pollable c).filter fun p =>
    decide (p.2.probed + (s.cell c).probeHours * 1800 ≤ s.ptpSec))).map (xchTo 5)

/-- Whether an endpoint signs session records. -/
def State.signsSessions (s : State) (slot : Nat) : Bool := natBit (s.epFlags slot) 1

/-- A session-record poll that is due: a reassembly goes on, or the endpoint's turn came (DESIGN CHOICE, log entry 31). -/
def State.sessionDue (s : State) (c : Nat) (p : Nat × Node) : Bool :=
  s.signsSessions p.2.slot && ((s.reasmOf c p.1).isSome || decide (p.2.lsrHeld < p.2.polled))

/-- The next reading or session-record poll: in ascending address, from the one polled last on and round again (R143). -/
def State.pickReading (s : State) (c : Nat) : Option Exchange :=
  (minOn (fun p : Nat × Node => if (s.cell c).polls < p.1 then p.1 else 65536 + p.1) (s.pollable c)).map fun p =>
    match (s.pollable c).find? fun k => s.sessionDue c k && ((s.reasmOf c k.1).isSome || s.reasmRoom) with
    | some k => { xchTo 3 k with offset := match s.reasmOf c k.1 with | some r => r.bytes.length | none => 0 }
    | none => xchTo 1 p

/-- The next exchange by precedence (R143). -/
def State.pick (s : State) (c : Nat) : Option Exchange :=
  (s.pickDeadline c).orElse fun _ => (s.pickSnap c).orElse fun _ => (s.pickCmd c).orElse fun _ =>
    (s.pickJoin c).orElse fun _ => (s.pickProbe c).orElse fun _ => s.pickReading c

/-- The next command sequence of an endpoint, kept in its context (R147). -/
def State.nextCseq (s : State) (slot : Nat) : Nat × State :=
  let n := (s.ctxAt slot 220 4 + 1) % 2 ^ 32
  (n, s.ctxPut slot 220 (be 4 n))

/-- A picked exchange with its transaction entry: sequences, slots, request (R143). -/
def State.startExchange (s : State) (c : Nat) (x : Exchange) (e : Nat) : State :=
  let fs := (s.cell c).fseq
  let q := match x.job, s.node c x.addr with
    | some _, some n => s.nextCseq n.slot
    | _, _ => (0, s)
  let s1 := q.2
  let cl := s1.cell c
  let s2 := s1.setCell c { cl with
    fseq := (fs + 1) % 65536, waiting := false
    cmds := match x.job with | some j => cl.cmds.erase j | none => cl.cmds
    polls := if x.kind = 1 then x.addr else cl.polls
    invited := if x.kind = 6 then smPut 0 cl.invited (x.route.getLastD 0) s.xing.num else cl.invited }
  let x1 := { x with fseq := fs, cseq := q.1, txn := e, limit := (s2.cell (if c < 3 then c else 0)).retryMax }
  if c < 3 then s2.sendRequest c x1 (max (s2.cell c).nextSlot s2.nowSlot) false else s2.sendRadio c x1

/-- Exchanges whose acknowledgement never came in time end (R253); one that is on air ends when it has been sent. -/
def State.endStale (s : State) (c : Nat) : State :=
  ((s.cell c).xch.filter fun e => e.acking && decide (e.nextDown < s.nowSlot) &&
    !((s.cellJob c).any fun j => e.ack == some (frSeq j.psdu))).foldl (fun st e => st.endExchange c e) s


/-- A transaction entry for an exchange of a cell (R279, R280): a granted one, else a fresh one, else the planner waits. -/
def State.planWith (s : State) (c : Nat) (x : Exchange) : State :=
  let slot := (s.node c x.addr).map (·.slot)
  let t : Txn := { kind := if c < 3 then 1 else 2, issuer := if c < 3 then 3 else c + 1, slot := slot, flow := match slot with | some i => s.epFlow i | none => 0
                   deadline := match x.job with | some j => (j.deadline.getD 0) * 65536 | none => 0 }
  match s.txnFor c t with
  | some (e, s1) => s1.startExchange c x e
  | none =>
    if (s.cell c).waiting then s
    else (s.txnWait (.planner c)).setCell c { (s.txnWait (.planner c)).cell c with waiting := true }

/-! ### Retransmission (R144) -/

/-- The marked item of an exchange in its launch queue is released (R147). -/
def State.doneItem (s : State) (c fseq : Nat) : State :=
  match roleQ s.man.roles.plcLaunch c with
  | none => s
  | some q => match s.frameIdx q fseq with
    | some i => s.spend q i
    | none => s

/-- An exchange ends unreached (R144 step 4): counted, event 80 + 16c + 5, the endpoint to the end of its poll list; a command goes back
to the end of its list (DESIGN CHOICE, log entry 118). -/
def State.unreached (s : State) (c : Nat) (x : Exchange) : State :=
  let s1 := if c < 3 then ((s.bump (plcXchFail_UNREACHED c) 1).raise (80 + 16 * c + 5)).doneItem c x.fseq else s
  let s2 := match s1.node c x.addr with
    | some n => s1.setNode c x.addr (some { n with unreached := n.unreached + 1, polled := n.polled + 1
                                                   lsrHeld := if x.kind = 3 then n.polled + 1 else n.lsrHeld
                                                   probed := if x.kind = 5 then s.ptpSec else n.probed })
    | none => s1
  let s3 := match x.job with
    | some j => if j.leave then s2 else s2.setCell c { s2.cell c with cmds := (s2.cell c).cmds ++ [j] }
    | none => s2
  let s4 := s3.dropExchange c x
  match x.job with
  | some j => if j.leave then s4.leaveNow c x.addr else s4
  | none => s4

/-- The hop taken as failed (R144 step 2). -/
def Exchange.badHop (x : Exchange) : Nat × Nat := x.failHop.getD ((hopsOf x.route x.addr).headD (0, x.addr))

/-- The place of an exchange's marked command item, delivered and retained, in its launch queue (R147). -/
def State.markedItem (s : State) (c : Nat) (x : Exchange) : Option (Nat × Nat) :=
  if x.job.isNone then none
  else (roleQ s.man.roles.plcLaunch c).bind fun q =>
    if s.flag (whfQCfg_RETAIN q) then ((s.frameIdx q x.fseq).filter fun i =>
      decide (i < ((s.q q).front + 2 ^ 32 - (s.q q).mark) % 2 ^ 32)).map fun i => (q, i)
    else none

/-- A command item is sent again (R147): its queue rewinds to the mark, and the item is delivered anew with its new slot and RETRY (DESIGN
CHOICE, log entry 118). -/
def State.rewindItem (s : State) (q i : Nat) (f : PlcFrame) : State :=
  let x := s.q q
  (s.setQ q { x with items := x.items.set i ((x.items.getD i {}).rewrite f.words) }).qRewind q

/-- The request is sent again, the failed hop one code more robust (R144 steps 1 and 2): a command by a rewind to its mark, any other by
a new item. -/
def State.resend (s : State) (c : Nat) (x : Exchange) : State :=
  if 3 ≤ c then s.sendRadio c { x with retries := x.retries + 1 }
  else
  let h := x.badHop
  let s1 := (s.bump (plcXchFail_RETRIES c) 1).raiseIf (x.retries == 0) (80 + 16 * c + 4)
  let s2 := if 0xFFFE ≤ h.2 then s1 else s1.lowerLink c h.1 h.2
  let y := { x with retries := x.retries + 1, fails := x.fails ++ [h], failHop := none }
  match s2.markedItem c x with
  | none => (s2.doneItem c x.fseq).sendRequest c y x.nextDown true
  | some (q, i) =>
    let p := s2.requestFrame c y x.nextDown true
    (s2.putExchange c p.1 p.2.1).rewindItem q i p.2.2

end Sys2Proof.Machine
end

