-- ==== Sys2Proof/Machine/LaunchOps.lean ====
section
/-!
DEFINITION. The launch unit as shared operations (02_crossing_time.md, R63 to R66): launch words, one-step insertion into PTP
frames (R206, R207), the start of a frame on each medium, removals.
-/
namespace Sys2Proof.Machine

/-! ### PTP frames -/

/-- Where the PTP header of a frame begins: Layer 2, or UDP ports 319 and 320 over IPv4 without options or IPv6 (R202). -/
def ptpHdr (b : List Byte) : Option Nat :=
  let k := if beAt b 12 2 = 0x8100 then 4 else 0
  let t := beAt b (12 + k) 2
  let h := 14 + k
  if t = 0x88F7 then some h
  else if t = 0x0800 ∧ beAt b h 1 = 0x45 ∧ beAt b (h + 9) 1 = 17 ∧ (beAt b (h + 22) 2 = 319 ∨ beAt b (h + 22) 2 = 320) then some (h + 28)
  else if t = 0x86DD ∧ beAt b (h + 6) 1 = 17 ∧ (beAt b (h + 42) 2 = 319 ∨ beAt b (h + 42) 2 = 320) then some (h + 48)
  else none

/-- PTP messageType, twoStepFlag. -/
def ptpType (b : List Byte) (o : Nat) : Nat := beAt b o 1 % 16
/-- twoStepFlag: bit 1 of the first byte of flagField. -/
def ptpTwoStep (b : List Byte) (o : Nat) : Bool := natBit (beAt b (o + 6) 1) 1

/-- A ones'-complement sum of 16-bit words. -/
def onesSum (l : List Nat) : Nat := l.foldl (fun a b => let t := a + b; t % 65536 + t / 65536) 0

/-- The 16-bit words of a byte string from an even offset of the UDP datagram. -/
def words16 (b : List Byte) : List Nat := (List.range ((b.length + 1) / 2)).map fun i => beAt b (2 * i) 2

/-- The UDP checksum updated for bytes that changed (R207, RFC 1624): ~(~HC + sum of ~m + sum of m'). An IPv4 checksum of 0
stays. -/
def udpFix (old new : List Byte) (o : Nat) : List Byte :=
  let c := o - 2
  let hc := beAt old c 2
  if (if beAt old 12 2 = 0x8100 then beAt old 16 2 else beAt old 12 2) = 0x88F7 ∨ hc = 0 ∨ new = old then new
  else
    let s := onesSum ((65535 - hc) :: ((words16 (old.drop o)).map (65535 - ·) ++ words16 (new.drop o)))
    let r := 65535 - s
    patch new c (be 2 (if r = 0 then 65535 else r))

/-- correctionField raised by a signed amount in 2^-16 ns. -/
def addCorrection (b : List Byte) (o : Nat) (d : Int) : List Byte :=
  patch b (o + 8) (be 8 (ofSigned 64 (toSigned 64 (beAt b (o + 8) 8) + d)))

/-- The sub-nanosecond remainder of a transmit stamp of a port, in 2^-16 ns (R206). -/
def State.subNs (s : State) (x : Nat) : Int := toSigned 24 (s.get (xingTxcomp_DELAY x)) % 1000 * 65536 / 1000

/-- Ns that SLOWDLY adds at 10 and 100 Mb/s in SGMII mode (R203). -/
def State.slowDly (s : State) (x : Nat) : Nat :=
  if s.get (ethCfg_MODE x) = 0 ∧ s.get (ethStat_SPEED x) < 2 then s.get (ethCfg_SLOWDLY x) else 0

/-- A transmit stamp of an Ethernet port (R61, R203). -/
def State.ethTx (s : State) (x : Nat) (late renum : Bool) : Stamp :=
  let t := s.txStamp x late renum
  { t with ptp := t.ptp + s.slowDly x }

/-- A receive stamp of an Ethernet port. -/
def State.ethRx (s : State) (x : Nat) : Stamp :=
  let t := s.rxStamp x
  { t with ptp := t.ptp - s.slowDly x }

/-- Insertion into a departing PTP event message (R206 to R208): `kind` 1 a message of this clock, 2 one forwarded, 3 a
Pdelay_Resp; `t0` the ingress stamp in ns modulo 2^32 s. -/
def State.oneStep (s : State) (x kind t0 : Nat) (b : List Byte) (t : Stamp) : List Byte :=
  match ptpHdr b with
  | none => b
  | some o =>
    let m := ptpType b o
    let n := if kind = 1 ∧ m = 0 ∧ !ptpTwoStep b o then patch b (o + 34) (be 6 (t.ptp / nsPerSec) ++ be 4 (t.ptp % nsPerSec)) else b
    let span := ((t.ptp + 2 ^ 32 * nsPerSec - t0) % (2 ^ 32 * nsPerSec) : Nat)
    let n1 := if (kind = 2 ∧ m < 4) ∨ (kind = 3 ∧ !ptpTwoStep b o) then addCorrection n o ((span * 65536 : Nat) : Int) else n
    let n2 := if m < 4 ∧ !(kind = 1 ∧ ptpTwoStep b o) then addCorrection n1 o (s.subNs x) else n1
    udpFix b n2 o

/-! ### Launch words -/

/-- What a launch word asks at this moment. -/
inductive LaunchWhen where
  | now
  | held
  | late
  | far
  | skipped
  deriving DecidableEq, Repr

/-- The instant that a launch word names (R63), with a perturbation's delay in µs (R531 kind 0x3): crossing time or PTP ns, and the
value; none where no instant is set. -/
def State.launchDue (s : State) (w jit : Nat) : Option (Bool × Nat) :=
  if !natBit w 63 then none
  else if natBit w 62 then some (true, w % 2 ^ 62 + s.xt / 2 ^ 62 * 2 ^ 62 + jit * 1000 * 65536 / s.period)
  else
    let d : Int := toSigned 30 (w / 2 ^ 32 % 2 ^ 30 + 2 ^ 30 - s.ptpSec % 2 ^ 30)
    some (false, (((s.ptpSec : Int) + d) * (nsPerSec : Nat) + ((w % 2 ^ 32 + jit * 1000 : Nat) : Int)).toNat)

/-- An instant judged when its item reaches the head (R63 to R65). -/
def State.judge (s : State) : Option (Bool × Nat) → LaunchWhen
  | none => .now
  | some (true, i) =>
    if s.xt + 4096 * 65536 < i then .far
    else if s.xt = i then .now
    else if s.xt < i then .held
    else if s.wasSkipped (i / 65536) then .skipped
    else .late
  | some (false, i) =>
    if s.clk.ptp + 60 * nsPerSec < i then .far
    else if s.clk.ptp = i then .now
    else if s.clk.ptp < i then .held
    else .late

/-- The length of an I/Q sample in ns at the rate 0.25 × 2^IQRATE MS/s (R173). -/
def State.iqSampleNs (s : State) (r : Nat) : Nat := 4000 / 2 ^ min 4 (s.get (radCfg_IQRATE r))

/-- The tolerance of R63 in ns around an instant: 8 on Ethernet, one ADC sample (833) on PLC, one I/Q sample on radio; on the Gangway, whose
frames leave by Ethernet, 8 (DESIGN CHOICE, log entry 113). -/
def State.launchTol (s : State) (q : Nat) : Nat := match s.man.medium q with
  | .plc _ => 833
  | .rad r => s.iqSampleNs r
  | _ => 8

/-- Whether the instant of a held item has been missed (R65): it lies back by more than the tolerance. A crossing-time instant within
the coasted crossing that is issued late (R50), or skipped by a renumbering (R52), is not missed. -/
def State.missed (s : State) (q : Nat) : Option (Bool × Nat) → Bool
  | none => false
  | some (true, i) =>
    decide (i + s.launchTol q * 65536 / s.period + 1 < s.xt) && !s.wasSkipped (i / 65536) && !(s.coasting && i / 65536 == s.xing.num)
  | some (false, i) => decide (i + s.launchTol q < s.clk.ptp)

/-- Whether the instant of a held item still lies ahead, beyond the tolerance. -/
def State.ahead (s : State) (q : Nat) : Option (Bool × Nat) → Bool
  | none => false
  | some (true, i) => decide (s.xt + s.launchTol q * 65536 / s.period + 1 < i)
  | some (false, i) => decide (s.clk.ptp + s.launchTol q < i)

/-- Whether a renumbering skipped the instant of a held item (R52 case 1). -/
def State.dueSkipped (s : State) : Option (Bool × Nat) → Bool
  | some (true, i) => s.wasSkipped (i / 65536) && decide (i < s.xt)
  | _ => false

/-! ### Removals -/

/-- The instant that the item at the head of a launch queue is sent at: that of its hold, or of its launch word. -/
def State.headDue (s : State) (q : Nat) : Option (Bool × Nat) :=
  if (s.q q).held then (s.q q).due
  else match s.launchHead q with
    | some it => s.launchDue (it.word 0) 0
    | none => none

/-- The stamp of a launch that was attempted (R114): its instant, the other time scale from it; now where none was set. -/
def State.instantStamp (s : State) (rank : Nat) (due : Option (Bool × Nat)) : Stamp :=
  let t := s.txStamp rank false false
  match due with
  | none => t
  | some (true, i) => { t with xt := i, ptp := shiftNs s.clk.ptp (((i : Int) - (s.xt : Int)) * (s.period : Int) / 65536) }
  | some (false, i) => { t with ptp := i, xt := shiftNs s.xt (((i : Int) - (s.clk.ptp : Int)) * 65536 / ((max 1 s.period : Nat) : Int)) }

/-- The completion of an item that leaves a launch queue, by medium (R114, R195), with its flow tag (R26) and the instant attempted. -/
def State.launchDone (s : State) (q flow st : Nat) (due : Option (Bool × Nat)) : State :=
  match s.man.medium q with
  | .plc c => s.plcCompletion c flow (s.instantStamp (s.cellRank c) due) st 0
  | .rad r => s.radCompletion r flow (s.instantStamp (5 + r) due) st
  | _ => s

/-- The flow tag of the item at the head of a launch queue. -/
def State.headFlow (s : State) (q : Nat) : Nat :=
  match s.launchHead q with
  | some it => it.flow
  | none => 0

/-- The head item of a launch queue is removed without transmission, with its completion. -/
def State.dropDone (s : State) (q st : Nat) : State := (s.qDropHead q).launchDone q (s.headFlow q) st (s.headDue q)

/-- A PLC beacon at the head of a queue. -/
def State.headIsBeacon (s : State) (q : Nat) : Option Nat :=
  match s.man.medium q, s.launchHead q with
  | .plc c, some it => if beAt it.psdu 0 1 / 16 = 1 then some c else none
  | _, _ => none

/-- An item too far ahead is removed (R64). Its completion status is a free value where the medium has one. -/
def State.removeFar (s : State) (q : Nat) : State :=
  let s1 := (s.bump (xingLate_FAR q) 1).raise 29
  match s1.man.medium q with
  | .plc _ => let d := s1.draw 8; d.2.dropDone q d.1
  | .rad _ => let d := s1.draw 8; d.2.dropDone q d.1
  | _ => s1.qDropHead q

/-- A late item under DROP (R65, R138). -/
def State.removeLate (s : State) (q : Nat) : State :=
  let b := s.headIsBeacon q
  let s1 := s.dropDone q 0x05
  match b with
  | some c => s1.raise (80 + 16 * c + 1)
  | none => s1

/-! ### The start of a frame -/

/-- The start of a PLC item (R110, R112, R114, R121). -/
def State.startPlc (s : State) (q c : Nat) (late renum : Bool) : State :=
  match s.launchHead q with
  | none => s
  | some it =>
    if (s.txPhases c it.plcPhases).any fun p => (s.path p).job.isSome then s
    else if (s.txPhases c it.plcPhases).any s.driverOff then s.dropDone q 0x03
    else match s.takeMain q with
      | none => s
      | some (it, s1) => s1.plcStart c q it.flow it.plcMod it.plcPhases it.plcExtra it.plcTones it.psdu late renum false

/-- Whether a path of a cell cannot send (R121). -/
def State.cellOff (s : State) (c : Nat) : Bool := (s.txPhases c 0).any s.driverOff

/-- Whether a path of a cell sends. -/
def State.cellBusy (s : State) (c : Nat) : Bool := (s.txPhases c 0).any fun p => (s.path p).job.isSome

/-- A released class-0 item reaches the head while the driver is off: it completes with status 0x03 (R121) and has missed its window
(R165). -/
def State.refuseLane (s : State) (c q : Nat) (l : LaneItem) : State :=
  ((s.dropLane q l).plcCompletion c l.item.flow (s.txStamp (s.cellRank c) false false) 0x03 0).raiseIf (!l.missed) (80 + 16 * c + 12)

/-- A frame that the budget does not let go is counted, event 7, once for the frame (R194). -/
def State.noteDeferred (s : State) (r : Nat) (already : Bool) : State :=
  if already then s else (s.bump (radDutyUsed_DEFERRED r) 1).raise (radEvt r 7)

/-- A radio frame that the budget does not let go (R194): held at the head of its queue. -/
def State.deferRad (s : State) (q r : Nat) (it : Item) : State := ((s.noteDeferred r it.deferred).markDeferred q).holdMain q

/-- A radio frame of an item starts (R175, R177, R193 to R195, R197). An item that cannot be secured is removed with
status 0x06 (DEDUCED, log entry 34). -/
def State.startRad (s : State) (q r air : Nat) (late renum : Bool) : State :=
  match s.launchHead q with
  | none => s
  | some it =>
    if (s.port r).job.isSome then s
    else if (s.port r).tooLong air then (s.dropDone q 0x07).raise (radEvt r 8)
    else if !(s.port r).mayLaunch air false then s.deferRad q r it
    else
      let f := s.radFrame r it
      match f.1 with
      | none => f.2.dropDone q 0x06
      | some b => match f.2.takeMain q with
        | none => s
        | some (it, s1) =>
          let j : RadJob := { q := q, flow := it.flow, dst := it.radDst, kind := it.radKind, typ := beAt it.radMsg 0 1
                              seq := (s.port r).seq, dest := s.radFinal r it.radDst it.radMsg, air := air, deferred := it.deferred
                              ackReq := decide (it.radDst ≠ 0xFFFF), stamp := s.txStamp (5 + r) late renum }
          let time := it.radKind == 0 && it.radDst == 0xFFFF && j.typ == 6
          ((s1.radStart r j [] b).tellRenum (3 + r) (time && natBit (beAt it.radMsg 43 1) 1)).raiseIf time (radEvt r 14)

/-- Bytes of an Ethernet launch item, and its kind (R206): as the second word gives them. -/
def Item.ethBytes (it : Item) : List Byte := padTo (it.word 1 % 65536) (it.bytesFrom 2)

/-- A frame leaves an Ethernet port. -/
def State.sendEth (s : State) (x : Nat) (j : EthJob) : State :=
  State.emit { s with eth := { s.eth with jobs := smPut none s.eth.jobs x (some j) } } (.ethFrame x j.bytes)

/-- Where a Gangway peer is reached (R214). -/
def State.peerPlace (s : State) (p : Nat) : NetPlace :=
  if p = 0xFFFF then s.man.headPlace
  else if p = 0 then s.man.hubPlace
  else match s.chipEnrol (s.peer p).eui with
    | some c => c.place
    | none => {}

/-- The peer that runs a cell. -/
def State.peerOfCell (s : State) (n : Nat) : Option Nat :=
  (s.gwy.peers.find? fun p => decide (n ∈ p.2.cells)).map (·.1)

/-- Whether a released class-0 item waits for an Ethernet port: in the port's own lane, or in that of the Gangway for a peer that the
port reaches (R208). -/
def State.class0Waits (s : State) (x : Nat) : Bool :=
  (match (roleQ s.man.roles.ethLaunch x).bind fun q => (s.q q).releasedLane with
   | some _ => true
   | none => false) ||
  (match s.gwyQueue.bind fun q => (s.q q).releasedLane with
   | some l => (s.peerPlace ((s.peerOfCell (beAt l.item.bytes 28 1)).getD 0)).port == x
   | none => false)

/-- The next forwarded PTP frame of an egress port goes ahead of its other traffic and behind class-0 frames (R208); its Follow_Up and
every other general message unchanged. -/
def State.startFwd (s : State) (x : Nat) : State :=
  match s.eth.fwd.find? fun p => p.1 == x with
  | none => s
  | some f =>
    if (smGet none s.eth.jobs x).isSome || s.class0Waits x then s
    else
      let t := s.ethTx x false false
      let b := s.oneStep x 2 (f.2.2 % (2 ^ 32 * nsPerSec)) f.2.1 t
      State.sendEth { s with eth := { s.eth with fwd := s.eth.fwd.erase f } } x { q := 256, bytes := b, stamp := t }

/-- Whether a forwarded PTP frame waits for an egress port (R208). -/
def State.fwdWaits (s : State) (x : Nat) : Bool := s.eth.fwd.any fun p => p.1 == x

/-- An Ethernet frame of an item starts, with what is inserted on the fly (R206 to R208). -/
def State.startEth (s : State) (q x : Nat) (late renum : Bool) : State :=
  if (smGet none s.eth.jobs x).isSome then s
  else if s.fwdWaits x then s.startFwd x
  else match s.takeMain q with
    | none => s
    | some (it, s1) =>
      let t := s1.ethTx x late renum
      let b := if it.radKind = 0 then it.ethBytes else s1.oneStep x it.radKind (it.sec * nsPerSec + it.ns) it.ethBytes t
      s1.sendEth x { q := q, flow := it.flow, bytes := b, stamp := t }

/-- A UDP datagram in an Ethernet II frame over IPv4 without options, with no UDP checksum, or IPv6 (R202, R204, R214); one frame,
never a fragment. -/
def udpFrame (dmac smac : List Byte) (v6 : Bool) (own dst : List Byte) (ttl port : Nat) (d : List Byte) : List Byte :=
  let udp := be 2 port ++ be 2 port ++ be 2 (8 + d.length)
  if v6 then
    let sum := 65535 - onesSum (words16 (own ++ dst ++ be 4 (8 + d.length) ++ be 4 17 ++ udp ++ be 2 0 ++ d))
    dmac ++ smac ++ be 2 0x86DD ++ be 4 0x60000000 ++ be 2 (8 + d.length) ++ be 1 17 ++ be 1 ttl ++ own ++ dst ++ udp
      ++ be 2 (if sum = 0 then 65535 else sum) ++ d
  else
    let ip0 := be 2 0x4500 ++ be 2 (28 + d.length) ++ be 4 0 ++ be 1 ttl ++ be 1 17
    let sum := 65535 - onesSum (words16 (ip0 ++ be 2 0 ++ own ++ dst))
    dmac ++ smac ++ be 2 0x0800 ++ ip0 ++ be 2 sum ++ own ++ dst ++ udp ++ be 2 0 ++ d

/-- The chip's MAC address at a port. -/
def State.macOf (s : State) (x : Nat) : List Byte := padTo 6 (smGet [] s.man.macs x)

/-- The chip's IP address of a version. -/
def State.ownIp (s : State) (v6 : Bool) : List Byte :=
  let n := if v6 then 16 else 4
  (s.man.ipAddrs.find? fun a => a.length == n).getD (be n 0)

/-- A Gangway message to a peer as a frame (R214): UDP over the version of IPVER, from and to PORT. -/
def State.gwyFrame (s : State) (p : Nat) (d : List Byte) : List Byte :=
  let n := s.peerPlace p
  let v6 := s.flag gwyCfg_IPVER
  udpFrame (padTo 6 n.mac) (s.macOf n.port) v6 (s.ownIp v6) (padTo (if v6 then 16 else 4) n.ip) 64 (s.get gwyCfg_PORT) d

/-- Whether an item of the Gangway launch queue needs no place any more (R224): it is gone, unreliable, or acknowledged. -/
def State.gwyFinished (s : State) (it : Item) : Bool :=
  let b := it.ethBytes
  it.gone || !natBit (beAt b 2 1) 0 || beAt b 1 1 == 1 || !((s.peer it.radDst).out.any fun m => m.seq == beAt b 8 4)

/-- A retained Gangway launch queue releases its messages up to the first that is still to be acknowledged (R224, R399). -/
def State.gwySettle (s : State) : State :=
  match s.gwyQueue with
  | none => s
  | some q =>
    let x := s.q q
    let done := ((x.items.take ((x.front + 2 ^ 32 - x.mark) % 2 ^ 32)).takeWhile s.gwyFinished).getLast?
    match done with
    | none => s
    | some it => s.qRelease q false it.iseq

/-- A Gangway message of an item leaves by the Ethernet port that reaches its peer (R214, R219, R223). -/
def State.startGwy (s : State) (q : Nat) (late renum : Bool) : State :=
  match s.launchHead q with
  | none => s
  | some it =>
    let x := (s.peerPlace it.radDst).port
    if (smGet none s.eth.jobs x).isSome then s
    else if s.fwdWaits x then s.startFwd x
    else match s.takeMain q with
      | none => s
      | some (it, s1) =>
        let j : EthJob := { q := q, flow := it.flow, bytes := s1.gwyFrame it.radDst it.ethBytes, stamp := s1.ethTx x late renum }
        ((((s1.sendEth x j).ackCarried it.radDst it.ethBytes).gwySettle).raiseIf (beAt it.ethBytes 1 1 == 3) 176)

/-- The main item at the head of a queue starts on its medium. -/
def State.startMain (s : State) (q air : Nat) (late renum : Bool) : State :=
  match s.man.medium q with
  | .plc c => s.startPlc q c late renum
  | .rad r => s.startRad q r air late renum
  | .eth x => s.startEth q x late renum
  | .gwy => s.startGwy q late renum
  | .other => s

/-- A class-0 item of a lane goes out on radio, as a CLASS0 broadcast, or on the Gangway (R194, R212, R401). -/
def State.startLane (s : State) (q air : Nat) (l : LaneItem) : State :=
  match s.man.medium q with
  | .rad r =>
    let cl := s.cell (3 + r)
    let n := (cl.cseq + 1) % 2 ^ 32
    let msg := radMsg 9 (be 4 n ++ padTo 20 (slice l.item.bytes 32 20))
    if (s.port r).job.isSome then s
    else if (s.port r).tooLong air then ((s.dropLane q l).radCompletion r 0 (s.txStamp (5 + r) false false) 0x07).raise (radEvt r 8)
    else if !(s.port r).mayLaunch air false then
      let s1 := s.noteDeferred r l.deferred
      s1.setQ q { s1.q q with lane := (s1.q q).lane.map fun k => if k = l then { k with deferred := true } else k }
    else
      let s0 := (s.setCell (3 + r) { cl with cseq := n }).dropLane q l
      let f := s0.secure r 1 0xFFFF msg false
      let j : RadJob := { q := q, dst := 0xFFFF, typ := 9, seq := (s.port r).seq, dest := 0xFFFF, air := air, deferred := l.deferred
                          stamp := s.txStamp (5 + r) false false }
      match f.1 with
      | some b => f.2.radStart r j [] b
      | none => f.2.radCompletion r 0 j.stamp 0x06
  | .gwy =>
    let d := l.item.bytes.take (44 + beAt l.item.bytes 24 2)
    let p := (s.peerOfCell (beAt d 28 1)).getD 0
    let x := (s.peerPlace p).port
    if (smGet none s.eth.jobs x).isSome then s
    else ((s.dropLane q l).sendEth x { q := q, flow := l.item.flow, bytes := s.gwyFrame p d, stamp := s.ethTx x false false }).ackCarried p d
  | .eth x =>
    if (smGet none s.eth.jobs x).isSome then s
    else (s.dropLane q l).sendEth x { q := q, flow := l.item.flow, bytes := l.item.bytes, stamp := s.ethTx x false false }
  | _ => s

/-- The units of a cover (R191), cut from its start to what MAX_DWELL leaves beside the data frame (R195). -/
def State.coverCut (s : State) (r air len : Nat) : Nat :=
  let n := coverUnits (s.phy r) len
  let dwell := bitsOf (s.port r).dwell 15 0 * 1000
  if dwell = 0 then n else min n ((dwell - air) / unitUs (s.phy r))

/-- A stamp some ns later. -/
def State.later (s : State) (t : Stamp) (ns : Nat) : Stamp := { t with ptp := t.ptp + ns, xt := t.xt + ns * 65536 / s.period }

/-- An item of a queue by its sequence leaves it. -/
def State.spendIseq (s : State) (q k : Nat) : State :=
  match (List.range (s.q q).items.length).find? fun i => ((s.q q).items.getD i {}).iseq == k && !((s.q q).items.getD i {}).gone with
  | some i => s.spend q i
  | none => s

/-- A cover transmission starts (R191, R193 to R195): WHOLE, TRUNC and UNITS; events 4 and 5. Its stamp is that of the data frame behind
its preamble or train (R175); a data frame that exceeds MAX_DWELL by itself is removed (R195). -/
def State.startCover (s : State) (q r air : Nat) (c : Cover) : State :=
  match ((s.q q).items.find? fun it => it.iseq == c.iseq && !it.gone && !it.done && it.radDst == c.addr) with
  | none => s
  | some it =>
    let n := s.coverCut r air c.len
    let total := n * unitUs (s.phy r) + air
    if (s.port r).job.isSome then s
    else if (s.port r).tooLong air then
      ((((s.spendIseq q c.iseq).dropCover r c.addr).radCompletion r it.flow (s.txStamp (5 + r) false false) 0x07)).raise (radEvt r 8)
    else if !(s.port r).mayLaunch total false then
      let s1 := s.noteDeferred r c.deferred
      s1.setPort r { s1.port r with cover := some { c with deferred := true } }
    else
      let f := s.radFrame r it
      match f.1 with
      | none => f.2
      | some b =>
        let j : RadJob := { q := q, flow := it.flow, dst := c.addr, kind := it.radKind, typ := beAt it.radMsg 0 1
                            seq := (s.port r).seq, iseq := some it.iseq, air := total, dest := s.radFinal r c.addr it.radMsg
                            deferred := c.deferred, ackReq := true, cover := true
                            stamp := s.later (s.txStamp (5 + r) false false) (coverLeadNs (s.phy r) n) }
        let lead := f.2.coverLead r c.addr n
        let s1 := ((lead.2.set (radSlLast_WHOLE r) (ofBool c.whole)).set (radSlLast_TRUNC r)
          (ofBool (decide (n < coverUnits (s.phy r) c.len)))).setSat (radSlLast_UNITS r) n
        ((s1.radStart r j lead.1 b).raise (radEvt r 4)).raiseIf c.whole (radEvt r 5)

end Sys2Proof.Machine
end

