-- ==== Sys2Proof/Machine/EthOps.lean ====
section
/-!
DEFINITION. Ethernet and PTP as shared operations (07_ethernet_gangway.md): UDP parsing, PTP settings and frames.
-/
namespace Sys2Proof.Machine

/-! ### Parsing -/

/-- Where a frame's network header begins: one 802.1Q tag at most (R202). -/
def netOffset (b : List Byte) : Nat := if beAt b 12 2 = 0x8100 then 18 else 14

/-- EtherType behind a tag. -/
def etherType (b : List Byte) : Nat := if beAt b 12 2 = 0x8100 then beAt b 16 2 else beAt b 12 2

/-- An IP fragment (R214). -/
def isFragment (b : List Byte) : Bool :=
  let h := netOffset b
  (etherType b == 0x0800 && decide (beAt b (h + 6) 2 % 0x8000 &&& 0x3FFF ≠ 0)) || (etherType b == 0x86DD && beAt b (h + 6) 1 == 44)

/-- Destination address, destination port and payload of a UDP datagram over IPv4 without options or IPv6 without extension
headers (R202). -/
def udpOf (b : List Byte) : Option (List Byte × Nat × List Byte) :=
  let h := netOffset b
  if etherType b = 0x0800 ∧ beAt b h 1 = 0x45 ∧ beAt b (h + 9) 1 = 17 then
    some (slice b (h + 16) 4, beAt b (h + 22) 2, slice b (h + 28) (beAt b (h + 24) 2 - 8))
  else if etherType b = 0x86DD ∧ beAt b (h + 6) 1 = 17 then
    some (slice b (h + 24) 16, beAt b (h + 42) 2, slice b (h + 48) (beAt b (h + 44) 2 - 8))
  else none

/-- Whether a datagram is Gangway traffic for this chip (R211, R214). -/
def State.gwyPayload (s : State) (b : List Byte) : Option (List Byte) :=
  match udpOf b with
  | some (a, p, d) => if p = s.get gwyCfg_PORT ∧ a ∈ s.man.ipAddrs then some d else none
  | none => none

/-- A frame with a second 802.1Q tag behind the first, which no port accepts (R202). -/
def twoTags (b : List Byte) : Bool := beAt b 12 2 == 0x8100 && beAt b 16 2 == 0x8100

/-- Whether a Gangway payload is a class-0 frame by its header (R211 rows 3 and 4). -/
def isClass0 (d : List Byte) : Bool := beAt d 1 1 == 7 && natBit (beAt d 2 1) 2

/-! ### PTP settings -/

/-- Fields of the PTP settings in force, with the choices of the power utility profile (R205). -/
def State.ptpProfile (s : State) : Bool := bitsOf s.eth.cfg 0 0 == 1
/-- domainNumber. -/
def State.ptpDomain (s : State) : Nat := if s.ptpProfile then 0 else bitsOf s.eth.cfg 31 24
/-- P2P delay. -/
def State.ptpP2p (s : State) : Bool := s.ptpProfile || bitsOf s.eth.cfg 7 7 == 1
/-- TRANSPORT. -/
def State.ptpTransport (s : State) : Nat := if s.ptpProfile then 0 else bitsOf s.eth.cfg 9 8
/-- Two-step. -/
def State.ptpTwo (s : State) : Bool := bitsOf s.eth.cfg 6 6 == 1
/-- CLOCK. -/
def State.ptpClock (s : State) : Nat := bitsOf s.eth.cfg 5 4
/-- TC_EN. -/
def State.ptpTc (s : State) : Bool := bitsOf s.eth.cfg 10 10 == 1

/-- Whether a port runs an ordinary or boundary clock. -/
def State.ptpPort (s : State) (x : Nat) : Bool :=
  (s.ptpClock == 0 && x == 0) || (s.ptpClock == 1 && x == 1) || s.ptpClock == 2

/-- The portState of a port. -/
def State.ptpState (s : State) (x : Nat) : Nat := if x = 0 then s.get ptpStat_STATE_A else s.get ptpStat_STATE_B

/-- A port changes state: event 164. -/
def State.setPtpState (s : State) (x st : Nat) : State :=
  if s.ptpState x = st then s
  else (s.set (if x = 0 then ptpStat_STATE_A else ptpStat_STATE_B) st).raise 164

/-! ### PTP frames -/

/-- The clock identity: the chip's EUI-64. -/
def State.clockId (s : State) : List Byte := be 8 s.fuses.eui

/-- The log message interval of a message type (R205): 1 s for Sync; Announce every second under the power utility profile, every
2 s under the default profile; 0x7F where IEEE 1588 states none (PRESUMED values of the profiles, log entry 36). -/
def State.ptpInterval (s : State) (typ : Nat) : Nat :=
  if typ = 0 ∨ typ = 8 ∨ typ = 9 then 0
  else if typ = 0xB then (if s.ptpProfile then 0 else 1)
  else 0x7F

/-- A PTP header of IEEE 1588-2019: type, flags, correction, source port, sequence, control, log interval. -/
def State.ptpHeader (s : State) (x typ len flags : Nat) (corr : Int) (seq : Nat) : List Byte :=
  be 1 typ ++ be 1 2 ++ be 2 len ++ be 1 s.ptpDomain ++ be 1 0 ++ be 2 flags ++ be 8 (ofSigned 64 corr) ++ be 4 0
    ++ s.clockId ++ be 2 (x + 1) ++ be 2 seq
    ++ be 1 ([0, 1, 5, 5, 5, 5, 5, 5, 2, 3, 5, 5].getD typ 5) ++ be 1 (s.ptpInterval typ)

/-- The port identity of a port of this clock. -/
def State.portId (s : State) (x : Nat) : List Byte := s.clockId ++ be 2 (x + 1)

/-- Whether a PTP message is one for this clock (R204): its domain and the transport of its frame are those in force. -/
def State.ptpMine (s : State) (b : List Byte) (o : Nat) : Bool :=
  let t := etherType b
  beAt b (o + 4) 1 == s.ptpDomain &&
    (if t = 0x88F7 then s.ptpTransport == 0 else if t = 0x0800 then s.ptpTransport == 1 else s.ptpTransport == 2)

/-- A PTP message in the frame of its transport (PRESUMED addresses of IEEE 1588, log entry 36). -/
def State.ptpFrame (s : State) (x : Nat) (m : List Byte) : List Byte :=
  let typ := beAt m 0 1 % 16
  let peer := typ = 2 ∨ typ = 3 ∨ typ = 10
  let port := if typ < 4 then 319 else 320
  if s.ptpTransport = 1 then
    udpFrame (be 6 (if peer then 0x01005E00006B else 0x01005E000181)) (s.macOf x) false (s.ownIp false)
      (be 4 (if peer then 0xE000006B else 0xE0000181)) 1 port m
  else if s.ptpTransport = 2 then
    udpFrame (be 6 (if peer then 0x33330000006B else 0x333300000181)) (s.macOf x) true (s.ownIp true)
      (be 16 (if peer then 0xFF02 * 2 ^ 112 + 0x6B else 0xFF0E * 2 ^ 112 + 0x181)) 1 port m
  else be 6 (if peer then 0x0180C200000E else 0x011B19000000) ++ s.macOf x ++ be 2 0x88F7 ++ m

/-- A frame queued at a port; kind as one-step insertion needs it, the stamp where an answer counts from it. -/
def State.queueEth (s : State) (x kind : Nat) (t : Option Stamp) (b : List Byte) : State :=
  match roleQ s.man.roles.ethLaunch x with
  | some q =>
    let it := s.wordItem 0 (0 :: radDescK 0 kind b.length :: dwords b)
    let it1 := match t with
      | some k => { it with sec := (k.ptp / nsPerSec) % 2 ^ 32, ns := k.ptp % nsPerSec }
      | none => it
    s.produce (.oarsman 6 0) q it1
  | none => s

/-- The next sequence number of a port's messages of a type. -/
def State.ptpSeq (s : State) (x typ : Nat) : Nat × State :=
  let k := x * 16 + typ
  let n := smGet 0 s.eth.seqs k
  (n, { s with eth := { s.eth with seqs := smPut 0 s.eth.seqs k ((n + 1) % 65536) } })

/-- A timestamp field of 10 bytes. -/
def ptpTime (t : Nat) : List Byte := be 6 (t / nsPerSec) ++ be 4 (t % nsPerSec)

/-- This clock's own comparison key: priority 1, clock quality, priority 2, identity, steps removed; the same under both profiles
(PRESUMED defaults of IEEE 1588 and of the power utility profile, log entry 36). -/
def State.ownKey (s : State) : Nat := ofBe (be 1 128 ++ be 1 248 ++ be 1 0xFE ++ be 2 0xFFFF ++ be 1 128 ++ s.clockId ++ be 2 0)

/-- The Announce body: UTC offset, and the key of the selected master one step further, else this clock's own (PRESUMED from
IEEE 1588, log entry 36). -/
def State.announceBody (s : State) : List Byte :=
  be 10 0 ++ be 2 (s.get xingUtcOfs_OFFSET) ++ be 1 0 ++ be 16 (if s.eth.master = 0 then s.ownKey else s.eth.master / 2 ^ 80 + 1)
    ++ be 1 0xA0

/-- No master is selected any more: event 165 where one was (R229). -/
def State.dropMaster (s : State) : State :=
  if s.eth.master = 0 then s else State.raise { s with eth := { s.eth with master := 0 } } 165

/-- A message of this clock (R204, R206). Types 0 Sync, 1 Delay_Req, 2 Pdelay_Req, 0xB Announce. -/
def State.ptpSend (s : State) (x typ : Nat) : State :=
  let n := s.ptpSeq x typ
  let s1 := n.2
  let two := typ = 0 ∧ s1.ptpTwo
  let body := if typ = 0xB then s1.announceBody else if typ = 2 then be 20 0 else be 10 0
  let flags := if two then 0x0200 else if typ = 0xB then 0x0008 else 0
  let m := s1.ptpHeader x typ (34 + body.length) flags 0 n.1 ++ body
  s1.queueEth x 1 none (s1.ptpFrame x m)

/-! ### The firmware queue -/

/-- A frame into a port's firmware receive queue (R202). -/
def State.ethToFirmware (s : State) (x : Nat) (t : Stamp) (b : List Byte) : State :=
  match roleQ s.man.roles.ethRx x with
  | some q => s.rxEnqueue .launchUnit q (mkItem 0 t (t.bytes ++ be 2 b.length ++ be 2 0 ++ b))
  | none => s

end Sys2Proof.Machine
end

