-- ==== Sys2Proof/Machine/SnapOps.lean ====
section
/-!
DEFINITION. Snapshot crossings (05_plc_cell_protocol.md: R157 to R162) and the cells that a chip runs.
-/
namespace Sys2Proof.Machine

/-- The cells this chip runs, in its cell order: PLC cells, then the radio ports in use. -/
def State.ownCells (s : State) : List Nat :=
  s.plcCells ++ ([0, 1].filter fun r => s.flag (radCfg_EN r)).map (3 + ·)

/-- The state with the cell number of a cell (R8). -/
def State.setCellNo (s : State) (c n : Nat) : State :=
  if c < 3 then s.set (plcCellCfg_CELL c) n else s.set (radCfg_CELL (c - 3)) n

/-- A chip that no hub numbers gives its own cells the numbers from 0 on, in its cell order (R6, R9 level 4; DESIGN CHOICE, log entry 86). -/
def State.numberCells (s : State) : State :=
  if s.underHub then s else (List.zipIdx s.ownCells).foldl (fun st p => st.setCellNo p.1 p.2) s

/-- What PLC_SNAP shows for a cell. -/
def State.showSnap (s : State) (valid : Bool) (c : Nat) : State :=
  (((s.set (plcSnapHi_VALID c) (ofBool valid)).set (plcSnapHi_LOCAL c) (ofBool (valid && s.plc.snapLocal))).set
    (plcSnapHi_N_HI c) (s.plc.snapN / 2 ^ 32)).setReg (plcSnapLo c) (BitVec.ofNat 32 s.plc.snapN)

/-- Once N is fixed, each sleepy endpoint of the radio ports is due a unicast TIME at its next data request, for which the chip
sets FORCE (R197). -/
def State.timeDue (s : State) : State :=
  [0, 1].foldl (fun (st : State) r =>
    let p := st.port r
    let l := (p.nodes.filter fun n => n.2.isSome && st.isSleepy r n.1).map (·.1)
    let s1 := l.foldl (fun (st : State) a => match st.rnode r a with
      | some n => st.setRnode r a (some { n with timeDue := true })
      | none => st) st
    s1.setPort r { s1.port r with force := l.foldl addMem (s1.port r).force }) s

/-- A snapshot crossing is fixed for a quarter-hour boundary (R159, R160): it joins the last 96, event 80 + 16c + 2. -/
def State.fixSnap (s : State) (n b : Nat) (loc : Bool) : State :=
  let s1 := { s with plc := { s.plc with snapN := n, snapB := b, snapLocal := loc
                                         snaps := ((n, b) :: s.plc.snaps).take 96 } }
  (s1.plcCells.foldl (fun st c => (st.showSnap true c).raise (80 + 16 * c + 2)) s1).timeDue

/-- A hub value that comes after the cell fixed its own (R160). -/
def State.snapClash (s : State) (n : Nat) : State :=
  s.plcCells.foldl (fun st c => st.raiseLog (80 + 16 * c + 15) (be 6 n ++ be 6 s.plc.snapN)) s

/-- ATTACH (R217): outside the reliable spaces, SEQ equal to FIRST_SEQ, sender 0xFFFE. -/
def State.sendAttach (s : State) : State :=
  let x := { s.peer 0 with keygen := s.newestGen s.man.linkKey, ack := 0, map := 0 }
  let s1 : State := { s.setPeer 0 x with gwy := { (s.setPeer 0 x).gwy with attach := 1, chip := 0xFFFE } }
  let body := be 8 s.fuses.eui ++ be 8 s.fingerprint ++ be 1 s.ownCells.length ++ be 3 0 ++ be 4 x.relNext
  s1.gwyPut 0 0 (s1.gwyBytes 0 1 1 x.relNext body)

/-- At start-up a cell-role chip with a hub in its Manifest attaches (R217). -/
def State.attachStart (s : State) : State := if s.underHub then s.sendAttach else s

/-- The frequency of the mains in 2^-16 Hz, from XING_PERIOD. -/
def State.freq16 (s : State) : Nat := 65536 * nsPerSec / s.period

/-- The BATCH messages of a batch, in order (Gangway messages table). -/
def State.sendParts (s : State) (p : Nat) (id : Option Nat) (b : List Byte) : State :=
  (List.range ((b.length + 1399) / 1400)).foldl (fun st k =>
    st.gwyReliable p 5 (be 4 (1400 * k) ++ be 4 b.length ++ slice b (1400 * k) 1400) id) s

end Sys2Proof.Machine
end

