-- ==== Sys2Proof/Machine/SignOps.lean ====
section
/-!
DEFINITION. Signing indices (20_keys_attestation.md: R486 to R489) and the slots that persist (R482).
-/
namespace Sys2Proof.Machine

/-- Tables of the stored content: persistent slots, the signing reservation. -/
def tabKeys : Nat := 8
/-- The reservation record: R. -/
def tabResv : Nat := 9

/-- READY of KEY_ID_STAT: the identity key is there and signing is possible. -/
def State.idReady (s : State) : Bool := s.flag keyIdStat_READY

/-- The first index past an epoch. -/
def epochEnd (e : Nat) : Nat := (e + 1) * 2 ^ 34

/-- Whether no index is left in epoch 63 (R489). -/
def State.noIndex (s : State) : Bool := decide (epochEnd 63 ≤ s.keys.next)

/-- Whether an index may sign now (R488, R489): the start-up has set R, a reservation record above its block is durable, and no tree is
being built. -/
def State.maySign (s : State) (idx : Nat) : Bool :=
  s.pwr.mounted && decide (idx / 4096 < s.img.rowN tabResv 0 0) && !s.keys.treeWait

/-- Whether the oldest closed batch is being signed: the identity key exists, its index may sign, and the batch's groups are durable (R257,
R356, R488). -/
def State.batchSignable (s : State) : Bool :=
  match s.val.closed, smGet [] s.live.tables tabClosed with
  | _ :: _, (j, _) :: _ => s.idReady && !s.noIndex && s.maySign s.keys.next && decide (j ≤ s.cmt.durJseq)
  | _, _ => false

/-- A reservation (R488): the record, its copy in the always-on domain, event 462. -/
def State.reserve (s : State) (r : Nat) : State :=
  let s1 := s.journalUpd [.record tabResv 0 [r]]
  State.raise { s1 with keys := { s1.keys with reserved := r }, aon := { s1.aon with reservation := r } } 462

/-- The next signing epoch (R489): its fuse is blown, indices begin at its first block, event 463 and a Logbook record; the
new bottom tree is built. -/
def State.nextEpoch (s : State) : State :=
  let e := min 63 (s.fuses.epoch + 1)
  let s1 : State := { s with fuses := { s.fuses with epoch := e }
                             keys := { s.keys with next := e * 2 ^ 34, treeWait := true, lowSeen := false } }
  ((((s1.set keyIdStat_EPOCH e).set keyIdStat_READY 0).set keyIdStat_GENERATING 1).raiseLog 463 (be 1 e)).reserve (e * 2 ^ 22 + 1)

/-- The next index is taken (R488, R489): at offset 3,072 of its block the next but one block is reserved; fewer than 2^24
left raise event 468 once; past the last index of an epoch the next one begins, and past that of epoch 63 nothing can sign. -/
def State.takeIndex (s : State) : Nat × State :=
  let i := s.keys.next
  let s1 : State := { s with keys := { s.keys with next := i + 1 } }
  let s2 := if i % 4096 = 3072 then s1.reserve (i / 4096 + 2) else s1
  let low := decide (epochEnd s.fuses.epoch - (i + 1) < 2 ^ 24) && !s2.keys.lowSeen
  let s3 := State.raiseIf { s2 with keys := { s2.keys with lowSeen := s2.keys.lowSeen || low } } low 468
  (i, if i + 1 = epochEnd s.fuses.epoch then (if s.fuses.epoch < 63 then s3.nextEpoch else s3.set keyIdStat_READY 0) else s3)

/-- A signature of the identity key at an index (R486). -/
def State.idSign (s : State) (idx : Nat) (m : List Byte) : List Byte := xmssMtSign (s.slot 0).key (s.slot 1).key idx m

/-- The stored record of a persistent slot (R482): the attribute word and the key, that of an open slot wrapped under the device root key,
filled to 64 bytes (DESIGN CHOICE, log entry 139). -/
def State.slotRow (s : State) (x : Slot) : List Nat :=
  x.attr.toNat :: (if x.isSealed then nums x.key else nums (aesWrap s.fuses.rootKey (padTo 64 x.key)))

/-- A slot read back from its stored record, none where that does not unwrap; LOCKED is cleared (R482). -/
def State.slotOfRow (s : State) (r : List Nat) : Option Slot :=
  let x : Slot := { attr := BitVec.ofNat 32 (r.headD 0) &&& ~~~ maskOf 27 27 }
  if x.isSealed then some { x with key := bytesOf r.tail }
  else (aesUnwrap s.fuses.rootKey (bytesOf r.tail)).map fun k => { x with key := k.take x.len }

/-- Operations on persistent slots whose record is durable end (R483). -/
def State.keysDurable (s : State) : State :=
  let done := s.keys.waits.filter fun w => decide (w.2 ≤ s.cmt.durJseq)
  let s1 := done.foldl (fun (st : State) w =>
    st.setReg (keyCmdStat + 2 ^ 32 * (1 + w.1)) 0) s
  { s1 with keys := { s1.keys with waits := s1.keys.waits.filter fun w => decide (s.cmt.durJseq < w.2) } }

end Sys2Proof.Machine
end

