-- ==== Sys2Proof/Machine/SiteOps.lean ====
section
/-!
DEFINITION. The chip's own site record (10_balance.md: R286): its registration and its records.
-/
namespace Sys2Proof.Machine


/-- Where the chip's own EUI-64 registers (R286): the site slot, or on a hub an ordinary one. -/
def State.siteRoom (s : State) : Option Nat := if s.isHub then s.freeSlot else some s.siteSlot

/-- The chip's own EUI-64 is registered without a join (R286): on a hub under an ordinary index, else in the site slot; under a
hub the hub assigns the index. -/
def State.putSite (s : State) (r : List Byte) (slot : Nat) : State :=
  let st := if s.underHub then 2 else 1
  let cell := s.cellNo (s.plcCells.headD 0)
  let s1 := (s.ctxPut slot 0 (newContext r (if s.underHub then 0 else slot) st cell 0 0 0 s.ptpSec)).recount
  if s.underHub then s1.gwyReliable 0 0x09 (registerBody s.fuses.eui cell 0 0) none else s1.raise 224

/-- Registration of the chip's own EUI-64 where it is enrolled and not yet registered. -/
def State.registerSite (s : State) : State :=
  match s.liveSlot s.fuses.eui, s.enrolment s.fuses.eui, s.siteRoom with
  | none, some r, some k => s.putSite r k
  | _, _, _ => s

/-- Start-up (R286): a chip whose own EUI-64 is not enrolled writes one Logbook record. -/
def State.startSite (s : State) : State :=
  if (s.enrolment s.fuses.eui).isSome then s.registerSite else s.logEvt 245 (be 8 s.fuses.eui)

/-- The CRR of the site (R286). -/
def State.siteCrr (s : State) (n seq : Nat) (regs : List Nat) : List Byte :=
  let x := be 1 0x12 ++ be 1 (2 * ofBool s.coasting) ++ be 8 s.fuses.eui ++ be 4 seq ++ be 6 n
    ++ regs.flatMap (fun r => be 6 (r / 1000)) ++ be 2 (8 * s.get metStatus_CAL_LOST) ++ be 2 0
  x ++ tagOf ((s.keyFor (s.get balSite_KEY_SLOT) 0).getD []) x 16 "CRR1"

/-- The key under which the stored content keeps the site's sequence (R286, as R178). -/
def siteSeqKey : Nat := 16

/-- With EMIT set, a site record is built from a latched set and handed to the pipeline with the rank-7 stamp of the latch (R61, R286):
event 245. -/
def State.siteEmit (s : State) (n : Nat) (regs : List Nat) : State :=
  if !s.flag balSite_EMIT then s
  else
    let q := s.bal.siteSeq + 1
    let v : VRec := { bytes := s.siteCrr n q regs, stamp := s.met.latchStamp, cell := siteCell }
    let s1 : State := { s with bal := { s.bal with siteSeq := q } }
    let s2 := if q % 1024 = 0 then s1.journalUpd [.record tabFcnt siteSeqKey [q]] else s1
    let s3 := (State.raise { s2 with val := { s2.val with entries := s2.val.entries ++ [v] } } 245)
    s3.enterWaiting 1

end Sys2Proof.Machine
end

