-- ==== Sys2Proof/Machine/BalOps.lean ====
section
/-!
DEFINITION. The balance engine as shared operations (10_balance.md): slots, intervals, nodes, loss, alarms, bypass.
-/
namespace Sys2Proof.Machine

/-! ### Records and nodes -/

/-- The balance record of a context slot. -/
def State.brec (s : State) (k : Nat) : BRec := smGet {} s.bal.recs k

/-- The state with a balance record. -/
def State.setBrec (s : State) (k : Nat) (b : BRec) : State :=
  { s with bal := { s.bal with recs := smPut {} s.bal.recs k b } }

/-- A node's state. -/
def State.bnode (s : State) (n : Nat) : BNode := smGet {} s.bal.nodes n

/-- The state with a node's state. -/
def State.setBnode (s : State) (n : Nat) (b : BNode) : State :=
  { s with bal := { s.bal with nodes := smPut {} s.bal.nodes n b } }

/-- A node of the Manifest's tree. -/
def Manifest.node (m : Manifest) (n : Nat) : Option NodeCfg := smGet none m.nodes n


/-- The balance record set forward to a quarter (R288 step 1): the slots between become empty. -/
def BRec.advance (b : BRec) (q : Nat) : BRec :=
  if q ≤ b.qNew then b
  else
    let gone := (List.range 96).filter fun i => decide (96 ≤ q - b.qNew) || decide ((i + 96 - (b.qNew + 1) % 96) % 96 < q - b.qNew)
    { b with qNew := q, st := b.st.filter fun p => p.1 ∉ gone, unc := b.unc.filter (· ∉ gone)
             selfFix := b.selfFix.filter (· ∉ gone) }

/-- STATE of a slot: 0 empty, 1 real, 2 estimated, 3 estimate stands. -/
def BRec.slotState (b : BRec) (i : Nat) : Nat := smGet 0 b.st i

/-- A slot filled with a reading. -/
def BRec.fill (b : BRec) (i v : Nat) (unc selfFix : Bool) : BRec :=
  { b with st := smPut 0 b.st i 1, reg := smPut 0 b.reg i (v % 2 ^ 32)
           unc := if unc then addMem b.unc i else b.unc, selfFix := if selfFix then addMem b.selfFix i else b.selfFix }

/-- The snapshot crossing nearest to a crossing number, with its boundary. -/
def snapFor (snaps : List (Nat × Nat)) (n : Nat) : Option (Nat × Nat) :=
  snaps.foldl (fun best p => match best with
    | none => some p
    | some b => if max p.1 n - min p.1 n < max b.1 n - min b.1 n then some p else some b) none

/-- Whether a record of a quarter is late (R288, R289): the quarter has been evaluated, or is being, or waits for its evaluation and the
item is not earlier than the crossing of its deadline. -/
def State.balLate (s : State) (q : Nat) (t : Stamp) : Bool :=
  decide (q ≤ s.bal.evalQ) || (s.bal.run.any fun r => decide (q ≤ r.q)) ||
    s.bal.due.any fun d => !t.earlier d.2 && s.plc.snaps.any fun p => p.1 == d.1 && p.2 / 900 == q

/-- A record into its quarter's slot (R288 steps 1 to 3); `t` is the stamp of its item. A late reading leaves a real slot of a member as
it is (DEDUCED, log entry 124). -/
def State.balSlot (s : State) (k q v : Nat) (unc selfFix : Bool) (t : Stamp) : State :=
  let b := (s.brec k).advance q
  let i := q % 96
  if q + 96 ≤ b.qNew then s
  else if !s.balLate q t then
    (if b.slotState i = 0 then s.setBrec k (b.fill i v unc selfFix) else s.setBrec k b)
  else
    let s1 := (s.bump balStat_LATE 1).raise 247
    if s.man.isRef (s.epIndex k) then
      (if b.slotState i = 0 then s1.setBrec k (b.fill i v unc selfFix) else s1.setBrec k b)
    else if b.slotState i = 1 then s1.setBrec k b
    else s1.setBrec k { b with st := smPut 0 b.st i 3 }

/-- A forwarded record as the engine takes it (R288): verdict 0x00 with KIND 0x2, or 0x03; others are ignored. -/
def State.balRecord (s : State) (b : List Byte) (t : Stamp) : State :=
  let k := beAt b 0 4
  let verdict := beAt b 8 1
  let r := b.drop 32
  let kind := beAt r 0 1
  if kind ≠ 0x12 ∨ ¬ (verdict = 0 ∨ verdict = 3) then s
  else match snapFor s.plc.snaps (beAt r 14 6) with
    | none => s
    | some (_, bt) =>
      let net := beAt r 20 6 + 2 ^ 48 - beAt r 26 6
      s.balSlot k (bt / 900) net (natBit (beAt r 44 2) 3) (verdict == 3) t

/-- Items of the balance queue are taken, oldest first, those of a later stamp than a crossing's left (R288, R289). -/
def State.balDrain (t : Stamp) (q : Nat) : Nat → State → State
  | 0, s => s
  | fuel + 1, s => match s.deliver q with
    | none => s
    | some (it, s1) =>
      if t.earlier it.order then s
      else State.balDrain t q fuel (if it.poisoned then s1 else s1.balRecord it.bytes it.order)

/-! ### Intervals and nodes -/

/-- The map entry of an endpoint (R285): BAL_MAP entry 4 × CELL + PHASE; none for 0x1FFF. -/
def State.mapNode (s : State) (cell phase : Nat) : Option Nat :=
  let e := 4 * cell + phase
  let v := if e % 2 = 0 then s.get (balMap_EVEN (e / 2)) else s.get (balMap_ODD (e / 2))
  if v = 0x1FFF then none else some v

/-- The member node of an endpoint (R284, R285). -/
def State.memberNode (s : State) (k : Nat) : Option Nat :=
  if s.epState k ≠ 1 ∨ s.man.isRef (s.epIndex k) then none
  else if (s.brec k).ovr ≠ 0xFFFF then some (s.brec k).ovr
  else s.mapNode (s.epCell k) (s.ctxAt k 15 1 % 4)

/-- NODE and NODE_SINCE follow the member node at an evaluation of a quarter (R285); an endpoint that is not registered any more has none. -/
def State.moveMembers (s : State) (q : Nat) : State :=
  s.ctxSlots.foldl (fun st k =>
    let m := (st.memberNode k).getD 0xFFFF
    let b := st.brec k
    if b.node = m then st else st.setBrec k { b with node := m, since := q % 65536 }) s

/-- An s32 value, wrapped (two's complement). -/
def wrap32 (i : Int) : Int := toSigned 32 (ofSigned 32 i)

/-- Interval (R290): the record after it, the energy in mWh, whether it is estimated. -/
def BRec.interval (b : BRec) (i delta : Nat) : BRec × Int × Bool :=
  let p := (i + 95) % 96
  if b.slotState i = 1 ∧ b.slotState p ≠ 0 then
    let d := toSigned 32 (smGet 0 b.reg i + 2 ^ 32 - smGet 0 b.reg p)
    let x := wrap32 (Int.tdiv (d * 65536) (delta : Int))
    let b1 := if b.slotState p = 1 then
        (if b.meanValid then { b with mean := wrap32 (b.mean + Int.tdiv (wrap32 (x - b.mean)) 8) }
         else { b with mean := x, meanValid := true })
      else b
    (b1, d * 1000, false)
  else
    let d := wrap32 (Int.tdiv (b.mean * (delta : Int)) 65536)
    let b1 := if b.slotState i = 0 ∧ b.slotState p ≠ 0 then
        { b with reg := smPut 0 b.reg i (ofSigned 32 (((smGet 0 b.reg p : Nat) : Int) + d)), st := smPut 0 b.st i 2 }
      else b
    (b1, d * 1000, true)

/-- A reference endpoint's energy (R290): none unless both slots are real; whether a bounding record was uncalibrated. -/
def State.refInterval (s : State) (i q delta : Nat) : Option (Int × Bool) × State :=
  match s.slotOfIndex i with
  | none => (none, s)
  | some k =>
    let b := (s.brec k).advance q
    let sl := q % 96
    let p := (sl + 95) % 96
    if b.slotState sl = 1 ∧ b.slotState p = 1 then
      let r := b.interval sl delta
      (some (r.2.1, decide (sl ∈ b.unc) || decide (p ∈ b.unc)), s.setBrec k r.1)
    else (none, s.setBrec k b)

/-- Loss (R291), in mWh: u64 arithmetic, which wraps. -/
def lossMwh (c : NodeCfg) (e : Int) (delta fnom : Nat) : Nat :=
  let u := fun (n : Nat) => n % 2 ^ 64
  let w := e.natAbs / 1000
  let p := u (w * 3600 * fnom) / delta
  u (u (c.k0 * delta * 1000) / (3600 * fnom) + u (w * c.k1) / 100 + u (c.k2 * p * w) / 10000000)

/-- The sum over a node's member endpoints (R290, R291). -/
def State.memberSum (s : State) (n q delta : Nat) : NodeSum × State :=
  (s.ctxSlots.filter fun k => s.epState k == 1 && (s.brec k).node == n).foldl (fun r k =>
    let b := (r.2.brec k).advance q
    let v := b.interval (q % 96) delta
    let a : NodeSum := r.1
    ({ a with c := a.c + v.2.1, est := a.est + (if v.2.2 then v.2.1 else 0), members := a.members + 1
              ests := a.ests + ofBool v.2.2, selfFix := a.selfFix || decide (q % 96 ∈ b.selfFix) },
     r.2.setBrec k v.1)) ({}, s)

/-- A child's contribution (R291): its reference energy alone, or its own C plus loss with its counts. -/
def NodeSum.addChild (a c : NodeSum) : NodeSum :=
  if c.own then
    { a with c := a.c + c.input, est := a.est + c.est, members := a.members + c.members, ests := a.ests + c.ests
             selfFix := a.selfFix || c.selfFix }
  else { a with c := a.c + c.input }

/-- Depth of a node. -/
def Manifest.depth (m : Manifest) : Nat → Nat → Nat
  | 0, _ => 0
  | fuel + 1, n => match m.node n with
    | some c => match c.parent with
      | some p => m.depth fuel p + 1
      | none => 0
    | none => 0

/-- The nodes in the order of an evaluation (R289): deepest first, then the lower number. -/
def Manifest.evalOrder (m : Manifest) : List (Nat × NodeCfg) :=
  sortBy (fun (a b : Nat × NodeCfg) => decide (m.depth 8 b.1 < m.depth 8 a.1) ||
    (decide (m.depth 8 a.1 = m.depth 8 b.1) && decide (a.1 < b.1))) m.nodeList

/-- RATIO (R291). -/
def ratioOf (res e : Int) : Int :=
  if e = 0 then (if res < 0 then -32767 else if res = 0 then 0 else 32767)
  else clampInt (-32767) 32767 (Int.tdiv (res * 1000) e)

/-! ### Alarms -/

/-- Ones among the low m bits of a history. -/
def ones (h m : Nat) : Nat := ((List.range m).filter fun i => natBit h i).length

/-- A history with an evaluation shifted in. -/
def shiftHist (h : Nat) (hit : Bool) : Nat := (h * 2 + ofBool hit) % 65536

/-- The registers that an evaluation takes when it starts (R299). -/
def balSettings : List Nat := [balCfg, balCorrCfg] ++ (List.range 6).map balPersist

/-- A field of the balance settings: as the evaluation that runs took it, else as it stands. -/
def State.balGet (s : State) (f : Fld) : Nat :=
  match s.bal.run with
  | some r => bitsOf (smGet 0 r.cfg f.addr) f.hi f.lo
  | none => s.get f

/-- Whether a class is active after a shift (R295): raised with N hits of the last M, cleared with none. -/
def State.persist (s : State) (k h : Nat) (was : Bool) : Bool :=
  let m := s.balGet (balPersist_M k) + 1
  let n := min (s.balGet (balPersist_N k)) (m - 1) + 1
  if n ≤ ones h m then true else if ones h m = 0 then false else was

/-- A node's class counts an evaluation (R295): event 241 on a raise, 242 on a clear, a Logbook record. -/
def State.nodeClass (s : State) (n k : Nat) (hit : Bool) (cross : Nat) : State :=
  let b := s.bnode n
  let h := shiftHist (smGet 0 b.hist k) hit
  let was := natBit b.alarms k
  let now := s.persist k h was
  let al := if now = was then b.alarms else if now then b.alarms + 2 ^ k else b.alarms - 2 ^ k
  let s1 := s.setBnode n { b with hist := smPut 0 b.hist k h, alarms := al }
  if now = was then s1
  else s1.raiseLog (if now then 241 else 242) (be 1 k ++ be 2 n ++ be 6 cross)

/-- An item on the balance result queue (R293): event 246 when it lacks credit. -/
def State.balOut (s : State) (b : List Byte) : State :=
  match s.man.roles.balanceOut with
  | 0 => s
  | q + 1 =>
    let r := s.hwEnqueue .balance q (mkItem 0 (s.stamp 8) b)
    r.1.raiseIf (!r.2) 246

/-- The endpoint alarm record (R293). -/
def State.epAlarmRec (s : State) (k cls : Nat) (on : Bool) (n cross phases : Nat) : List Byte :=
  let b := s.brec k
  be 1 2 ++ be 1 (cls + 128 * ofBool on) ++ be 2 n ++ be 4 (s.epIndex k) ++ be 6 cross
    ++ (if cls = 3 then be 1 b.samples ++ be 1 0 ++ be 2 b.corr ++ be 4 (ofSigned 32 b.slope) ++ be 2 b.bypPm
        else be 1 0 ++ be 1 phases ++ be 2 0 ++ be 4 0 ++ be 2 0) ++ List.replicate 40 0

/-- An endpoint's class counts an evaluation (R295): event 243 on a raise, 244 on a clear, an alarm record, a Logbook record. -/
def State.epClass (s : State) (k cls : Nat) (hit : Bool) (n cross phases : Nat) : State :=
  let b := s.brec k
  let h := shiftHist (if cls = 3 then b.bypHits else b.phHits) hit
  let was := if cls = 3 then b.bypAlarm else b.phAlarm
  let now := s.persist cls h was
  let s1 := s.setBrec k (if cls = 3 then { b with bypHits := h, bypAlarm := now } else { b with phHits := h, phAlarm := now })
  if now = was then s1
  else (s1.balOut (s1.epAlarmRec k cls now n cross phases)).raiseLog (if now then 243 else 244)
    (be 1 cls ++ be 4 (s.epIndex k) ++ be 2 n)

/-! ### Bypass -/

/-- sh(v, k) of R296: v times 2^k, saturating at ±(2^31 − 1). -/
def shSat (v k : Int) : Int :=
  clampInt (-(2 ^ 31 - 1)) (2 ^ 31 - 1) (if 0 ≤ k then v * 2 ^ k.toNat else Int.tdiv v (2 ^ (-k).toNat))

/-- The least shift that brings a magnitude below 2^15. -/
def shiftFor (m : Nat) : Nat := ((List.range 33).find? fun k => decide (m / 2 ^ k < 32768)).getD 32

/-- Bypass (R296) over the samples that count, as pairs (x, y) in Wh: samples, CORR, SLOPE, BYPASS_PM, hit. -/
def bypass (xy : List (Int × Int)) (minSamples corrMin slopeMin : Nat) : Nat × Int × Int × Int × Bool :=
  let n := xy.length
  if n < minSamples then (n, 0, 0, 0, false)
  else
    let kx := shiftFor ((xy.map fun p => p.1.natAbs).foldl max 0)
    let ky := shiftFor ((xy.map fun p => p.2.natAbs).foldl max 0)
    let v := xy.map fun p => (Int.tdiv p.1 (2 ^ kx), Int.tdiv p.2 (2 ^ ky))
    let sx := sumInt (v.map (·.1))
    let sy := sumInt (v.map (·.2))
    let sxx := sumInt (v.map fun p => p.1 * p.1)
    let syy := sumInt (v.map fun p => p.2 * p.2)
    let sxy := sumInt (v.map fun p => p.1 * p.2)
    let m : Int := n
    let c := Int.tdiv (sxy - Int.tdiv (sx * sy) m) m
    let vx := Int.tdiv (sxx - Int.tdiv (sx * sx) m) m
    let vy := Int.tdiv (syy - Int.tdiv (sy * sy) m) m
    if c ≤ 0 ∨ vx ≤ 0 ∨ vy ≤ 0 then (n, 0, 0, 0, false)
    else
      let r := min 32767 (Int.tdiv (c * 32768) (isqrt (vx * vy).toNat : Int))
      let b := shSat (toSigned 32 (ofSigned 32 (Int.tdiv (c * 65536) vx))) ((ky : Int) - (kx : Int))
      let beta := Int.tdiv (b * 1000) (65536 + b)
      (n, r, b, beta, decide ((corrMin : Int) ≤ r) && decide ((256 * slopeMin : Nat) ≤ b) && decide (0 < sy))

/-- The samples of an endpoint (R296): quarters whose node result is complete with a reference, both slots real, not before
NODE_SINCE. -/
def State.samples (s : State) (k n : Nat) : List (Int × Int) :=
  let b := s.brec k
  (s.bnode n).res.filterMap fun p =>
    let i := p.1 % 96
    let j := (i + 95) % 96
    if p.1 ≤ b.qNew ∧ b.qNew < p.1 + 96 ∧ b.slotState i = 1 ∧ b.slotState j = 1 ∧ (p.1 + 65536 - b.since) % 65536 < 32768
    then some (toSigned 32 (smGet 0 b.reg i + 2 ^ 32 - smGet 0 b.reg j), p.2) else none

/-- A member endpoint after its node's result (R295 to R297). -/
def State.endpointTest (s : State) (k n cross : Nat) (c : NodeCfg) (ref : Bool) : State :=
  let mins := min 96 (max 16 (s.balGet balCorrCfg_MIN_SAMPLES))
  let r := bypass (s.samples k n) mins (s.balGet balCorrCfg_CORR_MIN) (s.balGet balCorrCfg_SLOPE_MIN)
  let b := s.brec k
  let s1 := s.setBrec k { b with samples := r.1, corr := ofSigned 16 r.2.1, slope := r.2.2.1, bypPm := ofSigned 16 r.2.2.2.1 }
  let s2 := if ref then s1.epClass k 3 r.2.2.2.2 n cross 0 else s1
  let ph := s.ctxAt k 15 1 % 4
  if ph < 3 ∧ c.phase < 3 then s2.epClass k 4 (decide (ph ≠ c.phase)) n cross (ph + 4 * c.phase) else s2

/-! ### Evaluation -/

/-- The node result record (R293). -/
def nodeRec (rflags n cross bt delta : Nat) (e : Int) (a : NodeSum) (loss : Nat) (res ratio : Int) (alarms : Nat) : List Byte :=
  be 1 1 ++ be 1 rflags ++ be 2 n ++ be 6 cross ++ be 6 bt ++ be 4 delta ++ be 8 (ofSigned 64 e) ++ be 8 (ofSigned 64 a.c)
    ++ be 8 (ofSigned 64 a.est) ++ be 4 loss ++ be 8 (ofSigned 64 res) ++ be 2 (ofSigned 16 ratio)
    ++ be 2 (min 65535 a.members) ++ be 2 (min 65535 a.ests) ++ be 1 alarms ++ be 1 0

/-- The reference energy of a node (R284, R291, R292): none when absent; whether it is uncalibrated. -/
def State.reference (s : State) (c : NodeCfg) (cross prev : Option Nat) (q delta : Nat) : Option (Int × Bool) × State :=
  if c.refKind = 1 then
    let at' := fun (n : Option Nat) => match n with
      | some k => (s.bal.site.find? fun p => p.1 == k).map (·.2)
      | none => none
    match at' cross, at' prev with
    | some a, some b => (some (a - b, s.flag metStatus_CAL_LOST), s)
    | _, _ => (none, s)
  else if c.refKind = 2 then s.refInterval c.refIndex q delta
  else (none, s)

/-- Whether a result with a present reference is incomplete (R292). -/
def State.incomplete (s : State) (a : NodeSum) (uncal : Bool) : Bool :=
  decide (s.balGet balCfg_INC_PCT * a.members < a.ests * 100) ||
  decide (s.balGet balCfg_INC_EPCT * a.c.natAbs < a.est.natAbs * 100) || uncal

/-- The alarm classes of a node's result (R295). -/
def State.nodeAlarms (s : State) (n cross : Nat) (c : NodeCfg) (ref inc : Bool) (res ratio : Int) : State :=
  let th : Int := 1000 * c.absWh
  let s1 := if ref && !inc then
      (s.nodeClass n 0 (decide (th ≤ res) && decide ((c.lossPm : Int) ≤ ratio)) cross).nodeClass n 1
        (decide (res ≤ -th) && decide (ratio ≤ -(c.negPm : Int))) cross
    else s
  let s2 := if ref then s1.nodeClass n 2 inc cross else s1
  if c.refKind = 1 ∨ c.refKind = 2 then s2.nodeClass n 5 (!ref) cross else s2

/-- One node of an evaluation (R290 to R297): its result record, alarms, its members' tests; what it passes up. -/
def State.evalNode (s : State) (x : EvalRun) (n : Nat) : NodeSum × State :=
  let c := (s.man.node n).getD {}
  let cross := x.cross
  let q := x.q
  let delta := x.delta
  let m := s.memberSum n q delta
  let a := (s.man.nodeList.filter fun p => p.2.parent == some n).foldl (fun (acc : NodeSum) p => acc.addChild (smGet {} x.sums p.1)) m.1
  let r := m.2.reference c (some cross) x.prev q delta
  let e : Int := match r.1 with
    | some x => x.1
    | none => 0
  let ref := r.1.isSome
  let uncal := match r.1 with
    | some x => x.2
    | none => false
  let fnom := if s.is60 then 60 else 50
  let loss := lossMwh c (if ref then e else a.c) delta fnom
  let res := if ref then e - a.c - (loss : Int) else 0
  let ratio := if ref then ratioOf res e else 0
  let inc := ref && r.2.incomplete a uncal
  let fl := ofBool inc + 2 * ofBool (!ref) + 4 * ofBool uncal + 8 * ofBool a.selfFix + 16 * ofBool x.ride
  let s1 := r.2.nodeAlarms n cross c ref inc res ratio
  let b := s1.bnode n
  let ys := if ref && !inc then ((q, wrap32 (Int.tdiv res 1000)) :: b.res).take 96 else b.res
  let s2 := s1.setBnode n { b with rflags := fl, ratio := ratio, residual := res, res := ys }
  let s3 := s2.balOut (nodeRec fl n cross x.bt delta e a loss res ratio b.alarms)
  let s4 := (s3.ctxSlots.filter fun k => s3.epState k == 1 && (s3.brec k).node == n).foldl
    (fun st k => st.endpointTest k n cross c ref) s3
  ({ a with input := if ref then e else a.c + loss, own := !ref }, s4)

/-- Every CKPT_PERIOD evaluations the node states and the balance table go to the Hold (R294): the checkpoint is complete once the journal
record that closes it is durable (DESIGN CHOICE, log entry 124); until then the one before stays. -/
def State.checkpoint (s : State) : State :=
  let n := s.bal.evals + 1
  if min 96 (max 1 (s.balGet balCfg_CKPT_PERIOD)) ≤ n then
    let s1 := s.ckSettle.journalUpd []
    { s1 with bal := { s1.bal with evals := 0, ckNext := some { jseq := s.cmt.next, q := s.bal.evalQ, recs := s.bal.recs, nodes := s.bal.nodes } } }
  else { s with bal := { s.bal with evals := n } }

/-- Whether results still wait for credit: the evaluation runs (R293). -/
def State.balBusy (s : State) : Bool :=
  match s.man.roles.balanceOut with
  | 0 => false
  | q + 1 => (s.q q).waiters.any fun w => w.prod == .balance

/-- The state with the evaluation that runs. -/
def State.setRun (s : State) (r : Option EvalRun) : State := { s with bal := { s.bal with run := r } }

/-- The end of an evaluation (R293, R294): BAL_LAST_Q, the checkpoint, event 240. -/
def State.evalEnd (s : State) (x : EvalRun) : State :=
  let s1 := s.setReg balLastQ (BitVec.ofNat 32 x.q)
  ((State.checkpoint { s1 with bal := { s1.bal with evalQ := max s1.bal.evalQ x.q } }).setRun none).raise 240

/-- The evaluation's nodes in turn; it waits while a result waits for credit (R293). -/
def State.evalNodes : List Nat → EvalRun → State → State
  | [], x, s => if s.balBusy then s.setRun (some { x with rest := [] }) else s.evalEnd x
  | n :: rest, x, s =>
    if s.balBusy then s.setRun (some { x with rest := n :: rest })
    else
      let r := (s.setRun (some x)).evalNode x n
      State.evalNodes rest { x with rest := rest, sums := smPut {} x.sums n r.1 } r.2

/-- The evaluation that runs goes on. -/
def State.evalGo (s : State) : State :=
  match s.bal.run with
  | some x => State.evalNodes x.rest x s
  | none => s

/-- An evaluation of the snapshot at a crossing starts (R289 to R297, R299): `t` is the stamp of its deadline. -/
def State.evaluate (s : State) (cross : Nat) (t : Stamp) (ride : Bool) : State :=
  match s.plc.snaps.find? fun p => p.1 == cross with
  | none => s
  | some (_, bt) =>
    let q := bt / 900
    let prev := (s.plc.snaps.filter fun p => decide (p.1 < cross)).map (·.1) |>.foldl max 0
    let fnom := if s.is60 then 60 else 50
    let s0 := match s.man.roles.balanceIn with
      | 0 => s
      | k + 1 => State.balDrain t k (s.q k).undelivered s
    let s1 := s0.moveMembers q
    let cfg := balSettings.foldl (fun (m : SMap Word) a => smPut 0 m a (s1.reg a)) []
    let nodes := s1.man.evalOrder.map (·.1)
    State.evalGo (s1.setRun (some { cross := cross, bt := bt, q := q, delta := if prev = 0 then 900 * fnom else cross - prev
                                    prev := if prev = 0 then none else some prev, ride := ride, rest := nodes, cfg := cfg }))

/-- Evaluations that wait start in turn, as long as none runs (R289). -/
def State.evalDue : Nat → State → Bool → State
  | 0, s, _ => s
  | fuel + 1, s, ride =>
    match s.bal.run, s.bal.due with
    | none, (c, t) :: rest => State.evalDue fuel (State.evaluate { s with bal := { s.bal with due := rest } } c t ride) ride
    | _, _ => s

end Sys2Proof.Machine
end

