-- ==== Sys2Proof/Machine/Balance.lean ====
section
/-!
DEFINITION. The commands of the balance engine (10_balance.md).
-/
namespace Sys2Proof.Machine

/-- BALANCE_RECORD: R287, R288. -/
def execBalanceRecord (s : State) : Out :=
  match s.man.roles.balanceIn with
  | 0 => s.out s
  | q + 1 => match s.deliver q with
    | none => s.out s
    | some (it, s1) => s.out (if !s.flag balCfg_EN || it.poisoned then s1 else s1.balRecord it.bytes it.order)

/-- The crossing at which the snapshot at a crossing is evaluated (R289). -/
def State.evalCross (s : State) (n : Nat) : Nat := n + 256 * max 1 (s.get balCfg_DEADLINE)

/-- The stamp of a crossing that has passed (R67): a rank-8 stamp at its instant. -/
def State.crossStamp (s : State) (c : Nat) : Stamp :=
  { s.stamp 8 with ptp := s.clk.ptp - (s.clk.mono - s.xing.instants.getD (s.xing.num - c) s.clk.mono) }

/-- Whether a snapshot's evaluation is behind it, under way or waiting: it is evaluated once (R289). -/
def State.evalTaken (s : State) (n : Nat) : Bool :=
  (s.plc.snaps.any fun p => p.1 == n && decide (p.2 / 900 ≤ s.bal.evalQ)) || (s.bal.run.any fun r => r.cross == n) ||
    s.bal.due.any fun d => d.1 == n

/-- BALANCE_EVALUATION: R285, R289 to R297, R299. Before the deadline nothing happens. A snapshot whose deadline comes while an evaluation
runs waits, with event 248; under a power warning it waits for ride-through. -/
def execBalanceEvaluation (n : Nat) (s : State) : Out :=
  if !s.flag balCfg_EN || decide (s.xing.num < s.evalCross n) || s.evalTaken n then s.out s
  else
    let s1 : State := { s with bal := { s.bal with due := s.bal.due ++ [(n, s.crossStamp (s.evalCross n))] } }
    s.out (if s.bal.run.isSome then s1.raise 248 else if s.warned then s1 else s1.evalDue s1.bal.due.length false)

/-- What a write to BAL_NODE_SEL does (R283): the node's settings and last result are captured. -/
def State.nodeQuery (s : State) : State :=
  let n := s.get balNodeSel_NODE
  let c := (s.man.node n).getD {}
  let b := s.bnode n
  let r := ofSigned 64 b.residual
  let s1 := s.setReg balNodeCfg (BitVec.ofNat 32 (c.refKind * 2 ^ 30 + c.phase * 2 ^ 28 + (c.parent.getD 0x1FFF) * 2 ^ 15 + c.k1))
  let s2 := (s1.setReg balNodeRef (BitVec.ofNat 32 c.refIndex)).setReg balNodeLoss (BitVec.ofNat 32 (c.k0 * 2 ^ 16 + c.k2))
  let s3 := s2.setReg balNodeThr (BitVec.ofNat 32 (c.lossPm * 2 ^ 24 + c.negPm * 2 ^ 16 + c.absWh))
  let s4 := s3.setReg balNodeStat (BitVec.ofNat 32 (ofSigned 16 b.ratio * 2 ^ 16 + b.alarms * 2 ^ 8 + b.rflags))
  (s4.setReg balNodeResHi (BitVec.ofNat 32 (r / 2 ^ 32))).setReg balNodeResLo (BitVec.ofNat 32 r)

/-- BAL_NODE_QUERY: R283, 10_balance.md. -/
def execBalNodeQuery (i : Iface) (v : Word) (s : State) : Out := s.out (s.writeGate i balNodeSel v State.nodeQuery)

/-- The balance record that BAL_EP_SEL selects. -/
def State.balSel (s : State) : Option Nat := s.slotOfIndex (s.get balEpSel_INDEX)

/-- What a write to BAL_EP_SEL does (R287): the endpoint's balance status is captured. -/
def State.epQuery (s : State) : State :=
  let b : BRec := match s.balSel with
    | some k => s.brec k
    | none => {}
  let node := if b.node = 0xFFFF then 0x1FFF else b.node
  let st := node * 2 ^ 16 + min 1023 b.bypPm * 64 + ofBool b.phAlarm * 32 + ofBool b.bypAlarm * 16 + ofBool b.meanValid * 8
  let s1 := (s.setReg balEpStat (BitVec.ofNat 32 st)).setReg balEpCorr (BitVec.ofNat 32 (b.corr * 2 ^ 16 + b.samples * 2 ^ 8))
  (s1.setReg balEpSlope (BitVec.ofNat 32 (ofSigned 32 b.slope))).setReg balEpNode (BitVec.ofNat 32 b.ovr)

/-- BAL_EP_QUERY: R287, 10_balance.md. -/
def execBalEpQuery (i : Iface) (v : Word) (s : State) : Out := s.out (s.writeGate i balEpSel v State.epQuery)

/-- What a write to BAL_EP_NODE does (R285, R299): the override of the selected endpoint; 0x1000 to 0xFFFE are ignored. -/
def State.epNodeWrite (s : State) (v : Word) : State :=
  let n := wordBits v balEpNode_NODE_OVR
  match s.balSel with
  | none => s
  | some k =>
    if 0x1000 ≤ n ∧ n < 0xFFFF then s.setReg balEpNode (BitVec.ofNat 32 (s.brec k).ovr)
    else s.setBrec k { s.brec k with ovr := n }

/-- BAL_EP_NODE_WRITE: R285, R299. -/
def execBalEpNodeWrite (i : Iface) (v : Word) (s : State) : Out :=
  s.out (s.writeGate i balEpNode v fun s => s.epNodeWrite v)

end Sys2Proof.Machine
end

