-- ==== Sys2Proof/Machine/TrfOps.lean ====
section
/-!
DEFINITION. Tariff calendars (11_tariff_calendar.md): the calendar checks (R303), rate selection (R305), rates and defaults of
a group, the stored calendars.
-/
namespace Sys2Proof.Machine

/-! ### Dates -/

/-- Days from 1970-01-01 of a civil date (R305). -/
def daysOf (y m d : Int) : Int :=
  let y1 := if m ≤ 2 then y - 1 else y
  let era := y1 / 400
  let yoe := y1 % 400
  let doy := (153 * (if m > 2 then m - 3 else m + 9) + 2) / 5 + d - 1
  era * 146097 + (yoe * 365 + yoe / 4 - yoe / 100 + doy) - 719468

/-- Year, month and day of a day number. -/
def dateOf (z : Int) : Int × Nat × Nat :=
  let z1 := z + 719468
  let doe := z1 % 146097
  let yoe := (doe - doe / 1460 + doe / 36524 - doe / 146096) / 365
  let doy := doe - (365 * yoe + yoe / 4 - yoe / 100)
  let mp := (5 * doy + 2) / 153
  let d := doy - (153 * mp + 2) / 5 + 1
  let m := if mp < 10 then mp + 3 else mp - 9
  (yoe + z1 / 146097 * 400 + (if m ≤ 2 then 1 else 0), m.toNat, d.toNat)

/-- Days of a month. -/
def monthDays (y : Int) (m : Nat) : Int :=
  if m = 12 then 31 else daysOf y (m + 1) 1 - daysOf y m 1

/-! ### Calendar image -/

/-- Bytes of a calendar image (R302). -/
def calBytes : Nat := 2272

/-- A byte of an image. -/
def calByte (c : List Byte) (off : Nat) : Nat := beAt c off 1
/-- VERSION_ID. -/
def calVersion (c : List Byte) : Nat := beAt c 4 2
/-- DEFAULT rate code. -/
def calDefault (c : List Byte) : Nat := calByte c 7 % 16
/-- NSEASON. -/
def calSeasons (c : List Byte) : Nat := calByte c 8
/-- NWEEK. -/
def calWeeks (c : List Byte) : Nat := calByte c 9
/-- NDAY. -/
def calDays (c : List Byte) : Nat := calByte c 10
/-- NSPECIAL. -/
def calSpecials (c : List Byte) : Nat := beAt c 12 2
/-- STD_OFS. -/
def calStd (c : List Byte) : Int := toSigned 16 (beAt c 14 2)
/-- DST_DELTA. -/
def calDelta (c : List Byte) : Nat := calByte c 16
/-- A switch point of a day profile. -/
def calPoint (c : List Byte) (dp i : Nat) : Nat := beAt c (224 + 32 * dp + 2 * i) 2
/-- The calendar hash (R302). -/
def calHash (c : List Byte) : List Byte := padTo 32 (shake256 c 32)

/-- Whether a month and day are a valid date of a year. -/
def dateOk (y : Int) (m d : Nat) : Bool :=
  decide (1 ≤ m) && decide (m ≤ 12) && decide (1 ≤ d) && decide ((d : Int) ≤ monthDays y m)

/-- Whether a change rule is valid (R303 check 4). -/
def ruleOk (c : List Byte) (off : Nat) : Bool :=
  let w := calByte c (off + 1)
  decide (1 ≤ calByte c off) && decide (calByte c off ≤ 12) && decide (1 ≤ w / 16) && decide (w / 16 ≤ 5) &&
  decide (1 ≤ w % 16) && decide (w % 16 ≤ 7) && decide (beAt c (off + 2) 2 ≤ 1439)

/-- Whether a list of numbers rises strictly. -/
def rising : List Nat → Bool
  | a :: b :: r => decide (a < b) && rising (b :: r)
  | _ => true

/-- Used switch points of a day profile: those before the first 0xFFFF. -/
def usedPoints (c : List Byte) (dp : Nat) : List Nat :=
  ((List.range 16).map (calPoint c dp)).takeWhile (· ≠ 0xFFFF)

/-- Check 7 for one day profile (R303). -/
def dayOk (c : List Byte) (dp : Nat) : Bool :=
  let u := (usedPoints c dp).map (· % 2048)
  decide (1 ≤ u.length) && decide (u.headD 1 = 0) && rising u && u.all (fun m => decide (m ≤ 1439)) &&
  ((List.range 16).drop u.length).all fun i => calPoint c dp i == 0xFFFF

/-- Whether the bytes from a to b, b not included, are 0. -/
def zeroIn (c : List Byte) (a b : Nat) : Bool := (slice c a (b - a)).all (· == 0)

/-- Check 9 (R303). -/
def calZeros (c : List Byte) : Bool :=
  decide (calByte c 7 < 16) && zeroIn c 11 12 && zeroIn c 17 18 && zeroIn c 26 32 &&
  ((List.range (calSeasons c)).all fun i => calByte c (35 + 4 * i) == 0) && zeroIn c (32 + 4 * calSeasons c) 96 &&
  ((List.range (calWeeks c)).all fun i => calByte c (103 + 8 * i) == 0) && zeroIn c (96 + 8 * calWeeks c) 224 &&
  ((List.range (calDays c)).all fun d => (usedPoints c d).all fun p => !natBit p 11) &&
  zeroIn c (224 + 32 * calDays c) 1248 && zeroIn c (1248 + 4 * calSpecials c) 2272

/-- The checks of a calendar in order (R303): 0 when all pass, else the DETAIL code. -/
def calCheck (c : List Byte) (g : Nat) : Nat :=
  if beAt c 0 4 ≠ 0x54434C31 ∨ calByte c 6 ≠ g then 1
  else if ¬ (1 ≤ calSeasons c ∧ calSeasons c ≤ 16 ∧ 1 ≤ calWeeks c ∧ calWeeks c ≤ 16 ∧ 1 ≤ calDays c ∧ calDays c ≤ 32
      ∧ calSpecials c ≤ 256) then 2
  else if ¬ (-720 ≤ calStd c ∧ calStd c ≤ 840 ∧ calStd c % 15 = 0 ∧ (calDelta c = 0 ∨ 15 ≤ calDelta c) ∧ calDelta c ≤ 120
      ∧ calDelta c % 15 = 0) then 3
  else if calDelta c ≠ 0 ∧ ¬ (ruleOk c 18 = true ∧ ruleOk c 22 = true ∧ calByte c 18 ≠ calByte c 22) then 4
  else if !((List.range (calSeasons c)).all fun i =>
        dateOk 2000 (calByte c (32 + 4 * i)) (calByte c (33 + 4 * i)) && decide (calByte c (34 + 4 * i) < calWeeks c)) ||
      !rising ((List.range (calSeasons c)).map fun i => beAt c (32 + 4 * i) 2) then 5
  else if !((List.range (calWeeks c)).all fun w => (List.range 7).all fun d =>
      decide (calByte c (96 + 8 * w + d) < calDays c)) then 6
  else if !((List.range (calDays c)).all (dayOk c)) then 7
  else if !((List.range (calSpecials c)).all fun i =>
        let y := calByte c (1248 + 4 * i)
        dateOk (if y = 0xFF then 2000 else (2000 + y : Nat)) (calByte c (1249 + 4 * i)) (calByte c (1250 + 4 * i)) &&
        decide (calByte c (1251 + 4 * i) < calDays c)) ||
      !rising ((List.range (calSpecials c)).map fun i => beAt c (1248 + 4 * i) 3) then 8
  else if !calZeros c then 9
  else 0

/-! ### Rate selection -/

/-- What rate selection yields (R305). -/
structure Sel where
  rate : Nat := 0
  dst : Bool := false
  season : Nat := 0
  dayprof : Nat := 0
  minute : Nat := 0
  special : Bool := false
  deriving DecidableEq, Repr

/-- rule_day (R305): `wd` 1 Monday to 7 Sunday. -/
def ruleDay (y : Int) (m wk wd : Nat) : Int :=
  if wk = 5 then
    let last := daysOf y m (monthDays y m)
    last - (last + 3 - ((wd : Int) - 1)) % 7
  else
    let d := daysOf y m 1
    d + (((wd : Int) - 1) - (d + 3)) % 7 + 7 * ((wk : Int) - 1)

/-- The instant of a change rule in local standard seconds, before `back` minutes. -/
def ruleAt (c : List Byte) (off : Nat) (y : Int) (back : Nat) : Int :=
  ruleDay y (calByte c off) (calByte c (off + 1) / 16) (calByte c (off + 1) % 16) * 86400
    + 60 * ((beAt c (off + 2) 2 : Int) - (back : Int))

/-- Whether daylight time is in force at local standard seconds (R305). -/
def dstAt (c : List Byte) (ls : Int) : Bool :=
  if calDelta c = 0 then false
  else
    let y := (dateOf (Int.tdiv ls 86400)).1
    let ts := ruleAt c 18 y 0
    let te := ruleAt c 22 y (calDelta c)
    if ts < te then decide (ts ≤ ls) && decide (ls < te) else decide (ts ≤ ls) || decide (ls < te)

/-- Local time in seconds at UTC seconds, and whether it is daylight time. -/
def localAt (c : List Byte) (t : Nat) : Int × Bool :=
  let ls := (t : Int) + 60 * calStd c
  let dst := dstAt c ls
  (if dst then ls + 60 * (calDelta c : Int) else ls, dst)

/-- The season in force on a month and day (R302, R305): the last one of the table before the first start date. -/
def seasonAt (c : List Byte) (mo dy : Nat) : Nat :=
  (List.range (calSeasons c)).foldl (fun s i =>
    if calByte c (32 + 4 * i) < mo ∨ (calByte c (32 + 4 * i) = mo ∧ calByte c (33 + 4 * i) ≤ dy) then i else s)
    (calSeasons c - 1)

/-- The special day of a date: its day profile, dated entries first. -/
def specialAt (c : List Byte) (y : Int) (mo dy : Nat) : Option Nat :=
  ((List.range (calSpecials c)).find? fun i =>
    let k := 1248 + 4 * i
    (decide ((calByte c k : Int) = y - 2000) || calByte c k == 0xFF) && calByte c (k + 1) == mo && calByte c (k + 2) == dy).map
    fun i => calByte c (1251 + 4 * i)

/-- The switch point in force at a minute: the last that does not lie behind it (R305). -/
def pointAt (c : List Byte) (dp min : Nat) : Nat :=
  ((List.range 15).foldl (fun (r : Nat × Bool) k =>
    let p := calPoint c dp (k + 1)
    if r.2 && p != 0xFFFF && decide (p % 2048 ≤ min) then (k + 1, true) else (r.1, false)) (0, true)).1

/-- rate_of (R305). -/
def rateOf (c : List Byte) (t : Nat) : Sel :=
  let l := localAt c t
  let day := Int.tdiv l.1 86400
  let dt := dateOf day
  let min := (l.1 % 86400 / 60).toNat
  let wd := ((day + 3) % 7).toNat
  let se := seasonAt c dt.2.1 dt.2.2
  let wk := calByte c (34 + 4 * se)
  let sp := specialAt c dt.1 dt.2.1 dt.2.2
  let dp := sp.getD (calByte c (96 + 8 * wk + wd))
  { rate := calPoint c dp (pointAt c dp min) / 4096, dst := l.2, season := se, dayprof := dp, minute := min
    special := sp.isSome }

/-! ### Stored calendars -/

/-- Pending passive calendars: activation instant, then the image. -/
def tabCalPend : Nat := 11
/-- The RSEQ window: top and bitmap. -/
def tabRseq : Nat := 12


/-- The active calendar of a group, where it has a valid one (R301, R309). -/
def State.calActive (s : State) (g : Nat) : Option (List Byte) :=
  if g ∈ s.trf.lost then none
  else match s.live.row tabCalAct g with
    | [] => none
    | r => some (bytesOf r)

/-- The pending passive calendar of a group: activation instant and image. -/
def State.calPending (s : State) (g : Nat) : Option (Nat × List Byte) :=
  match s.live.row tabCalPend g with
  | [] => none
  | a :: r => some (a, bytesOf r)

/-- The passive image being built. -/
def State.calBuilding (s : State) (g : Nat) : Option (List Byte) :=
  match smGet [] s.trf.building g with
  | [] => none
  | b => some b

/-- The clock-trust state code (R68). -/
def State.trust (s : State) : Nat := s.get trfClockTrust_STATE

/-- Whether the calendar may be used: SYNCED or HOLDOVER. -/
def State.trustGood (s : State) : Bool := decide (s.trust < 2)

/-- The Manifest default rate of a group; of group 0 for a group not in use (R300, R301). -/
def State.manDefault (s : State) (g : Nat) : Nat :=
  smGet 0 s.man.defaultRates (if g < s.get trfCfg_GROUPS then g else 0) % 16

/-- The default rate in force for a group (R300, R301, R313). -/
def State.defaultRate (s : State) (g : Nat) : Nat :=
  if g < s.get trfCfg_GROUPS then
    match s.calActive g with
    | some c => calDefault c
    | none => s.manDefault g
  else s.manDefault g

/-- The rate byte of a group for a quarter that begins at UTC seconds (R304, R313, R324): the calendar's rate while trust
stands, else the default, bit 4; bit 5 without a calendar. -/
def State.rateByte (s : State) (g t : Nat) (good : Bool) : Nat :=
  match (if g < s.get trfCfg_GROUPS then s.calActive g else none) with
  | some c => if good then (rateOf c t).rate else calDefault c + 16
  | none => s.manDefault g + 32 + (if good || decide (s.get trfCfg_GROUPS ≤ g) then 0 else 16)

/-- TRF_STAT.PENDING: groups with a pending passive calendar. -/
def State.showTrf (s : State) : State :=
  s.set trfStat_PENDING ((List.range 64).filter fun g => (s.calPending g).isSome).length

/-! ### Events and queries -/

/-- One group at a minute (R306): event 259 where the calendar's rate changes, 263 at a daylight change. What it selected at the
evaluation before, or, where none stands, at the minute before, is what it changes from. -/
def State.calMinute (s : State) (g : Nat) : State :=
  match s.calActive g with
  | none => { s with trf := { s.trf with cur := smPut none s.trf.cur g none } }
  | some c =>
    let r := rateOf c (s.utcSec / 60 * 60)
    let p := rateOf c (s.utcSec / 60 * 60 - 60)
    let o := (smGet none s.trf.cur g).getD (p.rate, p.dst)
    let s1 : State := { s with trf := { s.trf with cur := smPut none s.trf.cur g (some (r.rate, r.dst)) } }
    (s1.raiseIf (decide (o.1 ≠ r.rate)) 259).raiseIf (decide (o.2 ≠ r.dst)) 263

/-- The fields of TRF_GROUP_STAT that hold for active calendars at the present minute: CURRENT and DST; 0 in LOST. -/
def State.curFields (s : State) (c : List Byte) : Nat :=
  if s.trust = 3 then 0
  else
    let r := rateOf c (s.utcSec / 60 * 60)
    r.rate * 2 ^ 20 + ofBool r.dst * 2 ^ 19

/-- The capture of a calendar of a group (TRF_GROUP_STAT to TRF_GROUP_HASH_7). -/
def State.groupQuery (s : State) : State :=
  let g := s.get trfGroupSel_GROUP
  let passive := s.flag trfGroupSel_CAL
  let img := if passive then (match s.calBuilding g with
      | some b => some b
      | none => (s.calPending g).map (·.2)) else s.calActive g
  let act := if passive then (match s.calPending g with
      | some p => p.1
      | none => 0) else 0
  let w := ofBool img.isSome * 2 ^ 31 + s.defaultRate g * 2 ^ 24 +
    (if passive then ofBool (s.calPending g).isSome * 2 ^ 30 + ofBool (s.calBuilding g).isSome * 2 ^ 29
     else ofBool (decide (g ∈ s.trf.lost)) * 2 ^ 28 + (match img with
       | some c => s.curFields c
       | none => 0)) + (match img with
       | some c => calVersion c
       | none => 0)
  let hash := match img with
    | some c => words32 8 (calHash c)
    | none => List.replicate 8 0
  ((((s.setReg trfGroupStat (BitVec.ofNat 32 w)).setReg trfGroupActHi (BitVec.ofNat 32 (act / 2 ^ 32))).setReg trfGroupActLo
    (BitVec.ofNat 32 act)).setWords (trfGroupHash 0) hash)

/-- A rate query (R317): TRF_QRY_RES of the selected calendar at quarter Q. -/
def State.rateQuery (s : State) : State :=
  let g := s.get trfQrySel_GROUP
  let img := if s.flag trfQrySel_CAL then (match s.calBuilding g with
      | some b => some b
      | none => (s.calPending g).map (·.2)) else s.calActive g
  let w := match img with
    | none => 0
    | some c =>
      if s.trust = 3 ∨ calCheck c g ≠ 0 then 0
      else
        let r := rateOf c ((s.reg trfQryQ).toNat * 900)
        2 ^ 31 + ofBool r.special * 2 ^ 30 + ofBool r.dst * 2 ^ 29 + r.dayprof % 32 * 2 ^ 24 + r.season % 16 * 2 ^ 20
          + r.rate % 16 * 2 ^ 16 + r.minute % 2048
  s.setReg trfQryRes (BitVec.ofNat 32 w)

/-! ### Activation and suspension -/

/-- The pending calendars due at a boundary (R310): their activation is fixed at pre-staging. -/
def State.dueActs (s : State) (b : Nat) : List Nat :=
  if s.trustGood then (List.range 64).filter fun g => match s.calPending g with
    | some p => decide (p.1 ≠ 0) && decide (p.1 ≤ b)
    | none => false
  else []

/-- The stored changes of activations: the pending image becomes active, the passive place empty. -/
def State.actUpds (s : State) (gs : List Nat) : List StoreUpd :=
  gs.flatMap fun g => match s.calPending g with
    | some p => [.record tabCalAct g (nums p.2), .record tabCalPend g []]
    | none => []

/-- What follows an activation that took effect (R310): event 256. -/
def State.activated (s : State) (gs : List Nat) : State :=
  let s1 := { s with trf := { s.trf with lost := s.trf.lost.filter (· ∉ gs) } }
  (gs.foldl (fun (st : State) _ => st.raise 256) s1).showTrf

/-- The suspension of every calendar (R314). -/
def State.suspendCal (s : State) : State := (s.set trfStat_SUSPENDED 1).raise 260

/-- The end of the suspension (R314). -/
def State.resumeCal (s : State) : State := if s.flag trfStat_SUSPENDED then (s.set trfStat_SUSPENDED 0).raise 261 else s

end Sys2Proof.Machine
end

