-- ==== Sys2Proof/Machine/TokOps.lean ====
section
/-!
DEFINITION. Prepayment accounts and credit tokens as shared operations (14_prepayment_panel.md: R367 to R376).
-/
namespace Sys2Proof.Machine

/-- The token window (highest serial, FAILS, end of the lockout in operating seconds,
the serial up to which the window counts as fully used), its bits by serial mod 65,536. -/
def tabTok : Nat := 18
/-- Bits of the token window. -/
def tabTokBit : Nat := 19

/-! ### The sealed domain's queues -/

/-- A result of the sealed domain on its outbound queue (R308, R369, R375). -/
def State.sealedResult (s : State) (b : List Byte) : State :=
  match s.man.roles.sealedOut with
  | 0 => s
  | q + 1 => s.produce .sealedDom q (mkItem 0 (s.stamp 8) b)

/-- The head item of a sealed inbound queue is worked on and then leaves it; while its work waits it stays (R560). -/
def State.atHead (s : State) (role : Nat) (f : State → Item → State × Bool) : State :=
  match role with
  | 0 => s
  | q + 1 => match s.deliver q with
    | none => s
    | some (it, _) =>
      let r := f s it
      if r.2 then (match r.1.deliver q with
        | some p => p.2
        | none => r.1)
      else r.1

/-! ### Accounts -/

/-- An account (R373). -/
structure Acct where
  id : Nat := 0
  st : Nat := 0
  low : Bool := false
  lowAt : Nat := 0
  emerg : Nat := 0
  bal : Int := 0
  price : List Nat := []
  deriving DecidableEq, Repr

/-- The stored record of an account; nothing is stored of an unused one. -/
def Acct.row (a : Acct) : List Nat :=
  if a.st = 0 then [] else [a.id, a.st, ofBool a.low, a.lowAt, a.emerg, ofSigned 64 a.bal] ++ a.price

/-- An account read back. -/
def Acct.ofRow (r : List Nat) : Acct :=
  { id := r.getD 0 0, st := r.getD 1 0, low := r.getD 2 0 == 1, lowAt := r.getD 3 0, emerg := r.getD 4 0
    bal := toSigned 64 (r.getD 5 0), price := r.drop 6 }

/-- An account place. -/
def State.acct (s : State) (n : Nat) : Acct := Acct.ofRow (s.live.row tabAcct n)

/-- The re-evaluation after a change to BALANCE (R375): the account, whether low credit and exhaustion are new. -/
def Acct.eval (a : Acct) : Acct × Bool × Bool :=
  if a.st = 0 then (a, false, false)
  else
    let low := decide (a.bal ≤ (a.lowAt : Int) * 10000)
    let exh := decide (a.bal ≤ -(a.emerg : Int) * 10000)
    ({ a with low := low, st := if exh then 2 else 1 }, low && !a.low, exh && a.st == 1)

/-- The account record of a change of STATE or AFLAGS bit 0 (R375). -/
def acctRecord (n quarter : Nat) (a : Acct) : List Byte :=
  be 1 0x32 ++ be 1 a.st ++ be 2 n ++ be 4 quarter ++ be 8 (ofSigned 64 a.bal)

/-- One debit (R375): the account after it, the account record where there is one, the two events. -/
def Acct.debit (a : Acct) (n quarter wh rate : Nat) : Acct × List (List Byte) × List Nat :=
  if a.st = 0 then (a, [], [])
  else
    let r := { a with bal := a.bal - (wh * a.price.getD rate 0 : Nat) }.eval
    (r.1, if r.1.st ≠ a.st ∨ r.1.low ≠ a.low then [acctRecord n quarter r.1] else [],
      (if r.2.1 then [310] else []) ++ (if r.2.2 then [311] else []))

/-- Debits of closed quarters in order: quarter, Wh, rate. -/
def Acct.debits (a : Acct) (n : Nat) (ds : List (Nat × Nat × Nat)) : Acct × List (List Byte) × List Nat :=
  ds.foldl (fun r d => let x := r.1.debit n d.1 d.2.1 d.2.2; (x.1, r.2.1 ++ x.2.1, r.2.2 ++ x.2.2)) (a, [], [])

/-- Whether a group that is not yet durable changes an account (R376). -/
def State.acctBusy (s : State) (n : Nat) : Bool := s.tok.busy.any fun p => p.1 == n && decide (s.cmt.durJseq < p.2)

/-- A group of this account has just been sealed (R376). -/
def State.acctHeld (s : State) (n : Nat) : State :=
  { s with tok := { s.tok with busy := (s.tok.busy.filter fun p => decide (s.cmt.durJseq < p.2)) ++ [(n, s.cmt.next - 1)] } }

/-- Account records and events go out once a group has taken effect. -/
def State.acctOut (s : State) (recs : List (List Byte)) (evs : List Nat) : State :=
  (recs.foldl State.sealedResult s) |> fun st => evs.foldl State.raise st

/-- A group that changes one account (R376, R560): it waits while an earlier group of the account is not durable, or while no
group can be opened. -/
def State.acctGroup (s : State) (n : Nat) (acts : List Action) (upds : List StoreUpd) : State × Bool :=
  if s.acctBusy n then (s, false)
  else
    let r := s.sealedGroup acts upds .account
    if r.2 then (r.1.acctHeld n, true) else r

/-- ACCOUNT_SET (R374): an unused account becomes active with BALANCE 0, another keeps its own; the change of STATE yields an account
record (R375). -/
def State.acctSet (s : State) (body : List Byte) : State × Bool :=
  let n := beAt body 0 2
  let a := s.acct n
  let a1 : Acct := { id := beAt body 4 8, lowAt := beAt body 12 4, emerg := beAt body 16 4
                     price := (List.range 16).map fun i => beAt body (20 + 4 * i) 4
                     st := if a.st = 0 then 1 else a.st, low := a.low, bal := if a.st = 0 then 0 else a.bal }
  let r := s.acctGroup n [] [.record tabAcct n a1.row]
  (r.1.acctOut (if r.2 && decide (a.st = 0) then [acctRecord n (s.get bilQ_Q) a1] else []) [], r.2)

/-- ACCOUNT_CLOSE (R374); the change of STATE yields an account record (R375). -/
def State.acctClose (s : State) (body : List Byte) : State × Bool :=
  let n := beAt body 0 2
  let r := s.acctGroup n [] [.record tabAcct n []]
  (r.1.acctOut (if r.2 && decide ((s.acct n).st ≠ 0) then [acctRecord n (s.get bilQ_Q) {}] else []) [], r.2)

/-- The capture of an account (R388): its last effective group's state. -/
def State.acctQuery (s : State) : State :=
  let a := s.acct (s.get panAcctSel_ACCOUNT)
  let v := ofSigned 64 a.bal
  ((s.setReg panAcctStat (BitVec.ofNat 32 (a.st * 256 + ofBool a.low))).setReg panAcctBalHi (BitVec.ofNat 32 (v / 2 ^ 32))).setReg
    panAcctBalLo (BitVec.ofNat 32 v)

/-! ### Tokens -/

/-- H of R370. -/
def State.tokHigh (s : State) : Nat := s.live.rowN tabTok 0 0
/-- FAILS of R371. -/
def State.tokFails (s : State) : Nat := s.live.rowN tabTok 0 1
/-- The end of the lockout in operating seconds. -/
def State.tokEnd (s : State) : Nat := s.live.rowN tabTok 0 2
/-- The serial up to which the window counts as fully used after a loss (R94). -/
def State.tokFull (s : State) : Nat := s.live.rowN tabTok 0 3

/-- The token window's record. -/
def tokUpd (h fails lockEnd full : Nat) : StoreUpd := .record tabTok 0 [h, fails, lockEnd, full]

/-- The bits that accepting a serial changes (R370): those of the serials it passes are cleared, its own is set. -/
def State.tokBits (s : State) (n : Nat) : List StoreUpd :=
  let h := s.tokHigh
  let passed := if h < n then ((smGet [] s.live.tables tabTokBit).map (·.1)).filter fun k =>
      decide ((k + 65536 - (h + 1) % 65536) % 65536 < n - 1 - h) else []
  passed.map (fun k => StoreUpd.record tabTokBit k []) ++ [.record tabTokBit (n % 65536) [1]]

/-- The result of checks 2 to 10 of the Token results table; 0 when all pass. A serial above H has no bit of its own yet
(DEDUCED, log entry 46); an account is not active when it is unused, since only a token makes an exhausted one active again
(DEDUCED, log entry 47). -/
def State.tokCheck (s : State) (v n : Nat) : Nat :=
  let a := s.acct n
  let cls := v / 2 ^ 62 % 16
  let serial := v / 2 ^ 32 % 2 ^ 26
  let h := s.tokHigh
  let nb : Int := a.bal + (if cls = 0 then 10000 else -10000) * ((v / 2 ^ 16 % 2 ^ 16 : Nat) : Int)
  if 2 ^ 66 ≤ v then 0x09
  else if a.st = 0 then 0x06
  else match s.familyKey s.man.tokenKey (v / 2 ^ 58 % 16) 0 with
    | none => 0x07
    | some k =>
      if ofBe (tagOf k (be 8 a.id ++ be 7 (v / 2 ^ 16)) 2 "TOK1") ≠ v % 2 ^ 16 then 0x01
      else if 4 ≤ cls then 0x05
      else if serial = 0 ∨ serial + 65536 ≤ h then 0x03
      else if h + 65536 ≤ serial then 0x04
      else if serial ≤ h ∧ (serial ≤ s.tokFull ∨ s.live.row tabTokBit (serial % 65536) ≠ []) then 0x02
      else if cls < 2 ∧ (nb < -(2 ^ 62) ∨ 2 ^ 62 < nb) then 0x0A
      else 0

/-- The token result record (R369). -/
def tokRecord (res n src v : Nat) (bal : Int) : List Byte :=
  let known := decide (res ≠ 0x08) && decide (res ≠ 0x09)
  let f := fun (x : Nat) => if known then x else 0
  be 1 0x31 ++ be 1 res ++ be 2 n ++ be 1 src ++ be 1 (f (v / 2 ^ 62 % 16)) ++ be 2 0 ++ be 4 (f (v / 2 ^ 32 % 2 ^ 26))
    ++ be 2 (f (v / 2 ^ 16 % 2 ^ 16)) ++ be 2 0 ++ be 8 (ofSigned 64 bal)

/-- An account after an accepted token (R367). -/
def Acct.token (a : Acct) (cls amount : Nat) : Acct × Bool × Bool :=
  if cls = 0 then { a with bal := a.bal + ((amount * 10000 : Nat) : Int) }.eval
  else if cls = 1 then { a with bal := a.bal - ((amount * 10000 : Nat) : Int) }.eval
  else if cls = 2 then ({ a with lowAt := amount }, false, false)
  else ({ a with emerg := amount }, false, false)

/-- PAN_TOK_LAST after an entry. -/
def State.showTok (s : State) (n res : Nat) : State :=
  ((s.setReg panTokLast (BitVec.ofNat 32 (s.tokFails * 2 ^ 24 + n * 256 + res))).setReg panTokHigh (BitVec.ofNat 32 s.tokHigh))

/-- The length of a lockout in operating seconds (Lockout table). -/
def lockLength (fails : Nat) : Nat := if fails = 5 then 60 else if fails = 6 then 600 else if fails = 7 then 3600 else 86400

/-- A refused entry (R369, R371): its record, event 305 and a Logbook record; a result that counts may start a lockout. -/
def State.tokRefuse (s : State) (res n src v : Nat) : State :=
  let counts := res == 0x09 || res == 0x06 || res == 0x07 || res == 0x01
  let f := if counts then min 255 (s.tokFails + 1) else s.tokFails
  let lock := counts && decide (5 ≤ f)
  let e := if lock then s.aon.opSeconds + lockLength f else s.tokEnd
  let s1 := if counts then s.sealedStore tabTok 0 [s.tokHigh, f, e, s.tokFull] else s
  let s2 : State := { s1 with tok := { s1.tok with locked := s1.tok.locked || lock } }
  (((s2.set panTokLock_LOCKED (ofBool s2.tok.locked)).sealedResult (tokRecord res n src v (s.acct n).bal)).showTok n res
    |>.raiseLog 305 (be 1 res ++ be 2 n)).raiseIf lock 306

/-- An accepted entry (R370): window, account and result record in one sealed group; event 304. False while it waits. -/
def State.tokAccept (s : State) (n src v : Nat) : State × Bool :=
  let a := s.acct n
  let serial := v / 2 ^ 32 % 2 ^ 26
  let r := a.token (v / 2 ^ 62 % 16) (v / 2 ^ 16 % 2 ^ 16)
  let rec1 := tokRecord 0 n src v r.1.bal
  let acts := match s.man.roles.sealedOut with
    | 0 => []
    | q + 1 => [{ kind := 4, len := rec1.length, target := q, data := rec1 : Action }]
  let h := max s.tokHigh serial
  let g := s.acctGroup n acts ([tokUpd h 0 s.tokEnd s.tokFull] ++ s.tokBits serial ++ [.record tabAcct n r.1.row])
  if g.2 then
    let recs := if r.1.st ≠ a.st ∨ r.1.low ≠ a.low then [acctRecord n (s.get bilQ_Q) r.1] else []
    (((g.1.acctOut recs ((if r.2.1 then [310] else []) ++ (if r.2.2 then [311] else []))).showTok n 0).raise 304, true)
  else g

/-- A token entry (R369): lockout first, then the checks in order. -/
def State.tokenIn (s : State) (b : List Byte) : State × Bool :=
  let n := beAt b 2 2
  let src := beAt b 1 1
  let v := beAt b 7 9
  if s.tok.locked then (s.tokRefuse 0x08 n src v, true)
  else
    let c := s.tokCheck v n
    if c = 0 then s.tokAccept n src v else (s.tokRefuse c n src v, true)

/-- The end of a lockout (R371, R372): FAILS 0, event 307 when one was in force. -/
def State.endLockout (s : State) : State :=
  let was := s.tok.locked
  let s1 := s.sealedStore tabTok 0 [s.tokHigh, 0, 0, s.tokFull]
  let s2 : State := { s1 with tok := { s1.tok with locked := false } }
  ((s2.set panTokLock_LOCKED 0).set panTokLast_FAILS 0).raiseIf was 307

/-- The token store after a reset (R371): H, FAILS and a lockout that has not ended. -/
def State.tokStart (s : State) : State :=
  let lock := decide (s.tokEnd ≠ 0)
  let s1 : State := { s with tok := { s.tok with locked := lock } }
  (((s1.set panTokHigh_SERIAL s.tokHigh).set panTokLast_FAILS s.tokFails).set panTokLock_LOCKED (ofBool lock))

end Sys2Proof.Machine
end

