-- ==== Sys2Proof/Machine/BilOps.lean ====
section
/-!
DEFINITION. Billing as shared operations (12_billing_registers.md): billing sets, boundary records, booking, closing quarters
and periods, the boundary group.
-/
namespace Sys2Proof.Machine

/-- The last period close of each group; the high-water in TAI and UTC seconds; the site's counters at BACK_S and BACK_E (R341). -/
def tabBil : Nat := 20
/-- The cut record (R337). -/
def tabCut : Nat := 21
/-- Sessions that wait, in order of arrival. -/
def tabSess : Nat := 22
/-- What an intent record of a boundary group holds. -/
def tabIntent : Nat := 24

/-! ### Billing sets -/

/-- A billing set (R319). The 512 bytes hold it but for the model's own fields: `carry` the site's mWh and mvarh not yet booked, `bcarry`
those of its BACKSTEP, `reg` the registration it belongs to, `pbits` the PFLAGS bits 2 to 4 gathered in the period, `reb` the quarters
rebuilt after a loss of every copy (first, one past the last; R94). -/
structure BSet where
  eui : Nat := 0
  index : Nat := 0
  tgroup : Nat := 0
  sflags : Nat := 0
  period : Nat := 0
  curN : Nat := 0
  openQ : Nat := 0
  openFlags : Nat := 0
  pstart : Nat := 0
  reg : Nat := 0
  pbits : Nat := 0
  curReg : List Nat := List.replicate 4 0
  openE : List Nat := List.replicate 4 0
  carry : List Nat := List.replicate 4 0
  imp : List Nat := List.replicate 16 0
  exp : List Nat := List.replicate 16 0
  dem : List Nat := List.replicate 16 0
  demQ : List Nat := List.replicate 16 0
  back : List Nat := List.replicate 2 0
  react : List Nat := List.replicate 2 0
  bcarry : List Nat := List.replicate 2 0
  reb : List Nat := List.replicate 2 0
  deriving DecidableEq, Repr

/-- The stored record of a set; `setBytes` lays it out. -/
def BSet.row (b : BSet) : List Nat :=
  [b.eui, b.index, b.tgroup, b.sflags, b.period, b.curN, b.openQ, b.openFlags, b.pstart, b.reg, b.pbits]
    ++ b.curReg ++ b.openE ++ b.carry ++ b.imp ++ b.exp ++ b.dem ++ b.demQ ++ b.back ++ b.react ++ b.bcarry ++ b.reb

/-- n fields of a record from a place on. -/
def rowCut (r : List Nat) (o n : Nat) : List Nat := (List.range n).map fun i => r.getD (o + i) 0

/-- A set read back. -/
def BSet.ofRow (r : List Nat) : BSet :=
  { eui := r.getD 0 0, index := r.getD 1 0, tgroup := r.getD 2 0, sflags := r.getD 3 0, period := r.getD 4 0
    curN := r.getD 5 0, openQ := r.getD 6 0, openFlags := r.getD 7 0, pstart := r.getD 8 0, reg := r.getD 9 0
    pbits := r.getD 10 0, curReg := rowCut r 11 4, openE := rowCut r 15 4, carry := rowCut r 19 4, imp := rowCut r 23 16
    exp := rowCut r 39 16, dem := rowCut r 55 16, demQ := rowCut r 71 16, back := rowCut r 87 2, react := rowCut r 89 2
    bcarry := rowCut r 91 2, reb := rowCut r 93 2 }

/-- Whether the cursor is valid. -/
def BSet.cursor (b : BSet) : Bool := b.sflags % 2 == 1

/-- The instant of a context's registration. -/
def State.epReg (s : State) (k : Nat) : Nat := s.ctxAt k 240 6

/-- A set of zeros, with which each registration starts (R319). -/
def State.newSet (s : State) (k : Nat) : BSet :=
  { eui := s.epEui k, index := s.epIndex k, tgroup := s.ctxAt k 18 1, reg := s.epReg k }

/-- Whether a context is of a registered endpoint that the chip polls directly, which the site is not (R318). -/
def State.hasSet (s : State) (k : Nat) : Bool := s.epState k == 1 && s.epEui k != s.fuses.eui

/-- The set of an endpoint's present registration: as it is stored, and one of zeros until it first changes (R318 to R320). -/
def State.bsetAt (s : State) (k : Nat) : Option BSet :=
  let b := BSet.ofRow (s.live.row tabSet (k + 1))
  if s.live.row tabSet (k + 1) ≠ [] ∧ b.eui = s.epEui k ∧ b.reg = s.epReg k then some b
  else if s.hasSet k then some (s.newSet k)
  else none

/-- A set as a query finds it (R318, R319): 0 the site's, one of zeros from the start; slot + 1 an endpoint's. -/
def State.bset (s : State) (key : Nat) : Option BSet :=
  match key with
  | 0 => some (match s.live.row tabSet 0 with
    | [] => { eui := s.fuses.eui, sflags := 2 }
    | r => BSet.ofRow r)
  | k + 1 => s.bsetAt k

/-- The set of an endpoint. The tariff group is the context's (R328). -/
def State.bsetOf (s : State) (k : Nat) : BSet := { (s.bsetAt k).getD (s.newSet k) with tgroup := s.ctxAt k 18 1 }

/-- The site's tariff group: that of the chip's own enrolment, else 0 (DEDUCED, log entry 48). -/
def State.siteGroup (s : State) : Nat :=
  match s.enrolment s.fuses.eui with
  | some r => beAt r 50 1
  | none => 0

/-- The site's set. -/
def State.siteSet (s : State) : BSet := { (s.bset 0).getD {} with tgroup := s.siteGroup }

/-- A number added to one field of a list, within 48 bits. -/
def addIn (l : List Nat) (i v : Nat) : List Nat := l.set i ((l.getD i 0 + v) % 2 ^ 48)

/-! ### Boundary records -/

/-- A boundary record (R324); `closes` tells, by group, a period close at its end: 0 none, else PFLAGS + 1. -/
structure Bnd where
  q : Nat := 0
  flags : Nat := 0
  nS : Nat := 0
  nE : Nat := 0
  bS : Nat := 0
  bE : Nat := 0
  rates : List Nat := List.replicate 64 0
  closes : List Nat := List.replicate 64 0
  deriving DecidableEq, Repr

/-- The stored record. -/
def Bnd.row (b : Bnd) : List Nat := [b.q, b.flags, b.nS, b.nE, b.bS, b.bE] ++ b.rates ++ b.closes

/-- A boundary record read back. -/
def Bnd.ofRow (r : List Nat) : Bnd :=
  { q := r.getD 0 0, flags := r.getD 1 0, nS := r.getD 2 0, nE := r.getD 3 0, bS := r.getD 4 0, bE := r.getD 5 0
    rates := rowCut r 6 64, closes := rowCut r 70 64 }

/-- The boundary records kept, oldest first. -/
def State.bnds (s : State) : List Bnd := (smGet [] s.live.tables tabBnd).map fun p => Bnd.ofRow p.2

/-- The boundary record of a quarter. -/
def State.bnd (s : State) (q : Nat) : Option Bnd :=
  match s.live.row tabBnd q with
  | [] => none
  | r => some (Bnd.ofRow r)

/-- N_END as booking takes it: beyond every number for the quarter held open (R326). -/
def State.nEnd (s : State) (b : Bnd) : Nat := if s.bil.isOpen ∧ b.q = s.get bilQ_Q then 2 ^ 64 - 1 else b.nE

/-- A new boundary record, and the records older than the newest 4,096 quarters dropped (R324). -/
def State.bndUpds (s : State) (b : Bnd) : List StoreUpd :=
  .record tabBnd b.q b.row ::
    (((smGet [] s.live.tables tabBnd).filter fun p => decide (p.1 + 4096 ≤ b.q)).map fun p => .record tabBnd p.1 [])

/-- Load-profile status bits that QFLAGS give (R329). -/
def qBits (f : Nat) : Nat :=
  ofBool (natBit f 0) + 2 * ofBool (natBit f 1) + 32 * ofBool (natBit f 3) + 2 ^ 14 * ofBool (natBit f 4) + 64 * ofBool (natBit f 5)

/-- Load-profile status bits that a rate byte gives (R329). -/
def rBits (r : Nat) : Nat := 8 * ofBool (natBit r 4) + 16 * ofBool (natBit r 5)

/-! ### Closing a quarter of a set -/

/-- What closing quarters of a set gives: the set, stored changes, debits (quarter, Wh, rate), events, whether the period
closed. -/
structure Closed where
  st : BSet := {}
  upds : List StoreUpd := []
  debits : List (Nat × Nat × Nat) := []
  evs : List Nat := []
  period : Bool := false
  deriving DecidableEq, Repr

/-- Entries of a set's ring (R330). -/
def State.lpRing (s : State) : Nat := max 1 (s.get bilCfg_RETAIN) * 96

/-- The period record (R333) and the set after the close. -/
def BSet.closePeriod (b : BSet) (key q n flags : Nat) : BSet × StoreUpd :=
  let r := [b.period, flags + b.pbits, b.pstart, q + 1, n] ++ b.imp ++ b.exp ++ b.dem ++ b.demQ ++ b.back ++ b.react
  ({ b with dem := List.replicate 16 0, demQ := List.replicate 16 0, period := (b.period + 1) % 65536, pstart := q + 1
            pbits := 0 }, .record tabPer (key * 16 + b.period % 13) r)

/-- close_quarter (R328 to R333) of a set on the quarter of a boundary record. `withLp` is clear for a quarter without a
load-profile entry, `extra` holds further status bits. -/
def State.closeQuarter (s : State) (key : Nat) (b : Bnd) (withLp : Bool) (extra : Nat) (c : Closed) : Closed :=
  let x := c.st
  let site := key == 0
  let tot := (List.range 4).map fun i => x.openE.getD i 0 + x.carry.getD i 0
  let wh := if site then tot.map (· / 1000) else x.openE
  let rb := b.rates.getD x.tgroup 0
  let r := rb % 16
  let status := x.openFlags ||| qBits b.flags ||| rBits rb ||| extra ||| (if site then 2 ^ 11 else 0)
  let dem := if site then x.openE.getD 0 0 * 4 / 1000 else wh.getD 0 0 * 4
  let top := !natBit status 2 && !natBit status 12 && decide (x.dem.getD r 0 < dem)
  let x1 : BSet := { x with
    imp := addIn x.imp r (wh.getD 0 0), exp := addIn x.exp r (wh.getD 1 0)
    react := addIn (addIn x.react 0 (wh.getD 2 0)) 1 (wh.getD 3 0)
    dem := if top then x.dem.set r dem else x.dem, demQ := if top then x.demQ.set r b.q else x.demQ
    carry := if site then tot.map (· % 1000) else x.carry
    openE := List.replicate 4 0, openFlags := 0, openQ := b.q + 1
    pbits := x.pbits ||| 4 * ofBool (natBit status 5) ||| 8 * ofBool (natBit status 0) ||| 16 * ofBool (natBit status 6) }
  let lp := if withLp then [StoreUpd.record tabLp (key * 2 ^ 40 + b.q % s.lpRing) ([b.q] ++ wh.map (· % 2 ^ 32) ++ [status])]
            else []
  let cl := b.closes.getD x.tgroup 0
  let p := x1.closePeriod key b.q b.nE (cl - 1)
  { st := if cl = 0 then x1 else p.1
    upds := c.upds ++ lp ++ (if cl = 0 then [] else [p.2])
    debits := c.debits ++ [(b.q, wh.getD 0 0, r)]
    evs := c.evs ++ (if top && site then [270] else [])
    period := c.period || decide (cl ≠ 0) }

/-! ### Booking -/

/-- A quarter as booking walks over it: its record (none for the quarters beyond the kept ones, R327) and its end. -/
structure Walk where
  rec1 : Option Bnd := none
  start : Nat := 0
  stop : Nat := 0
  deriving DecidableEq, Repr

/-- The quarters from a set's open one on, a missing stretch as one quarter before the oldest kept (R326, R327). -/
def State.walks (s : State) (openQ : Nat) : List Walk :=
  let bs := s.bnds
  let miss := match bs with
    | b :: _ => if openQ < b.q then [{ stop := b.nS : Walk }] else []
    | [] => []
  miss ++ (bs.filter fun b => decide (openQ ≤ b.q)).map fun b => { rec1 := some b, start := b.nS, stop := s.nEnd b }

/-- The pieces of a stretch [a, b) of a quarter, cut at BACK_S and BACK_E (R341): each with whether it lies in the span. -/
def pieces (w : Walk) (a b : Nat) : List (Nat × Nat × Bool) :=
  match w.rec1 with
  | none => [(a, b, false)]
  | some r =>
    if r.bS = 0 then [(a, b, false)]
    else
      let x := min b (max a r.bS)
      let y := if r.bE = 0 then b else min b (max x r.bE)
      [(a, x, false), (x, y, true), (y, b, false)]

/-- One piece booked: its share of each register, the remainder where the piece is the last (R326). -/
def bookPiece (d : List Nat) (span : Nat) (last : Bool) (p : Nat × Nat × Bool) (c : BSet × List Nat) : BSet × List Nat :=
  let sh := (List.range 4).map fun i =>
    if last then (d.getD i 0 + 2 ^ 64 - c.2.getD i 0) % 2 ^ 64 else d.getD i 0 * (p.2.1 - p.1) / span % 2 ^ 64
  let x := c.1
  ({ x with openE := List.zipWith (fun a b => (a + b) % 2 ^ 32) x.openE sh
            back := if p.2.2 then addIn (addIn x.back 0 (sh.getD 0 0)) 1 (sh.getD 1 0) else x.back
            openFlags := x.openFlags ||| (if p.2.2 && decide (p.1 < p.2.1) then 32 else 0) },
   List.zipWith (fun a b => (a + b) % 2 ^ 64) c.2 sh)

/-- The pieces of a quarter booked in order. -/
def bookPieces (d : List Nat) (span : Nat) (final : Bool) : List (Nat × Nat × Bool) → BSet × List Nat → BSet × List Nat
  | [], c => c
  | [p], c => bookPiece d span final p c
  | p :: ps, c => bookPieces d span final ps (bookPiece d span false p c)

/-- The missing quarters closed as one (R327): the default rate, no load-profile entry, event 276. -/
def State.closeMissing (s : State) (b0 : Nat) (c : Closed) : Closed :=
  let r := s.defaultRate c.st.tgroup
  let x := c.st
  { c with st := { x with imp := addIn x.imp r (x.openE.getD 0 0), exp := addIn x.exp r (x.openE.getD 1 0)
                          react := addIn (addIn x.react 0 (x.openE.getD 2 0)) 1 (x.openE.getD 3 0)
                          openE := List.replicate 4 0, openFlags := 0, openQ := b0 }
           debits := c.debits ++ [(b0, x.openE.getD 0 0, r)], evs := c.evs ++ [276] }

/-- The Booking procedure over the quarters (R326): each books its pieces and closes where its end is reached. -/
def State.bookWalk (s : State) (key n1 st : Nat) (d : List Nat) (cur span : Nat) (multi : Bool) (next : Nat) :
    List Walk → Closed → List Nat → Closed
  | [], c, _ => c
  | w :: ws, c, done =>
    let a := max cur w.start
    let b := min n1 w.stop
    let r := bookPieces d span (decide (b = n1)) (pieces w a b) (c.st, done)
    let c1 := { c with st := { r.1 with openFlags := r.1.openFlags ||| st ||| (if multi then 4 else 0) } }
    let c2 := if b = w.stop then (match w.rec1 with
        | some bd => s.closeQuarter key bd true 0 c1
        | none => s.closeMissing next c1) else c1
    if b = n1 then c2 else State.bookWalk s key n1 st d cur span multi next ws c2 r.2

/-- bill (R326): the set after a record of crossing number n1 and registers r1 above its cursor. -/
def State.bill (s : State) (key n1 : Nat) (r1 : List Nat) (st : Nat) (x : BSet) : Closed :=
  let ws := s.walks x.openQ
  let d := (List.range 4).map fun i => (r1.getD i 0 + 2 ^ 64 - x.curReg.getD i 0) % 2 ^ 64
  let touched := (ws.filter fun w => decide (max x.curN w.start < min n1 w.stop)).length
  let next := match s.bnds with
    | b :: _ => b.q
    | [] => x.openQ
  let c := s.bookWalk key n1 st d x.curN (n1 - x.curN) (decide (1 < touched)) next ws { st := x } (List.replicate 4 0)
  { c with st := { c.st with curN := n1, curReg := r1 } }

/-- The quarter in which a first cursor lies: the newest that begins at or before it; before every kept one none (R319). -/
def State.quarterOf (s : State) (n : Nat) : Nat :=
  match (s.bnds.filter fun b => decide (b.nS ≤ n)).getLast? with
  | some b => b.q
  | none => match s.bnds with
    | b :: _ => b.q - 1
    | [] => 0

/-- The set whose cursor an accepted record sets, booking no energy (R319). Energy gathered before a re-enrolment closes with
the quarter it was booked to (DEDUCED, log entry 52). -/
def State.setCursor (s : State) (key : Nat) (x : BSet) (n1 : Nat) (r1 : List Nat) : Closed :=
  let q := s.quarterOf n1
  let had := x.openE.any (· ≠ 0) && decide (x.openQ < q)
  let c : Closed := if had then (match s.bnd x.openQ with
      | some b => s.closeQuarter key b true 0 { st := x }
      | none => s.closeMissing q { st := x }) else { st := x }
  let y := c.st
  { c with st := { y with sflags := y.sflags / 2 * 2 + 1, curN := n1, curReg := r1, openQ := q
                          pstart := if y.period = 0 ∧ y.pstart = 0 then q else y.pstart } }

/-! ### Periods -/

/-- Local day, month index and hour of a group at UTC seconds: by a calendar, else in UTC (R332). -/
def periodIdx (c : Option (List Byte)) (t day hour : Nat) : Nat :=
  let l : Int := match c with
    | some c => (localAt c t).1
    | none => (t : Int)
  let dt := dateOf (l / 86400)
  let h := (l % 86400 / 3600).toNat
  let m := (dt.1 * 12 + (dt.2.1 : Int)).toNat
  if dt.2.2 < day ∨ (dt.2.2 = day ∧ h < hour) then m - 1 else m

/-- A group's calendar once a list of groups has its pending one active. -/
def State.calAfter (s : State) (acts : List Nat) (g : Nat) : Option (List Byte) :=
  if g ∈ acts then (s.calPending g).map (·.2) else s.calActive g

/-- What a boundary closes by group (R332): PFLAGS + 1 where its period closes at it; and the index of the last close.
`late` tells a boundary whose group runs late. -/
def State.periodCloses (s : State) (acts : List Nat) (b : Nat) (late : Bool) : List Nat × List Nat :=
  let old := s.live.row tabBil 1
  let idx := fun (g t : Nat) => periodIdx (s.calAfter acts g) t (s.get bilCfg_CLOSE_DAY) (s.get bilCfg_CLOSE_HOUR)
  let rows := (List.range 64).map fun g =>
    let o := old.getD g 0
    let n := idx g b
    if o ≠ 0 ∧ o < n then (1 + ofBool (late || decide (o < idx g (b - 900))) + 2 * ofBool (s.trust == 2), n)
    else (0, max o n)
  (rows.map (·.1), rows.map (·.2))

/-! ### The boundary group -/

/-- The rates of the open quarter, confirmed at its close (R313): its provisional ones while trust stood, else the defaults. -/
def State.confirm (s : State) (b : Bnd) (good : Bool) : List Nat :=
  if good then b.rates else (List.range 64).map fun g => s.rateByte g (b.q * 900) false

/-- The provisional rates of a quarter that opens at UTC seconds, calendars activated: the defaults while the calendar is suspended
(R314). -/
def State.provisional (s : State) (acts : List Nat) (t : Nat) : List Nat :=
  let s1 : State := { s with live := s.live.applyAll s.man (s.actUpds acts)
                             trf := { s.trf with lost := s.trf.lost.filter (· ∉ acts) } }
  (List.range 64).map fun g => s1.rateByte g t s.trustGood

/-- What is fixed of a boundary group at its pre-staging (R322, R323): the closing quarter's calendar and default rates, the period closes
at b, the provisional rates of the quarter that begins. -/
def State.planOf (s : State) (acts : List Nat) (b : Nat) (late : Bool) : BPlan :=
  let p0 := (s.bnd (s.get bilQ_Q)).getD {}
  let pc := s.periodCloses acts b late
  { rates := s.confirm p0 true, deflt := s.confirm p0 false, closes := pc.1, index := pc.2, next := s.provisional acts b }

/-- What a boundary group does beside its stored changes. -/
structure BoundaryRes where
  upds : List StoreUpd := []
  site : Closed := {}
  acts : List Nat := []
  closed : Bool := false
  groups : List Nat := []
  deriving DecidableEq, Repr

/-- The site's energy over the open quarter, and what of it lies in a backstep span (R322 action 2, R341). -/
def State.siteBook (s : State) (regs : List Nat) (x : BSet) : BSet :=
  let d := (List.range 4).map fun i => (regs.getD i 0 + 2 ^ 64 - x.curReg.getD i 0) % 2 ^ 64
  let a := s.live.row tabBil 2
  let bk := if a = [] then x.bcarry else
    let e := if s.live.row tabBil 3 = [] then regs else s.live.row tabBil 3
    (List.range 2).map fun i => (e.getD i 0 + 2 ^ 64 - a.getD i 0) % 2 ^ 64 + x.bcarry.getD i 0
  { x with openE := List.zipWith (· + ·) x.openE d
           back := addIn (addIn x.back 0 (bk.getD 0 0 / 1000)) 1 (bk.getD 1 0 / 1000), bcarry := bk.map (· % 1000) }

/-- The high-water (R322 action 5): the boundary as its TAI instant, with the offset it was set with. -/
def State.hwUpd (s : State) (b : Nat) : StoreUpd :=
  .record tabBil 0 [((b : Int) + toSigned 16 (s.get xingUtcOfs_OFFSET)).toNat, b]

/-- The six actions of a boundary group (R322), as stored changes: the open quarter P closes at crossing n with the site's
counters at regs, quarter `next` opens at UTC seconds b; `pl` is what is fixed, `good` chooses the calendar rates. -/
def State.boundary (s : State) (b n next : Nat) (regs : List Nat) (good withLp : Bool) (flags newFlags : Nat)
    (acts : List Nat) (pl : BPlan) : BoundaryRes :=
  match s.bnd (s.get bilQ_Q) with
  | none => {}
  | some p0 =>
    let p : Bnd := { p0 with nE := n, rates := if good then pl.rates else pl.deflt, closes := pl.closes
                             flags := p0.flags ||| flags ||| s.bil.qflags ||| 32 * ofBool s.bil.sealOpen
                               ||| 8 * ofBool (p0.bS != 0) }
    let extra := s.bil.siteBits ||| 2 ^ 7 * ofBool (s.met.uncal || s.flag metStatus_CAL_LOST) ||| 2 ^ 8 * ofBool s.met.calChanged
      ||| 2 ^ 10 * ofBool s.met.notProven
    let c := s.closeQuarter 0 p withLp extra { st := s.siteBook regs s.siteSet }
    let x : BSet := { c.st with curN := n, curReg := regs, openQ := next, sflags := 3 }
    let o : Bnd := { q := next, flags := newFlags, nS := n, rates := pl.next }
    { upds := [.record tabBnd p.q p.row, .record tabSet 0 x.row] ++ c.upds ++ s.actUpds acts
        ++ [.record tabBil 1 pl.index, s.hwUpd b]
        ++ (if s.live.row tabBil 2 = [] then [] else [.record tabBil 2 [], .record tabBil 3 []]) ++ s.bndUpds o ++ flagEnds 1 s.met.calChanged
        ++ flagEnds 0 (s.met.notProven && c.period) ++ flagEnds 2 (s.live.row tabFlag 2 != []) ++ flagEnds 3 (s.live.row tabFlag 3 != [])
        ++ flagEnds 5 (s.live.row tabFlag 5 != [] && s.trustGood)
      site := { c with st := x }, acts := acts, closed := pl.closes.any (· ≠ 0)
      groups := (List.range 64).filter fun g => decide (pl.closes.getD g 0 ≠ 0) }

/-- A sealed record as an action of a boundary group (R322): a write of its bytes where it lies. The closing quarter's record and what
holds the site's energy have late operands (R323), whose source ARG names (R358). -/
def boundaryAction (p : Nat) (u : StoreUpd) : List Action :=
  let source := match u with
    | .record t k _ => if t = tabBnd ∧ k = p then 2 else if t = tabSet ∨ t = tabLp ∨ t = tabPer then 1 else 0
    | _ => 0
  (recActions [u]).map fun a => { a with aflags := 2 * ofBool (decide (source ≠ 0)), arg := source }

/-- The actions that a boundary group holds from its pre-staging on (R322, R323). -/
def State.boundaryActions (s : State) (t : Staged) : List Action :=
  ((s.boundary t.b t.n (t.b / 900) s.energies true true 0 0 t.acts t.plan).upds).flatMap (boundaryAction (s.get bilQ_Q))

/-- A boundary group is held with its intent and its actions (R322, R350, R358): each takes a staging place, a kept one while there is
one. -/
def State.holdBoundary (s : State) (t : Staged) (g : Nat) (x : Group) : State :=
  let as := s.boundaryActions t
  s.setGrp g { x with issuer := 0x3F, intent := t.intent, arm := t.n, purpose := .boundary (t.b / 900), actions := as
                      keptPlaces := s.keptFor g as.length }

/-- The site account's debit (R373, R375): account 0xFFFF. -/
def State.siteDebit (s : State) (ds : List (Nat × Nat × Nat)) : List StoreUpd × List (List Byte) × List Nat :=
  let a := s.acct 0xFFFF
  let r := a.debits 0xFFFF ds
  (if r.1 = a then [] else [.record tabAcct 0xFFFF r.1.row], r.2.1, r.2.2)

/-- Whether a debit of the site account waits for an earlier group of that account (R376). -/
def State.debitWaits (s : State) (d : List StoreUpd × List (List Byte) × List Nat) : Bool := decide (d.1 ≠ []) && s.acctBusy 0xFFFF

/-- BIL_STAT.OPEN (R333). -/
def State.showOpen (s : State) : State := s.setSat bilStat_OPEN s.bil.openSets.length

/-- A set has closed the period (R333): event 269 when none is left. -/
def State.setClosed (s : State) (key : Nat) : State :=
  if key ∈ s.bil.openSets then
    let l := s.bil.openSets.filter (· ≠ key)
    (State.showOpen { s with bil := { s.bil with openSets := l } }).raiseIf (decide (l = [])) 269
  else s

/-- The sets of groups that have closed chip-wide, the site's among them; an endpoint's counts once its cursor is set (DEDUCED, log entry
52). -/
def State.setsOf (s : State) (groups : List Nat) : List Nat :=
  (if s.siteGroup ∈ groups then [0] else []) ++
    ((s.ctxSlots.filter fun k => s.hasSet k && (s.bsetOf k).cursor && decide (s.ctxAt k 18 1 ∈ groups)).map (· + 1))

/-- The sets that have not closed the last period, after a restart (R333): those whose open quarter is not past the last one that closed a
period of their group. -/
def State.openAfter (s : State) : List Nat :=
  match (s.bnds.filter fun b => b.closes.any (· ≠ 0)).getLast? with
  | none => []
  | some b =>
    (s.setsOf ((List.range 64).filter fun g => decide (b.closes.getD g 0 ≠ 0))).filter fun k =>
      decide ((if k = 0 then s.siteSet else s.bsetOf (k - 1)).openQ ≤ b.q)

/-- What follows the seal of a boundary group (R323, R332, R333): the open quarter's number, what its record gathers begins
anew, events. -/
def State.boundaryDone (s : State) (r : BoundaryRes) (b next : Nat) (d : List StoreUpd × List (List Byte) × List Nat) : State :=
  let s1 : State := { s with
    bil := { s.bil with isOpen := true, trustBad := !s.trustGood, sealOpen := s.sealOpen, qflags := 0, siteBits := 0
                        openSets := if r.closed then s.setsOf r.groups else s.bil.openSets }
    met := { s.met with calChanged := false, notProven := s.met.notProven && !r.site.period, uncal := s.flag metStatus_CAL_LOST } }
  let s2 := ((((s1.set bilQ_Q next).setReg bilHwHi (BitVec.ofNat 32 (b / 2 ^ 32 % 65536))).setReg bilHwLo (BitVec.ofNat 32 b)).raise
    264).showOpen
  let s3 := (s2.raiseIf r.closed 268).activated r.acts
  let s4 := r.site.evs.foldl State.raise s3
  let s5 := if r.site.period then s4.setClosed 0 else s4
  (if d.1 = [] then s5 else s5.acctHeld 0xFFFF).acctOut d.2.1 d.2.2

/-- A boundary group that takes no pre-staging (R325, R337): opened, sealed, its effects. False while no group is free. -/
def State.boundaryNow (s : State) (b n next : Nat) (regs : List Nat) (good withLp late : Bool) (flags newFlags : Nat)
    (acts : List Nat) : State × Bool :=
  let r := s.boundary b n next regs good withLp flags newFlags acts (s.planOf acts b late)
  let d := s.siteDebit r.site.debits
  if s.debitWaits d then (s, false)
  else
    let g := s.sealedGroup [] (r.upds ++ d.1) (.boundary next)
    if g.2 then (g.1.boundaryDone r b next d, true) else g

/-- Whether a quarter's rates may stand at its close (R313). -/
def State.quarterGood (s : State) : Bool := !s.bil.trustBad && s.trustGood

/-- What the intent record of a boundary group holds (R322, R323). -/
def Staged.nums (t : Staged) : List Nat :=
  [t.b, t.n, t.acts.length] ++ t.acts ++ t.plan.rates ++ t.plan.deflt ++ t.plan.closes ++ t.plan.index ++ t.plan.next

/-- A staged group read back from its intent record. -/
def Staged.ofNums (g j : Nat) (r : List Nat) : Staged :=
  let k := r.getD 2 0
  let f := fun (i : Nat) => rowCut r (3 + k + 64 * i) 64
  { grp := g, b := r.getD 0 0, n := r.getD 1 0, acts := rowCut r 3 k, intent := j
    plan := { rates := f 0, deflt := f 1, closes := f 2, index := f 3, next := f 4 } }

/-- Pre-staging (R310, R322, R323): a reserved group that holds its actions, its intent record, activations fixed. -/
def State.prestage (s : State) : State :=
  let b := s.plc.snapB
  let n := s.plc.snapN
  match s.openGroup 0x3F true with
  | (0x00, g, s1) =>
    let acts := s1.dueActs b
    let j := s1.cmt.next
    let t : Staged := { grp := g, b := b, n := n, acts := acts, intent := j, plan := s1.planOf acts b false }
    let rec1 : JRec := { typ := 2, group := g, acts := s1.boundaryActions t, jseq := j, stamp := s1.stamp 8, jflags := 1, arm := n
                         upds := [.record tabIntent 0 t.nums] }
    let s2 : State := { s1 with cmt := { s1.cmt with next := j + 1, journal := s1.cmt.journal ++ [rec1] } }
    let s3 := s2.holdBoundary t g (s2.grp g)
    let s4 : State := { s3 with bil := { s3.bil with staged := some t }, trf := { s3.trf with fixedAct := acts } }
    s4.set bilStat_STAGED 1
  | (_, _, s1) => s1

/-- The staged group is sealed with the latched set at its crossing (R323); while too many sealed records are not yet durable (R93), or an
earlier group of the site account is not (R376), it waits, its latch kept. -/
def State.sealStaged (s : State) (t : Staged) (n : Nat) (regs : List Nat) (good : Bool) (flags : Nat) : State :=
  let r := s.boundary t.b n (t.b / 900) regs good true flags 0 t.acts t.plan
  let d := s.siteDebit r.site.debits
  if !s.sealedRoom (sealedCount (r.upds ++ d.1)) || s.debitWaits d then s
  else
    let s1 := (s.sealGroup t.grp [] 1 (r.upds ++ d.1)).boundaryDone r t.b (t.b / 900) d
    State.set { s1 with bil := { s1.bil with staged := none }, trf := { s1.trf with fixedAct := [] } } bilStat_STAGED 0

/-- A staged group whose crossing has passed and that waits is sealed (R93, R560). -/
def State.sealWaiting (s : State) : State :=
  match s.bil.staged with
  | some t => if t.n = s.bil.latchN ∧ s.warned = false then s.sealStaged t t.n s.bil.latch s.quarterGood 0 else s
  | none => s

/-- Whether boundary groups run: not in LOST, nor during a backstep hold (R325, R341). -/
def State.boundariesRun (s : State) : Bool := decide (s.trust ≠ 3) && !s.flag bilStat_HOLD

/-- The billing engine at a latch (R323, R340): the staged group is sealed; during a warning the latch is kept for the replay. In LOST
or a backstep hold no boundary group runs (R325, R341): the staged one is withdrawn (R359). -/
def State.bilLatch (s : State) (n : Nat) (regs : List Nat) : State :=
  let s1 : State := { s with bil := { s.bil with latchN := n, latch := regs } }
  match s1.bil.staged with
  | some t =>
    if t.n ≠ n ∨ s1.warned then s1
    else if !s1.boundariesRun then s1.withdraw t.grp
    else s1.sealStaged t n regs s1.quarterGood 0
  | none => s1

/-- An abandoned group replayed from its intent (R337, R340, R361): event 266, JFLAGS bit 1, and bit 2 after a ride-through. A
group number is taken anew. Every journal record is durable then, so that R93 leaves room. In LOST or a backstep hold it does not run
(R325, R341). -/
def State.replayIntent (s : State) (t : Staged) (n : Nat) (regs : List Nat) (good : Bool) (flags : Nat) : State :=
  let r := s.boundary t.b n (t.b / 900) regs good true flags 0 t.acts t.plan
  let d := s.siteDebit r.site.debits
  let g := ([60, 61, 62, 63].find? fun g => !(s.grp g).held).getD 60
  if !s.boundariesRun || !s.sealedRoom (sealedCount (r.upds ++ d.1)) then
    { s with bil := { s.bil with left := none }, trf := { s.trf with fixedAct := [] } }
  else
  let s0 := s.holdBoundary t g { st := .prestaged, intentDurable := true }
  let s1 := ((s0.sealGroup g [] (3 + 4 * ofBool (flags == 2)) (r.upds ++ d.1)).boundaryDone r t.b (t.b / 900) d).bump cmtAborts_REPLAYED 1
  State.raise { s1 with bil := { s1.bil with left := none }, trf := { s1.trf with fixedAct := [] } } 266

/-! ### Passed boundaries -/

/-- The first quarter opens (R321; DEDUCED, log entry 49): the one that holds the first crossing, from that crossing on. -/
def State.firstOpen (s : State) (c : Nat) : State × Bool :=
  let q := s.utcSec / 900
  let x : BSet := { s.siteSet with sflags := 3, curN := c, curReg := s.energies, openQ := q
                                   pstart := if s.siteSet.period = 0 then q else s.siteSet.pstart }
  let o : Bnd := { q := q, nS := c, rates := s.provisional [] (q * 900) }
  let pc := s.periodCloses [] (q * 900) false
  let g := s.sealedGroup [] ([.record tabSet 0 x.row, .record tabBil 1 pc.2, s.hwUpd (q * 900)] ++ s.bndUpds o) (.boundary q)
  if g.2 then
    let s1 : State := { g.1 with bil := { g.1.bil with isOpen := true, trustBad := true, sealOpen := g.1.sealOpen } }
    (((s1.set bilQ_Q q).setReg bilHwHi (BitVec.ofNat 32 (q * 900 / 2 ^ 32 % 65536))).setReg bilHwLo (BitVec.ofNat 32 (q * 900)),
      true)
  else g

/-- N of a boundary computed from crossing c, which begins t ns (UTC) (R159, R337). -/
def State.computedN (s : State) (c t b : Nat) : Nat :=
  let d : Int := ((b * nsPerSec : Nat) : Int) - (t : Int)
  ((c : Int) - Int.fdiv (-d) ((max 1 s.period : Nat) : Int)).toNat

/-- UTC time in ns. -/
def State.utcNs (s : State) : Nat := ((s.clk.ptp : Int) - toSigned 16 (s.get xingUtcOfs_OFFSET) * (nsPerSec : Nat)).toNat

/-- The quarter after the one held open in a catch-up up to quarter qn: of more than 96 passed quarters the older ones are
passed over (R325). -/
def nextQuarter (p qn : Nat) : Nat := max (p + 1) (qn - 96)

/-- Passed boundaries closed one by one, in time order (R325, R337). A period close at a boundary that passed while no group ran is late
(R332); after a restart each has its own group (R337; DEDUCED, log entry 49). -/
def State.catchLoop (c qn : Nat) (restart : Bool) : Nat → State → State × Bool
  | 0, s => (s, true)
  | fuel + 1, s =>
    let p := s.get bilQ_Q
    if qn ≤ p then (s, true)
    else
      let next := nextQuarter p qn
      let b := next * 900
      let n := if restart then s.computedN c s.utcNs b else c
      let opened := match s.bnd p with
        | some x => x.nS
        | none => 0
      let later := decide (opened = c)
      let regs := if restart then s.bil.base else if later then s.siteSet.curReg else s.energies
      let r := s.boundaryNow b n next regs s.quarterGood (decide (qn - p ≤ 96)) (!restart)
        (if restart then 5 else if later then 16 else 0) (if restart ∧ next = qn then 5 else 0) (s.dueActs b)
      let s1 : State := if restart then r.1 else { r.1 with bil := { r.1.bil with trustBad := s.bil.trustBad } }
      if r.2 then State.catchLoop c qn restart fuel s1 else r

/-- A catch-up as far as groups allow (R325, R337): event 275, or 267 after a restart; else it waits (R560). -/
def State.catchUp (s : State) (c qn : Nat) (restart : Bool) : State :=
  let r := State.catchLoop c qn restart 98 s
  let s1 := r.1
  if r.2 then
    State.raise { s1 with bil := { s1.bil with catchup := none, restart := false, base := []
                                               qflags := s1.bil.qflags ||| ofBool restart } } (if restart then 267 else 275)
  else { s1 with bil := { s1.bil with catchup := some (c, qn, restart) } }

/-! ### Endpoint close groups -/

/-- The Hold address of the newest load-profile entry among changes; 0 where there is none. -/
def lpNewest (us : List StoreUpd) : Nat :=
  us.foldl (fun n u => match u with
    | .record t k _ => if t = tabLp then sealAddr tabLp k 0 else n
    | _ => n) 0

/-- The load-profile entries that a close group has to hand over before its seal (R93, R349): those beyond 255 records, oldest first; they become
durable on their own (log entry 21), and a group that is lost writes the same entries again. -/
def earlyEntries (us : List StoreUpd) : List StoreUpd :=
  (us.filter fun u => match u with
    | .record t _ _ => t == tabLp
    | _ => false).take (sealedCount us - 255)

/-- An endpoint close group (R320): the set and what it closed, LP_PTR and CKPT_PTR (R265), the debits of its account. False while it
waits (R376, R560). -/
def State.closeGroup (s : State) (k : Nat) (c : Closed) : State × Bool :=
  let n := s.ctxAt k 116 2
  let r := (s.acct n).debits n c.debits
  let debit := decide (n ≠ 0xFFFF) && decide (c.debits ≠ []) && decide ((s.acct n).st ≠ 0)
  if debit && s.acctBusy n then (s, false)
  else
    let lp := if lpNewest c.upds = 0 then s.ctxAt k 248 8 else lpNewest c.upds
    let ptr : Action := { kind := 3, len := 16, target := k, arg := 248, data := be 8 lp ++ be 8 (sealAddr tabSet (k + 1) 0) }
    let us := .record tabSet (k + 1) c.st.row :: c.upds ++ (if debit then [.record tabAcct n r.1.row] else [])
    let early := earlyEntries us
    let s0 := early.foldl (fun (st : State) u => match u with
      | .record t i v => st.sealedStore t i v
      | _ => st) s
    let g := s0.sealedGroup [ptr] (us.filter fun u => !early.contains u) .billing
    if g.2 then
      let s1 := if debit then (g.1.acctHeld n).acctOut r.2.1 r.2.2 else g.1
      let s2 := c.evs.foldl State.raise s1
      (if c.period then s2.setClosed (k + 1) else s2, true)
    else g

/-- A set after one more load-profile entry of its ring (R94): quarter `q` booked with the entry's values, its cursor at the quarter's
end. -/
def State.addEntry (s : State) (key : Nat) (x : BSet) (q : Nat) : BSet :=
  let r := s.live.row tabLp (key * 2 ^ 40 + q % s.lpRing)
  match s.bnd q with
  | none => x
  | some b =>
    if r = [] ∨ r.getD 0 0 ≠ q then x
    else
      let e := rowCut r 1 4
      let kwh := if key = 0 then 1000 else 1
      let d := (List.range 4).map fun i => e.getD i 0 * kwh - x.openE.getD i 0
      let c := s.closeQuarter key b false 0 { st := { x with openE := e.map (· * kwh), carry := List.replicate 4 0 } }
      { c.st with curN := b.nE, curReg := List.zipWith (· + ·) x.curReg d }

/-- A billing set that is lost in every copy (R94): rebuilt from the checkpoint before and the load-profile entries after it. The entries
of the rebuilt quarters read back with status bit 9 (R329; DESIGN CHOICE, log entry 51). -/
def State.rebuilt (s : State) (key : Nat) : BSet :=
  let x := BSet.ofRow (smGet [] s.live.prev key)
  let qs := (s.bnds.filter fun b => decide (x.openQ ≤ b.q)).map fun b => b.q
  let y := qs.foldl (s.addEntry key) x
  { y with reb := [x.openQ, y.openQ + 1] }

/-- A rebuilt billing set takes the place of the lost one. -/
def State.rebuildSet (s : State) (key : Nat) : State := s.sealedStore tabSet key (s.rebuilt key).row

/-- The set of an endpoint as the Hold gives it back (R94): a copy that fails is rewritten from the other; a set lost in every copy is
rebuilt. -/
def State.readSet (s : State) (k : Nat) (reads : List SealRead) : BSet × State :=
  let r := s.copies reads tabSet (k + 1)
  let s1 := match r.1, r.2 with
    | [], _ => s
    | c :: _, some x => (s.integrityFailure tabSet (k + 1) c).sealedStore tabSet (k + 1) x.2
    | c :: _, none => (s.integrityFailure tabSet (k + 1) c).rebuildSet (k + 1)
  (s1.bsetOf k, s1)

/-- An accepted CRR (R318, R319, R326). -/
def State.billCrr (s : State) (k : Nat) (r : List Byte) (reads : List SealRead) : State × Bool :=
  let n1 := beAt r 14 6
  let r1 := (List.range 4).map fun i => beAt r (20 + 6 * i) 6
  let st := if beAt r 44 2 ≠ 0 then 2 ^ 13 else 0
  let p := s.readSet k reads
  let x := p.1
  if !x.cursor then p.2.closeGroup k (s.setCursor (k + 1) x n1 r1)
  else if n1 ≤ x.curN then (p.2, true)
  else
    let pr := if s.met.notProven then 2 ^ 10 else 0
    p.2.closeGroup k (s.bill (k + 1) n1 r1 (st ||| pr) x)

/-- An accepted session record waits for its quarters as a sealed record (R334). -/
def State.sessIn (s : State) (k : Nat) (r : List Byte) : State × Bool :=
  let key := match (smGet [] s.live.tables tabSess).getLast? with
    | some p => p.1 + 1
    | none => 0
  s.sealedGroup [] [.record tabSess key ([k, s.epIndex k, s.ctxAt k 18 1, s.epEui k] ++ nums r)] .billing

/-- A forwarded record at the sealed inbound queue (R318): verdicts 0x00, 0x02 and 0x03 are billed; the site record, and a
record whose endpoint is no longer registered, are passed over. -/
def State.billStep (s : State) (b : List Byte) (reads : List SealRead) : State × Bool :=
  let k := beAt b 0 4
  let v := beAt b 8 1
  let r := b.drop 32
  let lsr := beAt r 0 1 % 16 == 8
  let eui := if lsr then beAt r 4 8 else beAt r 2 8
  if ¬ (v = 0 ∨ v = 2 ∨ v = 3) ∨ eui = s.fuses.eui ∨ s.epState k ≠ 1 ∨ s.epEui k ≠ eui then (s, true)
  else if lsr then s.sessIn k r
  else s.billCrr k r reads

/-! ### Sessions -/

/-- The quarters of a session (R334): the stretch beyond the kept records as one, then the kept ones that it overlaps. -/
def State.sessWalks (s : State) (a b : Nat) : List Walk :=
  let old := match s.bnds with
    | x :: _ => if a < x.nS then [{ stop := min (max b (a + 1)) x.nS : Walk }] else []
    | [] => []
  old ++ (s.bnds.filter fun x => if a = b then decide (x.nS ≤ a) && decide (a < s.nEnd x)
      else decide (max a x.nS < min b (s.nEnd x))).map fun x => { rec1 := some x, start := x.nS, stop := s.nEnd x }

/-- Whether every quarter that a session touches has its closed boundary record. -/
def State.sessReady (s : State) (a b : Nat) : Bool :=
  s.bil.isOpen && match s.bnd (s.get bilQ_Q) with
    | some x => decide (max b (a + 1) ≤ x.nS)
    | none => false

/-- Shares by crossing overlap, the remainder to the last quarter (R326, R334). -/
def overlapShares (a b total : Nat) : List Walk → Nat → List Nat
  | [], _ => []
  | [_], done => [total - done]
  | w :: ws, done =>
    let p := if b ≤ a then 0 else total * (min b w.stop - max a w.start) / (b - a)
    p :: overlapShares a b total ws (done + p)

/-- The session result (R334, R335) of a record with its group and endpoint. -/
def State.sessResult (s : State) (x : Sess) : List Byte × Nat :=
  let r := x.bytes
  let at0 := fun (o n : Nat) => beAt r (32 + o) n
  let a := at0 12 6
  let b := at0 18 6
  let total := at0 6 6 - at0 0 6
  let ws := s.sessWalks a b
  let whole := decide (at0 36 1 = ws.length) && !natBit (beAt r 1 1) 1
  let shares := if whole then (List.range ws.length).map (fun i => at0 (48 + 6 * i) 6) else overlapShares a b total ws 0
  let rateOf1 := fun (w : Walk) => match w.rec1 with
    | some q => q.rates.getD x.tgroup 0
    | none => s.defaultRate x.tgroup
  let sums := (List.zip ws shares).foldl (fun l p => addIn l (rateOf1 p.1 % 16) p.2) (List.replicate 16 0)
  let expired := ws.any fun w => w.rec1.isNone
  let clock := ws.any fun w => w.rec1.isSome && natBit (rateOf1 w) 4
  let unsealed := ws.any fun w => match w.rec1 with
    | some q => natBit q.flags 5
    | none => false
  let sf := ofBool (!whole) + 2 * ofBool expired + 4 * ofBool clock + 8 * ofBool unsealed
  (be 1 0x21 ++ be 1 sf ++ be 2 ws.length ++ be 4 x.index ++ be 8 x.eui ++ be 4 (beAt r 12 4) ++ be 8 (at0 40 8)
    ++ be 1 x.tgroup ++ be 3 0 ++ sums.flatMap (be 6) ++ be 8 total, sf)

/-- A waiting session read back. -/
def Sess.ofRow (r : List Nat) : Sess :=
  { slot := r.getD 0 0, index := r.getD 1 0, tgroup := r.getD 2 0, eui := r.getD 3 0, bytes := bytesOf (r.drop 4) }

/-- The oldest waiting session whose quarters are complete gets its result (R334, R335): events 274, 276 and 273. -/
def State.sessNext (s : State) : State :=
  match (smGet [] s.live.tables tabSess).find? fun p =>
      let x := Sess.ofRow p.2
      s.sessReady (beAt x.bytes 44 6) (beAt x.bytes 50 6) with
  | none => s
  | some p =>
    let r := s.sessResult (Sess.ofRow p.2)
    let acts := match s.man.roles.sealedOut with
      | 0 => []
      | q + 1 => [{ kind := 4, len := r.1.length, target := q, arg := s.epFlow (Sess.ofRow p.2).slot, data := r.1 : Action }]
    let g := s.sealedGroup acts [.record tabSess p.1 [], .record tabSessRes p.1 (nums r.1)] .billing
    if g.2 then ((g.1.raiseIf (natBit r.2 0) 274).raiseIf (natBit r.2 1) 276).raise 273 else g.1

/-! ### Backstep -/

/-- The high-water in TAI seconds (R70). -/
def State.hwTai (s : State) : Nat := s.live.rowN tabBil 0 0

/-- A backstep hold begins (R341): event 271; a further backstep during it changes nothing. -/
def State.beginHold (s : State) : State :=
  if s.flag bilStat_HOLD then s
  else State.raise { (s.set bilStat_HOLD 1) with bil := { (s.set bilStat_HOLD 1).bil with wantS := true } } 271

/-- The first crossing stamped after the step becomes BACK_S of the open quarter (R341). A second hold within the quarter goes on with
the span that the first ended (DESIGN CHOICE, log entry 52). -/
def State.backStart (s : State) : State :=
  if !s.bil.wantS then s
  else
    let s1 : State := { s with bil := { s.bil with wantS := false } }
    match s1.bnd (s1.get bilQ_Q) with
    | some b =>
      if s1.bil.isOpen ∧ b.bS = 0 then
        (s1.sealedStore tabBil 2 s1.energies).sealedStore tabBnd b.q { b with bS := s1.xing.num }.row
      else if s1.bil.isOpen ∧ b.bE ≠ 0 then
        (s1.sealedStore tabBil 3 []).sealedStore tabBnd b.q { b with bE := 0 }.row
      else s1
    | none => s1

/-- The end of a backstep hold at a crossing at or past the high-water (R341): BACK_E, event 272. -/
def State.backEnd (s : State) : State :=
  let s1 := (s.set bilStat_HOLD 0)
  let s2 := match s1.bnd (s1.get bilQ_Q) with
    | some b =>
      if s1.bil.isOpen ∧ b.bS ≠ 0 then
        (s1.sealedStore tabBil 3 s1.energies).sealedStore tabBnd b.q { b with bE := s1.xing.num }.row
      else s1
    | none => s1
  State.raise { s2 with bil := { s2.bil with wantS := false } } 272

/-! ### Queries -/

/-- BIL_SEL's captured registers (R343). -/
def State.bilQuery (s : State) : State :=
  let key := if s.flag bilSel_SITE then 0 else s.get bilSel_SLOT + 1
  let rate := s.get bilSel_RATE
  let back := s.get bilSel_PERIOD
  let found : Option (List Nat) := match s.bset key with
    | none => none
    | some b =>
      if back = 0 then some (b.imp ++ b.exp ++ b.dem ++ b.demQ ++ b.back ++ b.react)
      else if 13 < back ∨ b.period < back then none
      else
        let r := s.live.row tabPer (key * 16 + (b.period - back) % 13)
        if r = [] ∨ r.getD 0 0 ≠ b.period - back then none else some (r.drop 5)
  let l := found.getD []
  let pick := fun (o : Nat) => l.getD o 0
  let imp := if rate < 16 then pick rate else if rate = 16 then pick 64 else if rate = 17 then pick 66 else 0
  let exp := if rate < 16 then pick (16 + rate) else if rate = 16 then pick 65 else if rate = 17 then pick 67 else 0
  let md := if rate < 16 then pick (32 + rate) else 0
  let mq := if rate < 16 then pick (48 + rate) else 0
  s.setWords bilImpHi [BitVec.ofNat 32 (ofBool found.isSome * 2 ^ 31 + imp / 2 ^ 32 % 65536), BitVec.ofNat 32 imp,
    BitVec.ofNat 32 (exp / 2 ^ 32 % 65536), BitVec.ofNat 32 exp, BitVec.ofNat 32 md, BitVec.ofNat 32 mq]

/-- A load-profile entry captured (R343), as the Hold gives it back; one whose tag fails reads with status bit 9 and zero values
(R94). -/
def State.lpQuery (s : State) (reads : List SealRead) : State :=
  let key := if s.flag bilLpSel_SITE then 0 else s.get bilLpSel_SLOT + 1
  let q := (s.reg bilLpQ).toNat
  let k := key * 2 ^ 40 + q % s.lpRing
  let c := s.copies reads tabLp k
  let bad := c.2.isNone
  let r := match c.2 with
    | some x => x.2
    | none => s.live.row tabLp k
  let held := decide (r ≠ []) && decide (r.getD 0 0 = q) && (s.bset key).isSome
  let words := if !held then List.replicate 6 0
    else if bad then [0, 0, 0, 0, 512 * 65536, 0]
    else
      let x := (s.bset key).getD {}
      let reb := decide (x.reb.getD 0 0 ≤ q) && decide (q < x.reb.getD 1 0)
      (List.range 4).map (fun i => r.getD (i + 1) 0) ++ [(r.getD 5 0 ||| 512 * ofBool reb) * 65536, 0]
  let s1 := ((s.set bilLpSel_VALID (ofBool held)).setWords (bilLpData 0) (words.map (BitVec.ofNat 32)))
  if held && bad then s1.integrityFailure tabLp k 0 else s1

/-! ### Power and start-up -/

/-- The billing engine at a power warning (R337): the staged group is abandoned, event 265; the cut record is placed. -/
def State.bilWarn (s : State) : State :=
  let s1 : State := match s.bil.staged with
    | some t => State.raise { (s.set bilStat_STAGED 0) with
        bil := { (s.set bilStat_STAGED 0).bil with staged := none, left := some t } } 265
    | none => s
  s1.sealedStore tabCut 0 ([1] ++ s1.energies ++ [s1.xing.num, ofBool s1.bil.trustBad, s1.bil.qflags, ofBool s1.bil.sealOpen,
    s1.bil.siteBits])

/-- The billing engine at ride-through (R340): status bit 1 for the quarter that held the warning; an abandoned group is replayed
with the latch of its crossing when that fell, else it is staged again. -/
def State.bilRide (s : State) : State :=
  let s0 : State := { s with bil := { s.bil with qflags := s.bil.qflags ||| 2 }, live := s.live.apply s.man (.record tabCut 0 [])
                             img := s.img.apply s.man (.record tabCut 0 []) }
  match s0.bil.left with
  | none => s0
  | some t =>
    if s0.bil.latchN = t.n then
      s0.replayIntent t t.n s0.bil.latch s0.quarterGood 2
    else if !s0.boundariesRun then { s0 with bil := { s0.bil with left := none }, trf := { s0.trf with fixedAct := [] } }
    else
      let s1 := s0.holdBoundary t t.grp { st := .prestaged, intentDurable := true }
      State.set { s1 with bil := { s1.bil with left := none, staged := some t }, trf := { s1.trf with fixedAct := t.acts } }
        bilStat_STAGED 1

/-- Billing's registers from the stored content at start-up: the open quarter, the high-water, a hold that stood. -/
def State.bilShow (s : State) : State :=
  match s.bnds.getLast? with
  | none => s
  | some b =>
    let hw := s.live.rowN tabBil 0 1
    let hold := decide (b.bS ≠ 0) && decide (b.bE = 0)
    let s1 : State := State.showOpen { s with bil := { s.bil with isOpen := true, openSets := s.openAfter } }
    ((((s1.set bilQ_Q b.q).setReg bilHwHi (BitVec.ofNat 32 (hw / 2 ^ 32 % 65536))).setReg bilHwLo (BitVec.ofNat 32 hw)).set
      bilStat_HOLD (ofBool hold))

/-- The energy accumulators go on from counters of the four energies; what was measured since the reset release counts on top (DESIGN
CHOICE, log entry 134). -/
def State.restoreEnergy (s : State) (e : List Nat) : State :=
  let v := fun (i : Nat) => e.getD i 0 * 3600000000000
  { s with met := { s.met with impA := s.met.impA + v 0, expA := s.met.expA + v 1, impR := s.met.impR + v 2, expR := s.met.expR + v 3 } }


/-- Billing at start-up (R337 steps 3 and 6, R339): counters from the cut record, or from the last durable latch with status
bits 0 and 12; an intent without a seal is replayed with them. -/
def State.bilStart (s : State) (intent : Option Staged) : State :=
  let s0 := s.bilShow
  if !s0.bil.isOpen then s0
  else
    let cut := s0.live.row tabCut 0
    let regs := if cut = [] then s0.siteSet.curReg else rowCut cut 1 4
    let s1 := s0.restoreEnergy regs
    let s2 : State := { s1 with
      bil := { s1.bil with restart := true, base := regs, trustBad := !s1.trustGood || s1.live.row tabFlag 5 != [] || cut.getD 6 0 == 1
                           qflags := cut.getD 7 0 ||| 1
                           sealOpen := s1.sealOpen || s1.bil.sealOpen || s1.live.row tabFlag 3 != [] || cut.getD 8 0 == 1
                           siteBits := cut.getD 9 0 ||| (if cut = [] then 4096 else 0) }
      live := s1.live.apply s1.man (.record tabCut 0 []), img := s1.img.apply s1.man (.record tabCut 0 []) }
    match intent with
    | some t => if t.b / 900 = s2.get bilQ_Q + 1 then s2.replayIntent t t.n regs s2.quarterGood 1 else s2
    | none => s2

end Sys2Proof.Machine
end

