-- ==== Sys2Proof/Machine/Billing.lean ====
section
/-!
DEFINITION. The commands of billing (12_billing_registers.md).
-/
namespace Sys2Proof.Machine

/-- BOUNDARY_PRESTAGE: R310, R322; fifty crossings before N. No group runs in LOST or during a backstep hold (R325, R341). -/
def execBoundaryPrestage (s : State) : Out :=
  s.out (if s.bil.isOpen ∧ s.bil.staged = none ∧ s.trust ≠ 3 ∧ s.flag bilStat_HOLD = false
            ∧ s.xing.num + 50 = s.plc.snapN ∧ s.plc.snapB = (s.get bilQ_Q + 1) * 900
         then s.prestage else s)

/-- BILLING_STEP: R94, R318 to R333, R376. The accepted record at the head of the sealed inbound queue; `reads` tells what the Hold
gives back otherwise than stored. -/
def execBillingStep (reads : List SealRead) (s : State) : Out :=
  s.out (s.atHead s.man.roles.sealedIn fun s it => if it.poisoned then (s, true) else s.billStep it.bytes reads)

/-- A staged group that a forward step of PTP time has passed by more than a second is withdrawn (R325, R359; DEDUCED, log entry 49): its
boundary is one of those that passed. -/
def State.dropPassed (s : State) : State :=
  match s.bil.staged with
  | some t => if t.b < s.utcSec then s.withdraw t.grp else s
  | none => s

/-- PASSED_BOUNDARY_CATCHUP: R325, R337; at a counted or coasted crossing. -/
def execPassedBoundaryCatchup (s : State) : Out :=
  let s1 := s.dropPassed
  s.out (if s.warned || !s.boundariesRun then s
         else if s1.bil.staged ≠ none then s
         else if ¬ s1.bil.isOpen then (s1.firstOpen s1.xing.num).1
         else if s1.bil.restart ∨ s1.get bilQ_Q < s1.utcSec / 900 then
           s1.catchUp s1.xing.num (s1.utcSec / 900) s1.bil.restart
         else s1)

/-- BACKSTEP_HOLD_END: R341; a crossing stamped at or past the high-water. -/
def execBackstepHoldEnd (s : State) : Out :=
  s.out (if s.flag bilStat_HOLD = true ∧ s.hwTai ≤ s.ptpSec then s.backEnd else s)

/-- SESSION_RESULT: R334, R335. -/
def execSessionResult (s : State) : Out := s.out s.sessNext

/-- BILLING_QUERY: R343, a write to BIL_SEL. -/
def execBillingQuery (i : Iface) (v : Word) (s : State) : Out := s.out (s.writeGate i bilSel v State.bilQuery)

/-- LOAD_PROFILE_QUERY: R94, R343, a write to BIL_LP_Q; `reads` tells what the Hold gives back otherwise than stored. -/
def execLoadProfileQuery (i : Iface) (v : Word) (reads : List SealRead) (s : State) : Out :=
  s.out (s.writeGate i bilLpQ v fun s => s.lpQuery reads)

end Sys2Proof.Machine
end

