-- ==== Sys2Proof/Machine/Cells.lean ====
section
/-!
DEFINITION. The commands of the polled cell (05_plc_cell_protocol.md).
-/
namespace Sys2Proof.Machine

/-- The next exchange of a cell (R130 to R132, R135, R136, R143, R154, R164, R170, R188, R280). A polled cell has one exchange under way
at a time (DESIGN CHOICE, log entry 118). -/
def State.plan (s : State) (c : Nat) : State :=
  let s1 := s.endStale c
  if c < 3 ∧ (s1.cell c).xch ≠ [] then s1
  else
    let s2 := if (s1.pollable c).any (s1.sessionDue c) && !s1.reasmRoom then s1.noteReasm else s1
    match s2.pick c with
    | none => s2
    | some x => s2.planWith c x

/-- Whether a cell exists (R169): the PLC cells of the mode, the radio cells. -/
def State.cellUp (s : State) (c : Nat) : Bool := decide (c ∈ s.plcCells) || decide (c = 3) || decide (c = 4)

/-- EXCHANGE_PLANNED: a cell that exists, is not suspended and under no warning takes its next exchange. -/
def execExchangePlanned (c : Nat) (s : State) : Out :=
  s.out (if s.cellUp c = true ∧ (s.cell c).suspended = false ∧ s.warned = false then (s.retrySegs c).plan c else s)

/-- UPWARD_FRAME_FAILED: R102, R144, R150 to R152, R170, R188. RETRY_MAX is that of the exchange's planning; of a radio cell that of PLC
cell 0 (log entry 33). -/
def execUpwardFrameFailed (c fseq : Nat) (s : State) : Out :=
  match (s.cell c).xch.find? fun e => e.fseq == fseq && !e.acking with
  | none => s.out s
  | some x =>
    if x.retries < x.limit then s.out (s.resend c x)
    else s.out (s.unreached c { x with fails := x.fails ++ [x.badHop] })

/-! ### Responses -/

/-- Link-probe entries of 4 bytes: neighbour, SNR code, suggested code for frames from it (R137, R150). -/
def probeEntries (data : List Byte) : List (Nat × Nat) :=
  (List.range (min 8 (data.length / 4))).map fun i => (beAt data (4 * i) 2, beAt data (4 * i + 3) 1 % 16)

/-- A polled endpoint's bookkeeping after an answer. -/
def State.answered (s : State) (c a : Nat) (f : Node → Node) : State :=
  match s.node c a with
  | some n => s.setNode c a (some (f n))
  | none => s

/-- The answer to an exchange's poll (R137, R143, R148, R150, R163). A record waits for its acknowledgement. -/
def State.answer (s : State) (c : Nat) (x : Exchange) (kind off total : Nat) (data : List Byte) (t : Stamp) : State :=
  let acking := s.setExchange c { x with acking := true }
  if kind = 1 then acking.answered c x.addr fun n => { n with polled := n.polled + 1 }
  else if kind = 2 then acking.answered c x.addr fun n => { n with snapDone := max n.snapDone x.snap }
  else if kind = 3 then
    (acking.answered c x.addr fun n => { n with lsrHeld := n.polled }).segment c x.addr off total data t
  else if kind = 5 then
    let s1 := ((probeEntries data).filter fun p => decide (p.1 ≠ 0) && decide (p.1 ≠ x.addr)).foldl
      (fun st p => st.suggestLink c p.1 x.addr p.2 0) s
    (s1.answered c x.addr fun n => { n with probed := s.ptpSec }).endExchange c x
  else if kind = 0x81 then
    (s.answered c x.addr fun n =>
      if x.kind = 3 then { n with lsrHeld := n.polled } else { n with polled := n.polled + 1 }).endExchange c x
  else if kind = 0x82 then (s.answered c x.addr fun n => { n with snapDone := max n.snapDone x.snap }).endExchange c x
  else s

/-- A hop-lost report (R145): the exchange that expects an answer over the reporting relay notes the silent hop; event
80 + 16c + 14. -/
def State.hopLost (s : State) (c relay silent : Nat) : State :=
  let s1 := s.raise (80 + 16 * c + 14)
  match s1.cell c |>.xch.find? fun e => (hopsOf e.route e.addr).any fun h => h == (relay, silent) with
  | some e => s1.setExchange c { e with failHop := some (relay, silent) }
  | none => s1

/-- A RESPONSE with its check passed (R145, R150, R237). -/
def State.response (s : State) (c : Nat) (f : List Byte) (t : Stamp) : State :=
  let a := frSrc f
  let b := frBody f
  let data := slice b 12 (beAt b 10 2)
  let parent := match s.node c a with
    | some n => n.parent
    | none => 0
  let s1 := s.suggestLink c parent a (beAt b 2 1 % 16) (beAt b 3 3)
  if beAt b 0 1 = 0x83 then s1.hopLost c a (beAt data 0 2)
  else match (s1.cell c).exchangeOf a with
    | none => s1
    | some x => if x.acking then s1 else s1.answer c x (beAt b 0 1) (beAt b 6 2) (beAt b 8 2) data t

/-- RESPONSE_RECEIVED: R134, R145, R148, R150, R163, R237 to R239. The PSDU as the receive path delivered it. -/
def execResponseReceived (c : Nat) (psdu : List Byte) (s : State) : Out :=
  s.out (if s.cellUp c = true ∧ s.frameOk c psdu ∧ frType psdu = 3 then s.response c psdu (s.rxStamp (s.cellRank c)) else s)

/-- A command or route set that the endpoint has answered (R127, R147, R153, R273). -/
def State.ackedJob (s : State) (c : Nat) (x : Exchange) (status : Nat) : State :=
  let s1 := (s.doneItem c x.fseq).endExchange c x
  match x.job with
  | none => s1
  | some j =>
    if j.leave then s1.leaveNow c x.addr
    else if j.typ = 0x10 ∧ ¬ j.routeSet ∧ status ≠ 5 ∧ (j.payload = [] ∨ (s.cell c).keyNew = none) then
      s1.answered c x.addr fun n => { n with keyAcked := true }
    else s1

/-- PLC_ACK_RECEIVED: R127, R134, R147, R151. STATUS 0x04, 0x05 and 0x06 release the marked item. -/
def execPlcAckReceived (c : Nat) (psdu : List Byte) (s : State) : Out :=
  let b := frBody psdu
  if s.cellUp c = true ∧ s.frameOk c psdu ∧ frType psdu = 4 then
    match (s.cell c).exchangeOf (frSrc psdu) with
    | none => s.out s
    | some x =>
      let st := beAt b 4 1
      if x.job.isSome ∧ x.cseq = beAt b 0 4 ∧ 4 ≤ st ∧ st ≤ 6 then s.out (s.ackedJob c x st) else s.out s
  else s.out s

/-! ### Joining -/

/-- The enrolled key of a record: stored wrapped under its KEK_SLOT (R266, R272). -/
def State.enrolledKey (s : State) (r : List Byte) : Option (List Byte) := s.unwrapUnder (beAt r 48 2 % 1024) (slice r 8 40)

/-- What a decision on a joining endpoint gives: STATUS, address, parent, depth. -/
structure JoinRes where
  status : Nat
  addr : Nat := 0xFFFE
  parent : Nat := 0
  depth : Nat := 0

/-- The JOIN_ANSWER body (R137). Without a key to tag it under, the tag is a free value. -/
def State.joinBody (s : State) (c : Nat) (eui : Nat) (nonce : List Byte) (key : Option (List Byte)) (r : JoinRes) :
    List Byte × State :=
  let cl := s.cell c
  let masked := match key with
    | some k => if r.status = 0 then xorBytes (s.cellKey c) (tagOf k (be 8 eui ++ nonce ++ be 1 cl.keyGen) 32 "CKY1") else []
    | none => []
  let b := be 8 eui ++ be 1 r.status ++ be 1 cl.keyGen ++ be 2 r.addr ++ nonce ++ padTo 32 masked ++ be 2 r.parent
    ++ be 1 r.depth ++ be 1 0
  match key with
  | some k => (b ++ tagOf k b 16 "JAN1", s)
  | none =>
    let h := s.draw 64
    let l := h.2.draw 64
    (b ++ be 8 h.1 ++ be 8 l.1, l.2)

/-- The JOIN_ANSWER goes down the invitation's route in its planned slot, with the flow tag of the endpoint that joins; the exchange ends
when it has been sent. -/
def State.sendJoinAnswer (s : State) (c : Nat) (x : Exchange) (flow : Nat) (body : List Byte) : State :=
  let p := s.takeFseq c
  let f := s.frame c 7 0xFFFE p.1 x.route x.nextDown false true body
  (p.2.setExchange c { x with acking := true, ack := some p.1 }).queuePlc c x.nextDown (s.c0mod c) (s.hopTone c x.route 0xFFFE) flow f

/-- A refused join (R156, R277): event 80 + 16c + 7 and a Logbook record; the counters of a full cell or hub. -/
def State.refuseJoin (s : State) (c eui st : Nat) : State :=
  let e := 80 + 16 * c + 7
  if st = 1 then (s.raise e).noRoom false eui (s.cellNo c)
  else if st = 2 then (s.raise e).noRoom true eui (s.cellNo c)
  else s.raiseLog e (be 8 eui ++ be 1 st)

/-- The first refusal of the Join decisions table, 0 when none applies (R156). -/
def State.joinCheck (s : State) (c : Nat) (f : List Byte) (rec1 : Option (List Byte)) : Nat :=
  let b := frBody f
  match rec1 with
  | none => 4
  | some r =>
    if natBit (beAt r 51 1) 0 then 4
    else match s.enrolledKey r with
      | none => 3
      | some k =>
        if tagOf k (b.take 16) 16 "JRQ1" ≠ slice b 16 16 then 3
        else if (s.joinedAt (beAt b 0 8)).any (fun p => p.1 == c) then 0
        else if s.cellLimit c ≤ (s.cell c).members.length then 1
        else if s.totalReached then 2
        else if !s.regResources then 5
        else 0

/-- A new endpoint of a cell below an invitation's sender (R156 row 6). -/
def joinNode (slot eui caps : Nat) (route : List Nat) (addr now : Nat) : Node :=
  { slot := slot, eui := eui, relay := natBit caps 0, maxMod := caps / 16, parent := route.getLastD 0
    depth := route.length + 1, branch := route.headD addr, route := route, probed := now }

/-- While the cell key changes, an endpoint that joins is sent the new key too (R127). -/
def State.newKeyDue (s : State) (c a : Nat) : State :=
  let cl := s.cell c
  if cl.keyNew.isSome then s.setCell c { cl with cmds := cl.cmds ++ [{ addr := a, typ := 0x10 }] } else s

/-- A JOIN_REQUEST that answers an invitation (R156). -/
def State.join (s : State) (c : Nat) (f : List Byte) (x : Exchange) : State :=
  let b := frBody f
  let eui := beAt b 0 8
  let nonce := slice b 12 4
  let r := s.enrolment eui
  let key := r.bind s.enrolledKey
  let st := s.joinCheck c f r
  let deny := fun (s : State) (k : Nat) =>
    let s1 := s.refuseJoin c eui k
    let p := s1.joinBody c eui nonce key { status := k }
    p.2.sendJoinAnswer c x 0 p.1
  if st ≠ 0 then deny s st
  else match (s.joinedAt eui).filter fun p => p.1 == c with
    | some (_, a) =>
      let n := (s.node c a).getD {}
      let p := (s.raise (80 + 16 * c + 6)).joinBody c eui nonce key
        { status := 0, addr := a, parent := n.parent, depth := n.depth }
      p.2.sendJoinAnswer c x (s.nodeFlow c a) p.1
    | none =>
      let a := s.freeAddr c
      let parent := x.route.getLastD 0
      match s.register (r.getD []) c a (x.route.length + 1) parent with
      | none => deny s 2
      | some (slot, s1) =>
        let n := joinNode slot eui (beAt b 8 1) x.route a s.ptpSec
        let s2 := ((((s1.setNode c a (some n)).ctxRoute c a n).showCell c).newKeyDue c a).raise (80 + 16 * c + 6)
        let p := (s2.roles c).joinBody c eui nonce key { status := 0, addr := a, parent := parent, depth := n.depth }
        p.2.sendJoinAnswer c x (s.epFlow slot) p.1

/-- The relays of a routed frame, nearest the chip first (R135). -/
def frRelays (b : List Byte) : List Nat :=
  if frRouted b then ((List.range (beAt b 8 1 / 16 % 8 - 1)).map fun i => beAt b (10 + 2 * i) 2) else []

/-- JOIN_REQUEST_RECEIVED: R5 to R7, R13, R125, R134, R154, R156, R274 to R277. -/
def execJoinRequestReceived (c : Nat) (psdu : List Byte) (s : State) : Out :=
  if s.cellUp c = true ∧ s.frameOk c psdu ∧ frType psdu = 6 then
    match (s.cell c).xch.find? fun e => e.kind == 6 && !e.acking && e.route == frRelays psdu with
    | none => s.out s
    | some x => s.out (s.join c psdu x)
  else s.out s

/-! ### Class-0 commands and keys -/

/-- A CLASS0 frame's body bytes 4 to 23 of a Gangway CLASS0 message (R221 table). -/
def class0Body (msg : List Byte) : List Byte := padTo 20 (slice msg 32 20)

/-- Lane items that were released and did not go in this window: event 80 + 16c + 12 once for each (R165). -/
def State.missWindow (s : State) (c q : Nat) : State :=
  let x := s.q q
  let n := (x.lane.filter fun l => !l.hold && !l.missed).length
  let s1 := s.setQ q { x with lane := x.lane.map fun l => if l.hold then l else { l with missed := true } }
  (List.range n).foldl (fun st _ => st.raise (80 + 16 * c + 12)) s1

/-- A class-0 frame starts in a window (R165, R166); with a driver off, or while a path still sends another frame, it is not sent. -/
def State.sendClass0 (s : State) (c q flow : Nat) (f : List Byte) (rep : Bool) : State :=
  if s.cellOff c || s.cellBusy c then s else s.plcStart c q flow (s.c0mod c) 0 0 0 f false false rep

/-- The frame of a new class-0 command. CSEQ counts from 1 after a reset (DESIGN CHOICE, log entry 118). -/
def State.class0Frame (s : State) (c : Nat) (msg : List Byte) : List Byte × State :=
  let cl := s.cell c
  let n := (cl.cseq + 1) % 2 ^ 32
  let h := s.header c 9 0xFFFF cl.fseq false false
  let b := be 4 n ++ class0Body msg
  let s1 := s.setCell c { cl with cseq := n, fseq := (cl.fseq + 1) % 65536 }
  (withFcs (h ++ b ++ tagOf (s.cellKey c) (h.drop 1 ++ b) 16 "C0C1"), s1.setReg (plcC0Stat c) (BitVec.ofNat 32 n))

/-- A frame with RETRY set to 1 and its check sequence anew. -/
def asRetry (f : List Byte) : List Byte :=
  let b := f.take (f.length - 4)
  withFcs (be 1 (beAt b 0 1 ||| 8) ++ b.drop 1)

/-- A class-0 window begins (R29, R165, R166): a repeat that is due, else the next released command, unless a path still sends another
frame. -/
def State.class0Window (s : State) (c q : Nat) : State :=
  let cl := s.cell c
  match cl.c0Cur with
  | some f =>
    let left := cl.c0Left - 1
    let s1 := s.setCell c { cl with c0Left := left, c0Cur := if left = 0 then none else some f }
    (s1.sendClass0 c q 0 (asRetry f) true).missWindow c q
  | none => match (s.q q).releasedLane with
    | none => s
    | some l =>
      if s.cellOff c then (s.refuseLane c q l).missWindow c q
      else if s.cellBusy c then s.missWindow c q
      else
      let s1 := s.dropLane q l
      let p := s1.class0Frame c l.item.bytes
      let rep := p.2.get (plcCellCfg_C0_REPEAT c)
      let s2 := p.2.setCell c { p.2.cell c with c0Left := rep, c0Cur := if rep = 0 then none else some p.1 }
      ((s2.sendClass0 c q l.item.flow p.1 false).raise (80 + 16 * c + 11)).missWindow c q

/-- CLASS0_WINDOW: R29, R165, R166. Nothing is launched under a power warning; a released command misses its window (R165), and the window
does not count toward C0_REPEAT (DESIGN CHOICE, log entry 118). -/
def execClass0Window (c : Nat) (s : State) : Out :=
  match roleQ s.man.roles.plcLaunch c with
  | some q => s.out (if !decide (c ∈ s.plcCells) then s else if s.warned then s.missWindow c q else s.class0Window c q)
  | none => s.out s

/-- Whether the cell key may change generation (R127): every joined endpoint has acknowledged, or 96 h have passed since the first
command was sent. -/
def State.keyDue (s : State) (c : Nat) : Bool :=
  (s.cell c).members.all (fun p => p.2.keyAcked) ||
  match (s.cell c).keySince with
  | some t => decide (t + 345600 ≤ s.ptpSec)
  | none => false

/-- The cell takes its new key (R127); the frame counter of a radio cell key begins anew (R178). -/
def State.switchKey (s : State) (c g : Nat) (k : List Byte) : State :=
  let cl := s.cell c
  let own := if (s.family (smGet 0 s.man.cellKey c) g).isSome then cl.keyOwn else smPut [] cl.keyOwn g k
  let s1 := s.setCell c { cl with keyGen := g, keyNew := none, keySince := none, keyOwn := own }
  if c < 3 then s1.refreshBeacon c s.xing.num
  else
    let r := c - 3
    ((s1.setPort r { s1.port r with cellFcnt := 0 }).journalUpd [.record tabFcnt r [0]]).raise (radEvt r 13)

/-- CELL_KEY_SWITCH: R127, R178. At the beginning of a superframe. -/
def execCellKeySwitch (c : Nat) (s : State) : Out :=
  match (s.cell c).keyNew with
  | none => s.out s
  | some (g, k) => s.out (if s.keyDue c = true ∧ s.xing.num % 32 = 0 then s.switchKey c g k else s)

/-! ### Registers -/

/-- The n codes of a route's hops as one word of four nibbles. -/
def nibbles (l : List Nat) : Nat := (padTo 4 (l.map fun k => BitVec.ofNat 8 k)).foldl (fun a b => a * 16 + b.toNat % 16) 0

/-- A write of PLC_ROUTE_SEL captures a route (R152). -/
def State.routeQuery (s : State) : State :=
  let c := s.get plcRouteSel_CELL
  let a := s.get plcRouteSel_ADDR
  match s.node c a with
  | none => ((s.setReg plcRouteData0 0).setReg plcRouteData1 0).setReg plcRouteData2 0
  | some n =>
    let r := fun i => n.route.getD i 0
    let hs := hopsOf n.route a
    let d1 := r 2 * 65536 + min 4095 (s.pathCost c n.route a) * 16 + s.ctxAt n.slot 15 1 % 4 * 4 + 2
    ((s.setReg plcRouteData0 (BitVec.ofNat 32 (r 0 * 65536 + r 1))).setReg plcRouteData1 (BitVec.ofNat 32 d1)).setReg
      plcRouteData2 (BitVec.ofNat 32 (nibbles (hs.map fun h => s.code c h.1 h.2) * 65536
        + nibbles (hs.map fun h => s.code c h.2 h.1)))

/-- PLC_ROUTE_QUERY: R152, registers of 05. -/
def execPlcRouteQuery (i : Iface) (v : Word) (s : State) : Out :=
  s.out (s.writeGate i plcRouteSel v State.routeQuery)

/-- What CLR of PLC_XCH_FAIL does. -/
def State.clearXch (s : State) (c : Nat) (v : Word) : State :=
  if wordBits v (plcXchFail_CLR c) = 1 then (s.set (plcXchFail_RETRIES c) 0).set (plcXchFail_UNREACHED c) 0 else s

/-- PLC_XCH_FAIL_CLEAR: R144. -/
def execPlcXchFailClear (i : Iface) (c : Nat) (s : State) : Out :=
  s.out (if c < 3 then s.writeGate i (plcXchFail c) 0x80000000 fun s => s.clearXch c 0x80000000 else s)

end Sys2Proof.Machine
end

