-- ==== Sys2Proof/Machine/FerryOps.lean ====
section
/-!
DEFINITION. What the blocks share of the Ferryman (16_ferryman.md): the choice of the next thread, leaving a core,
work grants and flow tags.
-/
namespace Sys2Proof.Machine

/-- A core's state. -/
def State.core (s : State) (n : Nat) : CoreSt := smGet {} s.fry.cores n

/-- The state with a core's state. -/
def State.setCore (s : State) (n : Nat) (c : CoreSt) : State :=
  { s with fry := { s.fry with cores := smPut {} s.fry.cores n c } }

/-- The class-0 thread of a home core (R417): index and thread. -/
def State.c0Of (s : State) (core : Nat) : Option (Nat × Nat) :=
  if s.flag fryC0Cfg_EN0 ∧ s.get fryC0Cfg_CORE0 = core then some (0, s.get fryC0Cfg_THREAD0)
  else if s.flag fryC0Cfg_EN1 ∧ s.get fryC0Cfg_CORE1 = core then some (1, s.get fryC0Cfg_THREAD1)
  else none

/-- The class-0 index of a thread. -/
def State.c0Index (s : State) (t : Nat) : Option Nat :=
  if s.flag fryC0Cfg_EN0 ∧ s.get fryC0Cfg_THREAD0 = t then some 0
  else if s.flag fryC0Cfg_EN1 ∧ s.get fryC0Cfg_THREAD1 = t then some 1
  else none

/-- The home core of a class-0 thread (R417). -/
def State.homeCore (s : State) (t : Nat) : Option Nat :=
  (s.c0Index t).map fun k => if k = 0 then s.get fryC0Cfg_CORE0 else s.get fryC0Cfg_CORE1

/-- Whether a thread may run on a core: by its affinity (R407), a class-0 thread on its home core alone (R417). -/
def State.mayRun (s : State) (t core : Nat) : Bool :=
  match s.homeCore t with
  | some h => h == core
  | none => natBit (s.thr t).affinity core

/-- The head of the highest-priority non-empty ready list among the threads a core may run (R408). -/
def State.nextReady (s : State) (core : Nat) : Option Nat :=
  (s.fry.ready.flatMap (·.2)).find? fun t => s.mayRun t core

/-- A thread leaves the ready lists. -/
def State.unready (s : State) (t : Nat) : State :=
  { s with fry := { s.fry with ready := (s.fry.ready.map fun p => (p.1, p.2.filter (· ≠ t))).filter fun p => p.2 ≠ [] } }

/-- The core that a ready thread pre-empts (R409): of the permitted cores whose running thread has a strictly lower
priority, the one with the lowest priority, the lower number on a tie. A class-0 thread goes ahead of every other thread on its home
core, whatever its priority (R418, R419). -/
def State.preemptCore (s : State) (t : Nat) : Option Nat :=
  let x := s.thr t
  (List.range 8).foldl (fun best c =>
    let k := s.core c
    match k.running with
    | some r =>
      if s.mayRun t c && !k.parked && ((s.c0Index t).isSome || decide (x.prio < (s.thr r).prio)) then
        match best with
        | some b => match (s.core b).running with
          | some rb => if (s.thr rb).prio < (s.thr r).prio then some c else best
          | none => some c
        | none => some c
      else best
    | none => best) none

/-- The thread a core runs. -/
def State.running (s : State) (core : Nat) : Option Nat := (s.core core).running

/-- The running thread leaves its core in a new state. -/
def State.leaveCore (s : State) (core t : Nat) (x : Thread) : State :=
  (s.setThr t x).setCore core { s.core core with running := none }

/-- A thread's held tag is released (R414). -/
def State.threadDrop (s : State) (t : Nat) : State :=
  let x := s.thr t
  match x.flow with
  | some f =>
    let s1 := if s.flow f = .thread t then s.setFlow f .nobody else s
    s1.setThr t { x with flow := none, grant := none }
  | none => s.setThr t { x with grant := none }

/-- The next deliverable item of a queue. -/
def Queue.headItem (x : Queue) : Option Item :=
  if x.deliverable then
    match x.lane with
    | l :: _ => some l.item
    | [] => x.nextIdx.map fun i => x.items.getD i {}
  else none

/-- The queues of a pool in rotation from the one after its last grant (R413). -/
def rotate (l : List Nat) (k : Nat) : List Nat := l.drop (k % (max l.length 1)) ++ l.take (k % (max l.length 1))

/-- A head item whose tag is held blocks its queue: event 387 and FLOWWAIT once for each episode (R414). -/
def State.noteBlocked (s : State) (n : Nat) : State :=
  if n ∈ s.fry.blocked then s
  else ({ s with fry := { s.fry with blocked := n :: s.fry.blocked } }.bump fryCnt_FLOWWAIT 1).raise 387

/-- The order in which a pool's queues are looked at (R413): rotation; in the Maintenance profile the queues of validation come after
the others (R35; DEDUCED, log entry 131). -/
def State.grantOrder (s : State) (pool : Nat) : List Nat :=
  let l := rotate (smGet [] s.man.pools pool) (smGet 0 s.fry.rot pool)
  if s.get sysProfileStat_ACTIVE = 3 then (l.filter fun q => q ∉ s.validQueues) ++ l.filter fun q => q ∈ s.validQueues else l

/-- Try to grant a thread a head item of its pool (R413, R414). -/
def State.tryGrant (s : State) (t pool : Nat) : State × Bool :=
  let qs := smGet [] s.man.pools pool
  let order := s.grantOrder pool
  order.foldl (fun (r : State × Bool) n =>
    if r.2 then r
    else match (r.1.q n).headItem with
      | none => r
      | some it =>
        if r.1.flow it.flow = .nobody then
          let s1 := r.1.setFlow it.flow (.thread t)
          let s2 := { s1 with fry := { s1.fry with
            rot := smPut 0 s1.fry.rot pool (qs.idxOf n + 1), blocked := s1.fry.blocked.filter (· ≠ n) } }
          (s2.setThr t { s2.thr t with flow := some it.flow, grant := some n,
                                        takeRes := 2 ^ 31 + it.flow * 256 + n }, true)
        else (r.1.noteBlocked n, false)) (s, false)

end Sys2Proof.Machine
end

