-- ==== Sys2Proof/Machine/HoldOps.lean ====
section
/-!
DEFINITION. The Hold's block management (18_hold.md): pools, placement, merges and moves, retirement, life, discards.
The content itself stands in the effective and the durable image; the physical blocks are what maps it to the NAND.
-/
namespace Sys2Proof.Machine

/-- The log blocks in use. -/
def State.logBlocks (s : State) : List Nat :=
  (s.hld.blocks.filter fun p => match p.2.use with | .log _ => true | _ => false).map (·.1)

/-- The open log block of a logical block (R448, R451, R464): with a free page, not closed, not the source of a merge. -/
def State.openLog (s : State) (l : Nat) : Option Nat :=
  (s.hld.blocks.find? fun p => p.2.use == .log l && decide (p.2.pages.length < s.lbPages l) && !p.2.closed &&
    !(s.hld.merges.any fun m => m.logBlk == some p.1)).map (·.1)

/-- Log blocks of a logical block (R448: at most two). -/
def State.logsOf (s : State) (l : Nat) : Nat := (s.hld.blocks.filter fun p => p.2.use == .log l).length

/-- The block map of a logical block (R448). -/
def State.dataBlk (s : State) (l : Nat) : Option Nat := smGet none s.hld.map l

/-- The state with a logical block's data block. -/
def State.setData (s : State) (l : Nat) (b : Option Nat) : State :=
  { s with hld := { s.hld with map := smPut none s.hld.map l b } }

/-- A block released: to be erased, then pooled (R450). What it held stands elsewhere, complete word lines with it (R453). -/
def State.releaseBlk (s : State) (b : Option Nat) : State :=
  match b with
  | none => s
  | some b =>
    ((s.setBlk b { s.blk b with use := .erasing, pages := [], closed := false, refresh := false }).linePlaced b).nandAdd (.erase b)

/-- The flush area's occupancy in per cent (R454). -/
def State.flushPct (s : State) : Nat :=
  let c := (s.man.region 0).size
  if c = 0 then 0 else min 100 (100 * s.hld.flushUsed / c)

/-- Bytes programmed into the flush area; event 442 when it reaches 75 % (R454), and in Maintenance every gathered page is then programmed
(R453). -/
def State.flushGrow (s : State) (n : Nat) (map : Bool) : State :=
  let f : FlushRec := { bytes := n, jseq := s.cmt.next - 1, map := map }
  let s1 := { s with hld := { s.hld with flushUsed := s.hld.flushUsed + n, flushLog := s.hld.flushLog ++ [f] } }
  let at75 := decide (s.flushPct < 75) && decide (75 ≤ s1.flushPct)
  let s2 := (s1.set hldStat_FLUSH_AREA s1.flushPct).raiseIf at75 442
  if at75 && s2.maintenance then s2.allDue else s2

/-- Map records written since the last map image; beyond 4 MiB an image is written, which covers every map record, with event 446
(R454). -/
def State.mapImage (s : State) (n : Nat) : State :=
  let since := s.hld.mapSinceImage + n
  let image := decide (4194304 < since)
  let flushed := if image then s.hld.flushLog.map fun f => { f with map := false } else s.hld.flushLog
  State.raiseIf { s with hld := { s.hld with mapSinceImage := if image then 0 else since, flushLog := flushed } } image 446

/-- A map record written to the flush area; its durability is a program of its own (R450, R454). -/
def State.mapRecord (s : State) : State :=
  State.nandAdd { s with hld := { s.hld with mapPending := s.hld.mapPending + 1 } } .mapRec

/-- The switch record of a merge, durable before what follows it (R450). Its length is not given (log entry 127). -/
def State.switchRecord (s : State) : State := (s.flushGrow Config.mapRecordBytes true).mapImage Config.mapRecordBytes

/-- Map records are durable: discards stand (R459), merges whose record it was may copy (R450). -/
def Hold.mapDurable (h : Hold) : Hold :=
  { h with mapPending := 0, discards := h.discards.map fun d => { d with durable := true, was := [] }
           merges := h.merges.map fun m => { m with logged := true } }

/-- Running merges that are not moves, and whether a move runs, shown in HLD_STAT. -/
def State.showMerges (s : State) : State :=
  (s.set hldStat_MERGES ((s.hld.merges.filter fun m => !m.move).length)).set hldStat_MOVE
    (ofBool (s.hld.merges.any (·.move)))

/-- The switch of a logical block to a new data block (R450): mapping, releases, event 433 and HLD_MERGE. A discard of the whole block
that came meanwhile is applied then (R451). -/
def State.switchTo (s : State) (l d : Nat) (log : Option Nat) (startedAt : Nat) : State :=
  let old := s.dataBlk l
  let drop := s.hld.merges.any fun m => m.lb == l && m.drop
  let s1 := (s.switchRecord.releaseBlk log).releaseBlk old
  let s2 := if drop then (s1.releaseBlk (some d)).setData l none
            else (s1.setBlk d { s1.blk d with use := .data l, pages := [] }).setData l (some d)
  let s3 := { s2 with hld := { s2.hld with merges := s2.hld.merges.filter fun m => m.lb ≠ l } }.nandDone (.merge l)
  ((s3.showMerges.wrapUp hldMerge_COUNT 1).setSat hldMerge_LAST_MS ((s.clk.mono - startedAt) / 1000000)).raise 433

/-- The start of a merge of a log block (R449, R450): a log block that holds every page in order switches at once; at
most two merges run. -/
def State.startMerge (s : State) (l g : Nat) : State :=
  if s.hld.merges.any fun m => m.lb == l then s
  else if (s.blk g).pages = List.range (s.lbPages l) then
    let s1 := s.switchTo l g none s.clk.mono
    s1
  else if 2 ≤ (s.hld.merges.filter fun m => !m.move).length then s
  else match s.takeFree (s.lkeyPool l) with
    | none => s
    | some d =>
      let s1 := s.mapRecord.setBlk d { s.blk d with use := .dest l }
      let m : Merge := { lb := l, logBlk := some g, dst := d, startedAt := s.clk.mono, move := false }
      { s1 with hld := { s1.hld with merges := s1.hld.merges ++ [m] } }.showMerges.nandAdd (.merge l)

/-- A log block with no free page, or closed, of a logical block that no merge runs for (R449, R464). -/
def State.mergeDue (s : State) : Option (Nat × Nat) :=
  s.hld.blocks.findSome? fun p => match p.2.use with
    | .log l =>
      if (p.2.closed || decide (s.lbPages l ≤ p.2.pages.length)) && !(s.hld.merges.any fun m => m.lb == l) then some (l, p.1) else none
    | _ => none

/-- The merge that is due starts (R449). -/
def State.mergeNext (s : State) : State :=
  match s.mergeDue with
  | some (l, g) => s.startMerge l g
  | none => s

/-- A page programmed into a block. -/
def State.progPage (s : State) (b page : Nat) : State :=
  let x := s.blk b
  let s1 := s.setBlk b { x with pages := x.pages ++ [page], lastProg := s.hld.progSeq }
  { s1 with hld := { s1.hld with progSeq := s1.hld.progSeq + 1 } }

/-- The log blocks that no merge takes, the one whose last program is oldest first, on a tie that of the lower logical block (R449). -/
def State.oldestLog (s : State) : Option Nat :=
  bestBy (fun a b => decide ((s.blk a).lastProg < (s.blk b).lastProg))
    (s.logBlocks.filter fun b => !(s.hld.merges.any fun m => m.logBlk == some b))

/-- A page programmed into a log block is placed, with the other pages of its word line, once that is complete: three pages of a TLC
block (R453). A log block with no free page is merged (R449). -/
def State.logPlaced (s : State) (l g page : Nat) : State :=
  let n := (s.blk g).pages.length
  let s1 := if s.poolOf g = 0 ∧ n % 3 ≠ 0 then s.pagePlaced l page (some g) else (s.pagePlaced l page none).linePlaced g
  if s1.lbPages l ≤ n then s1.startMerge l g else s1

/-- Placement of a logical page (R448, R449, R453): the first page makes the data block, its word line filled up (DESIGN CHOICE, log entry
127); later ones go to the log block of L; a full log block, or a lack of log blocks, starts a merge. False where the page has to
wait. -/
def State.placePage (s : State) (l page : Nat) : State × Bool :=
  match s.dataBlk l with
  | none => match s.takeFree (s.lkeyPool l) with
    | none => (s, false)
    | some d =>
      ((((s.setBlk d { s.blk d with use := .data l }).progPage d page).setData l (some d)).pagePlaced l page none, true)
  | some _ => match s.openLog l with
    | some g => ((s.progPage g page).logPlaced l g page, true)
    | none =>
      if 64 ≤ s.logBlocks.length then
        match s.oldestLog with
        | some g => match (s.blk g).use with
          | .log l2 => (s.startMerge l2 g, false)
          | _ => (s, false)
        | none => (s, false)
      else if 2 ≤ s.logsOf l then (s.mergeNext, false)
      else match s.takeFree (s.lkeyPool l) with
        | none => (s, false)
        | some g => (((s.setBlk g { s.blk g with use := .log l }).progPage g page).logPlaced l g page, true)

/-- P/E counts of the blocks of a pool that hold data, as lowest and highest (R456). -/
def State.peBounds (s : State) (p : Nat) : Option (Nat × Nat) :=
  let ds := (s.poolBlocks p).filter fun b => match (s.blk b).use with | .data _ => true | .log _ => true | _ => false
  match ds with
  | [] => none
  | b :: bs => some (bs.foldl (fun (r : Nat × Nat) c => (min r.1 (s.blk c).pe, max r.2 (s.blk c).pe))
      ((s.blk b).pe, (s.blk b).pe))

/-- The spread of a pool (R456). -/
def State.spread (s : State) (p : Nat) : Nat :=
  match s.peBounds p with
  | some (a, b) => b - a
  | none => 0

/-- A quotient rounded up; 0 for a zero divisor. -/
def divUp (a b : Nat) : Nat := if b = 0 then 0 else (a + b - 1) / b

/-- The P/E counts of a pool's blocks, summed. -/
def State.peSum (s : State) (p : Nat) : Nat := ((s.poolBlocks p).map fun b => (s.blk b).pe).sum

/-- WEAR (R461): the larger pool's 100 × mean ÷ rated endurance, rounded up. -/
def State.wearPct (s : State) : Nat :=
  max (divUp (100 * s.peSum 0) (s.man.tlcBlocks * smGet 0 s.man.rated 0))
      (divUp (100 * s.peSum 1) (s.man.slcBlocks * smGet 0 s.man.rated 1))

/-- SPARE (R461): 100 × blocks retired ÷ spares of both pools, rounded up. -/
def State.sparePct (s : State) : Nat :=
  divUp (100 * (s.get (hldSpare_RETIRED 0) + s.get (hldSpare_RETIRED 1)))
    (smGet 0 s.man.spares 0 + smGet 0 s.man.spares 1)

/-- LIFE (R461): 100 less the worse of the two, 0 when that is negative. -/
def State.lifePct (s : State) : Nat := 100 - max s.wearPct s.sparePct

/-- A pool's mean and spread shown (HLD_POOL_p). -/
def State.showPool (s : State) (p : Nat) : State :=
  (s.setSat (hldPool_MEAN p) (s.peSum p / max 1 (s.poolBlocks p).length)).setSat (hldPool_SPREAD p) (s.spread p)

/-- The percentages updated (R461), and event 443 once below LIFE_WARN. -/
def State.lifeUpdate (s : State) : State :=
  let s1 := (s.showPool 0).showPool 1
  let s2 := ((s1.set hldLife_LIFE s.lifePct).setSat hldLife_WEAR s.wearPct).setSat hldLife_SPARE s.sparePct
  if decide (s.lifePct < s2.get hldCfg_LIFE_WARN) && !s2.hld.lifeWarned then
    ({ s2 with hld := { s2.hld with lifeWarned := true } }).raise 443
  else s2

/-- The data of a retired block goes to a fresh block of its pool (R458). -/
def State.refuge (s : State) (x : Block) (d : Nat) : State :=
  match x.use with
  | .data l => ((s.setBlk d { s.blk d with use := .data l }).setData l (some d)).mapRecord
  | .log l => s.setBlk d { s.blk d with use := .log l, pages := x.pages, lastProg := x.lastProg, closed := x.closed }
  | .dest l => s.setBlk d { s.blk d with use := .dest l }
  | .flushArea => s.setBlk d { s.blk d with use := .flushArea }
  | _ => s

/-- What named a retired block names the block that took its place: the merges that read or write it, the word lines it holds. -/
def State.renameBlk (s : State) (b d : Nat) : State :=
  State.lineMoved { s with hld := { s.hld with merges := s.hld.merges.map fun m =>
    { m with dst := if m.dst = b then d else m.dst, logBlk := if m.logBlk = some b then some d else m.logBlk } } } b d

/-- Retirement of a block (R458): event 436 and a Logbook record; event 445 when the pool's spares are gone. A spare takes its place. -/
def State.retire (s : State) (b : Nat) : State :=
  let p := s.poolOf b
  let x := s.blk b
  let s1 := (s.setBlk b { x with use := .retired, pages := [], refresh := false }).bump (hldSpare_RETIRED p) 1
  let s2 := (s1.takeFree p).elim s1 fun d => (s1.refuge x d).renameBlk b d
  let s3 := s2.raiseLog 436 (be 4 b)
  (s3.raiseIf (s3.get (hldSpare_RETIRED p) == smGet 0 s3.man.spares p) 445).lifeUpdate

/-- The start of a wear-levelling move or a refresh (R456, R457): the logical block of a source to a destination. -/
def State.startMove (s : State) (src : Nat) (dst : Option Nat) (wear : Bool) : State :=
  match (s.blk src).use, dst with
  | .data l, some d =>
    if s.hld.merges.any fun m => m.lb == l || m.move then s
    else
      let s1 := s.mapRecord.setBlk d { s.blk d with use := .dest l }
      let m : Merge := { lb := l, logBlk := none, dst := d, startedAt := s.clk.mono, move := true }
      ({ s1 with hld := { s1.hld with merges := s1.hld.merges ++ [m] } }.showMerges.nandAdd (.merge l)).raiseIf wear 435
  | _, _ => s

/-- A refresh that waits starts when no move runs (R457): a move of its block to the free block with the lowest count. -/
def State.refreshNext (s : State) : State :=
  if s.hld.merges.any (·.move) then s
  else match s.hld.blocks.find? fun p => p.2.refresh with
    | some p => match p.2.use with
      | .data l =>
        if s.hld.merges.any fun m => m.lb == l then s
        else (s.setBlk p.1 { p.2 with refresh := false }).startMove p.1 (s.takeFree (s.poolOf p.1)) false
      | _ => s.setBlk p.1 { p.2 with refresh := false }
    | none => s

/-- A wear-levelling move when the spread exceeds WL_SPREAD, at most once per 64 erases in the pool (R456, R468). -/
def State.wearMove (s : State) (p : Nat) : State :=
  let th := max 1 (s.get hldCfg_WL_SPREAD)
  if th < s.spread p ∧ 64 ≤ smGet 0 s.hld.erases p ∧ (s.hld.merges.any (·.move)) = false then
    match bestBy (fun a b => decide ((s.blk a).pe < (s.blk b).pe))
        ((s.poolBlocks p).filter fun b => match (s.blk b).use with | .data _ => true | _ => false) with
    | some src => ({ s with hld := { s.hld with erases := smPut 0 s.hld.erases p 0 } }).startMove src (s.takeWorn p) true
    | none => s
  else s

/-- Bytes of a byte table in a range removed: they read 0 (R459). -/
def dropRange (m : SMap Byte) (a n : Nat) : SMap Byte := m.filter fun p => !(decide (a ≤ p.1) && decide (p.1 < a + n))

/-- The bytes of a byte table in a range. -/
def inRange (m : SMap Byte) (a n : Nat) : SMap Byte := m.filter fun p => decide (a ≤ p.1) && decide (p.1 < a + n)

/-- A discard applied to the effective and the durable content (R459): reads of the range return 0. Until its map record is durable a
reset undoes it. -/
def State.discardNow (s : State) (a n : Nat) : State :=
  let d : Discard := { addr := a, len := n, jseq := s.cmt.next - 1, was := inRange s.img.bytes a n }
  { s with
    live := { s.live with bytes := dropRange s.live.bytes a n }
    img := { s.img with bytes := dropRange s.img.bytes a n }
    hld := { s.hld with discards := s.hld.discards ++ [d] } }.mapRecord

/-- The durable content where a discard's map record was lost (R459): bytes of the range stand again, but for those written since. -/
def Discard.undo (d : Discard) (m : SMap Byte) : SMap Byte :=
  if d.durable then m else d.was.foldl (fun (m : SMap Byte) p => if smGet 0 m p.1 = 0 then smPut 0 m p.1 p.2 else m) m

/-- A trim (R460): HEAD moves forward, to TAIL at most; records before it go. -/
def Stream.trim (st : Stream) (off : Nat) : Stream :=
  let h := min off st.tail
  if h ≤ st.head then st
  else { st with head := h, recs := st.recs.filter (fun p => decide (h ≤ p.1)), refusing := false }

/-- A trim of a stream in the effective and the durable content. -/
def State.trimNow (s : State) (r off : Nat) : State :=
  let f := fun (im : Image) => { im with streams := smPut {} im.streams r ((smGet ({} : Stream) im.streams r).trim off) }
  { s with live := f s.live, img := f s.img }.mapRecord

/-- The copies of the sealed domain's records where they lie in the Hold (R92, R446): address, body and, of all but the metrological log
and key slots, the tag behind it. A key slot's record is wrapped (R482) and not shown (log entry 114). -/
def State.sealedPlaces (s : State) : List (Nat × List Byte) :=
  s.live.tables.flatMap fun t =>
    if t.1 = 8 ∨ t.1 = tabRaw then []
    else t.2.flatMap fun r =>
      if !sealedRec t.1 r.2 then []
      else
        let tags := (smGet {} (smGet [] s.live.seals t.1) r.1).tags
        (List.range (sealCopies t.1)).map fun c =>
          (sealAddr t.1 r.1 c, recBytes t.1 r.2 ++ (if t.1 = tabMlog then [] else tags.getD c []))

/-- Bytes a read of the Hold returns (R446, R453): the region's content, 0 where nothing was written; of a stream the
record bytes at their offsets; of the sealed domain's records their bytes. -/
def State.holdRead (s : State) (a n : Nat) : List Byte :=
  let r := a / 2 ^ 56
  let off := a % 2 ^ 56
  let sealedHere := s.sealedPlaces.filter fun p => decide (p.1 < a + n) && decide (a < p.1 + p.2.length)
  (List.range n).map fun i =>
    match sealedHere.find? fun p => decide (p.1 ≤ a + i) && decide (a + i < p.1 + p.2.length) with
    | some p => p.2.getD (a + i - p.1) 0
    | none =>
      if (s.man.region r).stream then
        match (s.str r).recs.find? fun p =>
          decide (p.1 % (s.man.region r).size ≤ off + i) && decide (off + i < p.1 % (s.man.region r).size + p.2.length) with
        | some (o, bs) => bs.getD (off + i - o % (s.man.region r).size) 0
        | none => 0
      else smGet 0 s.live.bytes (a + i)


/-- The size a flush would have now, in bytes (R462, R463): journal records not durable, map records, the Logbook buffer. The length of a
map record is not given (log entry 127). -/
def State.backlog (s : State) : Nat :=
  ((s.cmt.journal.filter fun r => !r.durable).map JRec.size).sum + 64 * s.lgb.buf.length
    + (if s.hld.mapPending = 0 then 0 else s.hld.mapPending * Config.mapRecordBytes)

end Sys2Proof.Machine
end

