-- ==== Sys2Proof/Machine/CommitCtl.lean ====
section
/-!
DEFINITION. The commit groups' register commands and the Logbook's (13_commit_groups.md, 19_logbook.md). GROUP_SEAL and
GROUP_DURABLE stand in CommitDone.lean, with what other blocks do then.
-/
namespace Sys2Proof.Machine

/-- A read of CMT_ALLOC (R344, R346). -/
def State.allocRead (s : State) (i : Iface) : Word × State :=
  match s.openGroup i.issuer false with
  | (0x00, g, s1) => (wd (2 ^ 31 + g), s1)
  | (r, _, s1) => (wd (r * 256), s1)

/-- GROUP_OPEN: R344, R345, R561. -/
def execGroupOpen (i : Iface) (s : State) : Out := s.out (s.readGate i cmtAlloc fun s => s.allocRead i)

/-- The issuer that a staging window stands for (R346, R559). -/
def windowIssuer (i : Iface) (a : Nat) : Issuer := if windowOf i a < 16 then 0x10 + windowOf i a else i.issuer

/-- The descriptor in a window's staging words. -/
def State.windowBytes (s : State) (i : Iface) (w : Nat) : List Byte :=
  (List.range 8).flatMap fun k => be 4 (s.reg (regKey i (cmtAct w k))).toNat

/-- A write of CMT_PUSH_w (R346 to R352, R366): the result stands in CMT_RES_w. -/
def State.pushAction (s : State) (i : Iface) (w g : Nat) : State :=
  let r := s.stage (g % 64) (windowIssuer i (cmtPush w)) (Action.ofBytes (s.windowBytes i w))
  r.2.setReg (regKey i (cmtRes w)) (wd r.1)

/-- ACTION_STAGE: R346 to R352, R561, R366. -/
def execActionStage (i : Iface) (w g : Nat) (s : State) : Out :=
  s.out (s.writeGate i (cmtPush w) (wd g) fun s => s.pushAction i w g)

/-- CMT_RES of the window a CMT_CTRL write comes from. -/
def resKey (i : Iface) : Nat := if i.window < 16 then cmtRes i.window else regKey i (cmtRes 0)

/-- A word of CMT_CTRL. -/
def cmtWord (op g : Nat) : Word := wd (op * 2 ^ 30 + g % 64)

/-- GROUP_ABORT: R346, R357. -/
def execGroupAbort (i : Iface) (g : Nat) (s : State) : Out :=
  s.out (s.writeGate i cmtCtrl (cmtWord 2 g) fun s =>
    let r := s.abortRequest (g % 64) i.issuer
    r.2.setReg (resKey i) (wd r.1))

/-- DURABILITY_OVERRUN: R355, event 294. -/
def execDurabilityOverrun (g : Nat) (s : State) : Out :=
  s.out (if (s.grp g).st = .visible then s.raise 294 else s)

/-- INTENT_DURABLE: R358. The intent and every earlier journal record are durable; the group shows PRESTAGED. -/
def execIntentDurable (g : Nat) (s : State) : Out :=
  let x := s.grp g
  if x.st = .opened ∧ x.intent ≠ 0 then
    s.out ((s.durableUpTo x.intent).setGrp g { x with st := .prestaged, intentDurable := true })
  else s.out s

/-- GROUP_WITHDRAW: R359, event 296. -/
def execGroupWithdraw (g : Nat) (s : State) : Out :=
  s.out (if (s.grp g).st = .prestaged then s.withdraw g else s)

/-- The code of a group's state (Group states table). -/
def GState.code : GState → Nat
  | .free => 0
  | .opened => 1
  | .prestaged => 2
  | .visible => 3
  | .durable => 4

/-- The word CMT_GSTAT shows. -/
def State.gstatWord (s : State) : Word :=
  let x := s.grp (s.get cmtGsel_GROUP)
  wd (x.st.code * 2 ^ 28 + ofBool x.power * 2 ^ 27 + x.issuer * 2 ^ 21 + x.actions.length)

/-- A read of CMT_GSTAT: DURABLE is shown once (R345). -/
def State.gstatRead (s : State) : Word × State :=
  let g := s.get cmtGsel_GROUP
  (s.gstatWord, if (s.grp g).st = .durable then s.setGrp g {} else s)

/-- CMT_GSTAT_READ: R345. -/
def execCmtGstatRead (i : Iface) (s : State) : Out := s.out (s.readGate i cmtGstat State.gstatRead)

/-- A read of CMT_JSEQ_HI captures all 64 bits (R354). -/
def State.jseqRead (s : State) : Word × State :=
  (wd (s.cmt.durJseq / 2 ^ 32), (s.setReg cmtJseqHi (wd (s.cmt.durJseq / 2 ^ 32))).setReg cmtJseqLo (wd s.cmt.durJseq))

/-- JSEQ_CAPTURE: R354. -/
def execJseqCapture (i : Iface) (s : State) : Out := s.out (s.readGate i cmtJseqHi State.jseqRead)

/-- A read of CMT_CNT_HI captures all 64 bits of the selected counter's effective value (R347). -/
def State.cntRead (s : State) : Word × State :=
  let v := ofSigned 64 (smGet 0 s.live.counters (s.get cmtCntSel_COUNTER))
  (wd (v / 2 ^ 32), (s.setReg cmtCntHi (wd (v / 2 ^ 32))).setReg cmtCntLo (wd v))

/-- COUNTER_CAPTURE: R347. -/
def execCounterCapture (i : Iface) (s : State) : Out := s.out (s.readGate i cmtCntHi State.cntRead)

/-! ### The Logbook's windows -/

/-- The first 60 bytes of a record (R469). -/
def LogRec.body (r : LogRec) : List Byte :=
  be 1 r.typ ++ be 1 r.source ++ be 1 r.flags ++ be 1 r.extra ++ be 4 r.opsec ++ be 4 r.pcycle ++ padTo 48 r.payload

/-- The 64 bytes of a record. -/
def LogRec.bytes (r : LogRec) : List Byte := r.body ++ be 4 (crc32c r.body)

/-- The readable record whose number ends in 32 given bits (R474). -/
def State.logFind (s : State) (n : Nat) : Option LogRec :=
  (s.lgb.ring ++ s.lgb.buf).find? fun r => decide (s.lgb.first ≤ r.num) && r.num % 2 ^ 32 == n % 2 ^ 32

/-- The capture of a record into a window (R474). -/
def State.logCapture (s : State) (i : Iface) (w : Nat) : State :=
  let n := (s.reg (regKey i (lgbRdSel w))).toNat
  let put := fun (st : State) (bs : List Byte) =>
    (List.range 16).foldl (fun st k => st.setReg (regKey i (lgbRdData w k)) (wd (beAt bs (4 * k) 4))) st
  match s.logFind n with
  | none => put (s.setReg (regKey i (lgbRdStat w)) 0) []
  | some r =>
    let s1 := put (s.setReg (regKey i (lgbRdStat w))
      (wd (2 ^ 31 + ofBool r.crcBad * 2 ^ 30 + r.opsec / 3600 % 2 ^ 24))) r.bytes
    s1.raiseIf r.crcBad 452

/-- LOGBOOK_READ_SELECT: R474. -/
def execLogbookReadSelect (i : Iface) (w : Nat) (number : Word) (s : State) : Out :=
  s.out (s.writeGate i (lgbRdSel w) number fun s => s.logCapture i w)

/-- The sealed domain's clear group (R476): a TYPE 0x01 record and one added to counter 1,023; at the seal FIRST
becomes the cleared record's number and LGB_CLEARS shows the count. While no group, place or credit is free it waits. -/
def State.clearGroup (s : State) : State :=
  let n := s.lgb.next
  let cnt := ofSigned 32 (smGet 0 s.live.counters 1023 + 1)
  let rec1 : Action := { kind := 8, len := 48, arg := 0x01 + 256 * s.lgb.clearWindow,
                         data := padTo 48 ((s.stamp 8).bytes ++ be 4 s.lgb.first ++ be 4 n ++ be 4 cnt) }
  let add1 : Action := { kind := 9, len := 8, target := 1023, data := be 8 1 }
  let r := s.sealedGroup [rec1, add1] [] .logClear
  let was := some (r.1.lgb.firstWas.getD r.1.lgb.first)
  if r.2 then State.setReg { r.1 with lgb := { r.1.lgb with first := n, clearWaits := false, firstWas := was } } lgbClears (wd cnt)
  else { r.1 with lgb := { r.1.lgb with clearWaits := true } }

/-- A write of 1 to LGB_CLEAR (R476, R477). -/
def State.clearWrite (s : State) (i : Iface) : State :=
  if s.lgb.clearBusy then (s.set lgbClrStat_RESULT 0x02).raise 453
  else if s.warned then (s.set lgbClrStat_RESULT 0x03).raise 453
  else
    let s1 := { s with lgb := { s.lgb with clearBusy := true, clearWindow := i.window } }
    (s1.set lgbClrStat_BUSY 1).clearGroup

/-- LOGBOOK_CLEAR: R476, R477. -/
def execLogbookClear (i : Iface) (s : State) : Out := s.out (s.writeGate i lgbClear 1 fun s => s.clearWrite i)

end Sys2Proof.Machine
end

