-- ==== Sys2Proof/Machine/DoneOps.lean ====
section
/-!
DEFINITION. What follows when a commit group is sealed by its issuer or becomes durable (R251, R253, R355, R434, R476, R483).
-/
namespace Sys2Proof.Machine

/-- A seal request (R346, R354); the validation group takes its batch entries and members with it (R251). -/
def State.sealBy (s : State) (g : Nat) (iss : Issuer) : Nat × State :=
  if s.val.group = some g ∧ iss = 7 ∧ s.warned = false then (0x00, s.sealVal) else s.sealRequest g iss

/-- A record of a durable validation group (R241, R253): acknowledged with STATUS 0x00, its place free. A cell-batch entry has
nobody to acknowledge to. -/
def State.recDone (s : State) (n : Nat) : State :=
  match s.vrec n with
  | none => s
  | some v =>
    let s1 := if v.fromBatch.isSome || s.ackLate v then s else s.sendAck v.cell v.addr v.seq 0x00 v.mark
    s1.leavePlace n

/-- A Logbook clear is done (R476). -/
def State.clearDone (s : State) : State :=
  let s1 : State := { s with lgb := { s.lgb with clearBusy := false, firstWas := none } }
  ((s1.set lgbClrStat_BUSY 0).set lgbClrStat_RESULT 0x00).raise 449

/-- What the device does when a group of its own becomes durable. -/
def State.purposeDone (s : State) : GPurpose → State
  | .logClear => s.clearDone
  | .validation ns => (ns.foldl State.recDone s).retryRecs
  | _ => s

/-- A group has become durable: waits on it end with 0x00 (R434), its purpose follows. -/
def State.groupDone (s : State) (g : Nat) : State := (s.endGroupWaits g 0x00).purposeDone (s.grp g).purpose

/-- The groups that becoming durable up to a JSEQ ends, in JSEQ order. -/
def State.dueGroups (s : State) (j : Nat) : List Nat :=
  (s.cmt.journal.filter fun r => !r.durable && decide (r.jseq ≤ j) && (r.typ == 1 || r.typ == 3)
    && (s.grp r.group).st == .visible && (s.grp r.group).jseq == r.jseq).map (·.group)

/-- Every journal record up to a JSEQ is durable (R355), with what follows. -/
def State.makeDurable (s : State) (j : Nat) : State :=
  (s.dueGroups j).foldl State.groupDone (s.durableUpTo j).keysDurable

end Sys2Proof.Machine
end

