-- ==== Sys2Proof/Machine/OarsmanAlu.lean ====
section
/-!
DEFINITION. The Oarsman instructions on registers, data memory, branches, queues, time and waits (R424 to R431, R435,
R436, R280). Each runs on Oarsman n when it is running; its operands are the fields of R425.
-/
namespace Sys2Proof.Machine

/-- One instruction of a running Oarsman: a PC beyond the loaded code traps with cause 0x07 (R436); BUSY counts the
cycles of the Instructions table (the least count where it marks "+"). -/
def State.oarDo (s : State) (n cycles : Nat) (f : Oarsman → State → State) : State :=
  let o := s.oarN n
  if o.st ≠ .running then s
  else if (smGet {} s.man.oar n).code.length ≤ o.pc then s.trapOar n 0x07 0
  else f o (s.wrapUp (oarBusy_CYCLES n) cycles)

/-- The result stands in gd and the PC moves on. -/
def State.oarRet (s : State) (n : Nat) (o : Oarsman) (gd : Nat) (v : Word) : State :=
  s.setOar n { o.setG gd v with pc := o.pc + 1 }

/-- An instruction that only computes a register. -/
def State.oarAlu (s : State) (n gd cycles : Nat) (f : Oarsman → Word) : State :=
  s.oarDo n cycles fun o s => s.oarRet n o gd (f o)

/-- An 18-bit immediate, sign-extended (R425). -/
def immS (imm : Nat) : Word := BitVec.ofInt 32 (toSigned 18 imm)

/-- An 18-bit immediate, zero-extended (R425). -/
def immZ (imm : Nat) : Word := wd (imm % 2 ^ 18)

/-- One when a comparison holds, else zero. -/
def flagWord (b : Bool) : Word := if b then 1 else 0

/-- ADD: R426. -/
def execOpAdd (n gd ga gb : Nat) (s : State) : Out := s.out (s.oarAlu n gd 1 fun o => o.gr ga + o.gr gb)
/-- SUB: R426. -/
def execOpSub (n gd ga gb : Nat) (s : State) : Out := s.out (s.oarAlu n gd 1 fun o => o.gr ga - o.gr gb)
/-- AND: R426. -/
def execOpAnd (n gd ga gb : Nat) (s : State) : Out := s.out (s.oarAlu n gd 1 fun o => o.gr ga &&& o.gr gb)
/-- OR: R426. -/
def execOpOr (n gd ga gb : Nat) (s : State) : Out := s.out (s.oarAlu n gd 1 fun o => o.gr ga ||| o.gr gb)
/-- XOR: R426. -/
def execOpXor (n gd ga gb : Nat) (s : State) : Out := s.out (s.oarAlu n gd 1 fun o => o.gr ga ^^^ o.gr gb)
/-- SHL: R426. -/
def execOpShl (n gd ga gb : Nat) (s : State) : Out :=
  s.out (s.oarAlu n gd 1 fun o => o.gr ga <<< ((o.gr gb).toNat % 32))
/-- SHR: R426. -/
def execOpShr (n gd ga gb : Nat) (s : State) : Out :=
  s.out (s.oarAlu n gd 1 fun o => o.gr ga >>> ((o.gr gb).toNat % 32))
/-- SRA: R426. -/
def execOpSra (n gd ga gb : Nat) (s : State) : Out :=
  s.out (s.oarAlu n gd 1 fun o => (o.gr ga).sshiftRight ((o.gr gb).toNat % 32))
/-- MUL: R426. -/
def execOpMul (n gd ga gb : Nat) (s : State) : Out := s.out (s.oarAlu n gd 2 fun o => o.gr ga * o.gr gb)
/-- MULH: R426, the high word of the unsigned product. -/
def execOpMulh (n gd ga gb : Nat) (s : State) : Out :=
  s.out (s.oarAlu n gd 2 fun o => wd ((o.gr ga).toNat * (o.gr gb).toNat / 2 ^ 32))
/-- SLTU: R426. -/
def execOpSltu (n gd ga gb : Nat) (s : State) : Out :=
  s.out (s.oarAlu n gd 1 fun o => flagWord (decide ((o.gr ga).toNat < (o.gr gb).toNat)))
/-- SLT: R426. -/
def execOpSlt (n gd ga gb : Nat) (s : State) : Out :=
  s.out (s.oarAlu n gd 1 fun o => flagWord (decide ((o.gr ga).toInt < (o.gr gb).toInt)))
/-- ADDI: R426. -/
def execOpAddi (n gd ga imm : Nat) (s : State) : Out := s.out (s.oarAlu n gd 1 fun o => o.gr ga + immS imm)
/-- ANDI: R426. -/
def execOpAndi (n gd ga imm : Nat) (s : State) : Out := s.out (s.oarAlu n gd 1 fun o => o.gr ga &&& immZ imm)
/-- ORI: R426. -/
def execOpOri (n gd ga imm : Nat) (s : State) : Out := s.out (s.oarAlu n gd 1 fun o => o.gr ga ||| immZ imm)
/-- XORI: R426. -/
def execOpXori (n gd ga imm : Nat) (s : State) : Out := s.out (s.oarAlu n gd 1 fun o => o.gr ga ^^^ immZ imm)
/-- SHLI: R426. -/
def execOpShli (n gd ga imm : Nat) (s : State) : Out := s.out (s.oarAlu n gd 1 fun o => o.gr ga <<< (imm % 32))
/-- SHRI: R426. -/
def execOpShri (n gd ga imm : Nat) (s : State) : Out := s.out (s.oarAlu n gd 1 fun o => o.gr ga >>> (imm % 32))
/-- LUI: R426. -/
def execOpLui (n gd imm : Nat) (s : State) : Out := s.out (s.oarAlu n gd 1 fun _ => immZ imm <<< 14)

/-- Bytes of data memory, big-endian (R424). -/
def Oarsman.load (o : Oarsman) (a n : Nat) : Nat := ofBe (getBytes o.mem a n)

/-- Bytes stored in data memory. -/
def Oarsman.store (o : Oarsman) (a : Nat) (bs : List Byte) : Oarsman := { o with mem := putBytes o.mem a bs }

/-- A data-memory access of len bytes at ga + offset, aligned to al: out of range or unaligned traps with cause 0x02
(R436). -/
def State.oarMem (s : State) (n : Nat) (o : Oarsman) (base : Nat) (off : Word) (len al : Nat)
    (f : Nat → State) : State :=
  let a := (o.gr base + off).toNat
  if 0x2000 < a + len ∨ a % al ≠ 0 then s.trapOar n 0x02 0 else f a

/-- LDW: R424, R426. -/
def execOpLdw (n gd ga imm : Nat) (s : State) : Out :=
  s.out (s.oarDo n 1 fun o s => s.oarMem n o ga (immS imm) 4 4 fun a => s.oarRet n o gd (wd (o.load a 4)))
/-- STW: R424, R426. -/
def execOpStw (n gd ga imm : Nat) (s : State) : Out :=
  s.out (s.oarDo n 1 fun o s => s.oarMem n o ga (immS imm) 4 4 fun a =>
    s.oarRet n (o.store a (be 4 (o.gr gd).toNat)) 0 0)
/-- LDB: R426. -/
def execOpLdb (n gd ga imm : Nat) (s : State) : Out :=
  s.out (s.oarDo n 1 fun o s => s.oarMem n o ga (immS imm) 1 1 fun a => s.oarRet n o gd (wd (o.load a 1)))
/-- STB: R426. -/
def execOpStb (n gd ga imm : Nat) (s : State) : Out :=
  s.out (s.oarDo n 1 fun o s => s.oarMem n o ga (immS imm) 1 1 fun a =>
    s.oarRet n (o.store a (be 1 ((o.gr gd).toNat % 256))) 0 0)

/-- The field of R427: first byte offset, first bit from the most significant, width, bytes it touches. -/
structure FieldAt where
  off : Nat
  skip : Nat
  width : Nat
  bytes : Nat
  deriving DecidableEq, Repr

/-- A field immediate of R427. -/
def fieldAt (imm : Nat) : FieldAt :=
  let sk := imm / 2 ^ 10 % 8
  let w := imm / 2 ^ 13 % 32 + 1
  { off := imm % 2 ^ 10, skip := sk, width := w, bytes := (sk + w + 7) / 8 }

/-- FEX: R427. -/
def execOpFex (n gd ga imm : Nat) (s : State) : Out :=
  let f := fieldAt imm
  s.out (s.oarDo n 2 fun o s => s.oarMem n o ga (wd f.off) f.bytes 1 fun a =>
    s.oarRet n o gd (wd (o.load a f.bytes / 2 ^ (8 * f.bytes - f.skip - f.width) % 2 ^ f.width)))
/-- FINS: R427. -/
def execOpFins (n gd ga imm : Nat) (s : State) : Out :=
  let f := fieldAt imm
  s.out (s.oarDo n 3 fun o s => s.oarMem n o ga (wd f.off) f.bytes 1 fun a =>
    let sh := 8 * f.bytes - f.skip - f.width
    let v := o.load a f.bytes
    let cur := v / 2 ^ sh % 2 ^ f.width
    let v1 := v - cur * 2 ^ sh + (o.gr gd).toNat % 2 ^ f.width * 2 ^ sh
    s.oarRet n (o.store a (be f.bytes v1)) 0 0)

/-- A branch or jump: the PC becomes the target (taken) or moves on. -/
def State.oarBranch (s : State) (n target : Nat) (c : Oarsman → Bool) : State :=
  s.oarDo n 1 fun o s =>
    if c o then (s.wrapUp (oarBusy_CYCLES n) 1).setOar n { o with pc := target % 4096 }
    else s.setOar n { o with pc := o.pc + 1 }

/-- BEQ: R426. -/
def execOpBeq (n ga gb target : Nat) (s : State) : Out := s.out (s.oarBranch n target fun o => o.gr ga == o.gr gb)
/-- BNE: R426. -/
def execOpBne (n ga gb target : Nat) (s : State) : Out := s.out (s.oarBranch n target fun o => o.gr ga != o.gr gb)
/-- BLTU: R426. -/
def execOpBltu (n ga gb target : Nat) (s : State) : Out :=
  s.out (s.oarBranch n target fun o => decide ((o.gr ga).toNat < (o.gr gb).toNat))
/-- BGEU: R426. -/
def execOpBgeu (n ga gb target : Nat) (s : State) : Out :=
  s.out (s.oarBranch n target fun o => decide ((o.gr gb).toNat ≤ (o.gr ga).toNat))
/-- JMP: R426. -/
def execOpJmp (n target : Nat) (s : State) : Out := s.out (s.oarBranch n target fun _ => true)
/-- CALL: R426. -/
def execOpCall (n gd target : Nat) (s : State) : Out :=
  s.out (s.oarDo n 2 fun o s => s.setOar n { o.setG gd (wd (o.pc + 1)) with pc := target % 4096 })
/-- JR: R426. -/
def execOpJr (n ga : Nat) (s : State) : Out :=
  s.out (s.oarDo n 2 fun o s => s.setOar n { o with pc := (o.gr ga).toNat % 4096 })

/-- TXT: R279, R280. The issuer waits when no entry is free. -/
def execOpTxt (n gd : Nat) (s : State) : Out :=
  s.out (s.oarDo n 4 fun o s =>
    match s.txnTake { issuer := n } with
    | some (e, s1) => s1.oarRet n o gd (wd e)
    | none => (s.oarWait n (.entry gd)).txnWait (.instr n))
/-- TXF: R280. -/
def execOpTxf (n ga : Nat) (s : State) : Out :=
  s.out (s.oarDo n 4 fun o s =>
    let e := (o.gr ga).toNat
    let s1 := s.oarRet n o 0 0
    if (smGet none s1.txn.used e).isSome then s1.txnRelease e else s1)
/-- The tags an Oarsman may hold (R435). -/
def tagLimit (n : Nat) : Nat := if 7 ≤ n ∧ n ≤ 10 then 128 else 4
/-- FACQ: R435. A tag the Oarsman holds already answers 1 (DEDUCED, log entry 19). -/
def execOpFacq (n gd ga : Nat) (s : State) : Out :=
  s.out (s.oarDo n 2 fun o s =>
    let t := (o.gr ga).toNat % 4096
    if s.flow t = .oarsman n then s.oarRet n o gd 1
    else if s.flow t ≠ .nobody then s.oarRet n o gd 0
    else if tagLimit n ≤ s.flowCount (.oarsman n) then s.oarRet n o gd 2
    else (s.setFlow t (.oarsman n)).oarRet n o gd 1)
/-- FREL: R426. -/
def execOpFrel (n ga : Nat) (s : State) : Out :=
  s.out (s.oarDo n 2 fun o s =>
    let t := (o.gr ga).toNat % 4096
    (if s.flow t = .oarsman n then s.setFlow t .nobody else s).oarRet n o 0 0)

/-- POP: R428. Header words at ga, data words from ga + 16. -/
def execOpPop (n gd ga imm : Nat) (s : State) : Out :=
  s.out (s.oarDo n 2 fun o s =>
    let q := imm % 256
    if q ∉ (smGet {} s.man.oar n).consumes then s.trapOar n 0x04 0
    else match (s.q q).headItem, s.deliver q with
      | some h, some (it, s1) =>
        let a := (o.gr ga).toNat
        if 0x2000 < a + 16 + 8 * h.data.length then s.trapOar n 0x02 0
        else
          let o1 := s1.oarN n
          let bs := be 8 it.hdr0.toNat ++ be 8 it.hdr1.toNat ++ it.bytes
          ((s1.wrapUp (oarBusy_CYCLES n) (4 + it.data.length)).oarRet n (o1.store a bs) gd
            (wd (2 ^ 31 + (it.data.length - 1))))
      | _, _ => s.oarRet n o gd 0)

/-- Whether a push descriptor keeps its zero fields and a LEN of at most 256 words (R428). -/
def pushDescOk (ctrl pad tail : Nat) : Bool :=
  ctrl / 2 ^ 9 % 2 ^ 9 == 0 && decide (ctrl % 2 ^ 9 < 256) && pad == 0 && tail == 0

/-- PUSH: R393, R428. Without room the Oarsman waits, or with NOWAIT gets 0x01. -/
def execOpPush (n gd ga imm : Nat) (s : State) : Out :=
  s.out (s.oarDo n 6 fun o s =>
    let q := imm % 256
    let a := (o.gr ga).toNat
    if q ∉ (smGet {} s.man.oar n).produces then s.trapOar n 0x04 0
    else if s.qUsed q && s.flag (whfQCfg_FLAG q) then s.trapOar n 0x04 0
    else if 0x2000 < a + 32 then s.trapOar n 0x02 0
    else
      let ctrl := o.load a 4
      let d := o.load (a + 4) 2
      let len := ctrl % 2 ^ 9 + 1
      if !pushDescOk ctrl (o.load (a + 6) 2) (o.load (a + 28) 4) then s.trapOar n 0x05 0
      else if 0x2000 < d + 8 * len then s.trapOar n 0x02 0
      else if !s.qUsed q then s.oarRet n o gd 0x03
      else
        let t := if natBit ctrl 19 then Stamp.ofBytes (getBytes o.mem (a + 8) 20) else s.stamp 8
        let it := mkItem (ctrl / 2 ^ 20) t (getBytes o.mem d (8 * len))
        if s.qRoom q it.words then
          let s1 := s.enqueueNow q it
          s1.oarRet n (s1.oarN n) gd 0
        else if natBit ctrl 18 then s.oarRet n o gd 1
        else ((s.hwEnqueue (.oarsman n gd) q it).1).oarWait n (.room gd))

/-- QOP: R399, R426. -/
def execOpQop (n ga imm : Nat) (s : State) : Out :=
  s.out (s.oarDo n 4 fun o s =>
    let q := imm % 256
    let p := smGet {} s.man.oar n
    if q ∉ p.consumes ∧ q ∉ p.produces then s.trapOar n 0x04 0
    else
      let s1 := s.qOp q (imm / 256 % 4) (natBit imm 10) ((o.gr ga).toNat % 2 ^ 24)
      s1.oarRet n (s1.oarN n) 0 0)

/-- The crossing number whose low 32 bits are given and that lies within 2^31 crossings of the present count (R429). -/
def State.nearXing (s : State) (lo : Nat) : Nat :=
  let d := toSigned 32 (lo + 2 ^ 32 - s.xing.num % 2 ^ 32)
  ((s.xing.num : Int) + d).toNat

/-- LWX: R63, R429. -/
def execOpLwx (n gd ga gb : Nat) (s : State) : Out :=
  s.out (s.oarDo n 2 fun o s =>
    let v := 2 ^ 63 + 2 ^ 62 + s.nearXing (o.gr gb).toNat % 2 ^ 46 * 2 ^ 16 + (o.gr gd).toNat % 2 ^ 16
    s.oarMem n o ga 0 8 1 fun a => s.oarRet n (o.store a (be 8 v)) 0 0)
/-- LWP: R63, R429. -/
def execOpLwp (n gd ga gb : Nat) (s : State) : Out :=
  s.out (s.oarDo n 2 fun o s =>
    let v := 2 ^ 63 + (o.gr gb).toNat % 2 ^ 30 * 2 ^ 32 + (o.gr gd).toNat
    s.oarMem n o ga 0 8 1 fun a => s.oarRet n (o.store a (be 8 v)) 0 0)
/-- STAMP: R60, R426. -/
def execOpStamp (n ga : Nat) (s : State) : Out :=
  s.out (s.oarDo n 6 fun o s => s.oarMem n o ga 0 20 1 fun a => s.oarRet n (o.store a (s.stamp 8).bytes) 0 0)
/-- XNOW: R430. -/
def execOpXnow (n gd imm : Nat) (s : State) : Out :=
  s.out (s.oarDo n 1 fun o s =>
    match imm % 2 ^ 18 with
    | 0 => s.oarRet n { o with capX := s.xt, capP := s.clk.ptp, capF := s.stampFlags } gd (wd s.xing.num)
    | 1 => s.oarRet n o gd (wd (o.capX / 2 ^ 48))
    | 2 => s.oarRet n o gd (wd (o.capX % 2 ^ 16))
    | 3 => s.oarRet n o gd (wd (o.capP / nsPerSec))
    | 4 => s.oarRet n o gd (wd (o.capP % nsPerSec))
    | 5 => s.oarRet n o gd (wd o.capF)
    | _ => s.oarRet n o gd 0)

/-- WAIT: R431. A set latch is consumed at once, the event in imm bits 8:0 first. -/
def execOpWait (n gd imm : Nat) (s : State) : Out :=
  s.out (s.oarDo n 4 fun o s =>
    let a := imm % 512
    let b := imm / 512 % 512
    let m := (smGet {} s.man.oar n).events
    if a ∉ m ∨ b ∉ m then s.trapOar n 0x06 0
    else if a ∈ o.latches then s.oarRet n { o with latches := o.latches.filter (· ≠ a) } gd (wd a)
    else if b ∈ o.latches then s.oarRet n { o with latches := o.latches.filter (· ≠ b) } gd (wd b)
    else s.oarWait n (.events gd a b none))
/-- OARSMAN_WAIT_END: R431, R442. -/
def execOarsmanWaitEnd (n : Nat) (s : State) : Out :=
  match (s.oarN n).wait with
  | .events gd _ _ (some e) => s.out (s.oarResume n gd (wd e))
  | _ => s.out s
/-- WAITX: R431. -/
def execOpWaitx (n gd ga imm : Nat) (s : State) : Out :=
  s.out (s.oarDo n 4 fun o s =>
    let t := s.nearXing (o.gr ga).toNat * 65536 + imm % 65536
    if t ≤ s.xt then s.oarRet n o gd 1 else s.oarWait n (.crossing gd t))
/-- WAITX_INSTANT_REACHED: R431, R52. -/
def execWaitxInstantReached (n : Nat) (s : State) : Out :=
  match (s.oarN n).wait with
  | .crossing gd t => s.out (if t ≤ s.xt then s.oarResume n gd 0 else s)
  | _ => s.out s
/-- WAITU: R431. -/
def execOpWaitu (n ga : Nat) (s : State) : Out :=
  s.out (s.oarDo n 4 fun o s => s.oarWait n (.micros (s.clk.mono + (o.gr ga).toNat * 1000)))
/-- WAITU_EXPIRY: R431. -/
def execWaituExpiry (n : Nat) (s : State) : Out :=
  match (s.oarN n).wait with
  | .micros t => s.out (if t ≤ s.clk.mono then s.oarResume n 0 0 else s)
  | _ => s.out s
/-- SIGNAL: R441. -/
def execOpSignal (n : Nat) (s : State) : Out :=
  s.out (s.oarDo n 1 fun o s => (s.oarRet n o 0 0).raise (416 + n))
/-- TRAP: R426, R437. -/
def execOpTrap (n imm : Nat) (s : State) : Out := s.out (s.oarDo n 1 fun _ s => s.trapOar n 0x08 (imm % 256))

end Sys2Proof.Machine
end

