-- ==== Sys2Proof/Machine/OarsmanSys.lean ====
section
/-!
DEFINITION. The Oarsman instructions on hash jobs and commit groups (R432 to R434), restart and halt (R437, R442), and
Ebfin's access to an Oarsman (R440).
-/
namespace Sys2Proof.Machine

/-! ### Hash jobs -/

/-- A hash descriptor as its 32 bytes give it (R432). -/
structure HashDesc where
  func : Nat
  c0 : Bool
  keySrc : Nat
  outLen : Nat
  key : Nat
  cust : Nat
  inLen : Nat
  outAddr : Nat
  inAddr : Nat
  pad : Nat
  deriving DecidableEq, Repr

/-- The descriptor at a data address. -/
def Oarsman.hashDesc (o : Oarsman) (a : Nat) : HashDesc :=
  { func := o.load a 1 % 128, c0 := natBit (o.load a 1) 7, keySrc := o.load (a + 1) 1, outLen := o.load (a + 2) 2
    key := o.load (a + 4) 4, cust := o.load (a + 8) 4, inLen := o.load (a + 12) 2, outAddr := o.load (a + 14) 2
    inAddr := o.load (a + 16) 4, pad := o.load (a + 20) 12 }

/-- Whether a descriptor keeps the Hash descriptor table (R432), for Oarsman n. -/
def HashDesc.ok (d : HashDesc) (n : Nat) : Bool :=
  decide (1 ≤ d.func ∧ d.func ≤ 4) && (!d.c0 || n == 6) && decide (d.keySrc ≤ 3) &&
  decide (1 ≤ d.outLen ∧ d.outLen ≤ 256) && (d.func != 4 || d.outLen == 16) &&
  decide (1 ≤ d.inLen ∧ d.inLen ≤ 4096) && d.pad == 0

/-- Whether its input lies in the validation buffers. -/
def HashDesc.fromBuf (d : HashDesc) : Bool := natBit d.inAddr 31

/-- Whether its data addresses lie in data memory, its buffer offset in the buffers (log entry 57). -/
def HashDesc.inRange (d : HashDesc) : Bool :=
  decide (d.outAddr + d.outLen ≤ 0x2000) &&
  (if d.fromBuf then decide (d.inAddr % 2 ^ 21 + d.inLen ≤ 2 ^ 21) else decide (d.inAddr % 2 ^ 13 + d.inLen ≤ 0x2000))

/-- Whether Oarsman n may use what the descriptor names (R423, R432, R481): the key slot, the context slot, the buffers. -/
def State.hashGranted (s : State) (n : Nat) (d : HashDesc) : Bool :=
  (d.keySrc != 1 || (decide (d.key % 1024 ∈ (smGet {} s.man.oar n).keys) &&
    (!(s.slot (d.key % 1024)).isSealed || n == 12 || n == 13))) &&
  (decide (d.keySrc < 2) || s.slotOk (d.key % 2 ^ 20)) &&
  (!d.fromBuf || decide (7 ≤ n ∧ n ≤ 10))

/-- The key of a job: none when it cannot be used (R433). -/
def State.hashKey (s : State) (d : HashDesc) : Option (List Byte) :=
  match d.keySrc with
  | 1 => s.keyFor (d.key % 1024) 0
  | 2 => s.endpointKey (d.key % 2 ^ 20)
  | 3 => if natBit (s.epFlags (d.key % 2 ^ 20)) 1 then some (s.ctxBytes (d.key % 2 ^ 20) 144 64) else none
  | _ => none

/-- Input bytes: data memory, or a record from the start of its 4 KiB buffer with zeros after it (log entry 57). -/
def State.hashInput (s : State) (o : Oarsman) (d : HashDesc) : List Byte :=
  if d.fromBuf then
    (List.range d.inLen).map fun k =>
      let a := d.inAddr % 2 ^ 21 + k
      match s.vrec (a / 4096) with
      | some v => v.bytes.getD (a % 4096) 0
      | none => 0
  else getBytes o.mem (d.inAddr % 2 ^ 13) d.inLen

/-- Whether a buffer that the input reads carries poison. -/
def State.hashPoison (s : State) (d : HashDesc) : Bool :=
  d.fromBuf && match s.vrec (d.inAddr % 2 ^ 21 / 4096) with
    | some v => v.poison
    | none => false

/-- CUST as bytes: 0 is the empty string. -/
def HashDesc.custBytes (d : HashDesc) : List Byte := if d.cust = 0 then [] else be 4 d.cust

/-- The precedence of a descriptor's job (R433). -/
def HashDesc.cls (d : HashDesc) : Nat := if d.c0 then 1 else if d.func = 4 then 4 else 2

/-- The outcome of a descriptor's job (R432, R433): its key is fetched when it is submitted (log entry 57). -/
def State.hashJob (s : State) (o : Oarsman) (d : HashDesc) : HashJob :=
  let x := s.hashInput o d
  let bad := s.hashPoison d
  let exp := getBytes o.mem d.outAddr d.outLen
  if bad then { code := 0x03 }
  else if d.func = 3 then { outAddr := d.outAddr, out := padTo d.outLen (shake256 x d.outLen) }
  else match s.hashKey d with
  | none => { code := 0x02 }
  | some k =>
    if d.func = 4 then
      if d.keySrc = 3 then
        { code := if xmssVerify k (x.take (x.length - 2820)) (x.drop (x.length - 2820)) then 0 else 1 }
      else { code := 0x02 }
    else if d.keySrc = 3 then { code := 0x02 }
    else
      let t := padTo d.outLen (kmac256 k x (8 * d.outLen) d.custBytes)
      if d.func = 1 then { code := if t = exp then 0 else 1 } else { outAddr := d.outAddr, out := t }

/-- The tag of a new job (R432): the lowest without a job, else the lowest whose result has not been fetched (log entry 57);
none while four are outstanding. -/
def Oarsman.freeTag (o : Oarsman) : Option Nat :=
  let job := fun (t : Nat) => smGet none o.jobs t
  match (List.range 4).find? fun t => job t == none with
  | some t => some t
  | none => (List.range 4).find? fun t => match job t with
    | some j => j.result.isSome
    | none => false

/-- Jobs not yet complete (OAR_STAT_n.JOBS). -/
def Oarsman.outstanding (o : Oarsman) : Nat :=
  (o.jobs.filter fun p => match p.2 with
    | some j => j.result.isNone
    | none => false).length

/-- A job is submitted under a tag. -/
def Oarsman.addJob (o : Oarsman) (t : Nat) (j : HashJob) : Oarsman := { o with jobs := smPut none o.jobs t (some j) }

/-- The job of a descriptor with its precedence and its place in the order of issue (R261). -/
def State.newJob (s : State) (o : Oarsman) (d : HashDesc) : HashJob := { s.hashJob o d with cls := d.cls, ord := s.pwr.hashOrd }

/-- A job was issued: the next one comes after it, and a free engine takes what waits. -/
def State.jobIssued (s : State) : State := State.fillEngines 4 { s with pwr := { s.pwr with hashOrd := s.pwr.hashOrd + 1 } }

/-- HSUB: R432, R436. -/
def execOpHsub (n gd ga : Nat) (s : State) : Out :=
  s.out (s.oarDo n 4 fun o s => s.oarMem n o ga 0 32 1 fun a =>
    let d := o.hashDesc a
    if !d.ok n then s.trapOar n 0x05 0
    else if !d.inRange then s.trapOar n 0x02 0
    else if !s.hashGranted n d then s.trapOar n 0x03 0
    else match o.freeTag with
    | some t => (s.oarRet n (o.addJob t (s.newJob o d)) gd (wd t)).jobIssued
    | none => s.oarWait n (.submit gd ga))

/-- HWAIT: R433. A tag without a job returns a value that the spec does not give (log entry 57). -/
def execOpHwait (n gd ga : Nat) (s : State) : Out :=
  s.out (s.oarDo n 2 fun o s =>
    let t := (o.gr ga).toNat
    match smGet none o.jobs t with
    | none => let r := s.draw 32; r.2.oarRet n (r.2.oarN n) gd (wd r.1)
    | some j => match j.result with
      | some v => s.oarRet n { o with jobs := smPut none o.jobs t none } gd (wd v)
      | none => s.oarWait n (.job gd t))

/-- A job completes: its output enters data memory and its result stands; an Oarsman that waits for it goes on (R433). -/
def State.jobDone (s : State) (n tag : Nat) (j : HashJob) (poisoned : Bool) : State :=
  let o := s.oarN n
  let code := if poisoned then 3 else j.code
  let o1 := if code = 0 then o.store j.outAddr j.out else o
  let s1 := s.setOar n { o1 with jobs := smPut none o1.jobs tag (some { j with result := some code }) }
  match o.wait with
  | .job gd t =>
    if t = tag then
      (s1.setOar n { s1.oarN n with jobs := smPut none (s1.oarN n).jobs tag none }).oarResume n gd (wd code)
    else s1
  | _ => s1

/-- A stalled HSUB goes on when a job is no longer outstanding (R432). -/
def State.submitStalled (s : State) (n : Nat) : State :=
  let o := s.oarN n
  match o.wait, o.freeTag with
  | .submit gd ga, some t =>
    let d := o.hashDesc (o.gr ga).toNat
    ((s.setOar n (o.addJob t (s.newJob o d))).oarResume n gd (wd t)).jobIssued
  | _, _ => s

/-- A Keccak engine is done with a job; one that was to be parked is parked (R37). -/
def State.engineDone (s : State) (x : Nat × Nat × Nat) : State :=
  { s with pwr := { s.pwr with parking := s.pwr.parking - 1, serving := s.pwr.serving.erase x } }

/-- What a completed job leaves: its result, unless a trap has discarded the job (R433, R437). -/
def State.hashResult (s : State) (n tag ord : Nat) (poisoned : Bool) : State :=
  match smGet none (s.oarN n).jobs tag with
  | some j => if j.ord = ord ∧ j.result = none then (s.jobDone n tag j poisoned).submitStalled n else s
  | none => s

/-- HASH_JOB_COMPLETE: R37, R261, R433, R437. A job that waits for an engine cannot complete: nothing happens. -/
def execHashJobComplete (n tag : Nat) (poisoned : Bool) (s : State) : Out :=
  match s.pwr.serving.find? fun x => x.1 == n && x.2.1 == tag with
  | none => s.out s
  | some x => s.out (State.fillEngines 4 ((s.engineDone x).hashResult n tag x.2.2 poisoned))

/-! ### Commit groups -/

/-- A RESULT in bits 15:8 (R434). -/
def resWord (r : Nat) : Word := wd (r * 256)

/-- COPEN: R344, R434, R561. -/
def execOpCopen (n gd imm : Nat) (s : State) : Out :=
  s.out (s.oarDo n 4 fun o s =>
    let kept := natBit imm 0
    if s.warned then s.oarRet n o gd (resWord 0x08)
    else if kept ∧ n ≠ 12 ∧ n ≠ 13 then s.oarRet n o gd (resWord 0x07)
    else match s.openGroup n kept with
    | (0x00, g, s1) => s1.oarRet n (s1.oarN n) gd (wd (2 ^ 31 + g))
    | (r, _, s1) => s1.oarRet n (s1.oarN n) gd (resWord r))

/-- CSTAGE: R346 to R352, R434, R561. -/
def execOpCstage (n gd ga imm : Nat) (s : State) : Out :=
  s.out (s.oarDo n 12 fun o s => s.oarMem n o ga 0 32 1 fun a =>
    let r := s.stage (imm % 64) n (Action.ofBytes (getBytes o.mem a 32))
    r.2.oarRet n (r.2.oarN n) gd (resWord r.1))

/-- CABORT: R357, R434. -/
def execOpCabort (n gd imm : Nat) (s : State) : Out :=
  s.out (s.oarDo n 4 fun _ s =>
    let r := s.abortRequest (imm % 64) n
    r.2.oarRet n (r.2.oarN n) gd (resWord r.1))

/-- CWAITD: R362, R434. A group that is not this Oarsman's answers 0x02 (R346); one already durable or aborted answers at
once. -/
def execOpCwaitd (n gd imm : Nat) (s : State) : Out :=
  s.out (s.oarDo n 2 fun o s =>
    let g := imm % 64
    let x := s.grp g
    if x.issuer ≠ n then s.oarRet n o gd (resWord 0x02)
    else match x.st with
    | .durable => s.oarRet n o gd (resWord 0x00)
    | .free => s.oarRet n o gd (resWord (if x.power then 0x08 else 0x02))
    | _ => s.oarWait n (.group gd g))

/-! ### Restart, halt, Ebfin -/

/-- Whether an interface may control an Oarsman (17_oarsman.md, Registers): 12 and 13 only while the seal lets SL fields be
written, or by the seal core. -/
def State.oarControl (s : State) (i : Iface) (n : Nat) : Bool := (n != 12 && n != 13) || s.sealOpen || i == .sealCore

/-- HALT = 1 takes effect at once unless the Oarsman waits (R442). -/
def State.oarHalt (s : State) (n : Nat) : State :=
  let o := s.oarN n
  s.setOar n { o with haltReq := true, st := if o.st = .running then .halted else o.st }

/-- HALT = 0 resumes a halted Oarsman that Ebfin does not hold (R440). -/
def State.oarUnhalt (s : State) (n : Nat) : State :=
  let o := s.oarN n
  s.setOar n { o with haltReq := false, st := if o.st = .halted ∧ o.ebHalt = false then .running else o.st }

/-- What a write to OAR_CTRL_n does (R437, R442). -/
def State.oarCtrl (s : State) (i : Iface) (n : Nat) (v : Word) : State :=
  if !s.oarControl i n then s
  else
    let s1 := if wordBits v (oarCtrl_RESTART n) = 1 then s.oarRestart n else s
    if wordBits v (oarCtrl_HALT n) = 1 then s1.oarHalt n else s1.oarUnhalt n

/-- OARSMAN_RESTART: R437. HALT is written 0 with it. -/
def execOarsmanRestart (i : Iface) (n : Nat) (s : State) : Out :=
  s.out (s.writeGate i (oarCtrl (n % 16)) 0x80000000 fun s => s.oarCtrl i (n % 16) 0x80000000)

/-- OARSMAN_HALT: R442. -/
def execOarsmanHalt (i : Iface) (n : Nat) (s : State) : Out :=
  s.out (s.writeGate i (oarCtrl (n % 16)) 0x40000000 fun s => s.oarCtrl i (n % 16) 0x40000000)

/-- OARSMAN_RESUME: R442. -/
def execOarsmanResume (i : Iface) (n : Nat) (s : State) : Out :=
  s.out (s.writeGate i (oarCtrl (n % 16)) 0 fun s => s.oarCtrl i (n % 16) 0)

/-- SEAL_CORE_RESTART: R437. -/
def execSealCoreRestart (n : Nat) (s : State) : Out :=
  s.out (if (n = 12 ∨ n = 13) ∧ (s.oarN n).st = .trapped then s.oarRestart n else s)

/-- Whether Ebfin may reach an Oarsman (R440). -/
def State.ebMay (s : State) (n : Nat) : Bool := s.oarControl .ebfin n

/-- EBFIN_HALT: R440. -/
def execEbfinHalt (n : Nat) (s : State) : Out :=
  let o := s.oarN n
  s.out (if s.ebMay n then s.setOar n { o with ebHalt := true, st := if o.st = .running then .halted else o.st } else s)

/-- What an Ebfin access reads or writes (R440). -/
def State.ebAccess (s : State) (n : Nat) : EbAccess → State
  | .readReg r => s.emit (.readValue .ebfin ((s.oarN n).gr r))
  | .writeReg r v => s.setOar n ((s.oarN n).setG (r % 16) v)
  | .readMem a => s.emit (.readValue .ebfin ((smGet 0 (s.oarN n).mem (a % 0x2000)).setWidth 32))
  | .writeMem a v => s.setOar n ((s.oarN n).store (a % 0x2000) [v])

/-- EBFIN_ACCESS: R440. -/
def execEbfinAccess (n : Nat) (a : EbAccess) (s : State) : Out := s.out (if s.ebMay n then s.ebAccess n a else s)

end Sys2Proof.Machine
end

