-- ==== Sys2Proof/Machine/Tariff.lean ====
section
/-!
DEFINITION. The commands of tariff requests, calendars and accounts (11_tariff_calendar.md, 14_prepayment_panel.md).
-/
namespace Sys2Proof.Machine

/-! ### Requests -/

/-- Body length of an OP (R307, R374); none where the OP is not defined. WRITE carries its data beside 4 bytes. -/
def reqBody (op len : Nat) : Bool :=
  if op = 0x01 ∨ op = 0x05 ∨ op = 0x12 then len == 0
  else if op = 0x02 then decide (5 ≤ len) && decide (len ≤ 1028)
  else if op = 0x03 then len == 40
  else if op = 0x04 then len == 8
  else if op = 0x10 then len == 84
  else if op = 0x11 then len == 4
  else false

/-- Whether an OP is one of the tables. -/
def reqOp (op : Nat) : Bool := (decide (1 ≤ op) && decide (op ≤ 5)) || (decide (0x10 ≤ op) && decide (op ≤ 0x12))

/-- The form of a request (R308 step 1). Items are whole 64-bit words, so the item length counts up to its padding (DEDUCED, log
entry 53). -/
def reqForm (b : List Byte) : Bool :=
  let len := beAt b 12 2
  decide (beAt b 0 4 = 0x54525131) && decide ((len + 32 + 7) / 8 * 8 = b.length) && reqBody (beAt b 4 1) len

/-- The RSEQ window. -/
def State.rseq (s : State) : Nat × Nat := (s.live.rowN tabRseq 0 0, s.live.rowN tabRseq 0 1)

/-- The dedup rule in serial arithmetic (R222, R248, R308), where 0 is an ordinary sequence: 0 new, 0x02 a repeat, 0x03 below the
window. -/
def rseqCheck (q top win : Nat) : Nat :=
  if serialAbove q top then 0
  else if 64 ≤ serialSub top q then 0x03
  else if natBit win (serialSub top q) then 0x02
  else 0

/-- The window with a sequence marked. -/
def rseqMark (q top win : Nat) : Nat × Nat :=
  if serialAbove q top then
    (q, (if 64 ≤ serialSub q top then 0 else (win <<< serialSub q top) % 2 ^ 64) ||| 1)
  else (top, win ||| (1 <<< serialSub top q) % 2 ^ 64)

/-- Steps 1 to 4 of R308: 0 when all pass. -/
def State.reqGate (s : State) (b : List Byte) : Nat :=
  let len := beAt b 12 2
  if !reqForm b then 0x0A
  else match s.familyKey (s.get trfCfg_KEY_SLOT) (beAt b 6 1) 0 with
    | none => 0x07
    | some k =>
      if tagOf k (b.take (16 + len)) 16 "TRQ1" ≠ slice b (16 + len) 16 then 0x01
      else rseqCheck (beAt b 8 4) s.rseq.1 s.rseq.2

/-- The result of a request (R308): its record, TRF_LAST_REQ, and for a rejection event 257 and a Logbook record. -/
def State.reqResult (s : State) (b : List Byte) (res detail ver : Nat) : State :=
  let s1 := s.sealedResult (be 4 (beAt b 8 4) ++ be 1 (beAt b 4 1) ++ be 1 (beAt b 5 1) ++ be 1 res ++ be 1 detail ++ be 2 ver
    ++ be 6 0)
  let s2 := s1.setReg trfLastReq
    (BitVec.ofNat 32 (beAt b 5 1 % 64 * 2 ^ 24 + beAt b 4 1 % 16 * 2 ^ 16 + detail * 256 + res))
  if res = 0 ∨ res = 2 then s2 else s2.raiseLog 257 (be 1 res ++ be 1 detail ++ be 4 (beAt b 8 4))

/-- The request's RSEQ is marked accepted (R308). -/
def State.reqMark (s : State) (b : List Byte) : State :=
  let m := rseqMark (beAt b 8 4) s.rseq.1 s.rseq.2
  (s.sealedStore tabRseq 0 [m.1, m.2]).setReg trfRseq (BitVec.ofNat 32 m.1)

/-- What an operation yields: result, DETAIL, VERSION_ID of the calendar concerned. -/
abbrev ReqRes := Nat × Nat × Nat

/-- A passive image being built, or none. -/
def State.setBuilding (s : State) (g : Nat) (b : List Byte) : State :=
  { s with trf := { s.trf with building := smPut [] s.trf.building g b } }

/-- VERSION_ID of a group's passive calendar; 0 without one. -/
def State.passiveVersion (s : State) (g : Nat) : Nat :=
  match s.calBuilding g, s.calPending g with
  | some c, _ => calVersion c
  | none, some p => calVersion p.2
  | none, none => 0

/-- OPEN (R307, R311). -/
def State.tariffOpen (s : State) (g : Nat) : ReqRes × State :=
  if g ∈ s.trf.fixedAct then ((0x09, 0, s.passiveVersion g), s)
  else
    let s1 := if (s.calPending g).isSome then s.sealedStore tabCalPend g [] else s
    ((0, 0, 0), (s1.setBuilding g (List.replicate calBytes 0)).showTrf)

/-- WRITE (R307, R308). -/
def State.tariffWrite (s : State) (g : Nat) (b : List Byte) : ReqRes × State :=
  let off := beAt b 16 2
  let d := slice b 20 (beAt b 12 2 - 4)
  match s.calBuilding g with
  | none => ((0x08, 0, s.passiveVersion g), s)
  | some c =>
    if calBytes < off + d.length then ((0x04, 0, calVersion c), s)
    else ((0, 0, calVersion (patch c off d)), s.setBuilding g (patch c off d))

/-- CLOSE (R303, R307, R309): the hash, the checks, the sealed record; event 258. -/
def State.tariffClose (s : State) (g : Nat) (b : List Byte) : ReqRes × State :=
  match s.calBuilding g with
  | none => ((0x08, 0, s.passiveVersion g), s)
  | some c =>
    if calHash c ≠ slice b 16 32 then ((0x05, 0, calVersion c), s)
    else if calCheck c g ≠ 0 then ((0x06, calCheck c g, calVersion c), s)
    else
      let s1 := (s.sealedStore tabCalPend g (beAt b 48 6 :: nums c)).setBuilding g []
      ((0, 0, calVersion c), s1.showTrf.raise 258)

/-- ACTIVATE (R307, R311). -/
def State.tariffActivate (s : State) (g : Nat) (b : List Byte) : ReqRes × State :=
  match s.calPending g with
  | none => ((0x08, 0, s.passiveVersion g), s)
  | some p => ((0, 0, calVersion p.2), s.sealedStore tabCalPend g (beAt b 16 6 :: nums p.2))

/-- CANCEL (R307, R311). -/
def State.tariffCancel (s : State) (g : Nat) : ReqRes × State :=
  let v := s.passiveVersion g
  if (s.calBuilding g).isSome then ((0, 0, v), s.setBuilding g [])
  else if (s.calPending g).isNone then ((0x08, 0, v), s)
  else if g ∈ s.trf.fixedAct then ((0x09, 0, v), s)
  else ((0, 0, v), (s.sealedStore tabCalPend g []).showTrf)

/-- An operation that makes no group. -/
def State.tariffDo (s : State) (g : Nat) (b : List Byte) : ReqRes × State :=
  match beAt b 4 1 with
  | 0x01 => s.tariffOpen g
  | 0x02 => s.tariffWrite g b
  | 0x03 => s.tariffClose g b
  | 0x04 => s.tariffActivate g b
  | 0x05 => s.tariffCancel g
  | _ => ((0, 0, 0), s.endLockout)

/-- A request is processed (R308). False while an account operation waits for its group (R376, R560). -/
def State.request (s : State) (b : List Byte) : State × Bool :=
  let g := beAt b 5 1
  let op := beAt b 4 1
  let r := s.reqGate b
  if r ≠ 0 then (s.reqResult b r 0 0, true)
  else if s.get trfCfg_GROUPS ≤ g then ((s.reqMark b).reqResult b 0x04 0 0, true)
  else if op = 0x10 ∨ op = 0x11 then
    let d := slice b 16 (beAt b 12 2)
    let p := if op = 0x10 then s.acctSet d else s.acctClose d
    if p.2 then ((p.1.reqMark b).reqResult b 0 0 0, true) else p
  else
    let p := (s.reqMark b).tariffDo g b
    (p.2.reqResult b p.1.1 p.1.2.1 p.1.2.2, true)

/-- The request at the head of the sealed inbound queue, when it carries an OP; one whose OP no table has is taken under any. -/
def State.requestRow (op : Nat) (s : State) : State :=
  s.atHead s.man.roles.tariffIn fun s it =>
    if it.poisoned then (s, true)
    else if beAt it.bytes 4 1 = op ∨ reqOp (beAt it.bytes 4 1) = false then s.request it.bytes else (s, false)

/-- TARIFF_OPEN: R307, R308, R311. -/
def execTariffOpen (s : State) : Out := s.out (s.requestRow 0x01)
/-- TARIFF_WRITE: R307, R308. -/
def execTariffWrite (s : State) : Out := s.out (s.requestRow 0x02)
/-- TARIFF_CLOSE: R303, R307 to R309. -/
def execTariffClose (s : State) : Out := s.out (s.requestRow 0x03)
/-- TARIFF_ACTIVATE: R307, R308, R311. -/
def execTariffActivate (s : State) : Out := s.out (s.requestRow 0x04)
/-- TARIFF_CANCEL: R307, R308, R311. -/
def execTariffCancel (s : State) : Out := s.out (s.requestRow 0x05)
/-- ACCOUNT_SET: R308, R374. -/
def execAccountSet (s : State) : Out := s.out (s.requestRow 0x10)
/-- ACCOUNT_CLOSE: R308, R374. -/
def execAccountClose (s : State) : Out := s.out (s.requestRow 0x11)
/-- CLEAR_LOCKOUT: R308, R372, R374. -/
def execClearLockout (s : State) : Out := s.out (s.requestRow 0x12)

/-! ### Calendars -/

/-- CALENDAR_MINUTE: R306; in LOST nothing is evaluated, and what was selected before it does not stand after it. -/
def execCalendarMinute (s : State) : Out :=
  s.out (if s.trust = 3 then { s with trf := { s.trf with cur := [] } } else (List.range 64).foldl State.calMinute s)

/-- TRF_GROUP_QUERY: a write to TRF_GROUP_SEL. -/
def execTrfGroupQuery (i : Iface) (v : Word) (s : State) : Out := s.out (s.writeGate i trfGroupSel v State.groupQuery)

/-- RATE_QUERY: R317, a write to TRF_QRY_Q. -/
def execRateQuery (i : Iface) (v : Word) (s : State) : Out := s.out (s.writeGate i trfQryQ v State.rateQuery)

end Sys2Proof.Machine
end

