-- ==== Sys2Proof/Machine/Wharf.lean ====
section
/-!
DEFINITION. The Wharf's commands (15_wharf.md): doorbell pushes and pops, granted claims, retained-item operations,
counter clears.
-/
namespace Sys2Proof.Machine

/-- Whether an interface is one of an agent's (R402). -/
def State.isAgent (s : State) (i : Iface) (a : Agent) : Bool :=
  match i, a with
  | .core _, .cores => true
  | .core c, .pool k => match s.running c with
    | some t => (s.thr t).pool == some k
    | none => false
  | .pcie, .pcie => true
  | .oarsman n, .oarsman m => n == m
  | _, _ => false

/-- A doorbell page. -/
def State.page (s : State) (n : Nat) : Page := smGet {} s.whf.pages n

/-- The state with a doorbell page. -/
def State.setPage (s : State) (n : Nat) (p : Page) : State :=
  { s with whf := { s.whf with pages := smPut {} s.whf.pages n p } }

/-- The staging words of a page as data words: word w at offsets 8w and 8w + 4 (R402). -/
def Page.item (p : Page) (len : Nat) : List WWord :=
  (List.range len).map fun k =>
    { val := BitVec.ofNat 64 ((smGet 0 p.staging (2 * k)).toNat * 2 ^ 32 + (smGet 0 p.staging (2 * k + 1)).toNat) }

/-- The result of a push, first cause in the order of R402. A LEN above 256 words finds no room (R390; log entry 16). -/
def State.pushResult (s : State) (i : Iface) (n len : Nat) : Nat :=
  if !s.qUsed n then 0x03
  else if !((smGet [] s.man.producers n).any (s.isAgent i)) then 0x02
  else if s.flag (whfQCfg_FLAG n) then 0x04
  else if s.warned then 0x05
  else if 256 < len ∨ !s.qRoom n (len + 2) then 0x01
  else 0x00

/-- A write to a doorbell's PUSH (R393, R402): FLOW in bits 31:20, LEN − 1 in bits 8:0. -/
def State.doorPush (s : State) (i : Iface) (n : Nat) (v : Word) : State :=
  let len := bitsOf v 8 0 + 1
  let r := s.pushResult i n len
  let p := s.page n
  let t := s.stamp 8
  let s1 := if r = 0 then
      s.enqueueNow n { mkItem (bitsOf v 31 20) t [] with data := p.item len }
    else s
  s1.setPage n { p with res := r }

/-- DOORBELL_PUSH: R393, R402, R404. -/
def execDoorbellPush (i : Iface) (q : Nat) (v : Word) (s : State) : Out := s.out (s.doorPush i q v)

/-- Whether an interface may pop a queue now (R402, R413): its consumer, and for a pool the thread that was granted
this queue's head item. -/
def State.mayPop (s : State) (i : Iface) (n : Nat) : Bool :=
  match smGet none s.man.consumers n with
  | none => false
  | some a => s.isAgent i a && match i, a with
    | .core c, .pool _ => match s.running c with
      | some t => (s.thr t).grant == some n
      | none => false
    | _, _ => true

/-- A grant is used by its pop (R413). -/
def State.useGrant (s : State) (i : Iface) : State :=
  match i with
  | .core c => match s.running c with
    | some t => s.setThr t { s.thr t with grant := none }
    | none => s
  | _ => s

/-- A read of a doorbell's POP (R402): the word read, the page shows the item. -/
def State.doorPop (s : State) (i : Iface) (n : Nat) : Word × State :=
  if s.mayPop i n then
    match s.deliver n with
    | none => (0, s)
    | some (it, s1) =>
      (wd (2 ^ 31 + (it.data.length - 1)),
       (s1.setPage n { s1.page n with popped := it.data.map (·.val), hdr0 := it.hdr0, hdr1 := it.hdr1 }).useGrant i)
  else (0, s)

/-- DOORBELL_POP: R396, R398, R402. -/
def execDoorbellPop (i : Iface) (q : Nat) (s : State) : Out :=
  let r := s.doorPop i q
  s.out (r.2.emit (.readValue i r.1))

/-- What a producer does once its claim is granted: an Oarsman's PUSH returns 0x00 (R428). -/
def State.resumeProducer (s : State) (p : Producer) : State :=
  match p with
  | .oarsman n gd => match (s.oarN n).wait with
    | .room _ => s.oarResume n gd 0
    | _ => s
  | _ => s

/-- An item whose claim has waited takes its internal stamp when it becomes visible (R391); the stamp that an Oarsman supplied, and a
medium stamp, stand. -/
def State.freshStamp (s : State) (w : Waiter) : Item :=
  match w.prod with
  | .oarsman _ _ => w.item
  | _ =>
    let t := s.stamp 8
    if w.item.rank = 8 then { w.item with epoch := t.epoch, sec := (t.ptp / nsPerSec) % 2 ^ 32, ns := t.ptp % nsPerSec } else w.item

/-- The first waiting producer is served when room allows (R393). -/
def State.grantClaim (s : State) (n : Nat) : State :=
  let x := s.q n
  match x.waiters with
  | [] => s
  | w :: rest =>
    if w.item.words ≤ s.qFree n then
      ((s.setQ n { x with waiters := rest }).enqueueNow n (s.freshStamp w)).resumeProducer w.prod
    else s

/-- A write word of WHF_Q_CTRL_q. -/
def ctrlWord (op : Nat) (all : Bool) (iseq : Nat) : Word := wd (op * 2 ^ 30 + ofBool all * 2 ^ 24 + iseq % 2 ^ 24)

/-- QUEUE_RELEASE: R399, R400. -/
def execQueueRelease (i : Iface) (q : Nat) (all : Bool) (iseq : Nat) (s : State) : Out :=
  s.out (s.writeGate i (whfQCtrl q) (ctrlWord 1 all iseq) fun s => s.qOp q 1 all iseq)

/-- QUEUE_REWIND: R397, R399. -/
def execQueueRewind (i : Iface) (q : Nat) (s : State) : Out :=
  s.out (s.writeGate i (whfQCtrl q) (ctrlWord 2 false 0) fun s => s.qOp q 2 false 0)

/-- QUEUE_DONE: R399. -/
def execQueueDone (i : Iface) (q : Nat) (iseq : Nat) (s : State) : Out :=
  s.out (s.writeGate i (whfQCtrl q) (ctrlWord 3 false iseq) fun s => s.qOp q 3 false iseq)

/-- OVERRUN, LANE_FULL and POISONED to 0 (WHF_Q_CNT_q.CLR). -/
def State.clrQCnt (s : State) (n : Nat) : State :=
  ((s.set (whfQCnt_OVERRUN n) 0).set (whfQCnt_LANE_FULL n) 0).set (whfQCnt_POISONED n) 0

/-- The write word that carries a 1 in bit 31. -/
def clrWord : Word := 0x80000000#32

/-- WHF_Q_CNT_CLEAR: R394, 15_wharf.md. -/
def execWhfQCntClear (i : Iface) (q : Nat) (s : State) : Out :=
  s.out (s.writeGate i (whfQCnt q) clrWord fun s => s.clrQCnt q)

end Sys2Proof.Machine
end

