-- ==== Sys2Proof/Machine/CommitDone.lean ====
section
/-!
DEFINITION. The commands that seal a group, make it durable, and let waiting work go on (R354, R355, R393, R397, R560).
-/
namespace Sys2Proof.Machine

/-- GROUP_SEAL: R256, R346, R354, R358. -/
def execGroupSeal (i : Iface) (g : Nat) (s : State) : Out :=
  s.out (s.writeGate i cmtCtrl (cmtWord 1 g) fun s =>
    let r := s.sealBy (g % 64) i.issuer
    r.2.setReg (resKey i) (wd r.1))

/-- CSEAL: R354, R434. -/
def execOpCseal (n gd imm : Nat) (s : State) : Out :=
  s.out (s.oarDo n 1 fun _ s =>
    let r := s.sealBy (imm % 64) n
    r.2.oarRet n (r.2.oarN n) gd (wd (r.1 * 256)))

/-- GROUP_DURABLE: R253, R355, R434, R454, R455, R476, R483. A journal record waits for a die, and for room in the flush area. -/
def execGroupDurable (g : Nat) (s : State) : Out :=
  s.out (if (s.grp g).st = .visible ∧ s.journalWaits = false then (s.makeDurable (s.grp g).jseq).nandRun else s)

/-- PRODUCER_CLAIM_GRANTED: R25, R252, R289, R293, R393. Records that wait for credit try again too, and a balance evaluation that
waited goes on. -/
def execProducerClaimGranted (q : Nat) (s : State) : Out :=
  let s1 := (s.grantClaim q).retryRecs
  s.out (if s1.warned then s1 else s1.evalGo.evalDue s1.bal.due.length false)

/-- The catch-up that waits (R325, R560). -/
def State.retryCatchup (s : State) : State :=
  match s.bil.catchup with
  | some (c, qn, r) => s.catchUp (if r then s.xing.num else c) qn r
  | none => s

/-- SEALED_GROUP_RETRY: R560. Each work of the sealed domain that waits is tried again: the clear, the catch-up, the heads of
its inbound queues; and the records that wait for a group (R252). -/
def execSealedGroupRetry (s : State) : Out :=
  if s.warned then s.out s
  else
    let s1 := if s.lgb.clearWaits then s.clearGroup else s
    let s2 := s1.retryCatchup.sealWaiting
    let s3 := s2.atHead s2.man.roles.sealedIn fun s it => if it.poisoned then (s, true) else s.billStep it.bytes []
    let s4 := s3.atHead s3.man.roles.tariffIn fun s it => if it.poisoned then (s, true) else s.request it.bytes
    let s5 := s4.atHead s4.man.roles.tokenIn fun s it => if it.poisoned then (s, true) else s.tokenIn it.bytes
    s.out s5.retryRecs

/-- QUEUE_IDLE_TIMEOUT: R256, R397. The idle condition of the batch queue closes the open batch. -/
def execQueueIdleTimeout (q : Nat) (s : State) : Out :=
  if (s.q q).idleRun then
    let s1 := s.touchQ q fun s => (s.setQ q { s.q q with idleRun := false }).set (whfQStat_IDLE q) 1
    s.out (if s1.man.roles.batch = q + 1 then s1.closeBatch 1 else s1)
  else s.out s

end Sys2Proof.Machine
end

