-- ==== Sys2Proof/Machine/EptCmdOps.lean ====
section
/-!
DEFINITION. The table operations of EPT_CMD (09_endpoint_table.md: R272, R273, R278).
-/
namespace Sys2Proof.Machine

/-- The staged record: the 128 bytes of the staging words. -/
def State.staged (s : State) : List Byte := s.regBytes (eptStage 0) 32

/-- The staging words set to bytes. -/
def State.setStage (s : State) (b : List Byte) : State := s.setWords (eptStage 0) (words32 32 (padTo 128 b))

/-- Records that the enrolment store holds (R272). -/
def State.storeSize (s : State) : Nat := if s.fuses.variant = 1 then 2097152 else 32768

/-- The record as stored (Enrolment record table): the key wrapped under a slot, the slot named. -/
def wrapRecord (r : List Byte) (kek : List Byte) (slot : Nat) : List Byte :=
  slice r 0 8 ++ padTo 40 (aesWrap kek (slice r 8 32)) ++ be 2 slot ++ slice r 50 78

/-- The endpoint that an index names: registered or removed. -/
def State.named (s : State) (i : Nat) : Option Nat :=
  s.ctxSlots.find? fun k => (s.epState k == 1 || s.epState k == 3) && s.epIndex k == i


/-- The result of an operation. -/
def State.eptResult (s : State) (r : Nat) : State := (s.set eptCmdStat_RESULT r).set eptCmdStat_BUSY 0

/-- OP 0x1 (R272, R286, R300). A KEK slot without the wrap usage gives 0x01 (DESIGN CHOICE, log entry 42). -/
def State.enrol (s : State) : State :=
  let r := s.staged
  let e := beAt r 0 8
  let slot := s.get eptKek_SLOT
  if !euiOk e then s.eptResult 0x04
  else if s.get trfCfg_GROUPS ≤ beAt r 50 1 then s.eptResult 0x01
  else if (s.enrolment e).isSome then s.eptResult 0x03
  else if s.storeSize ≤ (smGet [] s.live.tables tabEnrol).length then (s.eptResult 0x02).raise 229
  else match s.keyFor slot 1 with
    | none => s.eptResult 0x01
    | some kek =>
      let s1 := ((s.journalUpd [.record tabEnrol e (nums (wrapRecord r kek slot))]).setStage []).eptResult 0
      if e = s.fuses.eui then s1.registerSite else s1

/-- OP 0x2 and 0x3 (R273): the barred bit in the enrolment record and the context. -/
def State.barOp (s : State) (k : Nat) (on : Bool) : State :=
  let e := s.epEui k
  let setBit := fun (n : Nat) => n / 2 * 2 + ofBool on
  let ups : List StoreUpd := match s.enrolment e with
    | some r => [.record tabEnrol e (nums (patch r 51 (be 1 (setBit (beAt r 51 1)))))]
    | none => []
  (s.journalUpd (ups ++ [.ctx k 13 (be 1 (setBit (s.epFlags k)))])).eptResult 0

/-- OP 0x4 (R273, R278): the endpoint is sent out of its cell, its index quarantined, event 227. -/
def State.removeOp (s : State) (k : Nat) : State :=
  if s.epState k ≠ 1 then s.eptResult 0x01
  else
    let s1 := match s.joinedAt (s.epEui k) with
      | some (c, a) => s.sendAway c a
      | none => s
    let day := s.utcSec / 86400 % 65536
    (((((s1.journalUpd [.ctx k 12 (be 1 3), .ctx k 246 (be 2 day)]).recount).setClosed (k + 1)).raise 227).eptResult 0)

/-- What a re-enrolment makes of a context (R233, R273). -/
def State.reContext (s : State) (k : Nat) (r : List Byte) : List StoreUpd :=
  let ef := beAt r 51 1
  let fl := ef % 4 + (s.epFlags k / 4 % 2) * 4 + (if natBit ef 2 then 8 else 0)
  [.ctx k 13 (be 1 fl), .ctx k 18 (slice r 50 1 ++ slice r 59 1 ++ slice r 52 4 ++ slice r 8 40 ++ slice r 48 2
      ++ be 6 0 ++ be 4 0 ++ be 4 0 ++ be 8 0 ++ List.replicate 24 0),
   .ctx k 116 (slice r 56 2),
   .ctx k 128 (be 4 0 ++ be 4 0xFFFFFFFF ++ be 8 0 ++ slice r 64 32 ++ slice r 96 32 ++ slice r 58 1)]

/-- OP 0x5 (R273, R300, R319: the billing set loses its cursor). The staged EUI must be the endpoint's own (DESIGN CHOICE, log entry 42). -/
def State.reEnrol (s : State) (k : Nat) : State :=
  let r := s.staged
  let slot := s.get eptKek_SLOT
  if beAt r 0 8 ≠ s.epEui k ∨ euiOk (beAt r 0 8) = false then s.eptResult 0x04
  else if s.get trfCfg_GROUPS ≤ beAt r 50 1 then s.eptResult 0x01
  else match s.keyFor slot 1 with
    | none => s.eptResult 0x01
    | some kek =>
      let w := wrapRecord r kek slot
      let ctx := if s.epState k = 1 then s.reContext k w else []
      let set1 := match s.bset (k + 1) with
        | some b => [StoreUpd.record tabSet (k + 1) { b with sflags := b.sflags / 2 * 2 }.row]
        | none => []
      ((s.journalUpd (.record tabEnrol (s.epEui k) (nums w) :: ctx ++ set1)).setStage []).eptResult 0

/-- Whether an operation on a slot has to wait for the flow tag of its registered endpoint (R273). -/
def State.tagHeld (s : State) (k : Nat) : Bool := s.epState k == 1 && s.flow (s.epFlow k) != .nobody

/-- An operation waits for its endpoint's flow tag (R273). -/
def State.opWaits (s : State) (op i : Nat) : State :=
  State.set { s with ept := { s.ept with waitOp := some (op, i) } } eptCmdStat_BUSY 1

/-- OP 0x7 (R272, R273): bytes 0 to 127 of a context slot, the wrapped key shown as 0; under the flow tag of a registered endpoint. -/
def State.readOp (s : State) (k : Nat) : State :=
  if !s.slotOk k then s.eptResult 0x01
  else if s.tagHeld k then s.opWaits 7 k
  else
    let s1 := s.setStage (patch (s.ctxBytes k 0 128) 24 (List.replicate 40 0))
    State.eptResult { s1 with ept := { s1.ept with hideKey := false, waitOp := none } } 0

/-- OP 0x8 (R273): the enrolment record of an endpoint in STATE 0x00 or 0x03. -/
def State.deleteOp (s : State) (i : Nat) : State :=
  let k := match s.named i with
    | some k => k
    | none => i
  let e := s.epEui k
  if !s.slotOk k ∨ (s.epState k ≠ 0 ∧ s.epState k ≠ 3) ∨ (s.enrolment e).isNone then s.eptResult 0x01
  else (s.journalUpd [.record tabEnrol e []]).eptResult 0

/-- OP 0x6 (R273): a rewrap begins; a target slot without the wrap usage gives 0x01 (DESIGN CHOICE, log entry 42). -/
def State.rewrapOp (s : State) : State :=
  match s.keyFor (s.get eptKek_NEW_SLOT) 1 with
  | none => s.eptResult 0x01
  | some _ => (State.set { s with ept := { s.ept with rewrap := some [s.get eptKek_NEW_SLOT] } } eptCmdStat_BUSY 1)

/-- An operation that runs under an endpoint's flow tag, once that is free (R273). -/
def State.flowOp (s : State) (op i : Nat) : State :=
  match s.named i with
  | none => s.eptResult 0x01
  | some k =>
    if s.tagHeld k then s.opWaits op i
    else
      let s1 : State := { s with ept := { s.ept with waitOp := none } }
      if op = 2 then s1.barOp k true
      else if op = 3 then s1.barOp k false
      else if op = 4 then s1.removeOp k
      else s1.reEnrol k

/-- What a write to EPT_CMD does (R272, R273): ignored while an operation runs. -/
def State.eptOp (s : State) (op i : Nat) : State :=
  if s.flag eptCmdStat_BUSY then s
  else if op = 1 then s.enrol
  else if 2 ≤ op ∧ op ≤ 5 then s.flowOp op i
  else if op = 6 then s.rewrapOp
  else if op = 7 then s.readOp i
  else if op = 8 then s.deleteOp i
  else s.eptResult 0x01

/-- A table operation that waited for its endpoint's flow tag goes on (R273). -/
def State.retryOp (s : State) : State :=
  match s.ept.waitOp with
  | some (op, i) => if op = 7 then s.readOp i else s.flowOp op i
  | none => s

/-- One wrapped key under a new slot, where it unwraps. -/
def rewrapKey (old new : List Byte) (w : List Byte) : Option (List Byte) :=
  (aesUnwrap old w).map fun k => padTo 40 (aesWrap new k)

/-- What a rewrap changes (R273): every context and every enrolment record that uses the old slot. -/
def State.rewrapUpds (s : State) (slot new : Nat) : List StoreUpd :=
  match s.keyFor slot 1, s.keyFor new 1 with
  | some a, some b =>
    let ctx := (s.ctxSlots.filter fun k => s.epState k != 0 && s.ctxAt k 64 2 % 1024 == slot).flatMap fun k =>
      match rewrapKey a b (s.ctxBytes k 24 40) with
      | some w => [StoreUpd.ctx k 24 (w ++ be 2 new)]
      | none => []
    let rs := (smGet [] s.live.tables tabEnrol).flatMap fun p =>
      let r : List Byte := p.2.map fun n => BitVec.ofNat 8 n
      if beAt r 48 2 % 1024 = slot then
        match rewrapKey a b (slice r 8 40) with
        | some w => [StoreUpd.record tabEnrol p.1 (nums (patch r 8 (w ++ be 2 new)))]
        | none => []
      else []
    ctx ++ rs
  | _, _ => []

end Sys2Proof.Machine
end

