-- ==== Sys2Proof/Machine/Endpoints.lean ====
section
/-!
DEFINITION. The commands of the endpoint table (09_endpoint_table.md).
-/
namespace Sys2Proof.Machine

/-- The word of a table operation. -/
def eptWord (op i : Nat) : Word := BitVec.ofNat 32 (op * 2 ^ 28 + i % 2 ^ 20)

/-- A table operation by an interface. -/
def State.tableOp (s : State) (i : Iface) (op idx : Nat) : State :=
  s.writeGate i eptCmd (eptWord op idx) fun s => s.eptOp op (idx % 2 ^ 20)

/-- ENROL: R11, R266, R272, R273, R281, R300. -/
def execEnrol (i : Iface) (s : State) : Out := s.out (s.tableOp i 1 0)

/-- BAR: R273. -/
def execBar (i : Iface) (idx : Nat) (s : State) : Out := s.out (s.tableOp i 2 idx)

/-- UNBAR: R273. -/
def execUnbar (i : Iface) (idx : Nat) (s : State) : Out := s.out (s.tableOp i 3 idx)

/-- REMOVE: R13, R273, R278. -/
def execRemove (i : Iface) (idx : Nat) (s : State) : Out := s.out (s.tableOp i 4 idx)

/-- RE_ENROL: R233, R273, R300. -/
def execReEnrol (i : Iface) (idx : Nat) (s : State) : Out := s.out (s.tableOp i 5 idx)

/-- REWRAP: R273. -/
def execRewrap (i : Iface) (s : State) : Out := s.out (s.tableOp i 6 0)

/-- REWRAP_COMPLETE: R273. Each context and each record changes and is journalled by itself, one after the other (DESIGN CHOICE, log
entry 43: within this one command). -/
def execRewrapComplete (s : State) : Out :=
  match s.ept.rewrap with
  | none => s.out s
  | some l =>
    let new := l.headD 0
    let s1 := (s.rewrapUpds (s.get eptKek_SLOT) new).foldl (fun st u => st.journalUpd [u]) s
    s.out ((((State.set { s1 with ept := { s1.ept with rewrap := none } } eptKek_SLOT new).eptResult 0)).raise 232)

/-- CONTEXT_READ: R272, R273. -/
def execContextRead (i : Iface) (idx : Nat) (s : State) : Out := s.out (s.tableOp i 7 idx)

/-- DELETE_ENROLMENT: R273. -/
def execDeleteEnrolment (i : Iface) (idx : Nat) (s : State) : Out := s.out (s.tableOp i 8 idx)

/-- QUARANTINE_EXPIRY: R13, R278. -/
def execQuarantineExpiry (slot : Nat) (s : State) : Out :=
  s.out (if s.epState slot = 3 ∧ s.retainOver slot = true then (s.freeCtx slot).raise 228 else s)

end Sys2Proof.Machine
end

