-- ==== Sys2Proof/Machine/Gangway.lean ====
section
/-!
DEFINITION. The commands of the Gangway (07_ethernet_gangway.md, 08_reading_validation.md for batches, 09_endpoint_table.md for
registration). A message command is given the message as it arrived; messages are checked and counted on arrival
(ETH_FRAME_RECEIVED), ATTACH and its answer here.
-/
namespace Sys2Proof.Machine

/-! ### Attachment -/


/-- A peer whose reliable spaces restart (R217): what was unacknowledged waits to go out again, answers to attachments
excepted. -/
def Peer.restart (x : Peer) (theirFirst : Nat) : Peer :=
  let again := (x.out.filter fun m => m.typ != 2).map fun m =>
    (m.typ + 256 * (match m.batch with | some b => b + 1 | none => 0), m.body)
  { x with ack := (theirFirst + 2 ^ 32 - 1) % 2 ^ 32, map := 0, unrelLast := none, out := [], waiting := again ++ x.waiting,
           parts := [], ackDue := false }

/-- Cell numbers in use at a hub: its own cells' and the peers'. -/
def State.cellsUsed (s : State) : List Nat := s.ownCells.map s.cellNo ++ s.gwy.peers.flatMap fun p => p.2.cells

/-- The n lowest free cell numbers. -/
def State.freeCells (s : State) (n : Nat) : List Nat := ((List.range 256).filter fun k => k ∉ s.cellsUsed).take n

/-- The sender number of a chip that attaches: its own again, else the lowest free one. -/
def State.chipFor (s : State) (eui : Nat) : Nat :=
  match s.gwy.peers.find? fun p => p.2.eui == eui && decide (1 ≤ p.1) && decide (p.1 ≤ 256) with
  | some p => p.1
  | none => ((List.range 256).find? fun k => (s.peer (k + 1)).eui == 0).getD 255 + 1

/-- The ATTACH_ANSWER body. -/
def attachAnswer (status dom chip : Nat) (cells : List Nat) (first : Nat) : List Byte :=
  be 1 status ++ be 1 dom ++ be 2 chip ++ padTo 5 (cells.map fun n => BitVec.ofNat 8 n) ++ be 3 0 ++ be 4 first

/-- A refused ATTACH (R216, R8): answered under the enrolled key, event 168, a Logbook record. -/
def State.refuseAttach (s : State) (eui gen status : Nat) : State :=
  let s1 := s.setPeer 0xFFFE { s.peer 0xFFFE with eui := eui, keygen := gen }
  let x := s1.peer 0xFFFE
  (s1.gwyPut 0xFFFE 0 (s1.gwyBytes 0xFFFE 2 1 x.relNext (attachAnswer status 0 0 [] x.relNext))).raiseLog 168
    (be 8 eui ++ be 1 status)

/-- An accepted ATTACH (R8, R217): the chip keeps its CHIP and cell numbers when it attaches again. -/
def State.acceptAttach (s : State) (c : ChipEnrol) (gen first : Nat) (cells : List Nat) : State :=
  let p := s.chipFor c.eui
  let x := (s.peer p).restart first
  let s1 := s.setPeer p { x with eui := c.eui, keygen := gen, domain := c.domain, cells := cells }
  let s2 := (s1.raise 167).gwyUp p
  State.gwyDrain 64 (s2.gwySend p 2 (attachAnswer 0 c.domain p cells (s2.peer p).relNext) none) p

/-- The cell numbers of a chip that attaches (R8, R217): those that it holds, and the lowest free ones for cells beyond them; the
spec leaves open what becomes of a chip that attaches again with another number of cells (DESIGN CHOICE, log entry 121). -/
def State.attachCells (s : State) (eui n : Nat) : List Nat :=
  let x := s.peer (s.chipFor eui)
  let had := if x.eui = eui then x.cells.take n else []
  had ++ s.freeCells (n - had.length)

/-- ATTACH_RECEIVED: R6, R8, R216 to R218. -/
def execAttachReceived (b : List Byte) (s : State) : Out :=
  let body := gwyBody b
  let eui := beAt body 0 8
  let gen := beAt b 3 1
  if !s.isHub || s.warned then s.out s
  else match (s.chipEnrol eui).bind fun c => (s.familyKey c.linkKey gen 0).map fun k => (c, k) with
    | none =>
      s.out ((s.setPeer 0xFFFE { s.peer 0xFFFE with tagFail := satAdd (s.peer 0xFFFE).tagFail 1 255 }).raiseLog 168 (be 8 eui))
    | some (c, k) => match s.gwyCheck b (some k) true with
      | some tag => s.out (s.gwyDiscard 0xFFFE tag)
      | none =>
        let n := beAt body 16 1
        let cells := s.attachCells eui n
        if beAt body 8 8 ≠ c.fingerprint then s.out (s.refuseAttach eui gen 0x02)
        else if cells.length < n then s.out (s.refuseAttach eui gen 0x01)
        else s.out (s.acceptAttach c gen (beAt body 20 4) cells)

/-- A chip's ATTACH is refused or given up (R8, R217): event 168, a Logbook record. -/
def State.attachRefused (s : State) (status : Nat) : State :=
  let s1 : State := { s with gwy := { s.gwy with attach := 2 } }
  s1.raiseLog 168 (be 8 s.fuses.eui ++ be 1 status)

/-- A chip's ATTACH is accepted (R8, R217, R218). -/
def State.attachDone (s : State) (b : List Byte) : State :=
  let body := gwyBody b
  let cells := (List.range 5).map fun i => beAt body (4 + i) 1
  let s0 := (List.zip s.ownCells cells).foldl (fun st p => st.setCellNo p.1 p.2) s
  let s1 := if s0.pwr.replayed then s0.rebuildCells s0.ownCells else s0
  let x := (s1.peer 0).restart (beAt body 12 4)
  let s2 := s1.setPeer 0 { x with domain := beAt body 1 1, cells := cells.take s.ownCells.length }
  let s3 : State := { s2 with gwy := { s2.gwy with attach := 0, chip := beAt body 2 2 } }
  let s4 := ((s3.gwyArrive 0 b).2.raise 167).gwyUp 0
  State.gwyDrain 64 s4 0

/-- ATTACH_ANSWER_RECEIVED: R8, R216 to R218, R221. -/
def execAttachAnswerReceived (b : List Byte) (s : State) : Out :=
  if s.warned then s.out s
  else match s.gwyCheck b (s.familyKey s.man.linkKey (beAt b 3 1) 0) false with
  | some tag => s.out (s.gwyDiscard 0 tag)
  | none =>
    if s.gwy.attach ≠ 1 then s.out (s.gwyArrive 0 b).2
    else match beAt (gwyBody b) 0 1 with
      | 0 => s.out (s.attachDone b)
      | k => s.out (s.attachRefused k)

/-- ATTACH_RESEND: R217. -/
def execAttachResend (s : State) : Out := s.out (if s.gwy.attach = 1 then s.sendAttach else s)

/-- ATTACH_GIVE_UP: R217. -/
def execAttachGiveUp (s : State) : Out := s.out (if s.gwy.attach = 1 then s.attachRefused 0x02 else s)

/-- ATTACH_RETRY: R217. -/
def execAttachRetry (s : State) : Out := s.out (if s.gwy.attach = 2 then s.sendAttach else s)

/-- PEER_DOWN: R217, R218. 30 s have gone by without a valid message of the peer. A chip attaches again. -/
def execPeerDown (p : Nat) (s : State) : Out :=
  if (s.peer p).up = true ∧ (s.peer p).heard + 30 * nsPerSec ≤ s.clk.mono then
    let s1 := (s.setPeer p { s.peer p with up := false }).raise 169
    s.out (if p = 0 ∧ s.isHub = false then s1.sendAttach else s1)
  else s.out s

/-! ### Messages -/

/-- What follows when every BATCH message of a batch is acknowledged (R258): event 206, its space is free. -/
def State.batchAcked (s : State) (p bseq : Nat) : State :=
  let x := s.peer p
  if (x.out.any fun m => m.batch == some bseq) || (x.waiting.any fun w => w.1 / 256 == bseq + 1) then s
  else
    let s1 := s.journalUpd [.record tabSigned bseq []]
    ((State.showBatch { s1 with val := { s1.val with signed := s1.val.signed.filter fun b => b.bseq != bseq } }).raise 206).noteLimit

/-- The acknowledgement fields of a message (R224): what they release leaves the launch queue. -/
def State.gwyRelease (s : State) (p : Nat) (b : List Byte) : State :=
  let r := (s.peer p).release (beAt b 12 4) (beAt b 16 8)
  let s1 := r.2.dedup.foldl (fun st k => st.batchAcked p k) (s.setPeer p r.1)
  s1.gwySettle.gwyDrain 64 p

/-- A message of a peer (R215, R218, R221, R224, R226): none when it is discarded; whether it is to be processed. -/
def State.gwyTake (s : State) (b : List Byte) : Option (Bool × State) :=
  let p := beAt b 6 2
  if s.warned then none
  else match s.gwyCheck b (s.peerKey p (beAt b 3 1)) false with
  | some _ => none
  | none =>
    let a := s.gwyArrive p b
    some (a.1, a.2.gwyRelease p b)

/-- A message processed once. -/
def State.onMessage (s : State) (b : List Byte) (f : State → State) : State :=
  match s.gwyTake b with
  | none => s
  | some (true, s1) => f s1
  | some (false, s1) => s1

/-- KEEPALIVE_SEND: R218. -/
def execKeepaliveSend (p : Nat) (s : State) : Out :=
  s.out (if (s.peer p).up && !s.warned then
    s.gwyUnreliable p 0x0A 0 (be 6 s.xing.num ++ be 4 (s.get eptCount_REGISTERED) ++ be 1 (s.get sysProfileStat_ACTIVE) ++ be 1 0)
  else s)

/-- KEEPALIVE_RECEIVED: R218, R221, R275. -/
def execKeepaliveReceived (b : List Byte) (s : State) : Out :=
  s.out (s.onMessage b fun s =>
    if beAt b 6 2 = 0 then { s with gwy := { s.gwy with hubJoined := beAt (gwyBody b) 6 4 } } else s)

/-- An anchor of the hub (R54, R219, R531 kind 0x9 code 2): accepted when newer and timely, event 21, else event 177. `t` is its receive stamp. -/
def State.anchorIn (s : State) (b : List Byte) (t : Nat) : State :=
  let a := gwyBody b
  let n := beAt a 0 6
  let launch := beAt a 22 6 * nsPerSec + beAt a 28 4
  let newer := match s.gwy.lastAnchor with
    | some l => decide (l < n)
    | none => true
  let ok := newer && decide (launch ≤ t + 1000000) && decide (t ≤ launch + 100000000)
  if ok && !s.clockFault 2 && s.flag xingConfig_ANCHOR_EN && beAt a 20 1 == s.get xingConfig_GRID_DOMAIN then
    let an : Anchor := { crossing := n, ptp := beAt a 6 6 * nsPerSec + beAt a 12 4, freq := beAt a 16 4, dom := beAt a 20 1 }
    let s1 : State := { s with gwy := { s.gwy with lastAnchor := some n }
                               xing := { s.xing with anchor := some an, anchorAge := 0, anchorFresh := true } }
    (s1.set xingStatus_ANCHOR_LOCK (s1.get xingStatus_OFFSET_LEARNED)).raise 21
  else if !s.flag xingConfig_ANCHOR_EN then s
  else s.raise 177

/-- ANCHOR_RECEIVED: R54, R57, R219, R221. -/
def execAnchorReceived (x : Nat) (b : List Byte) (s : State) : Out :=
  s.out (s.onMessage b fun st => st.anchorIn b (s.ethRx x).ptp)

/-- A hub's SNAPSHOT (R160, R57). -/
def State.snapshotIn (s : State) (b : List Byte) : State :=
  let a := gwyBody b
  let bt := beAt a 0 6
  let n := beAt a 6 6
  if !s.flag xingConfig_ANCHOR_EN || beAt a 12 1 != s.get xingConfig_GRID_DOMAIN then s
  else if s.plc.snapB = bt then (if s.plc.snapN = n then s else s.snapClash n)
  else if s.xing.num + 96 ≤ n then s.fixSnap n bt false
  else s

/-- SNAPSHOT_RECEIVED: R160, R221. -/
def execSnapshotReceived (b : List Byte) (s : State) : Out := s.out (s.onMessage b fun s => s.snapshotIn b)

/-- GANGWAY_ACK_RECEIVED: R221, R224, R258. -/
def execGangwayAckReceived (b : List Byte) (s : State) : Out := s.out (s.onMessage b id)

/-- ACK_DELAY_EXPIRY: R223. -/
def execAckDelayExpiry (p : Nat) (s : State) : Out :=
  s.out (if (s.peer p).ackDue && !s.warned then s.gwyAck p else s)

/-- RETRANSMIT_TIMER_EXPIRY: R224, R226. A message waits while its peer is down. -/
def execRetransmitTimerExpiry (p seq : Nat) (s : State) : Out :=
  let x := s.peer p
  match x.out.find? fun m => m.seq == seq && !m.mapped with
  | none => s.out s
  | some m =>
    if s.warned || !(x.up || p == 0xFFFF) then s.out s
    else
      let m1 := { m with timer := min 6400 (2 * m.timer) }
      let s1 := s.setPeer p { x with out := x.out.map fun y => if y.seq = seq then m1 else y, retrans := satAdd x.retrans 1 65535 }
      s.out ((s1.gwyPut p 0 (s1.gwyBytes p m.typ (if m.typ = 7 then 7 else 3) m.seq m.body)).raise 172)

/-- COMMAND_MESSAGE_RECEIVED: R221. The command waits for its endpoint's cell. -/
def execCommandMessageReceived (b : List Byte) (s : State) : Out :=
  s.out (s.onMessage b fun s =>
    let a := gwyBody b
    match s.joinedAt (beAt a 0 8) with
    | none => s
    | some (c, ad) =>
      let j : CmdJob := { addr := ad, typ := beAt a 8 1, payload := slice a 10 (beAt a 9 1) }
      s.setCell c { s.cell c with cmds := (s.cell c).cmds ++ [j] })

/-! ### Registration -/

/-- A registration at the hub (R274, R276, R277): the index of a registered EUI again with the new cell, else the lowest free
one, else refused. The hub's context of an EUI that it has not enrolled holds the EUI alone (DESIGN CHOICE, log entry 38). An EUI that
is no identity (R11) is not registered and gets no answer, as no STATUS stands for it (DEDUCED, log entry 109). -/
def State.hubRegister (s : State) (p eui cell : Nat) : State :=
  let answer := fun (st : State) (k i : Nat) => st.gwyReliable p 0x09 (registerBody eui cell k i) none
  if !euiOk eui then s
  else match s.liveSlot eui with
  | some i => answer (s.ctxPut i 14 (be 1 cell)) 0x00 (s.epIndex i)
  | none =>
    let full := answer ((s.refuseReg true eui cell).reportFull eui cell) 0x02 0xFFFFFFFF
    if s.hubFull then full
    else
      let r := (s.enrolment eui).getD (be 8 eui ++ List.replicate 48 0 ++ be 2 0xFFFF ++ List.replicate 70 0)
      match s.registerEp r cell 0 0 0 with
      | some (i, s1) => answer s1 0x00 i
      | none => full

/-- REGISTER_MESSAGE_HUB: R6, R221, R274, R276, R277. -/
def execRegisterMessageHub (b : List Byte) (s : State) : Out :=
  s.out (s.onMessage b fun s =>
    if s.isHub then s.hubRegister (beAt b 6 2) (beAt (gwyBody b) 0 8) (beAt (gwyBody b) 8 1) else s)

/-- A hub's answer to a registration (R275 steps 4 and 5). -/
def State.registerAnswer (s : State) (a : List Byte) : State :=
  let eui := beAt a 0 8
  match s.liveSlot eui with
  | none => s
  | some i =>
    if beAt a 9 1 = 0 then
      let was := s.epState i
      ((s.ctxPut i 8 (be 4 (beAt a 10 4 % 2 ^ 20) ++ be 1 1)).recount).raiseIf (was == 2) 224
    else
      let s1 := match s.joinedAt eui with
        | some (c, ad) =>
          if c < 3 then s.sendAway c ad
          else (s.setAway (c - 3) ad ((s.endpointKey i).map fun k => (k, s.ctxAt i 212 4))).sendAway c ad
        | none => s
      (s1.freeCtx i).refuseReg (beAt a 9 1 == 2) eui (beAt a 8 1)

/-- REGISTER_ANSWER_CELL: R221, R275. -/
def execRegisterAnswerCell (b : List Byte) (s : State) : Out :=
  s.out (s.onMessage b fun s => s.registerAnswer (gwyBody b))

/-! ### Batches at a hub -/

/-- Whether a part of a batch comes before another: their SEQs in serial order. -/
def partBefore (a b : Nat × Nat × Nat × List Byte) : Bool := serialAbove b.1 a.1

/-- The bytes that follow one another from a length on, until a total: with the parts used. -/
def gather (total : Nat) : List (Nat × Nat × Nat × List Byte) → List Byte → List Nat → Option (List Byte × List Nat)
  | [], acc, used => if acc.length = total then some (acc, used) else none
  | (q, o, t, d) :: rest, acc, used =>
    if acc.length = total then some (acc, used)
    else if o = acc.length ∧ t = total then gather total rest (acc ++ d) (used ++ [q])
    else none

/-- The first whole batch among parts in SEQ order. -/
def wholeBatch : List (Nat × Nat × Nat × List Byte) → Option (List Byte × List Nat)
  | [] => none
  | (q, o, t, d) :: rest =>
    match (if o = 0 ∧ 0 < t then gather t rest d [q] else none) with
    | some r => some r
    | none => wholeBatch rest

/-- The entries of a batch: EKIND, verdict, cell, RX_SEC, RX_NS, record. -/
def batchEntries : Nat → List Byte → List (Nat × Nat × Nat × Nat × Nat × List Byte)
  | 0, _ => []
  | n + 1, b =>
    let k := beAt b 0 1
    let len := if k < 3 then 64 else 32 + beAt b 18 2 + 2820
    let all := 16 + (len + 3) / 4 * 4
    (k, beAt b 1 1, beAt b 2 1, beAt b 8 4, beAt b 12 4, slice b 16 len) :: batchEntries n (b.drop all)

/-- The bytes that a number of entries take from the front of a list; none where an EKIND is unknown or the list ends first (R255). -/
def entriesLen : Nat → List Byte → Option Nat
  | 0, _ => some 0
  | n + 1, b =>
    let k := beAt b 0 1
    let len := 16 + ((if k < 3 then 64 else 32 + beAt b 18 2 + 2820) + 3) / 4 * 4
    if k = 0 ∨ 4 < k ∨ b.length < len then none else (entriesLen n (b.drop len)).map (· + len)

/-- Whether a reassembled cell batch is sound (R259): MAGIC, VERSION, COUNT, BYTES, and the signature under the identity key
enrolled for the chip. -/
def State.batchSound (s : State) (p : Nat) (b : List Byte) : Bool :=
  let n := beAt b 58 4
  let key := match s.chipEnrol (s.peer p).eui with
    | some c => s.keyFor c.idKey 4
    | none => none
  beAt b 0 4 == 0x43454231 && beAt b 4 1 == 1 && decide (1 ≤ beAt b 6 2) && decide (beAt b 6 2 ≤ 4096) &&
  decide (64 ≤ n) && decide (n ≤ b.length) && entriesLen (beAt b 6 2) (slice b 64 (n - 64)) == some (n - 64) &&
  (match key with
   | some k => xmssMtVerify k (b.take n) (b.drop n)
   | none => false)

/-- A verified batch (R259, R260): a new BSEQ is marked, its accepted entries wait for the pipeline, the batch goes on
unchanged to the head end; a BSEQ seen before is not processed again. -/
def State.takeBatch (s : State) (p : Nat) (b : List Byte) : State :=
  let x := s.peer p
  let q := beAt b 20 8
  if dedupCheck q x.bTop x.bWin ≠ 0 then s
  else
    let m := dedupMark q x.bTop x.bWin
    let s1 := s.setPeer p { x with bTop := m.1, bWin := m.2 }
    let es := (batchEntries (beAt b 6 2) (slice b 64 (beAt b 58 4 - 64))).filter fun e => e.1 == 1 || e.1 == 3
    let vs : List VRec := es.map fun e =>
      { bytes := e.2.2.2.2.2, lsr := e.1 == 3, cell := e.2.2.1, fromBatch := some e.2.1
        stamp := { ptp := e.2.2.2.1 * nsPerSec + e.2.2.2.2.1 } }
    let s2 : State := { s1 with val := { s1.val with entries := s1.val.entries ++ vs } }
    (s2.enterWaiting vs.length).sendParts 0xFFFF none b

/-- A batch that fails is discarded and counted: event 208 and a Logbook record; the message that completed it stays unacknowledged (R259). -/
def State.badBatch (s : State) (p seq : Nat) (whole : List Byte) (rest : List (Nat × Nat × Nat × List Byte)) : State :=
  let s1 := s.setPeer p { s.peer p with parts := rest, badSeq := some seq }
  State.raiseLog { s1 with gwy := { s1.gwy with discards := s1.gwy.discards + 1 } } 208 (be 2 p ++ be 8 (beAt whole 20 8))

/-- A BATCH message (R221, R259): the one that completes a batch is accepted only when the batch is sound. The one that completed an
unsound batch, sent again, is discarded again (DEDUCED, log entry 23). -/
def State.batchMsg (s : State) (b : List Byte) : State :=
  let p := beAt b 6 2
  let seq := beAt b 8 4
  let body := gwyBody b
  let x := s.peer p
  if x.judge seq ≠ 0 then
    (match s.gwyTake b with
     | some r => r.2
     | none => s)
  else if x.badSeq = some seq then s.gwyDiscard p false
  else
    let part := (seq, beAt body 0 4, beAt body 4 4, body.drop 8)
    let ps := insertBy partBefore part (x.parts.filter fun y => y.1 != seq)
    match wholeBatch ps with
    | some (whole, used) =>
      if s.batchSound p whole then
        (match s.gwyTake b with
         | some (true, s1) =>
           (s1.setPeer p { s1.peer p with parts := ps.filter fun y => y.1 ∉ used }).takeBatch p whole
         | some (false, s1) => s1
         | none => s)
      else s.badBatch p seq whole (ps.filter fun y => y.1 ∉ used)
    | none => match s.gwyTake b with
      | some (true, s1) => s1.setPeer p { s1.peer p with parts := ps }
      | some (false, s1) => s1
      | none => s

/-- BATCH_RECEIVED: R221, R225, R259, R260. -/
def execBatchReceived (b : List Byte) (s : State) : Out :=
  let p := beAt b 6 2
  if s.warned || !s.isHub || (s.gwyCheck b (s.peerKey p (beAt b 3 1)) false).isSome then s.out s else s.out (s.batchMsg b)

end Sys2Proof.Machine
end

