-- ==== Sys2Proof/Machine/TrustOps.lean ====
section
/-!
DEFINITION. Clock trust (02_crossing_time.md: R68 to R71) as shared operations, with what follows a transition in the tariff
engine (R314) and in billing (R313, R341).
-/
namespace Sys2Proof.Machine

/-- 72 h in ns. -/
def holdoverNs : Nat := 72 * 3600 * nsPerSec

/-- Servo locked and offset from master under 1 ms (R68). -/
def State.servoGood (s : State) : Bool :=
  s.flag ptpStat_LOCKED && decide ((toSigned 32 (s.get ptpOffset_OFFSET)).natAbs < 1000000)

/-- The agreement test (R69): PTP advance against counted crossings at nominal frequency plus coasted time, within 2 s. Without a
SYNCED instant there is nothing to compare. -/
def State.agrees (s : State) : Bool :=
  match s.aon.syncedPtp with
  | none => true
  | some t =>
    let a : Int := (s.clk.ptp : Int) - (t : Int)
    let b : Int := ((s.aon.counted * nsPerSec / (if s.is60 then 60 else 50) + s.aon.coastNs : Nat) : Int)
    decide ((a - b).natAbs ≤ 2 * nsPerSec)

/-- Time since the last SYNCED instant; none where no such instant is known. -/
def State.sinceSynced (s : State) : Option Nat := s.aon.syncedPtp.map fun t => s.clk.ptp - t

/-- Whether holdover has lasted more than 72 h (R68, R70). -/
def State.holdoverOver (s : State) : Bool :=
  match s.sinceSynced with
  | none => true
  | some d => decide (holdoverNs < d)

/-- A SYNCED instant (R69): the always-on domain keeps PTP time and crossing number; coasted time counts from 0. -/
def State.noteSynced (s : State) : State :=
  { s with aon := { s.aon with syncedPtp := some s.clk.ptp, coastNs := 0, counted := 0 } }

/-- What follows a transition (R313, R314): into UNTRUSTED or LOST the calendars are suspended and the open quarter loses its
rates; into SYNCED the suspension ends. -/
def State.trustFollows (s : State) (new : Nat) : State :=
  if 2 ≤ new then (State.suspendCal { s with bil := { s.bil with trustBad := true } }).setFlag 5
  else if new = 0 then s.resumeCal
  else s

/-- A clock-trust transition (R70, R71): state and cause, event 26, a Logbook record, and a metrological record into and out of
UNTRUSTED and LOST. -/
def State.setTrust (s : State) (new cause : Nat) : State :=
  let old := s.trust
  let s1 := (s.set trfClockTrust_STATE new).set trfClockTrust_CAUSE cause
  let s2 := s1.raiseLog 26 (be 1 old ++ be 1 new ++ be 1 cause)
  let s3 := if 2 ≤ old ∨ 2 ≤ new then s2.mlog 0x06 (old * 256 + new) (be 1 cause) else s2
  s3.trustFollows new

/-- A transition to SYNCED; from LOST the RTC is set (R70). -/
def State.trustSynced (s : State) : State :=
  let s1 : State := if s.trust = 3 then { s with xing := { s.xing with rtcValid := true } } else s
  (s1.setTrust 0 0x00).noteSynced

/-- The evaluation at a crossing or a servo report (R70), by its precedence. -/
def State.trustEval (s : State) : State :=
  if !s.xing.trustOk then s
  else if s.trust = 0 then (if s.servoGood then s.noteSynced else s.setTrust 1 0x01)
  else if s.trust = 1 then
    (if !s.agrees then s.setTrust 2 0x03
     else if s.holdoverOver then s.setTrust 2 0x02
     else if s.servoGood then s.trustSynced else s)
  else if s.trust = 2 then
    (if s.servoGood ∧ (s.get trfClockTrust_CAUSE ≠ 4 ∨ s.hwTai ≤ s.ptpSec) then s.trustSynced else s)
  else if s.servoGood then s.trustSynced else s

/-- PTP time has stepped back below the boundary high-water (R70, R71, R341): the transition where it is one, event 27, the
metrological record, the backstep hold. -/
def State.backstep (s : State) : State :=
  let first := s.trust ≠ 3 ∧ ¬ (s.trust = 2 ∧ s.get trfClockTrust_CAUSE = 4)
  let s1 := if first then s.setTrust 2 0x04 else s
  let hw := be 6 s.hwTai ++ be 2 0 ++ be 6 s.ptpSec ++ be 2 0
  ((s1.raise 27).mlog 0x05 0 hw).beginHold

/-- A step of the time-stamp unit (R62): EPOCH, event 30; a step back below the high-water is a backstep. -/
def State.stepPtp (s : State) (d : Int) : State :=
  let t := shiftNs s.clk.ptp d
  let s1 : State := { s with clk := { s.clk with ptp := t, epoch := (s.clk.epoch + 1) % 8 } }
  let s2 := s1.raise 30
  if d < 0 ∧ s2.ptpSec < s2.hwTai then s2.backstep else s2

/-- The servo loses lock (R210): event 163. The run of small offsets begins anew. -/
def State.unlockServo (s : State) : State :=
  let s1 : State := { s with eth := { s.eth with lockRun := 0 } }
  if s1.flag ptpStat_LOCKED then (s1.set ptpStat_LOCKED 0).raise 163 else s1

/-- The start-up evaluation (R70, R314). -/
def State.trustStart (s : State) : State :=
  let s1 : State := { s with xing := { s.xing with trustOk := true } }
  let new := if !s1.xing.rtcValid then 3 else if s1.holdoverOver then 2 else 1
  let cause := if new = 3 then 0x05 else if new = 2 then 0x02 else 0x06
  let s2 := (s1.set trfClockTrust_STATE new).set trfClockTrust_CAUSE cause
  let s3 := s2.raiseLog 26 (be 1 1 ++ be 1 new ++ be 1 cause)
  let s4 := if 2 ≤ new then s3.mlog 0x06 (256 + new) (be 1 cause) else s3
  if new = 1 then s4.resumeCal else s4.trustFollows new

end Sys2Proof.Machine
end

