-- ==== Sys2Proof/Machine/Ptp.lean ====
section
/-!
DEFINITION. The commands of the PTP servo and port states (07_ethernet_gangway.md: R204 to R210, R230, R563, R564), and the UTC
offset that Announce messages give (02_crossing_time.md: R58).
-/
namespace Sys2Proof.Machine

/-- Whether Oarsman 6 runs PTP now (R564, R226). -/
def State.ptpRuns (s : State) : Bool := s.eth.ptpOn && !s.warned

/-- The lock rule for one offset (R210, R531 kind 0x9 code 1): 1 ms unlocks, 8 in a row below LOCK_NS lock, event 162. -/
def State.servoLock (s : State) (off : Int) : State :=
  if 1000000 ≤ off.natAbs ∨ s.clockFault 1 = true then s.unlockServo
  else
    let n := if off.natAbs < s.get ptpServo_LOCK_NS then min 8 (s.eth.lockRun + 1) else 0
    let s1 : State := { s with eth := { s.eth with lockRun := n } }
    if n = 8 ∧ s1.flag ptpStat_LOCKED = false then (s1.set ptpStat_LOCKED 1).raise 162 else s1

/-- The slew rate that a Sync sets (R563): a free value within ±500 ppm, in 2^-8 ppb. -/
def State.setSlew (s : State) : State :=
  let r := s.draw 32
  let v := clampInt (-128000000) 128000000 (toSigned 32 r.1)
  let s1 := r.2.setReg ptpAdj (BitVec.ofNat 32 (ofSigned 32 v))
  { s1 with clk := { s1.clk with adj := v } }

/-- What a PTP port measures. -/
def State.slave (s : State) (x : Nat) : PtpPort := smGet {} s.eth.slaves x
/-- The state with it. -/
def State.setSlave (s : State) (x : Nat) (v : PtpPort) : State :=
  { s with eth := { s.eth with slaves := smPut {} s.eth.slaves x v } }

/-- t2 - t1 less the corrections of a Sync, in 2^-16 ns. -/
def syncSpan (t1 t2 : Nat) (corr : Int) : Int := ((t2 : Int) - (t1 : Int)) * 65536 - corr

/-- The delay to the master in 2^-16 ns: the mean link delay of the port under P2P, else the mean path delay (R209). -/
def State.masterDelay (s : State) (x : Nat) : Int :=
  if s.ptpP2p then (((s.reg (ptpPdelay x)).toNat * 256 : Nat) : Int) else (s.slave x).path

/-- The offset from master in whole ns (R209), rounded toward minus infinity (DESIGN CHOICE, log entry 120). -/
def State.offsetOf (s : State) (x : Nat) (span : Int) : Int := (span - s.masterDelay x) / 65536

/-- The servo acts on a measured offset (R209, R210, R563): a step, with the rate of PTP_ADJ in force from here on (R230), or a new
slew rate. -/
def State.servo (s : State) (offset : Int) : State :=
  let shown := clampInt (-(2 ^ 31)) (2 ^ 31 - 1) offset
  let s1 := ((s.setReg ptpOffset (BitVec.ofNat 32 (ofSigned 32 shown))).servoLock offset).trustEval
  if max 1 (s1.get ptpServo_STEP_US) * 1000 < offset.natAbs then
    State.trustEval (State.stepPtp { s1 with clk := { s1.clk with adj := toSigned 32 (s1.reg ptpAdj).toNat } } (-offset))
  else s1.setSlew

/-- A Sync with its stamps (R209). -/
def State.takeSync (s : State) (x t1 t2 : Nat) (corr : Int) : State :=
  let span := syncSpan t1 t2 corr
  (s.setSlave x { s.slave x with span := span, wait := none }).servo (s.offsetOf x span)

/-- A 10-byte timestamp of a PTP message, in ns. -/
def ptpTimeAt (b : List Byte) (o : Nat) : Nat := beAt b o 6 * nsPerSec + beAt b (o + 6) 4

/-- Whether a message comes from the selected master (PRESUMED from IEEE 1588, log entry 36). -/
def State.fromMaster (s : State) (b : List Byte) (o : Nat) : Bool :=
  s.eth.master != 0 && s.eth.master % 2 ^ 80 == beAt b (o + 20) 10

/-- A Sync of the selected master at a slave port, `b` the message from its header on: a one-step Sync is taken with its
originTimestamp, a two-step one waits for its Follow_Up (R207, R209). -/
def State.syncIn (s : State) (x : Nat) (b : List Byte) : State :=
  let corr := toSigned 64 (beAt b 8 8)
  let t2 := (s.ethRx x).ptp
  if ptpTwoStep b 0 then s.setSlave x { s.slave x with wait := some (beAt b 30 2, t2, corr) }
  else s.takeSync x (ptpTimeAt b 34) t2 corr

/-- A Follow_Up of the Sync that waits. -/
def State.followIn (s : State) (x : Nat) (b : List Byte) (o : Nat) : State :=
  match (s.slave x).wait with
  | none => s
  | some (n, t2, c) =>
    if beAt b (o + 30) 2 = n ∧ s.ptpState x = 9 ∧ s.fromMaster b o = true then
      s.takeSync x (ptpTimeAt b (o + 34)) t2 (c + toSigned 64 (beAt b (o + 8) 8))
    else s

/-- A Delay_Resp to this port's last Delay_Req (R204): the mean path delay from the last Sync and this answer. -/
def State.delayIn (s : State) (x : Nat) (b : List Byte) (o : Nat) : State :=
  let v := s.slave x
  match v.t3 with
  | none => s
  | some t3 =>
    if s.ptpP2p ∨ s.ptpState x ≠ 9 ∨ slice b (o + 44) 10 ≠ s.portId x ∨
        (beAt b (o + 30) 2 + 1) % 65536 ≠ smGet 0 s.eth.seqs (x * 16 + 1) then s
    else s.setSlave x { v with t3 := none, path := (v.span + syncSpan t3 (ptpTimeAt b (o + 34)) (toSigned 64 (beAt b (o + 8) 8))) / 2 }

/-- PTP_SYNC_RECEIVED: R62, R70, R204, R207, R209, R210, R314, R341, R563, R564. -/
def execPtpSyncReceived (x : Nat) (b : List Byte) (s : State) : Out :=
  s.out (if s.ptpRuns = true ∧ s.ptpState x = 9 ∧ ptpType b 0 = 0 ∧ beAt b 4 1 = s.ptpDomain ∧ s.fromMaster b 0 = true then
           s.syncIn x b else s)

/-- SYNC_TIMEOUT: R210, R70. -/
def execSyncTimeout (s : State) : Out := s.out (if s.eth.ptpOn then s.unlockServo.trustEval else s)

/-- A port leaves the slave state (R210): the servo is unlocked. -/
def State.leaveSlave (s : State) (x st : Nat) : State :=
  if s.ptpState x = 9 then ((s.setPtpState x st).unlockServo).trustEval else s.setPtpState x st

/-- ANNOUNCE_RECEIPT_TIMEOUT: R204, R210, R229. A port that listens, or is passive, uncalibrated or a slave, turns to MASTER (PRESUMED from
IEEE 1588, log entry 56); a slave's master is selected no more. -/
def execAnnounceReceiptTimeout (x : Nat) (s : State) : Out :=
  s.out (if s.eth.ptpOn = true ∧ s.ptpPort x = true ∧ s.ptpState x ∈ [4, 7, 8, 9] then
           (if s.ptpState x = 9 then s.dropMaster.leaveSlave x 6 else s.setPtpState x 6) else s)

/-- Whether the profile overrides fields of PTP_CFG (R205). -/
def State.ptpClash (s : State) : Bool :=
  s.flag ptpCfg_PROFILE && (s.get ptpCfg_TRANSPORT != 0 || !s.flag ptpCfg_DELAY || s.get ptpCfg_DOMAIN != 0)

/-- Port initialisation (R205, R230): the settings are taken, each port begins in LISTENING, or DISABLED when no clock uses it. -/
def State.ptpInit (s : State) : State :=
  let s0 := s.dropMaster
  let s1 : State := { s0 with eth := { s0.eth with cfg := s0.reg ptpCfg, slaves := [] } }
  let s2 := s1.set ptpStat_OVERRIDE (ofBool s1.ptpClash)
  [0, 1].foldl (fun (st : State) x => st.leaveSlave x (if st.ptpPort x then 4 else 3)) s2

/-- PTP_PORT_INIT: R205, R230, R564. -/
def execPtpPortInit (s : State) : Out := s.out (if s.eth.ptpOn then s.ptpInit else s)

/-- The comparison key of an Announce (priority 1, clock quality, priority 2, identity, steps removed), lower is better. -/
def announceKey (b : List Byte) : Nat := beAt b 47 16


/-- The Manifest's UTC offset. -/
def State.manUtc (s : State) : Nat := bitsOf (smGet 0 s.man.regs xingUtcOfs) 15 0

/-- XING_UTC_OFS from an Announce of the selected master (R58): its offset when valid, else the Manifest's; a change raises event
31. A leap that it announces waits for the end of the UTC day. -/
def State.takeUtc (s : State) (b : List Byte) : State :=
  let fl := beAt b 7 1
  let ok := natBit fl 2
  let ofs := if ok then beAt b 44 2 else s.manUtc
  let s1 := (s.set xingUtcOfs_OFFSET ofs).set xingUtcOfs_FROM_PTP (ofBool ok)
  let s2 := s1.raiseIf (decide (s.get xingUtcOfs_OFFSET ≠ ofs)) 31
  let o := toSigned 16 ofs
  let new : Int := if natBit fl 0 then o + 1 else o - 1
  let leap := ok && (natBit fl 0 || natBit fl 1)
  let day := (s2.utcSec / 86400 + 1) * 86400
  let at1 := (((day : Int) + new) * ((nsPerSec : Nat) : Int)).toNat
  State.set { s2 with xing := { s2.xing with leap := if leap then some (at1, new) else none } } xingUtcOfs_PENDING (ofBool leap)

/-- An Announce that selects its sender (PRESUMED best-master comparison of IEEE 1588, log entry 36): event 165 when the master
changes; the port is SLAVE, another slave port MASTER. -/
def State.selectMaster (s : State) (x : Nat) (b : List Byte) : State :=
  let m := announceKey b * 2 ^ 80 + beAt b 20 10
  let changed := s.eth.master % 2 ^ 80 ≠ beAt b 20 10
  let s1 := State.raiseIf { s with eth := { s.eth with master := m } } changed 165
  let s2 := if s1.ptpState (1 - x) = 9 then s1.leaveSlave (1 - x) 6 else s1
  (s2.setPtpState x 9).takeUtc b

/-- PTP_ANNOUNCE_RECEIVED: R58, R204, R564. `b` is the message from its header on. -/
def execPtpAnnounceReceived (x : Nat) (b : List Byte) (s : State) : Out :=
  if !s.ptpRuns ∨ !s.ptpPort x ∨ beAt b 4 1 ≠ s.ptpDomain then s.out s
  else
    let same := decide (s.eth.master ≠ 0) && decide (s.eth.master % 2 ^ 80 = beAt b 20 10)
    let best := decide (s.eth.master = 0) || decide (announceKey b < s.eth.master / 2 ^ 80)
    if s.ownKey ≤ announceKey b then
      s.out (if same then s.dropMaster.leaveSlave x 6 else
             if s.ptpState x = 9 then s else s.setPtpState x 6)
    else if same ∨ best then s.out (s.selectMaster x b)
    else s.out s

end Sys2Proof.Machine
end

