-- ==== Sys2Proof/Machine/Ethernet.lean ====
section
/-!
DEFINITION. The commands of the Ethernet ports and PTP that do not touch the servo (07_ethernet_gangway.md).
-/
namespace Sys2Proof.Machine

/-! ### Reception -/

/-- A class-0 frame (R211, R401): placed held in the lane of its cell's queue with event 174, else to the firmware queue with
event 175. -/
def State.placeClass0 (s : State) (x : Nat) (t : Stamp) (b d : List Byte) : State :=
  match smGet 0 s.man.c0Map (beAt d 28 1) with
  | 0 => (s.ethToFirmware x t b).raise 175
  | k + 1 =>
    let it := { mkItem 0 t d with class0 := true }
    let r := s.lanePlace k it
    if r.2 then r.1.raise 174
    else
      let full := decide ((s.q k).lane.length = 8)
      let s1 := if full then s.bump (whfQCnt_LANE_FULL k) 1 else s
      (s1.ethToFirmware x t b).raise 175

/-- A Gangway message other than class-0 (R214, R215): messages of attached peers are checked; the receive queue takes them. -/
def State.gwyIn (s : State) (t : Stamp) (d : List Byte) : State :=
  let p := beAt d 6 2
  let typ := beAt d 1 1
  let bad := if typ = 1 ∨ typ = 2 then none else s.gwyCheck d (s.peerKey p (beAt d 3 1)) false
  match bad with
  | some tag => s.gwyDiscard p tag
  | none => match s.man.roles.gwyRx with
    | 0 => s
    | q + 1 => s.rxEnqueue .launchUnit q (mkItem (s.gwyFlow d) t (t.bytes ++ be 2 d.length ++ be 2 0 ++ d))

/-- The peer-delay figures of a port: t1, t2, t4, correction of the response. -/
def State.pdelOf (s : State) (x : Nat) : List Nat := smGet [] s.eth.pdel x

/-- meanLinkDelay in units of 2^-8 ns from a round trip and turnaround in 2^-16 ns. -/
def linkDelay (trip turn : Int) : Nat := ((trip * 65536 - turn) / 2 / 256).toNat

/-- A Pdelay_Resp or its follow-up (R204): the mean link delay of the port. -/
def State.pdelayIn (s : State) (x : Nat) (t : Stamp) (b : List Byte) (o : Nat) : State :=
  let l := s.pdelOf x
  let t1 := l.getD 0 0
  let corr := toSigned 64 (beAt b (o + 8) 8)
  let ts := beAt b (o + 34) 6 * nsPerSec + beAt b (o + 40) 4
  if t1 = 0 ∨ slice b (o + 44) 10 ≠ s.portId x ∨ (beAt b (o + 30) 2 + 1) % 65536 ≠ smGet 0 s.eth.seqs (x * 16 + 2) then s
  else if ptpType b o = 3 then
    if ptpTwoStep b o then
      { s with eth := { s.eth with pdel := smPut [] s.eth.pdel x [t1, ts, t.ptp, ofSigned 64 corr] } }
    else s.setReg (ptpPdelay x) (BitVec.ofNat 32 (linkDelay ((t.ptp : Int) - (t1 : Int)) corr))
  else
    let turn : Int := ((ts : Int) - ((l.getD 1 0 : Nat) : Int)) * 65536 + toSigned 64 (l.getD 3 0) + corr
    s.setReg (ptpPdelay x) (BitVec.ofNat 32 (linkDelay (((l.getD 2 0 : Nat) : Int) - (t1 : Int)) turn))

/-- Transparent-clock forwarding to the other port ahead of its other traffic (R208): with the ingress stamp, a Sync in P2P with the
ingress port's link delay; never Pdelay messages. -/
def State.forwardPtp (s : State) (x : Nat) (t : Stamp) (b : List Byte) (o : Nat) : State :=
  let m := ptpType b o
  if m = 2 ∨ m = 3 ∨ m = 10 then s
  else
    let b1 := if m = 0 ∧ s.ptpP2p then udpFix b (addCorrection b o ((((s.reg (ptpPdelay x)).toNat * 256 : Nat) : Int))) o else b
    { s with eth := { s.eth with fwd := s.eth.fwd ++ [(1 - x, b1, t.ptp)] } }

/-- The Delay_Resp of a master port to a Delay_Req (R204): its receive stamp, its sender's port identity and sequence. -/
def State.delayResp (s : State) (x : Nat) (t : Stamp) (b : List Byte) (o : Nat) : State :=
  if s.ptpState x = 6 ∧ s.ptpP2p = false then
    s.queueEth x 0 none (s.ptpFrame x (s.ptpHeader x 9 54 0 (toSigned 64 (beAt b (o + 8) 8)) (beAt b (o + 30) 2)
      ++ ptpTime t.ptp ++ slice b (o + 20) 10))
  else s

/-- What this clock does with a PTP message (R204): management to firmware with event 166; peer delay answers, Follow_Up,
Delay_Req and Delay_Resp in its domain and by its transport. Sync, Announce and Pdelay_Req have commands of their own. -/
def State.ptpOwn (s : State) (x : Nat) (t : Stamp) (b : List Byte) (o : Nat) : State :=
  match ptpType b o, s.ptpMine b o with
  | 0xD, _ => (s.ethToFirmware x t b).raise 166
  | 1, true => s.delayResp x t b o
  | 3, true => s.pdelayIn x t b o
  | 10, true => s.pdelayIn x t b o
  | 8, true => s.followIn x b o
  | 9, true => s.delayIn x b o
  | _, _ => s

/-- A PTP message (R204, R208, R564): discarded uncounted before Oarsman 6 has started PTP. -/
def State.ptpIn (s : State) (x : Nat) (t : Stamp) (b : List Byte) (o : Nat) : State :=
  if !s.eth.ptpOn then s
  else
    let s1 := s.ptpOwn x t b o
    if s1.ptpTc then s1.forwardPtp x t b o else s1

/-- An accepted frame, parsed (R202, R211, R214). -/
def State.ethParse (s : State) (x : Nat) (t : Stamp) (b : List Byte) : State :=
  if isFragment b then s.bump (ethCnt_SIZE x) 1
  else match ptpHdr b with
    | some o => s.ptpIn x t b o
    | none => match s.gwyPayload b with
      | none => s.ethToFirmware x t b
      | some d => if isClass0 d && s.flag (ethCfg_C0_EN x) then s.placeClass0 x t b d else s.gwyIn t d

/-- ETH_FRAME_RECEIVED: R61, R201 to R204, R208, R211, R213 to R215, R226, R394, R401, R564. The bytes of the frame without
its FCS, and whether the FCS holds. -/
def execEthFrameReceived (x : Nat) (fcsOk : Bool) (b : List Byte) (s : State) : Out :=
  if s.warned || !s.flag (ethCfg_EN x) then s.out s
  else
    let k := s.everyNth 8 fun e => e.target == x
    if !fcsOk || k.1 then s.out (k.2.bump (ethCnt_FCS x) 1)
    else if 1522 < b.length + 4 then s.out (k.2.bump (ethCnt_SIZE x) 1)
    else s.out (if twoTags b then k.2 else k.2.ethParse x (k.2.ethRx x) b)

/-- The SPEED code of a link (R201): in SGMII mode what the PHY reports, 10, 100 or 1,000 Mb/s; in the other modes the one data rate
of the mode. -/
def State.linkSpeed (s : State) (x speed : Nat) : Nat :=
  match s.get (ethCfg_MODE x) with
  | 0 => min 2 speed
  | 1 => 2
  | _ => 3

/-- ETH_LINK_CHANGE: R201. The link of a port in use comes up, with its data rate, or goes down. -/
def execEthLinkChange (x : Nat) (up : Bool) (speed : Nat) (s : State) : Out :=
  s.out (if s.flag (ethCfg_EN x) = true ∧ s.flag (ethStat_LINK x) ≠ up then
           ((s.set (ethStat_LINK x) (ofBool up)).set (ethStat_SPEED x) (s.linkSpeed x speed)).raise (160 + x) else s)

/-! ### Class-0 authentication -/

/-- The key of a class-0 message (R212, R216). -/
def State.class0Key (s : State) (d : List Byte) : Option (List Byte) :=
  s.familyKey (if beAt d 6 2 = 0xFFFF then s.man.headC0Key else s.man.linkKey) (beAt d 3 1) 0


/-- A class-0 message that a hub passes on (R212): header and tag anew toward the chip that runs its cell. -/
def State.rewriteClass0 (s : State) (d : List Byte) : Option (List Byte × State) :=
  (s.peerOfCell (beAt d 28 1)).map fun p =>
    let x := s.peer p
    let body := gwyBody d
    let s1 := s.setPeer p { x with relNext := (x.relNext + 1) % 2 ^ 32, out := x.out ++ [{ seq := x.relNext, typ := 7, body := body }] }
    (s1.gwyBytes p 7 5 x.relNext body, s1)

/-- The lane with an item's hold released, its content replaced where it is passed on. -/
def State.releaseHold (s : State) (q : Nat) (l : LaneItem) (d : List Byte) : State :=
  let x := s.q q
  let l1 : LaneItem := { l with hold := false, item := { l.item with data := (mkItem 0 {} d).data } }
  s.touchQ q fun s => s.setQ q { x with lane := x.lane.map fun y => if y = l then l1 else y }

/-- Whether a class-0 message that a hub passes on may go to its chip now (R224): fewer than 64 are unacknowledged and the peer is up. Until
then it stays in the lane, held (DESIGN CHOICE, log entry 132). -/
def State.class0Room (s : State) (q : Nat) (d : List Byte) : Bool :=
  match s.man.medium q, s.peerOfCell (beAt d 28 1) with
  | .gwy, some p => decide ((s.peer p).out.length < 64) && s.gwyOpen p
  | _, _ => true

/-- The first held class-0 item of a queue is authenticated (R28, R212, R221, R224). -/
def State.class0Auth (s : State) (q : Nat) : State :=
  match (s.q q).lane.find? fun l => l.hold with
  | none => s
  | some l =>
    let d := l.item.bytes.take (44 + beAt l.item.bytes 24 2)
    let p := beAt d 6 2
    match s.gwyCheck d (s.class0Key d) false with
    | some tag =>
      let s1 := (s.dropLane q l).setPeer p { s.peer p with tagFail := satAdd (s.peer p).tagFail 1 255 }
      (s1.raiseLog 175 (be 2 p ++ be 1 (beAt d 28 1))).raiseIf tag 171
    | none =>
      if !s.class0Room q d then s
      else
        let a := s.gwyArrive p d
        let s1 := a.2.gwyRelease p d
        if !a.1 then s1.dropLane q l
        else match s1.man.medium q with
          | .gwy => match s1.rewriteClass0 d with
            | some (m, s2) => s2.releaseHold q l m
            | none => (s1.dropLane q l).raise 175
          | _ => s1.releaseHold q l d

/-- CLASS0_AUTH_DONE: R28, R165, R212, R213, R401. -/
def execClass0AuthDone (q : Nat) (s : State) : Out := s.out (s.class0Auth q)

/-! ### Transmission -/

/-- A two-step message is followed by its follow-up (R204, R207). -/
def State.followUp (s : State) (x : Nat) (b : List Byte) (o : Nat) (t : Stamp) : State :=
  let m := ptpType b o
  if ptpTwoStep b o ∧ (m = 0 ∨ m = 3) ∧ slice b (o + 20) 8 = s.clockId then
    let seq := beAt b (o + 30) 2
    let body := ptpTime t.ptp ++ (if m = 3 then slice b (o + 44) 10 else [])
    let typ := if m = 0 then 8 else 10
    s.queueEth x 0 none (s.ptpFrame x (s.ptpHeader x typ (34 + body.length) 0 (s.subNs x) seq ++ body))
  else if m = 2 ∧ slice b (o + 20) 8 = s.clockId then { s with eth := { s.eth with pdel := smPut [] s.eth.pdel x [t.ptp] } }
  else if m = 1 ∧ slice b (o + 20) 8 = s.clockId then s.setSlave x { s.slave x with t3 := some t.ptp }
  else s

/-- ETH_TRANSMIT_COMPLETE: R61, R207. -/
def execEthTransmitComplete (x : Nat) (s : State) : Out :=
  match smGet none s.eth.jobs x with
  | none => s.out s
  | some j =>
    let s1 := { s with eth := { s.eth with jobs := smPut none s.eth.jobs x none } }
    let s2 := match roleQ s1.man.roles.completion (5 + x) with
      | some q => s1.produce .launchUnit q (mkItem j.flow (s1.stamp 8) (j.stamp.bytes ++ be 4 0))
      | none => s1
    match ptpHdr j.bytes with
    | some o => s.out (if s2.eth.ptpOn then s2.followUp x j.bytes o j.stamp else s2)
    | none => s.out s2

/-- Whether a port sends messages of a type in its state. -/
def State.ptpSends (s : State) (x typ : Nat) : Bool :=
  if typ = 0 ∨ typ = 0xB then s.ptpState x == 6
  else if typ = 1 then s.ptpState x == 9 && !s.ptpP2p
  else typ == 2 && s.ptpP2p

/-- PTP_MESSAGE_INTERVAL: R204, R205. `typ` is the messageType whose interval ran out. -/
def execPtpMessageInterval (x typ : Nat) (s : State) : Out :=
  s.out (if s.eth.ptpOn && (s.ptpPort x || (typ == 2 && s.ptpTc)) && s.ptpSends x typ then s.ptpSend x typ else s)

/-- The answer to a Pdelay_Req (R206, R208): one-step with the residence time inserted, or two-step. `m` is the message. -/
def State.pdelayResp (s : State) (x : Nat) (m : List Byte) : State :=
  let t := s.ethRx x
  let req := slice m 20 10
  let body := (if s.ptpTwo then ptpTime t.ptp else be 10 0) ++ req
  let h := s.ptpHeader x 3 54 (if s.ptpTwo then 0x0200 else 0) (toSigned 64 (beAt m 8 8)) (beAt m 30 2)
  s.queueEth x 3 (some t) (s.ptpFrame x (h ++ body))

/-- PDELAY_REQ_RECEIVED: R206, R208, R564. -/
def execPdelayReqReceived (x : Nat) (m : List Byte) (s : State) : Out :=
  s.out (if s.eth.ptpOn && s.ptpP2p && !s.warned && beAt m 4 1 == s.ptpDomain then s.pdelayResp x m else s)

/-- What CLR of ETH_CNT_x does. -/
def State.clearEthCnt (s : State) (x : Nat) (v : Word) : State :=
  if wordBits v (ethCnt_CLR x) = 1 then (s.set (ethCnt_FCS x) 0).set (ethCnt_SIZE x) 0 else s

/-- ETH_CNT_CLEAR: R202. -/
def execEthCntClear (i : Iface) (x : Nat) (s : State) : Out :=
  s.out (if x < 2 then s.writeGate i (ethCnt x) 0x80000000 fun s => s.clearEthCnt x 0x80000000 else s)

end Sys2Proof.Machine
end

