-- ==== Sys2Proof/Machine/Ferryman.lean ====
section
/-!
DEFINITION. The Ferryman's commands (16_ferryman.md): dispatch, prefetch, waits, work takes, thread control, creation.
-/
namespace Sys2Proof.Machine

/-- A thread starts on a core; a pre-empted thread returns to the head of its list (R407, R409). -/
def State.startOn (s : State) (core t : Nat) : State :=
  let k := s.core core
  let s1 := match k.running with
    | some r => ((s.setThr r { s.thr r with st := .ready }).joinReady r true)
    | none => s
  let s2 := s1.unready t
  let emptied := s2.fry.cores.map fun p => (p.1, if p.2.slot = some t then { p.2 with slot := none, loaded := false } else p.2)
  let s3 : State := { s2 with fry := { s2.fry with cores := emptied } }
  (s3.setThr t { s3.thr t with st := .running }).setCore core { s3.core core with running := some t }

/-- The class-0 thread of a core when it can run (R419): it goes ahead of every other thread of its home core. -/
def State.c0Ready (s : State) (core : Nat) : Option Nat :=
  ((s.c0Of core).map (·.2)).filter fun t => (s.thr t).st == .ready || (s.thr t).st == .prefetched

/-- The thread a core would run next: a class-0 thread, its slot's thread when that is ready, else the head of its ready lists (R408,
R419). -/
def State.candidate (s : State) (core : Nat) : Option Nat :=
  match s.c0Ready core with
  | some t => some t
  | none => match (s.core core).slot with
    | some t =>
      if (s.thr t).st = .prefetched ∨ (s.thr t).st = .ready then
        match s.nextReady core with
        | some r => if (s.thr r).prio < (s.thr t).prio then some r else some t
        | none => some t
      else s.nextReady core
    | none => s.nextReady core

/-- A thread in another core's slot that pre-empts on this core (R409). -/
def State.slotPreempts (s : State) (core : Nat) : Option Nat :=
  ((List.range 8).filterMap fun c => (s.core c).slot).find? fun t => (s.thr t).st == .prefetched && s.preemptCore t == some core

/-- Whether the conditions of R418 held for a class-0 dispatch: the wait began at least 1 µs before the assertion, the
core is neither parked nor halted, no warning stands, no perturbation acts on the Ferryman. -/
def State.c0Bound (s : State) (core t : Nat) : Bool :=
  let k := s.core core
  (match smGet none s.fry.asserted t with
   | some a => decide ((s.thr t).waitAt + 1000 ≤ a)
   | none => false) && k.slot == some t && k.loaded && !k.parked && !k.halted && !s.warned && (s.armedEntry 4 fun e => natBit e.target core).isNone

/-- The measure of a class-0 dispatch (R419): LAST, MAX, and event 386 with a Logbook record above 150 ns. -/
def State.c0Measure (s : State) (core t ns : Nat) : State :=
  match s.c0Index t with
  | none => s
  | some i =>
    let slow := s.c0Bound core t && decide (150 < ns)
    let s1 := (s.setSat (fryC0Stat_LAST i) ns).setSat (fryC0Stat_MAX i) (max ns (s.get (fryC0Stat_MAX i)))
    if slow then s1.raiseLog 386 (be 2 t ++ be 2 (min ns 65535)) else s1

/-- A dispatch that a perturbation delays counts in its HITS (R531 kind 0x4). -/
def State.dispatchHit (s : State) (core : Nat) : State :=
  match s.armedEntry 4 fun e => natBit e.target core with
  | some n => s.hit n
  | none => s

/-- THREAD_DISPATCH: R407 to R410, R419. The core starts its next thread when it is idle, or pre-empts under R409;
`ns` is the measured time from the assertion to the first instruction. -/
def execThreadDispatch (core ns : Nat) (s : State) : Out :=
  let k := s.core core
  let next := match k.running with
    | none => s.candidate core
    | some _ => match (s.candidate core).filter fun t => s.preemptCore t == some core with
      | some t => some t
      | none => s.slotPreempts core
  match next with
  | none => s.out s
  | some t => s.out (if k.parked || k.halted then s else ((s.c0Measure core t ns).dispatchHit core).startOn core t)

/-- PREFETCH_LOAD_DONE: R408, R417. The slot takes the thread the core would run next; a reserved slot holds only its
class-0 thread; a thread it displaces returns to the head of its list. -/
def execPrefetchLoadDone (core : Nat) (s : State) : Out :=
  let k := s.core core
  if k.parked then s.out s
  else match s.c0Of core with
    | some (_, t) =>
      let x := s.thr t
      if x.st = .waiting then s.out (s.setCore core { k with slot := some t, loaded := true })
      else if x.st = .ready then
        s.out (((s.unready t).setThr t { x with st := .prefetched }).setCore core { k with slot := some t, loaded := true })
      else s.out s
    | none =>
      match s.nextReady core with
      | none => s.out s
      | some t =>
        let swap := match k.slot with
          | some o => decide ((s.thr t).prio < (s.thr o).prio)
          | none => true
        if swap then
          let s1 := match k.slot with
            | some o => (s.setThr o { s.thr o with st := .ready }).joinReady o true
            | none => s
          let s2 := s1.unready t
          s.out ((s2.setThr t { s2.thr t with st := .prefetched }).setCore core { k with slot := some t, loaded := true })
        else s.out s

/-- A latch is consumed and its coalescing episode ends (R411). -/
def State.consume (s : State) (e : Nat) : State :=
  { s with fry := { s.fry with latches := s.fry.latches.filter (· ≠ e), episodes := s.fry.episodes.filter (· ≠ e) } }

/-- THREAD_WAIT: R411, R412. A set latch is consumed and the thread goes on; EVENT_A first. -/
def execThreadWait (core a : Nat) (b : Option Nat) (s : State) : Out :=
  match s.running core with
  | none => s.out s
  | some t =>
    let x := s.thr t
    if a ∈ s.fry.latches then s.out ((s.consume a).setThr t { x with lastEvent := a, waitA := a, waitB := b })
    else match b.filter (fun e => decide (e ∈ s.fry.latches)) with
      | some e => s.out ((s.consume e).setThr t { x with lastEvent := e, waitA := a, waitB := b })
      | none =>
        let s1 := s.leaveCore core t { x with st := .waiting, waitA := a, waitB := b, waitSeq := s.fry.nextSeq,
                                              waitAt := s.clk.mono }
        s.out { s1 with fry := { s1.fry with nextSeq := s1.fry.nextSeq + 1 } }

/-- What a read of FRY_SELF_TAKE does and returns (R413): none while the thread waits for a grant. -/
def State.workTake (s : State) (core : Nat) : Option Word × State :=
  match s.running core with
  | none => (some 0, s)
  | some t =>
    let s1 := s.threadDrop t
    match (s1.thr t).pool with
    | none => (some 0, s1)
    | some k =>
      let r := s1.tryGrant t k
      if r.2 then (some (wd (r.1.thr t).takeRes), r.1)
      else (none, r.1.leaveCore core t { r.1.thr t with st := .taking })

/-- WORK_TAKE: R413, R414. -/
def execWorkTake (core : Nat) (s : State) : Out :=
  match s.workTake core with
  | (some w, s1) => s.out (s1.emit (.readValue (.core core) w))
  | (none, s1) => s.out s1

/-- TAKE_GRANTED: R413. The read that the thread waits in returns the grant when the thread next runs. -/
def execTakeGranted (t : Nat) (s : State) : Out :=
  let x := s.thr t
  match x.st, x.pool with
  | .taking, some k =>
    let r := s.tryGrant t k
    if r.2 then s.out ((r.1.setThr t { r.1.thr t with st := .ready }).joinReady t false) else s.out r.1
  | _, _ => s.out s

/-- THREAD_YIELD: R407. -/
def execThreadYield (core : Nat) (s : State) : Out :=
  match s.running core with
  | none => s.out s
  | some t => s.out ((s.leaveCore core t { s.thr t with st := .ready }).joinReady t false)

/-- THREAD_DONE: R414. -/
def execThreadDone (core : Nat) (s : State) : Out :=
  match s.running core with
  | none => s.out s
  | some t => s.out (s.threadDrop t)

/-- THREAD_EXIT: R416. -/
def execThreadExit (core : Nat) (s : State) : Out :=
  match s.running core with
  | none => s.out s
  | some t => s.out (((s.threadDrop t).leaveCore core t {}).raise 385)

/-- SET_PRIORITY: R422. The change acts at once; ignored for a class-0 thread. When a ready thread of the core now has
a strictly higher priority, the thread moves to the tail of its new list (DEDUCED, log entry 17). -/
def execSetPriority (core prio : Nat) (s : State) : Out :=
  match s.running core with
  | none => s.out s
  | some t =>
    if (s.c0Index t).isSome then s.out s
    else
      let s1 := s.setThr t { s.thr t with prio := prio % 64 }
      match s1.candidate core with
      | none => s.out s1
      | some r =>
        if (s1.thr r).prio < prio % 64 then
          s.out ((s1.leaveCore core t { s1.thr t with st := .ready }).joinReady t false)
        else s.out s1

/-- Whether an issuer may create threads (R416): the privilege map for windows, the access map for Oarsmen. -/
def State.mayCreate (s : State) (i : Iface) : Bool :=
  match i with
  | .oarsman n => granted (smGet {} s.man.oar n).access fryCreate false
  | .sealCore => true
  | i => (smGet {} s.man.priv i.window).create

/-- A read of FRY_CREATE (R416): the word read. A class-0 thread has priority 0 and no pool (R417). When several refusals apply the order is permission, affinity, pool,
context (DESIGN CHOICE, log entry 18). -/
def State.createThread (s : State) (i : Iface) : Word × State :=
  let aff := s.getOf i fryNewCfg_AFFINITY
  let pool := s.getOf i fryNewCfg_POOL
  let inPool := s.getOf i fryNewCfg_POOL_EN != 0
  let free := (List.range 1024).find? fun t => (s.thr t).st == .free
  let res := if !s.mayCreate i then 0x04 else if aff = 0 then 0x02
    else if inPool && (smGet [] s.man.pools pool).isEmpty then 0x03 else if free.isNone then 0x01 else 0x00
  match res, free with
  | 0, some t =>
    let c0 := (s.c0Index t).isSome
    let x : Thread := { st := .ready, prio := if c0 then 0 else s.getOf i fryNewCfg_PRIO, affinity := aff,
                        pool := if inPool && !c0 then some pool else none,
                        pc := s.getOf i fryNewPc_PC * 4, x := smPut 0 [] 10 (BitVec.ofNat 64 (s.getOf i fryNewArg_ARG)) }
    (wd (2 ^ 31 + t), (s.setThr t x).joinReady t false)
  | r, _ => (wd (r * 2 ^ 16), s.raise 384)

/-- THREAD_CREATE: R406, R416. -/
def execThreadCreate (i : Iface) (s : State) : Out :=
  s.out (s.readGate i fryCreate fun s => s.createThread i)

/-- A read of FRY_C0_STAT_i sets MAX to 0 (R419). -/
def State.c0StatRead (s : State) (k : Nat) : Word × State := (s.reg (fryC0Stat k), s.set (fryC0Stat_MAX k) 0)

/-- C0_STAT_READ: R419. -/
def execC0StatRead (i : Iface) (k : Nat) (s : State) : Out :=
  s.out (s.readGate i (fryC0Stat k) fun s => s.c0StatRead k)

/-- FLOWWAIT and COALESCED to 0 (FRY_CNT.CLR). -/
def State.clrFryCnt (s : State) : State := (s.set fryCnt_FLOWWAIT 0).set fryCnt_COALESCED 0

/-- FRY_CNT_CLEAR: 16_ferryman.md, R411. -/
def execFryCntClear (i : Iface) (s : State) : Out := s.out (s.writeGate i fryCnt clrWord State.clrFryCnt)

end Sys2Proof.Machine
end

