-- ==== Sys2Proof/Machine/PanOps.lean ====
section
/-!
DEFINITION. The site panel as shared operations (14_prepayment_panel.md: R377 to R388).
-/
namespace Sys2Proof.Machine

/-- Whether the panel is an LCD (PAN_CFG.MODE 0). -/
def State.lcd (s : State) : Bool := !s.flag panCfg_MODE

/-- Pixels that the mode drives: 8 × 64 or 16 × 64 (R379, R381). -/
def State.pixels (s : State) : Nat := if s.lcd then 512 else 1024

/-- The pages a frame shows: those that stood when HOLD was set, else the present ones (R382). -/
def State.pages (s : State) : SMap Nat × SMap Nat := s.pan.held.getD (s.pan.opn, s.pan.sld)

/-- The target level of a pixel: the sealed page where the legal mask is set (R382). -/
def State.targetOf (s : State) (pg : SMap Nat × SMap Nat) (p : Nat) : Nat :=
  if p ∈ s.man.legalMask then smGet 0 pg.2 p else smGet 0 pg.1 p

/-- T_b[P][N] (R383). -/
def State.odLevel (s : State) (b p n : Nat) : Nat := bitsOf (s.reg (panOd b p (n / 8))) (4 * (n % 8) + 3) (4 * (n % 8))

/-- What drives the display (PAN_CFG, PAN_BAND_b): in LCD mode VLCD of a band in mV, in LED mode the column current in 0.5 mA. -/
def State.panelSupply (s : State) (band : Nat) : Nat :=
  if s.lcd then 2400 + 30 * min 30 (s.get (panBand_VLCD band)) else max 1 (min 48 (s.get panCfg_LED_CUR))

/-- A pixel in a frame (R383), from what it was before: `shown` is the level driven. A change takes the level then driven as P. -/
def State.framePixel (s : State) (band : Nat) (pg : SMap Nat × SMap Nat) (p : Nat) : Pixel :=
  let x := smGet {} s.pan.drive p
  let t := s.targetOf pg p
  let y : Pixel := if t = x.target then x
    else { target := t, prev := x.shown, od := if s.lcd then s.get (panBand_OD_FRAMES band) else 0 }
  if 0 < y.od then { y with od := y.od - 1, shown := s.odLevel band y.prev y.target } else { y with shown := y.target }

/-- One step between temperature bands (R384). -/
def bandStep (t : Int) (th : Nat → Int) (b : Nat) : Nat :=
  if b < 3 ∧ th (b + 1) ≤ t then b + 1 else if 0 < b ∧ t < th b - 2 then b - 1 else b

/-- The band at a temperature (R384). -/
def State.bandFor (s : State) (t : Int) : Nat :=
  let th := fun (k : Nat) => toSigned 8 (if k = 1 then s.get panTband_T1 else if k = 2 then s.get panTband_T2 else s.get panTband_T3)
  bandStep t th (bandStep t th (bandStep t th s.pan.band))

/-- The temperature in use, and the band of the next frame (R384); nothing is known before the sensor's first reading. -/
def State.panTemp (s : State) : State :=
  match (if s.flag panCfg_TEMP_SRC then some (s.get panTband_TEMP) else s.pan.sensor) with
  | none => s
  | some u =>
    let s1 := s.set panStat_TEMP u
    { s1 with pan := { s1.pan with band := s1.bandFor (toSigned 8 u) } }

/-- A frame is drawn (R380 to R384): drive begins or goes on, a band change takes effect with event 309. Writes to the panel's settings
take effect here (R388). -/
def State.drawFrame (s : State) : State :=
  let s0 := s.panTemp
  let s1 := ((s0.set panStat_BAND s0.pan.band).set panStat_DRIVE 1).raiseIf (decide (s0.get panStat_BAND ≠ s0.pan.band)) 309
  let r := (List.range s.pixels).map fun p => (p, s1.framePixel s1.pan.band s1.pages p)
  let s2 : State := { s1 with pan := { s1.pan with drive := r.foldl (fun m q => smPut {} m q.1 q.2) s1.pan.drive } }
  (s2.emit (.panelDrive (s2.get panStat_FRAMES) (s2.panelSupply s2.pan.band) (r.map fun q => q.2.shown))).wrapUp panStat_FRAMES 1

/-- The drive of every pixel after a ride-through (R385): counts 0, the previous level the target. -/
def State.panelRide (s : State) : State :=
  let d := (List.range s.pixels).foldl (fun m p =>
    smPut {} m p { target := s.targetOf s.pages p, prev := s.targetOf s.pages p, shown := s.targetOf s.pages p }) ([] : SMap Pixel)
  State.setReg { s with pan := { s.pan with drive := d, stopped := false } } kpStat 0

/-- The discharge at a power warning (R385): LCD pins at 0 V for two frames, LED currents off at once; event 313. The keypad
stops (R378). -/
def State.panelWarn (s : State) : State :=
  let s1 : State := { s with pan := { s.pan with stopped := true
                                                 discharge := if s.lcd && s.flag panStat_DRIVE then some 2 else none } }
  let s2 := if s1.lcd then s1 else s1.set panStat_DRIVE 0
  State.raise (s2.emit (.panelDrive (s2.get panStat_FRAMES) 0 (List.replicate s2.pixels 0))) 313

/-- The legal items painted (R386): the spec gives no glyphs, so each level of the sealed page is a free value (log entry 2);
LEGAL_READY, event 308. -/
def State.legalPaint (s : State) : State :=
  let s1 := s.man.legalMask.foldl (fun (st : State) p =>
    let r := st.draw 4
    { r.2 with pan := { r.2.pan with sld := smPut 0 r.2.pan.sld p r.1 } }) s
  (s1.set panStat_LEGAL_READY 1).raise 308

/-- PAN_FB_ADDR written: HOLD taking effect keeps the pages as they stand, its end lets them go (R382). -/
def State.fbAddr (s : State) : State :=
  if s.flag panFbAddr_HOLD then
    (if s.pan.held.isSome then s else { s with pan := { s.pan with held := some (s.pan.opn, s.pan.sld) } })
  else { s with pan := { s.pan with held := none } }

/-- WORD advances by 1, wrapping. -/
def State.fbNext (s : State) : State := s.set panFbAddr_WORD ((s.get panFbAddr_WORD + 1) % 128)

/-- Whether a word of frame memory is there: in LCD mode words 64 to 127 are not. -/
def State.fbThere (s : State) (w : Nat) : Bool := !s.lcd || decide (w < 64)

/-- PAN_FB_DATA written (R382): eight levels of the open page but for masked pixels; event 314. -/
def State.fbWrite (s : State) (v : Word) : State :=
  let w := s.get panFbAddr_WORD
  if !s.fbThere w then s.fbNext
  else
    let ps := (List.range 8).map fun k => (8 * w + k, bitsOf v (31 - 4 * k) (28 - 4 * k))
    let o := ps.foldl (fun m p => if p.1 ∈ s.man.legalMask then m else smPut 0 m p.1 p.2) s.pan.opn
    (State.raiseIf { s with pan := { s.pan with opn := o } } (ps.any fun p => decide (p.1 ∈ s.man.legalMask)) 314).fbNext

/-- PAN_FB_DATA read: eight levels of the open page. -/
def State.fbRead (s : State) : Word × State :=
  let w := s.get panFbAddr_WORD
  let v := (List.range 8).foldl (fun a k => a * 16 + smGet 0 s.pan.opn (8 * w + k)) 0
  (if s.fbThere w then BitVec.ofNat 32 v else 0, s.fbNext)

/-- A key's state changes (R377, R378): a release, or a press while at most two keys are down, yields a key item; event 312. -/
def State.keyChange (s : State) (k : Nat) (down : Bool) : State :=
  let old := s.get kpStat_DOWN
  if natBit old k = down then s
  else
    let now := if down then old + 2 ^ k else old - 2 ^ k
    let s1 := s.set kpStat_DOWN now
    let n := ((List.range 16).filter fun i => natBit now i).length
    if down ∧ 2 < n then s1
    else match s1.man.roles.keypad with
      | 0 => s1
      | q + 1 => State.raise (s1.produce (.oarsmanBlock 14) q
          (mkItem 0 (s1.stamp 8) (be 1 k ++ be 1 (128 * ofBool down) ++ be 2 0 ++ be 4 s1.xing.num))) 312

end Sys2Proof.Machine
end

