-- ==== Sys2Proof/Machine/PinOps.lean ====
section
/-!
DEFINITION. How the pins stand (22_power_reset.md R526; R122, R173, R174, R196) and in which slew class they drive (24_pins_electrical.md
R553).
-/
namespace Sys2Proof.Machine

/-- How far the device is for its pins (Pin states table): 0 unpowered, 1 in reset, 2 from reset release until the PINS section applies,
3 after that. -/
def State.pinStage (s : State) : Nat :=
  if s.pwr.off then 0 else if s.get pwrReset_CAUSE = 0 then 1 else if !s.pwr.verified then 2 else 3

/-- A level from the columns of the Pin states table: unpowered, in reset, until the PINS section applies, and after it. -/
def State.pinColumn (s : State) (off inReset before after : PinLevel) : PinLevel :=
  match s.pinStage with
  | 0 => off
  | 1 => inReset
  | 2 => before
  | _ => after

/-- How a pin stands (R526). The panel's stand so as R378, R379 and R385 say. The driver enable of a PLC path is high while it sends (R110); those of a radio port are the MAC's while it has
a frame to send, and high during each transmission (R174). Where the spec names a block's own control, the pin is driven. -/
def State.pinLevel (s : State) : Pin → PinLevel
  | .drven p => s.pinColumn .low .low .low (if (s.path p).job.isSome then .high else .low)
  | .paen r => s.pinColumn .low .low .low (if (s.port r).job.isSome then .driven else .low)
  | .txrx r => s.pinColumn .low .low .low (if (s.port r).job.isSome then .driven else .low)
  | .lnaen _ => s.pinColumn .low .low .low .driven
  | .txdac p => s.pinColumn .hiZ .hiZ .hiZ (if (s.path p).job.isSome then .driven else if s.driverOff p then .mid else .hiZ)
  | .rfCs _ => s.pinColumn .hiZ .high .high .driven
  | .rfLink _ => s.pinColumn .hiZ .hiZ .hiZ .driven
  | .ethTx _ => s.pinColumn .noSwing .idle .idle .driven
  | .pcieTx => s.pinColumn .noSwing .idle .idle .driven
  | .lp5 => s.pinColumn .hiZ .low .low (if s.pwr.trained then .driven else .low)
  | .nand _ => s.pinColumn .hiZ .select .select (if s.pwr.mounted then .driven else .select)
  | .xspi => s.pinColumn .hiZ .select .driven .driven
  | .panRow n => s.pinColumn .hiZ .hiZ .hiZ (if s.flag panStat_DRIVE && decide (n < if s.flag panCfg_MODE then 16 else 8) then .driven else .hiZ)
  | .panCol _ => s.pinColumn .hiZ .hiZ .hiZ (if s.flag panStat_DRIVE then .driven else .hiZ)
  | .kpRow => s.pinColumn .hiZ .hiZ .hiZ (if s.flag kpCfg_EN && !s.pan.stopped then .driven else .hiZ)
  | .kpCol => s.pinColumn .hiZ .pulled .pulled .pulled
  | .sealA => s.pinColumn (if s.aon.valid then .driven else .hiZ) .driven .driven .driven
  | .avs => s.pinColumn .hiZ .idle .idle (if s.pwr.trained then .driven else .idle)
  | .ebfTdo => s.pinColumn .hiZ .hiZ .hiZ .driven
  | .input => s.pinColumn .hiZ .input .input .input

/-- What the PINS section says of a pin, once it applies (R496, R526). -/
def State.pinCfg (s : State) (pin : Nat) : Option PinCfg :=
  if s.pinStage < 3 then none else s.man.pins.find? fun c => c.pin == pin

/-- The slew class in which an output or panel pin drives (R553): that of the PINS section once it applies, class 1 before, and of a pin
that the section does not name. -/
def State.slewClass (s : State) (pin : Nat) : Nat :=
  match s.pinCfg pin with
  | some c => c.slew % 4
  | none => 1

/-- The function and the pull that the PINS section gives a pin, once it applies (R496). -/
def State.pinFn (s : State) (pin : Nat) : Option (Nat × Nat) := (s.pinCfg pin).map fun c => (c.fn, c.pull)

/-- The driver enables that are high go low at a reset (R122, R173, R526). -/
def State.pinsDown (s : State) : State :=
  let s1 := ([0, 1, 2].filter fun p => (s.path p).job.isSome).foldl (fun (st : State) p => st.emit (.pin (.drven p) .low)) s
  ([0, 1].filter fun r => (s.port r).job.isSome).foldl State.radOff s1

end Sys2Proof.Machine
end

