-- ==== Sys2Proof/Machine/PowOps.lean ====
section
/-!
DEFINITION. Power as shared operations (22_power_reset.md): what each block does at a warning (R513), the flush's end (R462),
ride-through (R517), a reset and what it keeps (R356, R519, R525).
-/
namespace Sys2Proof.Machine

/-! ### Core voltage and clock -/

/-- The core clock of the profile in force: 0 400 MHz, 1 800 MHz, 2 1.2 GHz (Profiles table). -/
def State.profileClock (s : State) : Nat := min 2 (s.get sysProfileStat_ACTIVE)

/-- The floor of a core clock in mV (R511). -/
def avsFloor (c : Nat) : Nat := if c = 0 then 550 else if c = 1 then 650 else 720

/-- The VDD_CORE request changed, at once upward, one 5 mV step downward (R511). -/
def State.avsSet (s : State) (want : Nat) : State :=
  let cur := s.get pwrAvs_VCORE
  let v := if cur ≤ want then want else max want (cur - 5)
  if v = cur then s else (s.set pwrAvs_VCORE v).emit (.avsRequest v)

/-- The core clock in force. -/
def State.setClock (s : State) (c : Nat) : State :=
  if s.pwr.clock = c then s else State.emit { s with pwr := { s.pwr with clock := c } } (.coreClock c)

/-- The voltage that a core clock asks for: 800 mV while AVS does not run, else the need that the last update found, not below the
clock's floor (R511; 800 mV before the first update). -/
def State.clockVolts (s : State) (c : Nat) : Nat :=
  if s.pwr.trained = false ∨ s.flag pwrAvs_EN = false then 800 else min 800 (max (avsFloor c) (s.pwr.need.getD c 800))

/-- A change of the core clock (R37 step 1): the voltage first when the clock rises, the clock first when it falls. A clamp of R511
holds the clock down. -/
def State.changeClock (s : State) (c : Nat) : State :=
  let c1 := min c s.pwr.clamp
  if s.pwr.clock < c1 then (s.avsSet (s.clockVolts c1)).setClock c1 else (s.setClock c1).avsSet (s.clockVolts c1)

/-! ### The warning -/

/-- The detail of a test record that names no entry (R535): the window alone. -/
def testDetail0 (win : Nat) : List Byte := List.replicate 8 0 ++ be 1 win ++ be 1 0 ++ be 4 0

/-- The test block locks and disarms every entry (R529, R537), with a disarm cause. -/
def State.lockTest (s : State) (win cause : Nat) : State :=
  let s1 : State := { s with tst := { s.tst with first := none } }
  let s2 := if s1.flag tstStat_UNLOCKED then (s1.set tstStat_UNLOCKED 0).raiseLog 481 (testDetail0 win) else s1
  s2.disarmAll (fun _ => true) win cause

/-- A transmit path at the warning (R122): its frame completes with status 0x04, event 78. -/
def State.plcWarn (s : State) (p : Nat) : State :=
  match (s.path p).job with
  | none => s
  | some j =>
    let s1 := s.clearJob j
    (if j.rep then s1 else s1.plcCompletion (s.pathCell p) j.flow j.stamp 0x04 (s.jobSteps j)).raise 78

/-- A radio port at the warning (R196): its transmission ends with status 0x04. -/
def State.radWarn (s : State) (r : Nat) : State :=
  match (s.port r).job with
  | none => s
  | some j => ((s.radDone r).radOff r).radCompletion r j.flow j.stamp 0x04

/-- An OPEN group at the warning (R362, R434): aborted, marked, its waits end with 0x08. -/
def State.powerAbort (s : State) (g : Nat) : State :=
  let iss := (s.grp g).issuer
  let s1 := (s.abortGroup g).setGrp g { issuer := iss, power := true }
  let s2 := (s1.endGroupWaits g 0x08).bump cmtAborts_POWER 1
  { s2 with cmt := { s2.cmt with report := s2.cmt.report ++ [g] } }

/-- A PRESTAGED group at the warning (R362): abandoned, event 292. One whose intent is not yet durable goes the same way. -/
def State.powerAbandon (s : State) (g : Nat) : State := ((s.abortGroup g).setGrp g {}).raise 292


/-- Commit groups at the warning (R253, R362). -/
def State.cmtWarn (s : State) : State :=
  let opened := (s.cmt.groups.filter fun p => p.2.st = .opened ∧ p.2.intent = 0).map (·.1)
  let armed := (s.cmt.groups.filter fun p => p.2.st = .prestaged ∨ (p.2.st = .opened ∧ p.2.intent ≠ 0)).map (·.1)
  armed.foldl State.powerAbandon (opened.foldl State.powerAbort s)

/-- A Logbook clear whose group the warning ends (R477). -/
def State.clearWarn (s : State) : State :=
  if s.lgb.clearWaits then
    let s1 : State := { s with lgb := { s.lgb with clearBusy := false, clearWaits := false } }
    (s1.set lgbClrStat_BUSY 0).set lgbClrStat_RESULT 0x03
  else s

/-- What the Logbook keeps across a reset: the ring, with the buffered records of durable groups, which replay appends again (R356, R361);
FIRST, as it was before a clear that was not durable; the numbers go on after the last record kept (log entry 128). -/
def Logbook.kept (l : Logbook) (dur : Nat) : Logbook :=
  let ring := l.ring ++ l.buf.filter fun r => decide (r.jseq ≠ 0) && decide (r.jseq ≤ dur)
  let next := match ring.getLast? with
    | some r => r.num + 1
    | none => 0
  { ring := ring, first := l.firstWas.getD l.first, next := next }

/-- A running attestation ends with 0x05, event 465 (R491). -/
def State.attestWarn (s : State) : State :=
  if s.keys.attest.isSome then
    let s1 : State := { s with keys := { s.keys with attest := none } }
    ((s1.set keyAttStat_BUSY 0).set keyAttStat_RESULT 0x05).raise 465
  else s

/-- A running stage stops with 0x03 (R507). -/
def State.mftWarn (s : State) : State :=
  if s.mft.staging.isSome then
    let s1 : State := { s with mft := { s.mft with staging := none } }
    (s1.set mftCmdStat_BUSY 0).set mftCmdStat_RESULT 0x03
  else s

/-- Every block acts under its own warning rule (R513 step 3). -/
def State.blocksWarn (s : State) : State :=
  let s1 := s.lockTest 0 0x03
  let s2 := [0, 1, 2].foldl State.plcWarn s1
  let s3 := [0, 1].foldl State.radWarn { s2 with val := { s2.val with signing := s2.batchSignable } }
  let s4 := (s3.cmtWarn.clearWarn.attestWarn.mftWarn).panelWarn
  if s4.pwr.replayed then s4.bilWarn else s4

/-- The supply reading shown (PWR_VIN). -/
def State.showVin (s : State) (vin : Nat) : State :=
  (s.setSat pwrVin_NOW vin).setSat pwrVin_MIN (min (s.get pwrVin_MIN) vin)

/-- The flush starts (R462). -/
def State.flushBegin (s : State) : State :=
  let s1 : State := { s with hld := { s.hld with flushStart := s.clk.mono }, pwr := { s.pwr with flushed := false }
                             aon := { s.aon with flushDone := false } }
  ((s1.set pwrStat_FLUSHING 1).set hldStat_FLUSHING 1).abortErases

/-- The durable content at a reset: discards whose map records were not durable are undone, the newest first (R459). -/
def State.imgKept (s : State) : Image :=
  { s.img with bytes := s.hld.discards.reverse.foldl (fun (m : SMap Byte) d => d.undo m) s.img.bytes }

/-- What a reset keeps, and the cause it records (R356, R519, R525): fuses, the always-on domain with the clock and the crossing
count, the boot NOR, the Hold with the durable content, the seal. -/
def State.resetNow (s : State) (cause : Nat) : State :=
  let sealRegs := (State.reset.regs |> fun m => smPut 0 m metSealStat (s.reg metSealStat &&& 0x0000FF03#32))
  let a : AlwaysOn := { s.aon with
    cause := cause, rtc := s.clk.ptp, crossing := s.xing.num, since := s.clk.mono - s.xing.placed
    held := if s.xing.valid then s.period else 0, frac := s.fraction }
  { State.reset with
    pending := s.pending, free := s.free, sent := s.pinsDown.sent, fuses := s.fuses, regs := sealRegs, aon := a
    xing := { rtcValid := s.xing.rtcValid }
    cmt := { next := s.cmt.next, durJseq := s.cmt.durJseq, journal := s.cmt.journal.filter (·.durable) }
    hld := { s.hld with op := none, flushStart := 0, mapPending := 0, discards := s.hld.discards.filter (·.durable) }
    lgb := s.lgb.kept s.cmt.durJseq
    live := s.imgKept, img := s.imgKept
    pwr := { heat := decide (cause = 0x08) }
    val := { bseq := s.val.bseq }
    bal := { ckRecs := s.ckSettle.bal.ckRecs, ckNodes := s.ckSettle.bal.ckNodes, ckQ := s.ckSettle.bal.ckQ }
    keys := { slots := s.keys.slots.filter fun p => decide (p.1 < 4) }
    mft := { a := s.mft.a, b := s.mft.b } }

/-- A reset, where the device is not in reset already (PWR_RESET.CAUSE stands from t0 + 2 ms on; log entry 58). -/
def State.doReset (s : State) (cause : Nat) : State := if s.get pwrReset_CAUSE = 0 then s else s.resetNow cause

/-- A power warning (R512, R513, R562): nothing while one stands. The cores run at 400 MHz; before the Hold is mounted nothing is flushed
(R523). -/
def State.powerWarn (s : State) (cause : Option Nat) (vin : Nat) : State :=
  if s.warned ∨ s.get pwrReset_CAUSE = 0 then s
  else
    let s1 : State := { s with pwr := { s.pwr with cause := cause, warnAt := s.clk.mono, warnXing := s.xing.num, flushed := true } }
    let s2 := (((s1.showVin vin).set pwrStat_WARN 1).raise 0).setClock 0
    let s3 := (s2.logRec 0x03 0x13 0 (be 2 vin)).blocksWarn
    if s3.pwr.mounted then s3.flushBegin
    else match cause with
    | some c => s3.doReset c
    | none => s3

/-! ### The flush's end -/


/-- The flush set is programmed (R462, R463): journal, map records, Logbook buffer, the flush-end record; event 439, and 440 for a set above
512 KiB a die or beyond 10 ms. -/
def State.flushEnd (s : State) : State :=
  let kib := divUp s.backlog 1024
  let ns := s.clk.mono - s.hld.flushStart
  let s0 := s.makeDurable (s.cmt.next - 1)
  let s1 := ({ s0 with hld := s0.hld.mapDurable } : State).flushGrow s.backlog (decide (s.hld.mapPending ≠ 0))
  let s2 := s1.lgbDrain s1.lgb.buf.length
  let s3 : State := { s2 with
    hld := { s2.hld with endPcycle := s2.aon.powerCycles, endOpsec := s2.aon.opSeconds, endJseq := s2.cmt.durJseq }
    pwr := { s2.pwr with flushed := true }
    aon := { s2.aon with flushDone := true } }
  let s4 := ((s3.set pwrStat_FLUSHING 0).set hldStat_FLUSHING 0).setSat hldFlush_TIME (ns / 1000)
  ((s4.setSat hldFlush_SIZE kib).raise 439).raiseIf (decide (10000000 < ns) || decide (512 * s.dies < kib)) 440

/-! ### Ride-through -/

/-- Log blocks that hold a partly programmed word line, three pages of a TLC block, are closed (R464); a merge of each begins as R449 lays
down. -/
def State.closeLogs (s : State) : State :=
  { s with hld := { s.hld with blocks := s.hld.blocks.map fun p =>
      match p.2.use with
      | .log _ => (p.1, { p.2 with closed := (s.poolOf p.1 == 0 && p.2.pages.length % 3 != 0) || p.2.closed })
      | _ => p } }

/-- A merge or move that ran at the warning is undone and starts again from its first page (R452): event 434. -/
def State.redoMerge (s : State) (m : Merge) : State :=
  let s1 : State := { (s.releaseBlk (some m.dst)) with
    hld := { (s.releaseBlk (some m.dst)).hld with merges := (s.releaseBlk (some m.dst)).hld.merges.filter fun k => k.lb ≠ m.lb } }
  let s2 := s1.raise 434
  if m.move then
    match s2.dataBlk m.lb with
    | some b => s2.startMove b (s2.takeFree (s2.lkeyPool m.lb)) false
    | none => s2
  else match m.logBlk with
    | some g => s2.startMerge m.lb g
    | none => s2

/-- Merges and moves undone (R452, R464). -/
def State.redoMerges (s : State) : State := s.hld.merges.foldl State.redoMerge s

/-- The Hold at ride-through (R464): placement and what else waited go on. -/
def State.holdRide (s : State) : State := s.closeLogs.redoMerges.mergeNext.nandRun

/-- A group status record on its issuer's completion queue (R363; the queue and the layout are log entry 59). -/
def State.reportGroup (s : State) (g : Nat) : State :=
  match roleQ s.man.roles.completion (5 + (s.grp g).issuer) with
  | some q => s.produce .sealedDom q (mkItem 0 (s.stamp 8) (be 1 g ++ be 1 0x08 ++ be 6 0))
  | none => s

/-- Groups aborted by power are reported (R363): event 291. -/
def State.reportGroups (s : State) : State :=
  let s1 := s.cmt.report.foldl State.reportGroup s
  State.raiseIf { s1 with cmt := { s1.cmt with report := [] } } (decide (s.cmt.report ≠ [])) 291

/-- A node result record with RFLAGS bit 4 set; another item as it is (R293, R294). -/
def rideItem (it : Item) : Item :=
  if beAt it.bytes 0 1 = 1 ∧ natBit (beAt it.bytes 1 1) 4 = false then
    { it with data := (dwords (patch it.bytes 1 (be 1 (beAt it.bytes 1 1 + 16)))).map fun w => { val := w } }
  else it

/-- Node results that wait for credit at ride-through are among the remaining ones (R294). -/
def State.rideResults (s : State) : State :=
  match s.man.roles.balanceOut with
  | 0 => s
  | q + 1 => s.setQ q { s.q q with waiters := (s.q q).waiters.map fun w =>
      if w.prod = .balance then { w with item := rideItem w.item } else w }

/-- An evaluation that the warning stopped goes on, its remaining results marked (R294); then those that wait. -/
def State.balRide (s : State) : State :=
  let s1 := s.rideResults
  (State.evalGo { s1 with bal := { s1.bal with run := s1.bal.run.map fun r => { r with ride := true } } }).evalDue s1.bal.due.length true

/-- Whether ride-through can be declared (R516): the flush has ended, no reset follows it, the junction is below 125 °C. -/
def State.mayRide (s : State) : Bool :=
  s.warned && s.pwr.flushed && s.pwr.cause.isNone && !s.pwr.porst && decide (toSigned 8 (s.get pwrTemp_TJ) < 125)

/-- Ride-through (R30, R517). -/
def State.rideThrough (s : State) : State :=
  let w := s.pwr.warnXing
  let s0 := State.setClock { (s.set pwrStat_WARN 0) with aon := { s.aon with flushDone := false } } (min s.profileClock s.pwr.clamp)
  let s1 := if s0.pwr.mounted then s0.holdRide else s0
  let s2 := if s1.pwr.replayed then s1.reportGroups.bilRide else s1.reportGroups
  let s3 := if s2.pwr.replayed then s2.panelRide.balRide.retryRecs else s2.panelRide
  let x := be 6 w ++ be 6 s3.xing.num
  (((s3.logRec 0x07 0x13 0 x).logRec 0x04 0x13 0 x).bump pwrStat_RIDES 1).raise 1

end Sys2Proof.Machine
end

