-- ==== Sys2Proof/Machine/XingOps.lean ====
section
/-!
DEFINITION. The crossing counter as shared operations (02_crossing_time.md: R44 to R57), and what a crossing brings with it:
metrology, superframe boundaries, anchors of a hub, snapshot crossings.
-/
namespace Sys2Proof.Machine

/-! ### Periods and numbers -/

/-- Whether a period lies in the valid range (R48): 45 to 55 Hz, or 54 to 66 Hz. -/
def State.periodOk (s : State) (p : Nat) : Bool :=
  if s.is60 then decide (nsPerSec ≤ 66 * p) && decide (54 * p ≤ nsPerSec)
  else decide (nsPerSec ≤ 55 * p) && decide (45 * p ≤ nsPerSec)

/-- A valid L1 period (R48): FREQ_OOR clears, XING_PERIOD shows the mean of the last 8. -/
def State.goodPeriod (s : State) (p : Nat) : State :=
  let l := (p :: s.xing.periods).take 8
  let s1 : State := { s with xing := { s.xing with periods := l } }
  (s1.set xingStatus_FREQ_OOR 0).setReg xingPeriod (BitVec.ofNat 32 (l.sum / l.length))

/-- An L1 period outside the valid range (R48). -/
def State.badPeriod (s : State) : State := (s.set xingStatus_FREQ_OOR 1).raise 25

/-- The anchor in use (R54): at most 512 crossings old, of a cell that checks anchors. At a crossing's check the age does not
yet count that crossing (DESIGN CHOICE, log entry 111). -/
def State.anchorNow (s : State) : Option Anchor :=
  if s.flag xingConfig_ANCHOR_EN ∧ s.xing.anchorAge ≤ 512 then s.xing.anchor else none

/-- anchor_check (R54): derived number and residual. -/
def anchorCheck (a : Anchor) (t : Nat) (phi : Int) : Nat × Int :=
  let pos := Int.tdiv (((t : Int) - (a.ptp : Int)) * (a.freq : Int)) ((nsPerSec : Nat) : Int) - phi
  let k := Int.fdiv (pos + 32768) 65536
  (((a.crossing : Int) + k).toNat, pos - k * 65536)

/-- Whether the offset is learned. -/
def State.learned (s : State) : Bool := s.flag xingStatus_OFFSET_LEARNED

/-- phi: the learned offset, 0 while it is being learned (R55). -/
def State.phi (s : State) : Int := if s.learned then toSigned 16 (s.get xingCellOfs_OFFSET) else 0

/-- ANCHOR_LOCK (R56). -/
def State.showLock (s : State) : State := s.set xingStatus_ANCHOR_LOCK (ofBool (s.learned && s.anchorNow.isSome))

/-- The offset is learned again (R52, R56). -/
def State.relearn (s : State) : State :=
  let s1 : State := { s with xing := { s.xing with residuals := [], disagree := 0, far := 0 } }
  ((s1.set xingStatus_OFFSET_LEARNED 0).set xingCellOfs_ANCHORS 0).showLock

/-- What a cell announced and has not sent yet tells of a renumbering too (R164). -/
def State.refreshOwn (s : State) (c : Nat) : State :=
  match (s.cell c).beaconAt with
  | some x => if c < 3 then s.refreshBeacon c x else s.refreshTime (c - 3) x
  | none => s

/-- A renumbering (R52 cases 1 and 2): XING_RENUM, RENUMBER, event 20, a Logbook record. -/
def State.noteRenum (s : State) (c d : Nat) : State :=
  let step := clampInt (-(2 ^ 31)) (2 ^ 31 - 1) ((d : Int) - ((c + 1 : Nat) : Int))
  let s1 := (s.setReg xingRenum (BitVec.ofNat 32 (ofSigned 32 step))).set xingStatus_RENUMBER 1
  let s2 := s1.raiseLog 20 (be 6 (c + 1) ++ be 6 d)
  s2.ownCells.foldl (fun (st : State) k => (st.setCell k { st.cell k with renum := true }).refreshOwn k) s2

/-- A derived number against the count c (R52): the number of this real crossing. A hold that begins at it is in `hold`. -/
def State.applyNum (s : State) (c d : Nat) : State × Nat :=
  if d = c + 1 then (s, d)
  else if c + 1 < d then
    let s1 := s.noteRenum c d
    ({ s1 with xing := { s1.xing with skipFrom := c + 1, skipTo := d } }, d)
  else if c + 1 - d ≤ 256 then
    let s1 := s.noteRenum c d
    ({ s1 with xing := { s1.xing with hold := c + 1 - d } }, c)
  else
    let s1 := s.set xingStatus_ANCHOR_FAULT 1
    (if s.learned then (s1.raiseLog 22 (be 6 d ++ be 6 (c + 1))).relearn else s1, c + 1)

/-- The offset from 16 residuals (R55): mean of the 8th and 9th in ascending order, truncated. -/
def medianOf (l : List Int) : Int :=
  let m := sortBy (fun (a b : Int) => decide (a < b)) l
  Int.tdiv (m.getD 7 0 + m.getD 8 0) 2

/-- The offset is learned after 16 checks (R55): event 23. -/
def State.learnDone (s : State) : State :=
  if s.xing.residuals.length < 16 then s
  else
    let s1 := (s.set xingCellOfs_OFFSET (ofSigned 16 (medianOf s.xing.residuals))).set xingStatus_OFFSET_LEARNED 1
    let s2 : State := { s1 with xing := { s1.xing with residuals := [], disagree := 0, far := 0 } }
    s2.showLock.raise 23

/-- Residuals beyond 8,192 on 16 consecutive checks (R56): event 22 and learning again. -/
def State.anchorFault (s : State) : State := ((s.set xingStatus_ANCHOR_FAULT 1).raise 22).relearn

/-- A check while the offset is being learned (R55): one per anchor; at the first the counter takes d, and so does the first real
crossing after coasting (R51). -/
def State.checkLearning (s : State) (c d : Nat) (r : Int) (fresh ret : Bool) : State × Nat :=
  let s1 : State := if fresh then State.bump { s with xing := { s.xing with residuals := s.xing.residuals ++ [r] } } xingCellOfs_ANCHORS 1
                    else s
  let take := ret || (fresh && decide (s1.xing.residuals.length = 1))
  let x := if take then s1.applyNum c d else (s1, c + 1)
  (if fresh then x.1.learnDone else x.1, x.2)

/-- The tracking step of the first check after an anchor (R56). -/
def State.track (s : State) (r : Int) : State :=
  let s1 := s.bump xingCellOfs_ANCHORS 1
  if r.natAbs ≤ 2048 then s1.set xingCellOfs_OFFSET (ofSigned 16 (s.phi + Int.tdiv r 16)) else s1

/-- A check once the offset is learned (R56, R51): every check counts, or ends, the run of residuals beyond 8,192. -/
def State.checkLearned (s : State) (c d : Nat) (r : Int) (fresh ret : Bool) : State × Nat :=
  let s1 := if fresh then s.track r else s
  if ret then
    let far := if r.natAbs ≤ 8192 then 0 else s1.xing.far + 1
    let x := State.applyNum { s1 with xing := { s1.xing with disagree := 0, far := far } } c d
    (if far = 16 then x.1.anchorFault else x.1, x.2)
  else if r.natAbs ≤ 8192 then
    let n := if d = c + 1 then 0 else s1.xing.disagree + 1
    let s2 : State := { s1 with xing := { s1.xing with far := 0, disagree := if n = 3 then 0 else n } }
    if n = 3 then s2.applyNum c d else (s2, c + 1)
  else
    let s2 : State := { s1 with xing := { s1.xing with disagree := 0, far := s1.xing.far + 1 } }
    (if s2.xing.far = 16 then s2.anchorFault else s2, c + 1)

/-- The number of a real crossing (R51, R52, R54 to R56). No check is made at a held crossing (DEDUCED, log entry 54). -/
def State.nextNumber (s : State) (ret : Bool) : State × Nat :=
  let c := s.xing.num
  if 1 < s.xing.hold then ({ s with xing := { s.xing with hold := s.xing.hold - 1 } }, c)
  else
    let s1 : State := { s with xing := { s.xing with hold := 0 } }
    match s1.anchorNow with
    | none => (s1, c + 1)
    | some a =>
      let k := anchorCheck a s1.clk.ptp s1.phi
      let fresh := s1.xing.anchorFresh
      let s2 : State := { s1 with xing := { s1.xing with anchorFresh := false } }
      if s2.learned then s2.checkLearned c k.1 k.2 fresh ret else s2.checkLearning c k.1 k.2 fresh ret

/-- Whether the clock trust is LOST (R46, R68): as evaluated, and before the start-up evaluation where the RTC is invalid. -/
def State.clockLost (s : State) : Bool := if s.xing.trustOk then s.trust == 3 else !s.xing.rtcValid

/-- The first crossing number of a chip without a valid count (R46, R55). -/
def State.firstNumber (s : State) : State × Nat :=
  match s.anchorNow with
  | some a =>
    let k := anchorCheck a s.clk.ptp s.phi
    let s1 : State := { s with xing := { s.xing with anchorFresh := false
                                                     residuals := s.xing.residuals ++ (if s.xing.anchorFresh then [k.2] else []) } }
    (if s.xing.anchorFresh then s1.bump xingCellOfs_ANCHORS 1 else s1, k.1)
  | none => (s, if s.clockLost then 0 else (s.clk.ptp * (if s.is60 then 60 else 50) + nsPerSec / 2) / nsPerSec)

/-! ### L2 and L3 -/

/-- Distance of two phase offsets around the cycle. -/
def circDist (a b : Nat) : Nat := min ((a + 65536 - b % 65536) % 65536) ((b + 65536 - a % 65536) % 65536)

/-- The mean of the last offsets of a phase. -/
def PhaseTrack.mean (p : PhaseTrack) : Nat := if p.offs = [] then 0 else p.offs.sum / p.offs.length

/-- One L1 crossing in the tracking of a phase (R49): MAINS after it, and the track. -/
def PhaseTrack.tick (p : PhaseTrack) (on : Bool) : PhaseTrack × Bool :=
  if p.came then
    let q := { p with came := false, missing := 0, present := p.present + 1 }
    (q, on || decide (4 ≤ q.present))
  else
    let q := { p with missing := p.missing + 1, present := 0 }
    if 16 ≤ q.missing then ({ q with offs := [], out := 0 }, false) else (q, on)

/-- The consecutive crossings out of range of a judged phase. -/
def PhaseTrack.judge (p : PhaseTrack) (on : Bool) (nominal : Nat) : PhaseTrack :=
  { p with out := if on && decide (2731 < circDist p.mean nominal) then p.out + 1 else 0 }

/-- The judgement of L2 and L3 at an L1 crossing (R49): MAINS bits, means, PHASE_OOR, ROT_REVERSED, event 24. -/
def State.judgePhases (s : State) : State :=
  let a := s.xing.l2.tick (s.flag xingStatus_MAINS_L2)
  let b := s.xing.l3.tick (s.flag xingStatus_MAINS_L3)
  let p2 := a.1.judge a.2 21845
  let p3 := b.1.judge b.2 43691
  let out := decide (0 < p2.out) || decide (0 < p3.out)
  let calm := if out then 0 else s.xing.inRange + 1
  let s1 : State := { s with xing := { s.xing with l2 := p2, l3 := p3, inRange := calm } }
  let s2 := (s1.set xingStatus_MAINS_L2 (ofBool a.2)).set xingStatus_MAINS_L3 (ofBool b.2)
  let s3 := if a.2 then s2.set xingPhaseOfs_L2 p2.mean else s2
  let s4 := if b.2 then s3.set xingPhaseOfs_L3 p3.mean else s3
  let oor := decide (16 ≤ p2.out) || decide (16 ≤ p3.out)
  let rev := oor && a.2 && b.2 && decide (circDist p2.mean 43691 ≤ 2731) && decide (circDist p3.mean 21845 ≤ 2731)
  let new := (oor && !s4.flag xingStatus_PHASE_OOR) || (rev && !s4.flag xingStatus_ROT_REVERSED)
  let s5 := if 16 ≤ calm then (s4.set xingStatus_PHASE_OOR 0).set xingStatus_ROT_REVERSED 0
            else (if oor then s4.set xingStatus_PHASE_OOR 1 else s4)
  (if rev then s5.set xingStatus_ROT_REVERSED 1 else s5).raiseIf new 24

/-- A rising crossing of L2 or L3 in one track. -/
def PhaseTrack.edge (p : PhaseTrack) (off : Nat) : PhaseTrack := { p with came := true, offs := (off :: p.offs).take 8 }

/-! ### What a crossing brings -/

/-- The peers that a hub sends to: attached chips. -/
def State.attached (s : State) : List Nat := ((s.gwy.peers.filter fun p => p.2.up && p.1 != 0xFFFF).map (·.1))

/-- The anchors of a hub (R53, R219) at crossing numbers that are multiples of 256: launch at T_a + ANCHOR_DLY ms. The launch
fields take the compensation of the port that reaches the peer. The mean frequency is that of the crossings there have been where they
are fewer than 256, and that of XING_PERIOD at the first (DESIGN CHOICE, log entry 130). -/
def State.publishAnchors (s : State) : State :=
  if !s.isHub || s.xing.num % 256 != 0 then s
  else
    let t := s.clk.ptp
    let l := t + s.get gwyCfg_ANCHOR_DLY * 1000000
    let lf := fun p => shiftNs l (compNs (s.get (xingTxcomp_DELAY (s.peerPlace p).port)))
    let span := s.xing.instants.headD 0 - s.xing.instants.getLastD 0
    let f := if span = 0 then s.freq16 else (s.xing.instants.length - 1) * 65536 * nsPerSec / span
    s.attached.foldl (fun (st : State) p =>
      st.gwyUnreliable p 3 (launchPtp l) (be 6 s.xing.num ++ be 6 (t / nsPerSec) ++ be 4 (t % nsPerSec) ++ be 4 f
        ++ be 1 (st.peer p).domain ++ be 1 0 ++ be 6 (lf p / nsPerSec) ++ be 4 (lf p % nsPerSec))) s

/-- SNAPSHOT from a hub to every attached chip of its grid domain, for which it fixes N (R220). -/
def State.sendSnapshots (s : State) (b n : Nat) : State :=
  if !s.isHub then s
  else
    let dom := s.get xingConfig_GRID_DOMAIN
    (s.attached.filter fun p => (s.peer p).domain == dom).foldl (fun (st : State) p =>
      st.gwyReliable p 4 (be 6 b ++ be 6 n ++ be 1 dom ++ be 1 0) none) s

/-- Whether the cell waits for its hub's N (R57, R160). -/
def State.underSnap (s : State) : Bool := s.underHub && s.flag xingConfig_ANCHOR_EN

/-- The fixing of N for the next quarter-hour boundary (R159, R160): within 100 crossings, or locally at N' − 96 under a hub. A
boundary is fixed once. -/
def State.snapFix (s : State) : State :=
  let b := (s.utcSec / 900 + 1) * 900
  if s.plc.snaps.any fun p => p.2 == b then s
  else
    let n := s.computedN s.xing.num s.utcNs b
    if s.underSnap then (if n ≤ s.xing.num + 96 then s.fixSnap n b true else s)
    else if n ≤ s.xing.num + 100 then (s.fixSnap n b false).sendSnapshots b n
    else s

/-- Crossing N has come (R159): event 80 + 16c + 3; nothing is announced any more. -/
def State.snapReached (s : State) (prev : Nat) : State :=
  if prev < s.plc.snapN ∧ s.plc.snapN ≤ s.xing.num then
    s.plcCells.foldl (fun (st : State) c => (st.showSnap false c).raise (80 + 16 * c + 3)) s
  else s

/-- The suspension of new exchanges above 101 % of nominal frequency (R132). -/
def State.exchangeSuspension (s : State) : State :=
  let high := decide (s.period * 101 * (if s.is60 then 60 else 50) < 100 * nsPerSec)
  s.plcCells.foldl (fun (st : State) c =>
    if (st.cell c).suspended = high then st
    else (st.setCell c { st.cell c with suspended := high }).raise (80 + 16 * c + 13)) s

/-- Whether the cells run: after the journal's replay, outside rescue, storage failure and a power warning (R122, R505, R524). -/
def State.cellsRun (s : State) : Bool :=
  s.pwr.replayed && !s.flag mftStat_RESCUE && !s.flag pwrStat_STORAGE_FAIL && !s.warned

/-- What the cells' schedulers do at a crossing (R128, R138, R170, R197): the frames whose slots come next, beacons and TIME; at a
superframe boundary PLC_CELL_CFG takes effect. -/
def State.cellsStep (s : State) : State :=
  let s0 := if s.xing.num % 32 = 0 then
      s.plcCells.foldl (fun (st : State) c => st.setCell c { st.cell c with cfg := st.reg (plcCellCfg c) }) s
    else s
  if !s0.cellsRun then s0
  else
    let s1 := s0.plcCells.foldl (fun (st : State) c => (st.beaconStep c).releaseFrames c) s0
    [0, 1].foldl (fun (st : State) r => if st.flag (radCfg_EN r) then st.timeStep r else st) s1

/-- A superframe boundary (R36, R128): event 17. -/
def State.superframe (s : State) : State := (s.raiseIf (s.xing.num % 32 == 0) 17).cellsStep

/-- What every counted or coasted crossing brings, its number standing in the count: metrology (R76), the anchor's age (R54),
event 16, anchors, clock trust (R70), exchange suspension, snapshots, the superframe, the start of a backstep span (R341). -/
def State.crossingWork (s : State) (prev dur : Nat) (raw : List (List Int)) : State :=
  let s1 := s.metCrossing dur raw
  let s2 : State := { s1 with xing := { s1.xing with anchorAge := s1.xing.anchorAge + 1
                                                     instants := (s1.xing.placed :: s1.xing.instants).take 257 } }
  (((((((s2.showLock.raise 16).backStart.trustEval).exchangeSuspension).snapReached prev).snapFix).publishAnchors).superframe)

/-- A real crossing takes effect with its number (R44, R48, R52): held crossings are not counted. -/
def State.countCrossing (s : State) (n dur : Nat) (raw : List (List Int)) : State :=
  let prev := s.xing.num
  let s1 : State := { s with xing := { s.xing with num := n, placed := s.clk.mono, lastEdge := some s.clk.mono, valid := true
                                                   goodRun := 0, floor := 0 } }
  let s2 := s1.judgePhases
  if s2.xing.hold > 0 then (s2.metCrossing dur raw).exchangeSuspension else s2.crossingWork prev dur raw

end Sys2Proof.Machine
end

