-- ==== Sys2Proof/Machine/Crossing.lean ====
section
/-!
DEFINITION. The commands of the crossing-time block (02_crossing_time.md), the snapshot latch (R81) and the profiles
(01_architecture.md: R34 to R40).
-/
namespace Sys2Proof.Machine

/-- A real crossing in step with the count (R48). For the agreement test of R69 a held crossing counts too, as a mains cycle that has
passed (DESIGN CHOICE, log entry 112). -/
def State.realCrossing (s : State) (p : Nat) (raw : List (List Int)) : State :=
  let s1 := s.goodPeriod p
  let r := s1.nextNumber false
  let dur := s.clk.mono - s.xing.placed
  let s2 : State := { r.1 with aon := { r.1.aon with counted := r.1.aon.counted + 1 } }
  s2.countCrossing r.2 dur raw

/-- Mains has returned (R51): the crossing that completes the fourth valid period is the first real one; event 19. -/
def State.mainsReturn (s : State) (p : Nat) (raw : List (List Int)) : State :=
  let s0 := s.goodPeriod p
  let s1 := ((s0.set xingStatus_COASTING 0).set xingStatus_MAINS_L1 1).raise 19
  let dur := if s.xing.valid then s.clk.mono - s.xing.placed else p
  let r := if s.xing.valid then s1.nextNumber true else s1.firstNumber
  let s2 : State := { r.1 with xing := { r.1.xing with held := 0 }
                               aon := { r.1.aon with coastNs := r.1.aon.coastNs + dur } }
  s2.countCrossing r.2 dur raw

/-- L1_CROSSING: R44 to R56, R36, R70, R76, R132, R159, R160, R314, R531 kind 0x9 code 0. -/
def execL1Crossing (raw : List (List Int)) (s : State) : Out :=
  if s.clockFault 0 then s.out s
  else match s.xing.lastEdge with
  | none => s.out { s with xing := { s.xing with lastEdge := some s.clk.mono } }
  | some e =>
    let p := s.clk.mono - e
    if !s.periodOk p then
      s.out (if s.coasting then State.badPeriod { s with xing := { s.xing with lastEdge := some s.clk.mono, goodRun := 0 } }
             else s.badPeriod)
    else if !s.coasting then s.out (s.realCrossing p raw)
    else if s.xing.goodRun < 3 then
      s.out (State.goodPeriod { s with xing := { s.xing with lastEdge := some s.clk.mono, goodRun := s.xing.goodRun + 1 } } p)
    else s.out (s.mainsReturn p raw)

/-- PHASE_CROSSING: R49; phase 1 is L2, phase 2 L3. While L1 coasts, the offset runs from the coasted crossing (log entry 111); before a
first number there is none, and it runs from L1's edge. -/
def execPhaseCrossing (p : Nat) (s : State) : Out :=
  if s.clockFault 0 then s.out s
  else match s.xing.lastEdge with
  | none => s.out s
  | some e =>
    let off := (s.clk.mono - (if s.coasting && s.xing.valid then s.xing.placed else e)) * 65536 / s.lastPeriod % 65536
    if p = 1 then s.out { s with xing := { s.xing with l2 := s.xing.l2.edge off } }
    else if p = 2 then s.out { s with xing := { s.xing with l3 := s.xing.l3.edge off } }
    else s.out s

/-- A coasted crossing at its placed instant (R50): one held period after the last placed one. L2 and L3 are judged at it too (R49). -/
def State.coastOne (s : State) (raw : List (List Int)) : State :=
  let h := s.xing.held
  let s1 : State := { s with xing := { s.xing with num := s.xing.num + 1, placed := s.xing.placed + h, floor := 0 }
                             aon := { s.aon with coastNs := s.aon.coastNs + h } }
  s1.judgePhases.crossingWork s.xing.num h raw

/-- COASTING_BEGINS: R50, R52; no valid L1 crossing within 1.5 times the last measured period. -/
def execCoastingBegins (raw : List (List Int)) (s : State) : Out :=
  match s.xing.lastEdge with
  | none => s.out s
  | some e =>
    if s.coasting ∨ s.clk.mono - e < s.lastPeriod * 3 / 2 then s.out s
    else
      let s1 : State := { s with xing := { s.xing with held := s.period, hold := 0, goodRun := 0 } }
      s.out ((((s1.set xingStatus_COASTING 1).set xingStatus_MAINS_L1 0).raise 18).coastOne raw)

/-- COASTED_CROSSING: R50, R36, R70, R76, R159, R314. -/
def execCoastedCrossing (raw : List (List Int)) (s : State) : Out :=
  s.out (if s.coasting = true ∧ s.xing.valid = true ∧ s.xing.held ≠ 0 ∧ s.xing.placed + s.xing.held ≤ s.clk.mono
         then s.coastOne raw else s)

/-- ANCHOR_AGE_EXPIRY: R54, R56. -/
def execAnchorAgeExpiry (s : State) : Out :=
  s.out (if 512 < s.xing.anchorAge then State.showLock { s with xing := { s.xing with anchor := none, anchorFresh := false } } else s)

/-- HOLDOVER_EXPIRY: R70, R314. -/
def execHoldoverExpiry (s : State) : Out :=
  let past := match s.sinceSynced with
    | none => true
    | some d => decide (holdoverNs ≤ d)
  s.out (if s.xing.trustOk = true ∧ s.trust = 1 ∧ past = true then
           (if !s.agrees then s.setTrust 2 0x03 else s.setTrust 2 0x02) else s)

/-- LEAP_INSTANT: R58. -/
def execLeapInstant (s : State) : Out :=
  match s.xing.leap with
  | none => s.out s
  | some l =>
    let s1 : State := { s with xing := { s.xing with leap := none } }
    s.out (((s1.set xingUtcOfs_OFFSET (ofSigned 16 l.2)).set xingUtcOfs_PENDING 0).raise 31)

/-- XING_LATCH's capture (R59). -/
def State.latchTime (s : State) : State :=
  s.setWords xingLatXhi [BitVec.ofNat 32 (s.xt / 2 ^ 32), BitVec.ofNat 32 s.xt,
    BitVec.ofNat 32 (ofBool s.coasting * 2 ^ 19 + s.clk.epoch % 8 * 2 ^ 16 + s.ptpSec / 2 ^ 32 % 65536),
    BitVec.ofNat 32 s.ptpSec, BitVec.ofNat 32 (s.clk.ptp % nsPerSec)]

/-- What a write to XING_LATCH does. -/
def State.latchWrite (s : State) (v : Word) : State := if wordBits v xingLatch_LATCH = 1 then s.latchTime else s

/-- XING_LATCH: R59. -/
def execXingLatch (i : Iface) (s : State) : Out := s.out (s.writeGate i xingLatch 1 fun s => s.latchWrite 1)

/-- What a write to XING_LATE_q does. -/
def State.lateWrite (s : State) (q : Nat) (v : Word) : State :=
  if wordBits v (xingLate_CLR q) = 1 then (s.set (xingLate_LATE q) 0).set (xingLate_FAR q) 0 else s

/-- XING_LATE_CLEAR: R65. -/
def execXingLateClear (i : Iface) (q : Nat) (s : State) : Out :=
  s.out (s.writeGate i (xingLate (q % 256)) 0x40000000 fun s => s.lateWrite (q % 256) 0x40000000)

/-- SNAPSHOT_LATCH: R52, R81, R286, R310, R323, R340. The counters are latched once for each N; during a warning too. -/
def execSnapshotLatch (s : State) : Out :=
  let n := s.plc.snapN
  if n = 0 ∨ s.bil.latchN = n ∨ s.xing.num < n then s.out s
  else
    let e := s.energies
    let net : Int := ((e.getD 0 0 : Nat) : Int) - ((e.getD 1 0 : Nat) : Int)
    let t := s.rxStamp 7
    let s1 : State := { s with met := { s.met with latched := e, latchStamp := { t with flags := t.flags + 16 * ofBool (s.wasSkipped n) } }
                               bal := { s.bal with site := s.bal.site ++ [(n, net)] } }
    s.out (((s1.raise 48).bilLatch n e).siteEmit n e)

/-! ### Profiles -/

/-- A profile request (R39): refused when not permitted, cancelled when it equals the active profile, else pending. `old` is
REQUEST before the write. -/
def State.profileWrite (s : State) (i : Iface) (old v : Word) : State :=
  let r := wordBits v sysProfileCtrl_REQUEST
  if r ∉ s.man.profiles then
    (((s.set sysProfileCtrl_REQUEST (bitsOf old 1 0)).set sysProfileStat_REJECT 1).logRefused i sysProfileCtrl v)
  else if r = s.get sysProfileStat_ACTIVE then (s.set sysProfileStat_PENDING 0).set sysProfileStat_TARGET r
  else (s.set sysProfileStat_PENDING 1).set sysProfileStat_TARGET r

/-- PROFILE_REQUEST: R39. -/
def execProfileRequest (i : Iface) (v : Word) (s : State) : Out :=
  s.out (s.writeGate i sysProfileCtrl v fun st => st.profileWrite i (s.reg sysProfileCtrl) v)

/-- Cores that a profile runs (Profiles table, R34). -/
def profileCores (p : Nat) : Nat := if p = 0 then 2 else if p = 1 then 4 else 8

/-- Keccak engines that a profile keeps active (Profiles table, R34). -/
def profileEngines (p : Nat) : Nat := if p = 0 then 1 else if p = 1 then 2 else 4

/-- A core that is parked or unparked (R37): its running and prefetched contexts return to the tail of their ready lists. -/
def State.parkCore (s : State) (n : Nat) (park : Bool) : State :=
  let c := s.core n
  if park then
    let back := fun (st : State) (t : Option Nat) => match t with
      | some k => (st.setThr k { st.thr k with st := .ready }).joinReady k false
      | none => st
    let s1 := back (back s c.running) c.slot
    s1.setCore n { s1.core n with running := none, slot := none, loaded := false, parked := true }
  else s.setCore n { c with parked := false }

/-- Engines parked or started (R34, R37 step 2): work in flight on one that is being parked completes first. -/
def State.parkEngines (s : State) (p : Nat) : State :=
  State.fillEngines 4
    { s with pwr := { s.pwr with engines := profileEngines p, parking := s.pwr.serving.length - profileEngines p } }

/-- A profile takes effect, in the order of R37: voltage and clock, Keccak engines, cores; from then on new pages take the new
coalescing window (Machine/HoldOps.lean). ACTIVE, the boundary's crossing number, event 2. -/
def State.applyProfile (s : State) (p : Nat) : State :=
  let s0 := (s.changeClock (min 2 p)).parkEngines p
  let s1 := (List.range 8).foldl (fun (st : State) n =>
    let park := decide (profileCores p ≤ n)
    if (st.core n).parked = park then st else st.parkCore n park) s0
  let s2 := ((s1.set sysProfileStat_PENDING 0).set sysProfileStat_TARGET p).set sysProfileStat_ACTIVE p
  (s2.setReg sysProfileSwxing (BitVec.ofNat 32 s2.xing.num)).raise 2

/-- PROFILE_CHANGE: R36, R37, R40. -/
def execProfileChange (s : State) : Out :=
  s.out (if s.xing.num % 32 = 0 ∧ s.flag sysProfileStat_PENDING = true ∧ s.warned = false
         then s.applyProfile (s.get sysProfileStat_TARGET) else s)

end Sys2Proof.Machine
end

