-- ==== Sys2Proof/Machine/ManifestChk.lean ====
section
/-!
DEFINITION. What a Manifest's content gives the registers at a start (R499), and the checks of R502 that this content shows: checks 5 and
8 to 13, and 15.
-/
namespace Sys2Proof.Machine

/-! ### Register values -/

/-- Registers with fields whose reset value is "Manifest", part 1: address, (count, stride) of each index, the bits of those fields. -/
def manifestRegsA : List (Nat × List (Nat × Nat) × Word) := [
  (0x40, [], 0x3#32), (0x44, [], 0xF#32), (0x100000, [], 0xFF07#32), (0x100008, [], 0xFFFFFFFF#32),
  (0x100040, [], 0xFFFF#32), (0x100100, [(8, 8)], 0xFFFFFF#32), (0x100104, [(8, 8)], 0xFFFFFF#32),
  (0x100400, [(256, 4)], 0x80000000#32), (0x200000, [], 0xE0#32), (0x300000, [], 0xF1#32), (0x300010, [], 0xFFFF#32),
  (0x300014, [], 0xFF#32), (0x30001C, [], 0x1#32), (0x300100, [(3, 64)], 0x18FF1#32), (0x300110, [(3, 64)], 0xFFFF071F#32),
  (0x301000, [(3, 256)], 0xFFCFFF#32), (0x301004, [(3, 256)], 0xFF003FFF#32), (0x400000, [(2, 4096)], 0xFF3FFD#32),
  (0x400004, [(2, 4096)], 0xFFFF#32), (0x400020, [(2, 4096)], 0xFFFFFFFF#32), (0x400030, [(2, 4096)], 0xFFFFFFFF#32),
  (0x400034, [(2, 4096)], 0xFFFFFFFF#32), (0x500000, [(2, 256)], 0xFFFF001F#32), (0x501000, [], 0xFF0007F1#32),
  (0x50100C, [], 0xFFFFFFFF#32), (0x502000, [], 0xFFFFFFFF#32), (0x600000, [], 0xFFFF00#32), (0x600008, [], 0xFFFFFFFF#32),
  (0x60000C, [], 0xFFFF#32), (0x600040, [], 0xFFFF1FFF#32), (0x700000, [], 0x1FFFFF#32), (0x700004, [], 0x3FF#32)]

/-- Registers with fields whose reset value is "Manifest", part 2. -/
def manifestRegsB : List (Nat × List (Nat × Nat) × Word) := [
  (0x800000, [], 0xFFFFFFFF#32), (0x800004, [], 0x1FFF#32), (0x800010, [], 0xFFFFFFFF#32), (0x800020, [(6, 4)], 0xF0F#32),
  (0x800040, [], 0x800003FF#32), (0x800104, [], 0xFFFF8FFF#32), (0x800108, [], 0xFFFFF#32), (0x80010C, [], 0xFFFFFFFF#32),
  (0x800110, [], 0xFFFFFFFF#32), (0x801000, [(512, 4)], 0x1FFF1FFF#32), (0x900000, [], 0x3FF007F#32),
  (0x901000, [], 0xFFFF1F1F#32), (0xB00000, [], 0x3F000103#32), (0xB00008, [], 0xFFFFFF#32),
  (0xB00010, [(4, 4)], 0x1F0F#32), (0xB00100, [(4, 128), (16, 8), (2, 4)], 0xFFFFFFFF#32), (0xB01000, [], 0x3FFFF0F1#32),
  (0xC00000, [(256, 32)], 0xFFFFFFFF#32), (0xC00004, [(256, 32)], 0x1FFFFFFF#32), (0xD00010, [(8, 4)], 0x10000000#32),
  (0xD00060, [], 0xF3FFF3FF#32), (0xE00010, [(16, 64)], 0x1FFF1FFF#32), (0xF00000, [], 0xFFF0FF1F#32),
  (0x1300004, [], 0x87FF00FF#32), (0x130000C, [], 0x3FFFF0FF#32), (0x1300014, [], 0x80FF0000#32),
  (0x1300018, [], 0xFF0000#32), (0x1400000, [], 0xFFF#32), (0x80, [], 0x8000001F#32)]

/-- The Manifest's values put into the registers of one table row (R499): fields marked "Manifest" alone, fields that it does not
name at 0. -/
def State.loadRow (s : State) (m : SMap Word) (row : Nat × List (Nat × Nat) × Word) : State :=
  let as := row.2.1.foldl (fun (l : List Nat) d => l.flatMap fun a => (List.range d.1).map fun k => a + d.2 * k) [row.1]
  as.foldl (fun (st : State) a =>
    let w := smGet 0 m a
    if w &&& row.2.2 = 0 then st else st.setReg a ((st.reg a &&& ~~~ row.2.2) ||| (w &&& row.2.2))) s

/-- The paths that a coupling mode powers (R115). -/
def State.pathsOn (s : State) : Nat :=
  if s.get plcConfig_MODE = 0 then 2 ^ s.get plcConfig_SPHASE else if s.get plcConfig_MODE = 3 then 0 else 7

/-- The Manifest's register values with the defaults that the register tables name (R499). -/
def State.loadRegs (s : State) : State :=
  let s1 := (s.set hldCfg_WL_SPREAD 200).setReg xingPeriod (BitVec.ofNat 32 s.man.nominalPeriod)
  let s2 := manifestRegsB.foldl (fun st r => st.loadRow s.man.regs r) (manifestRegsA.foldl (fun st r => st.loadRow s.man.regs r) s1)
  let p := s.man.defaultProfile
  let s3 := ((s2.set sysProfileStat_TARGET p).set sysProfileStat_ACTIVE p).set sysProfileCtrl_REQUEST p
  s3.set plcStatus_PATH_ON s3.pathsOn

/-! ### Checks of the content

A failure is (PART, SECTION, CHECK, CODE): PART 1 open, 2 sealed; SECTION the type of R496. A relation between several sections names the
open part's lowest one (R502). What the model's content does not show (byte forms, panel pins, firmware images, reach of access maps, register
ranges of the privilege map) stands in MCopy.fails (log entry 108). -/

/-- A failure where a condition holds. -/
def failIf (b : Bool) (part sec chk code : Nat) : List (Nat × Nat × Nat × Nat) := if b then [(part, sec, chk, code)] else []

/-- Slot of the site's own record (R265). -/
def State.siteSlotOf (b : State) : Nat := if b.underHub then 16384 else b.get eptCfg_CAPACITY

/-- Check 5: the limits of R2, on a CRN-8800-C. -/
def State.limitFails (b : State) : List (Nat × Nat × Nat × Nat) :=
  let c := decide (b.fuses.variant = 2)
  failIf (c && b.isHub) 1 0x01 5 0x07 ++
  failIf (c && (decide (16384 < b.get eptCfg_CAPACITY) || decide (2147483648 < b.man.dram))) 1 0x02 5 0x07

/-- Whether two of some ranges (first, length) overlap. -/
def overlaps : List (Nat × Nat) → Bool
  | [] => false
  | r :: rs => rs.any (fun q => decide (r.1 < q.1 + q.2) && decide (q.1 < r.1 + r.2)) || overlaps rs

/-- Bytes of the enrolment store (R272): twice the table capacity of the variant, 128 bytes a record. -/
def State.enrolBytes (b : State) : Nat := if b.fuses.variant = 2 then 32768 * 128 else 2097152 * 128

/-- Check 8: the LPDDR5 size of R1, regions below the carve-out of R552 and apart, the enrolment store (R272), the table capacity and its
region (R1, R265). -/
def State.memoryFails (b : State) : List (Nat × Nat × Nat × Nat) :=
  let cap := b.get eptCfg_CAPACITY
  let top := if b.isHub then 1048576 else if b.underHub then 16384 else 1048575
  let bal := if b.flag balCfg_EN then [(b.man.balBase, 512 * (cap + ofBool (!b.isHub)))] else []
  let rs := (b.man.eptBase, b.man.eptBytes) :: (b.man.enrolBase, b.enrolBytes) :: bal ++ b.man.mem
  failIf (decide (b.man.dram < 2147483648) || decide (17179869184 < b.man.dram) || (rs.any fun r => decide (b.dramTop < r.1 + r.2)) || overlaps rs)
    1 0x02 8 0x0A ++
  failIf (decide (top < cap)) 1 (if b.isHub then 0x02 else 0x01) 8 0x0A ++
  failIf (decide (b.man.eptBytes < cap * 1024)) 1 0x02 8 0x0A ++
  failIf (!b.isHub && decide (b.man.eptBytes < (b.siteSlotOf + 1) * 1024)) 1 0x01 8 0x0A

/-- The units of a queue: first, and one past the last (R389). -/
def State.unitsOf (b : State) (q : Nat) : Nat × Nat := (b.get (whfQCfg_BASE q), b.get (whfQCfg_BASE q) + b.get (whfQCfg_SIZE q) + 1)

/-- Check 9: allocation (R389), flag mode (R394), class-0 targets. -/
def State.queueFails (b : State) : List (Nat × Nat × Nat × Nat) :=
  let m := b.man
  let rx := m.roles.plcRx ++ m.roles.radRx ++ m.roles.ethRx
  let flagged := m.queues.filter fun q => b.flag (whfQCfg_FLAG q)
  let overlap := m.queues.any fun p => m.queues.any fun q =>
    p != q && decide ((b.unitsOf p).1 < (b.unitsOf q).2) && decide ((b.unitsOf q).1 < (b.unitsOf p).2)
  failIf (overlap || (m.queues.any fun q => decide (2048 < (b.unitsOf q).2)) || decide (16 < flagged.length) ||
    (flagged.any fun q => (smGet [] m.producers q).any (· != .hardware) || decide (rx.count (q + 1) ≠ 1)) ||
    (m.c0Map.any fun e => !(b.flag (whfQCfg_LANE (e.2 - 1)) && b.flag (whfQCfg_LAUNCH (e.2 - 1))))) 1 0x03 9 0x0A

/-- Whether a profile parks every core of an affinity (R37, R38). -/
def parksAll (p affinity : Nat) : Bool := decide (affinity % 2 ^ profileCores p = 0)

/-- Check 10: profiles under R38 and R417, the default permitted. -/
def State.profileFails (b : State) : List (Nat × Nat × Nat × Nat) :=
  let m := b.man
  let home := fun (en core : Fld) => b.flag en && m.profiles.any fun p => decide (profileCores p ≤ b.get core)
  failIf ((m.threads.any fun t => m.profiles.any fun p => parksAll p t.affinity) ||
    home fryC0Cfg_EN0 fryC0Cfg_CORE0 || home fryC0Cfg_EN1 fryC0Cfg_CORE1) 1 0x04 10 0x0A ++
  failIf (decide (m.defaultProfile ∉ m.profiles)) 1 0x08 10 0x0A

/-- Check 11: threads, pools, quotas (R280, R406). -/
def State.threadFails (b : State) : List (Nat × Nat × Nat × Nat) :=
  let m := b.man
  failIf (m.pools.any fun e => e.2.any fun q => smGet none m.consumers q != some (.pool e.1)) 1 0x03 11 0x0A ++
  failIf (decide (1024 < m.threads.length) || (m.pools.any fun e => decide (e.2 = [] ∨ 16 < e.2.length)) ||
    decide (4096 < (m.quota.map (·.2)).sum)) 1 0x04 11 0x0A

/-- Opcodes that the Instructions table does not list (R426). -/
def unlistedOps : List Nat := [0x17, 0x27, 0x2F, 0x36, 0x37, 0x3D, 0x3F]

/-- What R439 refuses in one instruction word of a program. -/
def wordBad (p : OarProg) (w : Word) : Bool :=
  let op := bitsOf w 31 26
  let q := bitsOf w 7 0
  decide (op ∈ unlistedOps) ||
  (decide (0x20 ≤ op) && decide (op ≤ 0x25) && decide (p.code.length ≤ bitsOf w 11 0)) ||
  (decide (op = 0x30) && (decide (bitsOf w 8 0 ∉ p.events) || decide (bitsOf w 17 9 ∉ p.events))) ||
  (decide (op = 0x28) && decide (q ∉ p.consumes)) || (decide (op = 0x29) && decide (q ∉ p.produces)) ||
  (decide (op = 0x2A) && decide (q ∉ p.consumes ++ p.produces))

/-- What R438 and R439 refuse in a program section. -/
def progBad (p : OarProg) : Bool :=
  decide (4096 < p.code.length) || decide (8192 < p.data.length) || decide (16 < p.access.length) || p.code.any (wordBad p)

/-- What R133 refuses in a PLC cell. -/
def State.cellBad (b : State) (c : Nat) : Bool :=
  decide (4 < b.get (plcCellLayout_C0_SLOTS c)) || decide (((List.range 64).filter (b.exchSlot c)).length < 16) ||
  decide (b.get (plcCellCfg_C0_REPEAT c) < b.get (plcCellCfg_ECHO_DEPTH c))

/-- What R283 refuses in the balance tree: a number above 4,095; a cycle or a depth above 8, the root's being 1; two nodes with one
reference endpoint. Grid domains that a node's members lie in do not follow from a Manifest (log entry 108). -/
def Manifest.treeBad (m : Manifest) : Bool :=
  let refs := (m.nodes.filterMap (·.2)).filter (fun n => n.refKind = 2) |>.map (·.refIndex)
  (m.nodes.any fun e => e.2.isSome && (decide (4096 ≤ e.1) || decide (8 ≤ m.depth 10 e.1))) || decide (refs.dedup.length < refs.length)

/-- Check 12: programs, PLC cells, the balance tree, calendars (R303), wiring (R78). -/
def State.ruleFails (b : State) : List (Nat × Nat × Nat × Nat) :=
  let m := b.man
  failIf ((m.roles.plcLaunch.filter (· ≠ 0)).any fun q => b.flag (xingLate_POLICY (q - 1))) 1 0x03 12 0x0A ++
  failIf ((List.range 16).any fun n => n != 12 && n != 13 && progBad (smGet {} m.oar n)) 1 0x05 12 0x0A ++
  failIf (b.plcCells.any b.cellBad) 1 0x09 12 0x0A ++ failIf m.treeBad 1 0x0F 12 0x0A ++
  failIf ([12, 13].any fun n => progBad (smGet {} m.oar n)) 2 0x05 12 0x0A ++
  failIf (decide (b.get metConfig_WIRING = 3)) 2 0x0D 12 0x0A ++
  failIf (m.calendars.any fun e => decide (e.2 ≠ [] ∧ calCheck e.2 e.1 ≠ 0)) 2 0x0E 12 0x0A

/-- Whether a commit grant (KIND, first and last target) takes in a target of the sealed domain (R348, R423): its SRAM, its regions,
its counters. -/
def Manifest.sealedGrant (m : Manifest) (g : Nat × Nat × Nat) : Bool :=
  match g.1 with
  | 1 => touchesSealed g.2.1 (g.2.2 + 1 - g.2.1)
  | 6 => (List.range 16).any fun r => decide (g.2.1 ≤ r) && decide (r ≤ g.2.2) && (m.region r).isSealed
  | 7 => (List.range 16).any fun r => decide (g.2.1 / 2 ^ 56 ≤ r) && decide (r ≤ g.2.2 / 2 ^ 56) && (m.region r).isSealed
  | 9 => decide (896 ≤ g.2.2)
  | 10 => decide (896 ≤ g.2.2)
  | _ => false

/-- Check 13: no sealed target, no HLD_CMD access to the Logbook region (R474), no writing of a device slot. -/
def Manifest.privFails (m : Manifest) : List (Nat × Nat × Nat × Nat) :=
  failIf (m.priv.any fun e => (e.2.keys.any fun n => decide (n < 8)) || decide (m.logRegion ∈ e.2.hold) || e.2.commit.any m.sealedGrant ||
    e.2.sram.any fun r => touchesSealed r.lo (r.hi + 1 - r.lo)) 1 0x07 13 0x0A

/-- Check 14: one function per pin. -/
def Manifest.pinFails (m : Manifest) : List (Nat × Nat × Nat × Nat) :=
  failIf (decide ((m.pins.map (·.pin)).dedup.length < m.pins.length)) 1 0x06 14 0x0A

/-- Check 15: the flush area, whole regions within the pools, the geometry of R443 (R443, R445). -/
def Manifest.storageFails (m : Manifest) : List (Nat × Nat × Nat × Nat) :=
  let r0 := smGet {} m.regions 0
  let used := fun slc => ((m.regions.filter fun e => e.2.slc == slc).map fun e => e.2.size / m.lbBytes e.2).sum
  failIf (!r0.slc || decide (r0.size < 64 * m.lbBytes r0) || (m.regions.any fun e => decide (16 ≤ e.1 ∨ e.2.size % m.lbBytes e.2 ≠ 0)) ||
    decide (m.slcBlocks < used true) || decide (m.tlcBlocks < used false) || decide (m.dies = 0 ∨ 8 < m.dies) ||
    decide (m.blockBytes ∉ [4194304, 8388608, 16777216, 33554432, 67108864]) ||
    decide (4398046511104 < (m.tlcBlocks + m.slcBlocks) * m.blockBytes)) 1 0x0A 15 0x0A

/-- The checks that a Manifest's content fails. -/
def State.contentFails (s : State) (m : Manifest) : List (Nat × Nat × Nat × Nat) :=
  let b : State := State.loadRegs { State.reset with man := m, fuses := s.fuses }
  b.limitFails ++ b.memoryFails ++ b.queueFails ++ b.profileFails ++ b.threadFails ++ b.ruleFails ++ m.privFails ++ m.pinFails ++ m.storageFails

end Sys2Proof.Machine
end

