-- ==== Sys2Proof/Machine/Keys.lean ====
section
/-!
DEFINITION. The commands of the key block (20_keys_attestation.md): slot operations, the identity key, attestation.
-/
namespace Sys2Proof.Machine

/-! ### Slot operations -/

/-- The word of KEY_NEW_ATTR that a write takes: bits 31, 27, 26 and 6:5 are left out, VALID is set (R483, R479). -/
def newAttr (w : Word) : Word := (w &&& 0x73FFFF9F#32) ||| 0x80000000#32

/-- Slots that an interface may write (R485). -/
def State.keyGrant (s : State) (i : Iface) (n : Nat) : Bool :=
  match i with
  | .oarsman k => decide (n ∈ (smGet {} s.man.oar k).keys)
  | .sealCore => true
  | i => decide (n ∈ (smGet {} s.man.priv i.window).keys)


/-- The first result of the Slot results table that applies (R484); 0x00 when none does. A device slot and the grants of the
privilege map bar writing, erasing and locking; a readable device slot can be read (DEDUCED, log entry 40). -/
def State.keyResult (s : State) (i : Iface) (op n : Nat) : Nat :=
  let x := s.slot n
  let a := newAttr (s.reg (regKey i keyNewAttr))
  let y : Slot := { attr := a }
  let bad := op = 1 ∧ (64 < y.len ∨ (y.readable ∧ y.usage ≠ 16) ∨ 1023 < n + y.span)
  let sealedSlot := x.isSealed || (op == 1 && y.isSealed)
  let kek := decide (n = s.get eptKek_SLOT) || decide (n = s.get eptKek_NEW_SLOT) || s.ept.rewrap.isSome
  if op = 0 ∨ 4 < op ∨ bad then 0x01
  else if op ≠ 4 ∧ (n < 8 ∨ !s.keyGrant i n ∨ (sealedSlot ∧ i ≠ .sealCore ∧ !s.sealOpen)) then 0x02
  else if op ≠ 4 ∧ x.locked then 0x03
  else if s.warned then 0x04
  else if natBit x.usage 1 ∧ x.valid ∧ kek then 0x05
  else if op = 4 ∧ (!x.valid ∨ !x.readable) then 0x06
  else 0x00

/-- The staged key of an interface. -/
def State.stagedKey (s : State) (i : Iface) (len : Nat) : List Byte :=
  ((List.range 16).flatMap fun k => be 4 (smGet 0 s.keys.staged (i.window * 16 + k)).toNat).take len

/-- Staging words of an interface set to 0. -/
def State.clearStaged (s : State) (i : Iface) : State :=
  { s with keys := { s.keys with staged := s.keys.staged.filter fun p => decide (p.1 / 16 ≠ i.window) } }

/-- A slot with a new content; a persistent slot's record is written, or discarded, and the operation ends when that is
durable (R482 to R484). -/
def State.storeSlot (s : State) (i : Iface) (n : Nat) (x : Slot) : State :=
  let was := (s.slot n).persist
  let s1 := s.setSlot n x
  if x.persist || was then
    let j := s1.cmt.next
    let s2 := s1.journalUpd [.record tabKeys n (if x.persist then s.slotRow x else [])]
    if x.persist then
      (State.setOf { s2 with keys := { s2.keys with waits := s2.keys.waits ++ [(i.window, j)] } } i keyCmdStat_BUSY 1)
    else s2
  else s1

/-- A new generation in the key family of a cell starts its key change (R126, R180; log entry 41). -/
def State.cellKeyNews (s : State) (n : Nat) : State :=
  s.ownCells.foldl (fun st c =>
    let f := smGet 0 st.man.cellKey c
    let x := st.slot n
    if f ≤ n ∧ n ≤ f + (st.slot f).span ∧ x.gen ≠ (st.cell c).keyGen ∧ (st.cell c).keyNew.isNone ∧ f ≠ 0 then
      st.startKeyChange c x.gen x.key
    else st) s

/-- What a write to KEY_CMD does (R483 to R485). The result of a persistent slot's write is shown once its record is durable. -/
def State.keyCmd (s : State) (i : Iface) (op : Nat) : State :=
  let n := s.getOf i keySel_SLOT
  if s.getOf i keyCmdStat_BUSY = 1 then s
  else
    let r := s.keyResult i op n
    let s1 := if op = 1 ∧ r = 0 ∧ natBit (s.reg (regKey i keyNewAttr)).toNat 30 = true then s else s.setOf i keyCmdStat_RESULT r
    if r ≠ 0 then s1.raise 457
    else if op = 1 then
      let a := newAttr (s1.reg (regKey i keyNewAttr))
      let y : Slot := { attr := a, key := s1.stagedKey i ({ attr := a } : Slot).len }
      (((s1.storeSlot i n y).clearStaged i).raise 456).cellKeyNews n
    else if op = 2 then (s1.storeSlot i n {}).raise 458
    else if op = 3 then (s1.setSlot n { s1.slot n with attr := (s1.slot n).attr ||| maskOf 27 27 }).raise 459
    else
      ((List.range 16).foldl (fun (st : State) k =>
        st.setReg (regKey i (keyData k)) (BitVec.ofNat 32 (beAt (padTo 64 (s1.slot n).key) (4 * k) 4))) s1)

/-- The written word of a slot operation. -/
def keyWord (op : Nat) : Word := BitVec.ofNat 32 (op * 2 ^ 28)

/-- KEY_WRITE: R126, R479, R481 to R485. -/
def execKeyWrite (i : Iface) (s : State) : Out := s.out (s.writeGate i keyCmd (keyWord 1) fun s => s.keyCmd i 1)

/-- KEY_ERASE: R482, R484, R485. -/
def execKeyErase (i : Iface) (s : State) : Out := s.out (s.writeGate i keyCmd (keyWord 2) fun s => s.keyCmd i 2)

/-- KEY_LOCK: R482, R484, R485. -/
def execKeyLock (i : Iface) (s : State) : Out := s.out (s.writeGate i keyCmd (keyWord 3) fun s => s.keyCmd i 3)

/-- KEY_READ: R480, R484. -/
def execKeyRead (i : Iface) (s : State) : Out := s.out (s.writeGate i keyCmd (keyWord 4) fun s => s.keyCmd i 4)

/-- A read of KEY_IDX_HI (R488): all 40 bits are captured. -/
def State.indexCapture (s : State) : Word × State :=
  let hi := BitVec.ofNat 32 (s.keys.next / 2 ^ 32)
  (hi, (s.setReg keyIdxHi hi).setReg keyIdxLo (BitVec.ofNat 32 s.keys.next))

/-- SIGNING_INDEX_CAPTURE: R488. -/
def execSigningIndexCapture (i : Iface) (s : State) : Out := s.out (s.readGate i keyIdxHi State.indexCapture)

/-! ### The identity key -/

/-- Generation begins (R487): the seeds are drawn, event 460. -/
def State.startIdentity (s : State) : State :=
  let draws := (List.range 12).foldl (fun (r : List Byte × State) _ => let d := r.2.random 64; (r.1 ++ be 8 d.1, d.2)) ([], s)
  let s1 : State := { draws.2 with keys := { draws.2.keys with generating := some draws.1 } }
  (s1.set keyIdStat_GENERATING 1).raise 460

/-- The identity fingerprint of a public key (R486). -/
def fingerprintOf (pub : List Byte) : Nat := beAt (shake256 pub 32) 0 8

/-- The device slots as the fuses give them (Device slots table): DEVICE, PERSIST and the usages. -/
def State.fuseIdentity (s : State) (sk pub : List Byte) : State :=
  let s1 := (s.setSlot 0 { attr := 0xC6000008#32, key := sk }).setSlot 1 { attr := 0xD6000010#32, key := pub }
  let fp := fingerprintOf pub
  let s2 : State := { s1 with fuses := { s1.fuses with identity := true, fingerprint := fp }
                              keys := { s1.keys with generating := none, next := s1.fuses.epoch * 2 ^ 34 } }
  ((s2.setReg keyFpHi (BitVec.ofNat 32 (fp / 2 ^ 32))).setReg keyFpLo (BitVec.ofNat 32 fp)).set keyIdStat_READY 1

/-- IDENTITY_KEY_GENERATED: R257, R479, R486 to R488. The seeds give SK_SEED, SK_PRF and PUB_SEED; slots 0 and 1 are written
and the first block of indices is reserved. -/
def execIdentityKeyGenerated (s : State) : Out :=
  match s.keys.generating with
  | none => s.out s
  | some d =>
    let sk := d.take 64
    let root := padTo 32 (xmssMtRoot d)
    s.out (((s.fuseIdentity sk (root ++ slice d 64 32)).set keyIdStat_GENERATING 0).reserve (s.fuses.epoch * 2 ^ 22 + 1) |>.raise 461)

/-- EPOCH_TREE_BUILT: R489. -/
def execEpochTreeBuilt (s : State) : Out :=
  s.out (if s.keys.treeWait then
    ((State.set { s with keys := { s.keys with treeWait := false } } keyIdStat_GENERATING 0).set keyIdStat_READY 1)
  else s)

/-! ### Attestation -/

/-- Bytes 0 to 487 of a statement (R490, R492), captured at one tick. -/
def State.statement (s : State) (idx : Nat) : List Byte :=
  let fw := match s.mft.inForce with
    | some 0 => s.mft.a.fw.map FwImg.hash
    | some _ => s.mft.b.fw.map FwImg.hash
    | none => []
  let t := s.stamp 8
  be 4 0x43415431 ++ be 1 1 ++ be 1 (min 8 fw.length) ++ be 1 (s.get metSealStat_STATE) ++ be 1 s.fuses.breaks
    ++ be 4 (s.reg sysDeviceId).toNat ++ be 4 0 ++ be 8 s.fuses.eui ++ padTo 32 (shake256 (padTo 64 (s.slot 1).key) 32)
    ++ s.regBytes (mftHashOpen 0) 8 ++ s.regBytes (mftHashSealed 0) 8 ++ s.regBytes (metCalHash 0) 8
    ++ padTo 256 (fw.flatMap (padTo 32)) ++ be 4 (s.reg lgbClears).toNat ++ be 4 s.aon.powerCycles
    ++ be 4 (s.aon.opSeconds / 3600) ++ be 4 0 ++ be 8 (idx % 2 ^ 40) ++ s.regBytes (keyAttNonce 0) 8 ++ t.bytes
    ++ be 1 (s.get trfClockTrust_STATE) ++ be 1 (ofBool s.isHub) ++ be 2 0

/-- A refused request (R491). -/
def State.refuseAttest (s : State) (r : Nat) : State := (s.set keyAttStat_RESULT r).raise 465

/-- A statement begins (R488, R490): its index is taken and every field captured. -/
def State.beginAttest (s : State) (a : Nat) : State :=
  let r := s.takeIndex
  { r.2 with keys := { r.2.keys with attest := some (a, s.statement r.1) } }

/-- What a write to KEY_ATT_CTRL does (R491). While the next index may not sign yet the statement waits to begin (R488, R489). -/
def State.attest (s : State) (v : Word) : State :=
  if wordBits v keyAttCtrl_START = 0 then s
  else if s.keys.attest.isSome then s.refuseAttest 0x02
  else if !s.fuses.identity then s.refuseAttest 0x03
  else if s.noIndex then s.refuseAttest 0x04
  else if s.warned then s.refuseAttest 0x05
  else
    let a := wordBits v keyAttCtrl_ADDR * 64
    let s1 := if s.maySign s.keys.next then s.beginAttest a else { s with keys := { s.keys with attest := some (a, []) } }
    s1.set keyAttStat_BUSY 1

/-- ATTESTATION_REQUEST: R488 to R492. -/
def execAttestationRequest (i : Iface) (v : Word) (s : State) : Out :=
  s.out (s.writeGate i keyAttCtrl v fun s => s.attest v)

/-- A statement is signed and written to LPDDR5 (R490, R491): event 464. -/
def State.endAttest (s : State) (a : Nat) (b : List Byte) : State :=
  let sig := padTo 5605 (s.idSign (beAt b 424 8) b)
  let s1 : State := { (s.dramPut a (b ++ sig)) with keys := { s.keys with attest := none } }
  ((s1.set keyAttStat_BUSY 0).set keyAttStat_RESULT 0).raise 464

/-- A statement complete (R490, R491); one that has not begun begins now where its index may sign. -/
def State.attestDone (s : State) : State :=
  match s.keys.attest with
  | none => s
  | some (a, []) =>
    if s.maySign s.keys.next && !s.noIndex then
      match (s.beginAttest a).keys.attest with
      | some (_, b) => (s.beginAttest a).endAttest a b
      | none => s
    else s
  | some (a, b) => s.endAttest a b

/-- ATTESTATION_COMPLETE: R488, R490, R491. -/
def execAttestationComplete (s : State) : Out := s.out s.attestDone

end Sys2Proof.Machine
end

