-- ==== Sys2Proof/Machine/Metrology.lean ====
section
/-!
DEFINITION. The commands of calibration, quantity capture and the seal (03_metrology_seal.md).
-/
namespace Sys2Proof.Machine

/-- CALIBRATION_WRITE: R18, R83. Only the staged value changes. -/
def execCalibrationWrite (i : Iface) (a : Nat) (v : Word) (s : State) : Out :=
  if a ∈ calAddrs then s.out (s.writeGate i a v State.showPending) else s.out s

/-- What COMMIT does (R84, R85, R97). -/
def State.calCommit (s : State) : State :=
  if !s.sealOpen || s.mlogFull then s.refuseCal
  else { s with met := { s.met with copy := some s.stagedCal } }.showPending

/-- What DISCARD does (R85): staged values return to the active ones, a waiting commit is cancelled. -/
def State.calDiscard (s : State) : State :=
  if !s.sealOpen then s.refuseCal
  else
    let s1 := calAddrs.foldl (fun (st : State) a => st.setReg a (s.activeCal a)) s
    { s1 with met := { s1.met with copy := none } }.showPending

/-- A write of MET_CAL_CTRL (R85): both bits act as DISCARD alone, neither has no effect. -/
def State.calCtrl (s : State) (v : Word) : State :=
  if wordBits v metCalCtrl_DISCARD = 1 then s.calDiscard
  else if wordBits v metCalCtrl_COMMIT = 1 then s.calCommit
  else s

/-- CAL_COMMIT: R84, R85, R97. -/
def execCalCommit (i : Iface) (s : State) : Out := s.out (s.writeGate i metCalCtrl 1 fun s => s.calCtrl 1)
/-- CAL_DISCARD: R85. -/
def execCalDiscard (i : Iface) (s : State) : Out := s.out (s.writeGate i metCalCtrl 2 fun s => s.calCtrl 2)

/-- CAL_COMMIT_APPLY: R84, R86, R97. The copy becomes active, its hash and record are written, event 51. -/
def execCalCommitApply (s : State) : Out :=
  match s.met.copy with
  | none => s.out s
  | some m =>
    let s0 := { s with met := { s.met with copy := none } }
    if !s.sealOpen || s.mlogFull then s.out s0.showPending.refuseCal
    else
      let ch := s.changedChannels m
      let hash := padTo 32 (shake256 (calWindow m) 32)
      let s1 := ({ s0 with met := { s0.met with active := m } }.showPending).setFlag 1
      let s2 := (if s1.flag metStatus_CAL_LOST then s1.sealedStore tabFlag 4 [] else s1).set metStatus_CAL_LOST 0
      let s3 := (s2.showCalHash m).sealedStore tabCal 0 ((calWindow m).map (·.toNat))
      s.out ((s3.mlog 0x04 ch (hash.take 16)).raise 51)

/-- A read of MET_QTY_HI captures the selected quantity (R80). -/
def State.qtyRead (s : State) : Word × State :=
  let v := s.quantity (s.get metQtySel_CODE)
  (wd64Hi v, (s.setReg metQtyHi (wd64Hi v)).setReg metQtyLo (BitVec.ofNat 32 v))
where
  /-- The high word of a 64-bit number. -/
  wd64Hi (v : Nat) : Word := BitVec.ofNat 32 (v / 2 ^ 32)

/-- MET_QTY_CAPTURE: R80. -/
def execMetQtyCapture (i : Iface) (s : State) : Out := s.out (s.readGate i metQtyHi State.qtyRead)

/-- The four conditions of a seal close (R89). -/
def State.closeOk (s : State) : Bool :=
  !s.flag metCalStat_PENDING && s.met.copy.isNone && decide (s.get metSealStat_BREAKS < 255) && !s.mlogFull

/-- A write of 1 to CLOSE (R89): refused, or the watch of one second begins; a further write meanwhile has no effect. -/
def State.closeWrite (s : State) : State :=
  if s.met.closing then s
  else if s.get metSealStat_STATE ≠ 0 ∨ !s.closeOk then s.refuseClose
  else { s with met := { s.met with closing := true } }

/-- A write of MET_SEAL_CTRL: what CLOSE does. -/
def State.sealCtrl (s : State) (v : Word) : State := if wordBits v metSealCtrl_CLOSE = 1 then s.closeWrite else s

/-- SEAL_CLOSE_REQUEST: R18, R89. `v` is the word written; its CLOSE bit is 1. -/
def execSealCloseRequest (i : Iface) (v : Word) (s : State) : Out :=
  s.out (s.writeGate i metSealCtrl (v ||| 1) fun s => s.closeWrite)

/-- SEAL_CLOSE_JUDGED: R87, R89, R96, R534. No opening came in the second; the conditions are checked again. -/
def execSealCloseJudged (s : State) : Out :=
  if !s.met.closing then s.out s
  else
    let s0 := { s with met := { s.met with closing := false } }
    if !s0.closeOk then s.out s0.refuseClose
    else
      let s1 := ((s0.set metSealStat_STATE 1).set metSealStat_LOOP 1)
      let s2 := State.setFlag { s1 with fuses := { s1.fuses with everClosed := true }, aon := { s1.aon with loopOpen := false } } 3
      s.out (((s2.mlog 0x01 0 ((s2.regBytes (metCalHash 0) 8).take 16)).raise 49).disarmAll (fun e => e.kind == 9) 0 0x04)

/-- The count of a break (R90): the pending flag, the fuse step, the state that goes with it, then the flag cleared. -/
def State.countBreak (s : State) : State :=
  let b := min 255 (s.get metSealStat_BREAKS + 1)
  let s1 := { s with fuses := { s.fuses with breaks := b } }
  let s2 := (s1.set metSealStat_BREAKS b).set metSealStat_STATE (if b = 255 then 2 else 0)
  { s2 with aon := { s2.aon with pendingBreak := false }, bil := { s2.bil with sealOpen := true } }

/-- SEAL_OPENING: R87, R89, R90, R96. While SEALED the break is counted and event 50 raised: at once while the device runs, its record when
the Hold is mounted; in reset or power-down the always-on domain keeps it pending. During a close second it refuses the request. -/
def execSealOpening (s : State) : Out :=
  let s0 : State := { s.set metSealStat_LOOP 0 with aon := { s.aon with loopOpen := true } }
  if s.get metSealStat_STATE = 1 then
    if s.get pwrReset_CAUSE = 0 then s.out { s0 with aon := { s0.aon with pendingBreak := true } }
    else if s.pwr.mounted then s.out (((s0.countBreak).mlog 0x02 0 []).raise 50)
    else s.out (State.raise { s0.countBreak with aon := { s0.countBreak.aon with breakLog := 2 } } 50)
  else if s.met.closing then s.out ({ s0 with met := { s0.met with closing := false } }.refuseClose)
  else s.out s0

end Sys2Proof.Machine
end

