-- ==== Sys2Proof/Machine/Power.lean ====
section
/-!
DEFINITION. The commands of power, reset and start-up (22_power_reset.md), the mount of the Hold (18_hold.md), journal replay
(13_commit_groups.md) and the table rebuild (09_endpoint_table.md).
-/
namespace Sys2Proof.Machine

/-! ### Warnings and resets -/

/-- POWER_WARNING: R30, R122, R196, R226, R294, R337, R362, R378, R385, R404, R462, R473, R477, R491, R507, R512, R513, R521,
R523, R537. -/
def execPowerWarning (thermal : Bool) (vin : Nat) (s : State) : Out :=
  s.out (s.powerWarn (if thermal then some 0x08 else none) vin)

/-- FLUSH_COMPLETE: R253, R355, R462, R463, R518, R562. A pending reset cause, or PORST_N taken low meanwhile, acts now. -/
def execFlushComplete (s : State) : Out :=
  if s.warned = true ∧ s.pwr.mounted = true ∧ s.pwr.flushed = false then
    let s1 := s.flushEnd
    s.out (match s1.pwr.cause with
      | some c => s1.doReset c
      | none => if s1.pwr.porst then s1.doReset 0x04 else s1)
  else s.out s

/-- RIDE_THROUGH: R30, R363, R378, R385, R464, R516, R517. -/
def execRideThrough (s : State) : Out := s.out (if s.mayRide then s.rideThrough else s)

/-- RAIL_DROPOUT: R509, R519, R526. Cause 0x02 after a complete flush, 0x03 otherwise. -/
def execRailDropout (s : State) : Out :=
  let s1 := s.doReset (if s.warned && s.pwr.mounted && s.aon.flushDone then 0x02 else 0x03)
  s.out { s1 with pwr := { s1.pwr with off := true } }

/-- PORST: R518. During a flush it waits for the flush end. -/
def execPorst (s : State) : Out :=
  s.out (if s.warned = true ∧ s.pwr.flushed = false then { s with pwr := { s.pwr with porst := true } } else s.doReset 0x04)

/-- PORST_FLUSH_TIMEOUT: R518; 15 ms after the warning. -/
def execPorstFlushTimeout (s : State) : Out :=
  s.out (if s.pwr.porst = true ∧ s.pwr.warnAt + 15000000 ≤ s.clk.mono then s.doReset 0x04 else s)

/-- EBFIN_SYSTEM_RESET: R519. -/
def execEbfinSystemReset (s : State) : Out := s.out (s.doReset 0x09)

/-- What a write to PWR_RESET does (R520). -/
def State.resetWrite (s : State) (i : Iface) (v : Word) (vin : Nat) : State :=
  if wordBits v pwrReset_KEY = 0xC5 ∧ wordBits v pwrReset_RESET = 1 then s.powerWarn (some 0x05) vin
  else s.logRefused i pwrReset v

/-- SOFTWARE_RESET: R520, R562. -/
def execSoftwareReset (i : Iface) (v : Word) (vin : Nat) (s : State) : Out :=
  s.out (s.writeGate i pwrReset v fun s => s.resetWrite i v vin)

/-! ### Release and start-up -/

/-- The always-on domain at reset release, its contents valid (R46, R50, R525): time and count have run on. -/
def State.aonRun (s : State) (elapsed : Nat) : State :=
  let a := s.aon
  let total := a.since + elapsed
  let n := if a.held = 0 then 0 else total / a.held
  let rest := if a.held = 0 then 0 else total % a.held
  State.set { s with
    clk := { s.clk with mono := rest, ptp := a.rtc + elapsed }
    xing := { s.xing with num := a.crossing + n, valid := decide (a.held ≠ 0), placed := 0, held := a.held
                          floor := if n = 0 then a.frac else 0 }
    aon := { a with coastNs := a.coastNs + n * a.held, powerCycles := a.powerCycles + 1 } } pwrStat_AON_VALID 1

/-- The always-on domain at reset release, its contents invalid (R470, R519, R525): cause 0x01, the counts from the last
flush-end record. -/
def State.aonCold (s : State) : State :=
  { s with clk := {}
           xing := {}
           aon := { valid := true, cause := 0x01, powerCycles := s.hld.endPcycle + 1, opSeconds := s.hld.endOpsec } }

/-- A seal break at start-up (R89, R90): the fuse step and event 50 now, the metrological record when the Hold is mounted. -/
def State.breakAtStart (s : State) : State :=
  let was := s.get metSealStat_STATE = 1
  if s.aon.pendingBreak then
    State.raise { s.countBreak with aon := { s.countBreak.aon with breakLog := 2 } } 50
  else if was ∧ s.flag pwrStat_AON_VALID = false then
    State.raise { s.countBreak with aon := { s.countBreak.aon with breakLog := 3 } } 50
  else s

/-- The registers that show fuses (R1, R486, R489). -/
def State.showFuses (s : State) : State :=
  let s1 := (s.set sysDeviceId_VARIANT s.fuses.variant).set keyIdStat_EPOCH s.fuses.epoch
  (s1.setReg keyFpHi (BitVec.ofNat 32 (s.fuses.fingerprint / 2 ^ 32))).setReg keyFpLo (BitVec.ofNat 32 s.fuses.fingerprint)

/-- RESET_RELEASE: R87, R90, R470, R521, R522, R525. `elapsed` is the time since the reset in ns. After a thermal shutdown it waits until
the junction has been read below 105 °C. LOOP reads intact where no opening has been
seen since the last seal close (DEDUCED, log entry 116). -/
def execResetRelease (elapsed : Nat) (s : State) : Out :=
  if s.get pwrReset_CAUSE ≠ 0 ∨ s.pwr.heat = true then s.out s
  else
    let s1 := (if s.aon.valid then s.aonRun elapsed else s.aonCold).showFuses
    let s2 := (s1.breakAtStart.set pwrReset_CAUSE s1.aon.cause).set metSealStat_LOOP (ofBool !(s1.aon.pendingBreak || s1.aon.loopOpen))
    let s3 := s2.logRec 0x05 0x13 s1.aon.cause (be 8 s2.hld.endJseq)
    s.out { s3 with pwr := { s3.pwr with t0 := s3.clk.mono, off := false } }

/-- LPDDR5_TRAINED: R505, R522. -/
def execLpddr5Trained (s : State) : Out :=
  s.out (if s.pwr.verified || s.flag mftStat_RESCUE then { s with pwr := { s.pwr with trained := true, dram := s.dramUsed } } else s)

/-- HOLD_SENSE_WAIT_EXPIRY: R522; the mount proceeds without HOLD_SENSE, event 4 and a Logbook record. -/
def execHoldSenseWaitExpiry (s : State) : Out :=
  s.out (if s.pwr.verified = true ∧ s.pwr.mounted = false ∧ s.pwr.waited = false ∧ s.flag pwrStat_HOLD_OK = false then
    State.raiseLog { s with pwr := { s.pwr with waited := true } } 4 [] else s)

/-- HOLD_SENSE_CHANGE: R515. -/
def execHoldSenseChange (up : Bool) (s : State) : Out :=
  s.out (if s.flag pwrStat_HOLD_OK = up then s
         else if up then (s.set pwrStat_HOLD_OK 1).raise 5
         else (s.set pwrStat_HOLD_OK 0).raiseLog 4 [])

/-! ### Mount -/

/-- The threads of the Manifest, READY, in thread-number order (R416, R420). -/
def State.startThreads (s : State) : State :=
  (sortBy (fun (a b : ThreadInit) => decide (a.num < b.num)) s.man.threads).foldl (fun (st : State) t =>
    let c0 := (st.c0Index t.num).isSome
    let x : Thread := { st := .ready, prio := if c0 then 0 else t.prio, affinity := t.affinity, pool := if c0 then none else t.pool, pc := t.pc
                        x := [(10, BitVec.ofNat 64 t.arg)] }
    (st.setThr t.num x).joinReady t.num false) s

/-- A failed mount (R444, R524): the storage-failed state. Oarsman 6, the cores and PCIe are served; the seal state is shown. -/
def State.storageFailed (s : State) : State :=
  let s1 := ((s.set hldStat_GEOMETRY 1).raiseLog 447 []).set pwrStat_STORAGE_FAIL 1
  let s2 := (s1.raise 10).set pwrStat_PHASE 5
  let s3 := if (smGet {} s2.man.oar 6).code = [] then s2 else s2.oarStart 6
  (State.ptpInit { s3.startThreads with eth := { s3.startThreads.eth with ptpOn := true } }).legalPaint

/-- A persistent slot is loaded (R482): one whose record fails its check in every copy loads empty, event 466 and a Logbook record; a
SEALED slot's is a failure of a sealed record too (R94). -/
def State.loadSlot (reads : List SealRead) (s : State) (p : Nat × List Nat) : State :=
  let lost := fun (_ : Unit) => (if sealedRec tabKeys p.2 then s.integrityFailure tabKeys p.1 0 else s).raiseLog 466 (be 2 p.1)
  match (s.copies reads tabKeys p.1).2 with
  | none => lost ()
  | some x =>
    if x.2 = [] then s
    else match s.slotOfRow x.2 with
      | some k => s.setSlot p.1 k
      | none => lost ()

/-- The two keys of the sealed domain (R92, R96), made at first start: 32 random bytes each (log entry 60). -/
def State.makeSealedKeys (s : State) : State :=
  [2, 3].foldl (fun (st : State) n =>
    if (st.slot n).valid then st
    else
      let r := (List.range 4).foldl (fun (q : List Byte × State) _ => let d := q.2.random 64; (q.1 ++ be 8 d.1, d.2)) ([], st)
      r.2.setSlot n { attr := 0xE5000001#32, key := r.1 }) s

/-- A calibration set is in force (R84): the staged set equals it, its hash is valid. -/
def State.setCal (s : State) (m : SMap Word) : State :=
  let s1 := m.foldl (fun (st : State) p => st.setReg p.1 p.2) { s with met := { s.met with active := m } }
  s1.showCalHash (calAddrs.map fun a => (a, s1.activeCal a))

/-- The active calibration from its record (R84, R86); without one the initial calibration of the Manifest (R496), where it gives
values. A set lost in every copy leaves unity gain, zero offset and zero phase (R94). -/
def State.loadCal (s : State) : State :=
  let r := s.live.row tabCal 0
  if s.flag metStatus_CAL_LOST then s.setCal (calAddrs.map fun a => (a, smGet 0 resetRegs a))
  else if r = [] then s.setCal (s.man.regs.filter fun p => decide (p.1 ∈ calAddrs))
  else
    let bs := r.map (BitVec.ofNat 8)
    s.setCal (calAddrs.map fun a => (a, BitVec.ofNat 32 (beAt bs (a - 0x200100) 4)))

/-- The metrological log's counters from its records (R97). -/
def State.loadMlog (s : State) : State :=
  let n := (smGet [] s.live.tables tabMlog).length
  ((s.set metMlogStat_COUNT (min n (2 ^ 19 - 1))).set metMlogStat_NEAR_FULL (ofBool (decide (235930 ≤ n)))).set metMlogStat_FULL
    (ofBool (decide (262144 ≤ n)))

/-- Continuity (R93): the newest valid counter S, with its record's address, against the always-on value A. The type 0x09 record of a
rollback carries DETAIL 0 and that address (DESIGN CHOICE, log entry 133). -/
def State.continuity (s : State) (newest addr : Nat) (valid done : Bool) : State :=
  let a := s.aon.sealedCounter
  let put := fun (st : State) => ({ st with aon := { st.aon with sealedCounter := newest } } : State)
  if !valid then (put s).mlog 0x03 2 (be 8 newest)
  else if newest = a then s
  else if a < newest then ((put s).mlog 0x03 2 (be 8 newest)).setFlag 0
  else if done = true ∨ 256 < a - newest then (s.mlog 0x09 0 (be 8 addr)).setFlag 0
  else s.mlog 0x03 2 (be 8 newest)

/-- A record as it stands from now on, in the effective and the durable content. -/
def State.rowNow (s : State) (t k : Nat) (v : List Nat) : State :=
  { s with live := s.live.apply s.man (.record t k v), img := s.img.apply s.man (.record t k v) }

/-- A sealed record that fails in every copy (R94, Integrity failures table); of the records that the table does not name nothing is
left, but a flag stands (DESIGN CHOICE, log entry 114). -/
def State.recordLost (s : State) (t k : Nat) : State :=
  let s1 := s.integrityFailure t k 0
  if t = tabCal then (((((s1.rowNow t k []).set metStatus_CAL_LOST 1).mlog 0x0A 0 []).setFlag 4).setFlag 2).raise 55
  else if t = tabLp then s1.rowNow t k [s.live.rowN t k 0, 0, 0, 0, 0, 512]
  else if t = tabFlag then s1.sealedStore t k [1]
  else if t = tabMlog then s1.rowNow t k (1 :: 0xFF :: List.replicate 62 0)
  else if t = tabTok ∨ t = tabTokBit then s1.rowNow tabTok 0 [s.tokHigh, s.tokFails, s.tokEnd, s.tokHigh]
  else if t = tabSet then s1.rebuildSet k
  else if t = tabCalAct then State.raise { s1 with trf := { s1.trf with lost := addMem s1.trf.lost k } } 262
  else s1.rowNow t k []

/-- A record of which the Hold gives back something else than was stored (R94): every copy passes and what is read stands, one copy
fails and the other is used and rewritten, or every copy fails. The slots of keys have a rule of their own (R482). -/
def State.loadRec (reads : List SealRead) (s : State) (p : Nat × Nat) : State :=
  let r := s.copies reads p.1 p.2
  match r.1, r.2 with
  | [], some x => if x.2 = s.live.row p.1 p.2 then s else s.rowNow p.1 p.2 x.2
  | c :: _, some x => (s.integrityFailure p.1 p.2 c).sealedStore p.1 p.2 x.2
  | _, none => if p.1 = tabKeys then s else s.recordLost p.1 p.2

/-- Journal records among what the Hold gives back, by JSEQ. -/
def tabJrn : Nat := 28

/-- Whether the CHECK of a journal record fails as it is read back (R361). -/
def State.jrnBad (s : State) (r : JRec) (x : SealRead) : Bool :=
  let bs := match x.body with
    | some b => bytesOf b
    | none => r.body
  x.tag.getD (s.jrnCheck r r.body) != s.jrnCheck r bs

/-- The journal as it is read back at the mount (R361): records whose CHECK fails are marked; one that never became durable was torn by the
power loss. -/
def State.readJournal (s : State) (reads : List SealRead) : State :=
  let rs := reads.filter (·.tab == tabJrn)
  let js := s.cmt.journal.map fun r => { r with damaged := rs.any fun x => x.key == r.jseq && s.jrnBad r x }
  let torn := (rs.filter fun x => decide (s.cmt.durJseq < x.key) && decide (x.key < s.cmt.next)).map (·.key)
  { s with cmt := { s.cmt with journal := js, torn := torn.dedup } }

/-- A journal record that failed its check (R361): event 295, and of a sealed group an integrity failure (R94), which names its JSEQ (DESIGN
CHOICE, log entry 114). -/
def State.journalFailed (s : State) (r : JRec) : State :=
  let s1 := s.raise 295
  if natBit r.jflags 0 then (s1.mlog 0x09 tabJrn (be 8 r.jseq)).raiseLog 54 (be 1 tabJrn ++ be 8 r.jseq) else s1

/-- The failed records of the journal, in JSEQ order, then the torn ones at its tail (R361). They count once. -/
def State.judgeJournal (s : State) : State :=
  let s1 := (s.cmt.journal.filter (·.damaged)).foldl State.journalFailed s
  let s2 := s.cmt.torn.foldl (fun (st : State) _ => st.raise 295) s1
  { s2 with cmt := { s2.cmt with torn := [], journal := s2.cmt.journal.filter fun r => !r.damaged } }

/-- The records of which the Hold gives back something else than was stored, each once. -/
def readRecs (reads : List SealRead) : List (Nat × Nat) := ((reads.filter (·.tab != tabJrn)).map fun r => (r.tab, r.key)).dedup

/-- The reservation at start-up (R489): the larger of the always-on copy and the record, or the next epoch, also where that block lies past
the epoch (DEDUCED, log entry 128); after epoch 63 no index is left. -/
def State.loadReserve (s : State) (valid : Bool) : State :=
  if !s.fuses.identity then s
  else if !valid then
    if s.fuses.epoch < 63 then s.nextEpoch else { s with keys := { s.keys with next := epochEnd 63 } }
  else
    let r := max s.aon.reservation (s.live.rowN tabResv 0 0)
    if epochEnd s.fuses.epoch ≤ r * 4096 ∧ s.fuses.epoch < 63 then s.nextEpoch
    else
      let s1 : State := { s with keys := { s.keys with reserved := r, next := r * 4096 }, aon := { s.aon with reservation := r } }
      s1.set keyIdStat_READY (ofBool !s1.noIndex)

/-- What start-up logs of the Manifest in force (R503 step 5; types 0x08 and 0x07): sealed content that differs from the last
record of its type. -/
def State.logSealedPart (s : State) : State :=
  let rows := (smGet [] s.live.tables tabMlog).map (·.2)
  let last := fun (typ detail : Nat) =>
    ((rows.filter fun r => r.getD 1 0 == typ && r.getD 2 0 * 256 + r.getD 3 0 == detail).getLast?).map fun r => (r.drop 32).take 16
  let c : MCopy := match s.mft.inForce with
    | some 0 => s.mft.a
    | some _ => s.mft.b
    | none => {}
  let h := nums (padTo 16 c.sld.hash)
  let s1 := if last 8 0 = some h then s else s.mlog 0x08 0 (padTo 16 c.sld.hash)
  (List.range c.fw.length).foldl (fun (st : State) k =>
    let x := c.fw.getD k {}
    let f := padTo 16 x.hash
    if !x.isSealed || last 7 k == some (nums f) then st else st.mlog 0x07 k f) s1

/-- The record of a break counted before the mount (R89, R90). -/
def State.logBreak (s : State) : State :=
  let st := fun (x : State) => ({ x with aon := { x.aon with breakLog := 0 } } : State)
  if s.aon.breakLog = 2 then st (s.mlog 0x02 0 [])
  else if s.aon.breakLog = 3 then st (s.mlog 0x03 1 (be 8 s.aon.sealedCounter))
  else s

/-- The flags that outlived the reset (R84, R93, R94), beside those that have come since. -/
def State.loadFlags (s : State) : State :=
  let on := fun (k : Nat) => decide (s.live.row tabFlag k ≠ [])
  let s1 : State := { s with met := { s.met with
    notProven := s.met.notProven || on 0, calChanged := s.met.calChanged || on 1, uncal := s.met.uncal || on 2 || on 4 } }
  if on 4 then s1.set metStatus_CAL_LOST 1 else s1

/-- What waited for the mount is written (R95): sealed records, then the records of the metrological log. -/
def State.storeWaiting (s : State) : State :=
  let s0 : State := { s with met := { s.met with waitStore := [], waitLog := [] } }
  let s1 := s.met.waitStore.foldl (fun (st : State) r => st.sealedStore r.1 r.2.1 r.2.2) s0
  s.met.waitLog.foldl (fun (st : State) r => st.mlogPut r.1 r.2.1 r.2.2) s1

/-- Blocks of the flush area (R445): the first ones of the SLC pool, as many as region 0 has logical blocks. -/
def State.layFlush (s : State) : State :=
  let n := (s.man.region 0).size / max 1 (s.man.lbBytes (s.man.region 0))
  (((s.poolBlocks 1).take n).filter fun b => (s.blk b).use == .free).foldl
    (fun (st : State) b => st.setBlk b { st.blk b with use := .flushArea }) s

/-- Released blocks that are not yet erased are erased after a mount (R452). -/
def State.eraseLeft (s : State) : State :=
  (s.hld.blocks.filter fun p => p.2.use == .erasing).foldl (fun (st : State) p => st.nandAdd (.erase p.1)) s

/-- Content that the journal holds and no page yet is gathered again after a restart (R361, R453, R454). -/
def State.regather (s : State) : State :=
  (s.cmt.journal.filter fun r => (r.typ == 1 || r.typ == 3) && decide (s.hld.placedJseq < r.jseq)).foldl
    (fun (st : State) r => st.gather r.upds) s

/-- A successful mount (R452, R465, R482, R489, R503): merges, slots, continuity, integrity, signing indices, events 432 and
472. -/
def State.mount (s : State) (reads : List SealRead) : State :=
  let valid := s.flag pwrStat_AON_VALID
  let done := s.aon.flushDone
  let s1 := ((s.layFlush.eraseLeft.redoMerges.set hldStat_MOUNTED 1).makeSealedKeys).readJournal reads
  let top := s1.newestSeal reads
  let s2 := s1.loadMlog.continuity top.1 top.2 valid done
  let s3 := ((smGet [] s2.live.tables tabKeys).foldl (State.loadSlot reads) s2).logBreak
  let s4 := ((readRecs reads).foldl (State.loadRec reads) s3).loadFlags.storeWaiting
  let s5 := (s4.loadCal.loadReserve valid).logSealedPart
  let s6 : State := { s5 with
    pwr := { s5.pwr with mounted := true }
    aon := { s5.aon with flushDone := false }
    bal := { s5.bal with recs := s5.bal.ckRecs, nodes := s5.bal.ckNodes, evalQ := s5.bal.ckQ } }
  let s7 := (s6.setReg lgbClears (BitVec.ofNat 32 (ofSigned 32 (smGet 0 s6.live.counters 1023)))).lifeUpdate
  ((s7.set pwrStat_PHASE 2).raise 432).raise 472

/-- Whether the parameter pages of the dies agree with the Manifest's storage section (R443, R444): its dies, each with pages of 16 KiB
and its erase block size, and together its blocks (DESIGN CHOICE, log entry 127). -/
def Manifest.geometryFits (m : Manifest) (ds : List DieParam) : Bool :=
  decide (ds.length = m.dies) && (ds.all fun d => d.page == 16384 && d.block == m.blockBytes) &&
    decide ((ds.map (·.count)).sum = m.tlcBlocks + m.slcBlocks)

/-- HOLD_MOUNT: R93, R94, R178, R444, R452, R465, R482, R489, R503, R522, R524. -/
def execHoldMount (a b : List DieParam) (reads : List SealRead) (s : State) : Out :=
  if s.pwr.verified = true ∧ s.pwr.trained = true ∧ s.pwr.mounted = false ∧ s.flag pwrStat_STORAGE_FAIL = false
      ∧ s.flag mftStat_RESCUE = false ∧ s.warned = false ∧ (s.flag pwrStat_HOLD_OK = true ∨ s.pwr.waited = true)
  then s.out (if s.man.geometryFits (a ++ b) then s.mount reads else s.storageFailed)
  else s.out s

/-! ### Replay and rebuild -/

/-- The evidence batches that the Hold keeps (R257, R258). -/
def State.loadBatches (s : State) : State :=
  let rows := fun (t : Nat) => smGet [] s.live.tables t
  let b := Batch.ofRow (s.live.row tabBatch 0)
  let signed := (rows tabSigned).map fun p => ({ bseq := p.1, bytes := bytesOf p.2 } : Batch)
  let s1 : State := { s with val := { s.val with
    batch := if s.live.row tabBatch 0 = [] then {} else b
    closed := (rows tabClosed).map fun p => Batch.ofRow p.2
    signed := signed } }
  let s2 := if s1.val.batch.count = 0 then s1.showBatch else (s1.closeBatch 4).raise 209
  (signed.foldl (fun (st : State) k => st.sendParts st.upPeer (some k.bseq) k.bytes) s2).noteLimit

/-- An intent that has neither a seal nor a withdraw record (R361). -/
def State.openIntent (s : State) : Option Staged :=
  ((s.cmt.journal.filter fun r => r.typ == 2 && !r.damaged &&
      !(s.cmt.journal.any fun k => (k.typ == 3 || k.typ == 4) && k.ref == r.jseq)).getLast?).bind
    fun r => match r.upds with
      | .record _ _ v :: _ => some (Staged.ofNums r.group r.jseq v)
      | _ => none

/-- A port's counter of the cell key goes on 1,024 past its stored value, 0 where none was stored, and is stored there (R178). -/
def State.loadCellCount (s : State) (r : Nat) : State :=
  let n := min (2 ^ 32 - 1) (s.live.rowN tabFcnt r 0 + 1024)
  (s.setPort r { s.port r with cellFcnt := n }).journalUpd [.record tabFcnt r [n]]

/-- An endpoint's link-key counter goes on 1,024 past its stored value and is stored there (R178). -/
def State.loadLinkCount (s : State) (slot : Nat) : State := s.ctxPut slot 212 (be 4 (min (2 ^ 32 - 1) (s.ctxAt slot 212 4 + 1024)))

/-- Frame counters go on 1,024 past their stored values (R178); the site record's sequence too (R286). -/
def State.loadCounters (s : State) : State :=
  let past := match s.live.row tabFcnt siteSeqKey with
    | [] => 0
    | n :: _ => n + 1024
  let s1 := [0, 1].foldl State.loadCellCount s
  let s2 := (s1.ctxSlots.filter fun i => s1.epState i == 1 || s1.epState i == 2).foldl State.loadLinkCount s1
  { s2 with bal := { s2.bal with siteSeq := past } }

/-- At the first start each group takes the sealed part's calendar as its active one (R301). The tariff registers show what is stored. -/
def State.tariffStart (s : State) : State :=
  let s1 := if s.live.row tabFlag 6 ≠ [] then s
    else s.man.calendars.foldl (fun (st : State) p => if p.2 ≠ [] then st.sealedStore tabCalAct p.1 (nums p.2) else st)
      (s.sealedStore tabFlag 6 [1])
  (s1.setReg trfRseq (BitVec.ofNat 32 (s1.live.rowN tabRseq 0 0))).showTrf

/-- Every other Oarsman starts (R438). -/
def State.startOarsmen (s : State) : State :=
  (List.range 15).foldl (fun (st : State) n => if (smGet {} st.man.oar n).code = [] then st else st.oarStart n) s


/-- Milliseconds since t0. -/
def State.sinceT0 (s : State) : Nat := (s.clk.mono - s.pwr.t0) / 1000000

/-- Journal replay is complete (R361, R522): event 293, then what begins with it. -/
def State.replayDone (s : State) : State :=
  let intent := s.openIntent
  let s1 := (s.judgeJournal.regather).loadCounters
  let s2 := (s1.setSat pwrBoot_REPLAY_MS s1.sinceT0).raise 293
  let s3 : State := { s2.trustStart.tariffStart with pwr := { s2.trustStart.tariffStart.pwr with replayed := true } }
  let s4 := ((s3.bilStart intent).tokStart).loadBatches
  let s5 := s4.startOarsmen.startThreads
  let s6 := ((State.ptpInit { s5 with eth := { s5.eth with ptpOn := true } }).attachStart).legalPaint
  let s7 := if s6.fuses.identity || s6.keys.generating.isSome then s6 else s6.startIdentity
  s7.set pwrStat_PHASE 3

/-- JOURNAL_REPLAY_DONE: R70, R178, R217, R257, R337, R361, R371, R386, R416, R420, R438, R487, R522. -/
def execJournalReplayDone (s : State) : Out :=
  s.out (if s.pwr.mounted = true ∧ s.pwr.replayed = false ∧ s.warned = false then s.replayDone else s)

/-- TABLE_REBUILD_DONE: R267, R286, R522; events 233 and 9. -/
def execTableRebuildDone (s : State) : Out :=
  if s.pwr.replayed = true ∧ s.get pwrStat_PHASE = 3 ∧ s.warned = false then
    let s1 := (((s.rebuildCells s.ownCells).recount.raise 233).startSite).set pwrStat_PHASE 4
    s.out ((s1.setSat pwrBoot_READY_MS s1.sinceT0).raise 9)
  else s.out s

/-! ### Sensors and supply -/

/-- A reading of the junction temperature, a two's-complement byte (PWR_TEMP.TJ); below 105 °C a thermal shutdown ends (R521). -/
def State.seeTemp (s : State) (t : Nat) : State :=
  State.set { s with pwr := { s.pwr with heat := s.pwr.heat && decide (105 ≤ toSigned 8 (t % 256)) } } pwrTemp_TJ (t % 256)

/-- TEMPERATURE_WARN: R521; event 7 once until the junction falls again. `t` is a two's-complement byte. -/
def execTemperatureWarn (t : Nat) (s : State) : Out :=
  let s1 := s.seeTemp t
  if toSigned 8 (t % 256) < toSigned 8 (s.get pwrTemp_WARN) ∨ s.pwr.hot = true then s.out s1
  else s.out (State.raise { s1 with pwr := { s1.pwr with hot := true } } 7)

/-- TEMPERATURE_WARN_REARM: R521. -/
def execTemperatureWarnRearm (t : Nat) (s : State) : Out :=
  let s1 := s.seeTemp t
  if toSigned 8 (t % 256) ≤ toSigned 8 (s.get pwrTemp_WARN) - 5 then s.out { s1 with pwr := { s1.pwr with hot := false } }
  else s.out s1

/-- AVS_UPDATE: R511, R513. The operands are the voltages at which every monitor shows MARGIN at each clock. -/
def execAvsUpdate (n400 n800 n1200 : Nat) (s : State) : Out :=
  if s.warned then s.out s
  else if s.pwr.trained = false ∨ s.flag pwrAvs_EN = false then s.out (s.avsSet 800)
  else
    let need := fun (c : Nat) => if c = 0 then n400 else if c = 1 then n800 else n1200
    let top := s.profileClock
    let fit := ((List.range (top + 1)).reverse.find? fun c => decide (need c ≤ 800)).getD 0
    let s1 : State := { s with pwr := { s.pwr with clamp := if fit = top then 3 else fit, need := [n400, n800, n1200] } }
    let clamped := decide (fit ≠ top) || decide (800 < need fit)
    let s2 := (s1.set pwrStat_CLAMPED (ofBool clamped)).raiseIf (clamped && !s.flag pwrStat_CLAMPED) 8
    let v := min 800 (max (avsFloor fit) (need fit))
    s.out (if s2.pwr.clock < fit then (s2.avsSet v).setClock fit else (s2.setClock fit).avsSet v)

/-- VBAT_LOW: R525. -/
def execVbatLow (s : State) : Out := s.out (if s.flag pwrStat_VBAT_LOW then s else (s.set pwrStat_VBAT_LOW 1).raise 6)

/-- ALWAYS_ON_INVALID: R525; every item at once. The seal monitor can no longer prove the loop intact. -/
def execAlwaysOnInvalid (s : State) : Out := s.out { s with aon := {}, xing := { s.xing with rtcValid := false } }

/-- A read of PWR_VIN: both fields, then MIN becomes NOW. -/
def State.vinRead (s : State) (now least : Nat) : Word × State :=
  let s1 := (s.setSat pwrVin_NOW now).setSat pwrVin_MIN least
  (s1.reg pwrVin, s1.setSat pwrVin_MIN now)

/-- VIN_MIN_READ: 22_power_reset.md, PWR_VIN. -/
def execVinMinRead (i : Iface) (now least : Nat) (s : State) : Out := s.out (s.readGate i pwrVin fun s => s.vinRead now least)

/-! ### LPDDR5 errors -/

/-- What a write to SYS_DRAM_ECC does (R552). -/
def State.clrDramEcc (s : State) (v : Word) : State :=
  if wordBits v sysDramEcc_CLR = 1 then (s.set sysDramEcc_UNCORR 0).set sysDramEcc_CORR 0 else s

/-- DRAM_ECC_CLEAR: R552. -/
def execDramEccClear (i : Iface) (s : State) : Out :=
  s.out (s.writeGate i sysDramEcc 0x80000000 fun s => s.clrDramEcc 0x80000000)

end Sys2Proof.Machine
end

