-- ==== Sys2Proof/Machine/ManifestCmd.lean ====
section
/-!
DEFINITION. The Manifest loader (21_manifest.md): the checks of R502, the start from a copy (R503), confirmation (R504), rescue
(R505), and the operations of MFT_CMD (R506).
-/
namespace Sys2Proof.Machine

/-! ### Copies and checks -/

/-- Copy A (0) or B (1). -/
def State.copyOf (s : State) (k : Nat) : MCopy := if k = 0 then s.mft.a else s.mft.b

/-- The state with a copy. -/
def State.setCopy (s : State) (k : Nat) (c : MCopy) : State :=
  if k = 0 then { s with mft := { s.mft with a := c } } else { s with mft := { s.mft with b := c } }

/-- The hash in the current authority entry of a part, 0 open, 1 sealed (R500): none while no entry is fused. -/
def State.authority (s : State) (p : Nat) : Option (List Byte) :=
  let n := if p = 0 then s.fuses.openAuth else s.fuses.sealedAuth
  if n = 0 then none else some (smGet [] s.fuses.authHashes (4 * p + n - 1))

/-- The level floor of a part (R501). -/
def State.floorOf (s : State) (p : Nat) : Nat := if p = 0 then s.fuses.openFloor else s.fuses.sealedFloor

/-- What a part fails of checks 2 to 4 and 6: PART, SECTION, CHECK, CODE. -/
def State.partFails (s : State) (p : Nat) (m : MPart) : List (Nat × Nat × Nat × Nat) :=
  (if m.formOk (if p = 0 then 0x4D504F31 else 0x4D505331) then [] else [(p + 1, 0, 2, 0x02)]) ++
  (m.crcFails.map fun t => (p + 1, t, 2, 0x03)) ++ ((m.placeFails (p == 1)).map fun t => (p + 1, t, 6, 0x08)) ++
  (match s.authority p with
   | some h => if m.auth = h then [] else [(p + 1, 0, 3, 0x04)]
   | none => []) ++
  (if m.sigOk then [] else [(p + 1, 0, 3, 0x05)]) ++
  (if m.level < s.floorOf p then [(p + 1, 0, 4, 0x06)] else [])

/-- The rows of the metrological log in the stored content. -/
def State.mlogRows (s : State) : List (List Nat) := (smGet [] s.live.tables tabMlog).map (·.2)

/-- The first 16 bytes of the sealed part hash in force: of the copy in force, and before a start of the last type 0x08 record of
the metrological log (DEDUCED, log entry 61); none where there has been none. -/
def State.sealedInForce (s : State) : Option (List Byte) :=
  match s.mft.inForce with
  | some k => some (padTo 16 (s.copyOf k).sld.hash)
  | none => ((s.mlogRows.filter fun r => r.getD 1 0 == 8).getLast?).map fun r => ((r.drop 32).take 16).map (BitVec.ofNat 8)

/-- Check 7: whether a sealed part may differ from the one in force. -/
def State.sealedMayChange (s : State) : Bool := s.sealOpen && !s.mlogFull && decide (s.mlogRows.length < 262144)

/-- Everything a copy fails, in no order. -/
def State.copyFails (s : State) (c : MCopy) : List (Nat × Nat × Nat × Nat) :=
  (if c.good then [] else [(0, 0, 1, 0x01)]) ++ s.partFails 0 c.opn ++ s.partFails 1 c.sld ++
  (if natBit c.variants (s.fuses.variant - 1) then [] else [(0, 0, 5, 0x07)]) ++
  (match s.sealedInForce with
   | some h => if h = padTo 16 c.sld.hash ∨ s.sealedMayChange then [] else [(2, 0, 7, 0x09)]
   | none => []) ++ s.contentFails c.man ++ c.fwFails ++ c.fails

/-- The check that fails first (R502), and within a check the container, then the open part, then the lowest section. -/
def State.firstFail (s : State) (c : MCopy) : Option (Nat × Nat × Nat × Nat) :=
  let key := fun (f : Nat × Nat × Nat × Nat) => f.2.2.1 * 1048576 + f.1 * 65536 + f.2.1 * 256 + f.2.2.2
  (sortBy (fun a b => decide (key a < key b)) (s.copyFails c)).head?

/-- A rejection (R502): MFT_ERR, event 473 and a Logbook record; a firmware image that fails adds event 467 and a record (R492). `copy` is 0
for A and for the staged image. -/
def State.rejectCopy (s : State) (copy : Nat) (f : Nat × Nat × Nat × Nat) : State :=
  let w := 2 ^ 31 + copy % 2 * 2 ^ 30 + f.1 % 4 * 2 ^ 28 + f.2.1 % 256 * 2 ^ 16 + f.2.2.1 % 256 * 2 ^ 8 + f.2.2.2 % 256
  let s1 := (s.setReg mftErr (BitVec.ofNat 32 w)).raiseLog 473 (be 4 w)
  if f.2.2.1 = 16 then s1.raiseLog 467 (be 4 w) else s1

/-! ### Confirmation -/

/-- A hash fused as the next authority entry of a part. -/
def State.fuseAuth (s : State) (p : Nat) (h : List Byte) : State :=
  let n := if p = 0 then s.fuses.openAuth else s.fuses.sealedAuth
  let f : Fuses := { s.fuses with authHashes := smPut [] s.fuses.authHashes (4 * p + n) h }
  let g : Fuses := if p = 0 then { f with openAuth := n + 1 } else { f with sealedAuth := n + 1 }
  { s with fuses := g }

/-- The authorities of a confirmed part (R500): its own hash as entry 0, the sealed part's only while the seal is OPEN; then
NEXT_AUTH as the next entry, with event 479, unless it is current already or all four are used. -/
def State.confirmPart (s : State) (p : Nat) (m : MPart) : State :=
  let s1 := if (s.authority p).isNone && (p == 0 || s.get metSealStat_STATE == 0) then s.fuseAuth p m.auth else s
  let n := if p = 0 then s1.fuses.openAuth else s1.fuses.sealedAuth
  if m.nextAuth = [] ∨ n = 0 ∨ 4 ≤ n ∨ s1.authority p = some m.nextAuth then s1
  else (s1.fuseAuth p m.nextAuth).raise 479

/-- Steps 2 and 3 of R504: level floors and authorities. -/
def State.raiseFloors (s : State) (c : MCopy) : State :=
  let f : Fuses := { s.fuses with openFloor := max s.fuses.openFloor c.opn.level, sealedFloor := max s.fuses.sealedFloor c.sld.level }
  let s1 : State := { s with fuses := f }
  (s1.confirmPart 0 c.opn).confirmPart 1 c.sld

/-- MFT_STAT for the copy in force. -/
def State.showCopies (s : State) : State :=
  match s.mft.inForce with
  | none => s
  | some k =>
    let c := s.copyOf k
    let o := s.copyOf (1 - k)
    (((s.set mftStat_INFORCE k).set mftStat_TRIAL (ofBool (decide (c.st ≠ 0xF0)))).set mftStat_OTHER_STATE
      (if o.good then o.st else 0)).set mftStat_INFORCE_STATE c.st

/-! ### The start from a copy -/

/-- The entries of the KEYS sections (R497): those wrapped for another EUI-64 are ignored, and one that does not unwrap leaves its slot
empty (DESIGN CHOICE, log entry 139); slots that the sealed part names are SEALED. -/
def State.loadKeys (s : State) : State :=
  s.man.keyEntries.foldl (fun (st : State) e =>
    if e.slot < 8 ∨ 1023 < e.slot ∨ (e.eui.isSome ∧ e.eui ≠ some st.fuses.eui) then st
    else
      let a := (newAttr e.attr &&& 0xDFFFFFFF#32) ||| (if e.isSealed then 0x20000000#32 else 0)
      match e.eui with
      | none => st.setSlot e.slot { attr := a, key := e.key }
      | some _ => match aesUnwrap st.fuses.transport e.key with
        | some k => st.setSlot e.slot { attr := a, key := k.take ({ attr := a } : Slot).len }
        | none => st) s

/-- Cores that the default profile parks (R37). -/
def State.parkAtStart (s : State) : State :=
  (List.range 8).foldl (fun (st : State) n => st.setCore n { st.core n with parked := decide (profileCores st.man.defaultProfile ≤ n) }) s

/-- A verified copy is started from (R499, R503, R504): its Manifest is in force. Oarsman 15 starts (R438). -/
def State.startFrom (s : State) (k : Nat) (fb : Bool) : State :=
  let c := s.copyOf k
  let s1 := if c.st = 0xF0 then s.raiseFloors c else s
  let s2 : State := { s1 with man := c.man, mft := { s1.mft with inForce := some k, trialAt := s1.clk.mono } }
  let s2b := s2.loadRegs.loadCells.numberCells.loadKeys.parkAtStart
  let s3 : State := { (s2b.setClock s2b.profileClock) with
    pwr := { (s2b.setClock s2b.profileClock).pwr with engines := profileEngines c.man.defaultProfile } }
  let s4 := ((s3.setReg mftSeq (BitVec.ofNat 32 c.seq)).setWords (mftHashOpen 0) (words32 8 (padTo 32 c.opn.hash))).setWords
    (mftHashSealed 0) (words32 8 (padTo 32 c.sld.hash))
  let s5 := ((s4.showCopies).set mftStat_FALLBACK (ofBool fb)).raiseIf fb 474
  let s6 := if (smGet {} c.man.oar 15).code = [] then s5 else s5.oarStart 15
  State.set { s6 with pwr := { s6.pwr with verified := true } } pwrStat_PHASE 1

/-- Rescue (R505). -/
def State.enterRescue (s : State) : State := (s.set mftStat_RESCUE 1).raise 475

/-- A copy whose verification fails (R503 step 4). -/
def State.dropCopy (s : State) (k : Nat) (f : Nat × Nat × Nat × Nat) : State :=
  (s.rejectCopy k f).setCopy k ((s.copyOf k).setSt 0x00)

/-- The next trial STATE (Copy states table). -/
def nextTrial (st : Nat) : Nat := if st = 0xFF then 0xFE else if st = 0xFE then 0xFC else 0xF8

/-- The copy of higher SEQ among some; copy A where they are equal (log entry 61). -/
def State.newest (s : State) (ks : List Nat) : Option Nat :=
  match ks with
  | [] => none
  | [k] => some k
  | k :: j :: _ => if (s.copyOf k).seq < (s.copyOf j).seq then some j else some k

/-- Verification of the preferred copy, then of the other candidate where that one is confirmed (R503 step 4, R504). -/
def State.verifyFrom (s : State) (ks : List Nat) (top : Option Nat) : State :=
  match s.newest ks with
  | none => s.enterRescue
  | some k =>
    let c := s.copyOf k
    let s1 := if c.st = 0xF0 then s else (s.setCopy k (c.setSt (nextTrial c.st))).raise 477
    match s1.firstFail (s1.copyOf k) with
    | none => s1.startFrom k (decide (top ≠ some k))
    | some f =>
      let s2 := s1.dropCopy k f
      match ks.find? fun j => decide (j ≠ k) && (s2.copyOf j).st == 0xF0 with
      | none => s2.enterRescue
      | some j => match s2.firstFail (s2.copyOf j) with
        | none => s2.startFrom j (decide (top ≠ some j))
        | some g => (s2.dropCopy j g).enterRescue

/-- Steps 1 to 4 of R503. -/
def State.chooseCopy (s : State) : State :=
  let cands := [0, 1].filter fun k => (s.copyOf k).good && (s.copyOf k).st != 0
  let worn := cands.filter fun k => (s.copyOf k).st == 0xF8
  let s1 := worn.foldl (fun (st : State) k => st.dropCopy k (0, 0, 0, 0x0C)) s
  s1.verifyFrom (cands.filter fun k => (s.copyOf k).st != 0xF8) (s.newest cands)

/-- MANIFEST_VERIFIED: R438, R497, R499, R500, R502 to R505; once after each reset release. -/
def execManifestVerified (s : State) : Out :=
  s.out (if s.get pwrReset_CAUSE ≠ 0 ∧ s.pwr.verified = false ∧ s.flag mftStat_RESCUE = false then s.chooseCopy else s)

/-! ### Operations -/

/-- What the bytes of a staged image hold, where a write to MFT_CMD comes over a bus and not as a command of its own; none where they
hold no copy. The spec gives the sections' contents and no byte layout (log entry 8). -/
opaque stagedContent : List Byte → Option MCopy

/-- A result of MFT_CMD. -/
def State.mftResult (s : State) (r : Nat) : State := s.set mftCmdStat_RESULT r

/-- The staged bytes fail a check (R502, R506). -/
def State.rejectStaged (s : State) (f : Nat × Nat × Nat × Nat) : State := (s.rejectCopy 0 f).mftResult 0x04

/-- OP 0x1: every check, nothing written. -/
def State.mftCheck (s : State) (m : MCopy) : State :=
  match s.firstFail m with
  | some f => s.rejectStaged f
  | none => s.mftResult 0x00

/-- The copy that a stage writes (R505, R506). -/
def State.stageTarget (s : State) : Nat :=
  match s.mft.inForce with
  | some k => 1 - k
  | none =>
    let rank := fun (c : MCopy) => if c.good then c.seq + 1 else 0
    let bad := fun (c : MCopy) => !c.good || c.st == 0
    if bad s.mft.a && bad s.mft.b then 0 else if rank s.mft.b < rank s.mft.a then 1 else 0

/-- OP 0x2: the checks, then the copy is being written, its header sector erased first; a copy in force that is in trial bars it. -/
def State.mftStage (s : State) (m : MCopy) : State :=
  if s.flag mftStat_TRIAL then s.mftResult 0x05
  else match s.firstFail m with
    | some f => s.rejectStaged f
    | none =>
      let k := s.stageTarget
      let s1 := (s.setCopy k (s.copyOf k).erased).showCopies
      State.set { s1 with mft := { s1.mft with staging := some m } } mftCmdStat_BUSY 1

/-- OP 0x3: at once in rescue, with cause 0x06; else it waits for its boundary. -/
def State.mftApply (s : State) : State :=
  if s.flag mftStat_RESCUE then s.doReset 0x06
  else State.set { s with mft := { s.mft with applyDue := true } } mftCmdStat_BUSY 1

/-- OP 0x4 (R504); invalid where no copy is in trial (log entry 61). -/
def State.mftConfirm (s : State) : State :=
  match s.mft.inForce with
  | some k =>
    if s.flag mftStat_TRIAL then
      let s1 := s.setCopy k ((s.copyOf k).setSt 0xF0)
      (((s1.raiseFloors (s1.copyOf k)).showCopies).raise 478).mftResult 0x00
    else s.mftResult 0x01
  | none => s.mftResult 0x01

/-- OP 0x5; invalid in rescue, where no copy is in force (log entry 61). -/
def State.mftInvalidate (s : State) : State :=
  match s.mft.inForce with
  | some k => ((s.setCopy (1 - k) ((s.copyOf (1 - k)).setSt 0x00)).showCopies).mftResult 0x00
  | none => s.mftResult 0x01

/-- What a write to MFT_CMD does (R506, R507): nothing while an operation runs, 0x03 during a warning. `m` is what the staged
bytes hold. -/
def State.mftOp (s : State) (op : Nat) (m : MCopy) : State :=
  if s.flag mftCmdStat_BUSY then s
  else if s.warned then s.mftResult 0x03
  else if op = 1 then s.mftCheck m
  else if op = 2 then s.mftStage m
  else if op = 3 then s.mftApply
  else if op = 4 then s.mftConfirm
  else if op = 5 then s.mftInvalidate
  else s.mftResult 0x01

/-- A write of an OP to MFT_CMD. -/
def State.mftWrite (s : State) (i : Iface) (op : Nat) (m : MCopy) : State :=
  s.writeGate i mftCmd (BitVec.ofNat 32 (op * 2 ^ 28)) fun s => s.mftOp op m

/-- MANIFEST_CHECK: R502, R506, R507. -/
def execManifestCheck (i : Iface) (m : MCopy) (s : State) : Out := s.out (s.mftWrite i 1 m)

/-- MANIFEST_STAGE: R502, R505 to R507. -/
def execManifestStage (i : Iface) (m : MCopy) (s : State) : Out := s.out (s.mftWrite i 2 m)

/-- MANIFEST_STAGE_COMPLETE: R506; STATE 0xFF, event 476. -/
def execManifestStageComplete (s : State) : Out :=
  s.out (match s.mft.staging with
    | none => s
    | some m =>
      let s1 := s.setCopy s.stageTarget (m.setSt 0xFF)
      let s2 : State := { s1 with mft := { s1.mft with staging := none } }
      (((s2.set mftCmdStat_BUSY 0).mftResult 0x00).showCopies).raise 476)

/-- MANIFEST_APPLY: R505, R506. -/
def execManifestApply (i : Iface) (s : State) : Out := s.out (s.mftWrite i 3 {})

/-- MANIFEST_APPLY_BOUNDARY: R362, R506, R562; at a superframe boundary without a staged boundary group. -/
def execManifestApplyBoundary (vin : Nat) (s : State) : Out :=
  s.out (if s.mft.applyDue = true ∧ s.xing.num % 32 = 0 ∧ s.flag bilStat_STAGED = false ∧ s.warned = false
         then s.powerWarn (some 0x06) vin else s)

/-- MANIFEST_CONFIRM: R500, R501, R504. -/
def execManifestConfirm (i : Iface) (s : State) : Out := s.out (s.mftWrite i 4 {})

/-- MANIFEST_INVALIDATE: R506. -/
def execManifestInvalidate (i : Iface) (s : State) : Out := s.out (s.mftWrite i 5 {})

/-- Seconds before a trial expires (MFT_TRIAL), 0 when not in trial. -/
def State.trialLeft (s : State) : Nat :=
  match s.mft.inForce with
  | some k => if s.flag mftStat_TRIAL then (s.copyOf k).confirmS - (s.clk.mono - s.mft.trialAt) / nsPerSec else 0
  | none => 0

/-- TRIAL_EXPIRY: R504, R562; CONFIRM_S seconds after the start, cause 0x07. -/
def execTrialExpiry (vin : Nat) (s : State) : Out :=
  s.out (if s.flag mftStat_TRIAL = true ∧ s.trialLeft = 0 then s.powerWarn (some 0x07) vin else s)

end Sys2Proof.Machine
end

