-- ==== Sys2Proof/Machine/TestBlk.lean ====
section
/-!
DEFINITION. The commands of the test block (23_test_perturbation.md): unlocking, arming, disarming, the end of a delay.
-/
namespace Sys2Proof.Machine

/-- A result of the test block (Test results table). -/
def State.tstResult (s : State) (r : Nat) : State := s.set tstStat_RESULT r

/-- An unlock or arm that is refused (R529, R536): counted, event 484, and but for result 0x06 a record. -/
def State.tstRefuse (s : State) (r : Nat) (detail : List Byte) : State :=
  let s1 := ((s.tstResult r).bump tstStat_REFUSED 1).raise 484
  if r = 0x06 then s1 else s1.logEvt 484 detail

/-- The first write of the unlock sequence (R529). -/
def State.unlockFirst (s : State) (i : Iface) : State :=
  { s with tst := { s.tst with first := some (i.window, s.clk.mono) } }

/-- The second write (R529): within 1 ms and from the same window, and not under a warning. -/
def State.unlockSecond (s : State) (i : Iface) : State :=
  let s1 : State := { s with tst := { s.tst with first := none } }
  let d := testDetail0 i.code
  if s.warned then s1.tstRefuse 0x05 d
  else match s.tst.first with
    | some (w, t) =>
      if w = i.window ∧ s.clk.mono - t ≤ 1000000 then ((s1.set tstStat_UNLOCKED 1).tstResult 0x00).raiseLog 480 d
      else s1.tstRefuse 0x01 d
    | none => s1.tstRefuse 0x01 d

/-- What a write to TST_CTRL does by its KEY (R529). -/
def State.tstKey (s : State) (i : Iface) (v : Word) : State :=
  let k := wordBits v tstCtrl_KEY
  if k = 0x00 then (s.lockTest i.code 0x05).tstResult 0x00
  else if k = 0x3C then s.unlockFirst i
  else if k = 0xC3 then s.unlockSecond i
  else State.tstRefuse { s with tst := { s.tst with first := none } } 0x01 (testDetail0 i.code)

/-- A TST_CTRL word with a KEY; LIMIT is written as it stands. -/
def State.keyWord (s : State) (k : Nat) : Word := BitVec.ofNat 32 (k * 2 ^ 24 + s.get tstCtrl_LIMIT)

/-- TEST_UNLOCK_FIRST: R529. -/
def execTestUnlockFirst (i : Iface) (s : State) : Out :=
  s.out (s.writeGate i tstCtrl (s.keyWord 0x3C) fun st => st.tstKey i (s.keyWord 0x3C))

/-- TEST_UNLOCK_SECOND: R529, R535. -/
def execTestUnlockSecond (i : Iface) (s : State) : Out :=
  s.out (s.writeGate i tstCtrl (s.keyWord 0xC3) fun st => st.tstKey i (s.keyWord 0xC3))

/-- TEST_LOCK: R529, R535. -/
def execTestLock (i : Iface) (s : State) : Out :=
  s.out (s.writeGate i tstCtrl (s.keyWord 0x00) fun st => st.tstKey i (s.keyWord 0x00))

/-- The entry that TST_PSEL selects. -/
def State.tstSel (s : State) : Nat := s.get tstPsel_ENTRY

/-- Whether KIND, TARGET and PARAM keep the Perturbation kinds table (R531). -/
def State.perturbOk (s : State) (kind t a b : Nat) : Bool :=
  match kind with
  | 1 => s.qUsed t && decide (a ≤ b)
  | 2 => s.qUsed t
  | 3 => s.qUsed t && s.flag (whfQCfg_LAUNCH t)
  | 4 => decide (t < 256)
  | 5 => decide (t < 4) && decide (a ≤ 5000) && decide (b ≤ 5000)
  | 6 => s.qUsed t
  | 7 => decide (a < 16) && decide (a * 65536 + t < s.get eptCfg_CAPACITY)
  | 8 => decide (t ≤ 6)
  | 9 => decide (t ≤ 2)
  | _ => false

/-- A queue of the sealed domain (R533). -/
def State.sealedQueue (s : State) (q : Nat) : Bool :=
  let r := s.man.roles
  let o := fun n => smGet {} s.man.oar n
  decide (q + 1 ∈ [r.sealedIn, r.sealedOut, r.tariffIn, r.tokenIn]) ||
  decide (q ∈ (o 12).produces ++ (o 12).consumes ++ (o 13).produces ++ (o 13).consumes)

/-- Whether a staged sealed action names a context slot (R533). -/
def State.sealedNames (s : State) (slot : Nat) : Bool :=
  s.cmt.groups.any fun p => (p.2.st == .opened || p.2.st == .prestaged) &&
    (p.2.issuer == 0x3F || p.2.issuer == 12 || p.2.issuer == 13) &&
    p.2.actions.any fun a => a.kind == 3 && a.target == slot

/-- Whether the target lies in the sealed domain or feeds it (R533). -/
def State.sealedTarget (s : State) (kind t a : Nat) : Bool :=
  ((kind == 1 || kind == 2 || kind == 3 || kind == 6) && s.sealedQueue t) || (kind == 7 && s.sealedNames (a * 65536 + t))

/-- The refusal of an arm, 0x00 for none (R530, R531, R533, R534, R536). -/
def State.armResult (s : State) (n kind t a b : Nat) : Nat :=
  if s.warned then 0x05
  else if !s.flag tstStat_UNLOCKED then 0x01
  else if !s.perturbOk kind t a b then 0x02
  else if s.sealedTarget kind t a then 0x03
  else if kind = 9 ∧ s.get metSealStat_STATE = 1 then 0x04
  else if s.lgbRoom < (if (s.entry n).armed then 1 else 2) then 0x06
  else 0x00

/-- An entry is armed or changed (R530, R535, R536): event 482, its record, and a place for the disarm record. A clock fault of
code 1 unlocks the servo (R531). -/
def State.arm (s : State) (i : Iface) (n : Nat) (v : Word) : State :=
  let e := s.entry n
  let e1 : TEntry := { e with armed := true, kind := wordBits v tstPcfg_KIND, target := wordBits v tstPcfg_TARGET
                              a := bitsOf e.param 31 16, b := bitsOf e.param 15 0
                              since := s.clk.mono, hits := 0, count := 0, win := i.code }
  let s1 := (s.setEntry n e1).set tstStat_ARMED (s.get tstStat_ARMED ||| 2 ^ n)
  let s2 := ((s1.tstResult 0x00).raise 482).logEvt 482 (s1.testDetail n i.code 0)
  let s3 : State := if e.armed then s2 else { s2 with lgb := { s2.lgb with claimed := s2.lgb.claimed + 1 } }
  if e1.kind = 9 ∧ e1.target = 1 then s3.unlockServo.trustEval else s3

/-- What a write to TST_PCFG does (R530). -/
def State.tstPcfgWrite (s : State) (i : Iface) (v : Word) : State :=
  let n := s.tstSel
  let s1 := s.setEntry n { s.entry n with pcfg := v &&& 0x0F00FFFF#32 }
  if wordBits v tstPcfg_EN = 0 then (s1.disarm n i.code 0x01).tstResult 0x00
  else
    let p := (s1.entry n).param
    let k := wordBits v tstPcfg_KIND
    let t := wordBits v tstPcfg_TARGET
    let r := s1.armResult n k t (bitsOf p 31 16) (bitsOf p 15 0)
    if r = 0x00 then s1.arm i n v
    else s1.tstRefuse r (be 1 n ++ be 1 k ++ be 2 t ++ be 4 p.toNat ++ be 1 i.code ++ be 1 0 ++ be 4 0)

/-- What a write to TST_PARAM does: the selected entry's parameters. -/
def State.tstParamWrite (s : State) (v : Word) : State := s.setEntry s.tstSel { s.entry s.tstSel with param := v }

/-- ENTRY_ARM: R530, R531, R533 to R536, R539; `v` is the word with EN 1. -/
def execEntryArm (i : Iface) (v : Word) (s : State) : Out :=
  s.out (s.writeGate i tstPcfg (v ||| 0x80000000#32) fun s => s.tstPcfgWrite i (v ||| 0x80000000#32))

/-- ENTRY_DISARM: R530, R535; `v` is the word with EN 0. -/
def execEntryDisarm (i : Iface) (v : Word) (s : State) : Out :=
  s.out (s.writeGate i tstPcfg (v &&& 0x7FFFFFFF#32) fun s => s.tstPcfgWrite i (v &&& 0x7FFFFFFF#32))

/-- Seconds that an entry stays armed (TST_CTRL.LIMIT). -/
def State.tstLimit (s : State) : Nat := max 1 (min 3600 (s.get tstCtrl_LIMIT))

/-- ENTRY_LIMIT_EXPIRY: R530, R535; LIMIT seconds after the arm, cause 0x02. -/
def execEntryLimitExpiry (n : Nat) (s : State) : Out :=
  let e := s.entry (n % 8)
  s.out (if e.since + s.tstLimit * nsPerSec ≤ s.clk.mono then s.disarm (n % 8) e.win 0x02 else s)

/-- PERTURBED_ITEM_VISIBLE: R395, R531; the first delayed item becomes visible when its delay has passed. -/
def execPerturbedItemVisible (q : Nat) (s : State) : Out :=
  let x := s.q q
  s.out (match (List.range x.items.length).find? fun k => (x.items.getD k {}).delayed with
    | none => s
    | some k =>
      let it := x.items.getD k {}
      if s.clk.mono < it.dueAt then s
      else s.touchQ q fun s => s.setQ q { x with items := x.items.set k { it with delayed := false }
                                                 idleRun := decide (s.get (whfQTmo_TIMEOUT q) ≠ 0) || x.idleRun })

end Sys2Proof.Machine
end

