-- ==== Sys2Proof/Machine/Flags.lean ====
section
/-!
DEFINITION. What a register shows when it is read: its stored word, with the status fields that the spec derives from other state
(queues, threads, Oarsmen, groups, caches, the Logbook, keys, the Manifest copies, the test block) computed from that state.
-/
namespace Sys2Proof.Machine

/-- A word with some of its fields replaced. -/
def overlay (w : Word) (l : List (Fld × Nat)) : Word := l.foldl (fun v p => putBits v p.1.hi p.1.lo p.2) w

/-- A number held within a field. -/
def Fld.sat (f : Fld) (v : Nat) : Nat := min v f.top

/-- The queue of a Wharf register address, and its offset in the queue's 32 bytes. -/
def whfPlace (a : Nat) : Nat × Nat := ((a - 0xC00000) / 32, (a - 0xC00000) % 32)

/-- Whether the head item or the lane head is held (R63, R401). -/
def Queue.headHeld (x : Queue) : Bool := x.held || match x.lane with
  | l :: _ => l.hold
  | [] => false

/-- Wharf registers (R393, R398, R399, R403). -/
def State.whfShown (s : State) (a : Nat) (w : Word) : Word :=
  if a < 0xC02000 then
    let q := (whfPlace a).1
    let x := s.q q
    match (whfPlace a).2 with
    | 0x8 => overlay w [(whfQStat_FULL q, ofBool (s.qUsed q && decide (s.qFree q < 258))), (whfQStat_HELD q, ofBool x.headHeld),
        (whfQStat_WAIT q, ofBool (decide (x.waiters ≠ []))), (whfQStat_ITEMS q, x.undelivered)]
    | 0xC => wd (s.qFree q)
    | 0x14 => wd x.head
    | 0x18 => wd x.mark
    | _ => w
  else if 0xC04000 ≤ a ∧ a < 0xC04020 then
    let k := (a - 0xC04000) / 4
    wd (((List.range 32).map fun b => ofBool (s.qPending (32 * k + b)) * 2 ^ b).sum)
  else w

/-- Thread state codes (Thread states table, R406). -/
def TState.code : TState → Nat
  | .free => 0
  | .ready => 1
  | .prefetched => 2
  | .running => 3
  | .waiting => 4
  | .taking => 5

/-- The FRY_SELF_ registers of the thread whose core reads (R411, R422); other readers read 0. -/
def State.selfWaitShown (s : State) : Iface → Word
  | .core c => match s.running c with
    | some t => wd (s.thr t).lastEvent
    | none => 0
  | _ => 0

/-- Ferryman registers (R406 to R409). -/
def State.fryShown (s : State) (i : Iface) (a : Nat) (w : Word) : Word :=
  let ts := s.fry.threads.map (·.2)
  if a = fryStat then
    overlay 0 [(fryStat_READY, (ts.filter fun t => t.st == .ready || t.st == .prefetched).length),
      (fryStat_LIVE, (ts.filter fun t => t.st != .free).length)]
  else if fryCore 0 ≤ a ∧ a ≤ fryCore 7 then
    let n := (a - fryCore 0) / 4
    let c := s.core n
    overlay w [(fryCore_PARKED n, ofBool c.parked), (fryCore_RUN_VALID n, ofBool c.running.isSome),
      (fryCore_SLOT_VALID n, ofBool (c.slot.isSome && c.loaded)), (fryCore_SLOT n, c.slot.getD 0), (fryCore_RUNNING n, c.running.getD 0)]
  else if a = fryThrStat then
    let t := s.thr (s.get fryThrSel_THREAD)
    overlay 0 [(fryThrStat_STATE, t.st.code), (fryThrStat_HOLDS, ofBool t.flow.isSome), (fryThrStat_PRIO, t.prio),
      (fryThrStat_AFFINITY, t.affinity), (fryThrStat_FLOW, t.flow.getD 0)]
  else if a = frySelfWait then s.selfWaitShown i
  else w

/-- STATE codes of OAR_STAT_n. -/
def OState.code : OState → Nat
  | .notLoaded => 0
  | .running => 1
  | .waiting => 2
  | .halted => 3
  | .trapped => 4

/-- Oarsman registers (R432, R437, R438, R442). -/
def State.oarShown (s : State) (a : Nat) (w : Word) : Word :=
  let n := (a - 0xE00000) / 64
  if n < 16 then
    let o := s.oarN n
    match (a - 0xE00000) % 64 with
    | 0x0 => overlay 0 [(oarCtrl_HALT n, ofBool o.haltReq)]
    | 0x4 => overlay 0 [(oarStat_STATE n, o.st.code), (oarStat_JOBS n, o.outstanding), (oarStat_PC n, o.pc)]
    | 0x10 =>
      let p := smGet {} s.man.oar n
      overlay w [(oarProg_SEALED n, ofBool (p.code ≠ [] ∧ (n = 12 ∨ n = 13))), (oarProg_DATA n, divUp p.data.length 4),
        (oarProg_CODE n, p.code.length)]
    | _ => w
  else w

/-- Commit group registers (R345, R350). -/
def State.cmtShown (s : State) (a : Nat) (w : Word) : Word :=
  if a = cmtStat then
    let gs := s.cmt.groups.map (·.2)
    overlay 0 [(cmtStat_FREE_PLACES, 7168 - s.placesUsed false), (cmtStat_VISIBLE, (gs.filter fun g => g.st == .visible).length),
      (cmtStat_HELD, (gs.filter Group.held).length)]
  else if a = cmtGstat then s.gstatWord
  else w

/-- The Logbook's status registers (R470, R475). -/
def State.lgbShown (s : State) (a : Nat) (w : Word) : Word :=
  if a = lgbStat then overlay w [(lgbStat_BUF, s.lgb.buf.length)]
  else if a = lgbFirst then wd s.lgb.first
  else if a = lgbNext then wd s.lgb.next
  else if a = lgbOphours then wd (s.aon.opSeconds / 3600)
  else if a = lgbPcycle then wd s.aon.powerCycles
  else w

/-- A register that stands in Hold, validation, endpoint, balance, Gangway and metrology blocks and shows other state. -/
def State.tableShown (s : State) (a : Nat) (w : Word) : Word :=
  if a = hldStat then overlay w [(hldStat_BACKLOG, hldStat_BACKLOG.sat (divUp s.backlog 1024))]
  else if a = hldSpare 0 then overlay w [(hldSpare_SPARES 0, smGet 0 s.man.spares 0)]
  else if a = hldSpare 1 then overlay w [(hldSpare_SPARES 1, smGet 0 s.man.spares 1)]
  else if a = valStat then
    overlay w [(valStat_INFLIGHT, (s.val.recs.filter fun p => p.2.isSome).length + s.val.reasm.length),
      (valStat_REASM, s.val.reasm.length),
      (valStat_GROUPS, ofBool s.val.group.isSome)]
  else if a = valVcnt then wd (smGet 0 s.val.vcnt (s.get valVcntSel_VERDICT))
  else if a = eptTxnStat then
    overlay w [(eptTxnStat_WAITERS, (s.txn.waiting.map TxnWaiter.issuer).dedup.length),
      (eptTxnStat_INFLIGHT, (s.txn.used.filter fun p => p.2.isSome).length)]
  else if a = eptCacheStat then
    overlay w [(eptCacheStat_PINNED, s.pinned.length), (eptCacheStat_DIRTY, (s.ept.cache.filter fun p => match p.2 with
      | some e => e.dirty
      | none => false).length)]
  else if eptStage 2 ≤ a ∧ a ≤ eptStage 11 then (if s.ept.hideKey then 0 else w)
  else if a = balStat then overlay w [(balStat_BUSY, ofBool s.bal.run.isSome)]
  else if a = trfQryRes then (if s.get trfClockTrust_STATE = 3 then 0 else w)
  else if a = gwyPeerStat then
    let p := s.peer (s.get gwyPeerSel_CHIP)
    overlay 0 [(gwyPeerStat_UP, ofBool p.up), (gwyPeerStat_KEYGEN, s.genFor (s.get gwyPeerSel_CHIP)), (gwyPeerStat_OUTSTANDING, p.out.length)]
  else if a = gwyCnt then
    let p := s.peer (s.get gwyPeerSel_CHIP)
    overlay 0 [(gwyCnt_RETRANS, gwyCnt_RETRANS.sat p.retrans), (gwyCnt_TAGFAIL, gwyCnt_TAGFAIL.sat p.tagFail),
      (gwyCnt_DUP, gwyCnt_DUP.sat p.dup)]
  else if metMlogData 0 ≤ a ∧ a ≤ metMlogData 15 then
    let n := s.get metMlogSel_INDEX
    if n < s.get metMlogStat_COUNT then wd (beAt ((s.live.row tabMlog n).map (BitVec.ofNat 8)) (a - metMlogData 0) 4) else 0
  else w

/-- Key, Manifest, panel and power registers (R371, R479, R500, R501, R504, R505). -/
def State.sysShown (s : State) (i : Iface) (a : Nat) (w : Word) : Word :=
  let auth := fun (n : Nat) => if n = 0 then 4 else n - 1
  if a = keyAttr then (s.slot (s.getOf i keySel_SLOT)).attr
  else if a = keyEuiHi then wd (s.fuses.eui / 2 ^ 32)
  else if a = keyEuiLo then wd s.fuses.eui
  else if a = mftFloor then
    overlay 0 [(mftFloor_SEALED_LVL, s.fuses.sealedFloor), (mftFloor_OPEN_LVL, s.fuses.openFloor),
      (mftFloor_SEALED_AUTH, auth s.fuses.sealedAuth), (mftFloor_OPEN_AUTH, auth s.fuses.openAuth)]
  else if a = mftTrial then wd s.trialLeft
  else if a = mftRescueWin then (if s.flag mftStat_RESCUE then w else 0)
  else if a = panTokLock then overlay w [(panTokLock_REMAIN, if s.tok.locked then s.tokEnd - s.aon.opSeconds else 0)]
  else w

/-- Registers of the selected test entry (R530). -/
def State.tstShown (s : State) (a : Nat) (w : Word) : Word :=
  let e := s.entry s.tstSel
  if a = tstPcfg then overlay e.pcfg [(tstPcfg_EN, ofBool e.armed)]
  else if a = tstParam then e.param
  else if a = tstPstat then
    overlay 0 [(tstPstat_ARMED, ofBool e.armed),
      (tstPstat_REMAIN, if e.armed then s.tstLimit - (s.clk.mono - e.since) / nsPerSec else 0), (tstPstat_HITS, e.hits)]
  else w

/-- What an interface reads at a register address, leaving effects aside. -/
def State.shown (s : State) (i : Iface) (a : Nat) : Word :=
  let w := s.reg (regKey i a)
  match a / 0x100000 with
  | 0xA => s.cmtShown a w
  | 0xC => s.whfShown a w
  | 0xD => s.fryShown i a w
  | 0xE => s.oarShown a w
  | 0x10 => s.lgbShown a w
  | 0x11 => s.sysShown i a w
  | 0x12 => s.sysShown i a w
  | 0xB => s.sysShown i a w
  | 0x14 => s.tstShown a w
  | _ => s.tableShown a w

end Sys2Proof.Machine
end

