-- ==== Sys2Proof/Machine/Hold.lean ====
section
/-!
DEFINITION. The Hold's commands (18_hold.md): NAND programs, erases and reads that complete, placement, merges, the
HLD_CMD operations, the stream query. HOLD_MOUNT and FLUSH_COMPLETE stand in Power.lean, with start-up and reset.
-/
namespace Sys2Proof.Machine

/-- Map records are durable (R454): discards stand, merges go on, placements count. -/
def State.mapsDone (s : State) (n : Nat) : State :=
  let s1 : State := { s with hld := { s.hld.mapDurable with placedJseq := max s.hld.placedJseq s.placedTo } }
  (s1.nandDone .mapRec).mapImage n

/-- A page's program is done (R453, R454): it is placed, with a map record, or waits again where no block can take it. -/
def State.pageDone (s : State) (l p : Nat) : State :=
  let r := s.placePage l p
  if r.2 then
    let s1 := r.1.mapRecord
    State.nandDone { s1 with hld := { s1.hld with poisonPages := s1.hld.poisonPages.filter (· ≠ l * 65536 + p) } } (.place l p)
  else r.1.nandAgain (.place l p)

/-- What a NAND program that succeeded has made durable or placed (R453, R454, R471). -/
def State.programmed (s : State) (job : NandJob) : State :=
  match job with
  | .journal n => s.flushGrow n false
  | .mapRecords n => (s.flushGrow n true).mapsDone n
  | .logbook k n => (s.flushGrow n false).lgbDrain k
  | .page l p => s.pageDone l p

/-- Whether the work of a program still waits for its turn (R455). -/
def State.jobWaits (s : State) (job : NandJob) : Bool :=
  match job with
  | .journal _ => s.journalWaits
  | .mapRecords _ => s.nandWaits .mapRec
  | .logbook _ _ => false
  | .page l p => s.nandWaits (.place l p)

/-- The NAND channel of a block, 0 NANDA, 1 NANDB (R443): blocks are dealt to the dies and the dies to the channels in turn (DESIGN CHOICE,
log entry 127). -/
def State.nandChannel (s : State) (b : Nat) : Nat := b % s.dies % 2

/-- A NAND operation that a perturbation stretches counts in its HITS (R531 kind 0x5). -/
def State.nandHit (s : State) (b : Nat) : State :=
  match s.armedEntry 5 fun e => natBit e.target (s.nandChannel b) with
  | some n => s.hit n
  | none => s

/-- NAND_PROGRAM_DONE: R449, R450, R454, R455, R458, R471. A failed program retires the block, and what it was to hold is
programmed to a fresh one. Work that still waits for its turn has nothing programmed. -/
def execNandProgramDone (b : Nat) (job : NandJob) (ok : Bool) (s : State) : Out :=
  s.out (if s.jobWaits job then s else (if ok then s.nandHit b else (s.nandHit b).retire b).programmed job)

/-- The oldest programs of the flush area that a block of so many bytes holds, and what stands after them. -/
def flushSplit : Nat → List FlushRec → List FlushRec × List FlushRec
  | _, [] => ([], [])
  | n, f :: fs => if n < f.bytes then ([], f :: fs) else
    let r := flushSplit (n - f.bytes) fs
    (f :: r.1, r.2)

/-- Whether the oldest flush-area block may be reused (R454): its journal records are placed and durable, a later map image covers its map
records. -/
def State.flushReusable (s : State) : Bool :=
  (flushSplit (s.man.lbBytes (s.man.region 0)) s.hld.flushLog).1.all fun f => decide (f.jseq ≤ s.hld.placedJseq) && !f.map

/-- What an erased block gives back: a flush-area block its space. Its journal records are gone with it (R454). -/
def State.flushFreed (s : State) : State :=
  let n := s.man.lbBytes (s.man.region 0)
  let r := flushSplit n s.hld.flushLog
  let top := (r.1.map fun f => if f.map then 0 else f.jseq).foldl max 0
  { s with
    hld := { s.hld with flushUsed := s.hld.flushUsed - n, flushLog := r.2 }
    cmt := { s.cmt with journal := s.cmt.journal.filter fun j => !(j.durable && decide (j.jseq ≤ top)) } }

/-- A block is erased (R456, R461): one more P/E cycle; the percentages, a move, a merge or a refresh that was waiting. -/
def State.erased (s : State) (b : Nat) : State :=
  let x := s.blk b
  let p := s.poolOf b
  let fl := x.use == .flushArea
  let s1 := s.setBlk b { pool := x.pool, pe := x.pe + 1, use := if fl then .flushArea else .free }
  let s2 := if fl then s1.flushFreed else s1
  let s3 := { s2 with hld := { s2.hld with erases := smPut 0 s2.hld.erases p (smGet 0 s2.hld.erases p + 1) } }
  ((((s3.set hldStat_FLUSH_AREA s3.flushPct).nandDone (.erase b)).lifeUpdate.wearMove p).mergeNext).refreshNext

/-- NAND_ERASE_DONE: R454, R455, R456, R458, R461. A flush-area block is erased only when it may be reused. -/
def execNandEraseDone (b : Nat) (ok : Bool) (s : State) : Out :=
  let x := s.blk b
  s.out (if s.nandWaits (.erase b) then s
         else if x.use == .erasing || (x.use == .flushArea && s.flushReusable) then
           (if ok then (s.nandHit b).erased b else ((s.nandHit b).retire b).nandDone (.erase b))
         else s)

/-- Logbook records of the Hold that lie in a page of the Logbook region which reads poisoned: their CRC fails (R457, R474). -/
def State.lgbDamage (s : State) (lkey page : Nat) : State :=
  let g := s.man.region s.man.logRegion
  let base := lkey % 2 ^ 32 * s.man.lbBytes g + page * 16384
  let hit := fun (r : LogRec) => decide (base ≤ (64 * r.num) % (max 1 g.size)) && decide ((64 * r.num) % (max 1 g.size) < base + 16384)
  if lkey / 2 ^ 32 = s.man.logRegion then
    { s with lgb := { s.lgb with ring := s.lgb.ring.map fun r => { r with crcBad := r.crcBad || hit r } } }
  else s

/-- NAND_READ_DONE: R457, R458, R474. `bits` is the most errors corrected in a codeword, `bad` the codewords left
uncorrectable. -/
def execNandReadDone (b lkey page bits bad : Nat) (s : State) : Out :=
  let s0 := s.nandHit b
  let s1 := if 48 < bits then
      State.refreshNext (((s0.bump hldEcc_REFRESH 1).raise 438).setBlk b { s0.blk b with refresh := true })
    else s0
  if bad = 0 then s.out s1
  else
    let s2 := (s1.bump hldEcc_UNCORR bad).raiseLog 437 (be 4 b ++ be 8 lkey ++ be 4 page)
    let s3 := { s2 with hld := { s2.hld with poisonPages := addMem s2.hld.poisonPages (lkey * 65536 + page) } }
    s.out ((s3.lgbDamage lkey page).retire b)

/-- PLACEMENT_WINDOW_EXPIRY: R37, R453. The window of the page has run since its first write: the page is to be programmed. -/
def execPlacementWindowExpiry (lkey page : Nat) (s : State) : Out :=
  s.out (if s.nand.pages.any (fun x => decide (x.lkey = lkey) && decide (x.page = page) && !x.due && match x.window with
      | some w => decide (x.opened + w ≤ s.clk.mono)
      | none => false)
    then s.pageDue lkey page else s)

/-- MERGE_SWITCH: R450, R451, R455, R456. No copy has begun before the merge record is durable. -/
def execMergeSwitch (lkey : Nat) (s : State) : Out :=
  match s.hld.merges.find? fun m => m.lb == lkey with
  | none => s.out s
  | some m =>
    s.out (if s.nandWaits (.merge lkey) || !m.logged then s
           else ((s.switchTo lkey m.dst m.logBlk m.startedAt).mergeNext).refreshNext)

/-- Whether an interface may use HLD_CMD on a region (R446, R467). -/
def State.mayHold (s : State) (i : Iface) (r : Nat) : Bool :=
  match i with
  | .oarsman _ => true
  | .sealCore => true
  | i => decide (r ∈ (smGet {} s.man.priv i.window).hold)

/-- Whether an interface is the sealed domain's, which alone trims a sealed region (R446). -/
def Iface.ofSealed (i : Iface) : Bool := i == .sealCore || i == .oarsman 12 || i == .oarsman 13

/-- The result that refuses an HLD_CMD operation, 0 when it may run (HLD_CMD_STAT, R467). When several apply the order
is operation, warning, permission, kind, range (DESIGN CHOICE, log entry 20). -/
def State.holdRefusal (s : State) (i : Iface) (op a len : Nat) : Nat :=
  let r := a / 2 ^ 56
  let off := a % 2 ^ 56
  let g := s.man.region r
  if op = 0 ∨ 3 < op then 0x01
  else if s.warned then 0x03
  else if !s.mayHold i r || (g.isSealed && (op == 2 || (op == 3 && !i.ofSealed))) then 0x02
  else if (op = 2 ∧ g.stream) ∨ (op = 3 ∧ ¬ (g.stream ∧ g.keep)) then 0x04
  else if g.size = 0 then 0x01
  else if op = 1 ∧ (len = 0 ∨ 1048576 < len ∨ g.size < off + len) then 0x01
  else if op = 2 ∧ (len = 0 ∨ len % 16384 ≠ 0 ∨ off % 16384 ≠ 0 ∨ g.size < off + len) then 0x01
  else 0x00

/-- A write of HLD_CMD (R467): ignored while BUSY; a refused operation completes at once with its result. -/
def State.holdCmd (s : State) (i : Iface) (op : Nat) : State :=
  if s.hld.op.isSome then s
  else
    let a := (s.reg hldCmdAddrHi).toNat * 2 ^ 32 + (s.reg hldCmdAddrLo).toNat
    let len := (s.reg hldCmdLen).toNat
    let r := s.holdRefusal i op a len
    if r = 0 then
      let s1 := { s with hld := { s.hld with op := some (op, a, len, s.get hldCmdDram_ADDR * 64, i.window) } }.set hldCmdStat_BUSY 1
      if op = 1 then s1.nandAdd .read else s1
    else (s.set hldCmdStat_RESULT r).raise 444

/-- A word of HLD_CMD with an OP. -/
def opWord (op : Nat) : Word := wd (op * 2 ^ 28)

/-- HOLD_READ: R446, R467. -/
def execHoldRead (i : Iface) (s : State) : Out := s.out (s.writeGate i hldCmd (opWord 1) fun s => s.holdCmd i 1)
/-- HOLD_DISCARD: R459, R467. -/
def execHoldDiscard (i : Iface) (s : State) : Out := s.out (s.writeGate i hldCmd (opWord 2) fun s => s.holdCmd i 2)
/-- HOLD_TRIM: R460, R467. -/
def execHoldTrim (i : Iface) (s : State) : Out := s.out (s.writeGate i hldCmd (opWord 3) fun s => s.holdCmd i 3)

/-- Whether a range touches a page that reads poisoned (R457). -/
def State.holdPoison (s : State) (a n : Nat) : Bool :=
  let r := a / 2 ^ 56
  let lb := max 1 (s.man.lbBytes (s.man.region r))
  s.hld.poisonPages.any fun k =>
    let l := k / 65536
    decide (l / 2 ^ 32 = r) && meets (a % 2 ^ 56) n (l % 2 ^ 32 * lb + k % 65536 * 16384) 16384

/-- Logical blocks that a discard leaves with no valid page lose their data blocks (R459). -/
def State.dropBlocks (s : State) (a n : Nat) : State :=
  let r := a / 2 ^ 56
  let off := a % 2 ^ 56
  let lb := max 1 (s.man.lbBytes (s.man.region r))
  let first := (off + lb - 1) / lb
  let cnt := (off + n) / lb - first
  (List.range cnt).foldl (fun st k =>
    let l := r * 2 ^ 32 + first + k
    if st.hld.merges.any (fun m => m.lb == l) then
      { st with hld := { st.hld with merges := st.hld.merges.map fun m => if m.lb = l then { m with drop := true } else m } }
    else (st.releaseBlk (st.dataBlk l)).setData l none) s

/-- Logical blocks of a stream wholly before its new HEAD lose their data blocks (R460). -/
def State.trimBlocks (s : State) (r h0 h1 : Nat) : State :=
  let g := s.man.region r
  let lb := max 1 (s.man.lbBytes g)
  (List.range (h1 / lb - h0 / lb)).foldl (fun st k => st.dropBlocks (r * 2 ^ 56 + (h0 / lb + k) * lb % max 1 g.size) lb) s

/-- A trim with the blocks it frees (R460). -/
def State.trimDo (s : State) (r off : Nat) : State :=
  let s1 := s.trimNow r off
  s1.trimBlocks r (s.str r).head (s1.str r).head

/-- HOLD_CMD_COMPLETE: R453, R455, R457, R459, R460, R467. -/
def execHoldCmdComplete (s : State) : Out :=
  match s.hld.op with
  | none => s.out s
  | some (op, a, len, dram, _) =>
    if op = 1 ∧ s.nandWaits .read = true then s.out s
    else
      let s1 := if op = 1 then (s.dramPut dram (s.holdRead a len)).nandDone .read
        else if op = 2 then (s.discardNow a len).dropBlocks a len
        else s.trimDo (a / 2 ^ 56) (a % 2 ^ 56)
      let res := if op = 1 ∧ s.holdPoison a len then 0x05 else 0x00
      let s2 := { s1 with hld := { s1.hld with op := none } }
      s.out (((s2.set hldCmdStat_BUSY 0).set hldCmdStat_RESULT res).raise 444)

/-- The Logbook region as a stream (R447, R471, R475): 64 bytes for each record in the Hold, a ring of 16,777,216 records. -/
def Logbook.stream (l : Logbook) : Stream :=
  let n := match l.ring.getLast? with
    | some r => r.num + 1
    | none => 0
  { head := 64 * (n - 16777216), tail := 64 * n }

/-- The stream query's capture (R447, HLD_STR_SEL). -/
def State.streamCapture (s : State) : State :=
  let r := s.get hldStrSel_REGION
  let g := s.man.region r
  let st := if r = s.man.logRegion then s.lgb.stream else s.str r
  let w := if g.stream then
      2 ^ 31 + ofBool g.keep * 2 ^ 30 + ofBool st.fullSeen * 2 ^ 29 + divUp (100 * (st.tail - st.head)) g.size
    else 0
  let s1 := ((s.setReg hldStrStat (wd w)).setReg hldStrHead (wd (st.head / 64))).setReg hldStrTail (wd (st.tail / 64))
  if g.stream then s1.setStr r { s1.str r with fullSeen := false } else s1

/-- STREAM_QUERY: R447. -/
def execStreamQuery (i : Iface) (v : Word) (s : State) : Out :=
  s.out (s.writeGate i hldStrSel v State.streamCapture)

/-- UNCORR and REFRESH to 0 (HLD_ECC.CLR). -/
def State.clrHldEcc (s : State) : State := (s.set hldEcc_UNCORR 0).set hldEcc_REFRESH 0

/-- HLD_ECC_CLEAR: R457, 18_hold.md. -/
def execHldEccClear (i : Iface) (s : State) : Out := s.out (s.writeGate i hldEcc clrWord State.clrHldEcc)

end Sys2Proof.Machine
end

