-- ==== Sys2Proof/Machine/Launch.lean ====
section
/-!
DEFINITION. The launch unit's commands (02_crossing_time.md R63 to R66; 06_radio.md R193 to R195).
-/
namespace Sys2Proof.Machine

/-- Whether an ANCHOR stands at the head of the Gangway's queue, whose late policy is DROP (R219). -/
def State.headIsAnchor (s : State) (q : Nat) : Bool :=
  match s.man.medium q, s.launchHead q with
  | .gwy, some it => beAt it.ethBytes 1 1 == 3
  | _, _ => false

/-- A late item: counted and event 28, once for the item, then sent or removed by the queue's policy (R65). -/
def State.lateItem (s : State) (q air : Nat) : State :=
  let s1 := match s.launchHead q with
    | some it => if it.late then s else ((s.bump (xingLate_LATE q) 1).raise 28).markLate q
    | none => s
  if s1.flag (xingLate_POLICY q) && !s1.headIsAnchor q then s1.startMain q air true false else s1.removeLate q

/-- The delay in µs that an armed jitter entry gives a timed item of a queue (R531 kind 0x3). -/
def State.jitter (s : State) (q w : Nat) : Nat × State :=
  match s.armedEntry 3 fun e => e.target == q with
  | some n =>
    if natBit w 63 then
      let d := s.random 16
      (d.1 % ((s.entry n).b + 1), d.2.hit n)
    else (0, s)
  | none => (0, s)

/-- Whether a queue is an indirect launch queue, whose items go at data requests and by covers alone (R185 to R190). -/
def State.isIndirect (s : State) (q : Nat) : Bool := (List.range 2).any fun r => roleQ s.man.roles.radIndirect r == some q

/-- The main item at the head of a launch queue is sent, held or removed (R63 to R65, R112). An invalid descriptor goes before a driver that
is off: status 0x06, not 0x03 (DESIGN CHOICE, log entry 117). -/
def State.launchMain (s : State) (q air : Nat) : State :=
  match s.launchHead q with
  | none => s
  | some it =>
    let plc := match s.man.medium q with
      | .plc c => some c
      | _ => none
    if (s.q q).held || s.isIndirect q then s
    else if plc.isSome && !it.plcValid then s.dropDone q 0x06
    else if plc.any fun c => (s.txPhases c it.plcPhases).any s.driverOff then s.dropDone q 0x03
    else
      let j := s.jitter q (it.word 0)
      let due := s.launchDue (it.word 0) j.1
      match (if it.late then .late else j.2.judge due) with
      | .now => j.2.startMain q air false false
      | .held => j.2.holdFor q due
      | .late => j.2.lateItem q air
      | .far => j.2.removeFar q
      | .skipped => j.2.startMain q air false true

/-- A launch queue whose head may go: the lane first (R66, R401). A class-0 item of a PLC queue waits for its window (R165), and the
main queue behind it; while the driver is off it completes at once (R121). -/
def State.launchHeadStep (s : State) (q air : Nat) : State :=
  match (s.q q).lane with
  | [] => match s.man.medium q with
    | .eth x => if s.fwdWaits x then s.startFwd x else s.launchMain q air
    | _ => s.launchMain q air
  | l :: _ => match s.man.medium q with
    | .plc c => if !l.hold && s.cellOff c then s.refuseLane c q l else s
    | _ => if l.hold then s else s.startLane q air l

/-- LAUNCH_ITEM_AT_HEAD: R30, R52, R63 to R66, R112, R138, R193 to R195, R197. `air` is the airtime of a radio frame in µs.
Nothing is launched under a power warning. -/
def execLaunchItemAtHead (q air : Nat) (s : State) : Out :=
  s.out (if s.warned || !s.qUsed q then s else s.launchHeadStep q air)

/-- Whether the duty budget has deferred the main item at the head of a queue (R194). -/
def State.headDeferred (s : State) (q : Nat) : Bool :=
  match s.launchHead q with
  | some it => it.deferred
  | none => false

/-- The held item at its instant (R63), late where the instant has been missed meanwhile (R65), renumbered where it was skipped (R52);
before it, nothing, nor for one that the duty budget has deferred (R194). -/
def State.heldDue (s : State) (q air : Nat) : State :=
  let due := (s.q q).due
  if s.headDeferred q || s.ahead q due then s
  else if s.missed q due then s.lateItem q air
  else s.startMain q air false (s.dueSkipped due)

/-- The held item at its instant, or a planned cover transmission of the port whose indirect queue this is. While the queue's lane holds
an item the main queue delivers nothing (R66, R401). -/
def State.instantReached (s : State) (q air : Nat) : State :=
  if (s.q q).held then (if (s.q q).lane = [] then s.heldDue q air else s)
  else match s.man.medium q with
    | .rad r => match (s.port r).cover with
      | some c => if roleQ s.man.roles.radIndirect r = some q then s.startCover q r air c else s
      | none => s
    | _ => s

/-- LAUNCH_INSTANT_REACHED: R63, R110, R138, R174, R175, R177, R178, R182, R191, R197, R206, R207, R219. -/
def execLaunchInstantReached (q air : Nat) (s : State) : Out :=
  s.out (if s.warned || !s.qUsed q then s else s.instantReached q air)

/-- The main item that the budget holds is judged again (R194): late under R65 when its instant has passed. -/
def State.recheckMain (s : State) (q air : Nat) : State :=
  match s.launchHead q with
  | none => s
  | some it =>
    if !it.deferred then s
    else
      let due := match (s.q q).due with
        | some d => some d
        | none => s.launchDue (it.word 0) 0
      let s1 := s.setQ q { s.q q with held := false }
      if it.late || s1.missed q due then s1.lateItem q air else s1.startMain q air false (s1.dueSkipped due)

/-- What the budget holds on a port is judged again, its class-0 item first, then the main item, then the planned cover (R194). -/
def State.recheck (s : State) (r air : Nat) : State :=
  let s1 := match roleQ s.man.roles.radLaunch r with
    | none => s
    | some q => match (s.q q).lane with
      | [] => s.recheckMain q air
      | l :: _ => if l.deferred && !l.hold then s.startLane q air l else s
  match (s1.port r).cover, roleQ s1.man.roles.radIndirect r with
  | some c, some q => if c.deferred then s1.startCover q r air c else s1
  | _, _ => s1

/-- DUTY_BIN_BOUNDARY: R193, R194, R200. `air` is the airtime of the frame that waits, if one does. -/
def execDutyBinBoundary (r air : Nat) (s : State) : Out :=
  let x := s.port r
  let s1 := s.setPort r { x with bins := (0 :: x.bins).take 64, budget := s.reg (radDutyBudget r), dwell := s.reg (radDutyCfg r)
                                 job := x.job.map fun j => { j with bin := j.bin + 1 } }
  let s2 := s1.setSat (radDutyUsed_USED r) (ceilDiv (s1.port r).usedUs 10000)
  s.out (if s2.warned then s2 else s2.recheck r air)

end Sys2Proof.Machine
end

