-- ==== Sys2Proof/Machine/PanelCmd.lean ====
section
/-!
DEFINITION. The commands of tokens, keypad and display (14_prepayment_panel.md).
-/
namespace Sys2Proof.Machine

/-- TOKEN_ENTRY: R367 to R372, R376. The entry at the head of the sealed inbound queue. -/
def execTokenEntry (s : State) : Out :=
  s.out (s.atHead s.man.roles.tokenIn fun s it => if it.poisoned then (s, true) else s.tokenIn it.bytes)

/-- LOCKOUT_END: R371, R372. The lockout's operating seconds have run out. -/
def execLockoutEnd (s : State) : Out := s.out (if s.tok.locked then s.endLockout else s)

/-- KEY_STATE_CHANGE: R377, R378. -/
def execKeyStateChange (k : Nat) (down : Bool) (s : State) : Out :=
  s.out (if k < 16 ∧ s.flag kpCfg_EN = true ∧ ¬ s.pan.stopped then s.keyChange k down else s)

/-- PANEL_FRAME_START: R380 to R386. Nothing is drawn before the legal items are painted, nor from a warning on. -/
def execPanelFrameStart (s : State) : Out :=
  s.out (if s.flag panStat_LEGAL_READY = true ∧ ¬ s.warned ∧ s.pan.discharge = none then s.drawFrame else s)

/-- TEMPERATURE_BAND_CHANGE: R384. `t` is the on-die sensor's reading, a two's-complement byte. -/
def execTemperatureBandChange (t : Nat) (s : State) : Out :=
  s.out (State.panTemp { s with pan := { s.pan with sensor := some (t % 256) } })

/-- DISCHARGE_HOLD_END: R385. -/
def execDischargeHoldEnd (s : State) : Out :=
  s.out (if s.pan.discharge.isSome then { (s.set panStat_DRIVE 0) with pan := { (s.set panStat_DRIVE 0).pan with discharge := none } }
         else s)

/-- FRAME_MEMORY_WRITE: R382. -/
def execFrameMemoryWrite (i : Iface) (v : Word) (s : State) : Out := s.out (s.writeGate i panFbData v fun s => s.fbWrite v)

/-- FRAME_MEMORY_READ: R382. -/
def execFrameMemoryRead (i : Iface) (s : State) : Out := s.out (s.readGate i panFbData State.fbRead)

/-- ACCOUNT_QUERY: R388, a write to PAN_ACCT_SEL. -/
def execAccountQuery (i : Iface) (v : Word) (s : State) : Out := s.out (s.writeGate i panAcctSel v State.acctQuery)

end Sys2Proof.Machine
end

