-- ==== Sys2Proof/Machine/Plc.lean ====
section
/-!
DEFINITION. The commands of the power-line physical layer (04_plc_physical.md).
-/
namespace Sys2Proof.Machine


/-- The receiver's own suggestion for the link from the node that sent the frame into the chip (R150). -/
def State.ownSuggestion (s : State) (c v : Nat) (x : PlcRx) (b : List Byte) : State :=
  if v = 0 ∧ s.frameOk c b ∧ frSender b ≠ 0 ∧ frSender b < 0xFFFE then
    s.suggestLink c (frSender b) 0 (s.suggestion (s.mainPath c) x).1 (s.suggestion (s.mainPath c) x).2
  else s

/-- Path status after a frame: PLC_RX_STAT, and PLC_MRC_STAT in all-phase mode. An all-phase frame sets GAIN, SNR and NOISE of all three
paths, NOISE to one value that the command gives, SNR to 0 where the path detected no preamble (DESIGN CHOICE, log entry 117). -/
def State.rxStatus (s : State) (p : Nat) (x : PlcRx) : State :=
  let code := fun k => if k ∈ x.detected then snrCode (halfDb (x.snrs.getD k 0)) else 0
  let one := fun (st : State) k => (((st.set (plcRxStat_GAIN k) (st.pgaStep k x)).set (plcRxStat_SNR k) (code k)).set
    (plcRxStat_NOISE k) x.noise)
  if s.plcMode = 2 then
    let s1 := [0, 1, 2].foldl one s
    ((s1.set plcMrcStat_SNR_L1 (code 0)).set plcMrcStat_SNR_L2 (code 1)).set plcMrcStat_SNR_L3 (code 2)
  else one s p

/-- Whether a residue lies at least 25 dB below an uncancelled level, each as a sum of squares (R116). -/
def below25Db (res raw : Nat) : Bool := decide (raw ≠ 0) && decide (10 ^ 5 * res ^ 2 ≤ raw ^ 2)

/-- A canceller adapts over a frame that its source phase has sent, and is converged by what is left of the samples received meanwhile
(R116). -/
def State.adapt (s : State) (x : XtcRead) (q p : Nat) : State :=
  let raw := x.rx.getD p []
  let taps := (Config.adaptTaps (s.canceller p q).taps (x.dac.getD q []) raw).take 64
  let s1 := s.setCanceller p q { s.canceller p q with taps := taps }
  s1.setCanceller p q { taps := taps, conv := below25Db (sumSquares (lessCrosstalk (s1.crosstalk p x.dac) 0 raw)) (sumSquares raw) }

/-- The receive paths whose two cancellers are converged (R116). -/
def State.converged (s : State) : List Nat := [0, 1, 2].filter fun p => (otherPhases p).all fun q => (s.canceller p q).conv

/-- XTC_CONV follows the cancellers (R116): event 75 + p where a path loses convergence. -/
def State.convergence (s : State) : State :=
  let old := s.get plcStatus_XTC_CONV
  let now := phaseBits s.converged
  [0, 1, 2].foldl (fun st p => st.raiseIf (natBit old p && !natBit now p) (75 + p)) (s.set plcStatus_XTC_CONV now)

/-- The cancellers fed by a phase adapt over a frame that it has sent (R116). -/
def State.adaptAll (s : State) (x : XtcRead) (q : Nat) : State := ((otherPhases q).foldl (fun st p => st.adapt x q p) s).convergence

/-- A frame with symbols that were blanked counts in IMPULSE of each contributing path that blanked one (R105, R106; of a combined frame a
DESIGN CHOICE, log entry 117). -/
def State.countImpulse (s : State) (x : PlcRx) (p : Nat) : State := if s.blanked [p] x ≠ 0 then s.bump (plcRxCnt_IMPULSE p) 1 else s

/-- A frame's reception on path p (R104 to R109, R116, R118, R119). BAD and REPORT_BAD of a combined frame are those of path p, which the
command names (DESIGN CHOICE, log entry 117). -/
def State.plcReceive (s : State) (p : Nat) (x : PlcRx) : State :=
  let c := s.pathCell p
  let rank := if s.plcMode = 2 then 2 else 2 + p
  let br := s.everyNth 8 fun e => e.target == rank
  let s0 := br.2
  let v := x.verdict br.1
  let ex := if s0.plcMode = 2 then s0.excluded x else []
  let t := s0.rxStamp rank
  let psdu := x.delivered v
  let item := s0.rxDescriptor p v x ex t ++ psdu
  let s1 := (s0.rxStatus p x).raiseIf (ex ≠ []) 73
  let s2 := (s0.contributors p x).foldl (fun st k => st.countImpulse x k) s1
  let s3 := if v ≠ 0 then (s2.bump (plcRxCnt_BAD p) 1).raiseIf (v == 3) 74 else s2
  let s4 := if v = 0 ∨ s3.flag (plcRxCfg_REPORT_BAD p) then
      match roleQ s3.man.roles.plcRx c with
      | some q => s3.rxEnqueue (.oarsmanBlock (s3.pathOarsman p)) q (mkItem (s3.nodeFlow c (frSrc psdu)) t item)
      | none => s3
    else s3
  s4.ownSuggestion c v x psdu

/-- PLC_FRAME_RECEIVED: R61, R104 to R109, R116, R118, R119, R122, R394. An unpowered path receives nothing, nor does any under a warning. -/
def execPlcFrameReceived (p : Nat) (x : PlcRx) (s : State) : Out :=
  s.out (if s.warned || !natBit (s.get plcStatus_PATH_ON) p then s else s.plcReceive p x)

/-- The exchange whose frame a cell's job sends takes note of a drive-limited transmission (R149), and ends with its ACK or JOIN_ANSWER
(R151). -/
def State.sentFrame (s : State) (c : Nat) (j : TxJob) (limited : Bool) : State :=
  let f := frSeq j.psdu
  match (s.cell c).xch.find? fun e => (e.fseq == f && (frType j.psdu == 2 || frType j.psdu == 5)) || e.ack == some f with
  | some e =>
    let e1 := { e with limited := e.limited + ofBool limited }
    let s1 := s.setExchange c e1
    if e.ack = some f then s1.endExchange c e1 else s1
  | none => s

/-- A frame that is no marked command leaves its retained queue once it has been sent (R147, R399). -/
def State.freeSent (s : State) (c : Nat) (j : TxJob) : State :=
  if !s.flag (whfQCfg_RETAIN j.q) || (s.cell c).xch.any fun e => e.job.isSome && e.fseq == frSeq j.psdu then s
  else match s.frameIdx j.q (frSeq j.psdu) with
    | some i => s.spend j.q i
    | none => s

/-- A path of a drive-limited frame: counted in LIMITED, event 64 + p (R120, R124). -/
def State.noteLimited (s : State) (p : Nat) : State := (s.bump (plcTxStat_LIMITED p) 1).raise (64 + p)

/-- A frame completes (R114, R120): counters, event 64 + p of each path that limited it, the completion. -/
def State.plcComplete (s : State) (c : Nat) (j : TxJob) (status : Nat) : State :=
  let lim := if status ≤ 1 then s.jobLimited j else []
  let s1 := lim.foldl State.noteLimited (s.clearJob j)
  if j.rep then s1 else (s1.plcCompletion c j.flow j.stamp status (s.jobSteps j)).freeSent c j

/-- PLC_TRANSMIT_COMPLETE: R110, R114, R116, R120, R149, R151, R152. The cancellers fed by the path adapt over the whole frame when it is
over (DESIGN CHOICE, log entry 135). -/
def execPlcTransmitComplete (c : Nat) (x : XtcRead) (s : State) : Out :=
  match s.cellJob c with
  | none => s.out s
  | some j =>
    let lim := decide (s.jobLimited j ≠ [])
    let s1 := s.plcComplete c j (ofBool lim)
    let s2 := if s.plcMode = 1 ∧ j.xtc = true then s1.adaptAll x c else s1
    s.out (s2.sentFrame c j lim)

/-- Whether a sample of the current-sense converter, 10 bits over 1.275 V, lies above a level in 5 mV units (R110, R120). -/
def isnsAbove (lvl : Nat) (v : Nat) : Bool := decide (5 * 1023 * lvl < 1275 * v)

/-- A limit detection (R120): 4 of at most 16 samples in a row above LIMIT; LIMIT 0 detects nothing. -/
def TxJob.detects (j : TxJob) (isns : List Nat) : Bool :=
  decide (j.limit ≠ 0) && decide (4 ≤ ((isns.take 16).filter (isnsAbove j.limit)).length)

/-- A trip (R120): 5 samples in a row above TRIP. -/
def TxJob.trips (j : TxJob) (isns : List Nat) : Bool := decide (5 ≤ isns.length) && (isns.take 5).all (isnsAbove j.trip)

/-- DRIVE_LIMIT_DETECTION: R113, R120. `last` tells a detection in the last symbol, which adds no step; `x` holds the 16 samples. A
step acts on the path that detected (DESIGN CHOICE, log entry 117). -/
def execDriveLimitDetection (x : IsnsRead) (last : Bool) (s : State) : Out :=
  let p := x.path
  match (s.path p).job with
  | none => s.out s
  | some j =>
    if !j.detects x.samples then s.out s
    else
      let j1 := { j with limited := true, steps := if last ∨ j.maxStep ≤ j.steps then j.steps else j.steps + 1 }
      let s1 := s.setPath p { s.path p with job := some j1 }
      s.out (if j1.steps = j.steps then s1 else s1.emit (.plcLevel p j1.level))

/-- The path's part of a trip (R120, R121): its DAC at mid-scale; re-arming waits, or the driver is latched off at the fourth trip. -/
def State.tripPath (s : State) (p : Nat) : State :=
  let s1 := ((s.emit (.pin (.txdac p) .mid)).set (plcTxStat_TRIPPED p) 1).raise (67 + p)
  if s1.get (plcTxStat_REARMS p) = 3 then
    (((s1.set (plcTxStat_OFF p) 1).set plcStatus_OFF (s1.get plcStatus_OFF ||| 2 ^ p)).setPath p
      { s1.path p with tripAt := none }).raise (70 + p)
  else s1.setPath p { s1.path p with tripAt := some s1.xing.num }

/-- DRIVER_TRIP: R120, R121. Only a path that sends compares; the frame ends with status 0x02, in all-phase mode on every phase (DESIGN
CHOICE, log entry 117). `x` holds the 5 samples. -/
def execDriverTrip (x : IsnsRead) (s : State) : Out :=
  match (s.path x.path).job with
  | none => s.out s
  | some j => s.out (if j.trips x.samples then (s.plcComplete (s.pathCell x.path) j 0x02).tripPath x.path else s)

/-- DRIVER_REARM: R121. At a superframe boundary at least 32 crossings after the trip. -/
def execDriverRearm (p : Nat) (s : State) : Out :=
  match (s.path p).tripAt with
  | none => s.out s
  | some k =>
    if s.xing.num % 32 = 0 ∧ k + 32 ≤ s.xing.num then
      s.out ((s.setPath p { s.path p with tripAt := none }).bump (plcTxStat_REARMS p) 1)
    else s.out s

/-- What a 1 written to TRIPPED does beside clearing it (R121). -/
def State.rearm (s : State) (p : Nat) (v : Word) : State :=
  if wordBits v (plcTxStat_TRIPPED p) = 1 then
    ((((s.set (plcTxStat_OFF p) 0).set (plcTxStat_REARMS p) 0).set plcStatus_OFF
      (s.get plcStatus_OFF &&& (7 - 2 ^ p))).setPath p { s.path p with tripAt := none })
  else s

/-- TRIPPED_CLEAR: R121. -/
def execTrippedClear (i : Iface) (p : Nat) (s : State) : Out :=
  s.out (if p < 3 then s.writeGate i (plcTxStat p) 1 fun s => s.rearm p 1 else s)

/-- What CLR of PLC_RX_CNT does. -/
def State.clearRx (s : State) (p : Nat) (v : Word) : State :=
  if wordBits v (plcRxCnt_CLR p) = 1 then (s.set (plcRxCnt_BAD p) 0).set (plcRxCnt_IMPULSE p) 0 else s

/-- PLC_RX_CNT_CLEAR: R106. -/
def execPlcRxCntClear (i : Iface) (p : Nat) (s : State) : Out :=
  s.out (if p < 3 then s.writeGate i (plcRxCnt p) 0x80000000 fun s => s.clearRx p 0x80000000 else s)

end Sys2Proof.Machine
end

