-- ==== Sys2Proof/Machine/Radio.lean ====
section
/-!
DEFINITION. The commands of the radio ports (06_radio.md).
-/
namespace Sys2Proof.Machine

/-! ### Reception -/

/-- MAC command identifier of a received command frame: 1 association request, 3 disassociation, 4 data request, 7 beacon
request. -/
def RadRx.cmd (x : RadRx) : Nat := if x.typ = 3 then beAt x.payload 0 1 else 0

/-- The endpoint of a port with an EUI-64. -/
def State.radByEui (s : State) (r e : Nat) : Option (Nat × Node) := (s.cell (3 + r)).members.find? fun p => p.2.eui == e

/-- The short address a frame's source stands for. -/
def State.radSrc (s : State) (r : Nat) : RadAddr → Option Nat
  | .short a => if (s.node (3 + r) a).isSome then some a else none
  | .ext e => (s.radByEui r e).map (·.1)
  | .absent => none

/-- Whether a port keeps a frame's destination (R179 rows 4 and 5). -/
def State.radDstOk (s : State) (r : Nat) (x : RadRx) : Bool :=
  let pan := s.get (radPan_PANID r)
  match x.dst with
  | .absent => x.srcPan == pan
  | .short a => (x.dstPan == pan || x.dstPan == 0xFFFF) && (a == 0 || (a == 0xFFFF && x.cmd == 7))
  | .ext e => (x.dstPan == pan || x.dstPan == 0xFFFF) && e == s.fuses.eui

/-- Whether a port keeps a frame's source (R179 row 6). The identifier of a MAC command is never encrypted. A beacon request has no source
(DEDUCED, log entry 35). -/
def State.radSrcOk (s : State) (r : Nat) (x : RadRx) : Bool :=
  match x.src with
  | .short a => (s.node (3 + r) a).isSome
  | .ext e => x.cmd == 1 || x.cmd == 4 ||
      (match s.radByEui r e with
       | some p => (s.rnode r p.1).any (·.provisional)
       | none => false)
  | .absent => x.cmd == 7

/-- R179, R172. An acknowledgement carries no addresses; one of frame version 0b10 is an enhanced one, which is filtered out. -/
def State.radFilter (s : State) (r : Nat) (x : RadRx) : Bool :=
  x.fcsOk && (x.version < 2 || (x.version == 2 && !x.hasIe && x.typ != 2)) && (x.typ == 1 || x.typ == 2 || x.typ == 3) &&
  (x.typ == 2 || (s.radDstOk r x && s.radSrcOk r x))

/-- The immediate acknowledgement (R180, R185, R193, R194). -/
def State.autoAck (s : State) (r : Nat) (x : RadRx) (pending : Bool) : State :=
  if !x.ackReq || x.typ == 2 then s
  else if (s.port r).mayLaunch x.ackAir true then (((s.book r x.ackAir).radOn r).emit (.radioAck r x.seq pending)).radOff r
  else s.raise (radEvt r 9)

/-- A security failure (R181). -/
def State.secFail (s : State) (r : Nat) : State := (s.bump (radErr_SECFAIL r) 1).raise (radEvt r 6)

/-- The security of a frame (R177, R181): its payload in the clear, or none after a failure. -/
def State.radOpen (s : State) (r : Nat) (x : RadRx) : Option (List Byte) × State :=
  let a := s.radSrc r x.src
  if x.secured then
    match a.bind (s.node (3 + r)) with
    | none => (none, s.secFail r)
    | some n =>
      let last := s.ctxAt n.slot 216 4
      match s.endpointKey n.slot with
      | none => (none, s.secFail r)
      | some k =>
        if x.fcnt ≤ last ∨ x.keyMode ≠ 0 then (none, s.secFail r)
        else match ccmOpen (linkKeyOf k n.eui) (State.ccmNonce n.eui x.fcnt) x.hdr x.payload with
          | none => (none, s.secFail r)
          | some p => (some p, s.ctxPut n.slot 216 (be 4 x.fcnt))
  else
    let free := x.cmd == 1 || x.cmd == 7 || (x.cmd == 4 && match x.src with | .ext _ => true | _ => false)
    if free then (some x.payload, s) else (none, s.secFail r)

/-- The cell key that an endpoint is sent when it has joined, and the new one while the key changes (R177). -/
def State.keyJobs (s : State) (c a : Nat) : List CmdJob :=
  { addr := a, typ := 0x10, payload := be 1 (s.cell c).keyGen } ::
    (if (s.cell c).keyNew.isSome then [{ addr := a, typ := 0x10 }] else [])

/-- A provisional endpoint's first secured frame after the delivery of its association response ends that state (R184); a KEY message is
due (R177). -/
def State.endProvisional (s : State) (r a : Nat) (secured : Bool) : State :=
  match s.rnode r a with
  | some n =>
    if n.provisional ∧ n.answered ∧ secured then
      let s1 := s.setRnode r a (some { n with provisional := false })
      let cl := s1.cell (3 + r)
      s1.setCell (3 + r) { cl with cmds := cl.cmds ++ s1.keyJobs (3 + r) a }
    else s
  | none => s

/-- Whether an armed frame-error entry breaks this frame (R531 kind 0x8). -/
def State.radBroken (s : State) (r : Nat) : Bool × State := s.everyNth 8 fun e => e.target == 5 + r

/-- A port that receives: in use, under no warning. -/
def State.radHears (s : State) (r : Nat) : Bool := !s.warned && s.flag (radCfg_EN r)

/-- A frame through the filter, the acknowledgement and security; the payload where it goes on. -/
def State.radAccept (s : State) (r : Nat) (x : RadRx) : Option (List Byte) × State :=
  let b := s.radBroken r
  if b.1 || !b.2.radFilter r x then (none, b.2.bump (radErr_FILTERED r) 1)
  else (b.2.autoAck r x (x.cmd == 4 && b.2.pendingFor r x.src)).radOpen r x

/-! ### Ends of transmissions -/

/-- The place of an item sequence in a queue. -/
def State.iseqIdx (s : State) (q iseq : Nat) : Option Nat :=
  (List.range (s.q q).items.length).find? fun i => ((s.q q).items.getD i {}).iseq == iseq && !((s.q q).items.getD i {}).gone

/-- The association response to an EUI-64 has been delivered (R184). -/
def State.noteAnswered (s : State) (r e : Nat) : State :=
  match s.radByEui r e with
  | none => s
  | some p => match s.rnode r p.1 with
    | some n => s.setRnode r p.1 (some { n with answered := true })
    | none => s

/-- The acknowledgement of a frame (R184, R186, R187, R189, R192): the marked indirect item is released, FORCE cleared where an item was
delivered, covers end. -/
def State.radAcked (s : State) (r : Nat) (j : RadJob) : State :=
  let s1 := match j.iseq with
    | some k => match s.iseqIdx j.q k with
      | some i => s.spend j.q i
      | none => s
    | none => s
  let item := j.iseq.isSome || decide (j.typ = 6)
  let s1b := if j.kind = 3 then s1.noteAnswered r j.ext else s1
  let s2 := s1b.setPort r { s1b.port r with
    force := if item then dropMem (s1b.port r).force j.dst else (s1b.port r).force
    ext := if j.kind = 3 then (s1b.port r).ext.filter fun p => p.1 ≠ j.ext else (s1b.port r).ext }
  let s3 := ((if j.cover then s2.dropCover r j.dst else s2)).ackSync r j.dst
  if j.typ = 6 ∧ j.dst ≠ 0xFFFF then
    match s3.rnode r j.dst with
    | some n => s3.setRnode r j.dst (some { n with timeDue := false })
    | none => s3
  else s3

/-- What an acknowledged request without an answer message means for its exchange: the endpoint leaves, has the new cell
key, was probed (R127, R177, R184). -/
def State.radReqDone (s : State) (r : Nat) (j : RadJob) : State :=
  let c := 3 + r
  match (s.cell c).exchangeOf j.dest with
  | none => s
  | some x => match x.job with
    | some k =>
      if k.leave then (s.endExchange c x).leaveNow c j.dest
      else if k.typ = 0x10 then
        match (s.endExchange c x).node c j.dest with
        | some n => (s.endExchange c x).setNode c j.dest
            (some { n with keyAcked := n.keyAcked || k.payload == [] || (s.cell c).keyNew.isNone })
        | none => s.endExchange c x
      else s
    | none =>
      if x.kind = 5 then
        match s.node c j.dest with
        | some n => (s.setNode c j.dest (some { n with probed := s.ptpSec })).endExchange c x
        | none => s
      else s

/-- The further transmissions of a frame that the MAC may make: up to macMaxFrameRetries, of a frame that wants an acknowledgement and is no
cover, each while the duty budget lets it go (R172, R193). -/
def State.moreTries (s : State) (r : Nat) (j : RadJob) (tries : Nat) : Nat :=
  let n := if j.ackReq && !j.cover then min tries (1 + s.man.macRetries) - 1 else 0
  if (s.port r).budgetUs = 0 ∨ j.air = 0 then n
  else min n (((s.port r).budgetUs - (s.port r).usedUs - (s.port r).reserveUs) / j.air)

/-- The transmissions that the MAC made of a frame (R172, R174, R193): what the first was booked is taken back where there was none, each
further one is booked. -/
def State.bookTries (s : State) (r : Nat) (j : RadJob) (tries : Nat) : State :=
  if tries = 0 then
    let b := (s.port r).bins
    let s1 := s.setPort r { s.port r with bins := b.set j.bin (b.getD j.bin 0 - j.air) }
    s1.setSat (radDutyUsed_USED r) (ceilDiv (s1.port r).usedUs 10000)
  else
    let n := s.moreTries r j tries
    State.radSends (if n = 0 then s else s.book r (n * j.air)) r j (n + 1)

/-- RADIO_TRANSMIT_COMPLETE: R172, R174, R187, R193 to R195. A result of 2 is no acknowledgement after macMaxFrameRetries. -/
def execRadioTransmitComplete (r : Nat) (x : RadDone) (s : State) : Out :=
  match (s.port r).job with
  | none => s.out s
  | some j =>
    let st := if x.result = 0 then ofBool j.deferred else if x.result = 2 then 2 else 3
    let n := if x.result = 0 then max 1 x.tries else if x.result = 2 then 1 + s.man.macRetries else x.tries
    let s1 := (s.bookTries r j n).radDone r
    let s2 := if x.result = 0 then (s1.radAcked r j).radReqDone r j else s1
    s.out (s2.radCompletion r j.flow j.stamp st)

/-- INDIRECT_ITEM_UNACKED: R187. The item stays for the next data request. -/
def execIndirectItemUnacked (r a : Nat) (s : State) : Out :=
  match (s.port r).job with
  | none => s.out s
  | some j =>
    if j.dst = a ∧ j.iseq.isSome ∧ j.cover = false then
      s.out (((s.bookTries r j (1 + s.man.macRetries)).radDone r).radCompletion r j.flow j.stamp 0x02)
    else s.out s

/-! ### Frames received -/

/-- A message of an endpoint into the port's receive queue (DESIGN CHOICE, log entry 23): stamp, address, length, message. -/
def State.radDeliver (s : State) (r a : Nat) (t : Stamp) (msg : List Byte) : State :=
  match roleQ s.man.roles.radRx r with
  | some q => s.rxEnqueue (.oarsmanBlock (4 + r)) q (mkItem (s.nodeFlow (3 + r) a) t (t.bytes ++ be 2 a ++ be 2 msg.length ++ msg))
  | none => s

/-- A frame other than a data request or an association request (R172, R180, R184, R189). -/
def State.radFrameIn (s : State) (r : Nat) (x : RadRx) : State :=
  let t := s.rxStamp (5 + r)
  let p := s.radAccept r x
  match p.1 with
  | none => p.2
  | some m =>
    if x.cmd = 7 then p.2.queueRadK r 0xFFFF 2 0 0 []
    else match p.2.radSrc r x.src with
      | none => p.2
      | some a =>
        let s1 := p.2.endProvisional r a x.secured
        if x.typ = 3 then (if beAt m 0 1 = 3 then s1.leaveNow (3 + r) a else s1)
        else (s1.sleepySync r a t m).radDeliver r a t m

/-- RADIO_FRAME_RECEIVED: R171, R172, R175, R179 to R182, R184, R187, R189, R194. -/
def execRadioFrameReceived (r : Nat) (x : RadRx) (s : State) : Out :=
  if !s.radHears r then s.out s
  else if x.typ = 2 then
    let b := s.radBroken r
    if b.1 || !b.2.radFilter r x then s.out (b.2.bump (radErr_FILTERED r) 1)
    else match (b.2.port r).job with
      | some j => s.out (if j.ackReq ∧ j.seq = x.seq then (b.2.radAcked r j).sleepySync r j.dst (b.2.rxStamp (5 + r)) x.payload else b.2)
      | none => s.out b.2
  else s.out (s.radFrameIn r x)

/-- The mark of a frame without an item in a launch queue: a TIME, an association response, a NONE. -/
def RadJob.mark (j : RadJob) : Nat × Nat := if j.kind = 3 then (1, j.ext) else if j.typ = 6 then (0, j.dst) else (2, j.dst)

/-- An indirect item that the duty budget defers, or a frame without an item, keeps the mark until it goes (R194). -/
def State.markIndirect (s : State) (r : Nat) (j : RadJob) : State :=
  match j.iseq.bind (s.iseqIdx j.q) with
  | some i =>
    let x := s.q j.q
    let it := x.items.getD i {}
    (s.setQ j.q { x with items := x.items.set i { it with deferred := true } }).noteDeferred r it.deferred
  | none => (s.noteDeferred r (s.waitsFor r j.mark)).setPort r
      { (s.noteDeferred r (s.waitsFor r j.mark)).port r with marks := addMem (s.port r).marks j.mark }

/-- A frame that exceeds MAX_DWELL waits no longer (R195): its item, the association response or the TIME that is due. -/
def State.dropServed (s : State) (r : Nat) (j : RadJob) : State :=
  match j.iseq.bind (s.iseqIdx j.q) with
  | some i => s.spend j.q i
  | none =>
    let s1 := s.setPort r { s.port r with ext := if j.kind = 3 then (s.port r).ext.filter fun p => p.1 ≠ j.ext else (s.port r).ext
                                          force := if j.typ = 6 then dropMem (s.port r).force j.dst else (s.port r).force
                                          marks := (s.port r).marks.filter fun m => decide (m ≠ j.mark) }
    match (if j.typ = 6 then s1.rnode r j.dst else none) with
    | some n => s1.setRnode r j.dst (some { n with timeDue := false })
    | none => s1

/-- The frame that follows a data request's acknowledgement (R185, R186, R193 to R195). -/
def State.serve (s : State) (r air : Nat) (j : RadJob) (f : Option (List Byte) × State) : State :=
  if (s.port r).job.isSome then s
  else if (s.port r).tooLong air then ((s.dropServed r j).radCompletion r j.flow j.stamp 0x07).raise (radEvt r 8)
  else if !(s.port r).mayLaunch air false then s.markIndirect r j
  else match f.1 with
    | none => f.2
    | some b =>
      let s1 := f.2.setPort r { f.2.port r with marks := (f.2.port r).marks.filter fun m => decide (m ≠ j.mark) }
      s1.radStart r { j with deferred := j.deferred || (j.iseq.isNone && s.waitsFor r j.mark) } [] b

/-- The answer to a data request whose pending bit was 1: an association response, a TIME that is due, the waiting item, or
NONE (R184 to R186, R197). -/
def State.answerDataRequest (s : State) (r air : Nat) (x : RadRx) : State :=
  let j0 : RadJob := { air := air, ackReq := true, seq := (s.port r).seq, stamp := s.txStamp (5 + r) false false }
  match x.src with
  | .ext e => match (s.port r).ext.find? fun p => p.1 == e with
    | some (_, a, st) =>
      s.serve r air { j0 with kind := 3, ext := e, dst := 0xFFFE, flow := s.euiFlow e }
        (some (s.assocResponse r e a st), s.setPort r { s.port r with seq := ((s.port r).seq + 1) % 256 })
    | none => s
  | .short a =>
    let j1 : RadJob := { j0 with flow := s.nodeFlow (3 + r) a, dst := a, dest := a }
    if (s.rnode r a).any (·.timeDue) then
      s.serve r air { j1 with typ := 6 } (s.secure r 1 a (s.stampTime r a (radMsg 6 (s.timeBody r s.xt s.clk.ptp))) true)
    else match s.indirectIdx r a with
      | some (q, i) =>
        let it := (s.q q).items.getD i {}
        s.serve r air { j1 with q := q, flow := it.flow, kind := it.radKind, typ := beAt it.radMsg 0 1
                                dest := s.radFinal r a it.radMsg, deferred := it.deferred, iseq := some it.iseq } (s.radFrame r it)
      | none => s.serve r air { j1 with typ := 10 } (s.secure r 1 a (radMsg 10 []) true)
  | .absent => s

/-- A data request begins the endpoint's next turn (R253). -/
def State.noteAsked (s : State) (r a : Nat) : State :=
  match s.rnode r a with
  | some n => s.setRnode r a (some { n with asked := n.asked + 1 })
  | none => s

/-- A data request (R185, R186, R189, R192). Its sleepy header stands behind the command identifier (DESIGN CHOICE, log entry 119). -/
def State.dataRequest (s : State) (r air : Nat) (x : RadRx) : State :=
  let t := s.rxStamp (5 + r)
  let pending := s.pendingFor r x.src
  let p := s.radAccept r x
  match p.1 with
  | none => p.2
  | some m =>
    let s1 := match p.2.radSrc r x.src with
      | some a => (((p.2.endProvisional r a x.secured).sleepySync r a t (m.drop 1)).dropCover r a).noteAsked r a
      | none => p.2
    if pending then s1.answerDataRequest r air x else s1

/-- DATA_REQUEST: R180, R185, R186, R189, R192, R197. `air` is the airtime of the frame that follows, in µs. -/
def execDataRequest (r air : Nat) (x : RadRx) (s : State) : Out :=
  s.out (if s.radHears r then s.dataRequest r air x else s)

/-! ### Messages -/

/-- The queue through which radio records reach the pipeline, with the message's FLAGS (R182). -/
def State.recordIn (s : State) (r a flags : Nat) (crr : List Byte) (t : Stamp) : State :=
  match roleQ s.man.roles.validIn r with
  | some q =>
    s.produce (.oarsman (4 + r) 0) q
      (mkItem (s.nodeFlow (3 + r) a) t (t.bytes ++ be 1 (3 + r) ++ be 1 flags ++ be 2 a ++ be 2 crr.length
        ++ be 2 (s.turnOf (3 + r) a) ++ be 4 0 ++ crr))
  | none => s

/-- The poll that a message of an endpoint answers ends (R188). -/
def State.endPoll (s : State) (r a : Nat) (p : Exchange → Bool) : State :=
  match (s.cell (3 + r)).exchangeOf a with
  | some x => if x.job.isNone && p x then s.endExchange (3 + r) x else s
  | none => s

/-- A CRR from a radio endpoint (R188). -/
def State.reading (s : State) (r a flags : Nat) (crr : List Byte) : State :=
  let snap := if beAt crr 0 1 % 16 = 2 then beAt crr 14 6 else 0
  let s1 := match s.node (3 + r) a with
    | some n => s.setNode (3 + r) a (some { n with polled := n.polled + 1, snapDone := max n.snapDone snap })
    | none => s
  (s1.recordIn r a flags crr (s.rxStamp (5 + r))).endPoll r a fun x => x.kind == 1 || x.kind == 2

/-- READING_MESSAGE: R182, R188. FLAGS and the body of the message: one CRR. -/
def execReadingMessage (r a : Nat) (msg : List Byte) (s : State) : Out :=
  s.out (if s.warned then s else s.reading r a (beAt msg 0 1) (msg.drop 1))

/-- A session-record segment from a radio endpoint (R237). -/
def State.radSegment (s : State) (r a : Nat) (body : List Byte) : State :=
  let s1 := s.segment (3 + r) a (beAt body 0 2) (beAt body 2 2) (body.drop 4) (s.rxStamp (5 + r))
  let s2 := match s1.node (3 + r) a with
    | some n => s1.setNode (3 + r) a (some { n with lsrHeld := n.polled })
    | none => s1
  s2.endPoll r a fun x => x.kind == 3

/-- SEGMENT_MESSAGE: R182, R237 to R239. -/
def execSegmentMessage (r a : Nat) (body : List Byte) (s : State) : Out :=
  s.out (if s.warned then s else s.radSegment r a body)

/-- A command acknowledged by a radio endpoint (R147, R188). -/
def State.radAckIn (s : State) (r a : Nat) (body : List Byte) : State :=
  let st := beAt body 4 1
  match (s.cell (3 + r)).exchangeOf a with
  | some x => if x.job.isSome ∧ x.cseq = beAt body 0 4 ∧ 4 ≤ st ∧ st ≤ 6 then s.endExchange (3 + r) x else s
  | none => s

/-- RADIO_ACK_MESSAGE: R147, R182, R188. -/
def execRadioAckMessage (r a : Nat) (body : List Byte) (s : State) : Out := s.out (s.radAckIn r a body)

/-- A message of a depth-2 endpoint inside RELAY (R183). -/
def State.relayed (s : State) (r a eui : Nat) (inner : List Byte) : State :=
  match s.radByEui r eui with
  | none => s
  | some (k, _) =>
    if (s.rnode r k).any (fun n => n.parent == a) then
      let s1 := s.endProvisional r k true
      let b := radBody inner
      if beAt inner 0 1 = 1 then s1.reading r k (beAt inner 1 1) b
      else if beAt inner 0 1 = 2 then s1.radSegment r k b
      else if beAt inner 0 1 = 4 then s1.radAckIn r k b
      else s1
    else s

/-- RELAY_MESSAGE: R183. `body` is the RELAY body that the router with short address a sent up: EUI-64 and message. A
message down goes inside RELAY when it is queued. -/
def execRelayMessage (r a : Nat) (body : List Byte) (s : State) : Out :=
  s.out (if s.warned then s else s.relayed r a (beAt body 0 8) (body.drop 8))

/-! ### Association -/

/-- An association response waits for the requester's data request, where one of the 16 entries is free (R185); to a depth-2 endpoint it
goes through its parent (R183; DESIGN CHOICE, log entry 119). -/
def State.putExt (s : State) (r eui a st parent : Nat) : State :=
  let l := (s.port r).ext.filter fun p => p.1 ≠ eui
  if parent ≠ 0 then s.queueRad r parent (s.euiFlow eui) 0 (radMsg 7 (be 8 eui ++ le 1 2 ++ le 2 a ++ le 1 st))
  else if 16 ≤ l.length then s
  else s.setPort r { s.port r with ext := l ++ [(eui, a, st)] }

/-- The first row of the Association decisions table that refuses (R184): 1, 2, 3, 4 or 5; 0 when none does. -/
def State.assocCheck (s : State) (r eui : Nat) : Nat :=
  match s.enrolment eui with
  | none => 1
  | some rec1 =>
    if natBit (beAt rec1 51 1) 0 then 1
    else if !s.flag (radCfg_ASSOC_OPEN r) then 2
    else if s.cellLimit (3 + r) ≤ (s.cell (3 + r)).members.length then 3
    else if s.totalReached then 4
    else if s.warned || !(List.range 60).any (fun g => !(s.grp g).held) || !s.txnCan (4 + r) || decide (16 ≤ (s.port r).ext.length) then 5
    else 0

/-- An accepted association (R184 rows 6 and 7, R275). -/
def State.associate (s : State) (r eui caps parent : Nat) : State :=
  let c := 3 + r
  let old := s.radByEui r eui
  let a := match old with
    | some p => p.1
    | none => s.freeAddr c
  let depth := if parent = 0 then 1 else 2
  match s.register ((s.enrolment eui).getD []) c a depth parent with
  | none => (s.raise (radEvt r 1)).noRoom true eui (s.cellNo c)
  | some (slot, s1) =>
    let n : Node := { slot := slot, eui := eui, parent := parent, depth := depth, branch := (if parent = 0 then a else parent), probed := s.ptpSec }
    let s2 := s1.setNode c a (some n)
    let router := decide (parent = 0) && s.flag (radCfg_ROUTERS r) && natBit caps 1 && natBit caps 2
    let x : RNode := { parent := parent, router := router, provisional := true, answered := decide (parent ≠ 0) }
    let due := decide (s2.snapNow ≠ 0) && s2.isSleepy r a
    let s3 := (s2.setRnode r a (some { x with timeDue := due })).ctxPut slot 236 (be 2 parent ++ be 1 depth ++ be 1 (ofBool router))
    let s4 := if due then s3.setPort r { s3.port r with force := addMem (s3.port r).force a } else s3
    ((s4.showCell c).putExt r eui a 0 parent).raise (radEvt r 0)

/-- The decision on an association request (R184). -/
def State.assocDecide (s : State) (r eui caps parent : Nat) : State :=
  match s.assocCheck r eui with
  | 0 => s.associate r eui caps parent
  | 1 => (s.raiseLog (radEvt r 2) (be 8 eui ++ be 1 1)).putExt r eui 0xFFFF 2 parent
  | 2 => (s.raiseLog (radEvt r 2) (be 8 eui ++ be 1 2)).putExt r eui 0xFFFF 2 parent
  | 3 => ((s.raise (radEvt r 1)).noRoom false eui (s.cellNo (3 + r))).putExt r eui 0xFFFF 1 parent
  | 4 => ((s.raise (radEvt r 1)).noRoom true eui (s.cellNo (3 + r))).putExt r eui 0xFFFF 1 parent
  | _ => s

/-- Whether a parent may have children (R183): the chip, or a router at depth 1. -/
def State.mayParent (s : State) (r parent : Nat) : Bool :=
  decide (parent = 0) || (s.flag (radCfg_ROUTERS r) && (s.rnode r parent).any fun n => n.router && n.parent == 0)

/-- An association request: over the air for a child of the chip, by its router for a depth-2 endpoint (R183, R184). -/
def State.assocRequest (s : State) (r : Nat) (x : RadRx) (caps parent : Nat) : State :=
  match x.src with
  | .ext e =>
    if parent = 0 then
      let p := s.radAccept r x
      if p.1.isSome then p.2.assocDecide r e caps 0 else p.2
    else if s.mayParent r parent then s.assocDecide r e caps parent
    else s
  | _ => s

/-- ASSOCIATION_REQUEST: R5 to R7, R13, R172, R176, R179, R180, R183, R184, R274, R275, R277. -/
def execAssociationRequest (r : Nat) (x : RadRx) (caps parent : Nat) (s : State) : Out :=
  s.out (if s.radHears r then s.assocRequest r x caps parent else s)

/-- PROVISIONAL_EXPIRY: R184. -/
def execProvisionalExpiry (r a : Nat) (s : State) : Out :=
  match s.rnode r a with
  | some n => s.out (if n.provisional then ((s.leaveNow (3 + r) a).setPort r
      { (s.leaveNow (3 + r) a).port r with ext := (s.port r).ext.filter fun p => p.2.1 ≠ a }).raise (radEvt r 3) else s)
  | none => s.out s

/-! ### Sampled listening -/

/-- The instant in ns of an item's launch deadline, in crossing time or PTP time (R63), none without one. -/
def State.itemDeadline (s : State) (it : Item) : Option Nat :=
  (s.launchDue (it.word 0) 0).map fun d => if d.1 then s.clk.ptp + (d.2 - s.xt) * s.period / 65536 else d.2

/-- The next data request that a wake model predicts, in ns. -/
def Sleepy.nextReq (m : Sleepy) (now : Nat) : Nat := m.firstReq + m.missedReqs now * m.reqEvery

/-- A cover planned for an item of an endpoint with its transaction entry (R190). -/
def State.planCover (s : State) (r a : Nat) (m : Sleepy) (txn iseq : Nat) : State :=
  let c := s.coverOf r m
  s.setPort r { s.port r with cover := some { addr := a, start := c.1, len := c.2.1, whole := c.2.2, txn := txn, iseq := iseq } }

/-- Whether an item's launch deadline lies before its endpoint's predicted next data request (R190). -/
def State.beforeReq (s : State) (m : Sleepy) (it : Item) : Bool :=
  match s.itemDeadline it with
  | some d => decide (d < m.nextReq s.clk.ptp)
  | none => false

/-- The item for which an endpoint is to be reached by sampled listening (R190): the first with such a deadline, else the first that waits
where three data requests have been missed. -/
def State.coverItem (s : State) (q a : Nat) (m : Sleepy) : Option Item :=
  let l := (s.q q).items.filter fun it => !it.gone && !it.done && it.radDst == a
  (l.find? (s.beforeReq m)).orElse fun _ => if 3 ≤ m.missedReqs s.clk.ptp then l.head? else none

/-- The planning of a cover for a sleepy child with a waiting item. -/
def State.coverPlan (s : State) (r a : Nat) : State :=
  match s.rnode r a, roleQ s.man.roles.radIndirect r with
  | some n, some q => match n.sleepy.bind fun m => (s.coverItem q a m).map fun it => (m, it.iseq) with
    | none => s
    | some (m, k) =>
      if n.parent ≠ 0 ∨ (s.port r).cover.isSome ∨ 3 ≤ m.tries then s
      else match s.txnFor (8 + r) { kind := 3, issuer := 4 + r, slot := (s.node (3 + r) a).map (·.slot), flow := s.nodeFlow (3 + r) a } with
        | none => s.workWaits (8 + r) (4 + r)
        | some (e, s1) => s1.planCover r a m e k
  | _, _ => s

/-- COVER_PLAN: R190, R200. -/
def execCoverPlan (r a : Nat) (s : State) : Out := s.out (if s.warned then s else s.coverPlan r a)

/-- An unacknowledged cover (R192): the guard doubles and the cover is planned again; after the third, event 11. -/
def State.coverFailed (s : State) (r : Nat) (c : Cover) : State :=
  match s.rnode r c.addr with
  | none => s
  | some n => match n.sleepy with
    | none => s
    | some m =>
      let m1 := { m with tries := m.tries + 1 }
      let s1 := s.setRnode r c.addr (some { n with sleepy := some m1 })
      if 3 ≤ m1.tries then
        let s2 := (s1.setPort r { s1.port r with cover := none }).txnRelease c.txn
        let s3 := match s2.node (3 + r) c.addr with
          | some k => s2.setNode (3 + r) c.addr (some { k with unreached := k.unreached + 1 })
          | none => s2
        s3.raise (radEvt r 11)
      else s1.planCover r c.addr m1 c.txn c.iseq

/-- COVER_UNACKED: R192. -/
def execCoverUnacked (r : Nat) (s : State) : Out :=
  match (s.port r).cover with
  | none => s.out s
  | some c => match (s.port r).job with
    | some j => s.out ((if j.cover then (s.radSend r j).radDone r else s).coverFailed r c)
    | none => s.out (s.coverFailed r c)

/-! ### Registers -/

/-- A word of RAD_PEND_CTRL_r. -/
def pendWord (op a : Nat) : Word := BitVec.ofNat 32 (op * 2 ^ 30 + a % 65536)

/-- An operation of RAD_PEND_CTRL_r (R185). -/
def State.pendOp (s : State) (r : Nat) (v : Word) : State :=
  let a := bitsOf v 15 0
  let op := bitsOf v 31 30
  let x := s.port r
  if a = 0 ∨ 0x800 < a then s
  else if op = 1 then s.setPort r { x with force := addMem x.force a }
  else if op = 2 then s.setPort r { x with force := dropMem x.force a }
  else if op = 3 then
    let n := ((List.range 0x800).filter fun k => s.pendingBit r (k + 1)).length
    ((s.set (radPendStat_FORCE r) (ofBool (decide (a ∈ x.force)))).set (radPendStat_PENDING r) (ofBool (s.pendingBit r a))).set
      (radPendStat_COUNT r) n
  else s

/-- PEND_FORCE_SET: R185. -/
def execPendForceSet (i : Iface) (r a : Nat) (s : State) : Out :=
  s.out (if r < 2 then s.writeGate i (radPendCtrl r) (pendWord 1 a) fun s => s.pendOp r (pendWord 1 a) else s)

/-- PEND_FORCE_CLEAR: R185. -/
def execPendForceClear (i : Iface) (r a : Nat) (s : State) : Out :=
  s.out (if r < 2 then s.writeGate i (radPendCtrl r) (pendWord 2 a) fun s => s.pendOp r (pendWord 2 a) else s)

/-- PEND_QUERY: R185. -/
def execPendQuery (i : Iface) (r a : Nat) (s : State) : Out :=
  s.out (if r < 2 then s.writeGate i (radPendCtrl r) (pendWord 3 a) fun s => s.pendOp r (pendWord 3 a) else s)

/-- What CLR of RAD_ERR_r does. -/
def State.clearRadErr (s : State) (r : Nat) (v : Word) : State :=
  if wordBits v (radErr_CLR r) = 1 then (s.set (radErr_SECFAIL r) 0).set (radErr_FILTERED r) 0 else s

/-- RAD_ERR_CLEAR: R179, R181. -/
def execRadErrClear (i : Iface) (r : Nat) (s : State) : Out :=
  s.out (if r < 2 then s.writeGate i (radErr r) 0x80000000 fun s => s.clearRadErr r 0x80000000 else s)

/-- SPI_TIMEOUT: R173. -/
def execSpiTimeout (r : Nat) (s : State) : Out := s.out (s.raise (radEvt r 10))

end Sys2Proof.Machine
end

