-- ==== Sys2Proof/Machine/Validation.lean ====
section
/-!
DEFINITION. The commands of the validation pipeline (08_reading_validation.md).
-/
namespace Sys2Proof.Machine

/-! ### Records -/

/-- The PLC path whose receive queue a queue is. -/
def State.pathOfQueue (s : State) (q : Nat) : Option Nat :=
  (List.range 3).find? fun p => roleQ s.man.roles.plcRx p == some q

/-- The record in an item of a PLC receive queue: a RESPONSE of KIND 0x01 or 0x02 that the cell accepts (R107, R134, R137). -/
def State.plcRecord (s : State) (p : Nat) (it : Item) : Option VRec :=
  let b := it.bytes
  let c := s.pathCell p
  let f := slice b 40 (beAt b 36 2)
  let r := frBody f
  if beAt b 20 1 ≠ 0 ∨ !s.frameOk c f ∨ frType f ≠ 3 then none
  else if beAt r 0 1 ≠ 1 ∧ beAt r 0 1 ≠ 2 then none
  else some { bytes := slice r 12 (beAt r 10 2), stamp := Stamp.ofBytes (slice b 0 20), cell := c, addr := frSrc f
              snr := [beAt b 24 1, beAt b 25 1, beAt b 26 1], poison := it.poisoned }

/-- The record in an item of any other validation queue (log entry 23): stamp, cell, FLAGS, address, length, turn, the record. -/
def otherRecord (it : Item) : VRec :=
  let b := it.bytes
  { bytes := slice b 32 (beAt b 24 2), stamp := Stamp.ofBytes (slice b 0 20), cell := beAt b 20 1, addr := beAt b 22 2
    turn := beAt b 26 2, poison := it.poisoned }

/-- The stamp of the item that a queue delivers next (R67). -/
def State.nextStamp (s : State) (q : Nat) : Option Stamp :=
  if !s.qUsed q || !(s.q q).deliverable then none
  else match (s.q q).lane with
    | l :: _ => some l.item.order
    | [] => (s.q q).nextIdx.map fun i => ((s.q q).items.getD i {}).order


/-- The queue that the pipeline serves when a record waits in a queue: in stamp order, the lower queue number first at equal stamps
(R67). -/
def State.mergeQueue (s : State) (q : Nat) : Nat :=
  match s.nextStamp q with
  | none => q
  | some t => (s.validQueues.foldl (fun (b : Nat × Stamp) k => match s.nextStamp k with
      | none => b
      | some u => if u.earlier b.2 ∨ (!b.2.earlier u ∧ k < b.1) then (k, u) else b) (q, t)).1

/-- A record is taken from a receive queue (R240, R241): not while all places are held; waiting records go first. `line` tells
what its context fetch met in DRAM. -/
def State.takeRecord (s : State) (q0 : Nat) (line : LineRead) : State :=
  let s0 := s.retryRecs
  let q := s0.mergeQueue q0
  if !s0.tableReady then s0
  else match s0.freePlace with
  | none => s0
  | some _ => match s0.deliver q with
    | none => s0
    | some (it, s1) => match s1.pathOfQueue q with
      | some p => match s1.plcRecord p it with
        | some v => s1.enterRec v line
        | none => s1
      | none => s1.enterRec (otherRecord it) line

/-- VALIDATION_RECORD: R25, R158, R231 to R236, R240 to R252, R266, R268 to R271, R531, R552. -/
def execValidationRecord (q : Nat) (line : LineRead) (s : State) : Out := s.out (s.takeRecord q line)

/-- RECORD_FLOW_RESUME: R241, R243 to R248, R273. A table operation that waits for the endpoint goes first (DESIGN CHOICE, log
entry 44); of the records that wait for the same endpoint, the one that reached its buffer first. -/
def execRecordFlowResume (x : PlaceRead) (s : State) : Out :=
  let s1 := s.retryOp
  match s1.vrec x.place with
  | some v => s.out (if x.poison then s1.poisonRec x.place v else if v.stage = 1 then s1.resumeRec (s1.firstWaiter x.place v) else s1)
  | none => s.out s1

/-- GROUP_WAIT_EXPIRY: R251, R264. The wait that the open group began with has run out. -/
def execGroupWaitExpiry (s : State) : Out :=
  s.out (if s.warned || decide (s.clk.mono < s.val.groupAt + 1000 * s.val.groupWait) then s else s.sealVal)

/-- REASSEMBLY_TIMEOUT: R238. -/
def execReassemblyTimeout (c a : Nat) (s : State) : Out :=
  match s.reasmOf c a with
  | none => s.out s
  | some _ => s.out ((s.dropReasm c a).raise 201)

/-! ### Evidence batches -/

/-- BATCH_MAXAGE_EXPIRY: R256. -/
def execBatchMaxageExpiry (s : State) : Out := s.out (s.closeBatch 2)

/-- The header of a batch (R255). -/
def State.batchHeader (s : State) (b : Batch) (bseq : Nat) : List Byte :=
  be 4 0x43454231 ++ be 1 1 ++ be 1 b.flags ++ be 2 b.count ++ be 8 s.fuses.eui ++ be 2 s.man.hubId ++ be 2 s.ownChip
    ++ be 8 bseq ++ b.openStamp.bytes ++ be 6 (b.closeNs / nsPerSec) ++ be 4 (b.closeNs % nsPerSec)
    ++ be 4 (64 + b.entries.length) ++ be 2 0


/-- A closed batch is signed with the next index, stored and queued (R255 to R258): event 205. -/
def State.signBatch (s : State) (b : Batch) (rest : List Batch) : State :=
  let r := s.takeIndex
  let n := s.val.bseq + 1
  let body := r.2.batchHeader b n ++ b.entries
  let all := body ++ padTo 5605 (r.2.idSign r.1 body)
  let key := match (smGet [] r.2.live.tables tabClosed) with
    | p :: _ => p.1
    | [] => 0
  let s1 := r.2.journalUpd [.record tabSigned n (nums all), .record tabClosed key []]
  let b1 := { b with bseq := n, idx := r.1, bytes := all }
  let s2 : State := { s1 with val := { s1.val with closed := rest, signed := s1.val.signed ++ [b1], bseq := n } }
  (((s2.showBatch).raise 205).sendParts s2.upPeer (some n) all).noteLimit

/-- BATCH_SIGNED: R255 to R258, R261, R486, R488. During a power warning the signature that had started completes; no other starts. -/
def execBatchSigned (s : State) : Out :=
  match s.val.closed with
  | b :: rest =>
    s.out (if (!s.warned || s.val.signing) && s.batchSignable then
        State.signBatch { s with val := { s.val with signing := false } } b rest else s)
  | [] => s.out s

/-! ### Registers -/

/-- What a write to VAL_DEDUP_SEL does (R248): the endpoint's window is captured; an index without an endpoint shows an empty
window (DESIGN CHOICE, log entry 45). -/
def State.dedupQuery (s : State) : State :=
  let w := match s.named (s.get valDedupSel_INDEX) with
    | some k => s.window k (s.flag valDedupSel_SESSION)
    | none => (0, 0)
  ((s.setReg valDedupTop (BitVec.ofNat 32 w.1)).setReg valDedupWhi (BitVec.ofNat 32 (w.2 / 2 ^ 32))).setReg valDedupWlo
    (BitVec.ofNat 32 w.2)

/-- DEDUP_QUERY: R248, 08_reading_validation.md. -/
def execDedupQuery (i : Iface) (v : Word) (s : State) : Out := s.out (s.writeGate i valDedupSel v State.dedupQuery)

/-- What a write to VAL_VCNT_SEL does (R242). -/
def State.clearVcnt (s : State) (v : Word) : State :=
  if wordBits v valVcntSel_CLR = 1 then { s with val := { s.val with vcnt := [] } } else s

/-- VAL_VCNT_CLEAR: R242. -/
def execValVcntClear (i : Iface) (v : Word) (s : State) : Out :=
  let w := v ||| 0x80000000#32
  s.out (s.writeGate i valVcntSel w fun s => s.clearVcnt w)

/-- What a write to VAL_BATCH_CFG does (R264): a batch that already meets the new limits closes at once. -/
def State.batchCfg (s : State) : State :=
  let b := s.val.batch
  let age := max 1 (s.get valBatchCfg_MAXAGE)
  if b.count = 0 then s
  else if b.openStamp.ptp + age * nsPerSec ≤ s.clk.ptp then s.closeBatch 2
  else if s.maxEntries ≤ b.count then s.closeBatch 0
  else s

/-- VAL_BATCH_CFG_WRITE: R256, R264. -/
def execValBatchCfgWrite (i : Iface) (v : Word) (s : State) : Out := s.out (s.writeGate i valBatchCfg v State.batchCfg)

end Sys2Proof.Machine
end

