-- ==== Sys2Proof/Machine/Bus.lean ====
section
/-!
DEFINITION. Any register access by any interface (R15 to R19, R42, R43, R402, R505): which action a written word has beside its
stored effect, what a read returns and does, the doorbell pages, the rescue window.
-/
namespace Sys2Proof.Machine

/-- The state a command leaves. -/
def afterOut (o : Out) (s : State) : State :=
  match o with
  | .next t => t
  | _ => s

/-- The action of a write in the SYS_, XING_ and MET_ blocks; `s0` is the state before the write. -/
def State.actCore (s0 : State) (i : Iface) (a : Nat) (v : Word) (s : State) : State :=
  if a = sysProfileCtrl then s.profileWrite i (s0.reg sysProfileCtrl) v
  else if a = sysDramEcc then s.clrDramEcc v
  else if a = xingLatch then s.latchWrite v
  else if xingLate 0 ≤ a ∧ a ≤ xingLate 255 then s.lateWrite ((a - xingLate 0) / 4) v
  else if a ∈ calAddrs then s.showPending
  else if a = metCalCtrl then s.calCtrl v
  else if a = metSealCtrl then (if wordBits v metSealCtrl_CLOSE = 1 then s.closeWrite else s)
  else s

/-- The action of a write in the PLC_, RAD_ and ETH_ blocks. A clock rate beyond 500 ppm is clamped (PTP_ADJ). -/
def State.actLinks (i : Iface) (a : Nat) (v : Word) (s : State) : State :=
  match (List.range 3).find? fun p => a == plcTxStat p with
  | some p => s.rearm p v
  | none => match (List.range 3).find? fun p => a == plcRxCnt p with
    | some p => s.clearRx p v
    | none => match (List.range 3).find? fun c => a == plcXchFail c with
      | some c => s.clearXch c v
      | none => match (List.range 2).find? fun r => a == radPendCtrl r with
        | some r => s.pendOp r v
        | none => match (List.range 2).find? fun r => a == radErr r with
          | some r => s.clearRadErr r v
          | none => match (List.range 2).find? fun x => a == ethCnt x with
            | some x => s.clearEthCnt x v
            | none =>
              if a = plcRouteSel then s.routeQuery
              else if a = ptpAdj then s.setReg (regKey i ptpAdj)
                (BitVec.ofNat 32 (ofSigned 32 (clampInt (-128000000) 128000000 (toSigned 32 v.toNat))))
              else s

/-- The action of a write in the VAL_, EPT_, BAL_, TRF_ and BIL_ blocks. -/
def State.actTables (a : Nat) (v : Word) (s : State) : State :=
  if a = valDedupSel then s.dedupQuery
  else if a = valVcntSel then s.clearVcnt v
  else if a = valBatchCfg then s.batchCfg
  else if a = eptCmd then s.eptOp (wordBits v eptCmd_OP) (wordBits v eptCmd_INDEX)
  else if eptStage 0 ≤ a ∧ a ≤ eptStage 31 then { s with ept := { s.ept with hideKey := true } }
  else if a = balNodeSel then s.nodeQuery
  else if a = balEpSel then s.epQuery
  else if a = balEpNode then s.epNodeWrite v
  else if a = trfGroupSel then s.groupQuery
  else if a = trfQryQ then s.rateQuery
  else if a = bilSel then s.bilQuery
  else if a = bilLpQ then s.lpQuery []
  else s

/-- The action of a write in the CMT_, PAN_, HLD_ and LGB_ blocks. -/
def State.actStore (i : Iface) (a : Nat) (v : Word) (s : State) : State :=
  match (List.range 10).find? fun w => a == cmtPush w with
  | some w => s.pushAction i w (wordBits v (cmtPush_GROUP w))
  | none => match (List.range 10).find? fun w => a == lgbRdSel w with
    | some w => s.logCapture i w
    | none =>
      if a = cmtCtrl then
        let g := wordBits v cmtCtrl_GROUP
        let r := match wordBits v cmtCtrl_OP with
          | 1 => some (s.sealBy g i.issuer)
          | 2 => some (s.abortRequest g i.issuer)
          | _ => none
        match r with
        | some (x, t) => t.setReg (resKey i) (wd x)
        | none => s
      else if a = panFbAddr then s.fbAddr
      else if a = panFbData then s.fbWrite v
      else if a = panAcctSel then s.acctQuery
      else if a = hldCmd then s.holdCmd i (wordBits v hldCmd_OP)
      else if a = hldStrSel then s.streamCapture
      else if a = hldEcc then (if wordBits v hldEcc_CLR = 1 then s.clrHldEcc else s)
      else if a = lgbClear then (if wordBits v lgbClear_CLEAR = 1 then s.clearWrite i else s)
      else s

/-- A write in a queue's registers: retained-item operations and counter clears, by offset. -/
def State.actQueue (s : State) (q off : Nat) (v : Word) : State :=
  if off = 0x10 then s.qOp q (wordBits v (whfQCtrl_OP q)) (decide (wordBits v (whfQCtrl_ALL q) = 1)) (wordBits v (whfQCtrl_ISEQ q))
  else if off = 0x1C ∧ wordBits v (whfQCnt_CLR q) = 1 then s.clrQCnt q
  else s

/-- The event of a queue that a written enable makes pending (R403). -/
def State.nowPending (s0 : State) (q : Nat) (s : State) : State :=
  s.raiseIf (!s0.qPending q && s.qPending q) (320 + s.get (whfQCfg_EVT q))

/-- The action of a write in the WHF_ block. -/
def State.actWhf (s0 : State) (a : Nat) (v : Word) (s : State) : State :=
  if a < 0xC02000 then
    (if (whfPlace a).2 = 0x4 then s0.nowPending (whfPlace a).1 s else s.actQueue (whfPlace a).1 (whfPlace a).2 v)
  else s

/-- The action of a write in the FRY_ block: the thread of the core that writes (R411, R422). -/
def State.actFry (i : Iface) (a : Nat) (v : Word) (s : State) : State :=
  if a = fryCnt then (if wordBits v fryCnt_CLR = 1 then s.clrFryCnt else s)
  else match i with
  | .core c =>
    if a = frySelfWait then
      afterOut (execThreadWait c (wordBits v frySelfWait_EVENT_A)
        (if wordBits v frySelfWait_B_EN = 1 then some (wordBits v frySelfWait_EVENT_B) else none) s) s
    else if a = frySelfCtrl then
      match wordBits v frySelfCtrl_OP with
      | 1 => afterOut (execThreadYield c s) s
      | 2 => afterOut (execThreadDone c s) s
      | 3 => afterOut (execThreadExit c s) s
      | 4 => afterOut (execSetPriority c (wordBits v frySelfCtrl_PRIO) s) s
      | _ => s
    else s
  | _ => s


/-- What the image named by MFT_STAGE_ADDR and MFT_STAGE_LEN holds (R506). -/
def State.stagedImage (s : State) : MCopy :=
  (stagedContent (s.dramGet (s.get mftStageAddr_ADDR * 64) (min (s.get mftStageLen_LEN) 8388608))).getD {}

/-- The action of a write in the KEY_, MFT_, PWR_ and TST_ blocks. The supply reading at a reset written over a bus is a free value. -/
def State.actSys (i : Iface) (a : Nat) (v : Word) (s : State) : State :=
  if a = Sys2Proof.Machine.keyCmd then s.keyCmd i (wordBits v keyCmd_OP)
  else if a = keyAttCtrl then s.attest v
  else if keyStage 0 ≤ a ∧ a ≤ keyStage 15 then
    { s with keys := { s.keys with staged := smPut 0 s.keys.staged (i.window * 16 + (a - keyStage 0) / 4) v } }
  else if a = mftCmd then s.mftOp (wordBits v mftCmd_OP) s.stagedImage
  else if a = pwrReset then (let r := s.draw 11; r.2.resetWrite i v r.1)
  else if a = tstCtrl then s.tstKey i v
  else if a = tstPcfg then s.tstPcfgWrite i v
  else if a = tstParam then s.tstParamWrite v
  else s

/-- What a written word does beside its stored effect, by block. -/
def State.busAct (s0 : State) (i : Iface) (a : Nat) (v : Word) (s : State) : State :=
  let b := a / 0x100000
  if b < 3 then s0.actCore i a v s
  else if b < 6 then State.actLinks i a v s
  else if b < 0xA then State.actTables a v s
  else if b = 0xC then s0.actWhf a v s
  else if b = 0xD then State.actFry i a v s
  else if b = 0xE then
    (match (List.range 16).find? fun n => a == Sys2Proof.Machine.oarCtrl n with
     | some n => s.oarCtrl i n v
     | none => s)
  else if b = 0xA ∨ b = 0xB ∨ b = 0xF ∨ b = 0x10 then State.actStore i a v s
  else State.actSys i a v s

/-- Whether an address lies beyond the register blocks, where writes are ignored and reads return 0 (R42). -/
def beyondBlocks (a : Nat) : Bool := decide (0x1500000 ≤ a)

/-- Whether a write of MFT_RESCUE_WIN is ignored: outside rescue. -/
def State.rescueOnly (s : State) (a : Nat) : Bool := a == mftRescueWin && !s.flag mftStat_RESCUE

/-- A whole-word write at an aligned address. -/
def State.busWrite (s : State) (i : Iface) (a : Nat) (v : Word) : State :=
  if beyondBlocks a || s.rescueOnly a then s else s.writeGate i a v (s.busAct i a v)

/-- The actions of a read: registers whose table states one. The supply readings of PWR_VIN are free values here. -/
def State.readAct (s : State) (i : Iface) (a : Nat) : Word × State :=
  if a = cmtAlloc then s.allocRead i
  else if a = cmtGstat then s.gstatRead
  else if a = cmtJseqHi then s.jseqRead
  else if a = cmtCntHi then s.cntRead
  else if a = fryCreate then s.createThread i
  else if a = fryC0Stat 0 then s.c0StatRead 0
  else if a = fryC0Stat 1 then s.c0StatRead 1
  else if a = keyIdxHi then s.indexCapture
  else if a = metQtyHi then s.qtyRead
  else if a = panFbData then s.fbRead
  else if a = valBseqHi then
    (wd (s.val.bseq / 2 ^ 32), (s.setReg valBseqHi (wd (s.val.bseq / 2 ^ 32))).setReg valBseqLo (wd s.val.bseq))
  else if a = pwrVin then (let r := s.draw 11; let m := r.2.draw 11; m.2.vinRead r.1 m.1)
  else (s.shown i a, s)

/-- A read of the aligned word that holds an address (R17): the word and the state after it. -/
def State.busRead (s : State) (i : Iface) (a : Nat) : Word × State :=
  let b := a / 4 * 4
  if beyondBlocks b || !s.mayAccess i b false then (0, s) else s.readAct i b

/-- The LPDDR5 address of an offset of the rescue window (R505). -/
def State.rescueAddr (s : State) (off : Nat) : Nat := s.get mftRescueWin_BASE * 2097152 + off

/-- A write to the MSI-X table of BAR2 (R227): an entry's address and data words, or its mask bit; a vector that becomes unmasked sends the
message that is pending (R228; the mask of the PCIe specification, PRESUMED, log entry 85). -/
def State.msixWrite (s : State) (off : Nat) (v : Word) : State :=
  let n := off / 16
  let k := off / 4 % 4
  if k < 3 then { s with msix := { s.msix with table := smPut 0 s.msix.table (4 * n + k) v } }
  else if bitsOf v 0 0 = 1 then { s with msix := { s.msix with unmasked := dropMem s.msix.unmasked n } }
  else
    let s1 : State := { s with msix := { s.msix with unmasked := addMem s.msix.unmasked n, waiting := dropMem s.msix.waiting n } }
    if n ∈ s.msix.waiting then s1.emit (.msix n) else s1

/-- What PCIe reads of the MSI-X table and of the pending-bit array at 0x800 (R227): the pending bit of vector n is bit n of 64. -/
def State.msixShown (s : State) (off : Nat) : Word :=
  if off < 0x400 then
    (if off / 4 % 4 < 3 then smGet 0 s.msix.table (off / 4) else wd (ofBool (!decide (off / 16 ∈ s.msix.unmasked))))
  else if off = 0x800 ∨ off = 0x804 then
    wd (((List.range 32).map fun k => if (off - 0x800) * 8 + k ∈ s.msix.waiting then 2 ^ k else 0).sum)
  else 0

/-- A whole-word write to BAR2: a doorbell page (R402), the MSI-X table behind the pages for PCIe (R227), or in rescue, by PCIe and Ebfin,
the rescue window (R505). -/
def State.doorWrite (s : State) (i : Iface) (q off : Nat) (v : Word) : State :=
  if s.flag mftStat_RESCUE then
    if (i = .pcie ∨ i = .ebfin) ∧ q < 512 then
      s.dramPut (s.rescueAddr (q * 4096 + off)) (be 4 v.toNat)
    else s
  else if 256 ≤ q then (if i = .pcie ∧ q = 256 ∧ off < 0x400 then s.msixWrite off v else s)
  else if off < 0x800 then s.setPage q { s.page q with staging := smPut 0 (s.page q).staging (off / 4) v }
  else if off = 0x800 then s.doorPush i q v
  else s

/-- REGISTER_WRITE: R16 to R19, R42, R43, R402, R505. `width` is the access width in bits; a narrower write, or one that is not
aligned, is discarded. -/
def execRegisterWrite (i : Iface) (p : Place) (width : Nat) (v : Word) (s : State) : Out :=
  s.out (if width ≠ 32 then s
    else match p with
    | .reg a => if a % 4 = 0 then s.busWrite i a v else s
    | .door q off => if off % 4 = 0 ∧ off < 4096 then s.doorWrite i q off v else s)

/-! ### Management frames -/

/-- A REGACCESS body (Gangway messages table): 1 reads, 2 writes; any other OP does nothing and is not answered. The answer carries
the OP, the address and the value read or written (DESIGN CHOICE, log entry 62). -/
def State.regAccess (s : State) (b : List Byte) : State :=
  let op := beAt b 0 1
  let a := beAt b 4 4
  let v := beAt b 8 4
  if op = 1 then
    let r := s.busRead .headEnd a
    r.2.gwyReliable 0xFFFF 0x0B (be 1 1 ++ be 3 0 ++ be 4 a ++ be 4 r.1.toNat) none
  else if op = 2 then
    (if a % 4 = 0 then s.busWrite .headEnd a (BitVec.ofNat 32 v) else s).gwyReliable 0xFFFF 0x0B (be 1 2 ++ be 3 0 ++ be 4 a ++ be 4 v) none
  else s

/-- REGACCESS_RECEIVED: R17, R43, R215, R221. `b` is the message. -/
def execRegaccessReceived (b : List Byte) (s : State) : Out :=
  s.out (s.onMessage b fun s => if beAt b 6 2 = 0xFFFF then s.regAccess (gwyBody b) else s)

/-! ### Oarsmen -/

/-- The aligned external address of XLD and XST (R17, R426). -/
def Oarsman.external (o : Oarsman) (ga imm : Nat) : Nat := (o.gr ga + immS imm).toNat / 4 * 4

/-- XLD: R17, R426, R436. Beyond the 64 MiB of BAR0 the spec gives no map: a granted read there returns a free value. -/
def execOpXld (n gd ga imm : Nat) (s : State) : Out :=
  s.out (s.oarDo n 8 fun o s =>
    let a := o.external ga imm
    if !s.mayAccess (.oarsman n) a false then s.trapOar n 0x03 0
    else if 0x4000000 ≤ a then (let r := s.draw 32; r.2.oarRet n (r.2.oarN n) gd (wd r.1))
    else
      let r := s.busRead (.oarsman n) a
      r.2.oarRet n (r.2.oarN n) gd r.1)

/-- XST: R17, R18, R426, R436. The word stored is gd. -/
def execOpXst (n gd ga imm : Nat) (s : State) : Out :=
  s.out (s.oarDo n 8 fun o s =>
    let a := o.external ga imm
    if !s.mayAccess (.oarsman n) a true then s.trapOar n 0x03 0
    else (s.oarRet n o 0 0).busWrite (.oarsman n) a (o.gr gd))

end Sys2Proof.Machine
end

