-- ==== Sys2Proof/Machine/Debug.lean ====
section
/-!
DEFINITION. Instruction words of an Oarsman (R425, R426) and Ebfin's single step (R440).
-/
namespace Sys2Proof.Machine

/-- The fields of an instruction word (R425). -/
structure OWord where
  op : Nat
  gd : Nat
  ga : Nat
  gb : Nat
  imm : Nat
  deriving DecidableEq, Repr

/-- The fields of a word: opcode in 31:26, gd 25:22, ga 21:18, gb 17:14, imm 17:0. -/
def OWord.of (w : Word) : OWord :=
  { op := bitsOf w 31 26, gd := bitsOf w 25 22, ga := bitsOf w 21 18, gb := bitsOf w 17 14, imm := bitsOf w 17 0 }

/-- The branch target of a word: bits 11:0. -/
def OWord.target (x : OWord) : Nat := x.imm % 4096

/-- Opcodes 0x00 to 0x0F: format R. -/
def runAlu (n : Nat) (x : OWord) (s : State) : Out :=
  match x.op with
  | 0x00 => execOpAdd n x.gd x.ga x.gb s
  | 0x01 => execOpSub n x.gd x.ga x.gb s
  | 0x02 => execOpAnd n x.gd x.ga x.gb s
  | 0x03 => execOpOr n x.gd x.ga x.gb s
  | 0x04 => execOpXor n x.gd x.ga x.gb s
  | 0x05 => execOpShl n x.gd x.ga x.gb s
  | 0x06 => execOpShr n x.gd x.ga x.gb s
  | 0x07 => execOpSra n x.gd x.ga x.gb s
  | 0x08 => execOpMul n x.gd x.ga x.gb s
  | 0x09 => execOpMulh n x.gd x.ga x.gb s
  | 0x0A => execOpSltu n x.gd x.ga x.gb s
  | 0x0B => execOpSlt n x.gd x.ga x.gb s
  | 0x0C => execOpTxt n x.gd s
  | 0x0D => execOpTxf n x.ga s
  | 0x0E => execOpFacq n x.gd x.ga s
  | _ => execOpFrel n x.ga s

/-- Opcodes 0x10 to 0x1F: format I. 0x17 is not listed. -/
def runImm (n : Nat) (x : OWord) (s : State) : Out :=
  match x.op with
  | 0x10 => execOpAddi n x.gd x.ga x.imm s
  | 0x11 => execOpAndi n x.gd x.ga x.imm s
  | 0x12 => execOpOri n x.gd x.ga x.imm s
  | 0x13 => execOpXori n x.gd x.ga x.imm s
  | 0x14 => execOpShli n x.gd x.ga x.imm s
  | 0x15 => execOpShri n x.gd x.ga x.imm s
  | 0x16 => execOpLui n x.gd x.imm s
  | 0x18 => execOpLdw n x.gd x.ga x.imm s
  | 0x19 => execOpStw n x.gd x.ga x.imm s
  | 0x1A => execOpLdb n x.gd x.ga x.imm s
  | 0x1B => execOpStb n x.gd x.ga x.imm s
  | 0x1C => execOpFex n x.gd x.ga x.imm s
  | 0x1D => execOpFins n x.gd x.ga x.imm s
  | 0x1E => execOpXld n x.gd x.ga x.imm s
  | 0x1F => execOpXst n x.gd x.ga x.imm s
  | _ => s.out (s.oarDo n 1 fun _ s => s.trapOar n 0x01 0)

/-- Opcodes 0x20 to 0x2F: branches (formats B and J), queues and time. 0x27 and 0x2F are not listed. A branch of format B holds its
operands in gd's and ga's bits: ga in 25:22, gb in 21:18. -/
def runFlow (n : Nat) (x : OWord) (s : State) : Out :=
  match x.op with
  | 0x20 => execOpBeq n x.gd x.ga x.target s
  | 0x21 => execOpBne n x.gd x.ga x.target s
  | 0x22 => execOpBltu n x.gd x.ga x.target s
  | 0x23 => execOpBgeu n x.gd x.ga x.target s
  | 0x24 => execOpJmp n x.target s
  | 0x25 => execOpCall n x.gd x.target s
  | 0x26 => execOpJr n x.ga s
  | 0x28 => execOpPop n x.gd x.ga x.imm s
  | 0x29 => execOpPush n x.gd x.ga x.imm s
  | 0x2A => execOpQop n x.ga x.imm s
  | 0x2B => execOpLwx n x.gd x.ga x.gb s
  | 0x2C => execOpStamp n x.ga s
  | 0x2D => execOpXnow n x.gd x.imm s
  | 0x2E => execOpLwp n x.gd x.ga x.gb s
  | _ => s.out (s.oarDo n 1 fun _ s => s.trapOar n 0x01 0)

/-- Opcodes 0x30 to 0x3F: waits, jobs, commit groups, TRAP. Those that the table does not list trap with cause 0x01. -/
def runSys (n : Nat) (x : OWord) (s : State) : Out :=
  match x.op with
  | 0x30 => execOpWait n x.gd x.imm s
  | 0x31 => execOpWaitx n x.gd x.ga x.imm s
  | 0x32 => execOpWaitu n x.ga s
  | 0x33 => execOpSignal n s
  | 0x34 => execOpHsub n x.gd x.ga s
  | 0x35 => execOpHwait n x.gd x.ga s
  | 0x38 => execOpCopen n x.gd x.imm s
  | 0x39 => execOpCstage n x.gd x.ga x.imm s
  | 0x3A => execOpCseal n x.gd x.imm s
  | 0x3B => execOpCabort n x.gd x.imm s
  | 0x3C => execOpCwaitd n x.gd x.imm s
  | 0x3E => execOpTrap n x.imm s
  | _ => s.out (s.oarDo n 1 fun _ s => s.trapOar n 0x01 0)

/-- One instruction word run by Oarsman n (R425, R426, R436). -/
def runWord (n : Nat) (w : Word) (s : State) : Out :=
  let x := OWord.of w
  if x.op < 0x10 then runAlu n x s
  else if x.op < 0x20 then runImm n x s
  else if x.op < 0x30 then runFlow n x s
  else runSys n x s

/-- The word at an Oarsman's PC. -/
def State.oarFetch (s : State) (n : Nat) : Word := (smGet {} s.man.oar n).code.getD (s.oarN n).pc 0

/-- A halted Oarsman runs one instruction and halts again, unless that traps or waits (R440). -/
def State.stepOar (s : State) (n : Nat) : State :=
  let s1 := s.setOar n { s.oarN n with st := .running }
  let s2 := afterOut (runWord n (s1.oarFetch n) s1) s1
  if (s2.oarN n).st = .running then s2.setOar n { s2.oarN n with st := .halted } else s2

/-- EBFIN_STEP: R440. -/
def execEbfinStep (n : Nat) (s : State) : Out :=
  s.out (if s.ebMay n = true ∧ (s.oarN n).st = .halted then s.stepOar n else s)

end Sys2Proof.Machine
end

