-- ==== Sys2Proof/Machine/Dispatch.lean ====
section
/-!
DEFINITION. One arm for each command: a direct call of its meaning, or a refusal by name.
-/
namespace Sys2Proof.Machine

/-- What a command does to everything but the queue of waiting commands. -/
def exec (i : Instr) (s : State) : Host.Outcome State Fault Refusal :=
  match i with
  | .registerWrite who p width v => Sys2Proof.Machine.execRegisterWrite who p width v s
  | .profileRequest who v => Sys2Proof.Machine.execProfileRequest who v s
  | .profileChange => Sys2Proof.Machine.execProfileChange s
  | .l1Crossing raw => Sys2Proof.Machine.execL1Crossing raw s
  | .phaseCrossing p => Sys2Proof.Machine.execPhaseCrossing p s
  | .coastingBegins raw => Sys2Proof.Machine.execCoastingBegins raw s
  | .coastedCrossing raw => Sys2Proof.Machine.execCoastedCrossing raw s
  | .anchorAgeExpiry => Sys2Proof.Machine.execAnchorAgeExpiry s
  | .holdoverExpiry => Sys2Proof.Machine.execHoldoverExpiry s
  | .leapInstant => Sys2Proof.Machine.execLeapInstant s
  | .xingLatch who => Sys2Proof.Machine.execXingLatch who s
  | .xingLateClear who q => Sys2Proof.Machine.execXingLateClear who q s
  | .launchItemAtHead q air => Sys2Proof.Machine.execLaunchItemAtHead q air s
  | .launchInstantReached q air => Sys2Proof.Machine.execLaunchInstantReached q air s
  | .snapshotLatch => Sys2Proof.Machine.execSnapshotLatch s
  | .calibrationWrite who a v => Sys2Proof.Machine.execCalibrationWrite who a v s
  | .calCommit who => Sys2Proof.Machine.execCalCommit who s
  | .calDiscard who => Sys2Proof.Machine.execCalDiscard who s
  | .calCommitApply => Sys2Proof.Machine.execCalCommitApply s
  | .metQtyCapture who => Sys2Proof.Machine.execMetQtyCapture who s
  | .sealCloseRequest who v => Sys2Proof.Machine.execSealCloseRequest who v s
  | .sealCloseJudged => Sys2Proof.Machine.execSealCloseJudged s
  | .sealOpening => Sys2Proof.Machine.execSealOpening s
  | .plcFrameReceived p x => Sys2Proof.Machine.execPlcFrameReceived p x s
  | .plcTransmitComplete c x => Sys2Proof.Machine.execPlcTransmitComplete c x s
  | .driveLimitDetection x last => Sys2Proof.Machine.execDriveLimitDetection x last s
  | .driverTrip x => Sys2Proof.Machine.execDriverTrip x s
  | .driverRearm p => Sys2Proof.Machine.execDriverRearm p s
  | .trippedClear who p => Sys2Proof.Machine.execTrippedClear who p s
  | .plcRxCntClear who p => Sys2Proof.Machine.execPlcRxCntClear who p s
  | .cellKeySwitch c => Sys2Proof.Machine.execCellKeySwitch c s
  | .exchangePlanned c => Sys2Proof.Machine.execExchangePlanned c s
  | .upwardFrameFailed c fseq => Sys2Proof.Machine.execUpwardFrameFailed c fseq s
  | .responseReceived c psdu => Sys2Proof.Machine.execResponseReceived c psdu s
  | .plcAckReceived c psdu => Sys2Proof.Machine.execPlcAckReceived c psdu s
  | .joinRequestReceived c psdu => Sys2Proof.Machine.execJoinRequestReceived c psdu s
  | .class0Window c => Sys2Proof.Machine.execClass0Window c s
  | .plcRouteQuery who v => Sys2Proof.Machine.execPlcRouteQuery who v s
  | .plcXchFailClear who c => Sys2Proof.Machine.execPlcXchFailClear who c s
  | .radioFrameReceived r x => Sys2Proof.Machine.execRadioFrameReceived r x s
  | .dataRequest r air x => Sys2Proof.Machine.execDataRequest r air x s
  | .indirectItemUnacked r a => Sys2Proof.Machine.execIndirectItemUnacked r a s
  | .associationRequest r x caps parent => Sys2Proof.Machine.execAssociationRequest r x caps parent s
  | .provisionalExpiry r a => Sys2Proof.Machine.execProvisionalExpiry r a s
  | .readingMessage r a msg => Sys2Proof.Machine.execReadingMessage r a msg s
  | .segmentMessage r a body => Sys2Proof.Machine.execSegmentMessage r a body s
  | .radioAckMessage r a body => Sys2Proof.Machine.execRadioAckMessage r a body s
  | .relayMessage r a body => Sys2Proof.Machine.execRelayMessage r a body s
  | .coverPlan r a => Sys2Proof.Machine.execCoverPlan r a s
  | .coverUnacked r => Sys2Proof.Machine.execCoverUnacked r s
  | .dutyBinBoundary r air => Sys2Proof.Machine.execDutyBinBoundary r air s
  | .pendForceSet who r a => Sys2Proof.Machine.execPendForceSet who r a s
  | .pendForceClear who r a => Sys2Proof.Machine.execPendForceClear who r a s
  | .pendQuery who r a => Sys2Proof.Machine.execPendQuery who r a s
  | .radErrClear who r => Sys2Proof.Machine.execRadErrClear who r s
  | .spiTimeout r => Sys2Proof.Machine.execSpiTimeout r s
  | .ethFrameReceived x fcsOk b => Sys2Proof.Machine.execEthFrameReceived x fcsOk b s
  | .ethLinkChange x up speed => Sys2Proof.Machine.execEthLinkChange x up speed s
  | .class0AuthDone q => Sys2Proof.Machine.execClass0AuthDone q s
  | .ptpSyncReceived x b => Sys2Proof.Machine.execPtpSyncReceived x b s
  | .syncTimeout => Sys2Proof.Machine.execSyncTimeout s
  | .ptpAnnounceReceived x b => Sys2Proof.Machine.execPtpAnnounceReceived x b s
  | .pdelayReqReceived x m => Sys2Proof.Machine.execPdelayReqReceived x m s
  | .ptpPortInit => Sys2Proof.Machine.execPtpPortInit s
  | .ethCntClear who x => Sys2Proof.Machine.execEthCntClear who x s
  | .attachReceived b => Sys2Proof.Machine.execAttachReceived b s
  | .attachAnswerReceived b => Sys2Proof.Machine.execAttachAnswerReceived b s
  | .attachResend => Sys2Proof.Machine.execAttachResend s
  | .attachGiveUp => Sys2Proof.Machine.execAttachGiveUp s
  | .attachRetry => Sys2Proof.Machine.execAttachRetry s
  | .peerDown p => Sys2Proof.Machine.execPeerDown p s
  | .keepaliveSend p => Sys2Proof.Machine.execKeepaliveSend p s
  | .keepaliveReceived b => Sys2Proof.Machine.execKeepaliveReceived b s
  | .anchorReceived x b => Sys2Proof.Machine.execAnchorReceived x b s
  | .snapshotReceived b => Sys2Proof.Machine.execSnapshotReceived b s
  | .batchReceived b => Sys2Proof.Machine.execBatchReceived b s
  | .gangwayAckReceived b => Sys2Proof.Machine.execGangwayAckReceived b s
  | .ackDelayExpiry p => Sys2Proof.Machine.execAckDelayExpiry p s
  | .retransmitTimerExpiry p seq => Sys2Proof.Machine.execRetransmitTimerExpiry p seq s
  | .commandMessageReceived b => Sys2Proof.Machine.execCommandMessageReceived b s
  | .registerMessageHub b => Sys2Proof.Machine.execRegisterMessageHub b s
  | .registerAnswerCell b => Sys2Proof.Machine.execRegisterAnswerCell b s
  | .regaccessReceived b => Sys2Proof.Machine.execRegaccessReceived b s
  | .validationRecord q line => Sys2Proof.Machine.execValidationRecord q line s
  | .recordFlowResume x => Sys2Proof.Machine.execRecordFlowResume x s
  | .groupWaitExpiry => Sys2Proof.Machine.execGroupWaitExpiry s
  | .reassemblyTimeout c a => Sys2Proof.Machine.execReassemblyTimeout c a s
  | .batchMaxageExpiry => Sys2Proof.Machine.execBatchMaxageExpiry s
  | .batchSigned => Sys2Proof.Machine.execBatchSigned s
  | .dedupQuery who v => Sys2Proof.Machine.execDedupQuery who v s
  | .valVcntClear who v => Sys2Proof.Machine.execValVcntClear who v s
  | .valBatchCfgWrite who v => Sys2Proof.Machine.execValBatchCfgWrite who v s
  | .enrol who => Sys2Proof.Machine.execEnrol who s
  | .bar who idx => Sys2Proof.Machine.execBar who idx s
  | .unbar who idx => Sys2Proof.Machine.execUnbar who idx s
  | .remove who idx => Sys2Proof.Machine.execRemove who idx s
  | .reEnrol who idx => Sys2Proof.Machine.execReEnrol who idx s
  | .rewrap who => Sys2Proof.Machine.execRewrap who s
  | .rewrapComplete => Sys2Proof.Machine.execRewrapComplete s
  | .contextRead who idx => Sys2Proof.Machine.execContextRead who idx s
  | .deleteEnrolment who idx => Sys2Proof.Machine.execDeleteEnrolment who idx s
  | .quarantineExpiry slot => Sys2Proof.Machine.execQuarantineExpiry slot s
  | .tableRebuildDone => Sys2Proof.Machine.execTableRebuildDone s
  | .balanceRecord => Sys2Proof.Machine.execBalanceRecord s
  | .balanceEvaluation n => Sys2Proof.Machine.execBalanceEvaluation n s
  | .balNodeQuery who v => Sys2Proof.Machine.execBalNodeQuery who v s
  | .balEpQuery who v => Sys2Proof.Machine.execBalEpQuery who v s
  | .balEpNodeWrite who v => Sys2Proof.Machine.execBalEpNodeWrite who v s
  | .tariffOpen => Sys2Proof.Machine.execTariffOpen s
  | .tariffWrite => Sys2Proof.Machine.execTariffWrite s
  | .tariffClose => Sys2Proof.Machine.execTariffClose s
  | .tariffActivate => Sys2Proof.Machine.execTariffActivate s
  | .tariffCancel => Sys2Proof.Machine.execTariffCancel s
  | .accountSet => Sys2Proof.Machine.execAccountSet s
  | .accountClose => Sys2Proof.Machine.execAccountClose s
  | .clearLockout => Sys2Proof.Machine.execClearLockout s
  | .calendarMinute => Sys2Proof.Machine.execCalendarMinute s
  | .trfGroupQuery who v => Sys2Proof.Machine.execTrfGroupQuery who v s
  | .rateQuery who v => Sys2Proof.Machine.execRateQuery who v s
  | .boundaryPrestage => Sys2Proof.Machine.execBoundaryPrestage s
  | .billingStep reads => Sys2Proof.Machine.execBillingStep reads s
  | .passedBoundaryCatchup => Sys2Proof.Machine.execPassedBoundaryCatchup s
  | .backstepHoldEnd => Sys2Proof.Machine.execBackstepHoldEnd s
  | .sessionResult => Sys2Proof.Machine.execSessionResult s
  | .billingQuery who v => Sys2Proof.Machine.execBillingQuery who v s
  | .loadProfileQuery who v reads => Sys2Proof.Machine.execLoadProfileQuery who v reads s
  | .groupOpen who => Sys2Proof.Machine.execGroupOpen who s
  | .actionStage who w g => Sys2Proof.Machine.execActionStage who w g s
  | .groupSeal who g => Sys2Proof.Machine.execGroupSeal who g s
  | .groupAbort who g => Sys2Proof.Machine.execGroupAbort who g s
  | .groupDurable g => Sys2Proof.Machine.execGroupDurable g s
  | .durabilityOverrun g => Sys2Proof.Machine.execDurabilityOverrun g s
  | .intentDurable g => Sys2Proof.Machine.execIntentDurable g s
  | .groupWithdraw g => Sys2Proof.Machine.execGroupWithdraw g s
  | .sealedGroupRetry => Sys2Proof.Machine.execSealedGroupRetry s
  | .cmtGstatRead who => Sys2Proof.Machine.execCmtGstatRead who s
  | .jseqCapture who => Sys2Proof.Machine.execJseqCapture who s
  | .counterCapture who => Sys2Proof.Machine.execCounterCapture who s
  | .journalReplayDone => Sys2Proof.Machine.execJournalReplayDone s
  | .identityKeyGenerated => Sys2Proof.Machine.execIdentityKeyGenerated s
  | .epochTreeBuilt => Sys2Proof.Machine.execEpochTreeBuilt s
  | .tokenEntry => Sys2Proof.Machine.execTokenEntry s
  | .lockoutEnd => Sys2Proof.Machine.execLockoutEnd s
  | .keyStateChange k down => Sys2Proof.Machine.execKeyStateChange k down s
  | .panelFrameStart => Sys2Proof.Machine.execPanelFrameStart s
  | .temperatureBandChange t => Sys2Proof.Machine.execTemperatureBandChange t s
  | .dischargeHoldEnd => Sys2Proof.Machine.execDischargeHoldEnd s
  | .frameMemoryWrite who v => Sys2Proof.Machine.execFrameMemoryWrite who v s
  | .frameMemoryRead who => Sys2Proof.Machine.execFrameMemoryRead who s
  | .accountQuery who v => Sys2Proof.Machine.execAccountQuery who v s
  | .doorbellPush who q v => Sys2Proof.Machine.execDoorbellPush who q v s
  | .doorbellPop who q => Sys2Proof.Machine.execDoorbellPop who q s
  | .producerClaimGranted q => Sys2Proof.Machine.execProducerClaimGranted q s
  | .queueIdleTimeout q => Sys2Proof.Machine.execQueueIdleTimeout q s
  | .queueRelease who q all iseq => Sys2Proof.Machine.execQueueRelease who q all iseq s
  | .queueRewind who q => Sys2Proof.Machine.execQueueRewind who q s
  | .queueDone who q iseq => Sys2Proof.Machine.execQueueDone who q iseq s
  | .whfQCntClear who q => Sys2Proof.Machine.execWhfQCntClear who q s
  | .threadDispatch core ns => Sys2Proof.Machine.execThreadDispatch core ns s
  | .prefetchLoadDone core => Sys2Proof.Machine.execPrefetchLoadDone core s
  | .threadWait core a b => Sys2Proof.Machine.execThreadWait core a b s
  | .workTake core => Sys2Proof.Machine.execWorkTake core s
  | .takeGranted thread => Sys2Proof.Machine.execTakeGranted thread s
  | .threadYield core => Sys2Proof.Machine.execThreadYield core s
  | .threadDone core => Sys2Proof.Machine.execThreadDone core s
  | .threadExit core => Sys2Proof.Machine.execThreadExit core s
  | .setPriority core prio => Sys2Proof.Machine.execSetPriority core prio s
  | .threadCreate who => Sys2Proof.Machine.execThreadCreate who s
  | .c0StatRead who k => Sys2Proof.Machine.execC0StatRead who k s
  | .fryCntClear who => Sys2Proof.Machine.execFryCntClear who s
  | .opAdd n gd ga gb => Sys2Proof.Machine.execOpAdd n gd ga gb s
  | .opSub n gd ga gb => Sys2Proof.Machine.execOpSub n gd ga gb s
  | .opAnd n gd ga gb => Sys2Proof.Machine.execOpAnd n gd ga gb s
  | .opOr n gd ga gb => Sys2Proof.Machine.execOpOr n gd ga gb s
  | .opXor n gd ga gb => Sys2Proof.Machine.execOpXor n gd ga gb s
  | .opShl n gd ga gb => Sys2Proof.Machine.execOpShl n gd ga gb s
  | .opShr n gd ga gb => Sys2Proof.Machine.execOpShr n gd ga gb s
  | .opSra n gd ga gb => Sys2Proof.Machine.execOpSra n gd ga gb s
  | .opMul n gd ga gb => Sys2Proof.Machine.execOpMul n gd ga gb s
  | .opMulh n gd ga gb => Sys2Proof.Machine.execOpMulh n gd ga gb s
  | .opSltu n gd ga gb => Sys2Proof.Machine.execOpSltu n gd ga gb s
  | .opSlt n gd ga gb => Sys2Proof.Machine.execOpSlt n gd ga gb s
  | .opTxt n gd => Sys2Proof.Machine.execOpTxt n gd s
  | .opTxf n ga => Sys2Proof.Machine.execOpTxf n ga s
  | .opFacq n gd ga => Sys2Proof.Machine.execOpFacq n gd ga s
  | .opFrel n ga => Sys2Proof.Machine.execOpFrel n ga s
  | .opAddi n gd ga imm => Sys2Proof.Machine.execOpAddi n gd ga imm s
  | .opAndi n gd ga imm => Sys2Proof.Machine.execOpAndi n gd ga imm s
  | .opOri n gd ga imm => Sys2Proof.Machine.execOpOri n gd ga imm s
  | .opXori n gd ga imm => Sys2Proof.Machine.execOpXori n gd ga imm s
  | .opShli n gd ga imm => Sys2Proof.Machine.execOpShli n gd ga imm s
  | .opShri n gd ga imm => Sys2Proof.Machine.execOpShri n gd ga imm s
  | .opLui n gd imm => Sys2Proof.Machine.execOpLui n gd imm s
  | .opLdw n gd ga imm => Sys2Proof.Machine.execOpLdw n gd ga imm s
  | .opStw n gd ga imm => Sys2Proof.Machine.execOpStw n gd ga imm s
  | .opLdb n gd ga imm => Sys2Proof.Machine.execOpLdb n gd ga imm s
  | .opStb n gd ga imm => Sys2Proof.Machine.execOpStb n gd ga imm s
  | .opFex n gd ga imm => Sys2Proof.Machine.execOpFex n gd ga imm s
  | .opFins n gd ga imm => Sys2Proof.Machine.execOpFins n gd ga imm s
  | .opXld n gd ga imm => Sys2Proof.Machine.execOpXld n gd ga imm s
  | .opXst n gd ga imm => Sys2Proof.Machine.execOpXst n gd ga imm s
  | .opBeq n ga gb target => Sys2Proof.Machine.execOpBeq n ga gb target s
  | .opBne n ga gb target => Sys2Proof.Machine.execOpBne n ga gb target s
  | .opBltu n ga gb target => Sys2Proof.Machine.execOpBltu n ga gb target s
  | .opBgeu n ga gb target => Sys2Proof.Machine.execOpBgeu n ga gb target s
  | .opJmp n target => Sys2Proof.Machine.execOpJmp n target s
  | .opCall n gd target => Sys2Proof.Machine.execOpCall n gd target s
  | .opJr n ga => Sys2Proof.Machine.execOpJr n ga s
  | .opPop n gd ga imm => Sys2Proof.Machine.execOpPop n gd ga imm s
  | .opPush n gd ga imm => Sys2Proof.Machine.execOpPush n gd ga imm s
  | .opQop n ga imm => Sys2Proof.Machine.execOpQop n ga imm s
  | .opLwx n gd ga gb => Sys2Proof.Machine.execOpLwx n gd ga gb s
  | .opStamp n ga => Sys2Proof.Machine.execOpStamp n ga s
  | .opXnow n gd imm => Sys2Proof.Machine.execOpXnow n gd imm s
  | .opLwp n gd ga gb => Sys2Proof.Machine.execOpLwp n gd ga gb s
  | .opWait n gd imm => Sys2Proof.Machine.execOpWait n gd imm s
  | .oarsmanWaitEnd n => Sys2Proof.Machine.execOarsmanWaitEnd n s
  | .opWaitx n gd ga imm => Sys2Proof.Machine.execOpWaitx n gd ga imm s
  | .waitxInstantReached n => Sys2Proof.Machine.execWaitxInstantReached n s
  | .opWaitu n ga => Sys2Proof.Machine.execOpWaitu n ga s
  | .waituExpiry n => Sys2Proof.Machine.execWaituExpiry n s
  | .opSignal n => Sys2Proof.Machine.execOpSignal n s
  | .opHsub n gd ga => Sys2Proof.Machine.execOpHsub n gd ga s
  | .opHwait n gd ga => Sys2Proof.Machine.execOpHwait n gd ga s
  | .hashJobComplete n tag poisoned => Sys2Proof.Machine.execHashJobComplete n tag poisoned s
  | .opCopen n gd imm => Sys2Proof.Machine.execOpCopen n gd imm s
  | .opCstage n gd ga imm => Sys2Proof.Machine.execOpCstage n gd ga imm s
  | .opCseal n gd imm => Sys2Proof.Machine.execOpCseal n gd imm s
  | .opCabort n gd imm => Sys2Proof.Machine.execOpCabort n gd imm s
  | .opCwaitd n gd imm => Sys2Proof.Machine.execOpCwaitd n gd imm s
  | .opTrap n imm => Sys2Proof.Machine.execOpTrap n imm s
  | .oarsmanRestart who n => Sys2Proof.Machine.execOarsmanRestart who n s
  | .oarsmanHalt who n => Sys2Proof.Machine.execOarsmanHalt who n s
  | .oarsmanResume who n => Sys2Proof.Machine.execOarsmanResume who n s
  | .sealCoreRestart n => Sys2Proof.Machine.execSealCoreRestart n s
  | .ebfinHalt n => Sys2Proof.Machine.execEbfinHalt n s
  | .ebfinStep n => Sys2Proof.Machine.execEbfinStep n s
  | .ebfinAccess n a => Sys2Proof.Machine.execEbfinAccess n a s
  | .holdMount a b reads => Sys2Proof.Machine.execHoldMount a b reads s
  | .nandProgramDone b job ok => Sys2Proof.Machine.execNandProgramDone b job ok s
  | .nandEraseDone b ok => Sys2Proof.Machine.execNandEraseDone b ok s
  | .nandReadDone b lkey page bits bad => Sys2Proof.Machine.execNandReadDone b lkey page bits bad s
  | .placementWindowExpiry lkey page => Sys2Proof.Machine.execPlacementWindowExpiry lkey page s
  | .mergeSwitch lkey => Sys2Proof.Machine.execMergeSwitch lkey s
  | .holdRead who => Sys2Proof.Machine.execHoldRead who s
  | .holdDiscard who => Sys2Proof.Machine.execHoldDiscard who s
  | .holdTrim who => Sys2Proof.Machine.execHoldTrim who s
  | .holdCmdComplete => Sys2Proof.Machine.execHoldCmdComplete s
  | .streamQuery who v => Sys2Proof.Machine.execStreamQuery who v s
  | .hldEccClear who => Sys2Proof.Machine.execHldEccClear who s
  | .flushComplete => Sys2Proof.Machine.execFlushComplete s
  | .logbookReadSelect who w number => Sys2Proof.Machine.execLogbookReadSelect who w number s
  | .logbookClear who => Sys2Proof.Machine.execLogbookClear who s
  | .keyWrite who => Sys2Proof.Machine.execKeyWrite who s
  | .keyErase who => Sys2Proof.Machine.execKeyErase who s
  | .keyLock who => Sys2Proof.Machine.execKeyLock who s
  | .keyRead who => Sys2Proof.Machine.execKeyRead who s
  | .signingIndexCapture who => Sys2Proof.Machine.execSigningIndexCapture who s
  | .attestationRequest who v => Sys2Proof.Machine.execAttestationRequest who v s
  | .attestationComplete => Sys2Proof.Machine.execAttestationComplete s
  | .manifestVerified => Sys2Proof.Machine.execManifestVerified s
  | .manifestCheck who m => Sys2Proof.Machine.execManifestCheck who m s
  | .manifestStage who m => Sys2Proof.Machine.execManifestStage who m s
  | .manifestStageComplete => Sys2Proof.Machine.execManifestStageComplete s
  | .manifestApply who => Sys2Proof.Machine.execManifestApply who s
  | .manifestApplyBoundary vin => Sys2Proof.Machine.execManifestApplyBoundary vin s
  | .manifestConfirm who => Sys2Proof.Machine.execManifestConfirm who s
  | .manifestInvalidate who => Sys2Proof.Machine.execManifestInvalidate who s
  | .trialExpiry vin => Sys2Proof.Machine.execTrialExpiry vin s
  | .powerWarning thermal vin => Sys2Proof.Machine.execPowerWarning thermal vin s
  | .rideThrough => Sys2Proof.Machine.execRideThrough s
  | .railDropout => Sys2Proof.Machine.execRailDropout s
  | .porst => Sys2Proof.Machine.execPorst s
  | .ebfinSystemReset => Sys2Proof.Machine.execEbfinSystemReset s
  | .softwareReset who v vin => Sys2Proof.Machine.execSoftwareReset who v vin s
  | .resetRelease elapsed => Sys2Proof.Machine.execResetRelease elapsed s
  | .lpddr5Trained => Sys2Proof.Machine.execLpddr5Trained s
  | .holdSenseWaitExpiry => Sys2Proof.Machine.execHoldSenseWaitExpiry s
  | .holdSenseChange up => Sys2Proof.Machine.execHoldSenseChange up s
  | .temperatureWarn t => Sys2Proof.Machine.execTemperatureWarn t s
  | .avsUpdate n400 n800 n1200 => Sys2Proof.Machine.execAvsUpdate n400 n800 n1200 s
  | .vbatLow => Sys2Proof.Machine.execVbatLow s
  | .vinMinRead who now least => Sys2Proof.Machine.execVinMinRead who now least s
  | .testUnlockFirst who => Sys2Proof.Machine.execTestUnlockFirst who s
  | .testUnlockSecond who => Sys2Proof.Machine.execTestUnlockSecond who s
  | .testLock who => Sys2Proof.Machine.execTestLock who s
  | .entryArm who v => Sys2Proof.Machine.execEntryArm who v s
  | .entryDisarm who v => Sys2Proof.Machine.execEntryDisarm who v s
  | .entryLimitExpiry n => Sys2Proof.Machine.execEntryLimitExpiry n s
  | .dramEccClear who => Sys2Proof.Machine.execDramEccClear who s
  | .radioTransmitComplete r x => Sys2Proof.Machine.execRadioTransmitComplete r x s
  | .ethTransmitComplete x => Sys2Proof.Machine.execEthTransmitComplete x s
  | .ptpMessageInterval x typ => Sys2Proof.Machine.execPtpMessageInterval x typ s
  | .announceReceiptTimeout x => Sys2Proof.Machine.execAnnounceReceiptTimeout x s
  | .perturbedItemVisible q => Sys2Proof.Machine.execPerturbedItemVisible q s
  | .alwaysOnInvalid => Sys2Proof.Machine.execAlwaysOnInvalid s
  | .temperatureWarnRearm t => Sys2Proof.Machine.execTemperatureWarnRearm t s
  | .porstFlushTimeout => Sys2Proof.Machine.execPorstFlushTimeout s

end Sys2Proof.Machine
end

