-- ==== Sys2Proof/Machine/Time.lean ====
section
/-!
DEFINITION. What passes when no command waits: one 4 ns tick of the counters (R59, R62, R470; DESIGN CHOICE, log entry 1).
-/
namespace Sys2Proof.Machine

/-- The rate correction of one tick in 10^-9 ns / 64: the rate in force (R230) counts 2^-8 ppb, and 4 ns × 2^-8 × 10^-9 is
10^-9 ns / 64. -/
def State.tickAdj (s : State) : Int := s.clk.adj

/-- A fractional part and a correction: whole ns and the new fractional part. -/
def carryNs (acc d : Int) : Int × Int := ((acc + d) / 64000000000, (acc + d) % 64000000000)

/-- One tick: local time and PTP time go on by 4 ns with the servo's correction, so that local time is that of the PTP-disciplined
oscillator (R50) without its steps; operating seconds count each second out of reset. A device in reset stands still. -/
def State.tick (s : State) : State :=
  if s.get pwrReset_CAUSE = 0 then s
  else
    let r := carryNs s.clk.acc s.tickAdj
    let m := shiftNs s.clk.mono (4 + r.1)
    let sec := m / nsPerSec - s.clk.mono / nsPerSec
    { s with clk := { s.clk with mono := m, ptp := shiftNs s.clk.ptp (4 + r.1), acc := r.2 }
             aon := { s.aon with opSeconds := s.aon.opSeconds + sec } }

end Sys2Proof.Machine
end

