-- ==== Sys2Proof/WellFormed.lean ====
section
/-!
DEFINITION. Well-formed commands: the bounds that the spec's numbering puts on a command's operands.
-/
namespace Sys2Proof
open Sys2Proof.Machine

/-- An interface that exists: cores 0 to 7, Oarsmen 0 to 15 (R32, R423). -/
def ifaceOk : Iface → Bool
  | .core n => decide (n < 8)
  | .oarsman n => decide (n < 16)
  | _ => true

/-- A place of an access: register addresses are 26 bits wide (R42: 64 MiB of BAR0); 256 doorbell pages, or the 512 of the rescue
window, of 4 KiB each (R402, R505). -/
def placeOk : Place → Bool
  | .reg a => decide (a < 2 ^ 26)
  | .door q off => decide (q < 512) && decide (off < 4096)

/-- A number below a bound. -/
def below (bound n : Nat) : Bool := decide (n < bound)

/-- A second event, where one is named: 0 to 511 (R41). -/
def optEventOk : Option Nat → Bool
  | none => true
  | some e => below 512 e

/-- An Ebfin access to a register g0 to g15 or to data memory 0x0000 to 0x1FFF (R424, R440). -/
def ebOk : EbAccess → Bool
  | .readReg r => below 16 r
  | .writeReg r _ => below 16 r
  | .readMem a => below 0x2000 a
  | .writeMem a _ => below 0x2000 a

/-- Whether a command's operands lie within the bounds that the spec's numbering gives them: interfaces, queues 0 to 255 (R389),
Oarsmen 0 to 15 with registers g0 to g15 and 18-bit immediates (R424, R425), cells and radio ports (0 to 2 PLC, 3 and 4 radio), groups
0 to 63 (R344), windows 0 to 9 (R559), ISNS codes of 10 bits (R547), cores 0 to 7 and threads 0 to 1,023 (R406), endpoint indices of 20 bits (R265). -/
def Instr.wf : Instr → Bool
  | .registerWrite i p width _ => ifaceOk i && placeOk p && below 33 width
  | .profileRequest i _ => ifaceOk i
  | .profileChange => true
  | .l1Crossing _ => true
  | .phaseCrossing p => below 3 p
  | .coastingBegins _ => true
  | .coastedCrossing _ => true
  | .anchorAgeExpiry => true
  | .holdoverExpiry => true
  | .leapInstant => true
  | .xingLatch i => ifaceOk i
  | .xingLateClear i q => ifaceOk i && below 256 q
  | .launchItemAtHead q _ => below 256 q
  | .launchInstantReached q _ => below 256 q
  | .snapshotLatch => true
  | .calibrationWrite i a _ => ifaceOk i && below (2 ^ 26) a
  | .calCommit i => ifaceOk i
  | .calDiscard i => ifaceOk i
  | .calCommitApply => true
  | .metQtyCapture i => ifaceOk i
  | .sealCloseRequest i _ => ifaceOk i
  | .sealCloseJudged => true
  | .sealOpening => true
  | .plcFrameReceived p _ => below 3 p
  | .plcTransmitComplete c _ => below 5 c
  | .driveLimitDetection x _ => below 3 x.path && x.samples.all (below 1024)
  | .driverTrip x => below 3 x.path && x.samples.all (below 1024)
  | .driverRearm p => below 3 p
  | .trippedClear i p => ifaceOk i && below 3 p
  | .plcRxCntClear i p => ifaceOk i && below 3 p
  | .cellKeySwitch c => below 5 c
  | .exchangePlanned c => below 5 c
  | .upwardFrameFailed c fseq => below 5 c && below 65536 fseq
  | .responseReceived c _ => below 5 c
  | .plcAckReceived c _ => below 5 c
  | .joinRequestReceived c _ => below 5 c
  | .class0Window c => below 5 c
  | .plcRouteQuery i _ => ifaceOk i
  | .plcXchFailClear i c => ifaceOk i && below 5 c
  | .radioFrameReceived r _ => below 2 r
  | .dataRequest r _ _ => below 2 r
  | .indirectItemUnacked r a => below 2 r && below 65536 a
  | .associationRequest r _ caps parent => below 2 r && below 256 caps && below 65536 parent
  | .provisionalExpiry r a => below 2 r && below 65536 a
  | .readingMessage r a msg => below 2 r && below 65536 a && msg ≠ []
  | .segmentMessage r a _ => below 2 r && below 65536 a
  | .radioAckMessage r a _ => below 2 r && below 65536 a
  | .relayMessage r a _ => below 2 r && below 65536 a
  | .coverPlan r a => below 2 r && below 65536 a
  | .coverUnacked r => below 2 r
  | .dutyBinBoundary r _ => below 2 r
  | .pendForceSet i r a => ifaceOk i && below 2 r && below 65536 a
  | .pendForceClear i r a => ifaceOk i && below 2 r && below 65536 a
  | .pendQuery i r a => ifaceOk i && below 2 r && below 65536 a
  | .radErrClear i r => ifaceOk i && below 2 r
  | .spiTimeout r => below 2 r
  | .ethFrameReceived x _ _ => below 2 x
  | .ethLinkChange x _ _ => below 2 x
  | .class0AuthDone q => below 256 q
  | .ptpSyncReceived x _ => below 2 x
  | .syncTimeout => true
  | .ptpAnnounceReceived x _ => below 2 x
  | .pdelayReqReceived x _ => below 2 x
  | .ptpPortInit => true
  | .ethCntClear i x => ifaceOk i && below 2 x
  | .attachReceived _ => true
  | .attachAnswerReceived _ => true
  | .attachResend => true
  | .attachGiveUp => true
  | .attachRetry => true
  | .peerDown p => below 65536 p
  | .keepaliveSend p => below 65536 p
  | .keepaliveReceived _ => true
  | .anchorReceived x _ => below 2 x
  | .snapshotReceived _ => true
  | .batchReceived _ => true
  | .gangwayAckReceived _ => true
  | .ackDelayExpiry p => below 65536 p
  | .retransmitTimerExpiry p seq => below 65536 p && below (2 ^ 32) seq
  | .commandMessageReceived _ => true
  | .registerMessageHub _ => true
  | .registerAnswerCell _ => true
  | .regaccessReceived _ => true
  | .validationRecord q _ => below 256 q
  | .recordFlowResume x => below 512 x.place
  | .groupWaitExpiry => true
  | .reassemblyTimeout c a => below 5 c && below 65536 a
  | .batchMaxageExpiry => true
  | .batchSigned => true
  | .dedupQuery i _ => ifaceOk i
  | .valVcntClear i _ => ifaceOk i
  | .valBatchCfgWrite i _ => ifaceOk i
  | .enrol i => ifaceOk i
  | .bar i idx => ifaceOk i && below (2 ^ 20) idx
  | .unbar i idx => ifaceOk i && below (2 ^ 20) idx
  | .remove i idx => ifaceOk i && below (2 ^ 20) idx
  | .reEnrol i idx => ifaceOk i && below (2 ^ 20) idx
  | .rewrap i => ifaceOk i
  | .rewrapComplete => true
  | .contextRead i idx => ifaceOk i && below (2 ^ 20) idx
  | .deleteEnrolment i idx => ifaceOk i && below (2 ^ 20) idx
  | .quarantineExpiry slot => below (2 ^ 20) slot
  | .tableRebuildDone => true
  | .balanceRecord => true
  | .balanceEvaluation n => below (2 ^ 48) n
  | .balNodeQuery i _ => ifaceOk i
  | .balEpQuery i _ => ifaceOk i
  | .balEpNodeWrite i _ => ifaceOk i
  | .tariffOpen => true
  | .tariffWrite => true
  | .tariffClose => true
  | .tariffActivate => true
  | .tariffCancel => true
  | .accountSet => true
  | .accountClose => true
  | .clearLockout => true
  | .calendarMinute => true
  | .trfGroupQuery i _ => ifaceOk i
  | .rateQuery i _ => ifaceOk i
  | .boundaryPrestage => true
  | .billingStep _ => true
  | .passedBoundaryCatchup => true
  | .backstepHoldEnd => true
  | .sessionResult => true
  | .billingQuery i _ => ifaceOk i
  | .loadProfileQuery i _ _ => ifaceOk i
  | .groupOpen i => ifaceOk i
  | .actionStage i w g => ifaceOk i && below 10 w && below 64 g
  | .groupSeal i g => ifaceOk i && below 64 g
  | .groupAbort i g => ifaceOk i && below 64 g
  | .groupDurable g => below 64 g
  | .durabilityOverrun g => below 64 g
  | .intentDurable g => below 64 g
  | .groupWithdraw g => below 64 g
  | .sealedGroupRetry => true
  | .cmtGstatRead i => ifaceOk i
  | .jseqCapture i => ifaceOk i
  | .counterCapture i => ifaceOk i
  | .journalReplayDone => true
  | .identityKeyGenerated => true
  | .epochTreeBuilt => true
  | .tokenEntry => true
  | .lockoutEnd => true
  | .keyStateChange k _ => below 16 k
  | .panelFrameStart => true
  | .temperatureBandChange t => below 256 t
  | .dischargeHoldEnd => true
  | .frameMemoryWrite i _ => ifaceOk i
  | .frameMemoryRead i => ifaceOk i
  | .accountQuery i _ => ifaceOk i
  | .doorbellPush i q _ => ifaceOk i && below 256 q
  | .doorbellPop i q => ifaceOk i && below 256 q
  | .producerClaimGranted q => below 256 q
  | .queueIdleTimeout q => below 256 q
  | .queueRelease i q _ iseq => ifaceOk i && below 256 q && below (2 ^ 24) iseq
  | .queueRewind i q => ifaceOk i && below 256 q
  | .queueDone i q iseq => ifaceOk i && below 256 q && below (2 ^ 24) iseq
  | .whfQCntClear i q => ifaceOk i && below 256 q
  | .threadDispatch core _ => below 8 core
  | .prefetchLoadDone core => below 8 core
  | .threadWait core a b => below 8 core && below 512 a && optEventOk b
  | .workTake core => below 8 core
  | .takeGranted thread => below 1024 thread
  | .threadYield core => below 8 core
  | .threadDone core => below 8 core
  | .threadExit core => below 8 core
  | .setPriority core prio => below 8 core && below 64 prio
  | .threadCreate i => ifaceOk i
  | .c0StatRead i k => ifaceOk i && below 2 k
  | .fryCntClear i => ifaceOk i
  | .opAdd n gd ga gb => below 16 n && below 16 gd && below 16 ga && below 16 gb
  | .opSub n gd ga gb => below 16 n && below 16 gd && below 16 ga && below 16 gb
  | .opAnd n gd ga gb => below 16 n && below 16 gd && below 16 ga && below 16 gb
  | .opOr n gd ga gb => below 16 n && below 16 gd && below 16 ga && below 16 gb
  | .opXor n gd ga gb => below 16 n && below 16 gd && below 16 ga && below 16 gb
  | .opShl n gd ga gb => below 16 n && below 16 gd && below 16 ga && below 16 gb
  | .opShr n gd ga gb => below 16 n && below 16 gd && below 16 ga && below 16 gb
  | .opSra n gd ga gb => below 16 n && below 16 gd && below 16 ga && below 16 gb
  | .opMul n gd ga gb => below 16 n && below 16 gd && below 16 ga && below 16 gb
  | .opMulh n gd ga gb => below 16 n && below 16 gd && below 16 ga && below 16 gb
  | .opSltu n gd ga gb => below 16 n && below 16 gd && below 16 ga && below 16 gb
  | .opSlt n gd ga gb => below 16 n && below 16 gd && below 16 ga && below 16 gb
  | .opTxt n gd => below 16 n && below 16 gd
  | .opTxf n ga => below 16 n && below 16 ga
  | .opFacq n gd ga => below 16 n && below 16 gd && below 16 ga
  | .opFrel n ga => below 16 n && below 16 ga
  | .opAddi n gd ga imm => below 16 n && below 16 gd && below 16 ga && below (2 ^ 18) imm
  | .opAndi n gd ga imm => below 16 n && below 16 gd && below 16 ga && below (2 ^ 18) imm
  | .opOri n gd ga imm => below 16 n && below 16 gd && below 16 ga && below (2 ^ 18) imm
  | .opXori n gd ga imm => below 16 n && below 16 gd && below 16 ga && below (2 ^ 18) imm
  | .opShli n gd ga imm => below 16 n && below 16 gd && below 16 ga && below (2 ^ 18) imm
  | .opShri n gd ga imm => below 16 n && below 16 gd && below 16 ga && below (2 ^ 18) imm
  | .opLui n gd imm => below 16 n && below 16 gd && below (2 ^ 18) imm
  | .opLdw n gd ga imm => below 16 n && below 16 gd && below 16 ga && below (2 ^ 18) imm
  | .opStw n gd ga imm => below 16 n && below 16 gd && below 16 ga && below (2 ^ 18) imm
  | .opLdb n gd ga imm => below 16 n && below 16 gd && below 16 ga && below (2 ^ 18) imm
  | .opStb n gd ga imm => below 16 n && below 16 gd && below 16 ga && below (2 ^ 18) imm
  | .opFex n gd ga imm => below 16 n && below 16 gd && below 16 ga && below (2 ^ 18) imm
  | .opFins n gd ga imm => below 16 n && below 16 gd && below 16 ga && below (2 ^ 18) imm
  | .opXld n gd ga imm => below 16 n && below 16 gd && below 16 ga && below (2 ^ 18) imm
  | .opXst n gd ga imm => below 16 n && below 16 gd && below 16 ga && below (2 ^ 18) imm
  | .opBeq n ga gb target => below 16 n && below 16 ga && below 16 gb && below 4096 target
  | .opBne n ga gb target => below 16 n && below 16 ga && below 16 gb && below 4096 target
  | .opBltu n ga gb target => below 16 n && below 16 ga && below 16 gb && below 4096 target
  | .opBgeu n ga gb target => below 16 n && below 16 ga && below 16 gb && below 4096 target
  | .opJmp n target => below 16 n && below 4096 target
  | .opCall n gd target => below 16 n && below 16 gd && below 4096 target
  | .opJr n ga => below 16 n && below 16 ga
  | .opPop n gd ga imm => below 16 n && below 16 gd && below 16 ga && below (2 ^ 18) imm
  | .opPush n gd ga imm => below 16 n && below 16 gd && below 16 ga && below (2 ^ 18) imm
  | .opQop n ga imm => below 16 n && below 16 ga && below (2 ^ 18) imm
  | .opLwx n gd ga gb => below 16 n && below 16 gd && below 16 ga && below 16 gb
  | .opStamp n ga => below 16 n && below 16 ga
  | .opXnow n gd imm => below 16 n && below 16 gd && below (2 ^ 18) imm
  | .opLwp n gd ga gb => below 16 n && below 16 gd && below 16 ga && below 16 gb
  | .opWait n gd imm => below 16 n && below 16 gd && below (2 ^ 18) imm
  | .oarsmanWaitEnd n => below 16 n
  | .opWaitx n gd ga imm => below 16 n && below 16 gd && below 16 ga && below (2 ^ 18) imm
  | .waitxInstantReached n => below 16 n
  | .opWaitu n ga => below 16 n && below 16 ga
  | .waituExpiry n => below 16 n
  | .opSignal n => below 16 n
  | .opHsub n gd ga => below 16 n && below 16 gd && below 16 ga
  | .opHwait n gd ga => below 16 n && below 16 gd && below 16 ga
  | .hashJobComplete n tag _ => below 16 n && below 4 tag
  | .opCopen n gd imm => below 16 n && below 16 gd && below (2 ^ 18) imm
  | .opCstage n gd ga imm => below 16 n && below 16 gd && below 16 ga && below (2 ^ 18) imm
  | .opCseal n gd imm => below 16 n && below 16 gd && below (2 ^ 18) imm
  | .opCabort n gd imm => below 16 n && below 16 gd && below (2 ^ 18) imm
  | .opCwaitd n gd imm => below 16 n && below 16 gd && below (2 ^ 18) imm
  | .opTrap n imm => below 16 n && below (2 ^ 18) imm
  | .oarsmanRestart i n => ifaceOk i && below 16 n
  | .oarsmanHalt i n => ifaceOk i && below 16 n
  | .oarsmanResume i n => ifaceOk i && below 16 n
  | .sealCoreRestart n => below 16 n
  | .ebfinHalt n => below 16 n
  | .ebfinStep n => below 16 n
  | .ebfinAccess n a => below 16 n && ebOk a
  | .holdMount a b _ => below 5 a.length && below 5 b.length
  | .nandProgramDone _ _ _ => true
  | .nandEraseDone _ _ => true
  | .nandReadDone _ _ _ _ _ => true
  | .placementWindowExpiry _ _ => true
  | .mergeSwitch _ => true
  | .holdRead i => ifaceOk i
  | .holdDiscard i => ifaceOk i
  | .holdTrim i => ifaceOk i
  | .holdCmdComplete => true
  | .streamQuery i _ => ifaceOk i
  | .hldEccClear i => ifaceOk i
  | .flushComplete => true
  | .logbookReadSelect i w _ => ifaceOk i && below 10 w
  | .logbookClear i => ifaceOk i
  | .keyWrite i => ifaceOk i
  | .keyErase i => ifaceOk i
  | .keyLock i => ifaceOk i
  | .keyRead i => ifaceOk i
  | .signingIndexCapture i => ifaceOk i
  | .attestationRequest i _ => ifaceOk i
  | .attestationComplete => true
  | .manifestVerified => true
  | .manifestCheck i _ => ifaceOk i
  | .manifestStage i _ => ifaceOk i
  | .manifestStageComplete => true
  | .manifestApply i => ifaceOk i
  | .manifestApplyBoundary vin => below 65536 vin
  | .manifestConfirm i => ifaceOk i
  | .manifestInvalidate i => ifaceOk i
  | .trialExpiry vin => below 65536 vin
  | .powerWarning _ vin => below 65536 vin
  | .rideThrough => true
  | .railDropout => true
  | .porst => true
  | .ebfinSystemReset => true
  | .softwareReset i _ vin => ifaceOk i && below 65536 vin
  | .resetRelease _ => true
  | .lpddr5Trained => true
  | .holdSenseWaitExpiry => true
  | .holdSenseChange _ => true
  | .temperatureWarn t => below 256 t
  | .avsUpdate n400 n800 n1200 => below 1024 n400 && below 1024 n800 && below 1024 n1200
  | .vbatLow => true
  | .vinMinRead i now least => ifaceOk i && below 65536 now && below 65536 least
  | .testUnlockFirst i => ifaceOk i
  | .testUnlockSecond i => ifaceOk i
  | .testLock i => ifaceOk i
  | .entryArm i _ => ifaceOk i
  | .entryDisarm i _ => ifaceOk i
  | .entryLimitExpiry n => below 8 n
  | .dramEccClear i => ifaceOk i
  | .radioTransmitComplete r x => below 2 r && below 256 x.result && below 256 x.tries
  | .ethTransmitComplete x => below 2 x
  | .ptpMessageInterval x typ => below 2 x && below 16 typ
  | .announceReceiptTimeout x => below 2 x
  | .perturbedItemVisible q => below 256 q
  | .alwaysOnInvalid => true
  | .temperatureWarnRearm t => below 256 t
  | .porstFlushTimeout => true

end Sys2Proof
end

