-- ==== Sys2Proof/Safety.lean ====
section
/-!
DEFINITION. The terms that statements are made in: what a command answers, which parts of the state it may change, the canonical
form of the memories, a safe queue of waiting commands.
-/
namespace Sys2Proof.Machine

/-- A command answers a next state of which a property holds. -/
def answers (c : Instr) (s : State) (P : State → Prop) : Prop := ∃ t, exec c s = .next t ∧ P t

/-- The parts of the state, one for each field of State. -/
inductive Part where
  | pending | free | regs | clk | xing | aon | fuses | whf | fry | oar | flows | txn | cmt | hld | nand | lgb | man | live | img
  | met | plc | rad | eth | gwy | val | ept | bal | trf | bil | tok | pan | keys | mft | pwr | tst | msix | sram | dram | sent
  deriving DecidableEq, Repr

/-- A part is the same in two states. -/
def Part.same (p : Part) (s t : State) : Prop :=
  match p with
  | .pending => t.pending = s.pending
  | .free => t.free = s.free
  | .regs => t.regs = s.regs
  | .clk => t.clk = s.clk
  | .xing => t.xing = s.xing
  | .aon => t.aon = s.aon
  | .fuses => t.fuses = s.fuses
  | .whf => t.whf = s.whf
  | .fry => t.fry = s.fry
  | .oar => t.oar = s.oar
  | .flows => t.flows = s.flows
  | .txn => t.txn = s.txn
  | .cmt => t.cmt = s.cmt
  | .hld => t.hld = s.hld
  | .nand => t.nand = s.nand
  | .lgb => t.lgb = s.lgb
  | .man => t.man = s.man
  | .live => t.live = s.live
  | .img => t.img = s.img
  | .met => t.met = s.met
  | .plc => t.plc = s.plc
  | .rad => t.rad = s.rad
  | .eth => t.eth = s.eth
  | .gwy => t.gwy = s.gwy
  | .val => t.val = s.val
  | .ept => t.ept = s.ept
  | .bal => t.bal = s.bal
  | .trf => t.trf = s.trf
  | .bil => t.bil = s.bil
  | .tok => t.tok = s.tok
  | .pan => t.pan = s.pan
  | .keys => t.keys = s.keys
  | .mft => t.mft = s.mft
  | .pwr => t.pwr = s.pwr
  | .tst => t.tst = s.tst
  | .msix => t.msix = s.msix
  | .sram => t.sram = s.sram
  | .dram => t.dram = s.dram
  | .sent => t.sent = s.sent

/-- A state differs from another at most in the parts listed. -/
def onlyIn (ps : List Part) (s t : State) : Prop := ∀ p, p ∉ ps → p.same s t

/-- Every register but those listed holds the word it held. -/
def keepsRegs (ks : List Nat) (s t : State) : Prop := ∀ a, a ∉ ks → t.reg a = s.reg a

/-- What raising an event may change: the Ferryman's and the Oarsmen's waits and latches, FRY_CNT, MSI-X messages sent (R41, R411,
R431). -/
def evtParts : List Part := [.regs, .fry, .oar, .msix, .sent]

/-- What raising an event and writing a Logbook record may change. -/
def logParts : List Part := [.regs, .fry, .oar, .msix, .sent, .lgb]

/-- The registers that raising an event and writing a Logbook record may change: FRY_CNT and LGB_STAT count. -/
def logRegs : List Nat := [fryCnt, lgbStat]

/-- The canonical form of a memory: addresses strictly rising, no entry equal to what an unlisted address reads as. -/
abbrev Memory.wf (m : SMap Byte) : Prop := smWf 0 m = true

/-- The commands that wait are well formed. -/
def queueWf (s : State) : Prop := ∀ c ∈ s.pending, c.wf = true

/-- What holds of eFuses for ever: a fuse once blown stays blown, the variant and the EUI-64 are fixed (R88, R489, R500). -/
def fusesHold (a b : Fuses) : Prop :=
  b.variant = a.variant ∧ b.eui = a.eui ∧ a.breaks ≤ b.breaks ∧ a.epoch ≤ b.epoch ∧ a.openFloor ≤ b.openFloor ∧
  a.sealedFloor ≤ b.sealedFloor ∧ a.openAuth ≤ b.openAuth ∧ a.sealedAuth ≤ b.sealedAuth ∧
  (a.everClosed = true → b.everClosed = true) ∧ (a.identity = true → b.identity = true ∧ b.fingerprint = a.fingerprint)

/-- No log block of the Hold but one is full or closed, so that no merge is due once that one is gone (R449). -/
def State.onlyFullLog (s : State) (g : Option Nat) : Bool :=
  s.hld.blocks.all fun p => match p.2.use with
    | .log k => g == some p.1 || !(p.2.closed || decide (s.lbPages k ≤ p.2.pages.length))
    | _ => true

/-- The next item of a launch queue is the launch unit's to judge: no power warning, nothing in the lane or held, no jitter armed. -/
abbrev launchReady (s : State) (q : Nat) (it : Item) : Prop :=
  s.warned = false ∧ s.qUsed q = true ∧ (s.q q).lane = [] ∧ (s.q q).held = false ∧ s.launchHead q = some it ∧
  (s.armedEntry 3 fun e => e.target == q) = none

/-- A launch queue of the Gangway, or of an Ethernet port with no forwarded PTP frame waiting. -/
def State.netQueue (s : State) (q : Nat) : Bool := match s.man.medium q with
  | .gwy => true
  | .eth x => s.eth.fwd.all fun p => p.1 != x
  | _ => false

/-- An Oarsman runs, its PC within its loaded code: its next instruction executes (R436, R442). -/
abbrev oarRuns (n : Nat) (s : State) : Prop :=
  (s.oarN n).st = .running ∧ (s.oarN n).pc < (smGet {} s.man.oar n).code.length

/-- Nothing but one Oarsman and its count of busy cycles changes. -/
abbrev oarOnly (n : Nat) (s t : State) : Prop :=
  onlyIn [.regs, .oar] s t ∧ keepsRegs [oarBusy n] s t ∧ ∀ k ∈ List.range 16, k ≠ n → t.oarN k = s.oarN k

/-- An Oarsman's instruction that writes one general register and moves the PC on: nothing else of the Oarsman changes. -/
abbrev oarWrites (n gd : Nat) (v : Word) (s t : State) : Prop :=
  t.oarN n = { (s.oarN n).setG gd v with pc := (s.oarN n).pc + 1 } ∧ oarOnly n s t

end Sys2Proof.Machine
end

