-- ==== Sys2Proof/Certificates/Slice0/Obligations.lean ====
section
/-!
DEFINITION. The statements about the CRN-8800 model, for the provers. `answers c s P` says that command c at state s answers a next
state of which P holds; `onlyIn` and `keepsRegs` say what is left unchanged (Safety.lean).
-/
open Sys2Proof Sys2Proof.Machine

/-- For every command c and state s, a step of s with c put at the front of its queue of waiting commands is exec of c on s.
(00_scope.md) -/
def Obligations.StepRunsFrontCommand : Prop :=
  ∀ (c : Instr) (s : State), step { s with pending := c :: s.pending } = exec c s

/-- For every command c and every state s, exec c s answers a next state (no command faults or is refused), and that state's
queue of waiting commands is the one of s. The queue is the model's own field (log entry 1). (00_scope.md, R19) -/
def Obligations.EveryCommandAnswersAndKeepsTheQueue : Prop :=
  ∀ (c : Instr) (s : State), answers c s fun t => t.pending = s.pending

/-- For every state s, if a step of s answers t: SYS_DEVICE_ID's variant and the EUI-64 are those of s; the break counter, the
rollback epoch, the image floors and the authority counts are not lower than in s; a seal ever closed stays ever closed; an
identity that exists stays, with its fingerprint. Over any command of the table and over an idle step. (R88, R89, R486, R489,
R500, R501) -/
def Obligations.FusesOnlyBurn : Prop :=
  ∀ s t : State, step s = .next t → fusesHold s.fuses t.fuses

/-- For every state s whose waiting commands all have operands within the spec's numbering: if a step of s answers t, the
commands waiting in t are those of s without the first one (none where none waited), and all of them are well formed. (R17, R42,
R344, R389, R406, R424, R559) -/
def Obligations.QueueStaysWellFormed : Prop :=
  ∀ s t : State, queueWf s → step s = .next t → t.pending = s.pending.tail ∧ queueWf t

/-- For every state s whose SRAM and LPDDR5 are in canonical form (addresses strictly rising, no byte listed that reads as an
unlisted one): if a step of s answers t, the SRAM and the LPDDR5 of t are in canonical form, so that equal memories are equal
data. Over any command of the table and an idle step; that the memories hold it after reset is part of ResetLeaves. That an
unlisted byte reads 0 is the model's choice (log entry 4). (00_scope.md, R33, R347, R467, R490, R505) -/
def Obligations.MemoriesStayCanonical : Prop :=
  ∀ s t : State, Memory.wf s.sram → Memory.wf s.dram → step s = .next t → Memory.wf t.sram ∧ Memory.wf t.dram

/-- After reset SYS_DEVICE_ID reads part 0x8800, variant 1, step 1.1 (variant 1 is the model's choice of device, log entry 5);
the calibration gains are unity (0x4000_0000 for channels 0 to 6); XING_PERIOD and XING_PHASE_OFS hold the reset values of their
tables; the crossing count is not valid and the counter coasts; no queue holds an item, every thread is FREE, no group is open,
every Oarsman is not loaded; no command waits; both memories are in canonical form. (R5, R46, R404, R420, R522,
02_crossing_time.md, 03_metrology_seal.md) -/
def Obligations.ResetLeaves : Prop :=
  State.reset.get sysDeviceId_PART_NUMBER = 0x8800 ∧ State.reset.get sysDeviceId_VARIANT = 1 ∧
  State.reset.get sysDeviceId_STEP_MAJOR = 1 ∧ State.reset.get sysDeviceId_STEP_MINOR = 1 ∧
  (∀ c, c < 7 → State.reset.reg (metCalGain c) = 0x40000000#32) ∧
  State.reset.reg 0x100004 = 1#32 ∧ State.reset.reg 0x10000C = 0xAAAB5555#32 ∧
  State.reset.xing.valid = false ∧ State.reset.coasting = true ∧
  (∀ q, State.reset.q q = {}) ∧ (∀ n, (State.reset.thr n).st = .free) ∧ (∀ g, (State.reset.grp g).st = .free) ∧
  (∀ n, (State.reset.oarN n).st = .notLoaded) ∧
  State.reset.pending = [] ∧ Memory.wf State.reset.sram ∧ Memory.wf State.reset.dram

/-- With no command waiting and the device out of reset, a step moves the local counter and PTP time by 4 ns plus the whole
nanoseconds of the servo's correction, keeps the remainder, and counts an operating second for each second that the local
counter completes; nothing else changes. In reset (PWR_RESET.CAUSE 0, the model's reading) nothing changes. That a tick takes
the place of an empty queue is the model's choice (log entry 1); the 4 ns are the spec's. (R59, R62, R470) -/
def Obligations.IdleStepIsOneTick : Prop :=
  ∀ s : State, s.pending = [] →
    (s.get pwrReset_CAUSE = 0 → step s = .next s) ∧
    (s.get pwrReset_CAUSE ≠ 0 → ∃ t, step s = .next t ∧ t.clk.mono = shiftNs s.clk.mono (4 + (carryNs s.clk.acc s.tickAdj).1) ∧
      t.clk.ptp = shiftNs s.clk.ptp (4 + (carryNs s.clk.acc s.tickAdj).1) ∧ t.clk.acc = (carryNs s.clk.acc s.tickAdj).2 ∧
      t.clk.epoch = s.clk.epoch ∧
      t.aon.opSeconds = s.aon.opSeconds + (t.clk.mono / nsPerSec - s.clk.mono / nsPerSec) ∧ onlyIn [.clk, .aon] s t)

/-- PROFILE_REQUEST that the map grants: a profile that the Manifest does not permit sets REJECT and leaves REQUEST, PENDING and
TARGET as they were; a permitted one is stored, becomes TARGET, and PENDING is 1 unless it is the active profile. PROFILE_CHANGE
at a crossing number that is a multiple of 32, with a request pending and no power warning: ACTIVE becomes TARGET, PENDING is 0,
SYS_PROFILE_SWXING holds the crossing number, and cores at or above the profile's count are parked (2, 4, 8, 8 cores), the
others not. (R36, R37, R39) -/
def Obligations.ProfileRequestAndChange : Prop :=
  (∀ (s : State) (i : Iface) (v : Word), s.mayAccess i sysProfileCtrl true = true →
    answers (.profileRequest i v) s fun t =>
      (wordBits v sysProfileCtrl_REQUEST ∉ s.man.profiles →
        t.get sysProfileStat_REJECT = 1 ∧ t.get sysProfileCtrl_REQUEST = s.get sysProfileCtrl_REQUEST ∧
        t.get sysProfileStat_PENDING = s.get sysProfileStat_PENDING ∧ t.get sysProfileStat_TARGET = s.get sysProfileStat_TARGET) ∧
      (wordBits v sysProfileCtrl_REQUEST ∈ s.man.profiles →
        t.get sysProfileCtrl_REQUEST = wordBits v sysProfileCtrl_REQUEST ∧
        t.get sysProfileStat_TARGET = wordBits v sysProfileCtrl_REQUEST ∧
        t.get sysProfileStat_PENDING =
          if wordBits v sysProfileCtrl_REQUEST = s.get sysProfileStat_ACTIVE then 0 else 1)) ∧
  (∀ s : State, s.xing.num % 32 = 0 → s.get sysProfileStat_PENDING = 1 → s.warned = false →
    answers .profileChange s fun t =>
      t.get sysProfileStat_ACTIVE = s.get sysProfileStat_TARGET ∧ t.get sysProfileStat_PENDING = 0 ∧
      t.reg sysProfileSwxing = BitVec.ofNat 32 s.xing.num ∧
      ∀ n ∈ List.range 8, (t.core n).parked = decide (profileCores (s.get sysProfileStat_TARGET) ≤ n))

/-- The event enable registers that a granted write stores and nothing more. -/
def plainEnables : List Nat := [pwrEvtEn, xingEvtEn, metEvtEn, plcEvtEn, plcMacEvtEn0, plcMacEvtEn1, radEvtEn, ethEvtEn, valEvtEn,
  eptEvtEn, balEvtEn, trfEvtEn, bilEvtEn, cmtEvtEn, panEvtEn, whfEvtEn0, whfEvtEn1, fryEvtEn, oarEvtEn, hldEvtEn, lgbEvtEn, keyEvtEn,
  mftEvtEn]

/-- REGISTER_WRITE of a 32-bit word to one of the event enable registers (of the crossing, metrology, PLC, radio, Ethernet,
validation, table, balance, tariff, billing, commit, panel, Wharf, Ferryman, Oarsman, Hold, Logbook, key, Manifest and power
blocks), by an interface that may write it: the register holds the word's bits at its fields and 0 elsewhere as far as the
table's fields go, every other register and every other part of the state are unchanged. A write narrower than 32 bits, or at an
address that is not a multiple of 4, changes nothing; so does a write beyond the register blocks. (R15, R16, R17, R19, R42) -/
def Obligations.EventEnableWritesAreAtomic : Prop :=
  (∀ (s : State) (i : Iface) (a : Nat) (v : Word) (d : RegDesc), a ∈ plainEnables → regDesc? a = some d →
    s.mayAccess i a true = true →
    answers (.registerWrite i (.reg a) 32 v) s fun t =>
      t.reg a = writeFields i a s.sealOpen d.fields (s.reg a) v ∧ keepsRegs [a] s t ∧ onlyIn [.regs] s t) ∧
  (∀ (s : State) (i : Iface) (p : Place) (width : Nat) (v : Word), width ≠ 32 → exec (.registerWrite i p width v) s = .next s) ∧
  (∀ (s : State) (i : Iface) (a : Nat) (v : Word), a % 4 ≠ 0 ∨ 0x1500000 ≤ a → exec (.registerWrite i (.reg a) 32 v) s = .next s)

/-- L1_CROSSING with no clock fault armed: the first edge seen is remembered; an edge whose period since the last one lies
outside the valid range sets FREQ_OOR and leaves the count; one within the range, not coasting, none held and with no anchor in
use, raises the count by one and is the instant placed and the last edge; one that a hold covers (R52) leaves the count. While
coasting, a valid period is one more of the run, uncounted, until three stand: the next ends coasting, sets MAINS_L1 and, with
no anchor in use, is the number after the last. PHASE_CROSSING after an L1 edge notes the offset of L2 or of L3 from it (while
coasting with a valid count, from the coasted crossing; log entry 111) in 2^-16 of a period and nothing else. COASTING_BEGINS,
with no edge for 1.5 times the last period, sets COASTING, clears MAINS_L1, holds the period in use and places the next crossing
one such period after the last placed one; COASTED_CROSSING places each further one. (R44, R48, R49, R50) -/
def Obligations.CrossingsAreCounted : Prop :=
  (∀ (s : State) (raw : List (List Int)), s.clockFault 0 = false → s.xing.lastEdge = none →
    exec (.l1Crossing raw) s = .next { s with xing := { s.xing with lastEdge := some s.clk.mono } }) ∧
  (∀ (s : State) (raw : List (List Int)) (e : Nat), s.clockFault 0 = false → s.xing.lastEdge = some e →
    s.periodOk (s.clk.mono - e) = false →
    answers (.l1Crossing raw) s fun t => t.get xingStatus_FREQ_OOR = 1 ∧ t.xing.num = s.xing.num) ∧
  (∀ (s : State) (raw : List (List Int)) (e : Nat), s.clockFault 0 = false → s.xing.lastEdge = some e →
    s.periodOk (s.clk.mono - e) = true → s.coasting = false → s.xing.hold = 0 → s.anchorNow = none →
    answers (.l1Crossing raw) s fun t =>
      t.xing.num = s.xing.num + 1 ∧ t.xing.placed = s.clk.mono ∧ t.xing.lastEdge = some s.clk.mono) ∧
  (∀ (s : State) (raw : List (List Int)) (e : Nat), s.clockFault 0 = false → s.xing.lastEdge = some e →
    s.periodOk (s.clk.mono - e) = true → s.coasting = false → 1 < s.xing.hold →
    answers (.l1Crossing raw) s fun t =>
      t.xing.num = s.xing.num ∧ t.xing.hold = s.xing.hold - 1 ∧ t.xing.lastEdge = some s.clk.mono) ∧
  (∀ (s : State) (raw : List (List Int)) (e : Nat), s.clockFault 0 = false → s.xing.lastEdge = some e →
    s.periodOk (s.clk.mono - e) = true → s.coasting = true → s.xing.goodRun < 3 →
    answers (.l1Crossing raw) s fun t => t.xing.num = s.xing.num ∧ t.xing.goodRun = s.xing.goodRun + 1 ∧ t.coasting = true ∧
      onlyIn [.xing, .regs] s t) ∧
  (∀ (s : State) (raw : List (List Int)) (e : Nat), s.clockFault 0 = false → s.xing.lastEdge = some e →
    s.periodOk (s.clk.mono - e) = true → s.coasting = true → 3 ≤ s.xing.goodRun → s.xing.hold = 0 → s.anchorNow = none → s.xing.valid = true →
    answers (.l1Crossing raw) s fun t => t.xing.num = s.xing.num + 1 ∧ t.coasting = false ∧ t.get xingStatus_MAINS_L1 = 1) ∧
  (∀ (s : State) (p e : Nat), s.clockFault 0 = false → s.xing.lastEdge = some e → p = 1 ∨ p = 2 →
    answers (.phaseCrossing p) s fun t =>
      (if p = 1 then t.xing.l2 else t.xing.l3) = (if p = 1 then s.xing.l2 else s.xing.l3).edge
        ((s.clk.mono - (if s.coasting = true ∧ s.xing.valid = true then s.xing.placed else e)) * 65536 / s.lastPeriod % 65536) ∧
      t.xing = { s.xing with l2 := t.xing.l2, l3 := t.xing.l3 } ∧ (p = 1 → t.xing.l3 = s.xing.l3) ∧
      (p = 2 → t.xing.l2 = s.xing.l2) ∧ onlyIn [.xing] s t) ∧
  (∀ (s : State) (raw : List (List Int)) (e : Nat), s.xing.lastEdge = some e → s.coasting = false →
    s.lastPeriod * 3 / 2 ≤ s.clk.mono - e →
    answers (.coastingBegins raw) s fun t =>
      t.xing.num = s.xing.num + 1 ∧ t.xing.held = s.period ∧ t.xing.placed = s.xing.placed + s.period ∧
      t.get xingStatus_COASTING = 1 ∧ t.get xingStatus_MAINS_L1 = 0) ∧
  (∀ (s : State) (raw : List (List Int)), s.coasting = true → s.xing.valid = true → s.xing.held ≠ 0 →
    s.xing.placed + s.xing.held ≤ s.clk.mono →
    answers (.coastedCrossing raw) s fun t =>
      t.xing.num = s.xing.num + 1 ∧ t.xing.placed = s.xing.placed + s.xing.held ∧ t.xing.held = s.xing.held)

/-- ANCHOR_AGE_EXPIRY with an anchor more than 512 crossings old drops it and ANCHOR_LOCK, and changes no other register.
HOLDOVER_EXPIRY 72 h or more after the last SYNCED instant, clock trust judged and HOLDOVER, the agreement test passed: the
state is UNTRUSTED (2) with cause 0x02. LEAP_INSTANT with a leap announced puts its offset into XING_UTC_OFS, clears PENDING and
forgets the leap. XING_LATCH that the map grants puts crossing time and PTP time of this tick into the five latch registers and
changes nothing else but XING_LATCH. XING_LATE_CLEAR of queue q sets LATE and FAR of its register to 0 and leaves POLICY and all
else. (R54, R56, R58, R59, R65, R70) -/
def Obligations.ClockCommands : Prop :=
  (∀ s : State, 512 < s.xing.anchorAge →
    answers .anchorAgeExpiry s fun t =>
      t.xing.anchor = none ∧ t.get xingStatus_ANCHOR_LOCK = 0 ∧ onlyIn [.xing, .regs] s t ∧ keepsRegs [xingStatus] s t) ∧
  (∀ (s : State) (p : Nat), s.xing.trustOk = true → s.get trfClockTrust_STATE = 1 → s.aon.syncedPtp = some p →
    72 * 3600 * nsPerSec ≤ s.clk.ptp - p → s.agrees = true →
    answers .holdoverExpiry s fun t => t.get trfClockTrust_STATE = 2 ∧ t.get trfClockTrust_CAUSE = 2) ∧
  (∀ (s : State) (l : Nat × Int), s.xing.leap = some l →
    answers .leapInstant s fun t =>
      t.get xingUtcOfs_OFFSET = ofSigned 16 l.2 ∧ t.get xingUtcOfs_PENDING = 0 ∧ t.xing = { s.xing with leap := none } ∧
      onlyIn (.xing :: evtParts) s t) ∧
  (∀ (s : State) (i : Iface), s.mayAccess i xingLatch true = true →
    answers (.xingLatch i) s fun t =>
      t.reg xingLatXhi = BitVec.ofNat 32 (s.xt / 2 ^ 32) ∧ t.reg xingLatXlo = BitVec.ofNat 32 s.xt ∧
      t.get xingLatShi_COAST = ofBool s.coasting ∧ t.get xingLatShi_EPOCH = s.clk.epoch % 8 ∧
      t.get xingLatShi_SEC_HI = s.ptpSec / 2 ^ 32 % 65536 ∧
      t.reg xingLatSlo = BitVec.ofNat 32 s.ptpSec ∧ t.reg xingLatNs = BitVec.ofNat 32 (s.clk.ptp % nsPerSec) ∧
      onlyIn [.regs] s t ∧ keepsRegs [xingLatch, xingLatXhi, xingLatXlo, xingLatShi, xingLatSlo, xingLatNs] s t) ∧
  (∀ (s : State) (i : Iface) (q : Nat), q < 256 → s.mayAccess i (xingLate q) true = true →
    answers (.xingLateClear i q) s fun t =>
      t.get (xingLate_LATE q) = 0 ∧ t.get (xingLate_FAR q) = 0 ∧ t.get (xingLate_POLICY q) = s.get (xingLate_POLICY q) ∧ onlyIn [.regs] s t ∧ keepsRegs [xingLate q] s t)

/-- On a launch queue of the Gangway or of an Ethernet port, with no forwarded PTP frame waiting for the port, with an empty
priority lane, no item held, no power warning and no jitter entry armed, LAUNCH_ITEM_AT_HEAD holds an item whose crossing-time
instant lies ahead by at most 4,096 crossings, for that instant, and changes nothing but the queue; it counts one further ahead
in FAR and removes it: HEAD passes it. An item not yet counted whose instant has passed is counted in LATE and, with POLICY
DROP, removed: HEAD passes it; with POLICY SEND, on a free port, it leaves at once and its transmit stamp has the late flag. An
item without an instant leaves at once, on the Gangway as its message in a UDP frame, on Ethernet as its bytes, where the port
is free. While the lane's first item is held, nothing at all leaves. LAUNCH_INSTANT_REACHED at the PTP instant of a held item
that the duty budget has not deferred, the lane empty: it leaves in the same way and is no longer held. More than 4 microseconds
before the instant, or while the lane holds an item, it stays held and nothing changes. (R63, R64, R65, R66, R206, R214) -/
def Obligations.LaunchUnitHoldsAndSends : Prop :=
  (∀ (s : State) (q air : Nat) (it : Item), q < 256 → launchReady s q it → s.netQueue q = true → it.late = false →
    natBit (it.word 0) 63 = true → natBit (it.word 0) 62 = true → s.xt < it.word 0 % 2 ^ 62 + s.xt / 2 ^ 62 * 2 ^ 62 →
    it.word 0 % 2 ^ 62 + s.xt / 2 ^ 62 * 2 ^ 62 ≤ s.xt + 4096 * 65536 →
    answers (.launchItemAtHead q air) s fun t => (t.q q).held = true ∧
      (t.q q).due = some (true, it.word 0 % 2 ^ 62 + s.xt / 2 ^ 62 * 2 ^ 62) ∧ (t.q q).items = (s.q q).items ∧ onlyIn [.whf] s t) ∧
  (∀ (s : State) (q air n : Nat) (it : Item), q < 256 → launchReady s q it → s.netQueue q = true → it.late = false →
    natBit (it.word 0) 63 = true → natBit (it.word 0) 62 = true →
    s.xt + 4096 * 65536 < it.word 0 % 2 ^ 62 + s.xt / 2 ^ 62 * 2 ^ 62 → (s.q q).nextIdx = some n →
    answers (.launchItemAtHead q air) s fun t =>
      t.get (xingLate_FAR q) = satAdd (s.get (xingLate_FAR q)) 1 255 ∧ (t.q q).head = ((s.q q).mark + n + 1) % 2 ^ 32) ∧
  (∀ (s : State) (q air n : Nat) (it : Item), q < 256 → launchReady s q it → s.netQueue q = true → it.late = false →
    s.judge (s.launchDue (it.word 0) 0) = .late → s.flag (xingLate_POLICY q) = false → (s.q q).nextIdx = some n →
    answers (.launchItemAtHead q air) s fun t =>
      t.get (xingLate_LATE q) = satAdd (s.get (xingLate_LATE q)) 1 65535 ∧ (t.q q).head = ((s.q q).mark + n + 1) % 2 ^ 32) ∧
  (∀ (s : State) (q air x : Nat) (it : Item), q < 256 → launchReady s q it → s.man.medium q = .eth x →
    s.eth.fwd.all (fun p => p.1 != x) = true → it.late = false → it.radKind = 0 → s.judge (s.launchDue (it.word 0) 0) = .late →
    s.flag (xingLate_POLICY q) = true → smGet none s.eth.jobs x = none →
    answers (.launchItemAtHead q air) s fun t =>
      t.get (xingLate_LATE q) = satAdd (s.get (xingLate_LATE q)) 1 65535 ∧ Output.ethFrame x it.ethBytes ∈ t.sent ∧
      (smGet none t.eth.jobs x).any (fun j => natBit j.stamp.flags 3) = true) ∧
  (∀ (s : State) (q air : Nat) (it : Item), q < 256 → launchReady s q it → s.man.medium q = .gwy → it.late = false →
    natBit (it.word 0) 63 = false → smGet none s.eth.jobs (s.peerPlace it.radDst).port = none →
    s.fwdWaits (s.peerPlace it.radDst).port = false →
    answers (.launchItemAtHead q air) s fun t =>
      Output.ethFrame (s.peerPlace it.radDst).port (s.gwyFrame it.radDst it.ethBytes) ∈ t.sent) ∧
  (∀ (s : State) (q air x : Nat) (it : Item), q < 256 → launchReady s q it → s.man.medium q = .eth x → it.late = false →
    natBit (it.word 0) 63 = false → it.radKind = 0 → smGet none s.eth.jobs x = none → s.eth.fwd.all (fun p => p.1 != x) = true →
    answers (.launchItemAtHead q air) s fun t => Output.ethFrame x it.ethBytes ∈ t.sent) ∧
  (∀ (s : State) (q air : Nat) (l : LaneItem) (r : List LaneItem), (s.q q).lane = l :: r → l.hold = true →
    exec (.launchItemAtHead q air) s = .next s) ∧
  (∀ (s : State) (q air : Nat) (it : Item), q < 256 → s.warned = false → s.qUsed q = true → (s.q q).lane = [] → (s.q q).held = true →
    s.man.medium q = .gwy → s.launchHead q = some it → it.deferred = false → (s.q q).due = some (false, s.clk.ptp) →
    smGet none s.eth.jobs (s.peerPlace it.radDst).port = none → s.fwdWaits (s.peerPlace it.radDst).port = false →
    answers (.launchInstantReached q air) s fun t => (t.q q).held = false ∧
      Output.ethFrame (s.peerPlace it.radDst).port (s.gwyFrame it.radDst it.ethBytes) ∈ t.sent) ∧
  (∀ (s : State) (q air x : Nat) (it : Item), q < 256 → s.warned = false → s.qUsed q = true → (s.q q).lane = [] → (s.q q).held = true →
    s.man.medium q = .eth x → s.launchHead q = some it → it.deferred = false → (s.q q).due = some (false, s.clk.ptp) → it.radKind = 0 →
    smGet none s.eth.jobs x = none → s.fwdWaits x = false →
    answers (.launchInstantReached q air) s fun t => (t.q q).held = false ∧ Output.ethFrame x it.ethBytes ∈ t.sent) ∧
  (∀ (s : State) (q air n : Nat), (s.q q).held = true → (s.q q).due = some (false, n) → s.clk.ptp + 4000 < n ∨ (s.q q).lane ≠ [] →
    exec (.launchInstantReached q air) s = .next s)

/-- With the map's grant: CALIBRATION_WRITE while the seal is OPEN or EXHAUSTED stores the staged word by its fields, leaves the
active set and every other calibration register, and PENDING is 1 when a staged value differs from its active one; while SEALED
the staged value stays. CAL_COMMIT (seal open, metrological log not full) keeps a copy of the staged set and leaves the active
one; while SEALED it sets REFUSED and copies nothing. CAL_DISCARD (seal open) returns each staged value to the active one,
cancels a waiting commit and clears PENDING. CAL_COMMIT_APPLY with a copy waiting (seal open, log not full) makes it the active
set, clears CAL_LOST and takes the copy away. MET_QTY_CAPTURE puts the 64 bits of the selected quantity into MET_QTY_HI and
MET_QTY_LO and returns the high word. (R18, R80, R83, R84, R85) -/
def Obligations.CalibrationIsStagedThenApplied : Prop :=
  (∀ (s : State) (i : Iface) (a : Nat) (v : Word) (d : RegDesc), a ∈ calAddrs → regDesc? a = some d → s.mayAccess i a true = true →
    s.sealOpen = true →
    answers (.calibrationWrite i a v) s fun t =>
      t.reg a = writeFields i a true d.fields (s.reg a) v ∧ t.met = s.met ∧ onlyIn [.regs] s t ∧ keepsRegs [a, metCalStat] s t ∧
      (t.reg a ≠ s.activeCal a → t.get metCalStat_PENDING = 1)) ∧
  (∀ (s : State) (i : Iface) (a : Nat) (v : Word), a ∈ calAddrs → s.mayAccess i a true = true → s.sealOpen = false →
    answers (.calibrationWrite i a v) s fun t => t.reg a = s.reg a ∧ t.met = s.met) ∧
  (∀ (s : State) (i : Iface), s.mayAccess i metCalCtrl true = true → s.sealOpen = true → s.mlogFull = false →
    answers (.calCommit i) s fun t =>
      t.met = { s.met with copy := some s.stagedCal } ∧ t.get metCalStat_PENDING = 1 ∧ onlyIn [.regs, .met] s t) ∧
  (∀ (s : State) (i : Iface), s.mayAccess i metCalCtrl true = true → s.sealOpen = false →
    answers (.calCommit i) s fun t => t.met = s.met ∧ t.get metCalStat_REFUSED = 1) ∧
  (∀ (s : State) (i : Iface), s.mayAccess i metCalCtrl true = true → s.sealOpen = true →
    answers (.calDiscard i) s fun t =>
      (∀ a ∈ calAddrs, t.reg a = s.activeCal a) ∧ t.met = { s.met with copy := none } ∧ t.get metCalStat_PENDING = 0 ∧
      onlyIn [.regs, .met] s t) ∧
  (∀ (s : State) (m : SMap Word), s.met.copy = some m → s.sealOpen = true → s.mlogFull = false →
    answers .calCommitApply s fun t => t.met.active = m ∧ t.met.copy = none ∧ t.get metStatus_CAL_LOST = 0) ∧
  (∀ (s : State) (i : Iface), s.mayAccess i metQtyHi false = true →
    answers (.metQtyCapture i) s fun t =>
      t.reg metQtyHi = BitVec.ofNat 32 (s.quantity (s.get metQtySel_CODE) / 2 ^ 32) ∧
      t.reg metQtyLo = BitVec.ofNat 32 (s.quantity (s.get metQtySel_CODE)) ∧
      t.sent = .readValue i (BitVec.ofNat 32 (s.quantity (s.get metQtySel_CODE) / 2 ^ 32)) :: s.sent ∧
      onlyIn [.regs, .sent] s t ∧ keepsRegs [metQtyHi, metQtyLo] s t)

/-- SEAL_CLOSE_REQUEST that the map grants, no watch running: OPEN, with no calibration pending or waiting, fewer than 255
breaks and a log that is not full the watch begins; when one of these fails, or SEALED or EXHAUSTED, REFUSED is set and none
begins. While a watch runs a further request leaves it. SEAL_CLOSE_JUDGED at the end of a watch whose conditions still hold: the
seal is SEALED (1), LOOP reads 1, the ever-closed fuse is blown and the watch ends; a condition that fails sets REFUSED, ends
the watch and leaves the state. SEAL_OPENING while SEALED and out of reset (PWR_RESET.CAUSE not 0, the model's reading): BREAKS
rises by one up to 255, the break fuses hold the greater of that and what they held, the state is OPEN (0), or EXHAUSTED (2) at
255, and LOOP reads 0; in reset the break is pending. An opening during a watch ends it and sets REFUSED; else it clears LOOP
and leaves the state. That an opening is remembered over a reset is the model's reading of LOOP (log entry 116). (R87, R88, R89,
R90) -/
def Obligations.SealClosesAndBreaks : Prop :=
  (∀ (s : State) (i : Iface) (v : Word), s.mayAccess i metSealCtrl true = true → s.get metSealStat_STATE = 0 → s.met.closing = false →
    s.closeOk = true →
    answers (.sealCloseRequest i v) s fun t => t.met = { s.met with closing := true } ∧ t.get metSealStat_STATE = 0 ∧ onlyIn [.regs, .met] s t) ∧
  (∀ (s : State) (i : Iface) (v : Word), s.mayAccess i metSealCtrl true = true → s.met.closing = false →
    s.get metSealStat_STATE ≠ 0 ∨ s.closeOk = false →
    answers (.sealCloseRequest i v) s fun t => t.met = s.met ∧ t.get metSealStat_REFUSED = 1 ∧
      t.get metSealStat_STATE = s.get metSealStat_STATE) ∧
  (∀ (s : State) (i : Iface) (v : Word), s.mayAccess i metSealCtrl true = true → s.met.closing = true →
    answers (.sealCloseRequest i v) s fun t => t.met = s.met ∧ t.get metSealStat_STATE = s.get metSealStat_STATE) ∧
  (∀ s : State, s.met.closing = true → s.closeOk = true →
    answers .sealCloseJudged s fun t =>
      t.get metSealStat_STATE = 1 ∧ t.get metSealStat_LOOP = 1 ∧ t.met.closing = false ∧ t.fuses.everClosed = true) ∧
  (∀ s : State, s.met.closing = true → s.closeOk = false →
    answers .sealCloseJudged s fun t =>
      t.get metSealStat_STATE = s.get metSealStat_STATE ∧ t.get metSealStat_REFUSED = 1 ∧ t.met.closing = false) ∧
  (∀ s : State, s.get metSealStat_STATE = 1 → s.get pwrReset_CAUSE ≠ 0 →
    answers .sealOpening s fun t =>
      t.get metSealStat_BREAKS = min 255 (s.get metSealStat_BREAKS + 1) ∧
      t.fuses.breaks = max s.fuses.breaks (min 255 (s.get metSealStat_BREAKS + 1)) ∧
      t.get metSealStat_STATE = (if 254 ≤ s.get metSealStat_BREAKS then 2 else 0) ∧ t.get metSealStat_LOOP = 0) ∧
  (∀ s : State, s.get metSealStat_STATE = 1 → s.get pwrReset_CAUSE = 0 →
    answers .sealOpening s fun t =>
      t.aon = { s.aon with pendingBreak := true, loopOpen := true } ∧ t.get metSealStat_LOOP = 0 ∧ onlyIn [.regs, .aon] s t) ∧
  (∀ s : State, s.get metSealStat_STATE ≠ 1 → s.met.closing = true →
    answers .sealOpening s fun t =>
      t.met.closing = false ∧ t.get metSealStat_REFUSED = 1 ∧ t.get metSealStat_STATE = s.get metSealStat_STATE) ∧
  (∀ s : State, s.get metSealStat_STATE ≠ 1 → s.met.closing = false →
    answers .sealOpening s fun t =>
      t.get metSealStat_LOOP = 0 ∧ t.get metSealStat_STATE = s.get metSealStat_STATE ∧ t.aon = { s.aon with loopOpen := true } ∧ onlyIn [.regs, .aon] s t)

/-- SNAPSHOT_LATCH when the crossing number has reached the fixed snapshot crossing N and N has not been latched yet: the
latched set is the four cumulative energies in mWh, stamped at rank 7, with the renumbered flag (bit 4) where a renumbering
skipped N; the counters themselves and the quantities of the last crossing stay. Once latched for N, a further command changes
nothing. (R52, R80, R81, R286) -/
def Obligations.SnapshotLatchesEnergies : Prop :=
  (∀ s : State, s.plc.snapN ≠ 0 → s.bil.latchN ≠ s.plc.snapN → s.plc.snapN ≤ s.xing.num →
    answers .snapshotLatch s fun t => t.met.latched = s.energies ∧
      t.met.latchStamp = { s.rxStamp 7 with flags := (s.rxStamp 7).flags + (if s.wasSkipped s.plc.snapN = true then 16 else 0) } ∧
      t.energies = s.energies ∧ t.met.inst = s.met.inst ∧ t.met.active = s.met.active) ∧
  (∀ s : State, s.bil.latchN = s.plc.snapN → exec .snapshotLatch s = .next s)

/-- PLC_FRAME_RECEIVED on a path that is on, with no power warning and no perturbation armed: with verdict 0x00 and a flag-mode
receive queue that has room, one item, the 40-byte descriptor and the PSDU, enters the queue at its tail and BAD stays; with
another verdict the frame counts in BAD of the path. Under a power warning, or on a path that is off, nothing is received and
nothing changes. PLC_TRANSMIT_COMPLETE while a cell sends a frame: no path of the frame sends it any longer, and each path that
was drive limited counts in LIMITED. DRIVE_LIMIT_DETECTION while a frame is sent and 4 of 16 samples lie above LIMIT: the path's
frame is marked limited and, where the detection is not in the last symbol, has one more 3 dB step, at most MAXSTEP, at which
the new level leaves the device; nothing else changes. With fewer such samples nothing changes at all. (R105, R106, R107, R114,
R120, R394) -/
def Obligations.PlcFramesAreReceivedAndSent : Prop :=
  (∀ (s : State) (p q : Nat) (x : PlcRx), p < 3 → s.warned = false → natBit (s.get plcStatus_PATH_ON) p = true →
    s.tst.entries = [] → x.verdict false = 0 → roleQ s.man.roles.plcRx (s.pathCell p) = some q → q < 256 → s.qUsed q = true →
    s.flag (whfQCfg_FLAG q) = true → 40 + x.len ≤ 8 * (s.qFree q - 2) → x.len ≤ 254 →
    answers (.plcFrameReceived p x) s fun t =>
      (t.q q).items.dropLast = (s.q q).items ∧ (t.q q).tail = ((s.q q).tail + 1) % 2 ^ 32 ∧
      ((t.q q).items.getLastD {}).bytes.take (40 + x.len) =
        s.rxDescriptor p 0 x (if s.plcMode = 2 then s.excluded x else []) (s.rxStamp (if s.plcMode = 2 then 2 else 2 + p)) ++ x.delivered 0 ∧
      t.get (plcRxCnt_BAD p) = s.get (plcRxCnt_BAD p)) ∧
  (∀ (s : State) (p : Nat) (x : PlcRx), p < 3 → s.warned = false → natBit (s.get plcStatus_PATH_ON) p = true →
    s.tst.entries = [] → x.verdict false ≠ 0 →
    answers (.plcFrameReceived p x) s fun t => t.get (plcRxCnt_BAD p) = satAdd (s.get (plcRxCnt_BAD p)) 1 32767) ∧
  (∀ (s : State) (p : Nat) (x : PlcRx), s.warned = true ∨ natBit (s.get plcStatus_PATH_ON) p = false →
    exec (.plcFrameReceived p x) s = .next s) ∧
  (∀ (s : State) (c k : Nat) (x : XtcRead) (j : TxJob), s.cellJob c = some j → j.phases.Nodup → k ∈ j.phases → k < 3 → (∀ y ∈ j.phases, y < 3) →
    answers (.plcTransmitComplete c x) s fun t =>
      (t.path k).job = none ∧
      t.get (plcTxStat_LIMITED k) =
        if k ∈ s.jobLimited j then satAdd (s.get (plcTxStat_LIMITED k)) 1 65535 else s.get (plcTxStat_LIMITED k)) ∧
  (∀ (s : State) (x : IsnsRead) (p : Nat) (last : Bool) (j : TxJob), x.path = p → (s.path p).job = some j → j.detects x.samples = true →
    answers (.driveLimitDetection x last) s fun t =>
      (t.path p).job = some { j with limited := true, steps := if last = true ∨ j.maxStep ≤ j.steps then j.steps else j.steps + 1 } ∧
      (t.path p).tripAt = (s.path p).tripAt ∧
      (last = false → j.steps < j.maxStep → t.sent = .plcLevel p (min 63 (j.base + 3 * (j.steps + 1))) :: s.sent) ∧ onlyIn [.plc, .sent] s t) ∧
  (∀ (s : State) (x : IsnsRead) (last : Bool) (j : TxJob), (s.path x.path).job = some j → j.detects x.samples = false →
    exec (.driveLimitDetection x last) s = .next s)

/-- DRIVER_TRIP on a path that sends, 5 samples in a row above TRIP: TRIPPED is set, the DAC goes to mid-scale and the frame is
sent no longer; with fewer than three re-arms used the trip's crossing is remembered and OFF stays; with three used OFF is set
for the path, in its register and in PLC_STATUS, and no re-arming waits. DRIVER_REARM at a superframe boundary at least 32
crossings after the trip: the trip is over, REARMS rises by one, up to 3, and nothing else changes. TRIPPED_CLEAR: TRIPPED, OFF
and REARMS of the path are 0, its bit in PLC_STATUS.OFF is 0, the other paths' bits stay and no trip stands. PLC_RX_CNT_CLEAR:
BAD and IMPULSE of the path are 0; nothing else changes. (R106, R120, R121) -/
def Obligations.PlcDriverTripsAndRearms : Prop :=
  (∀ (s : State) (x : IsnsRead) (p : Nat) (j : TxJob), x.path = p → p < 3 → (s.path p).job = some j → p ∈ j.phases →
    j.trips x.samples = true →
    answers (.driverTrip x) s fun t =>
      t.get (plcTxStat_TRIPPED p) = 1 ∧ (t.path p).job = none ∧ Output.pin (.txdac p) .mid ∈ t.sent ∧
      (s.get (plcTxStat_REARMS p) ≠ 3 → (t.path p).tripAt = some s.xing.num ∧ t.get (plcTxStat_OFF p) = s.get (plcTxStat_OFF p)) ∧
      (s.get (plcTxStat_REARMS p) = 3 →
        (t.path p).tripAt = none ∧ t.get (plcTxStat_OFF p) = 1 ∧ t.get plcStatus_OFF = (s.get plcStatus_OFF ||| 2 ^ p))) ∧
  (∀ (s : State) (p k : Nat), p < 3 → (s.path p).tripAt = some k → s.xing.num % 32 = 0 → k + 32 ≤ s.xing.num →
    answers (.driverRearm p) s fun t =>
      t.path p = { s.path p with tripAt := none } ∧ t.get (plcTxStat_REARMS p) = satAdd (s.get (plcTxStat_REARMS p)) 1 3 ∧
      onlyIn [.plc, .regs] s t ∧ keepsRegs [plcTxStat p] s t) ∧
  (∀ (s : State) (i : Iface) (p : Nat), p < 3 → s.mayAccess i (plcTxStat p) true = true →
    answers (.trippedClear i p) s fun t =>
      t.get (plcTxStat_TRIPPED p) = 0 ∧ t.get (plcTxStat_OFF p) = 0 ∧ t.get (plcTxStat_REARMS p) = 0 ∧
      natBit (t.get plcStatus_OFF) p = false ∧ (t.path p).tripAt = none ∧
      t.get plcStatus_OFF = (s.get plcStatus_OFF &&& (7 - 2 ^ p))) ∧
  (∀ (s : State) (i : Iface) (p : Nat), p < 3 → s.mayAccess i (plcRxCnt p) true = true →
    answers (.plcRxCntClear i p) s fun t =>
      t.get (plcRxCnt_BAD p) = 0 ∧ t.get (plcRxCnt_IMPULSE p) = 0 ∧ onlyIn [.regs] s t ∧ keepsRegs [plcRxCnt p] s t)

/-- For a cell c that exists. EXCHANGE_PLANNED with no exchange under way, not suspended, no power warning, no session record
due, no segment waiting, a pick x, no transaction entry granted to the cell before and a free one e that its issuer may take: an
exchange of the kind and endpoint of x takes the cell's FSEQ and e, and FSEQ advances. Suspended, or under a power warning, it
changes nothing. For a PLC cell: UPWARD_FRAME_FAILED for exchange x, not yet acknowledging: below its RETRY_MAX it counts in
RETRIES and the exchange goes on with one more retry; at RETRY_MAX (no leave command in it) it counts in UNREACHED and the
exchange is gone. RESPONSE_RECEIVED, a valid RESPONSE frame of KIND 0x01 from the endpoint of an exchange that does not yet
acknowledge: it waits for its acknowledgement. PLC_ACK_RECEIVED, a valid ACK with STATUS 4 to 6 to the exchange's command
sequence: the exchange is gone and PLC_XCH_OK counts it. (R127, R143, R144, R147, R150, R151, R279, R280) -/
def Obligations.CellExchangesRunAndEnd : Prop :=
  (∀ (s : State) (c e : Nat) (x : Exchange), s.cellUp c = true → (s.cell c).suspended = false → s.warned = false →
    (s.cell c).xch = [] → s.val.segs = [] → (s.pollable c).any (s.sessionDue c) = false → s.pick c = some x → smGet none s.txn.granted c = none →
    s.txnCan (if c < 3 then 3 else c + 1) = true → s.txnFree = some e →
    answers (.exchangePlanned c) s fun t =>
      (t.cell c).fseq = ((s.cell c).fseq + 1) % 65536 ∧ (smGet none t.txn.used e).isSome = true ∧
      ∃ y ∈ (t.cell c).xch, y.fseq = (s.cell c).fseq ∧ y.addr = x.addr ∧ y.kind = x.kind ∧ y.txn = e) ∧
  (∀ (s : State) (c : Nat), (s.cell c).suspended = true ∨ s.warned = true → exec (.exchangePlanned c) s = .next s) ∧
  (∀ (s : State) (c fseq : Nat) (x : Exchange), c < 3 → ((s.cell c).xch.find? fun e => e.fseq == fseq && !e.acking) = some x →
    x.retries < x.limit →
    answers (.upwardFrameFailed c fseq) s fun t =>
      t.get (plcXchFail_RETRIES c) = satAdd (s.get (plcXchFail_RETRIES c)) 1 (plcXchFail_RETRIES c).top ∧
      ∃ y ∈ (t.cell c).xch, y.fseq = fseq ∧ y.retries = x.retries + 1) ∧
  (∀ (s : State) (c fseq : Nat) (x : Exchange), c < 3 → ((s.cell c).xch.find? fun e => e.fseq == fseq && !e.acking) = some x →
    x.limit ≤ x.retries → x.job.all (fun j => !j.leave) = true →
    answers (.upwardFrameFailed c fseq) s fun t =>
      t.get (plcXchFail_UNREACHED c) = satAdd (s.get (plcXchFail_UNREACHED c)) 1 (plcXchFail_UNREACHED c).top ∧
      ∀ y ∈ (t.cell c).xch, y.fseq ≠ fseq) ∧
  (∀ (s : State) (c : Nat) (psdu : List Byte) (x : Exchange), s.cellUp c = true → s.frameOk c psdu = true → frType psdu = 3 →
    (s.cell c).exchangeOf (frSrc psdu) = some x → x.acking = false → beAt (frBody psdu) 0 1 = 1 →
    answers (.responseReceived c psdu) s fun t => ∃ y ∈ (t.cell c).xch, y.fseq = x.fseq ∧ y.addr = x.addr ∧ y.acking = true) ∧
  (∀ (s : State) (c : Nat) (psdu : List Byte) (x : Exchange), c < 3 → s.cellUp c = true → s.frameOk c psdu = true → frType psdu = 4 →
    (s.cell c).exchangeOf (frSrc psdu) = some x → x.job.isSome = true → x.cseq = beAt (frBody psdu) 0 4 →
    4 ≤ beAt (frBody psdu) 4 1 → beAt (frBody psdu) 4 1 ≤ 6 →
    answers (.plcAckReceived c psdu) s fun t =>
      t.get (plcXchOk_COUNT c) = (s.get (plcXchOk_COUNT c) + 1) % ((plcXchOk_COUNT c).top + 1) ∧
      ∀ y ∈ (t.cell c).xch, y.fseq ≠ x.fseq)

/-- JOIN_REQUEST_RECEIVED, a valid frame that answers an open invitation x: the invitation waits for its JOIN_ANSWER to be sent;
where the EUI-64 is not enrolled no node joins; where no row of the Join decisions table refuses, the EUI-64 is not joined in
the cell and registration gives it a slot, it joins at the cell's lowest free address with that slot. CLASS0_WINDOW of a PLC
cell with its launch queue, no power warning, every driver on and no path sending: a repeat that is due is sent and leaves one
repeat less and no new number; otherwise a released command takes the next class-0 sequence, which PLC_C0_STAT shows, and is
sent. CELL_KEY_SWITCH of a PLC cell at the beginning of a superframe, the new generation acknowledged by every member or 96 h
past: it is in force and none is pending; of a radio cell also the frame counter begins anew. PLC_ROUTE_QUERY captures 0 in all
three data registers for an address that is not joined, else the first two relays in PLC_ROUTE_DATA0. PLC_XCH_FAIL_CLEAR sets
RETRIES and UNREACHED to 0 and changes nothing else. (R127, R144, R152, R156, R165, R166) -/
def Obligations.CellJoinsKeysAndQueries : Prop :=
  (∀ (s : State) (c : Nat) (psdu : List Byte) (x : Exchange), s.cellUp c = true → s.frameOk c psdu = true → frType psdu = 6 →
    ((s.cell c).xch.find? fun e => e.kind == 6 && !e.acking && e.route == frRelays psdu) = some x →
    answers (.joinRequestReceived c psdu) s fun t =>
      (∃ y ∈ (t.cell c).xch, y.fseq = x.fseq ∧ y.kind = 6 ∧ y.acking = true ∧ y.ack.isSome = true) ∧
      (s.enrolment (beAt (frBody psdu) 0 8) = none → (t.cell c).nodes = (s.cell c).nodes) ∧
      (s.joinCheck c psdu (s.enrolment (beAt (frBody psdu) 0 8)) = 0 →
        ((s.joinedAt (beAt (frBody psdu) 0 8)).filter fun p => p.1 == c) = none →
        (s.register ((s.enrolment (beAt (frBody psdu) 0 8)).getD []) c (s.freeAddr c) (x.route.length + 1) (x.route.getLastD 0)).all
          (fun p => (t.node c (s.freeAddr c)).any fun n => n.slot == p.1 && n.eui == beAt (frBody psdu) 0 8) = true)) ∧
  (∀ (s : State) (c q : Nat) (f : List Byte), c ∈ s.plcCells → roleQ s.man.roles.plcLaunch c = some q → s.warned = false →
    s.cellOff c = false → s.cellBusy c = false → (s.cell c).c0Cur = some f →
    answers (.class0Window c) s fun t => (t.cell c).c0Left = (s.cell c).c0Left - 1 ∧ (t.cell c).cseq = (s.cell c).cseq ∧
      (s.txPhases c 0).all (fun p => (t.path p).job.isSome) = true) ∧
  (∀ (s : State) (c q : Nat) (l : LaneItem), c ∈ s.plcCells → roleQ s.man.roles.plcLaunch c = some q → s.warned = false →
    s.cellOff c = false → s.cellBusy c = false → (s.cell c).c0Cur = none → (s.q q).releasedLane = some l →
    answers (.class0Window c) s fun t =>
      (t.cell c).cseq = ((s.cell c).cseq + 1) % 2 ^ 32 ∧ t.reg (plcC0Stat c) = BitVec.ofNat 32 (((s.cell c).cseq + 1) % 2 ^ 32) ∧
      (s.txPhases c 0).all (fun p => (t.path p).job.isSome) = true) ∧
  (∀ (s : State) (c g : Nat) (k : List Byte), c < 3 → (s.cell c).keyNew = some (g, k) → s.keyDue c = true → s.xing.num % 32 = 0 →
    answers (.cellKeySwitch c) s fun t =>
      (t.cell c).keyGen = g ∧ (t.cell c).keyNew = none ∧ onlyIn [.plc, .regs, .whf] s t ∧ keepsRegs [plcCellCnt c] s t) ∧
  (∀ (s : State) (r g : Nat) (k : List Byte), (s.cell (3 + r)).keyNew = some (g, k) → s.keyDue (3 + r) = true → s.xing.num % 32 = 0 →
    answers (.cellKeySwitch (3 + r)) s fun t =>
      (t.cell (3 + r)).keyGen = g ∧ (t.cell (3 + r)).keyNew = none ∧ (t.port r).cellFcnt = 0) ∧
  (∀ (s : State) (i : Iface) (v : Word), s.mayAccess i plcRouteSel true = true →
    answers (.plcRouteQuery i v) s fun t =>
      t.reg plcRouteData0 = match s.node (wordBits v plcRouteSel_CELL) (wordBits v plcRouteSel_ADDR) with
        | none => 0
        | some n => BitVec.ofNat 32 (n.route.getD 0 0 * 65536 + n.route.getD 1 0)) ∧
  (∀ (s : State) (i : Iface) (v : Word), s.mayAccess i plcRouteSel true = true →
    s.node (wordBits v plcRouteSel_CELL) (wordBits v plcRouteSel_ADDR) = none →
    answers (.plcRouteQuery i v) s fun t => t.reg plcRouteData1 = 0#32 ∧ t.reg plcRouteData2 = 0#32) ∧
  (∀ (s : State) (i : Iface) (c : Nat), c < 3 → s.mayAccess i (plcXchFail c) true = true →
    answers (.plcXchFailClear i c) s fun t =>
      t.get (plcXchFail_RETRIES c) = 0 ∧ t.get (plcXchFail_UNREACHED c) = 0 ∧ onlyIn [.regs] s t ∧ keepsRegs [plcXchFail c] s t)

/-- For a radio port r. RADIO_FRAME_RECEIVED that fails the delivery conditions (no armed perturbation): counted in FILTERED,
nothing else. An acknowledgement that passes them and carries the outstanding sequence number of an ordinary direct frame,
without a sleepy header: FORCE of its destination is cleared where the frame was a TIME message, else stays. DATA_REQUEST from
an extended address for which an association response waits, accepted, unsecured, the port idle, no airtime budget and no dwell
limit: the response is the frame of the port's job. INDIRECT_ITEM_UNACKED of an indirect item's frame that is not under a cover:
the port has no job, and the item's queue, where the completion does not go into it, is as it was. RADIO_TRANSMIT_COMPLETE: the
port has no job; without success FORCE stays. DUTY_BIN_BOUNDARY with no frame that the budget has deferred, or under a power
warning: a new empty bin in front of at most 64; BUDGET, RESERVE and MAX_DWELL as written come into force; USED is the sum in 10
ms, rounded up, saturating. SPI_TIMEOUT raises event 128 + 16r + 10 and nothing else. (R173, R179, R180, R185, R187, R193, R195,
R200) -/
def Obligations.RadioFramesAndDutyAccount : Prop :=
  (∀ (s : State) (r : Nat) (x : RadRx), r < 2 → s.tst.entries = [] → s.radHears r = true → s.radFilter r x = false →
    answers (.radioFrameReceived r x) s fun t =>
      t.get (radErr_FILTERED r) = satAdd (s.get (radErr_FILTERED r)) 1 (radErr_FILTERED r).top ∧ onlyIn [.regs] s t ∧
      keepsRegs [radErr r] s t) ∧
  (∀ (s : State) (r : Nat) (x : RadRx) (j : RadJob), r < 2 → s.tst.entries = [] → s.radHears r = true → s.radFilter r x = true →
    x.typ = 2 → (s.port r).job = some j → j.ackReq = true → j.seq = x.seq → j.iseq = none → j.cover = false → j.kind ≠ 3 →
    natBit (beAt x.payload 1 1) 0 = false →
    answers (.radioFrameReceived r x) s fun t =>
      (t.port r).force = (if j.typ = 6 then dropMem (s.port r).force j.dst else (s.port r).force) ∧ onlyIn [.rad] s t) ∧
  (∀ (s : State) (r air e e1 a st : Nat) (x : RadRx), r < 2 → s.tst.entries = [] → s.radHears r = true → s.radFilter r x = true →
    x.typ = 3 → x.cmd = 4 → x.secured = false → x.src = .ext e → s.radByEui r e = none →
    ((s.port r).ext.find? fun p => p.1 == e) = some (e1, a, st) → (s.port r).job = none → (s.port r).budgetUs = 0 →
    bitsOf (s.port r).dwell 15 0 = 0 →
    answers (.dataRequest r air x) s fun t =>
      ∃ j, (t.port r).job = some j ∧ j.kind = 3 ∧ j.ext = e ∧ j.air = air ∧ j.bytes = s.assocResponse r e a st) ∧
  (∀ (s : State) (r a : Nat) (j : RadJob), r < 2 → (s.port r).job = some j → j.dst = a → j.iseq.isSome = true → j.cover = false →
    answers (.indirectItemUnacked r a) s fun t => (t.port r).job = none ∧
      (roleQ s.man.roles.completion (3 + r) ≠ some j.q → t.q j.q = s.q j.q)) ∧
  (∀ (s : State) (r : Nat) (x : RadDone) (j : RadJob), r < 2 → (s.port r).job = some j →
    answers (.radioTransmitComplete r x) s fun t =>
      (t.port r).job = none ∧ (x.result ≠ 0 → (t.port r).force = (s.port r).force)) ∧
  (∀ (s : State) (r air q : Nat), r < 2 → roleQ s.man.roles.radLaunch r = some q → (s.q q).lane = [] → s.headDeferred q = false →
    (s.port r).cover = none →
    answers (.dutyBinBoundary r air) s fun t =>
      (t.port r).bins = (0 :: (s.port r).bins).take 64 ∧ (t.port r).budget = s.reg (radDutyBudget r) ∧
      (t.port r).dwell = s.reg (radDutyCfg r) ∧
      t.get (radDutyUsed_USED r) = min (ceilDiv ((0 :: (s.port r).bins).take 64).sum 10000) 65535 ∧
      onlyIn [.regs, .rad] s t ∧ keepsRegs [radDutyUsed r] s t) ∧
  (∀ (s : State) (r air : Nat), r < 2 → s.warned = true →
    answers (.dutyBinBoundary r air) s fun t =>
      (t.port r).bins = (0 :: (s.port r).bins).take 64 ∧ (t.port r).budget = s.reg (radDutyBudget r) ∧
      (t.port r).dwell = s.reg (radDutyCfg r) ∧
      t.get (radDutyUsed_USED r) = min (ceilDiv ((0 :: (s.port r).bins).take 64).sum 10000) 65535 ∧
      onlyIn [.regs, .rad] s t ∧ keepsRegs [radDutyUsed r] s t) ∧
  (∀ (s : State) (r : Nat), r < 2 →
    answers (.spiTimeout r) s fun t =>
      t.fry = (s.raise (128 + 16 * r + 10)).fry ∧ t.oar = (s.raise (128 + 16 * r + 10)).oar ∧ onlyIn evtParts s t)

/-- For a radio port r and its cell 3 + r. ASSOCIATION_REQUEST over the air (accepted, unsecured) of an EUI-64 that is not
enrolled, a place for a response free: one with status 2 and short address 0xFFFF waits for it, and no endpoint joins. One that
no row of the Association decisions table refuses and for which registration gives a slot, in the state that the frame's
acceptance and acknowledgement leave: the endpoint has the lowest free short address, is provisional, and a response with status
0 waits for it. PROVISIONAL_EXPIRY of a provisional endpoint: it loses its short address, no response waits for that address.
READING_MESSAGE of a joined endpoint, no power warning: one more record counts as heard from it. SEGMENT_MESSAGE: what it was
polled for counts as held. RADIO_ACK_MESSAGE with STATUS 4 to 6 and the command sequence of the endpoint's exchange: that
exchange is gone. RELAY_MESSAGE of a depth-2 endpoint through its router, its association answered: it is no longer provisional,
whatever message is inside. (R147, R182, R183, R184, R188, R237) -/
def Obligations.RadioEndpointsJoinAndSpeak : Prop :=
  (∀ (s : State) (r e caps : Nat) (x : RadRx), r < 2 → s.tst.entries = [] → s.radHears r = true → s.radFilter r x = true →
    x.typ = 3 → x.cmd = 1 → x.secured = false → x.src = .ext e → s.enrolment e = none → (s.port r).ext.length < 16 →
    answers (.associationRequest r x caps 0) s fun t =>
      (e, 0xFFFF, 2) ∈ (t.port r).ext ∧ (t.cell (3 + r)).nodes = (s.cell (3 + r)).nodes) ∧
  (∀ (s u : State) (r e caps k : Nat) (x : RadRx), r < 2 → s.tst.entries = [] → s.radHears r = true → s.radFilter r x = true →
    x.typ = 3 → x.cmd = 1 → x.secured = false → x.src = .ext e → (s.radAccept r x).2.assocCheck r e = 0 → s.radByEui r e = none →
    (s.radAccept r x).2.register ((s.enrolment e).getD []) (3 + r) (s.freeAddr (3 + r)) 1 0 = some (k, u) →
    answers (.associationRequest r x caps 0) s fun t =>
      (e, s.freeAddr (3 + r), 0) ∈ (t.port r).ext ∧
      (∃ n, t.node (3 + r) (s.freeAddr (3 + r)) = some n ∧ n.slot = k ∧ n.eui = e ∧ n.depth = 1) ∧
      (∃ y, t.rnode r (s.freeAddr (3 + r)) = some y ∧ y.provisional = true ∧ y.parent = 0)) ∧
  (∀ (s : State) (r a : Nat) (n : RNode), r < 2 → s.rnode r a = some n → n.provisional = true →
    answers (.provisionalExpiry r a) s fun t =>
      t.rnode r a = none ∧ t.node (3 + r) a = none ∧ ∀ p ∈ (t.port r).ext, p.2.1 ≠ a) ∧
  (∀ (s : State) (r a : Nat) (msg : List Byte) (n : Node), r < 2 → s.warned = false → s.node (3 + r) a = some n →
    answers (.readingMessage r a msg) s fun t => ∃ m, t.node (3 + r) a = some m ∧ m.polled = n.polled + 1 ∧ m.slot = n.slot) ∧
  (∀ (s : State) (r a : Nat) (body : List Byte) (n : Node), r < 2 → s.warned = false → s.node (3 + r) a = some n →
    answers (.segmentMessage r a body) s fun t => ∃ m, t.node (3 + r) a = some m ∧ m.lsrHeld = n.polled) ∧
  (∀ (s : State) (r a : Nat) (body : List Byte) (x : Exchange), r < 2 → (s.cell (3 + r)).exchangeOf a = some x →
    x.job.isSome = true → x.cseq = beAt body 0 4 → 4 ≤ beAt body 4 1 → beAt body 4 1 ≤ 6 →
    answers (.radioAckMessage r a body) s fun t => x.fseq ∉ (t.cell (3 + r)).xch.map fun y => y.fseq) ∧
  (∀ (s : State) (r a k : Nat) (body : List Byte) (n : Node) (x : RNode), r < 2 → s.warned = false →
    s.radByEui r (beAt body 0 8) = some (k, n) → s.rnode r k = some x → x.parent = a → (x.provisional && !x.answered) = false →
    answers (.relayMessage r a body) s fun t => ∃ y, t.rnode r k = some y ∧ y.provisional = false ∧ y.parent = a)

/-- For a radio port r. COVER_PLAN, with no power warning, for a sleepy child of the chip with a waiting item that is due
(deadline or missed requests), fewer than 3 attempts, none planned, none granted before and a free transaction entry e that the
port's issuer may take: the cover is planned for it with the start and length of the Cover procedure. COVER_UNACKED: one more
attempt counts; before the third failure the cover is planned again by the same procedure, which doubles the guard per attempt;
the third ends the attempts. PEND_FORCE_SET and PEND_FORCE_CLEAR of an address 1 to 0x800 add and remove FORCE; each other
address keeps its own; PEND_QUERY shows FORCE and the pending bit of the address and changes nothing else but its registers.
RAD_ERR_CLEAR sets SECFAIL and FILTERED to 0. (R179, R181, R185, R190, R192) -/
def Obligations.CoversAndPendingTable : Prop :=
  (∀ (s : State) (r a q e : Nat) (it : Item) (n : RNode) (m : Sleepy), r < 2 → s.warned = false → s.rnode r a = some n →
    roleQ s.man.roles.radIndirect r = some q → n.sleepy = some m → n.parent = 0 → (s.port r).cover = none → m.tries < 3 →
    s.coverItem q a m = some it → smGet none s.txn.granted (8 + r) = none → s.txnCan (4 + r) = true → s.txnFree = some e →
    answers (.coverPlan r a) s fun t => ∃ c, (t.port r).cover = some c ∧ c.addr = a ∧ c.iseq = it.iseq ∧ c.txn = e ∧
      (c.start, c.len, c.whole) = s.coverOf r m) ∧
  (∀ (s : State) (r : Nat) (c : Cover) (n : RNode) (m : Sleepy), r < 2 → (s.port r).cover = some c → s.rnode r c.addr = some n →
    n.sleepy = some m →
    answers (.coverUnacked r) s fun t =>
      (∃ k, t.rnode r c.addr = some k ∧ k.sleepy = some { m with tries := m.tries + 1 }) ∧
      (t.port r).cover.isNone = decide (2 ≤ m.tries) ∧
      (m.tries < 2 → ∃ d, (t.port r).cover = some d ∧ d.addr = c.addr ∧ d.txn = c.txn ∧
        (d.start, d.len, d.whole) = s.coverOf r { m with tries := m.tries + 1 })) ∧
  (∀ (s : State) (i : Iface) (r a : Nat), r < 2 → 1 ≤ a → a ≤ 0x800 → s.mayAccess i (radPendCtrl r) true = true →
    answers (.pendForceSet i r a) s fun t =>
      (∀ b ∈ List.range 2049, b ∈ (t.port r).force ↔ b = a ∨ b ∈ (s.port r).force) ∧ onlyIn [.regs, .rad] s t ∧
      keepsRegs [radPendCtrl r] s t) ∧
  (∀ (s : State) (i : Iface) (r a : Nat), r < 2 → 1 ≤ a → a ≤ 0x800 → s.mayAccess i (radPendCtrl r) true = true →
    answers (.pendForceClear i r a) s fun t =>
      (∀ b ∈ List.range 2049, b ∈ (t.port r).force ↔ b ≠ a ∧ b ∈ (s.port r).force) ∧ onlyIn [.regs, .rad] s t ∧
      keepsRegs [radPendCtrl r] s t) ∧
  (∀ (s : State) (i : Iface) (r a : Nat), r < 2 → 1 ≤ a → a ≤ 0x800 → s.mayAccess i (radPendCtrl r) true = true →
    answers (.pendQuery i r a) s fun t =>
      t.get (radPendStat_FORCE r) = ofBool (decide (a ∈ (s.port r).force)) ∧
      t.get (radPendStat_PENDING r) = ofBool (s.pendingBit r a) ∧ onlyIn [.regs] s t ∧
      keepsRegs [radPendCtrl r, radPendStat r] s t) ∧
  (∀ (s : State) (i : Iface) (r : Nat), r < 2 → s.mayAccess i (radErr r) true = true →
    answers (.radErrClear i r) s fun t =>
      t.get (radErr_SECFAIL r) = 0 ∧ t.get (radErr_FILTERED r) = 0 ∧ onlyIn [.regs] s t ∧ keepsRegs [radErr r] s t)

/-- For port x in use, no power warning, no armed perturbation. ETH_FRAME_RECEIVED with a good FCS, at most 1,522 bytes, at most
one tag, neither a fragment nor PTP nor Gangway traffic, its firmware queue with room and nobody waiting: an item with the
stamp, the length and the frame's bytes joins the queue's tail; a bad FCS is counted in FCS and nothing else; more than 1,522
bytes in SIZE. ETH_LINK_CHANGE of the link of a port in use: LINK as reported, SPEED by the port's mode, event 160 + x, no other
register but FRY_CNT; of a port not in use nothing. CLASS0_AUTH_DONE of a held item: with a message that passes its check and is
new, and on a Gangway queue of a hub with a chip that knows the cell, is up and has fewer than 64 messages unacknowledged, its
hold is released, the item stays in its place of the lane; where it fails, the item leaves the lane and the sender's tag
failures count. ETH_TRANSMIT_COMPLETE: the port sends nothing any more. ETH_CNT_CLEAR sets FCS and SIZE to 0 and nothing else.
(R28, R201, R202, R207, R212, R401) -/
def Obligations.EthernetPortsTakeFrames : Prop :=
  (∀ (s : State) (x q : Nat) (b : List Byte), x < 2 → s.warned = false → s.flag (ethCfg_EN x) = true →
    s.tst.entries = [] → b.length ≤ 1518 → twoTags b = false → isFragment b = false → ptpHdr b = none → s.gwyPayload b = none →
    roleQ s.man.roles.ethRx x = some q → s.qUsed q = true → (s.q q).waiters = [] →
    (mkItem 0 (s.ethRx x) ((s.ethRx x).bytes ++ be 2 b.length ++ be 2 0 ++ b)).words ≤ s.qFree q →
    answers (.ethFrameReceived x true b) s fun t =>
      (t.q q).items = (s.q q).items ++
        [{ mkItem 0 (s.ethRx x) ((s.ethRx x).bytes ++ be 2 b.length ++ be 2 0 ++ b) with iseq := (s.q q).tail }] ∧
      (t.q q).tail = ((s.q q).tail + 1) % 2 ^ 32 ∧ onlyIn (.whf :: evtParts) s t) ∧
  (∀ (s : State) (x : Nat) (fcsOk : Bool) (b : List Byte), x < 2 → s.warned = false →
    s.flag (ethCfg_EN x) = true → s.tst.entries = [] → fcsOk = false ∨ 1518 < b.length →
    answers (.ethFrameReceived x fcsOk b) s fun t =>
      (fcsOk = false → t.get (ethCnt_FCS x) = satAdd (s.get (ethCnt_FCS x)) 1 (ethCnt_FCS x).top) ∧
      (fcsOk = true → t.get (ethCnt_SIZE x) = satAdd (s.get (ethCnt_SIZE x)) 1 (ethCnt_SIZE x).top) ∧
      onlyIn [.regs] s t ∧ keepsRegs [ethCnt x] s t) ∧
  (∀ (s : State) (x speed : Nat) (up : Bool), x < 2 → s.flag (ethCfg_EN x) = true → s.flag (ethStat_LINK x) ≠ up →
    answers (.ethLinkChange x up speed) s fun t =>
      t.get (ethStat_LINK x) = ofBool up ∧ t.get (ethStat_SPEED x) = s.linkSpeed x speed ∧ onlyIn evtParts s t ∧
      t.fry = (s.raise (160 + x)).fry ∧ t.oar = (s.raise (160 + x)).oar ∧ keepsRegs [ethStat x, fryCnt] s t) ∧
  (∀ (s : State) (x speed : Nat) (up : Bool), s.flag (ethCfg_EN x) = false → exec (.ethLinkChange x up speed) s = .next s) ∧
  (∀ (s : State) (q : Nat) (l : LaneItem) (d : List Byte), ((s.q q).lane.find? fun l => l.hold) = some l →
    d = l.item.bytes.take (44 + beAt l.item.bytes 24 2) → s.gwyCheck d (s.class0Key d) false = none →
    s.class0Room q d = true → (s.gwyArrive (beAt d 6 2) d).1 = true → s.man.medium q ≠ .gwy ∨ (s.peerOfCell (beAt d 28 1)).isSome = true →
    answers (.class0AuthDone q) s fun t =>
      (t.q q).lane.map (fun (y : LaneItem) => y.hold) = (s.q q).lane.map (fun (y : LaneItem) => if y = l then false else y.hold) ∧
      (s.man.medium q ≠ .gwy → (t.q q).lane = (s.q q).lane.map fun (y : LaneItem) =>
        if y = l then { l with hold := false, item := { l.item with data := (mkItem 0 {} d).data } } else y)) ∧
  (∀ (s : State) (q : Nat) (l : LaneItem) (k : Bool), ((s.q q).lane.find? fun l => l.hold) = some l →
    s.gwyCheck (l.item.bytes.take (44 + beAt l.item.bytes 24 2)) (s.class0Key (l.item.bytes.take (44 + beAt l.item.bytes 24 2))) false = some k →
    answers (.class0AuthDone q) s fun t =>
      (t.q q).lane = (s.q q).lane.erase l ∧
      (t.peer (beAt (l.item.bytes.take (44 + beAt l.item.bytes 24 2)) 6 2)).tagFail =
        satAdd (s.peer (beAt (l.item.bytes.take (44 + beAt l.item.bytes 24 2)) 6 2)).tagFail 1 255) ∧
  (∀ (s : State) (x : Nat) (j : EthJob), smGet none s.eth.jobs x = some j →
    answers (.ethTransmitComplete x) s fun t => smGet none t.eth.jobs x = none) ∧
  (∀ (s : State) (i : Iface) (x : Nat), x < 2 → s.mayAccess i (ethCnt x) true = true →
    answers (.ethCntClear i x) s fun t =>
      t.get (ethCnt_FCS x) = 0 ∧ t.get (ethCnt_SIZE x) = 0 ∧ onlyIn [.regs] s t ∧ keepsRegs [ethCnt x] s t)

/-- With Oarsman 6 running PTP and no power warning. PTP_SYNC_RECEIVED on a slave port, a one-step Sync of the domain from the
selected master: PTP_OFFSET shows the offset computed from its stamps, correction and delay, limited to 32 bits; an offset above
STEP_US steps the time-stamp unit by its negative and EPOCH advances, a smaller one leaves PTP time where it was; a two-step
Sync waits for its Follow_Up and changes nothing else. SYNC_TIMEOUT: LOCKED is 0. PTP_ANNOUNCE_RECEIVED in the domain from a
better clock than this one and than the selected master, no other slave port: the port is SLAVE, XING_UTC_OFS takes its offset
when valid, else the Manifest's. PDELAY_REQ_RECEIVED (P2P, launch queue with room): one answer joins the port's queue.
PTP_PORT_INIT: the settings of PTP_CFG are in force and a port that the clock uses is LISTENING (4), another DISABLED (3).
PTP_MESSAGE_INTERVAL of a type that the port sends: the next number. ANNOUNCE_RECEIPT_TIMEOUT of a slave port in use: MASTER (6;
the model's choice, log entry 56), unlocked, no master selected; of one that listens: MASTER. (R58, R62, R204, R205, R206, R209,
R210, R230) -/
def Obligations.PtpServoFollowsItsMaster : Prop :=
  (∀ (s : State) (x : Nat) (b : List Byte) (offset : Int), x < 2 → s.ptpRuns = true → s.ptpState x = 9 → ptpType b 0 = 0 →
    beAt b 4 1 = s.ptpDomain → s.fromMaster b 0 = true → ptpTwoStep b 0 = false →
    offset = s.offsetOf x (syncSpan (ptpTimeAt b 34) (s.ethRx x).ptp (toSigned 64 (beAt b 8 8))) →
    answers (.ptpSyncReceived x b) s fun t =>
      t.reg ptpOffset = BitVec.ofNat 32 (ofSigned 32 (clampInt (-(2 ^ 31)) (2 ^ 31 - 1) offset)) ∧
      (max 1 (s.get ptpServo_STEP_US) * 1000 < offset.natAbs →
        t.clk.ptp = shiftNs s.clk.ptp (-offset) ∧ t.clk.epoch = (s.clk.epoch + 1) % 8) ∧
      (offset.natAbs ≤ max 1 (s.get ptpServo_STEP_US) * 1000 → t.clk = { s.clk with adj := t.clk.adj })) ∧
  (∀ (s : State) (x : Nat) (b : List Byte), x < 2 → s.ptpRuns = true → s.ptpState x = 9 → ptpType b 0 = 0 →
    beAt b 4 1 = s.ptpDomain → s.fromMaster b 0 = true → ptpTwoStep b 0 = true →
    answers (.ptpSyncReceived x b) s fun t =>
      (t.slave x).wait = some (beAt b 30 2, (s.ethRx x).ptp, toSigned 64 (beAt b 8 8)) ∧ onlyIn [.eth] s t) ∧
  (∀ s : State, s.eth.ptpOn = true →
    answers .syncTimeout s fun t => t.get ptpStat_LOCKED = 0 ∧ t.eth = { s.eth with lockRun := 0 }) ∧
  (∀ (s : State) (x : Nat) (b : List Byte), x < 2 → s.ptpRuns = true → s.ptpPort x = true → beAt b 4 1 = s.ptpDomain →
    announceKey b < s.ownKey → s.eth.master = 0 ∨ announceKey b < s.eth.master / 2 ^ 80 → s.ptpState (1 - x) ≠ 9 →
    answers (.ptpAnnounceReceived x b) s fun t =>
      t.ptpState x = 9 ∧ t.eth.master = announceKey b * 2 ^ 80 + beAt b 20 10 ∧
      t.get xingUtcOfs_OFFSET = (if natBit (beAt b 7 1) 2 then beAt b 44 2 else s.manUtc) ∧
      t.get xingUtcOfs_FROM_PTP = ofBool (natBit (beAt b 7 1) 2)) ∧
  (∀ (s : State) (x q : Nat) (m : List Byte), x < 2 → s.eth.ptpOn = true → s.ptpP2p = true → s.warned = false →
    beAt m 4 1 = s.ptpDomain → s.tst.entries = [] → roleQ s.man.roles.ethLaunch x = some q → s.qUsed q = true →
    (s.q q).waiters = [] → 100 ≤ s.qFree q →
    answers (.pdelayReqReceived x m) s fun t =>
      (t.q q).items.length = (s.q q).items.length + 1 ∧ (t.q q).tail = ((s.q q).tail + 1) % 2 ^ 32) ∧
  (∀ s : State, s.eth.ptpOn = true →
    answers .ptpPortInit s fun t =>
      t.eth.cfg = s.reg ptpCfg ∧ t.eth.master = 0 ∧
      ∀ x ∈ List.range 2, t.ptpState x = if t.ptpPort x then 4 else 3) ∧
  (∀ (s : State) (x typ : Nat), x < 2 → typ < 16 → s.eth.ptpOn = true → s.ptpPort x = true → s.ptpSends x typ = true →
    answers (.ptpMessageInterval x typ) s fun t =>
      smGet 0 t.eth.seqs (x * 16 + typ) = (smGet 0 s.eth.seqs (x * 16 + typ) + 1) % 65536) ∧
  (∀ (s : State) (x : Nat), x < 2 → s.eth.ptpOn = true → s.ptpPort x = true → s.ptpState x = 9 →
    answers (.announceReceiptTimeout x) s fun t => t.ptpState x = 6 ∧ t.get ptpStat_LOCKED = 0 ∧ t.eth.master = 0) ∧
  (∀ (s : State) (x : Nat), x < 2 → s.eth.ptpOn = true → s.ptpPort x = true → s.ptpState x = 4 →
    answers (.announceReceiptTimeout x) s fun t => t.ptpState x = 6 ∧ t.eth = s.eth)

/-- ATTACH_RECEIVED at a hub from an enrolled chip, valid under its key, with its fingerprint and enough cell numbers: the peer
is up with its EUI-64, domain, key generation and the cell numbers that it held, then the lowest free ones (the model's choice
where their number differs, log entry 121). ATTACH_ANSWER_RECEIVED, valid, while one is awaited: status 0 ends the wait and
gives the chip its number, another status makes it wait to retry. ATTACH_RESEND and ATTACH_RETRY start the attachment again
under the newest generation, and their ATTACH joins a launch queue with room; ATTACH_GIVE_UP ends as a refusal: it waits to
retry. PEER_DOWN of a peer that is up and was last heard 30 s ago or more: it is down and its messages stay. With no power
warning and a key for the peer, KEEPALIVE_SEND to a peer that is up: the next unreliable number is used and nothing else of the
peer changes; ACK_DELAY_EXPIRY where an acknowledgement is due: the same, and nothing is due. Without a warning
RETRANSMIT_TIMER_EXPIRY of a message not yet acknowledged toward a peer that is up: its timer doubles, at most 6.4 s, and
RETRANS counts. (R216, R217, R218, R223, R224) -/
def Obligations.GangwayChipsAttach : Prop :=
  (∀ (s : State) (b k : List Byte) (c : ChipEnrol), s.isHub = true → s.warned = false →
    s.chipEnrol (beAt (gwyBody b) 0 8) = some c → c.eui = beAt (gwyBody b) 0 8 → s.familyKey c.linkKey (beAt b 3 1) 0 = some k →
    s.gwyCheck b (some k) true = none → beAt (gwyBody b) 8 8 = c.fingerprint →
    beAt (gwyBody b) 16 1 ≤ (s.attachCells c.eui (beAt (gwyBody b) 16 1)).length →
    answers (.attachReceived b) s fun t =>
      (t.peer (s.chipFor c.eui)).up = true ∧ (t.peer (s.chipFor c.eui)).eui = c.eui ∧
      (t.peer (s.chipFor c.eui)).domain = c.domain ∧ (t.peer (s.chipFor c.eui)).keygen = beAt b 3 1 ∧
      (t.peer (s.chipFor c.eui)).cells = s.attachCells c.eui (beAt (gwyBody b) 16 1)) ∧
  (∀ (s : State) (b : List Byte), s.warned = false → s.gwy.attach = 1 →
    s.gwyCheck b (s.familyKey s.man.linkKey (beAt b 3 1) 0) false = none →
    answers (.attachAnswerReceived b) s fun t =>
      (beAt (gwyBody b) 0 1 = 0 → t.gwy.attach = 0 ∧ t.gwy.chip = beAt (gwyBody b) 2 2 ∧ (t.peer 0).up = true) ∧
      (beAt (gwyBody b) 0 1 ≠ 0 → t.gwy.attach = 2 ∧ t.gwy.chip = s.gwy.chip)) ∧
  (∀ s : State, s.gwy.attach = 1 →
    answers .attachResend s fun t => t.gwy.attach = 1 ∧ t.gwy.chip = 0xFFFE ∧ (t.peer 0).keygen = s.newestGen s.man.linkKey) ∧
  (∀ s : State, s.gwy.attach = 1 → answers .attachGiveUp s fun t => t.gwy = { s.gwy with attach := 2 }) ∧
  (∀ s : State, s.gwy.attach = 2 →
    answers .attachRetry s fun t => t.gwy.attach = 1 ∧ t.gwy.chip = 0xFFFE ∧ (t.peer 0).keygen = s.newestGen s.man.linkKey) ∧
  (∀ (s : State) (p : Nat), (s.peer p).up = true → (s.peer p).heard + 30 * nsPerSec ≤ s.clk.mono →
    answers (.peerDown p) s fun t => (t.peer p).up = false ∧ (t.peer p).eui = (s.peer p).eui ∧ (t.peer p).out = (s.peer p).out) ∧
  (∀ (s : State) (p : Nat), (s.peer p).up = true → s.warned = false → s.gwyKeyed p = true →
    answers (.keepaliveSend p) s fun t =>
      t.peer p = { s.peer p with unrelNext := ((s.peer p).unrelNext + 1) % 2 ^ 32 }) ∧
  (∀ (s : State) (p : Nat), (s.peer p).ackDue = true → s.warned = false → s.gwyKeyed p = true →
    answers (.ackDelayExpiry p) s fun t =>
      t.peer p = { s.peer p with unrelNext := ((s.peer p).unrelNext + 1) % 2 ^ 32, ackDue := false }) ∧
  (∀ (s : State) (p seq : Nat) (m : OutMsg), ((s.peer p).out.find? fun m => m.seq == seq && !m.mapped) = some m → s.warned = false →
    (s.peer p).up = true →
    answers (.retransmitTimerExpiry p seq) s fun t =>
      { m with timer := min 6400 (2 * m.timer) } ∈ (t.peer p).out ∧
      (t.peer p).retrans = satAdd (s.peer p).retrans 1 65535) ∧
  (∀ (s : State) (q : Nat), s.gwy.attach = 1 → s.gwyQueue = some q → s.qUsed q = true → s.tst.entries = [] → (s.q q).waiters = [] →
    32 ≤ s.qFree q → answers .attachResend s fun t => (t.q q).tail = ((s.q q).tail + 1) % 2 ^ 32) ∧
  (∀ (s : State) (q : Nat), s.gwy.attach = 2 → s.gwyQueue = some q → s.qUsed q = true → s.tst.entries = [] → (s.q q).waiters = [] →
    32 ≤ s.qFree q → answers .attachRetry s fun t => (t.q q).tail = ((s.q q).tail + 1) % 2 ^ 32)

/-- Where a message b is valid and to be processed (State.gwyTake gives some (true, u)): KEEPALIVE_RECEIVED from the hub takes
the hub's registered count. ANCHOR_RECEIVED, newer than the last, within 1 ms before to 100 ms after its launch, anchors
enabled, the chip's domain, no armed fault: it is the anchor, fresh, of age 0. SNAPSHOT_RECEIVED of the domain for a new
boundary, 96 crossings ahead or more: it fixes the snapshot crossing. GANGWAY_ACK_RECEIVED, nothing waiting to go out: no
message up to ACK is kept. COMMAND_MESSAGE_RECEIVED for a joined endpoint: the command waits in its cell. REGISTER_MESSAGE_HUB
of a registered EUI-64: its context takes the new cell. REGISTER_ANSWER_CELL with code 0 gives the context the table index and
makes it registered. BATCH_RECEIVED, valid and new, not completing a batch nor one that has failed, with no part kept: the part
is kept. (R160, R218, R219, R221, R224, R259, R275, R276) -/
def Obligations.GangwayMessagesAreTaken : Prop :=
  (∀ (s u : State) (b : List Byte), s.gwyTake b = some (true, u) → beAt b 6 2 = 0 →
    answers (.keepaliveReceived b) s fun t => t.gwy.hubJoined = beAt (gwyBody b) 6 4 ∧ onlyIn [.gwy] u t) ∧
  (∀ (s u : State) (x : Nat) (b : List Byte), s.gwyTake b = some (true, u) → (u.gwy.lastAnchor.all fun l => decide (l < beAt (gwyBody b) 0 6)) = true →
    beAt (gwyBody b) 22 6 * nsPerSec + beAt (gwyBody b) 28 4 ≤ (u.ethRx x).ptp + 1000000 →
    (u.ethRx x).ptp ≤ beAt (gwyBody b) 22 6 * nsPerSec + beAt (gwyBody b) 28 4 + 100000000 → u.clockFault 2 = false →
    u.flag xingConfig_ANCHOR_EN = true → beAt (gwyBody b) 20 1 = u.get xingConfig_GRID_DOMAIN →
    answers (.anchorReceived x b) s fun t =>
      t.gwy.lastAnchor = some (beAt (gwyBody b) 0 6) ∧ t.xing.anchorFresh = true ∧ t.xing.anchorAge = 0 ∧
      t.xing.anchor = some { crossing := beAt (gwyBody b) 0 6, ptp := beAt (gwyBody b) 6 6 * nsPerSec + beAt (gwyBody b) 12 4,
                             freq := beAt (gwyBody b) 16 4, dom := beAt (gwyBody b) 20 1 }) ∧
  (∀ (s u : State) (b : List Byte), s.gwyTake b = some (true, u) → u.flag xingConfig_ANCHOR_EN = true →
    beAt (gwyBody b) 12 1 = u.get xingConfig_GRID_DOMAIN → u.plc.snapB ≠ beAt (gwyBody b) 0 6 →
    u.xing.num + 96 ≤ beAt (gwyBody b) 6 6 →
    answers (.snapshotReceived b) s fun t =>
      t.plc.snapN = beAt (gwyBody b) 6 6 ∧ t.plc.snapB = beAt (gwyBody b) 0 6 ∧ t.plc.snapLocal = false) ∧
  (∀ (s u : State) (b : List Byte) (pr : Bool), s.gwyTake b = some (pr, u) → (s.peer (beAt b 6 2)).waiting = [] →
    answers (.gangwayAckReceived b) s fun t =>
      ∀ m ∈ (t.peer (beAt b 6 2)).out, serialAbove m.seq (beAt b 12 4) = true ∧ m.seq ∈ (s.peer (beAt b 6 2)).out.map fun m => m.seq) ∧
  (∀ (s u : State) (b : List Byte) (c ad : Nat), s.gwyTake b = some (true, u) → u.joinedAt (beAt (gwyBody b) 0 8) = some (c, ad) →
    answers (.commandMessageReceived b) s fun t =>
      (t.cell c).cmds = (u.cell c).cmds ++
        [{ addr := ad, typ := beAt (gwyBody b) 8 1, payload := slice (gwyBody b) 10 (beAt (gwyBody b) 9 1) }]) ∧
  (∀ (s u : State) (b : List Byte) (k : Nat), s.gwyTake b = some (true, u) → u.isHub = true →
    euiOk (beAt (gwyBody b) 0 8) = true → u.liveSlot (beAt (gwyBody b) 0 8) = some k →
    answers (.registerMessageHub b) s fun t => t.ctxAt k 14 1 = beAt (gwyBody b) 8 1) ∧
  (∀ (s u : State) (b : List Byte) (k : Nat), s.gwyTake b = some (true, u) → u.liveSlot (beAt (gwyBody b) 0 8) = some k →
    beAt (gwyBody b) 9 1 = 0 →
    answers (.registerAnswerCell b) s fun t => t.ctxAt k 8 4 = beAt (gwyBody b) 10 4 % 2 ^ 20 ∧ t.ctxAt k 12 1 = 1) ∧
  (∀ (s u : State) (b : List Byte), s.gwyTake b = some (true, u) → s.isHub = true → (s.peer (beAt b 6 2)).judge (beAt b 8 4) = 0 →
    (s.peer (beAt b 6 2)).parts = [] → (s.peer (beAt b 6 2)).badSeq ≠ some (beAt b 8 4) → beAt (gwyBody b) 0 4 ≠ 0 →
    answers (.batchReceived b) s fun t =>
      (t.peer (beAt b 6 2)).parts = [(beAt b 8 4, beAt (gwyBody b) 0 4, beAt (gwyBody b) 4 4, (gwyBody b).drop 8)])

/-- The state after the context fetch of a record that enters place 0, and whether the fetch failed. -/
def recFetched (s : State) (v : VRec) (i : Nat) : Bool × State :=
  (s.takePlace 0 { v with slot := some i, ord := s.val.arrivals }).fetchFor v i .clean

/-- VALIDATION_RECORD with the table ready, a clean fetch, nothing else held and no earlier record in another queue: the record
leaves the queue. Where its format or sender check gives verdict k ≠ 0, k is counted and its place is free; where that check
gives endpoint i, its context is fetched whole and the tag is right, and the sequence, the plausibility and the dedup window
pass it, it holds place 0 with its endpoint. RECORD_FLOW_RESUME of a record that waits for its flow, no table operation and no
older record waiting for it, no poison, the flow free: a repeat counts 0x01 and its place and flow are free; a record that
passes goes on, holds its place and, fewer than 63 entries being in the group or waiting for one, its flow. GROUP_WAIT_EXPIRY,
no power warning, the wait over: the group in force is sealed, no record waits in it. REASSEMBLY_TIMEOUT: the reassembly of that
sender is gone. BATCH_MAXAGE_EXPIRY: a batch with an entry closes. BATCH_SIGNED with a closed batch whose groups are durable, an
identity and an index that may sign: it takes the next BSEQ and waits signed. DEDUP_QUERY shows the selected endpoint's window;
VAL_VCNT_CLEAR sets every verdict counter to 0; VAL_BATCH_CFG_WRITE with a limit that the open batch already meets closes it.
(R238, R241, R242, R243, R248, R249, R251, R256, R257, R258, R264) -/
def Obligations.RecordsAndBatchesAreJudged : Prop :=
  (∀ (s u : State) (q k : Nat) (it : Item) (o : Option Nat), s.val.recs = [] → s.val.reasm = [] → s.val.entries = [] →
    s.get pwrStat_PHASE = 4 → s.mergeQueue q = q → s.deliver q = some (it, u) → u.pathOfQueue q = none → u.stageParse (otherRecord it) = (k, o) → k < 0x13 ∨ k = 0x60 →
    answers (.validationRecord q .clean) s fun t =>
      (k ≠ 0 → smGet 0 t.val.vcnt k = (smGet 0 s.val.vcnt k + 1) % 2 ^ 32 ∧ (∀ n ∈ List.range 512, t.vrec n = none) ∧
        (t.q q).head = (u.q q).head) ∧
      (k = 0 → o.all (fun i => (recFetched u (otherRecord it) i).1 || (recFetched u (otherRecord it) i).2.stageAuth (otherRecord it) i != 0 ||
        (recFetched u (otherRecord it) i).2.stageMid (otherRecord it) i != 0 || (t.vrec 0).any fun v => v.slot == some i) = true)) ∧
  (∀ (s : State) (n k : Nat) (v : VRec), s.ept.waitOp = none → s.vrec n = some v → v.stage = 1 → v.slot = some k →
    s.flow (s.epFlow k) = .nobody → s.olderWaits n (s.epFlow k) v = false → s.stageMid v k = 0x01 →
    answers (.recordFlowResume ⟨n, false⟩) s fun t =>
      t.vrec n = none ∧ smGet 0 t.val.vcnt 1 = (smGet 0 s.val.vcnt 1 + 1) % 2 ^ 32 ∧ t.flow (s.epFlow k) = .nobody) ∧
  (∀ (s : State) (n k : Nat) (v : VRec), s.ept.waitOp = none → s.vrec n = some v → v.stage = 1 → v.slot = some k →
    s.flow (s.epFlow k) = .nobody → s.olderWaits n (s.epFlow k) v = false → s.stageMid v k = 0 →
    s.val.staged + s.val.held.length < 63 →
    answers (.recordFlowResume ⟨n, false⟩) s fun t =>
      ((t.vrec n).any fun w => w.slot == some k && w.stage != 1) = true ∧ t.flow (s.epFlow k) = .record n) ∧
  (∀ (s : State) (g : Nat), s.val.group = some g → s.warned = false →
    s.val.groupAt + 1000 * s.val.groupWait ≤ s.clk.mono →
    answers .groupWaitExpiry s fun t => t.val.group = none ∧ t.val.members = [] ∧ t.val.pend = []) ∧
  (∀ (s : State) (c a : Nat) (x : Reasm), s.reasmOf c a = some x →
    answers (.reassemblyTimeout c a) s fun t => t.reasmOf c a = none) ∧
  (∀ s : State, s.val.batch.count ≠ 0 →
    answers .batchMaxageExpiry s fun t => t.val.batch = {} ∧
      ∃ b ∈ t.val.closed, b.count = s.val.batch.count ∧ b.entries = s.val.batch.entries ∧ b.closeNs = s.clk.ptp) ∧
  (∀ (s : State) (b : Batch) (rest : List Batch) (j : Nat) (r : List Nat) (more : SMap (List Nat)), s.val.closed = b :: rest →
    smGet [] s.live.tables tabClosed = (j, r) :: more → s.warned = false → s.idReady = true → s.noIndex = false →
    s.maySign s.keys.next = true → j ≤ s.cmt.durJseq →
    answers .batchSigned s fun t => t.val.closed = rest ∧ t.val.bseq = s.val.bseq + 1 ∧
      t.val.signed.map (fun b => b.bseq) = s.val.signed.map (fun b => b.bseq) ++ [s.val.bseq + 1] ∧ s.keys.next < t.keys.next) ∧
  (∀ (s : State) (i : Iface) (v : Word) (k : Nat), s.mayAccess i valDedupSel true = true →
    s.named (wordBits v valDedupSel_INDEX) = some k →
    answers (.dedupQuery i v) s fun t =>
      t.reg valDedupTop = BitVec.ofNat 32 (s.window k (wordBits v valDedupSel_SESSION != 0)).1 ∧
      t.reg valDedupWhi = BitVec.ofNat 32 ((s.window k (wordBits v valDedupSel_SESSION != 0)).2 / 2 ^ 32) ∧
      t.reg valDedupWlo = BitVec.ofNat 32 (s.window k (wordBits v valDedupSel_SESSION != 0)).2 ∧ onlyIn [.regs] s t) ∧
  (∀ (s : State) (i : Iface) (v : Word), s.mayAccess i valVcntSel true = true →
    answers (.valVcntClear i v) s fun t => t.val = { s.val with vcnt := [] } ∧ onlyIn [.regs, .val] s t) ∧
  (∀ (s : State) (i : Iface) (v : Word), s.mayAccess i valBatchCfg true = true → s.val.batch.count ≠ 0 →
    wordBits v valBatchCfg_MAX_ENTRIES ≠ 0 → wordBits v valBatchCfg_MAX_ENTRIES ≤ 4096 →
    wordBits v valBatchCfg_MAX_ENTRIES ≤ s.val.batch.count →
    answers (.valBatchCfgWrite i v) s fun t => t.val.batch = {} ∧ t.get valBatchCfg_MAX_ENTRIES = wordBits v valBatchCfg_MAX_ENTRIES)

/-- With the map's grant, BUSY 0 and the flow of the endpoint free. ENROL of a valid staged record whose EUI-64 is not enrolled,
a group within the calendar, room and a wrapping slot, not the chip's own EUI-64: the record is stored with its key wrapped,
RESULT 0. BAR and UNBAR set and clear FLAGS bit 0 of the context. REMOVE of a registered endpoint: STATE 0x03, RESULT 0.
RE_ENROL with the endpoint's EUI-64, an identity (R11), staged, a group within the calendar and a wrapping slot: the record is
replaced. REWRAP with a wrapping target slot: BUSY is 1 until REWRAP_COMPLETE, which makes that slot EPT_KEK.SLOT with RESULT 0.
CONTEXT_READ shows bytes 0 to 127 of the slot, the wrapped key as 0, nothing else changing. DELETE_ENROLMENT of a free or
quarantined slot whose EUI-64 is enrolled: it is enrolled no longer. QUARANTINE_EXPIRY of a quarantined slot: once its retention
is over it is free, before it nothing changes. TABLE_REBUILD_DONE after the journal's replay, in phase 3, no power warning:
phase 4; the chip's own EUI-64 not being enrolled, no context changes. (R272, R273, R278) -/
def Obligations.TableOperationsChangeTheTable : Prop :=
  (∀ (s : State) (i : Iface) (kek : List Byte), s.mayAccess i eptCmd true = true → s.flag eptCmdStat_BUSY = false →
    euiOk (beAt s.staged 0 8) = true → beAt s.staged 50 1 < s.get trfCfg_GROUPS → s.enrolment (beAt s.staged 0 8) = none →
    (smGet [] s.live.tables tabEnrol).length < s.storeSize → s.keyFor (s.get eptKek_SLOT) 1 = some kek →
    beAt s.staged 0 8 ≠ s.fuses.eui →
    answers (.enrol i) s fun t =>
      t.enrolment (beAt s.staged 0 8) = some (wrapRecord s.staged kek (s.get eptKek_SLOT)) ∧ t.get eptCmdStat_RESULT = 0) ∧
  (∀ (s : State) (i : Iface) (n k : Nat), s.mayAccess i eptCmd true = true → s.flag eptCmdStat_BUSY = false → n < 2 ^ 20 →
    s.named n = some k → s.epState k ≠ 1 ∨ s.flow (s.epFlow k) = .nobody →
    answers (.bar i n) s fun t => t.epFlags k = s.epFlags k / 2 * 2 + 1 ∧ t.get eptCmdStat_RESULT = 0) ∧
  (∀ (s : State) (i : Iface) (n k : Nat), s.mayAccess i eptCmd true = true → s.flag eptCmdStat_BUSY = false → n < 2 ^ 20 →
    s.named n = some k → s.epState k ≠ 1 ∨ s.flow (s.epFlow k) = .nobody →
    answers (.unbar i n) s fun t => t.epFlags k = s.epFlags k / 2 * 2 ∧ t.get eptCmdStat_RESULT = 0) ∧
  (∀ (s : State) (i : Iface) (n k : Nat), s.mayAccess i eptCmd true = true → s.flag eptCmdStat_BUSY = false → n < 2 ^ 20 →
    s.named n = some k → s.epState k = 1 → s.flow (s.epFlow k) = .nobody →
    answers (.remove i n) s fun t => t.epState k = 3 ∧ t.epEui k = s.epEui k ∧ t.get eptCmdStat_RESULT = 0) ∧
  (∀ (s : State) (i : Iface) (n k : Nat) (kek : List Byte), s.mayAccess i eptCmd true = true → s.flag eptCmdStat_BUSY = false →
    n < 2 ^ 20 → s.named n = some k → s.epState k ≠ 1 ∨ s.flow (s.epFlow k) = .nobody → beAt s.staged 0 8 = s.epEui k → euiOk (s.epEui k) = true →
    beAt s.staged 50 1 < s.get trfCfg_GROUPS → s.keyFor (s.get eptKek_SLOT) 1 = some kek →
    answers (.reEnrol i n) s fun t =>
      t.enrolment (s.epEui k) = some (wrapRecord s.staged kek (s.get eptKek_SLOT)) ∧ t.get eptCmdStat_RESULT = 0) ∧
  (∀ (s : State) (i : Iface) (kek : List Byte), s.mayAccess i eptCmd true = true → s.flag eptCmdStat_BUSY = false →
    s.keyFor (s.get eptKek_NEW_SLOT) 1 = some kek →
    answers (.rewrap i) s fun t => t.get eptCmdStat_BUSY = 1 ∧ t.ept.rewrap = some [s.get eptKek_NEW_SLOT]) ∧
  (∀ (s : State) (n : Nat), s.ept.rewrap = some [n] → n ≤ eptKek_SLOT.top →
    answers .rewrapComplete s fun t =>
      t.get eptKek_SLOT = n ∧ t.get eptCmdStat_BUSY = 0 ∧ t.get eptCmdStat_RESULT = 0 ∧ t.ept.rewrap = none) ∧
  (∀ (s : State) (i : Iface) (n : Nat), s.mayAccess i eptCmd true = true → s.flag eptCmdStat_BUSY = false → n < 2 ^ 20 →
    s.slotOk n = true → s.tagHeld n = false →
    answers (.contextRead i n) s fun t =>
      t.staged = patch (s.ctxBytes n 0 128) 24 (List.replicate 40 0) ∧ t.get eptCmdStat_RESULT = 0 ∧ onlyIn [.regs, .ept] s t) ∧
  (∀ (s : State) (i : Iface) (n : Nat) (r : List Byte), s.mayAccess i eptCmd true = true → s.flag eptCmdStat_BUSY = false →
    n < 2 ^ 20 → s.named n = none → s.slotOk n = true → s.epState n = 0 → s.enrolment (s.epEui n) = some r →
    answers (.deleteEnrolment i n) s fun t => t.enrolment (s.epEui n) = none ∧ t.get eptCmdStat_RESULT = 0) ∧
  (∀ (s : State) (i : Iface) (n k : Nat) (r : List Byte), s.mayAccess i eptCmd true = true → s.flag eptCmdStat_BUSY = false →
    n < 2 ^ 20 → s.named n = some k → s.slotOk k = true → s.epState k = 3 → s.enrolment (s.epEui k) = some r →
    answers (.deleteEnrolment i n) s fun t => t.enrolment (s.epEui k) = none ∧ t.get eptCmdStat_RESULT = 0) ∧
  (∀ (s : State) (k : Nat), s.epState k = 3 → s.retainOver k = true →
    answers (.quarantineExpiry k) s fun t => t.epState k = 0 ∧ t.epEui k = s.epEui k) ∧
  (∀ (s : State) (k : Nat), s.retainOver k = false → exec (.quarantineExpiry k) s = .next s) ∧
  (∀ s : State, s.pwr.replayed = true → s.get pwrStat_PHASE = 3 → s.warned = false →
    answers .tableRebuildDone s fun t => t.get pwrStat_PHASE = 4 ∧ (s.enrolment s.fuses.eui = none → t.live.ctx = s.live.ctx))

/-- BALANCE_RECORD, the engine enabled, a sound record of an endpoint for a snapshot whose quarter is new and not late
(State.balLate): its slot of that quarter holds the net register (imported minus exported, 32 bits) as a real reading.
BALANCE_EVALUATION of a known snapshot not taken before, its deadline reached, enabled, no power warning, no evaluation under
way or waiting: its evaluation waits for credit for a result, or it has ended and BAL_LAST_Q holds its quarter; while one is
under way, or under a power warning, it waits behind those that wait. BAL_NODE_QUERY shows the node's (its RFLAGS being a byte)
quadratic settings, threshold, reference, alarms and residual, BAL_EP_QUERY the endpoint's override, slope, correlation,
samples, bypass measure and alarms. BAL_EP_NODE_WRITE: an override 0 to 0xFFF, or 0xFFFF for none, is taken for the selected
endpoint; 0x1000 to 0xFFFE are ignored. (R283, R285, R287, R288, R289, R294) -/
def Obligations.BalanceTakesRecordsAndAnswers : Prop :=
  (∀ (s u : State) (q n bt : Nat) (it : Item), s.man.roles.balanceIn = q + 1 → s.deliver q = some (it, u) →
    u.flag balCfg_EN = true → it.poisoned = false → beAt (it.bytes.drop 32) 0 1 = 0x12 → beAt it.bytes 8 1 = 0 ∨ beAt it.bytes 8 1 = 3 →
    snapFor u.plc.snaps (beAt (it.bytes.drop 32) 14 6) = some (n, bt) → (u.brec (beAt it.bytes 0 4)).qNew < bt / 900 →
    u.balLate (bt / 900) it.order = false →
    answers .balanceRecord s fun t =>
      (t.brec (beAt it.bytes 0 4)).qNew = bt / 900 ∧ (t.brec (beAt it.bytes 0 4)).slotState (bt / 900 % 96) = 1 ∧
      smGet 0 (t.brec (beAt it.bytes 0 4)).reg (bt / 900 % 96) =
        (beAt (it.bytes.drop 32) 20 6 + 2 ^ 48 - beAt (it.bytes.drop 32) 26 6) % 2 ^ 32) ∧
  (∀ (s : State) (n : Nat) (p : Nat × Nat), s.flag balCfg_EN = true → s.warned = false → s.bal.run = none → s.bal.due = [] →
    s.evalCross n ≤ s.xing.num → s.evalTaken n = false →
    (s.plc.snaps.find? fun p => p.1 == n) = some p →
    answers (.balanceEvaluation n) s fun t =>
      (t.bal.run = none → t.reg balLastQ = BitVec.ofNat 32 (p.2 / 900)) ∧ t.bal.run.all (fun x => x.cross == n) = true) ∧
  (∀ (s : State) (n : Nat), s.flag balCfg_EN = true → s.bal.run.isSome = true ∨ s.warned = true →
    s.evalCross n ≤ s.xing.num → s.evalTaken n = false →
    answers (.balanceEvaluation n) s fun t =>
      t.bal = { s.bal with due := s.bal.due ++ [(n, s.crossStamp (s.evalCross n))] } ∧ onlyIn (.bal :: evtParts) s t) ∧
  (∀ (s : State) (i : Iface) (v : Word), s.mayAccess i balNodeSel true = true → (s.bnode (wordBits v balNodeSel_NODE)).rflags < 256 →
    answers (.balNodeQuery i v) s fun t =>
      t.reg balNodeResLo = BitVec.ofNat 32 (ofSigned 64 (s.bnode (wordBits v balNodeSel_NODE)).residual) ∧
      t.reg balNodeResHi = BitVec.ofNat 32 (ofSigned 64 (s.bnode (wordBits v balNodeSel_NODE)).residual / 2 ^ 32) ∧
      t.reg balNodeRef = BitVec.ofNat 32 ((s.man.node (wordBits v balNodeSel_NODE)).getD {}).refIndex ∧
      t.get balNodeCfg_K1 = ((s.man.node (wordBits v balNodeSel_NODE)).getD {}).k1 % 2 ^ 12 ∧
      t.get balNodeLoss_K2 = ((s.man.node (wordBits v balNodeSel_NODE)).getD {}).k2 % 2 ^ 16 ∧
      t.get balNodeThr_ABS_WH = ((s.man.node (wordBits v balNodeSel_NODE)).getD {}).absWh % 2 ^ 16 ∧
      t.get balNodeStat_ALARMS = (s.bnode (wordBits v balNodeSel_NODE)).alarms % 256 ∧
      t.bal = s.bal ∧ onlyIn [.regs] s t) ∧
  (∀ (s : State) (i : Iface) (v : Word) (k : Nat), s.mayAccess i balEpSel true = true →
    s.slotOfIndex (wordBits v balEpSel_INDEX) = some k →
    answers (.balEpQuery i v) s fun t =>
      t.reg balEpNode = BitVec.ofNat 32 (s.brec k).ovr ∧
      t.reg balEpSlope = BitVec.ofNat 32 (ofSigned 32 (s.brec k).slope) ∧
      t.reg balEpCorr = BitVec.ofNat 32 ((s.brec k).corr * 2 ^ 16 + (s.brec k).samples * 2 ^ 8) ∧
      t.get balEpStat_BYPASS_PM = min 1023 (s.brec k).bypPm ∧ t.get balEpStat_PH_ALARM = ofBool (s.brec k).phAlarm ∧
      t.get balEpStat_BYP_ALARM = ofBool (s.brec k).bypAlarm ∧ t.get balEpStat_BASIS = ofBool (s.brec k).meanValid ∧ t.bal = s.bal ∧ onlyIn [.regs] s t) ∧
  (∀ (s : State) (i : Iface) (v : Word) (k : Nat), s.mayAccess i balEpNode true = true → s.balSel = some k →
    answers (.balEpNodeWrite i v) s fun t =>
      (t.brec k).ovr = (if 0x1000 ≤ wordBits v balEpNode_NODE_OVR ∧ wordBits v balEpNode_NODE_OVR < 0xFFFF then (s.brec k).ovr
        else wordBits v balEpNode_NODE_OVR) ∧ onlyIn [.regs, .bal] s t ∧ keepsRegs [balEpNode] s t)

/-- For a request b at the head of the sealed tariff queue that passes the checks of its form, key, tag and sequence, with its
own OP, a group g in use, not fixed for activation, the Hold mounted: TARIFF_OPEN begins a passive image of zeros and takes a
pending one away; TARIFF_WRITE within the image replaces its bytes; TARIFF_CLOSE with the right hash of a valid image makes it
the pending calendar with its activation instant; TARIFF_ACTIVATE changes that instant; TARIFF_CANCEL drops an image being
built. The first three mark the sequence. ACCOUNT_SET, no group of the account open, a group and a place to be had and fewer
than 256 records not yet durable (R93), no power warning: the account holds the request's identity, thresholds and prices, an
unused one becomes active with BALANCE 0; ACCOUNT_CLOSE under the same conditions: it is unused. CLEAR_LOCKOUT: no lockout,
FAILS 0. (R307, R308, R309, R311, R372, R374) -/
def Obligations.TariffRequestsChangeCalendars : Prop :=
  (∀ (s u : State) (q g : Nat) (it : Item), s.man.roles.tariffIn = q + 1 → s.deliver q = some (it, u) → it.poisoned = false →
    beAt it.bytes 4 1 = 1 → s.reqGate it.bytes = 0 → g = beAt it.bytes 5 1 → g < s.get trfCfg_GROUPS → g ∉ s.trf.fixedAct →
    s.flag hldStat_MOUNTED = true →
    answers .tariffOpen s fun t =>
      t.calBuilding g = some (List.replicate calBytes 0) ∧ t.calPending g = none ∧
      t.rseq = rseqMark (beAt it.bytes 8 4) s.rseq.1 s.rseq.2) ∧
  (∀ (s u : State) (q g : Nat) (it : Item) (c : List Byte), s.man.roles.tariffIn = q + 1 → s.deliver q = some (it, u) →
    it.poisoned = false → beAt it.bytes 4 1 = 2 → s.reqGate it.bytes = 0 → g = beAt it.bytes 5 1 → g < s.get trfCfg_GROUPS →
    s.calBuilding g = some c → s.flag hldStat_MOUNTED = true → beAt it.bytes 16 2 + (slice it.bytes 20 (beAt it.bytes 12 2 - 4)).length ≤ calBytes →
    answers .tariffWrite s fun t =>
      t.calBuilding g = some (patch c (beAt it.bytes 16 2) (slice it.bytes 20 (beAt it.bytes 12 2 - 4))) ∧
      t.rseq = rseqMark (beAt it.bytes 8 4) s.rseq.1 s.rseq.2) ∧
  (∀ (s u : State) (q g : Nat) (it : Item) (c : List Byte), s.man.roles.tariffIn = q + 1 → s.deliver q = some (it, u) →
    it.poisoned = false → beAt it.bytes 4 1 = 3 → s.reqGate it.bytes = 0 → g = beAt it.bytes 5 1 → g < s.get trfCfg_GROUPS →
    s.calBuilding g = some c → s.flag hldStat_MOUNTED = true → calHash c = slice it.bytes 16 32 → calCheck c g = 0 →
    answers .tariffClose s fun t =>
      t.calPending g = some (beAt it.bytes 48 6, c) ∧ t.calBuilding g = none ∧
      t.rseq = rseqMark (beAt it.bytes 8 4) s.rseq.1 s.rseq.2) ∧
  (∀ (s u : State) (q g : Nat) (it : Item) (p : Nat × List Byte), s.man.roles.tariffIn = q + 1 → s.deliver q = some (it, u) →
    it.poisoned = false → beAt it.bytes 4 1 = 4 → s.reqGate it.bytes = 0 → g = beAt it.bytes 5 1 → g < s.get trfCfg_GROUPS →
    s.calPending g = some p → s.flag hldStat_MOUNTED = true →
    answers .tariffActivate s fun t =>
      t.calPending g = some (beAt it.bytes 16 6, p.2) ∧ t.calActive g = s.calActive g) ∧
  (∀ (s u : State) (q g : Nat) (it : Item) (c : List Byte), s.man.roles.tariffIn = q + 1 → s.deliver q = some (it, u) →
    it.poisoned = false → beAt it.bytes 4 1 = 5 → s.reqGate it.bytes = 0 → g = beAt it.bytes 5 1 → g < s.get trfCfg_GROUPS →
    s.calBuilding g = some c →
    answers .tariffCancel s fun t => t.calBuilding g = none ∧ t.calPending g = s.calPending g) ∧
  (∀ (s u : State) (q n : Nat) (it : Item), s.man.roles.tariffIn = q + 1 → s.deliver q = some (it, u) → it.poisoned = false →
    beAt it.bytes 4 1 = 0x10 → s.reqGate it.bytes = 0 → beAt it.bytes 5 1 < s.get trfCfg_GROUPS →
    n = beAt (slice it.bytes 16 (beAt it.bytes 12 2)) 0 2 → s.acctBusy n = false → s.warned = false → s.sealedRoom 1 = true →
    (List.range 60).any (fun g => !(s.grp g).held) = true → s.placesUsed false < 7168 →
    answers .accountSet s fun t =>
      (t.acct n).id = beAt (slice it.bytes 16 (beAt it.bytes 12 2)) 4 8 ∧
      (t.acct n).lowAt = beAt (slice it.bytes 16 (beAt it.bytes 12 2)) 12 4 ∧
      (t.acct n).emerg = beAt (slice it.bytes 16 (beAt it.bytes 12 2)) 16 4 ∧
      (t.acct n).price = (List.range 16).map (fun i => beAt (slice it.bytes 16 (beAt it.bytes 12 2)) (20 + 4 * i) 4) ∧
      ((s.acct n).st = 0 → (t.acct n).st = 1 ∧ (t.acct n).bal = 0) ∧ ((s.acct n).st ≠ 0 → (t.acct n).st = (s.acct n).st)) ∧
  (∀ (s u : State) (q n : Nat) (it : Item), s.man.roles.tariffIn = q + 1 → s.deliver q = some (it, u) → it.poisoned = false →
    beAt it.bytes 4 1 = 0x11 → s.reqGate it.bytes = 0 → beAt it.bytes 5 1 < s.get trfCfg_GROUPS →
    n = beAt (slice it.bytes 16 (beAt it.bytes 12 2)) 0 2 → s.acctBusy n = false → s.warned = false → s.sealedRoom 1 = true →
    (List.range 60).any (fun g => !(s.grp g).held) = true →
    answers .accountClose s fun t => (t.acct n).st = 0 ∧ (t.acct n).bal = 0) ∧
  (∀ (s u : State) (q : Nat) (it : Item), s.man.roles.tariffIn = q + 1 → s.deliver q = some (it, u) → it.poisoned = false →
    beAt it.bytes 4 1 = 0x12 → s.reqGate it.bytes = 0 → beAt it.bytes 5 1 < s.get trfCfg_GROUPS → s.flag hldStat_MOUNTED = true →
    answers .clearLockout s fun t => t.tok.locked = false ∧ t.tokFails = 0 ∧ t.get panTokLock_LOCKED = 0)

/-- CALENDAR_MINUTE while time is not LOST: for each of the 64 groups the rate and daylight flag in force are those that rate_of
gives for the group's active calendar at the minute's UTC time, none without one. TRF_GROUP_QUERY of an active calendar:
VERSION_ID is the calendar's, DEFAULT the default rate in force, the activation instant 0. RATE_QUERY of a valid active calendar
while time is not LOST: the rate, season, day profile, daylight flag and minute of rate_of for the quarter that was written,
with VALID; without a calendar all 0. (R300, R301, R305, R306, R317) -/
def Obligations.CalendarsGiveTheRates : Prop :=
  (∀ s : State, s.trust ≠ 3 →
    answers .calendarMinute s fun t => ∀ g ∈ List.range 64,
      smGet none t.trf.cur g = (s.calActive g).map (fun c => ((rateOf c (s.utcSec / 60 * 60)).rate, (rateOf c (s.utcSec / 60 * 60)).dst))) ∧
  (∀ (s : State) (i : Iface) (v : Word) (c : List Byte), s.mayAccess i trfGroupSel true = true → wordBits v trfGroupSel_CAL = 0 →
    s.calActive (wordBits v trfGroupSel_GROUP) = some c →
    answers (.trfGroupQuery i v) s fun t =>
      t.get trfGroupStat_VERSION_ID = calVersion c ∧ t.get trfGroupStat_DEFAULT = s.defaultRate (wordBits v trfGroupSel_GROUP) ∧
      t.get trfGroupStat_PRESENT = 1 ∧ t.reg trfGroupActHi = 0 ∧ t.reg trfGroupActLo = 0 ∧ t.trf = s.trf ∧ onlyIn [.regs] s t) ∧
  (∀ (s : State) (i : Iface) (v : Word) (c : List Byte), s.mayAccess i trfQryQ true = true → s.get trfQrySel_CAL = 0 →
    s.calActive (s.get trfQrySel_GROUP) = some c → s.trust ≠ 3 → calCheck c (s.get trfQrySel_GROUP) = 0 →
    answers (.rateQuery i v) s fun t =>
      t.get trfQryRes_VALID = 1 ∧ t.get trfQryRes_RATE = (rateOf c (v.toNat * 900)).rate % 16 ∧
      t.get trfQryRes_SEASON = (rateOf c (v.toNat * 900)).season % 16 ∧
      t.get trfQryRes_DAYPROF = (rateOf c (v.toNat * 900)).dayprof % 32 ∧
      t.get trfQryRes_DST = ofBool (rateOf c (v.toNat * 900)).dst ∧
      t.get trfQryRes_MINUTE = (rateOf c (v.toNat * 900)).minute % 2048 ∧ onlyIn [.regs] s t ∧ keepsRegs [trfQryQ, trfQryRes] s t) ∧
  (∀ (s : State) (i : Iface) (v : Word), s.mayAccess i trfQryQ true = true → s.get trfQrySel_CAL = 0 →
    s.calActive (s.get trfQrySel_GROUP) = none →
    answers (.rateQuery i v) s fun t => t.reg trfQryRes = 0 ∧ onlyIn [.regs] s t ∧ keepsRegs [trfQryQ, trfQryRes] s t)

/-- The group of a session result: its record, and the action that hands it to the outbound queue where there is one (R335). -/
def sessGroup (s : State) (k : Nat) (r : List Nat) : State × Bool :=
  s.sealedGroup (match s.man.roles.sealedOut with
      | 0 => []
      | q + 1 => [{ kind := 4, len := (s.sessResult (Sess.ofRow r)).1.length, target := q, arg := s.epFlow (Sess.ofRow r).slot, data := (s.sessResult (Sess.ofRow r)).1 }])
    [.record tabSess k [], .record tabSessRes k (nums (s.sessResult (Sess.ofRow r)).1)] .billing

/-- BOUNDARY_PRESTAGE fifty crossings before the fixed crossing of the next quarter, billing open, nothing staged, time not
LOST, no hold, no warning, a reserved group free: a reserved group with its intent is staged for that boundary and crossing, and
the activations due are fixed. BILLING_STEP with an accepted CRR of a registered endpoint (not the site) whose set has no valid
cursor, no group in use, its account not busy, no record of the sealed domain waiting to be durable, no warning: its set takes
the crossing number and registers as its cursor. PASSED_BOUNDARY_CATCHUP before the first quarter, time not LOST, no hold,
nothing staged, no warning, no group in use, no such record waiting: billing opens at the present quarter. BACKSTEP_HOLD_END at
the high-water: no hold. SESSION_RESULT of a session whose quarters are complete, its group made with the action for the
outbound queue: its result is stored, the session waits no longer. BILLING_QUERY shows the selected rate's import of the open
period; LOAD_PROFILE_QUERY the entry of the quarter. (R310, R318, R319, R321, R322, R334, R341, R343) -/
def Obligations.BillingOpensStagesAndBooks : Prop :=
  (∀ s : State, s.bil.isOpen = true → s.bil.staged = none → s.trust ≠ 3 → s.flag bilStat_HOLD = false →
    s.xing.num + 50 = s.plc.snapN → s.plc.snapB = (s.get bilQ_Q + 1) * 900 → s.warned = false →
    [60, 61, 62, 63].any (fun g => !(s.grp g).held) = true →
    answers .boundaryPrestage s fun t =>
      (∃ x, t.bil.staged = some x ∧ x.b = s.plc.snapB ∧ x.n = s.plc.snapN ∧ x.acts = s.dueActs s.plc.snapB ∧ 60 ≤ x.grp ∧
        (t.grp x.grp).st = .opened ∧ (t.grp x.grp).arm = s.plc.snapN) ∧
      t.trf.fixedAct = s.dueActs s.plc.snapB ∧ t.get bilStat_STAGED = 1) ∧
  (∀ (s u : State) (q k : Nat) (it : Item) (b0 : BSet), s.man.roles.sealedIn = q + 1 → s.deliver q = some (it, u) → it.poisoned = false →
    k = beAt it.bytes 0 4 → beAt it.bytes 8 1 = 0 → beAt (it.bytes.drop 32) 0 1 % 16 ≠ 8 → beAt (it.bytes.drop 32) 2 8 ≠ s.fuses.eui →
    s.epState k = 1 → s.epEui k = beAt (it.bytes.drop 32) 2 8 → s.bset (k + 1) = some b0 → b0.cursor = false → s.acctBusy (s.ctxAt k 116 2) = false → k < s.get eptCfg_CAPACITY →
    s.cmt.groups = [] → s.warned = false → s.sealedOpen = 0 →
    answers (.billingStep []) s fun t => ∃ b, t.bset (k + 1) = some b ∧ b.curN = beAt (it.bytes.drop 32) 14 6 ∧
      b.curReg = (List.range 4).map (fun i => beAt (it.bytes.drop 32) (20 + 6 * i) 6) ∧ b.cursor = true) ∧
  (∀ s : State, s.bil.isOpen = false → s.bil.staged = none → s.warned = false → s.trust ≠ 3 → s.flag bilStat_HOLD = false →
    s.utcSec / 900 ≤ bilQ_Q.top → s.sealedOpen = 0 → s.cmt.groups = [] →
    answers .passedBoundaryCatchup s fun t => t.bil.isOpen = true ∧ t.get bilQ_Q = s.utcSec / 900 ∧ t.cmt.next = s.cmt.next + 1) ∧
  (∀ s : State, s.flag bilStat_HOLD = true → s.hwTai ≤ s.ptpSec →
    answers .backstepHoldEnd s fun t => t.flag bilStat_HOLD = false ∧ t.bil.wantS = false) ∧
  (∀ (s : State) (k : Nat) (r : List Nat), (sessGroup s k r).2 = true →
    ((smGet [] s.live.tables tabSess).find? fun p => s.sessReady (beAt (Sess.ofRow p.2).bytes 44 6) (beAt (Sess.ofRow p.2).bytes 50 6)) =
      some (k, r) →
    answers .sessionResult s fun t =>
      t.live.row tabSess k = [] ∧ t.live.row tabSessRes k = nums (s.sessResult (Sess.ofRow r)).1) ∧
  (∀ (s : State) (i : Iface) (v : Word) (b : BSet), s.mayAccess i bilSel true = true → wordBits v bilSel_SITE = 0 →
    wordBits v bilSel_PERIOD = 0 → wordBits v bilSel_RATE < 16 → s.bset (wordBits v bilSel_SLOT + 1) = some b →
    b.imp.length = 16 → b.exp.length = 16 →
    answers (.billingQuery i v) s fun t =>
      t.get bilImpHi_VALID = 1 ∧ t.reg bilImpLo = BitVec.ofNat 32 (b.imp.getD (wordBits v bilSel_RATE) 0) ∧
      t.reg bilExpLo = BitVec.ofNat 32 (b.exp.getD (wordBits v bilSel_RATE) 0) ∧ t.bil = s.bil ∧ onlyIn [.regs] s t) ∧
  (∀ (s : State) (i : Iface) (v : Word) (b : BSet), s.mayAccess i bilLpQ true = true → s.get bilLpSel_SITE = 0 →
    s.bset (s.get bilLpSel_SLOT + 1) = some b →
    (s.live.row tabLp ((s.get bilLpSel_SLOT + 1) * 2 ^ 40 + v.toNat % s.lpRing)).getD 0 0 = v.toNat →
    s.live.row tabLp ((s.get bilLpSel_SLOT + 1) * 2 ^ 40 + v.toNat % s.lpRing) ≠ [] →
    answers (.loadProfileQuery i v []) s fun t =>
      t.get bilLpSel_VALID = 1 ∧
      t.reg (bilLpData 0) =
        BitVec.ofNat 32 ((s.live.row tabLp ((s.get bilLpSel_SLOT + 1) * 2 ^ 40 + v.toNat % s.lpRing)).getD 1 0) ∧
      onlyIn [.regs] s t)

/-- By an interface that its map allows the register. GROUP_OPEN, no warning and a number of 0 to 59 not held: a free number
comes back with bit 31 and is OPEN for its issuer. ACTION_STAGE of a permitted action with places, credit and no conflict into
an OPEN group of its issuer: result 0, the action is last. GROUP_SEAL of an OPEN group of its issuer without late operands, none
of the validation group: result 0, it is VISIBLE with the next JSEQ. GROUP_DURABLE of a VISIBLE group, while the journal's work
need not wait: every journal record up to its JSEQ is durable. DURABILITY_OVERRUN of a VISIBLE group raises event 294.
INTENT_DURABLE: an OPEN group with an intent is PRESTAGED. GROUP_WITHDRAW of a PRESTAGED group: it is free, a withdraw record
names the intent. SEALED_GROUP_RETRY without warning, with nothing else waiting, no group, room in the Logbook and for sealed
records: a waiting Logbook clear is carried out, FIRST is the cleared record's number. CMT_GSTAT_READ returns the group's state
word and frees a DURABLE number; JSEQ_CAPTURE and COUNTER_CAPTURE capture 64 bits of the durable JSEQ and of the selected
counter, the high half is the value read. JOURNAL_REPLAY_DONE once after the mount, without warning: phase 3, PTP runs. (R344,
R345, R346, R347, R354, R355, R358, R359, R361, R560) -/
def Obligations.CommitGroupsOpenStageAndSeal : Prop :=
  (∀ (s : State) (i : Iface) (g : Nat), s.mayAccess i cmtAlloc false = true → s.warned = false →
    ((List.range 60).find? fun g => !(s.grp g).held) = some g →
    answers (.groupOpen i) s fun t =>
      t.grp g = { st := .opened, issuer := i.issuer } ∧ t.sent = .readValue i (BitVec.ofNat 32 (2 ^ 31 + g)) :: s.sent ∧
      (∀ k ∈ List.range 64, k ≠ g → t.grp k = s.grp k) ∧ onlyIn [.cmt, .sent] s t) ∧
  (∀ (s : State) (i : Iface) (w g : Nat) (a : Action), w < 16 → g < 64 → s.mayAccess i (cmtPush w) true = true →
    a = Action.ofBytes (s.windowBytes i w) → s.warned = false → (s.grp g).st = .opened → (s.grp g).issuer = windowIssuer i (cmtPush w) →
    s.actionValid g (windowIssuer i (cmtPush w)) a = true → (s.grp g).actions.length < 256 → s.placesUsed false < 7168 →
    s.conflict g a = false → s.actionCredit a = true →
    answers (.actionStage i w g) s fun t =>
      (t.grp g).actions = (s.grp g).actions ++ [a] ∧ (t.grp g).st = .opened ∧ t.reg (regKey i (cmtRes w)) = 0) ∧
  (∀ (s : State) (i : Iface) (g : Nat), g < 64 → s.mayAccess i cmtCtrl true = true → s.warned = false → (s.grp g).st = .opened →
    (s.grp g).issuer = i.issuer → (s.grp g).actions.any Action.late = false → s.val.group = none →
    answers (.groupSeal i g) s fun t =>
      (t.grp g).st = .visible ∧ (t.grp g).jseq = s.cmt.next ∧ t.cmt.next = s.cmt.next + 1 ∧ t.reg (resKey i) = 0 ∧
      t.cmt.journal.map (fun r => r.jseq) = s.cmt.journal.map (fun r => r.jseq) ++ [s.cmt.next]) ∧
  (∀ (s : State) (g : Nat), (s.grp g).st = .visible → (s.grp g).jseq < s.cmt.next → s.journalWaits = false →
    answers (.groupDurable g) s fun t => ∀ r ∈ t.cmt.journal, r.jseq ≤ (s.grp g).jseq → r.durable = true) ∧
  (∀ (s : State) (g : Nat), (s.grp g).st = .visible →
    answers (.durabilityOverrun g) s fun t => t.fry = (s.raise 294).fry ∧ t.oar = (s.raise 294).oar ∧ onlyIn evtParts s t) ∧
  (∀ (s : State) (g : Nat), (s.grp g).st = .opened → (s.grp g).intent ≠ 0 →
    answers (.intentDurable g) s fun t =>
      t.grp g = { s.grp g with st := .prestaged, intentDurable := true } ∧
      ∀ r ∈ t.cmt.journal, r.jseq ≤ (s.grp g).intent → r.durable = true) ∧
  (∀ (s : State) (g : Nat), (s.grp g).st = .prestaged →
    answers (.groupWithdraw g) s fun t =>
      (t.grp g).st = .free ∧ t.cmt.next = s.cmt.next + 1 ∧ ∃ r ∈ t.cmt.journal, r.typ = 4 ∧ r.ref = (s.grp g).intent ∧ r.jseq = s.cmt.next) ∧
  (∀ s : State, s.warned = false → s.lgb.clearWaits = true → s.cmt.groups = [] → 0 < s.lgbRoom → s.sealedRoom 0 = true → s.man.roles.sealedIn = 0 →
    s.man.roles.tariffIn = 0 → s.man.roles.tokenIn = 0 → s.bil.catchup = none → s.bil.staged = none → s.val.recs = [] → s.val.entries = [] →
    answers .sealedGroupRetry s fun t => t.lgb.clearWaits = false ∧ t.lgb.first = s.lgb.next) ∧
  (∀ (s : State) (i : Iface), s.mayAccess i cmtGstat false = true →
    answers (.cmtGstatRead i) s fun t =>
      t.sent = .readValue i s.gstatWord :: s.sent ∧
      t.grp (s.get cmtGsel_GROUP) = (if (s.grp (s.get cmtGsel_GROUP)).st = .durable then {} else s.grp (s.get cmtGsel_GROUP)) ∧
      onlyIn [.cmt, .sent] s t) ∧
  (∀ (s : State) (i : Iface), s.mayAccess i cmtJseqHi false = true →
    answers (.jseqCapture i) s fun t =>
      t.reg cmtJseqHi = BitVec.ofNat 32 (s.cmt.durJseq / 2 ^ 32) ∧ t.reg cmtJseqLo = BitVec.ofNat 32 s.cmt.durJseq ∧
      t.sent = .readValue i (BitVec.ofNat 32 (s.cmt.durJseq / 2 ^ 32)) :: s.sent ∧ onlyIn [.regs, .sent] s t ∧
      keepsRegs [cmtJseqHi, cmtJseqLo] s t) ∧
  (∀ (s : State) (i : Iface), s.mayAccess i cmtCntHi false = true →
    answers (.counterCapture i) s fun t =>
      t.reg cmtCntHi = BitVec.ofNat 32 (ofSigned 64 (smGet 0 s.live.counters (s.get cmtCntSel_COUNTER)) / 2 ^ 32) ∧
      t.reg cmtCntLo = BitVec.ofNat 32 (ofSigned 64 (smGet 0 s.live.counters (s.get cmtCntSel_COUNTER))) ∧
      t.sent = .readValue i (t.reg cmtCntHi) :: s.sent ∧ onlyIn [.regs, .sent] s t ∧ keepsRegs [cmtCntHi, cmtCntLo] s t) ∧
  (∀ s : State, s.pwr.mounted = true → s.pwr.replayed = false → s.warned = false →
    answers .journalReplayDone s fun t => t.get pwrStat_PHASE = 3 ∧ t.pwr.replayed = true ∧ t.eth.ptpOn = true)

/-- Over the shared operation that every staging goes through: a group of at most 256 actions holds at most 256 after any
staging. A permitted staging, no warning, by the issuer of an OPEN group that holds 256 answers result 0x05 and the state with
event 290 raised; the group is as it was, OPEN. By ACTION_STAGE the result register shows 0x05. Such a group without late
operands is sealed by GROUP_SEAL with result 0, and aborted by GROUP_ABORT with result 0. (R349) -/
def Obligations.The257thStagingIsRefused : Prop :=
  (∀ (s : State) (g : Nat) (iss : Issuer) (a : Action), (s.grp g).actions.length ≤ 256 →
    ((s.stage g iss a).2.grp g).actions.length ≤ 256) ∧
  (∀ (s : State) (g : Nat) (iss : Issuer) (a : Action), s.warned = false → (s.grp g).st = .opened → (s.grp g).issuer = iss →
    s.actionValid g iss a = true → (s.grp g).actions.length = 256 →
    (s.stage g iss a).1 = 5 ∧ (s.stage g iss a).2 = s.raise 290 ∧ (s.stage g iss a).2.grp g = s.grp g) ∧
  (∀ (s : State) (i : Iface) (w g : Nat), w < 16 → g < 64 → s.mayAccess i (cmtPush w) true = true → s.warned = false →
    (s.grp g).st = .opened → (s.grp g).issuer = windowIssuer i (cmtPush w) →
    s.actionValid g (windowIssuer i (cmtPush w)) (Action.ofBytes (s.windowBytes i w)) = true → (s.grp g).actions.length = 256 →
    answers (.actionStage i w g) s fun t =>
      t.reg (regKey i (cmtRes w)) = 5 ∧ t.grp g = s.grp g ∧ t.fry.latches = (s.raise 290).fry.latches ∧ t.fry.threads = (s.raise 290).fry.threads) ∧
  (∀ (s : State) (i : Iface) (g : Nat), g < 64 → s.mayAccess i cmtCtrl true = true → s.warned = false → (s.grp g).st = .opened →
    (s.grp g).issuer = i.issuer → (s.grp g).actions.length = 256 → (s.grp g).actions.any Action.late = false →
    answers (.groupSeal i g) s fun t => (t.grp g).st = .visible ∧ t.reg (resKey i) = 0) ∧
  (∀ (s : State) (i : Iface) (g : Nat), g < 64 → s.mayAccess i cmtCtrl true = true → (s.grp g).st = .opened →
    (s.grp g).issuer = i.issuer → (s.grp g).actions.length = 256 →
    answers (.groupAbort i g) s fun t => t.grp g = {} ∧ t.reg (resKey i) = 0)

/-- GROUP_ABORT by the issuer of an OPEN group: result 0; the number is free and holds no action, so it uses no place and pins
no context slot that nothing else pins; each queue's claimed words fall by those of the group's enqueue actions and the
Logbook's claims by its record actions; the journal is unchanged. Of a VISIBLE group: result 0x02, the group, the claims and the
journal are unchanged. (R357) -/
def Obligations.AnOpenGroupIsAborted : Prop :=
  (∀ (s : State) (i : Iface) (g : Nat), g < 64 → s.mayAccess i cmtCtrl true = true → (s.grp g).st = .opened → (s.grp g).issuer = i.issuer →
    answers (.groupAbort i g) s fun t =>
      t.reg (resKey i) = 0 ∧ t.grp g = {} ∧ (∀ k ∈ List.range 64, k ≠ g → t.grp k = s.grp k) ∧
      (∀ q ∈ List.range 128, (t.q q).claimed = (s.q q).claimed -
        (((s.grp g).actions.filter fun a => a.kind == 4 && a.target == q).map fun a => a.len / 8 + 2).sum) ∧
      t.lgb.claimed = s.lgb.claimed - ((s.grp g).actions.filter fun a => a.kind == 8).length ∧
      (∀ k ∈ t.pinned, k ∈ s.pinned) ∧ t.cmt.journal = s.cmt.journal ∧ t.cmt.next = s.cmt.next) ∧
  (∀ (s : State) (i : Iface) (g : Nat), g < 64 → s.mayAccess i cmtCtrl true = true → (s.grp g).st = .visible →
    answers (.groupAbort i g) s fun t => t.reg (resKey i) = 2 ∧ onlyIn [.regs] s t)

/-- For an entry at the head of the token queue, no lockout, the Hold mounted. TOKEN_ENTRY whose checks all pass, class 0, no
group of the account open, a group, three places and room for three records not yet durable to be had, no outbound queue:
BALANCE grows by 10,000 per unit, the serial's bit is set, the highest serial follows, FAILS is 0. TOKEN_ENTRY refused with a
result that counts: FAILS grows by one, up to 255, and at 5 or more a lockout begins; the account keeps its balance.
LOCKOUT_END: no lockout, FAILS 0. ACCOUNT_QUERY shows state, low credit and balance of the account that was written.
IDENTITY_KEY_GENERATED after the draw of its seeds: the identity exists, READY is 1. EPOCH_TREE_BUILT: READY is 1 again. (R367,
R369, R370, R371, R372, R373, R375, R486, R487, R489) -/
def Obligations.TokensLockoutsAndIdentity : Prop :=
  (∀ (s u : State) (q n v : Nat) (it : Item), s.man.roles.tokenIn = q + 1 → s.deliver q = some (it, u) → it.poisoned = false →
    n = beAt it.bytes 2 2 → v = beAt it.bytes 7 9 → s.tok.locked = false → s.tokCheck v n = 0 → v / 2 ^ 62 % 16 = 0 →
    s.acctBusy n = false → s.sealedRoom 3 = true → s.placesUsed false + 3 ≤ 7168 → s.warned = false → (List.range 60).any (fun g => !(s.grp g).held) = true → s.man.roles.sealedOut = 0 →
    answers .tokenEntry s fun t =>
      (t.acct n).bal = (s.acct n).bal + ((v / 2 ^ 16 % 2 ^ 16 * 10000 : Nat) : Int) ∧ (t.acct n).id = (s.acct n).id ∧
      t.live.row tabTokBit (v / 2 ^ 32 % 2 ^ 26 % 65536) = [1] ∧ t.tokHigh = max s.tokHigh (v / 2 ^ 32 % 2 ^ 26) ∧ t.tokFails = 0) ∧
  (∀ (s u : State) (q n v : Nat) (it : Item), s.man.roles.tokenIn = q + 1 → s.deliver q = some (it, u) → it.poisoned = false →
    n = beAt it.bytes 2 2 → v = beAt it.bytes 7 9 → s.tok.locked = false → s.tokCheck v n ∈ [0x01, 0x06, 0x07, 0x09] →
    s.flag hldStat_MOUNTED = true →
    answers .tokenEntry s fun t =>
      t.tokFails = min 255 (s.tokFails + 1) ∧ t.tok.locked = decide (5 ≤ min 255 (s.tokFails + 1)) ∧
      (t.acct n).bal = (s.acct n).bal ∧ t.tokHigh = s.tokHigh) ∧
  (∀ s : State, s.tok.locked = true → s.flag hldStat_MOUNTED = true →
    answers .lockoutEnd s fun t => t.tok.locked = false ∧ t.tokFails = 0 ∧ t.get panTokLock_LOCKED = 0) ∧
  (∀ (s : State) (i : Iface) (v : Word), s.mayAccess i panAcctSel true = true →
    answers (.accountQuery i v) s fun t =>
      t.reg panAcctStat = BitVec.ofNat 32 ((s.acct (wordBits v panAcctSel_ACCOUNT)).st * 256 + ofBool (s.acct (wordBits v panAcctSel_ACCOUNT)).low) ∧
      t.reg panAcctBalHi = BitVec.ofNat 32 (ofSigned 64 (s.acct (wordBits v panAcctSel_ACCOUNT)).bal / 2 ^ 32) ∧
      t.reg panAcctBalLo = BitVec.ofNat 32 (ofSigned 64 (s.acct (wordBits v panAcctSel_ACCOUNT)).bal) ∧ onlyIn [.regs] s t) ∧
  (∀ (s : State) (d : List Byte), s.keys.generating = some d → s.fuses.identity = false →
    answers .identityKeyGenerated s fun t =>
      t.fuses.identity = true ∧ t.keys.generating = none ∧ t.get keyIdStat_READY = 1 ∧ t.get keyIdStat_GENERATING = 0 ∧
      t.reg keyFpLo = BitVec.ofNat 32 t.fuses.fingerprint) ∧
  (∀ s : State, s.keys.treeWait = true →
    answers .epochTreeBuilt s fun t =>
      t.keys.treeWait = false ∧ t.get keyIdStat_READY = 1 ∧ t.get keyIdStat_GENERATING = 0 ∧ onlyIn [.regs, .keys] s t ∧
      keepsRegs [keyIdStat] s t)

/-- KEY_STATE_CHANGE of key k, the keypad enabled and not stopped, a state that differs: DOWN bit k follows. PANEL_FRAME_START
with the legal items painted, no warning, no discharge: one frame more, the band that the temperature in use gives is in force
and shown, DRIVE is 1. TEMPERATURE_BAND_CHANGE: the temperature shown is the sensor's reading, or the register's as TEMP_SRC
says, and the band follows its thresholds. DISCHARGE_HOLD_END: DRIVE is 0. FRAME_MEMORY_WRITE of word w that is there: its eight
levels enter the open page but for pixels of the legal mask, and the address advances; FRAME_MEMORY_READ returns the word's
eight levels and advances. (R377, R378, R380, R382, R383, R384, R385) -/
def Obligations.PanelDrawsAndReadsKeys : Prop :=
  (∀ (s : State) (k : Nat) (down : Bool), k < 16 → s.flag kpCfg_EN = true → s.pan.stopped = false →
    natBit (s.get kpStat_DOWN) k = !down →
    answers (.keyStateChange k down) s fun t =>
      natBit (t.get kpStat_DOWN) k = down ∧ ∀ j ∈ List.range 16, j ≠ k → natBit (t.get kpStat_DOWN) j = natBit (s.get kpStat_DOWN) j) ∧
  (∀ s : State, s.flag panStat_LEGAL_READY = true → s.warned = false → s.pan.discharge = none → s.panTemp.pan.band < 4 →
    answers .panelFrameStart s fun t =>
      t.get panStat_FRAMES = (s.get panStat_FRAMES + 1) % (panStat_FRAMES.top + 1) ∧ t.get panStat_BAND = s.panTemp.pan.band ∧ t.pan.band = s.panTemp.pan.band ∧
      t.get panStat_DRIVE = 1 ∧ t.pan.opn = s.pan.opn ∧ t.pan.sld = s.pan.sld) ∧
  (∀ (s : State) (t0 : Nat),
    answers (.temperatureBandChange t0) s fun t =>
      t.get panStat_TEMP = (if s.get panCfg_TEMP_SRC = 0 then t0 % 256 else s.get panTband_TEMP) ∧
      t.pan = { s.pan with sensor := some (t0 % 256), band := s.bandFor (toSigned 8 (t.get panStat_TEMP)) } ∧ onlyIn [.regs, .pan] s t ∧
      keepsRegs [panStat] s t) ∧
  (∀ s : State, s.pan.discharge.isSome = true →
    answers .dischargeHoldEnd s fun t =>
      t.get panStat_DRIVE = 0 ∧ t.pan = { s.pan with discharge := none } ∧ onlyIn [.regs, .pan] s t ∧ keepsRegs [panStat] s t) ∧
  (∀ (s : State) (i : Iface) (v : Word), s.mayAccess i panFbData true = true → s.fbThere (s.get panFbAddr_WORD) = true →
    answers (.frameMemoryWrite i v) s fun t =>
      (∀ k ∈ List.range 8, smGet 0 t.pan.opn (8 * s.get panFbAddr_WORD + k) =
        if 8 * s.get panFbAddr_WORD + k ∈ s.man.legalMask then smGet 0 s.pan.opn (8 * s.get panFbAddr_WORD + k)
        else bitsOf v (31 - 4 * k) (28 - 4 * k)) ∧
      t.get panFbAddr_WORD = (s.get panFbAddr_WORD + 1) % 128 ∧ t.pan.sld = s.pan.sld) ∧
  (∀ (s : State) (i : Iface), s.mayAccess i panFbData false = true →
    answers (.frameMemoryRead i) s fun t =>
      t.sent = .readValue i s.fbRead.1 :: s.sent ∧ t.get panFbAddr_WORD = (s.get panFbAddr_WORD + 1) % 128 ∧ t.pan = s.pan ∧
      onlyIn [.regs, .sent] s t ∧ keepsRegs [panFbAddr] s t)

/-- DOORBELL_PUSH that is permitted, with room and no armed perturbation: result 0 on the page, an item of LEN words from the
page's staging words, with FLOW and the present stamp, joins the tail; refused: the result, and the queue is unchanged.
DOORBELL_POP by its consumer (no pool): the item that is next for delivery leaves, the page shows it, bit 31 and its length come
back. PRODUCER_CLAIM_GRANTED with room for the first waiting producer, no record and no evaluation at work: its item, with the
present stamp where that is internal, joins the tail, it waits no longer. QUEUE_IDLE_TIMEOUT of a running timer: IDLE is 1. By a
permitted master on a used queue that retains: QUEUE_RELEASE of all frees what was delivered, QUEUE_REWIND returns HEAD to MARK,
QUEUE_DONE marks the named item that has been delivered. WHF_Q_CNT_CLEAR: the counters are 0. PERTURBED_ITEM_VISIBLE, its delay
over: the first delayed item is visible. (R390, R393, R394, R396, R397, R399, R402, R403) -/
def Obligations.DoorbellsAndQueuesMoveItems : Prop :=
  (∀ (s : State) (i : Iface) (q : Nat) (v : Word), q < 256 → s.tst.entries = [] → s.pushResult i q (bitsOf v 8 0 + 1) = 0 →
    answers (.doorbellPush i q v) s fun t =>
      (t.page q).res = 0 ∧ (t.q q).tail = ((s.q q).tail + 1) % 2 ^ 32 ∧
      (t.q q).items = (s.q q).items ++ [{ mkItem (bitsOf v 31 20) (s.stamp 8) [] with data := (s.page q).item (bitsOf v 8 0 + 1), iseq := (s.q q).tail }]) ∧
  (∀ (s : State) (i : Iface) (q : Nat) (v : Word), s.pushResult i q (bitsOf v 8 0 + 1) ≠ 0 →
    answers (.doorbellPush i q v) s fun t =>
      t.page q = { s.page q with res := s.pushResult i q (bitsOf v 8 0 + 1) } ∧ t.whf.queues = s.whf.queues ∧ onlyIn [.whf] s t) ∧
  (∀ (s u : State) (i : Iface) (q : Nat) (a : Agent) (it : Item), q < 256 → smGet none s.man.consumers q = some a →
    (∀ k ∈ List.range 64, a ≠ .pool k) → s.mayPop i q = true → s.deliver q = some (it, u) →
    answers (.doorbellPop i q) s fun t =>
      (t.page q).popped = it.data.map (fun w => w.val) ∧ (t.page q).hdr0 = it.hdr0 ∧ (t.page q).hdr1 = it.hdr1 ∧
      t.sent.head? = some (.readValue i (BitVec.ofNat 32 (2 ^ 31 + (it.data.length - 1)))) ∧ t.q q = u.q q) ∧
  (∀ (s : State) (q : Nat) (w : Waiter) (rest : List Waiter), q < 256 → s.tst.entries = [] → (s.q q).waiters = w :: rest →
    w.item.words ≤ s.qFree q → s.val.recs = [] → s.val.entries = [] →
    s.bal.run = none → s.bal.due = [] →
    answers (.producerClaimGranted q) s fun t =>
      (t.q q).waiters = rest ∧ (t.q q).items = (s.q q).items ++ [{ s.freshStamp w with iseq := (s.q q).tail }]) ∧
  (∀ (s : State) (q : Nat), q < 256 → (s.q q).idleRun = true →
    answers (.queueIdleTimeout q) s fun t => (t.q q).idleRun = false ∧ t.get (whfQStat_IDLE q) = 1 ∧ (t.q q).items = (s.q q).items) ∧
  (∀ (s : State) (i : Iface) (q n : Nat), q < 256 → s.mayAccess i (whfQCtrl q) true = true → s.qUsed q = true →
    s.flag (whfQCfg_RETAIN q) = true →
    answers (.queueRelease i q true n) s fun t =>
      (t.q q).items = (s.q q).items.drop ((s.q q).rel (s.q q).front).toNat ∧
      (t.q q).mark = ((s.q q).mark + ((s.q q).rel (s.q q).front).toNat) % 2 ^ 32 ∧ onlyIn (.whf :: evtParts) s t) ∧
  (∀ (s : State) (i : Iface) (q : Nat), q < 256 → s.mayAccess i (whfQCtrl q) true = true → s.qUsed q = true →
    s.flag (whfQCfg_RETAIN q) = true →
    answers (.queueRewind i q) s fun t =>
      (t.q q).head = (s.q q).mark ∧ (t.q q).items = (s.q q).items ∧ onlyIn (.whf :: evtParts) s t) ∧
  (∀ (s : State) (i : Iface) (q n k : Nat), q < 256 → s.mayAccess i (whfQCtrl q) true = true → s.qUsed q = true →
    s.flag (whfQCfg_RETAIN q) = true → (s.q q).rel ((s.q q).extend (n % 2 ^ 24)) = (k : Int) → (k : Int) < (s.q q).rel (s.q q).front →
    k < (s.q q).items.length →
    answers (.queueDone i q n) s fun t =>
      (t.q q).items = (s.q q).items.set k { (s.q q).items.getD k {} with done := true } ∧ (t.q q).mark = (s.q q).mark) ∧
  (∀ (s : State) (i : Iface) (q : Nat), q < 256 → s.mayAccess i (whfQCnt q) true = true →
    answers (.whfQCntClear i q) s fun t =>
      t.get (whfQCnt_OVERRUN q) = 0 ∧ t.get (whfQCnt_LANE_FULL q) = 0 ∧ t.get (whfQCnt_POISONED q) = 0 ∧ onlyIn [.regs] s t ∧
      keepsRegs [whfQCnt q] s t) ∧
  (∀ (s : State) (q k : Nat), q < 256 → ((List.range (s.q q).items.length).find? fun k => ((s.q q).items.getD k {}).delayed) = some k →
    ((s.q q).items.getD k {}).dueAt ≤ s.clk.mono →
    answers (.perturbedItemVisible q) s fun t =>
      (t.q q).items = (s.q q).items.set k { (s.q q).items.getD k {} with delayed := false } ∧ onlyIn (.whf :: evtParts) s t)

/-- For an event e whose enable bit is 1, raised at a state whose thread table is canonical. With waiting threads: exactly those
threads become READY with e as the ended wait's event, other threads are as before, and each priority's ready list grows at its
tail by its threads of them in the order in which they began to wait; the latches are as before. With none, the latch clear: the
latch of e is set, threads and ready lists are as before. With none, the latch set, within a coalescing episode: COALESCED
counts one more, nothing else of the Ferryman changes; outside one, an episode begins, COALESCED counts, and event 388 is raised
once (not again for its own episode: the model's choice, log entry 13). THREAD_WAIT of a running thread on a latched event
consumes the latch and goes on without a switch. (R411) -/
def Obligations.EventsWakeOrLatch : Prop :=
  (∀ (s : State) (e : Nat), smWf {} s.fry.threads = true → s.evtOn e = true → s.waitersOn e ≠ [] → e ∉ s.fry.latches →
    (s.raise e).fry.latches = s.fry.latches ∧
    (∀ p ∈ s.fry.threads, (s.raise e).thr p.1 =
      if p.1 ∈ s.waitersOn e then { s.thr p.1 with st := .ready, lastEvent := e } else s.thr p.1) ∧
    (∀ k ∈ List.range 64, smGet [] (s.raise e).fry.ready k = smGet [] s.fry.ready k ++ (s.waitersOn e).filter fun t => (s.thr t).prio == k)) ∧
  (∀ (s : State) (e : Nat), smWf {} s.fry.threads = true →
    (s.waitersOn e).Pairwise (fun a b => (s.thr a).waitSeq ≤ (s.thr b).waitSeq) ∧
    (∀ p ∈ s.fry.threads, p.1 ∈ s.waitersOn e ↔ p.2.st = .waiting ∧ (p.2.waitA = e ∨ p.2.waitB = some e))) ∧
  (∀ (s : State) (e : Nat), s.evtOn e = true → s.waitersOn e = [] → e ∉ s.fry.latches →
    (s.raise e).fry = { s.fry with latches := e :: s.fry.latches }) ∧
  (∀ (s : State) (e : Nat), s.evtOn e = true → s.waitersOn e = [] → e ∈ s.fry.latches → e ∈ s.fry.episodes →
    (s.raise e).fry = s.fry ∧ (s.raise e).get fryCnt_COALESCED = satAdd (s.get fryCnt_COALESCED) 1 fryCnt_COALESCED.top) ∧
  (∀ (s : State) (e : Nat), e ≠ 388 → s.evtOn e = true → s.waitersOn e = [] → e ∈ s.fry.latches → e ∉ s.fry.episodes →
    (s.raise e).fry = (State.raise { s with fry := { s.fry with episodes := e :: s.fry.episodes } } 388).fry ∧
    (s.raise e).get fryCnt_COALESCED =
      (State.raise { s.bump fryCnt_COALESCED 1 with fry := { s.fry with episodes := e :: s.fry.episodes } } 388).get fryCnt_COALESCED) ∧
  (∀ (s : State) (core a k : Nat) (b : Option Nat), s.running core = some k → a ∈ s.fry.latches →
    answers (.threadWait core a b) s fun t =>
      a ∉ t.fry.latches ∧ t.running core = some k ∧ (t.thr k).st = (s.thr k).st ∧ (t.thr k).lastEvent = a ∧
      (∀ e ∈ s.fry.latches, e ≠ a → e ∈ t.fry.latches))

/-- THREAD_DISPATCH on an idle core that is neither parked nor halted, with a thread to run: it RUNs there and is in no ready
list. PREFETCH_LOAD_DONE of an unreserved, empty slot: the head of the core's ready lists is PREFETCHED there. THREAD_WAIT with
neither event latched: the thread WAITs on them and its core is idle. WORK_TAKE of a thread of no pool returns 0 and releases
its tag; TAKE_GRANTED with a free head item of a one-queue pool: READY with the grant. THREAD_YIELD: READY at its list's tail;
THREAD_DONE: no tag, no grant; THREAD_EXIT: FREE; each leaves the core idle but DONE. SET_PRIORITY, no other thread to run: the
new priority. THREAD_CREATE, permitted, a core in AFFINITY and no pool: the lowest FREE context is READY with the priority asked
for, 0 for a class-0 thread. C0_STAT_READ returns the register and sets MAX to 0; FRY_CNT_CLEAR sets both counters to 0. (R406,
R407, R408, R409, R412, R413, R414, R416, R419, R422) -/
def Obligations.ThreadsRunAndStop : Prop :=
  (∀ (s : State) (core ns k : Nat), s.candidate core = some k → (s.core core).parked = false → (s.core core).halted = false →
    (s.core core).running = none →
    answers (.threadDispatch core ns) s fun t =>
      t.running core = some k ∧ (t.thr k).st = .running ∧ k ∉ t.fry.ready.flatMap (fun p => p.2)) ∧
  (∀ (s : State) (core k : Nat), (s.core core).parked = false → s.c0Of core = none → s.nextReady core = some k → (s.core core).slot = none →
    answers (.prefetchLoadDone core) s fun t =>
      (t.core core).slot = some k ∧ (t.core core).loaded = true ∧ (t.thr k).st = .prefetched ∧ onlyIn [.fry] s t) ∧
  (∀ (s : State) (core a k : Nat) (b : Option Nat), s.running core = some k → a ∉ s.fry.latches → (∀ e ∈ b, e ∉ s.fry.latches) →
    answers (.threadWait core a b) s fun t =>
      (t.thr k).st = .waiting ∧ (t.thr k).waitA = a ∧ (t.thr k).waitB = b ∧ t.running core = none ∧ t.fry.latches = s.fry.latches ∧
      onlyIn [.fry] s t) ∧
  (∀ (s : State) (core k f : Nat), s.running core = some k → (s.thr k).pool = none → (s.thr k).flow = some f → s.flow f = .thread k →
    answers (.workTake core) s fun t =>
      t.sent = .readValue (.core core) 0 :: s.sent ∧ (t.thr k).flow = none ∧ t.flow f = .nobody ∧ t.running core = some k) ∧
  (∀ (s : State) (k p q : Nat) (it : Item), (s.thr k).st = .taking → (s.thr k).pool = some p → smGet [] s.man.pools p = [q] →
    (s.q q).headItem = some it → s.flow it.flow = .nobody →
    answers (.takeGranted k) s fun t =>
      (t.thr k).st = .ready ∧ (t.thr k).grant = some q ∧ (t.thr k).flow = some it.flow ∧ t.flow it.flow = .thread k ∧
      k ∈ smGet [] t.fry.ready (s.thr k).prio) ∧
  (∀ (s : State) (core k : Nat), s.running core = some k →
    answers (.threadYield core) s fun t =>
      t.thr k = { s.thr k with st := .ready } ∧ t.running core = none ∧
      smGet [] t.fry.ready (s.thr k).prio = smGet [] s.fry.ready (s.thr k).prio ++ [k] ∧ onlyIn [.fry] s t) ∧
  (∀ (s : State) (core k : Nat), s.running core = some k →
    answers (.threadDone core) s fun t =>
      t.thr k = { s.thr k with flow := none, grant := none } ∧ t.running core = some k ∧ onlyIn [.fry, .flows] s t) ∧
  (∀ (s : State) (core k : Nat), s.running core = some k →
    answers (.threadExit core) s fun t =>
      t.thr k = {} ∧ t.running core = none ∧ onlyIn (.flows :: evtParts) s t ∧ keepsRegs [fryCnt] s t) ∧
  (∀ (s : State) (core prio k : Nat), s.running core = some k → s.c0Index k = none → s.fry.ready = [] → (s.core core).slot = none → s.c0Ready core = none →
    answers (.setPriority core prio) s fun t =>
      t.thr k = { s.thr k with prio := prio % 64 } ∧ t.running core = some k ∧ onlyIn [.fry] s t) ∧
  (∀ (s : State) (i : Iface) (k : Nat), s.mayAccess i fryCreate false = true → s.mayCreate i = true → s.getOf i fryNewCfg_AFFINITY ≠ 0 →
    s.getOf i fryNewCfg_POOL_EN = 0 → ((List.range 1024).find? fun t => (s.thr t).st == .free) = some k →
    answers (.threadCreate i) s fun t =>
      (t.thr k).st = .ready ∧ (t.thr k).prio = (if (s.c0Index k).isSome then 0 else s.getOf i fryNewCfg_PRIO) ∧ (t.thr k).affinity = s.getOf i fryNewCfg_AFFINITY ∧
      (t.thr k).pc = s.getOf i fryNewPc_PC * 4 ∧ t.sent = .readValue i (BitVec.ofNat 32 (2 ^ 31 + k)) :: s.sent ∧
      onlyIn [.fry, .sent] s t) ∧
  (∀ (s : State) (i : Iface) (k : Nat), k < 2 → s.mayAccess i (fryC0Stat k) false = true →
    answers (.c0StatRead i k) s fun t =>
      t.sent = .readValue i (s.reg (fryC0Stat k)) :: s.sent ∧ t.get (fryC0Stat_MAX k) = 0 ∧
      t.get (fryC0Stat_LAST k) = s.get (fryC0Stat_LAST k) ∧ onlyIn [.regs, .sent] s t ∧ keepsRegs [fryC0Stat k] s t) ∧
  (∀ (s : State) (i : Iface), s.mayAccess i fryCnt true = true →
    answers (.fryCntClear i) s fun t =>
      t.get fryCnt_FLOWWAIT = 0 ∧ t.get fryCnt_COALESCED = 0 ∧ onlyIn [.regs] s t ∧ keepsRegs [fryCnt] s t)

/-- On a running Oarsman n whose PC lies in its code, for every register number and immediate: ADD, SUB, AND, OR, XOR, SHL, SHR,
SRA (by gb and 31), MUL, MULH (bits 63:32 of the unsigned product), SLTU, SLT, and the immediate forms ADDI (imm sign-extended
from 18 bits), ANDI, ORI, XORI (zero-extended), SHLI, SHRI, LUI (imm shl 14) answer a next state in which gd holds the result,
the PC is one on, every other register, data memory and latch of the Oarsman, every other Oarsman and everything else but
OAR_BUSY_n is as before. Writing g0 changes no register, g0 reads 0; writing another register gives it the value and leaves the
others. The same results come for gd equal to a source: sources are read first. (R424, R425, R426) -/
def Obligations.OarsmanComputesInRegisters : Prop :=
  (∀ (s : State) (n gd ga gb : Nat) (a b : Word), oarRuns n s → a = (s.oarN n).gr ga → b = (s.oarN n).gr gb →
    answers (.opAdd n gd ga gb) s (fun t => oarWrites n gd (BitVec.ofNat 32 (a.toNat + b.toNat)) s t) ∧
    answers (.opSub n gd ga gb) s (fun t => oarWrites n gd (BitVec.ofInt 32 (a.toNat - b.toNat)) s t) ∧
    answers (.opAnd n gd ga gb) s (fun t => oarWrites n gd (a &&& b) s t) ∧
    answers (.opOr n gd ga gb) s (fun t => oarWrites n gd (a ||| b) s t) ∧
    answers (.opXor n gd ga gb) s (fun t => oarWrites n gd (a ^^^ b) s t) ∧
    answers (.opShl n gd ga gb) s (fun t => oarWrites n gd (BitVec.ofNat 32 (a.toNat * 2 ^ (b.toNat % 32))) s t) ∧
    answers (.opShr n gd ga gb) s (fun t => oarWrites n gd (BitVec.ofNat 32 (a.toNat / 2 ^ (b.toNat % 32))) s t) ∧
    answers (.opSra n gd ga gb) s (fun t => oarWrites n gd (BitVec.ofInt 32 (a.toInt / 2 ^ (b.toNat % 32))) s t) ∧
    answers (.opMul n gd ga gb) s (fun t => oarWrites n gd (BitVec.ofNat 32 (a.toNat * b.toNat)) s t) ∧
    answers (.opMulh n gd ga gb) s (fun t => oarWrites n gd (BitVec.ofNat 32 (a.toNat * b.toNat / 2 ^ 32)) s t) ∧
    answers (.opSltu n gd ga gb) s (fun t => oarWrites n gd (if a.toNat < b.toNat then 1 else 0) s t) ∧
    answers (.opSlt n gd ga gb) s (fun t => oarWrites n gd (if a.toInt < b.toInt then 1 else 0) s t)) ∧
  (∀ (s : State) (n gd ga imm : Nat) (a : Word), oarRuns n s → a = (s.oarN n).gr ga → imm < 2 ^ 18 →
    answers (.opAddi n gd ga imm) s (fun t =>
      oarWrites n gd (BitVec.ofInt 32 (a.toNat + (if imm < 2 ^ 17 then (imm : Int) else (imm : Int) - 2 ^ 18))) s t) ∧
    answers (.opAndi n gd ga imm) s (fun t => oarWrites n gd (a &&& BitVec.ofNat 32 imm) s t) ∧
    answers (.opOri n gd ga imm) s (fun t => oarWrites n gd (a ||| BitVec.ofNat 32 imm) s t) ∧
    answers (.opXori n gd ga imm) s (fun t => oarWrites n gd (a ^^^ BitVec.ofNat 32 imm) s t) ∧
    answers (.opShli n gd ga imm) s (fun t => oarWrites n gd (BitVec.ofNat 32 (a.toNat * 2 ^ (imm % 32))) s t) ∧
    answers (.opShri n gd ga imm) s (fun t => oarWrites n gd (BitVec.ofNat 32 (a.toNat / 2 ^ (imm % 32))) s t) ∧
    answers (.opLui n gd imm) s (fun t => oarWrites n gd (BitVec.ofNat 32 (imm * 2 ^ 14)) s t)) ∧
  (∀ (o : Oarsman) (r k : Nat) (v : Word),
    o.setG 0 v = o ∧ o.gr 0 = 0 ∧ (r ≠ 0 → (o.setG r v).gr r = v) ∧ (k ≠ r → (o.setG r v).gr k = o.gr k))

/-- What a store of bytes at a data address leaves: the bytes stand there, every other byte is as before, and the rest of the Oarsman but
its PC, which is one on. -/
abbrev obStored (n a : Nat) (bs : List Byte) (s t : State) : Prop :=
  getBytes (t.oarN n).mem a bs.length = bs ∧
  (∀ k ∈ List.range 0x2000, k < a ∨ a + bs.length ≤ k → smGet 0 (t.oarN n).mem k = smGet 0 (s.oarN n).mem k) ∧
  t.oarN n = { s.oarN n with mem := (t.oarN n).mem, pc := (s.oarN n).pc + 1 } ∧ oarOnly n s t

/-- On a running Oarsman whose PC lies in its code and whose addressed bytes lie within 0x0000 to 0x1FFF (words at multiples of
4): LDW and LDB bring the word, most significant byte at the lowest address, or the byte with zeros above it, to gd. STW stores
gd's four bytes and STB its low byte: every other byte reads as before. FEX brings the field of R427 (its first byte, first bit
from the most significant, width in imm) to gd with zeros above. FINS puts gd's low bits into the field: the bits above and
below it in the bytes it touches, and every byte outside these, read as before. LWX and LWP write the 8 bytes of a launch word,
STAMP the 20 bytes of a stamp record of rank 8. No form changes anything else but the PC, gd of the loads and OAR_BUSY_n. (R60,
R63, R424, R425, R426, R427, R429) -/
def Obligations.OarsmanReachesDataMemory : Prop :=
  (∀ (s : State) (n gd ga imm a : Nat), oarRuns n s → a = ((s.oarN n).gr ga + BitVec.ofInt 32 (toSigned 18 imm)).toNat → a + 4 ≤ 0x2000 → a % 4 = 0 →
    answers (.opLdw n gd ga imm) s (fun t => oarWrites n gd (BitVec.ofNat 32 (ofBe (getBytes (s.oarN n).mem a 4))) s t) ∧
    answers (.opStw n gd ga imm) s (fun t => obStored n a (be 4 ((s.oarN n).gr gd).toNat) s t)) ∧
  (∀ (s : State) (n gd ga imm a : Nat), oarRuns n s → a = ((s.oarN n).gr ga + BitVec.ofInt 32 (toSigned 18 imm)).toNat → a < 0x2000 →
    answers (.opLdb n gd ga imm) s (fun t => oarWrites n gd ((smGet 0 (s.oarN n).mem a).setWidth 32) s t) ∧
    answers (.opStb n gd ga imm) s (fun t => obStored n a [((s.oarN n).gr gd).setWidth 8] s t)) ∧
  (∀ (s : State) (n gd ga imm a skip w k : Nat), oarRuns n s → imm < 2 ^ 18 → a = ((s.oarN n).gr ga + BitVec.ofNat 32 (imm % 1024)).toNat →
    skip = imm / 1024 % 8 → w = imm / 8192 + 1 → k = (skip + w + 7) / 8 → a + k ≤ 0x2000 →
    answers (.opFex n gd ga imm) s (fun t =>
      oarWrites n gd (BitVec.ofNat 32 (ofBe (getBytes (s.oarN n).mem a k) / 2 ^ (8 * k - skip - w) % 2 ^ w)) s t) ∧
    answers (.opFins n gd ga imm) s (fun t =>
      ofBe (getBytes (t.oarN n).mem a k) / 2 ^ (8 * k - skip - w) % 2 ^ w = ((s.oarN n).gr gd).toNat % 2 ^ w ∧
      ofBe (getBytes (t.oarN n).mem a k) / 2 ^ (8 * k - skip) = ofBe (getBytes (s.oarN n).mem a k) / 2 ^ (8 * k - skip) ∧
      ofBe (getBytes (t.oarN n).mem a k) % 2 ^ (8 * k - skip - w) = ofBe (getBytes (s.oarN n).mem a k) % 2 ^ (8 * k - skip - w) ∧
      (∀ j ∈ List.range 0x2000, j < a ∨ a + k ≤ j → smGet 0 (t.oarN n).mem j = smGet 0 (s.oarN n).mem j) ∧
      t.oarN n = { s.oarN n with mem := (t.oarN n).mem, pc := (s.oarN n).pc + 1 } ∧ oarOnly n s t)) ∧
  (∀ (s : State) (n gd ga gb a x : Nat), oarRuns n s → a = ((s.oarN n).gr ga).toNat → a + 8 ≤ 0x2000 →
    x % 2 ^ 32 = ((s.oarN n).gr gb).toNat → x < 2 ^ 46 → (x : Int) - s.xing.num < 2 ^ 31 → -(2 ^ 31 : Int) ≤ (x : Int) - s.xing.num →
    answers (.opLwx n gd ga gb) s (fun t =>
      obStored n a (be 8 (2 ^ 63 + 2 ^ 62 + x * 2 ^ 16 + ((s.oarN n).gr gd).toNat % 2 ^ 16)) s t)) ∧
  (∀ (s : State) (n gd ga gb a : Nat), oarRuns n s → a = ((s.oarN n).gr ga).toNat → a + 8 ≤ 0x2000 →
    answers (.opLwp n gd ga gb) s (fun t =>
      obStored n a (be 8 (2 ^ 63 + ((s.oarN n).gr gb).toNat % 2 ^ 30 * 2 ^ 32 + ((s.oarN n).gr gd).toNat)) s t)) ∧
  (∀ (s : State) (n ga a : Nat), oarRuns n s → a = ((s.oarN n).gr ga).toNat → a + 20 ≤ 0x2000 →
    answers (.opStamp n ga) s (fun t =>
      obStored n a ({ ptp := s.clk.ptp, epoch := s.clk.epoch, xt := s.xt, rank := 8, flags := s.stampFlags : Stamp }.bytes) s t))

/-- On a running Oarsman whose PC lies in its code: BEQ, BNE, BLTU and BGEU (unsigned) set the PC to the target (12 bits) when
their condition holds on ga and gb, else one on. JMP sets it to the target. CALL puts PC + 1 in gd and the target in the PC;
into g0 it only jumps. JR sets it to ga bits 11:0. No register, no byte of data memory, no latch of the Oarsman changes
otherwise, no other Oarsman, and nothing else but OAR_BUSY_n. (R424, R425, R426) -/
def Obligations.OarsmanBranchesMoveThePc : Prop :=
  (∀ (s : State) (n ga gb target : Nat) (o : Oarsman), oarRuns n s → o = s.oarN n → target < 4096 →
    answers (.opBeq n ga gb target) s (fun t =>
      t.oarN n = { o with pc := if o.gr ga = o.gr gb then target else o.pc + 1 } ∧ oarOnly n s t) ∧
    answers (.opBne n ga gb target) s (fun t =>
      t.oarN n = { o with pc := if o.gr ga = o.gr gb then o.pc + 1 else target } ∧ oarOnly n s t) ∧
    answers (.opBltu n ga gb target) s (fun t =>
      t.oarN n = { o with pc := if (o.gr ga).toNat < (o.gr gb).toNat then target else o.pc + 1 } ∧ oarOnly n s t) ∧
    answers (.opBgeu n ga gb target) s (fun t =>
      t.oarN n = { o with pc := if (o.gr ga).toNat < (o.gr gb).toNat then o.pc + 1 else target } ∧ oarOnly n s t)) ∧
  (∀ (s : State) (n gd target : Nat) (o : Oarsman), oarRuns n s → o = s.oarN n → target < 4096 →
    answers (.opJmp n target) s (fun t => t.oarN n = { o with pc := target } ∧ oarOnly n s t) ∧
    answers (.opCall n gd target) s (fun t =>
      t.oarN n = { o.setG gd (BitVec.ofNat 32 (o.pc + 1)) with pc := target } ∧ oarOnly n s t)) ∧
  (∀ (s : State) (n ga : Nat) (o : Oarsman), oarRuns n s → o = s.oarN n →
    answers (.opJr n ga) s fun t => t.oarN n = { o with pc := (o.gr ga).toNat % 4096 } ∧ oarOnly n s t)

/-- On a running Oarsman n whose PC lies in its code, for every gd: XNOW with imm 0 captures PTP time, crossing time and the
stamp FLAGS of the state and returns crossing-number bits 31:0 in gd. Imm 1 to 5 return crossing-number bits 47:32, FRACTION,
PTP seconds bits 31:0, nanoseconds and the FLAGS byte of the last capture, changing no capture. Every other imm returns 0. The
PC is one on, nothing else of the Oarsman changes, no other Oarsman, nothing else but OAR_BUSY_n. (R430) -/
def Obligations.XnowReadsTheCapturedTime : Prop :=
  (∀ (s : State) (n gd : Nat), oarRuns n s →
    answers (.opXnow n gd 0) s fun t =>
      t.oarN n = { (s.oarN n).setG gd (BitVec.ofNat 32 (s.xt / 2 ^ 16)) with
        pc := (s.oarN n).pc + 1, capX := s.xt, capP := s.clk.ptp, capF := s.stampFlags } ∧ oarOnly n s t) ∧
  (∀ (s : State) (n gd imm : Nat) (v : Nat), oarRuns n s → 0 < imm → imm < 2 ^ 18 →
    v = (if imm = 1 then (s.oarN n).capX / 2 ^ 48 else if imm = 2 then (s.oarN n).capX % 2 ^ 16
      else if imm = 3 then (s.oarN n).capP / 1000000000 else if imm = 4 then (s.oarN n).capP % 1000000000
      else if imm = 5 then (s.oarN n).capF else 0) →
    answers (.opXnow n gd imm) s fun t => oarWrites n gd (BitVec.ofNat 32 v) s t)

/-- On a running Oarsman. POP of a queue it consumes, item deliverable and fitting: header words at ga, data from ga + 16, gd
bit 31 and LEN - 1; nothing deliverable: gd 0. PUSH of a valid descriptor to a credit-mode queue in its map, with room and no
armed perturbation: the item joins the tail, gd 0; no room, or another producer waiting: with NOWAIT gd 1 and nothing claimed,
else the Oarsman and the item wait. QOP on a retained queue: releases what was delivered, rewinds HEAD to MARK. FACQ: 1 and the
tag is its own when free and below the limit (128 for 7 to 10, else 4), 0 when another owner holds it, 2 at the limit. FREL of
its own tag frees it. TXT with an entry for it: gd the lowest free one. TXF: the entry is free. (R279, R280, R393, R399, R414,
R426, R428, R435) -/
def Obligations.OarsmanMovesItemsAndTags : Prop :=
  (∀ (s u : State) (n gd ga imm q a : Nat) (it : Item), oarRuns n s → gd ≠ 0 → q = imm % 256 → q ∈ (smGet {} s.man.oar n).consumes →
    s.deliver q = some (it, u) → a = ((s.oarN n).gr ga).toNat → a + 16 + 8 * it.data.length ≤ 0x2000 →
    answers (.opPop n gd ga imm) s fun t =>
      (t.oarN n).gr gd = BitVec.ofNat 32 (2 ^ 31 + (it.data.length - 1)) ∧ (t.oarN n).pc = (s.oarN n).pc + 1 ∧ (t.oarN n).st = .running ∧
      getBytes (t.oarN n).mem a 16 = be 8 it.hdr0.toNat ++ be 8 it.hdr1.toNat ∧
      getBytes (t.oarN n).mem (a + 16) (8 * it.data.length) = it.bytes ∧
      (∀ k ∈ List.range 0x2000, k < a ∨ a + 16 + 8 * it.data.length ≤ k → smGet 0 (t.oarN n).mem k = smGet 0 (s.oarN n).mem k) ∧
      (∀ r ∈ List.range 16, r ≠ gd → (t.oarN n).gr r = (s.oarN n).gr r) ∧ t.q q = u.q q) ∧
  (∀ (s : State) (n gd ga imm q : Nat), oarRuns n s → q = imm % 256 → q ∈ (smGet {} s.man.oar n).consumes → s.deliver q = none →
    answers (.opPop n gd ga imm) s fun t => oarWrites n gd 0 s t) ∧
  (∀ (s : State) (n gd ga imm q a ctrl d len : Nat), oarRuns n s → gd ≠ 0 → q = imm % 256 → q ∈ (smGet {} s.man.oar n).produces →
    s.qUsed q = true → s.flag (whfQCfg_FLAG q) = false → s.tst.entries = [] → a = ((s.oarN n).gr ga).toNat → a + 32 ≤ 0x2000 →
    ctrl = ofBe (getBytes (s.oarN n).mem a 4) → ctrl % 2 ^ 18 < 256 → len = ctrl % 2 ^ 18 + 1 →
    d = ofBe (getBytes (s.oarN n).mem (a + 4) 2) → d + 8 * len ≤ 0x2000 → ofBe (getBytes (s.oarN n).mem (a + 6) 2) = 0 →
    ofBe (getBytes (s.oarN n).mem (a + 28) 4) = 0 → (s.q q).waiters = [] → len + 2 ≤ s.qFree q →
    answers (.opPush n gd ga imm) s fun t =>
      (t.oarN n).gr gd = 0 ∧ (t.oarN n).pc = (s.oarN n).pc + 1 ∧ (t.oarN n).mem = (s.oarN n).mem ∧
      (∀ r ∈ List.range 16, r ≠ gd → (t.oarN n).gr r = (s.oarN n).gr r) ∧
      (t.q q).items = (s.q q).items ++ [{ mkItem (ctrl / 2 ^ 20) (if ctrl / 2 ^ 19 % 2 = 1 then Stamp.ofBytes (getBytes (s.oarN n).mem (a + 8) 20)
        else s.stamp 8) (getBytes (s.oarN n).mem d (8 * len)) with iseq := (s.q q).tail }]) ∧
  (∀ (s : State) (n gd ga imm q a ctrl d len : Nat), oarRuns n s → q = imm % 256 → q ∈ (smGet {} s.man.oar n).produces →
    s.qUsed q = true → s.flag (whfQCfg_FLAG q) = false → a = ((s.oarN n).gr ga).toNat → a + 32 ≤ 0x2000 →
    ctrl = ofBe (getBytes (s.oarN n).mem a 4) → ctrl % 2 ^ 18 < 256 → len = ctrl % 2 ^ 18 + 1 →
    d = ofBe (getBytes (s.oarN n).mem (a + 4) 2) → d + 8 * len ≤ 0x2000 → ofBe (getBytes (s.oarN n).mem (a + 6) 2) = 0 →
    ofBe (getBytes (s.oarN n).mem (a + 28) 4) = 0 → s.qFree q < len + 2 ∨ (s.q q).waiters ≠ [] →
    answers (.opPush n gd ga imm) s fun t =>
      (t.q q).items = (s.q q).items ∧
      (if ctrl / 2 ^ 18 % 2 = 1 then oarWrites n gd 1 s t
       else (t.oarN n).st = .waiting ∧ (t.oarN n).wait = .room gd ∧ (t.oarN n).pc = (s.oarN n).pc ∧
         (t.q q).waiters.map (fun w => w.prod) = (s.q q).waiters.map (fun w => w.prod) ++ [.oarsman n gd])) ∧
  (∀ (s : State) (n ga q : Nat), oarRuns n s → q < 256 → q ∈ (smGet {} s.man.oar n).consumes → s.qUsed q = true → s.flag (whfQCfg_RETAIN q) = true →
    answers (.opQop n ga (q + 0x500)) s (fun t =>
      (t.q q).items = (s.q q).items.drop ((s.q q).rel (s.q q).front).toNat ∧
      (t.q q).mark = ((s.q q).mark + ((s.q q).rel (s.q q).front).toNat) % 2 ^ 32 ∧ (t.oarN n).pc = (s.oarN n).pc + 1 ∧
      onlyIn (.whf :: evtParts) s t) ∧
    answers (.opQop n ga (q + 0x200)) s (fun t =>
      (t.q q).head = (s.q q).mark ∧ (t.q q).items = (s.q q).items ∧ (t.oarN n).pc = (s.oarN n).pc + 1 ∧ onlyIn (.whf :: evtParts) s t)) ∧
  (∀ (s : State) (n gd ga f limit : Nat), oarRuns n s → f = ((s.oarN n).gr ga).toNat % 4096 →
    limit = (if 7 ≤ n ∧ n ≤ 10 then 128 else 4) → s.flow f ≠ .oarsman n →
    answers (.opFacq n gd ga) s fun t =>
      if s.flow f ≠ .nobody then oarWrites n gd 0 s t
      else if limit ≤ (s.flows.filter fun p => p.2 = .oarsman n).length then oarWrites n gd 2 s t
      else t.oarN n = { (s.oarN n).setG gd 1 with pc := (s.oarN n).pc + 1 } ∧ t.flow f = .oarsman n ∧
        (∀ k ∈ List.range 4096, k ≠ f → t.flow k = s.flow k) ∧ onlyIn [.regs, .oar, .flows] s t ∧ keepsRegs [oarBusy n] s t) ∧
  (∀ (s : State) (n ga f : Nat), oarRuns n s → f = ((s.oarN n).gr ga).toNat % 4096 → s.flow f = .oarsman n →
    answers (.opFrel n ga) s fun t =>
      t.flow f = .nobody ∧ (∀ k ∈ List.range 4096, k ≠ f → t.flow k = s.flow k) ∧
      t.oarN n = { s.oarN n with pc := (s.oarN n).pc + 1 } ∧ onlyIn [.regs, .oar, .flows] s t ∧ keepsRegs [oarBusy n] s t) ∧
  (∀ (s : State) (n gd e : Nat), oarRuns n s → s.txnCan n = true → ((List.range 4096).find? fun e => smGet none s.txn.used e == none) = some e →
    answers (.opTxt n gd) s fun t =>
      t.oarN n = { (s.oarN n).setG gd (BitVec.ofNat 32 e) with pc := (s.oarN n).pc + 1 } ∧
      (∃ x, smGet none t.txn.used e = some x ∧ x.issuer = n) ∧
      (∀ k ∈ List.range 4096, k ≠ e → smGet none t.txn.used k = smGet none s.txn.used k) ∧ onlyIn [.regs, .oar, .txn] s t ∧
      keepsRegs [oarBusy n] s t) ∧
  (∀ (s : State) (n ga e : Nat), oarRuns n s → e = ((s.oarN n).gr ga).toNat → (smGet none s.txn.used e).isSome = true → s.txn.waiting = [] →
    answers (.opTxf n ga) s fun t =>
      smGet none t.txn.used e = none ∧ t.oarN n = { s.oarN n with pc := (s.oarN n).pc + 1 } ∧ onlyIn [.regs, .oar, .txn] s t ∧
      keepsRegs [oarBusy n] s t)

/-- On a running Oarsman. WAIT on mapped events: a set latch, the event in imm bits 8:0 first, is consumed and goes to gd at
once; with none it waits. OARSMAN_WAIT_END of an ended wait: gd the event, the PC one on, running, or halted when HALT was
written meanwhile. WAITX of an instant that has passed: gd 1; else it waits, and at WAITX_INSTANT_REACHED, once crossing time is
there, gd is 0 and it goes on. WAITU waits ga microseconds on the local counter; WAITU_EXPIRY, once they have passed, ends it.
SIGNAL: the PC one on and event 416 + n raised. TRAP: STATE trapped, cause 0x08, DETAIL and PC in OAR_TRAP_n, no tag and no open
group of it left, data memory and registers as they were. (R411, R426, R431, R436, R437, R441, R442) -/
def Obligations.OarsmanWaitsSignalsAndTraps : Prop :=
  (∀ (s : State) (n gd imm a b : Nat), oarRuns n s → a = imm % 512 → b = imm / 512 % 512 → a ∈ (smGet {} s.man.oar n).events →
    b ∈ (smGet {} s.man.oar n).events →
    answers (.opWait n gd imm) s fun t =>
      if a ∈ (s.oarN n).latches then
        t.oarN n = { (s.oarN n).setG gd (BitVec.ofNat 32 a) with pc := (s.oarN n).pc + 1, latches := (s.oarN n).latches.filter fun e => e ≠ a } ∧
        oarOnly n s t
      else if b ∈ (s.oarN n).latches then
        t.oarN n = { (s.oarN n).setG gd (BitVec.ofNat 32 b) with pc := (s.oarN n).pc + 1, latches := (s.oarN n).latches.filter fun e => e ≠ b } ∧
        oarOnly n s t
      else t.oarN n = { s.oarN n with st := .waiting, wait := .events gd a b none } ∧ oarOnly n s t) ∧
  (∀ (s : State) (n gd a b e : Nat), (s.oarN n).wait = .events gd a b (some e) →
    answers (.oarsmanWaitEnd n) s fun t =>
      t.oarN n = { (s.oarN n).setG gd (BitVec.ofNat 32 e) with wait := .none, pc := (s.oarN n).pc + 1, st := (if (s.oarN n).haltReq = true ∨ (s.oarN n).ebHalt = true then .halted else .running) } ∧
      onlyIn [.oar] s t) ∧
  (∀ (s : State) (n gd ga imm x w : Nat), oarRuns n s → x % 2 ^ 32 = ((s.oarN n).gr ga).toNat → (x : Int) - s.xing.num < 2 ^ 31 →
    -(2 ^ 31 : Int) ≤ (x : Int) - s.xing.num → w = x * 65536 + imm % 65536 →
    answers (.opWaitx n gd ga imm) s fun t =>
      if w ≤ s.xt then oarWrites n gd 1 s t
      else t.oarN n = { s.oarN n with st := .waiting, wait := .crossing gd w } ∧ oarOnly n s t) ∧
  (∀ (s : State) (n gd w : Nat), (s.oarN n).wait = .crossing gd w → w ≤ s.xt →
    answers (.waitxInstantReached n) s fun t =>
      t.oarN n = { (s.oarN n).setG gd 0 with wait := .none, pc := (s.oarN n).pc + 1, st := (if (s.oarN n).haltReq = true ∨ (s.oarN n).ebHalt = true then .halted else .running) } ∧
      onlyIn [.oar] s t) ∧
  (∀ (s : State) (n ga : Nat), oarRuns n s →
    answers (.opWaitu n ga) s fun t =>
      t.oarN n = { s.oarN n with st := .waiting, wait := .micros (s.clk.mono + ((s.oarN n).gr ga).toNat * 1000) } ∧ oarOnly n s t) ∧
  (∀ (s : State) (n w : Nat), (s.oarN n).wait = .micros w → w ≤ s.clk.mono →
    answers (.waituExpiry n) s fun t =>
      t.oarN n = { s.oarN n with wait := .none, pc := (s.oarN n).pc + 1, st := (if (s.oarN n).haltReq = true ∨ (s.oarN n).ebHalt = true then .halted else .running) } ∧
      onlyIn [.oar] s t) ∧
  (∀ (s : State) (n : Nat), oarRuns n s → n < 16 →
    answers (.opSignal n) s fun t =>
      (t.oarN n).pc = (s.oarN n).pc + 1 ∧ (t.oarN n).g = (s.oarN n).g ∧ (t.oarN n).mem = (s.oarN n).mem ∧ t.fry = (s.raise (416 + n)).fry ∧
      (s.get ⟨oarEvtEn, 16 + n, 16 + n⟩ = 0 → t.oarN n = { s.oarN n with pc := (s.oarN n).pc + 1 } ∧ oarOnly n s t) ∧
      onlyIn evtParts s t ∧ keepsRegs [oarBusy n, fryCnt] s t) ∧
  (∀ (s : State) (n imm : Nat), oarRuns n s → n < 16 → (s.oarN n).pc < 4096 → s.txn.used = [] →
    answers (.opTrap n imm) s fun t =>
      (t.oarN n).st = .trapped ∧ (t.oarN n).g = (s.oarN n).g ∧ (t.oarN n).mem = (s.oarN n).mem ∧ (t.oarN n).jobs = [] ∧
      t.get (oarTrap_CAUSE n) = 8 ∧ t.get (oarTrap_DETAIL n) = imm % 256 ∧ t.get (oarTrap_PC n) = (s.oarN n).pc ∧
      t.get (oarCount_TRAPS n) = satAdd (s.get (oarCount_TRAPS n)) 1 65535 ∧
      (∀ p ∈ t.flows, p.2 ≠ .oarsman n) ∧ (∀ p ∈ t.cmt.groups, p.2.issuer = n → p.2.st ≠ .opened))

/-- Whether an Oarsman waits for neither the result of job k nor room for another job. -/
def obElse (o : Oarsman) (k : Nat) : Bool :=
  match o.wait with
  | .job _ x => x != k
  | .submit _ _ => false
  | _ => true

/-- On a running Oarsman. HSUB of a valid, permitted descriptor with a tag free: gd the tag, whose job stands without a result
(SHAKE256 of data memory, or KMAC256 under a slot key that may be used); with four outstanding it waits. HASH_JOB_COMPLETE of a
job that an engine serves: the result stands, the output of a job that ended with 0 is in data memory, a Keccak engine that was
to be parked is; an Oarsman that waits for it gets the result; of one that no engine serves: nothing. HWAIT: a standing result
goes to gd and the tag is free, else it waits. COPEN: gd bit 31 and a free number, OPEN for it; 0x07 for a reserved group asked
by another than 12 and 13; 0x08 in a warning. CSTAGE, CSEAL and CABORT of its own OPEN group: result 0 in gd; the action is
last, the group VISIBLE, the number free. CWAITD: 0 for DURABLE, else it waits. (R261, R344, R346, R354, R357, R362, R432, R433,
R434, R436, R561) -/
def Obligations.OarsmanJobsAndCommitGroups : Prop :=
  (∀ (s : State) (n gd ga a k : Nat) (d : HashDesc), oarRuns n s → gd ≠ 0 → a = ((s.oarN n).gr ga).toNat → a + 32 ≤ 0x2000 →
    d = (s.oarN n).hashDesc a → d.ok n = true → d.inRange = true → s.hashGranted n d = true → (s.oarN n).freeTag = some k →
    answers (.opHsub n gd ga) s fun t =>
      (t.oarN n).gr gd = BitVec.ofNat 32 k ∧ (t.oarN n).pc = (s.oarN n).pc + 1 ∧ (t.oarN n).mem = (s.oarN n).mem ∧
      (∀ r ∈ List.range 16, r ≠ gd → (t.oarN n).gr r = (s.oarN n).gr r) ∧
      smGet none (t.oarN n).jobs k ≠ none ∧ (∀ j ∈ smGet none (t.oarN n).jobs k, j.result = none ∧
        (d.fromBuf = false → d.func = 3 → j.code = 0 ∧ j.outAddr = d.outAddr ∧
          j.out = padTo d.outLen (shake256 (getBytes (s.oarN n).mem (d.inAddr % 2 ^ 13) d.inLen) d.outLen)) ∧
        (d.fromBuf = false → d.func = 2 → d.keySrc = 1 → (s.keyFor (d.key % 1024) 0).isSome = true → j.code = 0 ∧ j.outAddr = d.outAddr ∧
          j.out = padTo d.outLen (kmac256 ((s.keyFor (d.key % 1024) 0).getD []) (getBytes (s.oarN n).mem (d.inAddr % 2 ^ 13) d.inLen) (8 * d.outLen) d.custBytes))) ∧
      (∀ x ∈ List.range 4, x ≠ k → smGet none (t.oarN n).jobs x = smGet none (s.oarN n).jobs x) ∧
      (∀ x ∈ List.range 16, x ≠ n → t.oarN x = s.oarN x) ∧ onlyIn [.regs, .oar, .pwr] s t ∧ keepsRegs [oarBusy n] s t) ∧
  (∀ (s : State) (n gd ga a : Nat) (d : HashDesc), oarRuns n s → a = ((s.oarN n).gr ga).toNat → a + 32 ≤ 0x2000 →
    d = (s.oarN n).hashDesc a → d.ok n = true → d.inRange = true → s.hashGranted n d = true → (s.oarN n).freeTag = none →
    answers (.opHsub n gd ga) s fun t => t.oarN n = { s.oarN n with st := .waiting, wait := .submit gd ga } ∧ oarOnly n s t) ∧
  (∀ (s : State) (n gd ga k : Nat) (j : HashJob), oarRuns n s → k = ((s.oarN n).gr ga).toNat → smGet none (s.oarN n).jobs k = some j →
    answers (.opHwait n gd ga) s fun t =>
      (∀ v ∈ j.result, t.oarN n = { (s.oarN n).setG gd (BitVec.ofNat 32 v) with
        pc := (s.oarN n).pc + 1, jobs := smPut none (s.oarN n).jobs k none }) ∧
      (j.result = none → t.oarN n = { s.oarN n with st := .waiting, wait := .job gd k }) ∧ oarOnly n s t) ∧
  (∀ (s : State) (n k code : Nat) (j : HashJob) (p : Bool), smGet none (s.oarN n).jobs k = some j → j.result = none →
    (s.pwr.serving.find? fun x => x.1 == n && x.2.1 == k) = some (n, k, j.ord) → code = (if p = true then 3 else j.code) → obElse (s.oarN n) k = true →
    answers (.hashJobComplete n k p) s fun t =>
      smGet none (t.oarN n).jobs k = some { j with result := some code } ∧ (t.oarN n).g = (s.oarN n).g ∧
      (if code = 0 then getBytes (t.oarN n).mem j.outAddr j.out.length = j.out else (t.oarN n).mem = (s.oarN n).mem) ∧
      (∀ i ∈ List.range 0x2000, i < j.outAddr ∨ j.outAddr + j.out.length ≤ i → smGet 0 (t.oarN n).mem i = smGet 0 (s.oarN n).mem i) ∧
      onlyIn [.oar, .pwr] s t ∧ t.pwr.parking = s.pwr.parking - 1) ∧
  (∀ (s : State) (n k : Nat) (p : Bool), (s.pwr.serving.find? fun x => x.1 == n && x.2.1 == k) = none →
    answers (.hashJobComplete n k p) s fun t => t = s) ∧
  (∀ (s : State) (n gd k code : Nat) (j : HashJob) (p : Bool), gd ≠ 0 → smGet none (s.oarN n).jobs k = some j → j.result = none →
    (s.pwr.serving.find? fun x => x.1 == n && x.2.1 == k) = some (n, k, j.ord) → code = (if p = true then 3 else j.code) →
    (s.oarN n).wait = .job gd k →
    answers (.hashJobComplete n k p) s fun t =>
      smGet none (t.oarN n).jobs k = none ∧ (t.oarN n).gr gd = BitVec.ofNat 32 code ∧ (t.oarN n).wait = .none ∧
      (t.oarN n).pc = (s.oarN n).pc + 1 ∧ onlyIn [.oar, .pwr] s t) ∧
  (∀ (s : State) (n gd imm g : Nat), oarRuns n s → s.warned = false →
    (imm % 2 = 1 → n = 12 ∨ n = 13) →
    (((if imm % 2 = 1 then [60, 61, 62, 63] else List.range 60).find? fun g => !(s.grp g).held) = some g) →
    answers (.opCopen n gd imm) s fun t =>
      t.oarN n = { (s.oarN n).setG gd (BitVec.ofNat 32 (2 ^ 31 + g)) with pc := (s.oarN n).pc + 1 } ∧ (t.grp g).st = .opened ∧
      (t.grp g).issuer = n ∧ (t.grp g).actions = [] ∧ (∀ k ∈ List.range 64, k ≠ g → t.grp k = s.grp k) ∧
      onlyIn [.regs, .oar, .cmt] s t ∧ keepsRegs [oarBusy n] s t) ∧
  (∀ (s : State) (n gd imm : Nat), oarRuns n s → s.warned = true ∨ (imm % 2 = 1 ∧ n ≠ 12 ∧ n ≠ 13) →
    answers (.opCopen n gd imm) s fun t => oarWrites n gd (if s.warned = true then 0x800 else 0x700) s t) ∧
  (∀ (s : State) (n gd ga g a : Nat) (x : Action), oarRuns n s → g < 64 → a = ((s.oarN n).gr ga).toNat → a + 32 ≤ 0x2000 →
    x = Action.ofBytes (getBytes (s.oarN n).mem a 32) → s.warned = false → (s.grp g).st = .opened → (s.grp g).issuer = n →
    s.actionValid g n x = true → (s.grp g).actions.length < 256 → s.placesUsed false < 7168 →
    s.conflict g x = false → s.actionCredit x = true →
    answers (.opCstage n gd ga g) s fun t =>
      (t.grp g).actions = (s.grp g).actions ++ [x] ∧ (t.grp g).st = .opened ∧ t.oarN n = { (s.oarN n).setG gd 0 with pc := (s.oarN n).pc + 1 }) ∧
  (∀ (s : State) (n gd g : Nat), oarRuns n s → gd ≠ 0 → g < 64 → s.warned = false → (s.grp g).st = .opened → (s.grp g).issuer = n →
    (s.grp g).actions.any Action.late = false → s.val.group = none →
    answers (.opCseal n gd g) s fun t =>
      (t.grp g).st = .visible ∧ (t.grp g).jseq = s.cmt.next ∧ t.cmt.next = s.cmt.next + 1 ∧ (t.oarN n).gr gd = 0 ∧
      (t.oarN n).pc = (s.oarN n).pc + 1 ∧ (t.oarN n).st = .running) ∧
  (∀ (s : State) (n gd g : Nat), oarRuns n s → gd ≠ 0 → g < 64 → (s.grp g).st = .opened → (s.grp g).issuer = n →
    answers (.opCabort n gd g) s fun t =>
      t.grp g = {} ∧ (∀ k ∈ List.range 64, k ≠ g → t.grp k = s.grp k) ∧ (t.oarN n).gr gd = 0 ∧ (t.oarN n).pc = (s.oarN n).pc + 1) ∧
  (∀ (s : State) (n gd g : Nat), oarRuns n s → g < 64 → (s.grp g).issuer = n → (s.grp g).st ≠ .free →
    answers (.opCwaitd n gd g) s fun t =>
      if (s.grp g).st = .durable then oarWrites n gd 0 s t
      else t.oarN n = { s.oarN n with st := .waiting, wait := .group gd g } ∧ oarOnly n s t)

/-- What a restart leaves of an Oarsman (R437). -/
abbrev obRestarted (n : Nat) (s t : State) : Prop :=
  (t.oarN n).st = .running ∧ (t.oarN n).pc = 0 ∧ (t.oarN n).g = [] ∧ (t.oarN n).latches = [] ∧ (t.oarN n).wait = .none ∧
  (∀ k ∈ List.range 0x2000, smGet 0 (t.oarN n).mem k = (smGet {} s.man.oar n).data.getD k 0) ∧
  t.get (oarCount_RESTARTS n) = satAdd (s.get (oarCount_RESTARTS n)) 1 65535 ∧
  (∀ k ∈ List.range 16, k ≠ n → t.oarN k = s.oarN k) ∧ onlyIn [.regs, .oar] s t ∧ keepsRegs [oarCtrl n, oarCount n] s t

/-- OARSMAN_RESTART of a trapped or halted Oarsman by an interface that may write OAR_CTRL_n (12 and 13: only where the seal
allows): it runs at PC 0, g1 to g15 0, no latch, data memory the Manifest's image, the rest 0; RESTARTS counts. OARSMAN_HALT: a
running one is halted, one that waits goes on waiting with the halt noted; OARSMAN_RESUME: a halted one that Ebfin does not hold
runs. SEAL_CORE_RESTART restarts a trapped 12 or 13. EBFIN_HALT halts; EBFIN_STEP of a halted one runs the word at its PC (an
ADDI gives its sum, an unlisted opcode traps with cause 0x01) and leaves it halted; EBFIN_ACCESS reads and writes general
registers and data memory. (R425, R426, R436, R437, R438, R440, R442) -/
def Obligations.OarsmanIsRestartedHaltedAndDebugged : Prop :=
  (∀ (s : State) (i : Iface) (n : Nat), n < 16 → s.mayAccess i (oarCtrl n) true = true → s.oarControl i n = true →
    (s.oarN n).st = .trapped ∨ (s.oarN n).st = .halted →
    answers (.oarsmanRestart i n) s fun t => obRestarted n s t) ∧
  (∀ (s : State) (i : Iface) (n : Nat), n < 16 → s.mayAccess i (oarCtrl n) true = true → s.oarControl i n = true →
    answers (.oarsmanHalt i n) s (fun t =>
      t.oarN n = { s.oarN n with haltReq := true, st := (if (s.oarN n).st = .running then .halted else (s.oarN n).st) } ∧
      (∀ k ∈ List.range 16, k ≠ n → t.oarN k = s.oarN k) ∧ onlyIn [.regs, .oar] s t ∧ keepsRegs [oarCtrl n] s t) ∧
    answers (.oarsmanResume i n) s (fun t =>
      t.oarN n = { s.oarN n with haltReq := false, st := (if (s.oarN n).st = .halted ∧ (s.oarN n).ebHalt = false then .running else (s.oarN n).st) } ∧
      (∀ k ∈ List.range 16, k ≠ n → t.oarN k = s.oarN k) ∧ onlyIn [.regs, .oar] s t ∧ keepsRegs [oarCtrl n] s t)) ∧
  (∀ (s : State) (n : Nat), n = 12 ∨ n = 13 → (s.oarN n).st = .trapped →
    answers (.sealCoreRestart n) s fun t => obRestarted n s t) ∧
  (∀ (s : State) (n : Nat), s.oarControl .ebfin n = true →
    answers (.ebfinHalt n) s fun t =>
      t.oarN n = { s.oarN n with ebHalt := true, st := (if (s.oarN n).st = .running then .halted else (s.oarN n).st) } ∧
      (∀ k ∈ List.range 16, k ≠ n → t.oarN k = s.oarN k) ∧ onlyIn [.oar] s t) ∧
  (∀ (s : State) (n : Nat) (w : Word), s.oarControl .ebfin n = true → (s.oarN n).st = .halted →
    (smGet {} s.man.oar n).code[(s.oarN n).pc]? = some w → bitsOf w 31 26 = 0x10 →
    answers (.ebfinStep n) s fun t =>
      t.oarN n = { (s.oarN n).setG (bitsOf w 25 22) ((s.oarN n).gr (bitsOf w 21 18) + BitVec.ofInt 32 (toSigned 18 (bitsOf w 17 0))) with
        pc := (s.oarN n).pc + 1 } ∧ oarOnly n s t) ∧
  (∀ (s : State) (n : Nat) (w : Word), s.oarControl .ebfin n = true → (s.oarN n).st = .halted → (s.oarN n).pc < 4096 →
    (smGet {} s.man.oar n).code[(s.oarN n).pc]? = some w → bitsOf w 31 26 ∈ [0x17, 0x27, 0x2F, 0x36, 0x37, 0x3D, 0x3F] → s.txn.used = [] →
    answers (.ebfinStep n) s fun t =>
      (t.oarN n).st = .trapped ∧ t.get (oarTrap_CAUSE n) = 1 ∧ t.get (oarTrap_PC n) = (s.oarN n).pc ∧ (t.oarN n).g = (s.oarN n).g) ∧
  (∀ (s : State) (n r : Nat) (v : Word), s.oarControl .ebfin n = true → r < 16 →
    answers (.ebfinAccess n (.readReg r)) s (fun t => t.sent = .readValue .ebfin ((s.oarN n).gr r) :: s.sent ∧ onlyIn [.sent] s t) ∧
    answers (.ebfinAccess n (.writeReg r v)) s (fun t => t.oarN n = (s.oarN n).setG r v ∧
      (∀ k ∈ List.range 16, k ≠ n → t.oarN k = s.oarN k) ∧ onlyIn [.oar] s t)) ∧
  (∀ (s : State) (n a : Nat) (v : Byte), s.oarControl .ebfin n = true → a < 0x2000 →
    answers (.ebfinAccess n (.readMem a)) s (fun t =>
      t.sent = .readValue .ebfin ((smGet 0 (s.oarN n).mem a).setWidth 32) :: s.sent ∧ onlyIn [.sent] s t) ∧
    answers (.ebfinAccess n (.writeMem a v)) s (fun t =>
      smGet 0 (t.oarN n).mem a = v ∧ (∀ k ∈ List.range 0x2000, k ≠ a → smGet 0 (t.oarN n).mem k = smGet 0 (s.oarN n).mem k) ∧
      t.oarN n = { s.oarN n with mem := (t.oarN n).mem } ∧ (∀ k ∈ List.range 16, k ≠ n → t.oarN k = s.oarN k) ∧ onlyIn [.oar] s t))

/-- On a running Oarsman n, for the word address that ga plus the sign-extended imm names (its low two bits dropped). Granted
for writing: XST stores gd's word in an event enable register at its fields, as a register write by the Oarsman does, and only
there. Granted for reading: XLD brings that register's word to gd. Not granted: both trap with cause 0x03, the Oarsman's
registers and data memory and the word at the address stay as they were. REGACCESS_RECEIVED of a valid message of the head end
to be processed: OP 2 writes the register as a register write by the head end does, OP 1 changes no register of the block; the
answer, the OP, the address and the word, is among the messages kept to be acknowledged, when nothing waited and fewer than 64
were unacknowledged. (R15, R17, R18, R43, R215, R221, R426, R436) -/
def Obligations.RegistersAreReachedOverTheFabric : Prop :=
  (∀ (s : State) (n gd ga imm a : Nat) (d : RegDesc), oarRuns n s → a = ((s.oarN n).gr ga + BitVec.ofInt 32 (toSigned 18 imm)).toNat / 4 * 4 →
    a ∈ plainEnables → regDesc? a = some d → s.mayAccess (.oarsman n) a true = true →
    answers (.opXst n gd ga imm) s fun t =>
      t.reg a = writeFields (.oarsman n) a s.sealOpen d.fields (s.reg a) ((s.oarN n).gr gd) ∧
      t.oarN n = { s.oarN n with pc := (s.oarN n).pc + 1 } ∧ (∀ k ∈ List.range 16, k ≠ n → t.oarN k = s.oarN k) ∧
      onlyIn [.regs, .oar] s t ∧ keepsRegs [a, oarBusy n] s t) ∧
  (∀ (s : State) (n gd ga imm a : Nat), oarRuns n s → a = ((s.oarN n).gr ga + BitVec.ofInt 32 (toSigned 18 imm)).toNat / 4 * 4 →
    a ∈ plainEnables → s.mayAccess (.oarsman n) a false = true →
    answers (.opXld n gd ga imm) s fun t => oarWrites n gd (s.reg a) s t) ∧
  (∀ (s : State) (n gd ga imm a : Nat), oarRuns n s → n < 16 → s.txn.used = [] → a ∈ plainEnables →
    a = ((s.oarN n).gr ga + BitVec.ofInt 32 (toSigned 18 imm)).toNat / 4 * 4 → s.mayAccess (.oarsman n) a false = false →
    s.mayAccess (.oarsman n) a true = false →
    answers (.opXld n gd ga imm) s (fun t =>
      (t.oarN n).st = .trapped ∧ t.get (oarTrap_CAUSE n) = 3 ∧ (t.oarN n).g = (s.oarN n).g ∧ (t.oarN n).mem = (s.oarN n).mem ∧ t.reg a = s.reg a) ∧
    answers (.opXst n gd ga imm) s (fun t =>
      (t.oarN n).st = .trapped ∧ t.get (oarTrap_CAUSE n) = 3 ∧ (t.oarN n).g = (s.oarN n).g ∧ (t.oarN n).mem = (s.oarN n).mem ∧ t.reg a = s.reg a)) ∧
  (∀ (s u : State) (b : List Byte) (a v : Nat) (d : RegDesc), s.gwyTake b = some (true, u) → beAt b 6 2 = 0xFFFF → beAt (gwyBody b) 0 1 = 2 →
    a = beAt (gwyBody b) 4 4 → v = beAt (gwyBody b) 8 4 → a ∈ plainEnables → regDesc? a = some d → u.mayAccess .headEnd a true = true →
    (u.peer 0xFFFF).waiting = [] → (u.peer 0xFFFF).out.length < 64 →
    answers (.regaccessReceived b) s fun t =>
      t.reg a = writeFields .headEnd a u.sealOpen d.fields (u.reg a) (BitVec.ofNat 32 v) ∧
      ∃ m ∈ (t.peer 0xFFFF).out, m.typ = 0x0B ∧ m.body = be 1 2 ++ be 3 0 ++ be 4 a ++ be 4 v) ∧
  (∀ (s u : State) (b : List Byte) (a : Nat), s.gwyTake b = some (true, u) → beAt b 6 2 = 0xFFFF → beAt (gwyBody b) 0 1 = 1 →
    a = beAt (gwyBody b) 4 4 → a ∈ plainEnables → u.mayAccess .headEnd a false = true →
    (u.peer 0xFFFF).waiting = [] → (u.peer 0xFFFF).out.length < 64 →
    answers (.regaccessReceived b) s fun t =>
      t.reg a = u.reg a ∧ ∃ m ∈ (t.peer 0xFFFF).out, m.typ = 0x0B ∧ m.body = be 1 1 ++ be 3 0 ++ be 4 a ++ be 4 (u.reg a).toNat)

/-- With no perturbation armed, of work whose turn has come. NAND_PROGRAM_DONE of a page of a logical block without a data
block: a free block of its pool becomes the data block and holds the page; with a data block and an open log block with room:
the page is the log block's next. PLACEMENT_WINDOW_EXPIRY of a gathered page whose window has run: it is to be programmed, as
NAND work. Journal bytes fill the flush area; drained Logbook records stand in the ring; map records make discards durable. A
failed journal program or erase retires the block, RETIRED counts. NAND_ERASE_DONE, no move, merge or refresh due: free with one
more P/E cycle. NAND_READ_DONE: over 48 corrected bits counts a refresh; up to 48 and no uncorrectable codeword change nothing;
uncorrectable codewords count, retire the block and mark the page. MERGE_SWITCH, the merge record durable, with no discard
meanwhile and nothing else due: the destination is the data block, old and log block are to be erased, event 433. HOLD_MOUNT
once the Manifest is verified, LPDDR5 trained and the Hold's supply there or waited for, out of rescue and warning: mounted and
phase 2 where the dies on both channels are as many as the Manifest says, each with pages of 16 KiB and its erase block size,
and together its blocks; else storage-failed and phase 5. (R444, R448, R449, R450, R453, R454, R456, R457, R458, R465, R471,
R522) -/
def Obligations.HoldBlocksArePlacedMergedAndRetired : Prop :=
  (∀ (s : State) (b l page d : Nat), s.tst.entries = [] → s.nandWaits (.place l page) = false → s.dataBlk l = none →
    s.takeFree (s.lkeyPool l) = some d →
    answers (.nandProgramDone b (.page l page) true) s fun t =>
      t.dataBlk l = some d ∧ (t.blk d).use = .data l ∧ (t.blk d).pages = (s.blk d).pages ++ [page] ∧
      (∀ k ∈ List.range 64, k ≠ d → t.blk k = s.blk k) ∧ l * 65536 + page ∉ t.hld.poisonPages ∧ onlyIn [.hld, .nand] s t) ∧
  (∀ (s : State) (b l page g old : Nat), s.tst.entries = [] → s.nandWaits (.place l page) = false → s.dataBlk l = some old →
    s.openLog l = some g → (s.blk g).pages.length + 1 < s.lbPages l →
    answers (.nandProgramDone b (.page l page) true) s fun t =>
      (t.blk g).pages = (s.blk g).pages ++ [page] ∧ (t.blk g).use = (s.blk g).use ∧ t.dataBlk l = some old ∧
      (∀ k ∈ List.range 64, k ≠ g → t.blk k = s.blk k) ∧ onlyIn [.hld, .nand] s t) ∧
  (∀ (s : State) (l page w : Nat) (x : PageBuf), x ∈ s.nand.pages → x.lkey = l → x.page = page → x.due = false → x.window = some w →
    x.opened + w ≤ s.clk.mono →
    answers (.placementWindowExpiry l page) s fun t =>
      (t.nand.pages.all fun y => decide (y.lkey ≠ l) || decide (y.page ≠ page) || y.due) = true ∧
      (t.nand.work.any fun v => v.kind == .place l page) = true ∧ onlyIn [.nand] s t) ∧
  (∀ (s : State) (b n k : Nat), s.tst.entries = [] → s.journalWaits = false → s.nandWaits .mapRec = false → k ≤ s.lgb.buf.length →
    answers (.nandProgramDone b (.journal n) true) s (fun t =>
      t.hld.flushUsed = s.hld.flushUsed + n ∧ onlyIn (.hld :: .nand :: evtParts) s t) ∧
    answers (.nandProgramDone b (.logbook k n) true) s (fun t =>
      t.lgb.ring = s.lgb.ring ++ s.lgb.buf.take k ∧ t.lgb.buf = s.lgb.buf.drop k ∧ t.hld.flushUsed = s.hld.flushUsed + n) ∧
    answers (.nandProgramDone b (.mapRecords n) true) s (fun t =>
      t.hld.mapPending = 0 ∧ (∀ d ∈ t.hld.discards, d.durable = true) ∧ onlyIn (.hld :: .nand :: evtParts) s t)) ∧
  (∀ (s : State) (b n : Nat), s.tst.entries = [] → s.journalWaits = false → s.nandWaits (.erase b) = false →
    (s.blk b).use = .erasing ∨ ((s.blk b).use = .flushArea ∧ s.flushReusable = true) →
    answers (.nandProgramDone b (.journal n) false) s (fun t =>
      (t.blk b).use = .retired ∧ t.get (hldSpare_RETIRED (s.poolOf b)) = satAdd (s.get (hldSpare_RETIRED (s.poolOf b))) 1 65535) ∧
    answers (.nandEraseDone b false) s (fun t =>
      (t.blk b).use = .retired ∧ t.get (hldSpare_RETIRED (s.poolOf b)) = satAdd (s.get (hldSpare_RETIRED (s.poolOf b))) 1 65535)) ∧
  (∀ (s : State) (b : Nat), s.tst.entries = [] → s.nandWaits (.erase b) = false → s.mergeDue = none →
    (s.hld.blocks.all fun p => !p.2.refresh) = true → (s.blk b).use = .erasing → smGet 0 s.hld.erases (s.poolOf b) + 1 < 64 →
    answers (.nandEraseDone b true) s fun t =>
      t.blk b = { pool := (s.blk b).pool, pe := (s.blk b).pe + 1 } ∧ (∀ k ∈ List.range 64, k ≠ b → t.blk k = s.blk k) ∧
      smGet 0 t.hld.erases (s.poolOf b) = smGet 0 s.hld.erases (s.poolOf b) + 1 ∧ onlyIn (.hld :: .nand :: evtParts) s t) ∧
  (∀ (s : State) (b lkey page bits bad : Nat), s.tst.entries = [] → bits ≤ 48 →
    answers (.nandReadDone b lkey page bits bad) s fun t =>
      if bad = 0 then t = s
      else (t.blk b).use = .retired ∧ lkey * 65536 + page ∈ t.hld.poisonPages ∧
        t.get hldEcc_UNCORR = satAdd (s.get hldEcc_UNCORR) bad 32767) ∧
  (∀ (s : State) (b lkey page bits : Nat), s.tst.entries = [] → 48 < bits →
    answers (.nandReadDone b lkey page bits 0) s fun t => t.get hldEcc_REFRESH = satAdd (s.get hldEcc_REFRESH) 1 65535 ∧
      onlyIn (.hld :: .nand :: evtParts) s t) ∧
  (∀ (s : State) (l : Nat) (m : Merge), (s.hld.merges.find? fun m => m.lb == l) = some m → s.nandWaits (.merge l) = false → m.logged = true →
    (s.hld.merges.any fun x => x.lb == l && x.drop) = false →
    (s.hld.blocks.all fun p => !p.2.refresh) = true → s.onlyFullLog m.logBlk = true →
    answers (.mergeSwitch l) s fun t =>
      t.dataBlk l = some m.dst ∧ (t.blk m.dst).use = .data l ∧ (∀ x ∈ t.hld.merges, x.lb ≠ l) ∧
      (∀ g ∈ m.logBlk, g ≠ m.dst → (t.blk g).use = .erasing) ∧ (∀ g ∈ s.dataBlk l, g ≠ m.dst → (t.blk g).use = .erasing) ∧
      t.hld.flushUsed = s.hld.flushUsed + Config.mapRecordBytes ∧ t.get hldMerge_COUNT = (s.get hldMerge_COUNT + 1) % 65536 ∧
      (s.evtOn 433 = true → s.waitersOn 433 = [] → 433 ∈ t.fry.latches) ∧ onlyIn (.hld :: .nand :: evtParts) s t) ∧
  (∀ (s : State) (a b : List DieParam) (reads : List SealRead), s.pwr.verified = true → s.pwr.trained = true → s.pwr.mounted = false →
    s.flag pwrStat_STORAGE_FAIL = false → s.flag mftStat_RESCUE = false → s.warned = false →
    s.flag pwrStat_HOLD_OK = true ∨ s.pwr.waited = true →
    answers (.holdMount a b reads) s fun t =>
      if (a ++ b).length = s.man.dies ∧ (∀ d ∈ a ++ b, d.page = 16384 ∧ d.block = s.man.blockBytes) ∧
          ((a ++ b).map (·.count)).sum = s.man.tlcBlocks + s.man.slcBlocks then
        t.pwr.mounted = true ∧ t.get hldStat_MOUNTED = 1 ∧ t.get pwrStat_PHASE = 2 ∧ t.bal.recs = s.bal.ckRecs
      else t.pwr.mounted = false ∧ t.get hldStat_GEOMETRY = 1 ∧ t.get pwrStat_STORAGE_FAIL = 1 ∧ t.get pwrStat_PHASE = 5 ∧ t.live = s.live)

/-- HOLD_READ, HOLD_DISCARD and HOLD_TRIM by an interface that may write HLD_CMD, with no operation running: refused, RESULT
says why (0x03 in a warning) and nothing of the Hold changes; else the operation runs, BUSY is 1. HOLD_CMD_COMPLETE: a read,
whose turn has come, puts its bytes into the LPDDR5 used (of a region that is no stream and holds no sealed record there, those
last written) and nothing else there (RESULT 0x05 where a page reads poisoned); a discarded range reads 0, what lies outside it
as before; a trim moves HEAD forward, to TAIL at most; BUSY is 0. STREAM_QUERY captures kind, fill, HEAD and TAIL and clears
FULL. HLD_ECC_CLEAR: both counters 0. FLUSH_COMPLETE, once, of a flush in a warning that no reset follows: every journal record
durable, the Logbook buffer in the ring, FLUSHING 0. (R446, R447, R453, R457, R459, R460, R462, R463, R467, R513) -/
def Obligations.HoldCommandsReadDiscardAndTrim : Prop :=
  (∀ (s : State) (i : Iface) (a len : Nat), s.mayAccess i hldCmd true = true → s.hld.op = none →
    a = (s.reg hldCmdAddrHi).toNat * 2 ^ 32 + (s.reg hldCmdAddrLo).toNat → len = (s.reg hldCmdLen).toNat →
    answers (.holdRead i) s (fun t =>
      if s.holdRefusal i 1 a len = 0 then t.hld = { s.hld with op := some (1, a, len, s.get hldCmdDram_ADDR * 64, i.window) } ∧
        t.get hldCmdStat_BUSY = 1 ∧ onlyIn [.regs, .hld, .nand] s t ∧ keepsRegs [hldCmd, hldCmdStat] s t
      else t.get hldCmdStat_RESULT = (if s.warned = true then 3 else s.holdRefusal i 1 a len) ∧ onlyIn evtParts s t) ∧
    answers (.holdDiscard i) s (fun t =>
      if s.holdRefusal i 2 a len = 0 then t.hld = { s.hld with op := some (2, a, len, s.get hldCmdDram_ADDR * 64, i.window) } ∧
        t.get hldCmdStat_BUSY = 1 ∧ onlyIn [.regs, .hld] s t ∧ keepsRegs [hldCmd, hldCmdStat] s t
      else t.get hldCmdStat_RESULT = (if s.warned = true then 3 else s.holdRefusal i 2 a len) ∧ onlyIn evtParts s t) ∧
    answers (.holdTrim i) s (fun t =>
      if s.holdRefusal i 3 a len = 0 then t.hld = { s.hld with op := some (3, a, len, s.get hldCmdDram_ADDR * 64, i.window) } ∧
        t.get hldCmdStat_BUSY = 1 ∧ onlyIn [.regs, .hld] s t ∧ keepsRegs [hldCmd, hldCmdStat] s t
      else t.get hldCmdStat_RESULT = (if s.warned = true then 3 else s.holdRefusal i 3 a len) ∧ onlyIn evtParts s t)) ∧
  (∀ (s : State) (a len dram w : Nat), s.hld.op = some (1, a, len, dram, w) → s.nandWaits .read = false →
    dram + len ≤ s.dramTop →
    answers .holdCmdComplete s fun t =>
      getBytes t.dram dram len = s.holdRead a len ∧
      ((s.man.region (a / 2 ^ 56)).stream = false ∧ (s.sealedPlaces.all fun p => decide (p.1 + p.2.length ≤ a ∨ a + len ≤ p.1)) = true →
        s.holdRead a len = getBytes s.live.bytes a len) ∧
      (∀ p ∈ s.dram, p.1 < dram ∨ dram + len ≤ p.1 → smGet 0 t.dram p.1 = smGet 0 s.dram p.1) ∧
      t.hld = { s.hld with op := none } ∧ t.get hldCmdStat_BUSY = 0 ∧
      t.get hldCmdStat_RESULT = (if s.holdPoison a len = true then 5 else 0) ∧ onlyIn (.hld :: .nand :: .dram :: evtParts) s t) ∧
  (∀ (s : State) (a len dram w : Nat), s.hld.op = some (2, a, len, dram, w) →
    answers .holdCmdComplete s fun t =>
      (∀ k ∈ List.range len, smGet 0 t.live.bytes (a + k) = 0 ∧ smGet 0 t.img.bytes (a + k) = 0) ∧
      (∀ p ∈ s.live.bytes, p.1 < a ∨ a + len ≤ p.1 → smGet 0 t.live.bytes p.1 = smGet 0 s.live.bytes p.1) ∧
      t.hld.op = none ∧ t.get hldCmdStat_BUSY = 0 ∧ t.get hldCmdStat_RESULT = 0 ∧
      onlyIn (.hld :: .nand :: .live :: .img :: evtParts) s t) ∧
  (∀ (s : State) (a len dram w r : Nat), s.hld.op = some (3, a, len, dram, w) → r = a / 2 ^ 56 →
    answers .holdCmdComplete s fun t =>
      (t.str r).head = max (s.str r).head (min (a % 2 ^ 56) (s.str r).tail) ∧ (t.str r).tail = (s.str r).tail ∧
      (∀ k ∈ List.range 16, k ≠ r → t.str k = s.str k) ∧ t.live.bytes = s.live.bytes ∧
      t.hld.op = none ∧ t.get hldCmdStat_BUSY = 0 ∧ t.get hldCmdStat_RESULT = 0 ∧
      onlyIn (.hld :: .nand :: .live :: .img :: evtParts) s t) ∧
  (∀ (s : State) (i : Iface) (v : Word) (r : Nat) (st : Stream), s.mayAccess i hldStrSel true = true → r = bitsOf v 3 0 →
    st = (if r = s.man.logRegion then s.lgb.stream else s.str r) → (s.man.region r).stream = true →
    st.tail - st.head ≤ (s.man.region r).size → (s.man.region r).size ≠ 0 →
    answers (.streamQuery i v) s fun t =>
      t.get hldStrStat_STREAM = 1 ∧ t.get hldStrStat_KEEP = ofBool (s.man.region r).keep ∧ t.get hldStrStat_FULL = ofBool st.fullSeen ∧
      t.get hldStrStat_USED = (100 * (st.tail - st.head) + (s.man.region r).size - 1) / (s.man.region r).size ∧
      t.reg hldStrHead = BitVec.ofNat 32 (st.head / 64) ∧ t.reg hldStrTail = BitVec.ofNat 32 (st.tail / 64) ∧
      t.str r = { s.str r with fullSeen := false } ∧ (∀ k ∈ List.range 16, k ≠ r → t.str k = s.str k) ∧
      keepsRegs [hldStrSel, hldStrStat, hldStrHead, hldStrTail] s t ∧ onlyIn [.regs, .live] s t) ∧
  (∀ (s : State) (i : Iface), s.mayAccess i hldEcc true = true →
    answers (.hldEccClear i) s fun t =>
      t.get hldEcc_UNCORR = 0 ∧ t.get hldEcc_REFRESH = 0 ∧ onlyIn [.regs] s t ∧ keepsRegs [hldEcc] s t) ∧
  (∀ s : State, s.warned = true → s.pwr.mounted = true → s.pwr.flushed = false → s.pwr.cause = none → s.pwr.porst = false →
    answers .flushComplete s fun t =>
      (∀ r ∈ t.cmt.journal, r.jseq < s.cmt.next → r.durable = true) ∧ t.lgb.buf = [] ∧ t.pwr.flushed = true ∧ t.aon.flushDone = true ∧
      t.get pwrStat_FLUSHING = 0 ∧ t.get hldStat_FLUSHING = 0 ∧ t.hld.mapPending = 0 ∧ t.hld.endPcycle = s.aon.powerCycles ∧
      t.warned = true)

/-- LOGBOOK_READ_SELECT of a number from FIRST on that a record in the ring or the buffer has: VALID 1, CRCERR, its hour of
operation and its 64 bytes stand in the interface's window, event 452 only for a failed CRC; of another number: VALID 0 and data
0. LOGBOOK_CLEAR while one runs: RESULT 0x02; between a warning and the end of its ride-through 0x03; in both FIRST, the records
and the clear count are as before. Else, with a group, places and room free: FIRST is the number of the TYPE 0x01 record that
was appended, counter 1,023 is one more and LGB_CLEARS shows it, BUSY is 1. (R469, R470, R474, R475, R476, R477, R559, R560) -/
def Obligations.LogbookIsReadAndCleared : Prop :=
  (∀ (s : State) (i : Iface) (w : Nat) (number : Word) (r : LogRec), w < 10 → s.mayAccess i (lgbRdSel w) true = true →
    s.logFind number.toNat = some r →
    answers (.logbookReadSelect i w number) s fun t =>
      t.getOf i (lgbRdStat_VALID w) = 1 ∧ t.getOf i (lgbRdStat_CRCERR w) = ofBool r.crcBad ∧
      t.getOf i (lgbRdStat_HOURS w) = r.opsec / 3600 % 2 ^ 24 ∧
      (∀ k ∈ List.range 16, t.reg (regKey i (lgbRdData w k)) = BitVec.ofNat 32 (beAt r.bytes (4 * k) 4)) ∧
      s.lgb.first ≤ r.num ∧ r.num % 2 ^ 32 = number.toNat ∧ t.lgb = s.lgb ∧ onlyIn evtParts s t ∧ (r.crcBad = false → onlyIn [.regs] s t)) ∧
  (∀ (s : State) (i : Iface) (w : Nat) (number : Word), w < 10 → s.mayAccess i (lgbRdSel w) true = true → s.logFind number.toNat = none →
    answers (.logbookReadSelect i w number) s fun t =>
      t.getOf i (lgbRdStat_VALID w) = 0 ∧ (∀ k ∈ List.range 16, t.reg (regKey i (lgbRdData w k)) = 0) ∧ onlyIn [.regs] s t) ∧
  (∀ (s : State) (i : Iface), s.mayAccess i lgbClear true = true → s.lgb.clearBusy = true ∨ s.warned = true →
    answers (.logbookClear i) s fun t =>
      t.get lgbClrStat_RESULT = (if s.lgb.clearBusy = true then 2 else 3) ∧ t.fry = (s.raise 453).fry ∧ onlyIn evtParts s t) ∧
  (∀ (s : State) (i : Iface), s.mayAccess i lgbClear true = true → s.lgb.clearBusy = false → s.warned = false → s.cmt.groups = [] →
    0 < s.lgbRoom → s.sealedRoom 0 = true → 0 ≤ smGet 0 s.live.counters 1023 → smGet 0 s.live.counters 1023 < 2 ^ 31 →
    answers (.logbookClear i) s fun t =>
      t.lgb.first = s.lgb.next ∧ t.get lgbClrStat_BUSY = 1 ∧ smGet 0 t.live.counters 1023 = smGet 0 s.live.counters 1023 + 1 ∧
      (t.reg lgbClears).toNat = smGet 0 s.live.counters 1023 + 1 ∧ t.cmt.next = s.cmt.next + 1 ∧
      ∃ r ∈ t.lgb.buf, r.num = s.lgb.next ∧ r.typ = 1)

/-- A slot operation that is refused: its result stands, event 457, no key and no slot changes (R484). -/
abbrev obKeyRefused (i : Iface) (op n : Nat) (s t : State) : Prop :=
  t.getOf i keyCmdStat_RESULT = s.keyResult i op n ∧ t.keys = s.keys ∧ t.fry = (s.raise 457).fry ∧ onlyIn evtParts s t

/-- With KEY_CMD open to the interface and its BUSY 0, n its selected slot. KEY_WRITE with result 0x00: the slot holds the
staged key and KEY_NEW_ATTR's attributes with VALID 1, LOCKED 0, its result stands (PERSIST 0) or it is BUSY (PERSIST 1);
KEY_ERASE: it is empty; KEY_LOCK: LOCKED is set, nothing else of it changes; KEY_READ: KEY_DATA shows the key. Other slots are
as before. A refused operation answers the first result that applies (device slots 0 to 7: 0x02 for erase and lock; a warning:
not 0x00), raises event 457 and changes no slot. SIGNING_INDEX_CAPTURE captures all 40 bits. ATTESTATION_REQUEST: refused with
0x02, 0x03, 0x04 or 0x05, else it is BUSY: an index is taken and a 488-byte statement begins, or, while that index may not sign
yet, it waits. ATTESTATION_COMPLETE of a statement that has begun, ADDR in the LPDDR5 used: the statement and its signature
stand there, all else there is as before. (R479, R480, R481, R482, R483, R484, R485, R488, R490, R491, R492) -/
def Obligations.KeySlotsAndAttestation : Prop :=
  (∀ (s : State) (i : Iface) (n : Nat) (a : Word), s.mayAccess i keyCmd true = true → s.getOf i keyCmdStat_BUSY = 0 →
    n = s.getOf i keySel_SLOT → a = s.reg (regKey i keyNewAttr) → s.keyResult i 1 n = 0 →
    answers (.keyWrite i) s fun t =>
      (t.slot n).attr = (a &&& 0x73FFFF9F#32) ||| 0x80000000#32 ∧ (t.slot n).key = s.stagedKey i (bitsOf a 25 19) ∧
      (∀ k ∈ List.range 1024, k ≠ n → t.slot k = s.slot k) ∧
      (if bitsOf a 30 30 = 1 then t.getOf i keyCmdStat_BUSY = 1 ∧ t.getOf i keyCmdStat_RESULT = s.getOf i keyCmdStat_RESULT
        else t.getOf i keyCmdStat_RESULT = 0) ∧ (∀ p ∈ t.keys.staged, p.1 / 16 ≠ i.window)) ∧
  (∀ (s : State) (i : Iface) (n : Nat), s.mayAccess i keyCmd true = true → s.getOf i keyCmdStat_BUSY = 0 →
    n = s.getOf i keySel_SLOT → s.keyResult i 2 n = 0 →
    answers (.keyErase i) s fun t =>
      t.slot n = {} ∧ (∀ k ∈ List.range 1024, k ≠ n → t.slot k = s.slot k) ∧ t.getOf i keyCmdStat_RESULT = 0) ∧
  (∀ (s : State) (i : Iface) (n : Nat), s.mayAccess i keyCmd true = true → s.getOf i keyCmdStat_BUSY = 0 →
    n = s.getOf i keySel_SLOT → s.keyResult i 3 n = 0 →
    answers (.keyLock i) s fun t =>
      t.slot n = { s.slot n with attr := (s.slot n).attr ||| 0x08000000#32 } ∧
      (∀ k ∈ List.range 1024, k ≠ n → t.slot k = s.slot k) ∧ t.getOf i keyCmdStat_RESULT = 0 ∧ onlyIn (.keys :: evtParts) s t) ∧
  (∀ (s : State) (i : Iface) (n : Nat), s.mayAccess i keyCmd true = true → s.getOf i keyCmdStat_BUSY = 0 →
    n = s.getOf i keySel_SLOT → s.keyResult i 4 n = 0 →
    answers (.keyRead i) s fun t =>
      (∀ k ∈ List.range 16, t.reg (regKey i (keyData k)) = BitVec.ofNat 32 (beAt (padTo 64 (s.slot n).key) (4 * k) 4)) ∧
      t.getOf i keyCmdStat_RESULT = 0 ∧ onlyIn [.regs] s t) ∧
  (∀ (s : State) (i : Iface) (n : Nat), s.mayAccess i keyCmd true = true → s.getOf i keyCmdStat_BUSY = 0 → n = s.getOf i keySel_SLOT →
    answers (.keyWrite i) s (fun t => s.keyResult i 1 n ≠ 0 → obKeyRefused i 1 n s t) ∧
    answers (.keyErase i) s (fun t => s.keyResult i 2 n ≠ 0 → obKeyRefused i 2 n s t) ∧
    answers (.keyLock i) s (fun t => s.keyResult i 3 n ≠ 0 → obKeyRefused i 3 n s t) ∧
    answers (.keyRead i) s (fun t => s.keyResult i 4 n ≠ 0 → obKeyRefused i 4 n s t) ∧
    (n < 8 → s.keyResult i 2 n = 2 ∧ s.keyResult i 3 n = 2) ∧ (s.warned = true → s.keyResult i 1 n ≠ 0 ∧ s.keyResult i 2 n ≠ 0 ∧ s.keyResult i 3 n ≠ 0 ∧ s.keyResult i 4 n ≠ 0)) ∧
  (∀ (s : State) (i : Iface), s.mayAccess i keyIdxHi false = true →
    answers (.signingIndexCapture i) s fun t =>
      t.reg keyIdxHi = BitVec.ofNat 32 (s.keys.next / 2 ^ 32) ∧ t.reg keyIdxLo = BitVec.ofNat 32 s.keys.next ∧
      t.sent = .readValue i (BitVec.ofNat 32 (s.keys.next / 2 ^ 32)) :: s.sent ∧ onlyIn [.regs, .sent] s t ∧
      keepsRegs [keyIdxHi, keyIdxLo] s t) ∧
  (∀ (s : State) (i : Iface) (v : Word) (r : Nat), s.mayAccess i keyAttCtrl true = true → bitsOf v 31 31 = 1 →
    r = (if s.keys.attest.isSome = true then 2 else if s.fuses.identity = false then 3 else if s.noIndex = true then 4
      else if s.warned = true then 5 else 0) →
    answers (.attestationRequest i v) s fun t =>
      if r = 0 ∧ s.maySign s.keys.next = false then t.keys = { s.keys with attest := some (bitsOf v 27 0 * 64, []) } ∧ t.get keyAttStat_BUSY = 1 ∧
        onlyIn [.regs, .keys] s t
      else if r = 0 then t.keys.next = s.keys.next + 1 ∧
        t.get keyAttStat_BUSY = 1 ∧ ∃ x, t.keys.attest = some x ∧ x.1 = bitsOf v 27 0 * 64 ∧ x.2.length = 488 ∧ x.2.take 5 = be 5 0x4341543101
      else t.get keyAttStat_RESULT = r ∧ t.keys = s.keys ∧ onlyIn evtParts s t) ∧
  (∀ (s : State) (a idx : Nat) (b : List Byte), s.keys.attest = some (a, b) → b.length = 488 → idx = beAt b 424 8 → a + 6093 ≤ s.dramTop →
    answers .attestationComplete s fun t =>
      getBytes t.dram a 488 = b ∧
      getBytes t.dram (a + 488) 5605 = padTo 5605 (xmssMtSign (s.slot 0).key (s.slot 1).key idx b) ∧
      (∀ p ∈ s.dram, p.1 < a ∨ a + 6093 ≤ p.1 → smGet 0 t.dram p.1 = smGet 0 s.dram p.1) ∧
      t.keys.attest = none ∧ t.get keyAttStat_BUSY = 0 ∧ t.get keyAttStat_RESULT = 0 ∧ onlyIn (.keys :: .dram :: evtParts) s t)

/-- A copy that may be preferred: it passes check 1, is not invalid nor worn out, and the other is no candidate or older. -/
abbrev obPreferred (s : State) (k : Nat) : Prop :=
  (s.copyOf k).good = true ∧ (s.copyOf k).st ≠ 0 ∧ (s.copyOf k).st ≠ 0xF8 ∧
  ((s.copyOf (1 - k)).good = false ∨ (s.copyOf (1 - k)).st = 0 ∨
    ((s.copyOf (1 - k)).st ≠ 0xF8 ∧ (s.copyOf (1 - k)).seq < (s.copyOf k).seq))

/-- What the start from a copy leaves. -/
abbrev obStarted (s t : State) (k fallback : Nat) : Prop :=
  t.mft.inForce = some k ∧ t.man = (s.copyOf k).man ∧ t.pwr.verified = true ∧ t.get pwrStat_PHASE = 1 ∧ t.get mftStat_INFORCE = k ∧
  t.get mftStat_FALLBACK = fallback ∧ t.reg mftSeq = BitVec.ofNat 32 (s.copyOf k).seq ∧ t.get mftStat_RESCUE = 0

/-- MANIFEST_VERIFIED after a reset release. The preferred copy (good, STATE not 0x00 or 0xF8, higher SEQ than the other or the
other no candidate) that passes every check is in force, phase 1, FALLBACK 0, MFT_SEQ its SEQ; at 0xF0 TRIAL reads 0, at 0xFF,
0xFE or 0xFC it is at the next trial STATE and TRIAL reads 1. A newer copy at 0xF8 becomes 0x00 with code 0x0C in MFT_ERR and
the older confirmed one that passes is in force with FALLBACK 1. A preferred copy that fails a check becomes 0x00; a confirmed
other one that passes is in force. With no candidate: rescue, nothing in force. (R499, R502, R503, R504, R505) -/
def Obligations.ManifestIsChosenAtStart : Prop :=
  (∀ (s : State) (k : Nat), s.get pwrReset_CAUSE ≠ 0 → s.pwr.verified = false → s.flag mftStat_RESCUE = false → k < 2 → obPreferred s k →
    (s.copyOf k).st = 0xF0 → s.firstFail (s.copyOf k) = none →
    answers .manifestVerified s fun t => obStarted s t k 0 ∧ t.get mftStat_TRIAL = 0 ∧ (t.copyOf k).st = 0xF0 ∧ t.copyOf (1 - k) = s.copyOf (1 - k)) ∧
  (∀ (s : State) (k : Nat), s.get pwrReset_CAUSE ≠ 0 → s.pwr.verified = false → s.flag mftStat_RESCUE = false → k < 2 → obPreferred s k →
    (s.copyOf k).st ∈ [0xFF, 0xFE, 0xFC] → s.firstFail (s.copyOf k) = none →
    answers .manifestVerified s fun t => obStarted s t k 0 ∧ t.get mftStat_TRIAL = 1 ∧
      (t.copyOf k).st = (if (s.copyOf k).st = 0xFF then 0xFE else if (s.copyOf k).st = 0xFE then 0xFC else 0xF8) ∧
      t.copyOf (1 - k) = s.copyOf (1 - k)) ∧
  (∀ (s : State) (k : Nat), s.get pwrReset_CAUSE ≠ 0 → s.pwr.verified = false → s.flag mftStat_RESCUE = false → k < 2 →
    (s.copyOf k).good = true → (s.copyOf k).st = 0xF8 → (s.copyOf (1 - k)).good = true → (s.copyOf (1 - k)).st = 0xF0 →
    (s.copyOf (1 - k)).seq < (s.copyOf k).seq → s.firstFail (s.copyOf (1 - k)) = none →
    answers .manifestVerified s fun t => obStarted s t (1 - k) 1 ∧ (t.copyOf k).st = 0 ∧
      t.get mftErr_VALID = 1 ∧ t.get mftErr_COPY = k ∧ t.get mftErr_CODE = 0x0C) ∧
  (∀ (s : State) (k : Nat) (f : Nat × Nat × Nat × Nat), s.get pwrReset_CAUSE ≠ 0 → s.pwr.verified = false → s.flag mftStat_RESCUE = false →
    k < 2 → obPreferred s k → (s.copyOf k).st = 0xF0 → s.firstFail (s.copyOf k) = some f → f.2.2.2 < 256 →
    (s.copyOf (1 - k)).good = true → (s.copyOf (1 - k)).st = 0xF0 → s.firstFail (s.copyOf (1 - k)) = none →
    answers .manifestVerified s fun t => obStarted s t (1 - k) 1 ∧ (t.copyOf k).st = 0 ∧ t.get mftErr_COPY = k ∧ t.get mftErr_CODE = f.2.2.2) ∧
  (∀ s : State, s.get pwrReset_CAUSE ≠ 0 → s.pwr.verified = false → s.flag mftStat_RESCUE = false →
    (s.copyOf 0).good = false ∨ (s.copyOf 0).st = 0 → (s.copyOf 1).good = false ∨ (s.copyOf 1).st = 0 →
    answers .manifestVerified s fun t => t.get mftStat_RESCUE = 1 ∧ t.pwr.verified = false ∧ t.mft = s.mft ∧ t.man = s.man ∧ onlyIn evtParts s t)

/-- What the declaration of a warning leaves while the Hold is mounted (R362, R462, R512, R513). -/
abbrev obWarned (cause : Option Nat) (s t : State) : Prop :=
  t.warned = true ∧ t.pwr.cause = cause ∧ t.pwr.warnAt = s.clk.mono ∧ t.pwr.flushed = false ∧ t.get pwrStat_FLUSHING = 1 ∧
  t.get hldStat_FLUSHING = 1 ∧ t.hld.flushStart = s.clk.mono ∧ (∀ p ∈ t.cmt.groups, p.2.st ≠ .opened ∧ p.2.st ≠ .prestaged) ∧
  t.get tstStat_UNLOCKED = 0 ∧ t.keys.attest = none ∧ t.mft.staging = none

/-- For an interface that may write MFT_CMD, no operation running. In a warning every operation answers 0x03 and the loader is
as before. Check: 0x00 where no check fails, else 0x04, MFT_ERR names part, section, check and code; nothing is staged. Stage:
0x05 with the copy in force in trial, 0x04 where a check fails, else the image is being written, the copy it goes to erased;
complete: it is the copy not in force, STATE 0xFF, RESULT 0x00. Apply resets at once in rescue, else it waits for a superframe
boundary with no staged boundary group; there, and when a trial's time has run out, while the Hold is mounted, a warning is
declared whose reset will have cause 0x06 or 0x07. Confirm: the copy in trial is 0xF0, floors not below its levels, an open
authority fused. Invalidate: the copy not in force is 0x00. (R500, R501, R502, R504, R505, R506, R507, R562) -/
def Obligations.ManifestOperationsStageApplyConfirm : Prop :=
  (∀ (s : State) (i : Iface) (m : MCopy), s.mayAccess i mftCmd true = true → s.flag mftCmdStat_BUSY = false → s.warned = true →
    answers (.manifestCheck i m) s (fun t => t.get mftCmdStat_RESULT = 3 ∧ onlyIn [.regs] s t) ∧
    answers (.manifestStage i m) s (fun t => t.get mftCmdStat_RESULT = 3 ∧ onlyIn [.regs] s t) ∧
    answers (.manifestApply i) s (fun t => t.get mftCmdStat_RESULT = 3 ∧ onlyIn [.regs] s t) ∧
    answers (.manifestConfirm i) s (fun t => t.get mftCmdStat_RESULT = 3 ∧ onlyIn [.regs] s t) ∧
    answers (.manifestInvalidate i) s (fun t => t.get mftCmdStat_RESULT = 3 ∧ onlyIn [.regs] s t)) ∧
  (∀ (s : State) (i : Iface) (m : MCopy), s.mayAccess i mftCmd true = true → s.flag mftCmdStat_BUSY = false → s.warned = false →
    answers (.manifestCheck i m) s (fun t =>
      (s.firstFail m = none → t.get mftCmdStat_RESULT = 0 ∧ onlyIn [.regs] s t) ∧
      (∀ f ∈ s.firstFail m, f.1 < 4 ∧ f.2.1 < 256 ∧ f.2.2.1 < 256 ∧ f.2.2.2 < 256 → t.get mftCmdStat_RESULT = 4 ∧ t.get mftErr_VALID = 1 ∧
        t.get mftErr_PART = f.1 ∧ t.get mftErr_SECTION = f.2.1 ∧ t.get mftErr_CHECK = f.2.2.1 ∧ t.get mftErr_CODE = f.2.2.2) ∧ t.mft = s.mft) ∧
    answers (.manifestStage i m) s (fun t =>
      if s.flag mftStat_TRIAL = true then t.get mftCmdStat_RESULT = 5 ∧ t.mft = s.mft
      else if s.firstFail m = none then t.mft.staging = some m ∧ t.get mftCmdStat_BUSY = 1 ∧ (t.copyOf s.stageTarget).good = false ∧
        t.copyOf (1 - s.stageTarget) = s.copyOf (1 - s.stageTarget) ∧ t.mft.inForce = s.mft.inForce ∧
        onlyIn [.regs, .mft] s t
      else t.get mftCmdStat_RESULT = 4 ∧ t.mft = s.mft)) ∧
  (∀ (s : State) (k : Nat) (m : MCopy), k < 2 → s.mft.staging = some m → s.mft.inForce = some k →
    answers .manifestStageComplete s fun t =>
      t.copyOf (1 - k) = m.setSt 0xFF ∧ t.copyOf k = s.copyOf k ∧ t.mft.staging = none ∧ t.mft.inForce = some k ∧
      t.get mftCmdStat_BUSY = 0 ∧ t.get mftCmdStat_RESULT = 0 ∧ onlyIn (.mft :: evtParts) s t) ∧
  (∀ (s : State) (i : Iface), s.mayAccess i mftCmd true = true → s.flag mftCmdStat_BUSY = false → s.warned = false →
    s.get pwrReset_CAUSE ≠ 0 →
    answers (.manifestApply i) s fun t =>
      if s.flag mftStat_RESCUE = true then t.get pwrReset_CAUSE = 0 ∧ t.aon.cause = 6 ∧ t.mft.inForce = none
      else t.mft = { s.mft with applyDue := true } ∧ t.get mftCmdStat_BUSY = 1 ∧ onlyIn [.regs, .mft] s t) ∧
  (∀ (s : State) (vin : Nat), s.mft.applyDue = true → s.xing.num % 32 = 0 → s.flag bilStat_STAGED = false → s.warned = false →
    s.get pwrReset_CAUSE ≠ 0 → s.pwr.mounted = true →
    answers (.manifestApplyBoundary vin) s fun t => obWarned (some 6) s t) ∧
  (∀ (s : State) (i : Iface) (k : Nat), s.mayAccess i mftCmd true = true → s.flag mftCmdStat_BUSY = false → s.warned = false →
    s.mft.inForce = some k → k < 2 → s.flag mftStat_TRIAL = true →
    answers (.manifestConfirm i) s fun t =>
      (t.copyOf k).st = 0xF0 ∧ t.copyOf (1 - k) = s.copyOf (1 - k) ∧ t.get mftStat_TRIAL = 0 ∧ t.get mftCmdStat_RESULT = 0 ∧
      t.fuses.openFloor = max s.fuses.openFloor (s.copyOf k).opn.level ∧ t.fuses.sealedFloor = max s.fuses.sealedFloor (s.copyOf k).sld.level ∧
      0 < t.fuses.openAuth) ∧
  (∀ (s : State) (i : Iface) (k : Nat), s.mayAccess i mftCmd true = true → s.flag mftCmdStat_BUSY = false → s.warned = false →
    s.mft.inForce = some k → k < 2 →
    answers (.manifestInvalidate i) s fun t =>
      t.copyOf (1 - k) = (s.copyOf (1 - k)).setSt 0 ∧ t.copyOf k = s.copyOf k ∧ t.get mftCmdStat_RESULT = 0 ∧
      t.mft.inForce = some k ∧ onlyIn [.regs, .mft] s t) ∧
  (∀ (s : State) (vin : Nat), s.flag mftStat_TRIAL = true → s.trialLeft = 0 → s.warned = false → s.get pwrReset_CAUSE ≠ 0 → s.pwr.mounted = true →
    answers (.trialExpiry vin) s fun t => obWarned (some 7) s t)

/-- What a reset leaves (R356, R459, R519, R525): the device is in reset, the always-on domain holds the cause, the durable content, less
the discards whose map records were not durable, is the effective one, only durable journal records and the Logbook records of durable groups stand, the fuses and the seal's state and count are
as before, queues, threads, groups, Oarsmen and waits are as after reset, and the driver enables are low. -/
abbrev obReset (cause : Nat) (off : Bool) (s t : State) : Prop :=
  t.get pwrReset_CAUSE = 0 ∧ t.aon.cause = cause ∧ t.aon.rtc = s.clk.ptp ∧ t.live = s.imgKept ∧ t.img = s.imgKept ∧ t.fuses = s.fuses ∧
  t.cmt.journal = s.cmt.journal.filter (fun r => r.durable) ∧ t.cmt.groups = [] ∧ t.whf = {} ∧ t.fry = {} ∧ t.oar = [] ∧
  t.reg metSealStat = s.reg metSealStat &&& 0x0000FF03#32 ∧ t.pending = s.pending ∧
  t.lgb.ring = s.lgb.ring ++ s.lgb.buf.filter (fun r => decide (r.jseq ≠ 0) && decide (r.jseq ≤ s.cmt.durJseq)) ∧ t.lgb.buf = [] ∧
  t.pwr = { off := off } ∧ (∀ p ∈ [0, 1, 2], t.pinLevel (.drven p) = .low) ∧ (∀ k ∈ [0, 1], t.pinLevel (.paen k) = .low ∧ t.pinLevel (.txrx k) = .low)

/-- POWER_WARNING with the Hold mounted, out of reset, none standing: WARN 1, open and pre-staged groups gone, the flush begins,
the test block locked (thermal: a reset with cause 0x08 will follow); with one standing nothing changes. A permitted write of
PWR_RESET with KEY 0xC5 and RESET 1 the same, cause 0x05; another write changes no block but the Logbook. RIDE_THROUGH when the
flush has ended, no reset follows and the junction is below 125 degrees: WARN 0, RIDES one more, clock and crossing count as
they were. A rail dropout (0x02 after a complete flush, else 0x03), PORST outside a flush (0x04; in one it waits), its timeout
15 ms after the warning, and Ebfin's reset (0x09): in reset, the cause recorded, durable content effective, durable journal
records, the ring, the Logbook records of durable groups and the fuses kept, queues, threads and groups empty, driver enables
low. (R30, R356, R462, R509, R512, R513, R516, R517, R518, R519, R520, R562) -/
def Obligations.WarningsRideThroughsAndResets : Prop :=
  (∀ (s : State) (thermal : Bool) (vin : Nat), s.warned = false → s.get pwrReset_CAUSE ≠ 0 → s.pwr.mounted = true →
    answers (.powerWarning thermal vin) s fun t => obWarned (if thermal = true then some 8 else none) s t) ∧
  (∀ (s : State) (thermal : Bool) (vin : Nat), s.warned = true →
    answers (.powerWarning thermal vin) s fun t => t = s) ∧
  (∀ (s : State) (i : Iface) (v : Word) (vin : Nat), s.mayAccess i pwrReset true = true → s.warned = false → s.get pwrReset_CAUSE ≠ 0 →
    s.pwr.mounted = true →
    answers (.softwareReset i v vin) s fun t =>
      if bitsOf v 31 24 = 0xC5 ∧ bitsOf v 8 8 = 1 then obWarned (some 5) s t else onlyIn logParts s t ∧ keepsRegs logRegs s t) ∧
  (∀ s : State, s.warned = true → s.pwr.flushed = true → s.pwr.cause = none → s.pwr.porst = false →
    toSigned 8 (s.get pwrTemp_TJ) < 125 →
    answers .rideThrough s fun t =>
      t.warned = false ∧ t.get pwrStat_RIDES = satAdd (s.get pwrStat_RIDES) 1 65535 ∧ t.aon.flushDone = false ∧ t.fuses = s.fuses ∧
      t.clk = s.clk ∧ t.xing = s.xing) ∧
  (∀ s : State, s.get pwrReset_CAUSE ≠ 0 →
    answers .railDropout s (fun t => obReset (if s.warned = true ∧ s.pwr.mounted = true ∧ s.aon.flushDone = true then 2 else 3) true s t) ∧
    answers .ebfinSystemReset s (fun t => obReset 9 false s t)) ∧
  (∀ s : State, s.get pwrReset_CAUSE ≠ 0 →
    answers .porst s fun t =>
      if s.warned = true ∧ s.pwr.flushed = false then t.pwr = { s.pwr with porst := true } ∧ onlyIn [.pwr] s t else obReset 4 false s t) ∧
  (∀ s : State, s.get pwrReset_CAUSE ≠ 0 → s.pwr.porst = true → s.pwr.warnAt + 15000000 ≤ s.clk.mono →
    answers .porstFlushTimeout s fun t => obReset 4 false s t)

/-- For HOLD_SENSE_CHANGE (the filtered input's new level): HOLD_OK is that level. No edge changes nothing. A rising edge raises
event 5 and nothing else changes. A falling edge raises event 4 (an enabled event nobody waits on is latched) and, where the
Logbook has room, the next record, of TYPE 0x10, names event 4; beside the events, the Logbook and their counters nothing
changes. (R515) -/
def Obligations.HoldSenseFollowsItsInput : Prop :=
  (∀ (s : State) (up : Bool), s.flag pwrStat_HOLD_OK = up →
    answers (.holdSenseChange up) s fun t => t = s) ∧
  (∀ s : State, s.flag pwrStat_HOLD_OK = false →
    answers (.holdSenseChange true) s fun t =>
      t.get pwrStat_HOLD_OK = 1 ∧ t.fry = (s.raise 5).fry ∧ t.oar = (s.raise 5).oar ∧ onlyIn evtParts s t ∧ keepsRegs [pwrStat, fryCnt] s t) ∧
  (∀ s : State, s.flag pwrStat_HOLD_OK = true →
    answers (.holdSenseChange false) s fun t =>
      t.get pwrStat_HOLD_OK = 0 ∧ (s.evtOn 4 = true → s.waitersOn 4 = [] → 4 ∈ t.fry.latches) ∧
      (0 < s.lgbRoom → ∃ r ∈ t.lgb.buf, r.num = s.lgb.next ∧ r.typ = 0x10 ∧ slice r.payload 20 2 = be 2 4) ∧
      onlyIn logParts s t ∧ keepsRegs (pwrStat :: logRegs) s t)

/-- RESET_RELEASE of a device in reset that no thermal shutdown holds there, the always-on contents valid: CAUSE is the recorded
one, PTP time has run on by the time since the reset, the crossing number by the held periods in it, the power-cycle count is
one more, operating seconds are as they were, AON_VALID is 1, a start-up record of TYPE 0x05 follows where the Logbook has room;
while no Manifest is verified the PLC driver enables are low and every pin is in slew class 1. With invalid contents: CAUSE
0x01, the power-cycle count one more than in the last flush-end record, its operating seconds, no valid crossing count. After a
thermal shutdown, until the junction has been read below 105 degrees: nothing. LPDDR5_TRAINED with a Manifest verified or in
rescue: training is noted, with the bytes of LPDDR5 used. HOLD_SENSE_WAIT_EXPIRY before the mount, HOLD_SENSE low, once: the
wait is over, event 4 is raised (latched where enabled and nobody waits) and, where the Logbook has room, a record names it.
(R46, R470, R505, R519, R521, R522, R525, R526, R553) -/
def Obligations.StartUpIsFollowed : Prop :=
  (∀ (s : State) (elapsed : Nat), s.get pwrReset_CAUSE = 0 → s.pwr.heat = false → s.aon.valid = true → s.aon.cause < 256 →
    answers (.resetRelease elapsed) s fun t =>
      t.get pwrReset_CAUSE = s.aon.cause ∧ t.clk.ptp = s.aon.rtc + elapsed ∧ t.aon.powerCycles = s.aon.powerCycles + 1 ∧
      t.aon.opSeconds = s.aon.opSeconds ∧ t.xing.num = s.aon.crossing + (if s.aon.held = 0 then 0 else (s.aon.since + elapsed) / s.aon.held) ∧
      t.get pwrStat_AON_VALID = 1 ∧ t.pwr = { s.pwr with t0 := t.clk.mono, off := false } ∧ t.live = s.live ∧ t.man = s.man ∧
      (0 < s.lgbRoom → (t.lgb.buf.any fun r => decide (r.num = s.lgb.next) && decide (r.typ = 5)) = true) ∧
      (s.pwr.verified = false → ([0, 1, 2].all fun p => t.pinLevel (.drven p) == .low) = true) ∧
      (s.pwr.verified = false → ((List.range 512).all fun k => t.slewClass k == 1) = true)) ∧
  (∀ (s : State) (elapsed : Nat), s.get pwrReset_CAUSE = 0 → s.pwr.heat = false → s.aon.valid = false →
    answers (.resetRelease elapsed) s fun t =>
      t.get pwrReset_CAUSE = 1 ∧ t.aon.powerCycles = s.hld.endPcycle + 1 ∧ t.aon.opSeconds = s.hld.endOpsec ∧ t.xing.valid = false ∧
      t.pwr = { s.pwr with t0 := t.clk.mono, off := false } ∧ t.live = s.live ∧ t.man = s.man) ∧
  (∀ (s : State) (elapsed : Nat), s.get pwrReset_CAUSE = 0 → s.pwr.heat = true →
    answers (.resetRelease elapsed) s fun t => t = s) ∧
  (∀ s : State, s.pwr.verified = true ∨ s.flag mftStat_RESCUE = true →
    answers .lpddr5Trained s fun t => t.pwr = { s.pwr with trained := true, dram := s.dramUsed } ∧ onlyIn [.pwr] s t) ∧
  (∀ s : State, s.pwr.verified = true → s.pwr.mounted = false → s.pwr.waited = false → s.flag pwrStat_HOLD_OK = false →
    answers .holdSenseWaitExpiry s fun t =>
      t.pwr = { s.pwr with waited := true } ∧ (s.evtOn 4 = true → s.waitersOn 4 = [] → 4 ∈ t.fry.latches) ∧
      (0 < s.lgbRoom → (t.lgb.buf.any fun r =>
        decide (r.num = s.lgb.next) && decide (r.typ = 0x10) && decide (slice r.payload 20 2 = be 2 4)) = true) ∧
      onlyIn (.pwr :: logParts) s t ∧ keepsRegs logRegs s t)

/-- TEMPERATURE_WARN and its re-arm show the reading in TJ; at or above PWR_TEMP.WARN event 7 is raised, once until a reading 5
degrees below WARN arms it again; a reading below 105 degrees ends a thermal shutdown. AVS_UPDATE outside a warning: until
LPDDR5 training ends, and with EN 0, the request goes to 800 mV; else the core clock is the highest one, up to the profile's,
that meets MARGIN at 800 mV or less (400 MHz where none does), the request goes to the voltage that it needs, not below its
floor and not above 800 mV, upward at once and down by at most 5 mV; CLAMPED says whether MARGIN cannot be met at the profile's
clock, and event 8 is raised when it becomes so. VBAT_LOW sets PWR_STAT.VBAT_LOW and raises event 6, once. VIN_MIN_READ returns
MIN and NOW, then MIN is NOW. ALWAYS_ON_INVALID clears every item of the always-on domain. DRAM_ECC_CLEAR: both counters read 0.
Nothing else changes. (R37, R511, R521, R525, R527, R552) -/
def Obligations.SupplyAndSensorsAreFollowed : Prop :=
  (∀ (s : State) (tj : Nat) (warn now : Int), tj < 256 → warn = toSigned 8 (s.get pwrTemp_WARN) → now = toSigned 8 tj →
    answers (.temperatureWarn tj) s (fun t =>
      t.get pwrTemp_TJ = tj ∧ t.get pwrTemp_WARN = s.get pwrTemp_WARN ∧
      t.pwr = { s.pwr with hot := s.pwr.hot || decide (warn ≤ now), heat := s.pwr.heat && decide (105 ≤ now) } ∧
      (warn ≤ now → s.pwr.hot = false → s.evtOn 7 = true → s.waitersOn 7 = [] → 7 ∈ t.fry.latches) ∧
      (now < warn ∨ s.pwr.hot = true → t.fry = s.fry) ∧ onlyIn (.pwr :: evtParts) s t ∧ keepsRegs [pwrTemp, fryCnt] s t) ∧
    answers (.temperatureWarnRearm tj) s (fun t =>
      t.get pwrTemp_TJ = tj ∧ t.get pwrTemp_WARN = s.get pwrTemp_WARN ∧
      t.pwr = { s.pwr with hot := s.pwr.hot && decide (warn - 5 < now), heat := s.pwr.heat && decide (105 ≤ now) } ∧
      onlyIn [.regs, .pwr] s t ∧ keepsRegs [pwrTemp] s t)) ∧
  (∀ (s : State) (a b c : Nat), s.warned = false → s.pwr.trained = false ∨ s.flag pwrAvs_EN = false →
    answers (.avsUpdate a b c) s fun t =>
      t.get pwrAvs_VCORE = max 800 (s.get pwrAvs_VCORE - 5) ∧ onlyIn [.regs, .sent] s t ∧ keepsRegs [pwrAvs] s t) ∧
  (∀ (s : State) (a b c top fit n v : Nat), s.warned = false → s.pwr.trained = true → s.flag pwrAvs_EN = true →
    top = min 2 (s.get sysProfileStat_ACTIVE) →
    fit = ([2, 1, 0].find? fun k => decide (k ≤ top) && decide ((if k = 0 then a else if k = 1 then b else c) ≤ 800)).getD 0 →
    n = (if fit = 0 then a else if fit = 1 then b else c) →
    v = min 800 (max (if fit = 0 then 550 else if fit = 1 then 650 else 720) n) →
    answers (.avsUpdate a b c) s fun t =>
      t.pwr.clock = fit ∧ t.get pwrAvs_VCORE = (if s.get pwrAvs_VCORE ≤ v then v else max v (s.get pwrAvs_VCORE - 5)) ∧
      t.flag pwrStat_CLAMPED = (decide (fit < top) || decide (800 < n)) ∧
      (fit < top ∨ 800 < n → s.flag pwrStat_CLAMPED = false → s.evtOn 8 = true → s.waitersOn 8 = [] → 8 ∈ t.fry.latches) ∧
      onlyIn (.pwr :: evtParts) s t ∧ keepsRegs [pwrAvs, pwrStat, fryCnt] s t) ∧
  (∀ s : State, s.flag pwrStat_VBAT_LOW = false →
    answers .vbatLow s fun t =>
      t.get pwrStat_VBAT_LOW = 1 ∧ t.fry = (s.raise 6).fry ∧ t.oar = (s.raise 6).oar ∧ onlyIn evtParts s t ∧ keepsRegs [pwrStat, fryCnt] s t) ∧
  (∀ s : State, s.flag pwrStat_VBAT_LOW = true → answers .vbatLow s fun t => t = s) ∧
  (∀ (s : State) (i : Iface) (now least : Nat), s.mayAccess i pwrVin false = true → s.reg pwrVin &&& 0xF800F800#32 = 0 → now < 2048 → least < 2048 →
    answers (.vinMinRead i now least) s fun t =>
      t.sent.head? = some (.readValue i (BitVec.ofNat 32 (least * 65536 + now))) ∧ t.get pwrVin_NOW = now ∧ t.get pwrVin_MIN = now ∧
      onlyIn [.regs, .sent] s t ∧ keepsRegs [pwrVin] s t) ∧
  (∀ s : State,
    answers .alwaysOnInvalid s fun t => t.aon = {} ∧ t.xing = { s.xing with rtcValid := false } ∧ onlyIn [.aon, .xing] s t) ∧
  (∀ (s : State) (i : Iface), s.mayAccess i sysDramEcc true = true →
    answers (.dramEccClear i) s fun t =>
      t.get sysDramEcc_UNCORR = 0 ∧ t.get sysDramEcc_CORR = 0 ∧ onlyIn [.regs] s t ∧ keepsRegs [sysDramEcc] s t)

/-- TST_CTRL by an interface that may write it. The first write is noted with its window and instant; the second, from the same
window within 1 ms and outside a warning, unlocks with result 0x00; late, from another window or without a first it answers
0x01, in a warning 0x05, and leaves the lock as it was. TEST_LOCK: locked, no entry armed. ENTRY_ARM of a permitted setting: the
entry that TST_PSEL selects is armed with KIND, TARGET and PARAM, its hits 0, result 0x00; one that is refused answers its
result and REFUSED counts, no entry changes but in its written word. ENTRY_DISARM, and ENTRY_LIMIT_EXPIRY once LIMIT seconds
have passed since the arm, disarm the entry and give its Logbook place back. (R529, R530, R531, R533, R534, R535, R536) -/
def Obligations.TestBlockUnlocksAndArms : Prop :=
  (∀ (s : State) (i : Iface), s.mayAccess i tstCtrl true = true →
    answers (.testUnlockFirst i) s fun t =>
      t.tst = { s.tst with first := some (i.window, s.clk.mono) } ∧ t.get tstStat_UNLOCKED = s.get tstStat_UNLOCKED ∧
      onlyIn [.regs, .tst] s t ∧ keepsRegs [tstCtrl] s t) ∧
  (∀ (s : State) (i : Iface) (ok : Bool), s.mayAccess i tstCtrl true = true →
    ok = (match s.tst.first with | some (w, at0) => decide (w = i.window ∧ s.clk.mono - at0 ≤ 1000000) | none => false) →
    answers (.testUnlockSecond i) s fun t =>
      t.tst = { s.tst with first := none } ∧
      (if s.warned = true then t.get tstStat_RESULT = 5 ∧ t.get tstStat_UNLOCKED = s.get tstStat_UNLOCKED
       else if ok = true then t.get tstStat_RESULT = 0 ∧ t.get tstStat_UNLOCKED = 1
       else t.get tstStat_RESULT = 1 ∧ t.get tstStat_UNLOCKED = s.get tstStat_UNLOCKED ∧
         t.get tstStat_REFUSED = satAdd (s.get tstStat_REFUSED) 1 255) ∧
      onlyIn (.tst :: logParts) s t ∧ keepsRegs (tstCtrl :: tstStat :: logRegs) s t) ∧
  (∀ (s : State) (i : Iface), s.mayAccess i tstCtrl true = true →
    answers (.testLock i) s fun t =>
      t.get tstStat_UNLOCKED = 0 ∧ t.get tstStat_RESULT = 0 ∧ t.tst.first = none ∧ (∀ n ∈ List.range 8, (t.entry n).armed = false) ∧
      onlyIn (.tst :: logParts) s t ∧ keepsRegs (tstCtrl :: tstStat :: logRegs) s t) ∧
  (∀ (s : State) (i : Iface) (v : Word) (n k g a b : Nat), s.mayAccess i tstPcfg true = true → n = s.get tstPsel_ENTRY → k = bitsOf v 27 24 →
    g = bitsOf v 15 0 → a = bitsOf (s.entry n).param 31 16 → b = bitsOf (s.entry n).param 15 0 → s.armResult n k g a b = 0 →
    answers (.entryArm i v) s fun t =>
      (t.entry n).armed = true ∧ (t.entry n).kind = k ∧ (t.entry n).target = g ∧ (t.entry n).a = a ∧ (t.entry n).b = b ∧
      (t.entry n).hits = 0 ∧ (t.entry n).since = s.clk.mono ∧ (∀ m ∈ List.range 8, m ≠ n → t.entry m = s.entry m) ∧
      t.get tstStat_RESULT = 0) ∧
  (∀ (s : State) (i : Iface) (v : Word) (n r : Nat), s.mayAccess i tstPcfg true = true → n = s.get tstPsel_ENTRY →
    r = s.armResult n (bitsOf v 27 24) (bitsOf v 15 0) (bitsOf (s.entry n).param 31 16) (bitsOf (s.entry n).param 15 0) → r ≠ 0 →
    answers (.entryArm i v) s fun t =>
      t.get tstStat_RESULT = r ∧ t.get tstStat_REFUSED = satAdd (s.get tstStat_REFUSED) 1 255 ∧
      (s.warned = true → r = 5) ∧ (s.warned = false → s.flag tstStat_UNLOCKED = false → r = 1) ∧
      (∀ m ∈ List.range 8, t.entry m = if m = n then { s.entry n with pcfg := v &&& 0x0F00FFFF#32 } else s.entry m) ∧
      onlyIn (.tst :: logParts) s t) ∧
  (∀ (s : State) (i : Iface) (v : Word) (n : Nat), s.mayAccess i tstPcfg true = true → n = s.get tstPsel_ENTRY → (s.entry n).armed = true →
    answers (.entryDisarm i v) s fun t =>
      (t.entry n).armed = false ∧ (∀ m ∈ List.range 8, m ≠ n → t.entry m = s.entry m) ∧ t.get tstStat_RESULT = 0 ∧
      t.lgb.claimed = s.lgb.claimed - 1 ∧ onlyIn (.tst :: logParts) s t) ∧
  (∀ (s : State) (n : Nat), n < 8 → (s.entry n).armed = true →
    (s.entry n).since + max 1 (min 3600 (s.get tstCtrl_LIMIT)) * 1000000000 ≤ s.clk.mono →
    answers (.entryLimitExpiry n) s fun t =>
      t.entry n = { s.entry n with armed := false } ∧ (∀ m ∈ List.range 8, m ≠ n → t.entry m = s.entry m) ∧
      t.lgb.claimed = s.lgb.claimed - 1 ∧ onlyIn (.tst :: logParts) s t ∧ keepsRegs (tstStat :: logRegs) s t)
end

