-- ==== Sys2Proof/Laws/Bytes.lean ====
section
/-!
SUPPORT. Byte strings: lengths, what a big-endian string spells, and what the data words of a Wharf item give back.
-/
namespace Sys2Proof.Machine

@[simp] theorem be_length (n v : Nat) : (be n v).length = n := by
  induction n with
  | zero => rfl
  | succ n ih => simp [be, ih]

@[simp] theorem padTo_length (n : Nat) (b : List Byte) : (padTo n b).length = n := by simp [padTo]; omega

/-- A byte string of the right length is its own padding. -/
theorem padTo_self (b : List Byte) : padTo b.length b = b := by simp [padTo]

@[simp] theorem slice_length (b : List Byte) (off n : Nat) : (slice b off n).length = min n (b.length - off) := by simp [slice]

@[simp] theorem tagOf_length (k i : List Byte) (n : Nat) (c : String) : (tagOf k i n c).length = n := by simp [tagOf]

/-- The number of a string with a byte put after it. -/
theorem ofBe_foldl (a : Nat) (b : List Byte) : b.foldl (fun a b => a * 256 + b.toNat) a = a * 256 ^ b.length + ofBe b := by
  induction b generalizing a with
  | nil => simp [ofBe]
  | cons x r ih =>
    simp only [List.foldl_cons, ofBe, List.length_cons]
    rw [ih, ih (0 * 256 + x.toNat)]
    ring

/-- The number of two strings joined. -/
theorem ofBe_append (a b : List Byte) : ofBe (a ++ b) = ofBe a * 256 ^ b.length + ofBe b := by
  conv_lhs => unfold ofBe
  rw [List.foldl_append, ofBe_foldl]
  rfl

theorem ofBe_cons (x : Byte) (r : List Byte) : ofBe (x :: r) = x.toNat * 256 ^ r.length + ofBe r := by
  have h := ofBe_append [x] r
  simpa [ofBe] using h

/-- A big-endian string spells less than 256 to the power of its length. -/
theorem ofBe_lt (b : List Byte) : ofBe b < 256 ^ b.length := by
  induction b with
  | nil => simp [ofBe]
  | cons x r ih =>
    rw [ofBe_cons, List.length_cons, pow_succ]
    have := x.isLt
    nlinarith

/-- The number that n big-endian bytes of v spell: v, cut to 8n bits. -/
theorem ofBe_be (n v : Nat) : ofBe (be n v) = v % 256 ^ n := by
  induction n with
  | zero => simp [be, ofBe, Nat.mod_one]
  | succ n ih =>
    rw [be, ofBe_cons, ih, be_length, pow_succ, BitVec.toNat_ofNat, Nat.shiftRight_eq_div_pow, pow_mul]
    norm_num
    rw [Nat.mod_mul, mul_comm]
    omega

/-- Bytes inside a string, as a number. -/
theorem beAt_eq (b : List Byte) (off n : Nat) (h : off + n ≤ b.length) : beAt b off n = ofBe (slice b off n) := by
  unfold beAt
  congr 1
  refine List.ext_getElem (by simp; omega) fun i h1 h2 => ?_
  simp only [List.getElem_map, List.getElem_range, slice, List.getElem_take, List.getElem_drop]
  simp only [List.length_map, List.length_range] at h1
  rw [List.getD_eq_getElem _ _ (by omega)]

/-- The bytes of a number that eight bytes spell are those bytes. -/
theorem be_ofBe (b : List Byte) : be b.length (ofBe b) = b := by
  induction b with
  | nil => rfl
  | cons x r ih =>
    have hlt := ofBe_lt r
    have hs : be r.length (ofBe (x :: r)) = be r.length (ofBe r) := by
      have key : ∀ n m, n ≤ r.length → be n (m * 256 ^ r.length + ofBe r) = be n (ofBe r) := by
        intro n
        induction n with
        | zero => intros; rfl
        | succ n ihn =>
          intro m hn
          rw [be, be, ihn m (by omega)]
          congr 1
          apply BitVec.eq_of_toNat_eq
          simp only [BitVec.toNat_ofNat, Nat.shiftRight_eq_div_pow, pow_mul]
          norm_num
          have e : m * 256 ^ r.length = 256 ^ n * (256 * (m * 256 ^ (r.length - n - 1))) := by
            have : r.length = n + 1 + (r.length - n - 1) := by omega
            conv_lhs => rw [this, pow_add, pow_succ]
            ring
          rw [e, Nat.mul_add_div (by positivity)]
          omega
      rw [ofBe_cons]
      exact key _ _ le_rfl
    rw [List.length_cons, be, hs, ih]
    congr 1
    apply BitVec.eq_of_toNat_eq
    rw [ofBe_cons, BitVec.toNat_ofNat, Nat.shiftRight_eq_div_pow, pow_mul]
    norm_num
    rw [mul_comm, Nat.mul_add_div (by positivity), Nat.div_eq_of_lt hlt]
    have := x.isLt
    omega

/-- Eight bytes from the start, zeros past the end, make one data word and come back from it. -/
theorem be_beAt_zero (b : List Byte) : be 8 (BitVec.ofNat 64 (beAt b 0 8)).toNat = padTo 8 b := by
  have hz : beAt b 0 8 = ofBe (padTo 8 b) := by
    unfold beAt
    congr 1
    refine List.ext_getElem (by simp) fun i h1 h2 => ?_
    simp only [List.length_map, List.length_range] at h1
    simp only [List.getElem_map, List.getElem_range, padTo, List.getElem_take, Nat.zero_add]
    by_cases hi : i < b.length
    · rw [List.getElem_append_left hi, List.getD_eq_getElem _ _ hi]
    · rw [List.getElem_append_right (by omega)]; simp [List.getD, List.getElem?_eq_none (by omega : b.length ≤ i)]
  have hlt := ofBe_lt (padTo 8 b)
  have hb := be_ofBe (padTo 8 b)
  rw [padTo_length] at hlt hb
  rw [hz, BitVec.toNat_ofNat, Nat.mod_eq_of_lt (by simpa using hlt), hb]

/-- The bytes of the data words of a string: the string, padded with zeros to whole words. -/
theorem dbytes_dwordsAux (n : Nat) (b : List Byte) (h : n = (b.length + 7) / 8) :
    dbytes (dwordsAux n b) = b ++ List.replicate (8 * n - b.length) 0 := by
  induction n generalizing b with
  | zero =>
    have : b = [] := List.length_eq_zero_iff.mp (by omega)
    simp [this, dwordsAux, dbytes]
  | succ n ih =>
    have hr := ih (b.drop 8) (by simp; omega)
    have hd : dbytes (dwordsAux (n + 1) b) = padTo 8 b ++ dbytes (dwordsAux n (b.drop 8)) := by
      simp only [dwordsAux, dbytes, List.flatMap_cons, be_beAt_zero]
    rw [hd, hr]
    by_cases h8 : 8 ≤ b.length
    · have hp : padTo 8 b = b.take 8 := by simp [padTo, Nat.sub_eq_zero_of_le h8]
      rw [hp, ← List.append_assoc, List.take_append_drop, List.length_drop]
      congr 2
      omega
    · have hn : n = 0 := by omega
      subst hn
      simp [padTo, List.drop_eq_nil_of_le (by omega : b.length ≤ 8), List.take_of_length_le, show b.length + (8 - b.length) ≤ 8 by omega]

/-- The bytes of a new item: those it was made of, padded with zeros to whole words (R390, R391). -/
theorem mkItem_bytes (f : Nat) (t : Stamp) (b : List Byte) :
    (mkItem f t b).bytes = b ++ List.replicate ((b.length + 7) / 8 * 8 - b.length) 0 := by
  unfold Item.bytes mkItem
  simp only [List.map_map]
  have : ((dwords b).map ((fun w : WWord => w.val) ∘ fun w => ({ val := w } : WWord))) = dwords b := by simp [Function.comp_def]
  rw [this, dwords, dbytes_dwordsAux _ _ rfl, Nat.mul_comm 8]

/-- A new item carries no poison (R396). -/
@[simp] theorem mkItem_poisoned (f : Nat) (t : Stamp) (b : List Byte) : (mkItem f t b).poisoned = false := by
  simp [Item.poisoned, mkItem]

/-- Two strings under exclusive or are as long as the shorter. -/
theorem xorBytes_length (a b : List Byte) : (xorBytes a b).length = min a.length b.length := by simp [xorBytes]

end Sys2Proof.Machine
end

