-- ==== Sys2Proof/Laws/SMap.lean ====
section
/-!
SUPPORT. The sparse tables: what is read after a write, and that a write keeps the canonical form.
-/
namespace Sys2Proof.Machine

variable {β : Type}

/-- No pair of a key is left after it is erased. -/
theorem smErase_fresh (k : Nat) (m : SMap β) : ∀ p ∈ smErase k m, p.1 ≠ k := by
  induction m with
  | nil => simp [smErase]
  | cons p r ih =>
    obtain ⟨a, x⟩ := p
    by_cases h : a = k
    · simpa [smErase, h] using ih
    · simp only [smErase, h, if_false, List.mem_cons]
      rintro q (rfl | hq)
      · exact h
      · exact ih q hq

/-- Reading after an erase. -/
theorem smGet_erase (d : β) (k j : Nat) (m : SMap β) :
    smGet d (smErase k m) j = if j = k then d else smGet d m j := by
  induction m with
  | nil => simp [smErase, smGet]
  | cons p r ih =>
    obtain ⟨a, x⟩ := p
    by_cases h : a = k
    · subst h
      by_cases hj : j = a
      · subst hj; simpa [smErase] using ih
      · simpa [smErase, smGet, hj, Ne.symm hj] using ih
    · by_cases hj : a = j
      · subst hj; simp [smErase, smGet, h]
      · simpa [smErase, smGet, h, hj] using ih

/-- Reading after an insertion of a key that is not listed. -/
theorem smGet_insert (d : β) (k j : Nat) (v : β) (m : SMap β) (hf : ∀ p ∈ m, p.1 ≠ k) :
    smGet d (smInsert k v m) j = if j = k then v else smGet d m j := by
  induction m with
  | nil =>
    by_cases h : j = k
    · simp [smInsert, smGet, h]
    · simp [smInsert, smGet, h, Ne.symm h]
  | cons p r ih =>
    obtain ⟨a, x⟩ := p
    have ha : a ≠ k := hf (a, x) (by simp)
    have hr : ∀ p ∈ r, p.1 ≠ k := fun p hp => hf p (by simp [hp])
    by_cases hlt : k < a
    · by_cases h : j = k
      · simp [smInsert, smGet, hlt, h]
      · simp [smInsert, smGet, hlt, h, Ne.symm h]
    · by_cases hj : a = j
      · subst hj; simp [smInsert, smGet, hlt, ha]
      · simpa [smInsert, smGet, hlt, hj] using ih hr

/-- Reading after a write: the value at its key, everything else as before. -/
@[simp] theorem smGet_put [DecidableEq β] (d : β) (m : SMap β) (k j : Nat) (v : β) :
    smGet d (smPut d m k v) j = if j = k then v else smGet d m j := by
  unfold smPut
  split
  · rename_i h; subst h; exact smGet_erase v k j m
  · rw [smGet_insert d k j v _ (smErase_fresh k m), smGet_erase]
    split <;> rfl

/-- A bound that may be lowered. -/
theorem smSorted_weaken (b c : Nat) (m : SMap β) (hbc : c ≤ b) (h : smSorted (some b) m = true) : smSorted (some c) m = true := by
  cases m with
  | nil => rfl
  | cons p r =>
    obtain ⟨a, x⟩ := p
    simp only [smSorted, Bool.and_eq_true, decide_eq_true_eq] at h ⊢
    exact ⟨by omega, h.2⟩

/-- Without a bound. -/
theorem smSorted_none (b : Nat) (m : SMap β) (h : smSorted (some b) m = true) : smSorted none m = true := by
  cases m with
  | nil => rfl
  | cons p r => simp only [smSorted, Bool.and_eq_true] at h ⊢; exact h.2

/-- An erase keeps the order. -/
theorem smSorted_erase (o : Option Nat) (k : Nat) (m : SMap β) (h : smSorted o m = true) : smSorted o (smErase k m) = true := by
  induction m generalizing o with
  | nil => cases o <;> rfl
  | cons p r ih =>
    obtain ⟨a, x⟩ := p
    cases o with
    | none =>
      simp only [smSorted] at h
      by_cases hk : a = k
      · simpa [smErase, hk] using ih none (smSorted_none a r h)
      · simpa [smErase, hk, smSorted] using ih (some a) h
    | some b =>
      simp only [smSorted, Bool.and_eq_true, decide_eq_true_eq] at h
      by_cases hk : a = k
      · simpa [smErase, hk] using ih (some b) (smSorted_weaken a b r (by omega) h.2)
      · simpa [smErase, hk, smSorted, h.1] using ih (some a) h.2

/-- An insertion of a key that is not listed keeps the order. -/
theorem smSorted_insert (o : Option Nat) (k : Nat) (v : β) (m : SMap β) (hf : ∀ p ∈ m, p.1 ≠ k)
    (hb : ∀ b, o = some b → b < k) (h : smSorted o m = true) : smSorted o (smInsert k v m) = true := by
  induction m generalizing o with
  | nil => cases o with
    | none => rfl
    | some b => simp [smInsert, smSorted, hb b rfl]
  | cons p r ih =>
    obtain ⟨a, x⟩ := p
    have ha : a ≠ k := hf (a, x) (by simp)
    have hr : ∀ p ∈ r, p.1 ≠ k := fun p hp => hf p (by simp [hp])
    by_cases hlt : k < a
    · cases o with
      | none => simpa [smInsert, hlt, smSorted] using h
      | some b =>
        simp only [smSorted, Bool.and_eq_true, decide_eq_true_eq] at h
        simp [smInsert, hlt, smSorted, hb b rfl, h.2]
    · have hak : a < k := by omega
      cases o with
      | none =>
        simp only [smSorted] at h
        simpa [smInsert, hlt, smSorted] using ih (some a) hr (by simpa using hak) h
      | some b =>
        simp only [smSorted, Bool.and_eq_true, decide_eq_true_eq] at h
        simpa [smInsert, hlt, smSorted, h.1] using ih (some a) hr (by simpa using hak) h.2

/-- What is listed after an erase was listed before. -/
theorem smErase_sub (k : Nat) (m : SMap β) : ∀ p ∈ smErase k m, p ∈ m := by
  induction m with
  | nil => simp [smErase]
  | cons p r ih =>
    obtain ⟨a, x⟩ := p
    by_cases h : a = k
    · intro q hq; simp only [smErase, h, if_true] at hq; simp [ih q hq]
    · intro q hq
      simp only [smErase, h, if_false, List.mem_cons] at hq
      rcases hq with rfl | hq
      · simp
      · simp [ih q hq]

/-- What is listed after an insertion. -/
theorem smInsert_sub (k : Nat) (v : β) (m : SMap β) : ∀ p ∈ smInsert k v m, p = (k, v) ∨ p ∈ m := by
  induction m with
  | nil => simp [smInsert]
  | cons p r ih =>
    obtain ⟨a, x⟩ := p
    intro q hq
    by_cases h : k < a
    · simpa [smInsert, h] using hq
    · simp only [smInsert, h, if_false, List.mem_cons] at hq
      rcases hq with rfl | hq
      · simp
      · rcases ih q hq with rfl | hm <;> simp [*]

/-- A write keeps the canonical form. -/
@[simp] theorem smWf_put [DecidableEq β] (d : β) (m : SMap β) (k : Nat) (v : β) (h : smWf d m = true) :
    smWf d (smPut d m k v) = true := by
  simp only [smWf, Bool.and_eq_true, List.all_eq_true, decide_eq_true_eq] at h ⊢
  unfold smPut
  split
  · exact ⟨smSorted_erase none k m h.1, fun p hp => h.2 p (smErase_sub k m p hp)⟩
  · rename_i hv
    refine ⟨smSorted_insert none k v _ (smErase_fresh k m) (by simp) (smSorted_erase none k m h.1), fun p hp => ?_⟩
    rcases smInsert_sub k v _ p hp with rfl | hm
    · exact hv
    · exact h.2 p (smErase_sub k m p hm)

end Sys2Proof.Machine
end

