-- ==== Sys2Proof/Laws/State.lean ====
section
/-!
SUPPORT. What the state's plain updates leave: one lemma for each field of each update, so that no proof unfolds a record update.
-/
namespace Sys2Proof.Machine

/-! ### Registers -/

/-! setReg -/

@[simp] theorem State.setReg_pending (s : State) (a : Nat) (w : Word) : (s.setReg a w).pending = s.pending := rfl
@[simp] theorem State.setReg_free (s : State) (a : Nat) (w : Word) : (s.setReg a w).free = s.free := rfl
@[simp] theorem State.setReg_clk (s : State) (a : Nat) (w : Word) : (s.setReg a w).clk = s.clk := rfl
@[simp] theorem State.setReg_xing (s : State) (a : Nat) (w : Word) : (s.setReg a w).xing = s.xing := rfl
@[simp] theorem State.setReg_aon (s : State) (a : Nat) (w : Word) : (s.setReg a w).aon = s.aon := rfl
@[simp] theorem State.setReg_fuses (s : State) (a : Nat) (w : Word) : (s.setReg a w).fuses = s.fuses := rfl
@[simp] theorem State.setReg_whf (s : State) (a : Nat) (w : Word) : (s.setReg a w).whf = s.whf := rfl
@[simp] theorem State.setReg_fry (s : State) (a : Nat) (w : Word) : (s.setReg a w).fry = s.fry := rfl
@[simp] theorem State.setReg_oar (s : State) (a : Nat) (w : Word) : (s.setReg a w).oar = s.oar := rfl
@[simp] theorem State.setReg_flows (s : State) (a : Nat) (w : Word) : (s.setReg a w).flows = s.flows := rfl
@[simp] theorem State.setReg_txn (s : State) (a : Nat) (w : Word) : (s.setReg a w).txn = s.txn := rfl
@[simp] theorem State.setReg_cmt (s : State) (a : Nat) (w : Word) : (s.setReg a w).cmt = s.cmt := rfl
@[simp] theorem State.setReg_hld (s : State) (a : Nat) (w : Word) : (s.setReg a w).hld = s.hld := rfl
@[simp] theorem State.setReg_nand (s : State) (a : Nat) (w : Word) : (s.setReg a w).nand = s.nand := rfl
@[simp] theorem State.setReg_lgb (s : State) (a : Nat) (w : Word) : (s.setReg a w).lgb = s.lgb := rfl
@[simp] theorem State.setReg_man (s : State) (a : Nat) (w : Word) : (s.setReg a w).man = s.man := rfl
@[simp] theorem State.setReg_live (s : State) (a : Nat) (w : Word) : (s.setReg a w).live = s.live := rfl
@[simp] theorem State.setReg_img (s : State) (a : Nat) (w : Word) : (s.setReg a w).img = s.img := rfl
@[simp] theorem State.setReg_met (s : State) (a : Nat) (w : Word) : (s.setReg a w).met = s.met := rfl
@[simp] theorem State.setReg_plc (s : State) (a : Nat) (w : Word) : (s.setReg a w).plc = s.plc := rfl
@[simp] theorem State.setReg_rad (s : State) (a : Nat) (w : Word) : (s.setReg a w).rad = s.rad := rfl
@[simp] theorem State.setReg_eth (s : State) (a : Nat) (w : Word) : (s.setReg a w).eth = s.eth := rfl
@[simp] theorem State.setReg_gwy (s : State) (a : Nat) (w : Word) : (s.setReg a w).gwy = s.gwy := rfl
@[simp] theorem State.setReg_val (s : State) (a : Nat) (w : Word) : (s.setReg a w).val = s.val := rfl
@[simp] theorem State.setReg_ept (s : State) (a : Nat) (w : Word) : (s.setReg a w).ept = s.ept := rfl
@[simp] theorem State.setReg_bal (s : State) (a : Nat) (w : Word) : (s.setReg a w).bal = s.bal := rfl
@[simp] theorem State.setReg_trf (s : State) (a : Nat) (w : Word) : (s.setReg a w).trf = s.trf := rfl
@[simp] theorem State.setReg_bil (s : State) (a : Nat) (w : Word) : (s.setReg a w).bil = s.bil := rfl
@[simp] theorem State.setReg_tok (s : State) (a : Nat) (w : Word) : (s.setReg a w).tok = s.tok := rfl
@[simp] theorem State.setReg_pan (s : State) (a : Nat) (w : Word) : (s.setReg a w).pan = s.pan := rfl
@[simp] theorem State.setReg_keys (s : State) (a : Nat) (w : Word) : (s.setReg a w).keys = s.keys := rfl
@[simp] theorem State.setReg_mft (s : State) (a : Nat) (w : Word) : (s.setReg a w).mft = s.mft := rfl
@[simp] theorem State.setReg_pwr (s : State) (a : Nat) (w : Word) : (s.setReg a w).pwr = s.pwr := rfl
@[simp] theorem State.setReg_tst (s : State) (a : Nat) (w : Word) : (s.setReg a w).tst = s.tst := rfl
@[simp] theorem State.setReg_msix (s : State) (a : Nat) (w : Word) : (s.setReg a w).msix = s.msix := rfl
@[simp] theorem State.setReg_sram (s : State) (a : Nat) (w : Word) : (s.setReg a w).sram = s.sram := rfl
@[simp] theorem State.setReg_dram (s : State) (a : Nat) (w : Word) : (s.setReg a w).dram = s.dram := rfl
@[simp] theorem State.setReg_sent (s : State) (a : Nat) (w : Word) : (s.setReg a w).sent = s.sent := rfl

/-! set -/

@[simp] theorem State.set_pending (s : State) (f : Fld) (v : Nat) : (s.set f v).pending = s.pending := rfl
@[simp] theorem State.set_free (s : State) (f : Fld) (v : Nat) : (s.set f v).free = s.free := rfl
@[simp] theorem State.set_clk (s : State) (f : Fld) (v : Nat) : (s.set f v).clk = s.clk := rfl
@[simp] theorem State.set_xing (s : State) (f : Fld) (v : Nat) : (s.set f v).xing = s.xing := rfl
@[simp] theorem State.set_aon (s : State) (f : Fld) (v : Nat) : (s.set f v).aon = s.aon := rfl
@[simp] theorem State.set_fuses (s : State) (f : Fld) (v : Nat) : (s.set f v).fuses = s.fuses := rfl
@[simp] theorem State.set_whf (s : State) (f : Fld) (v : Nat) : (s.set f v).whf = s.whf := rfl
@[simp] theorem State.set_fry (s : State) (f : Fld) (v : Nat) : (s.set f v).fry = s.fry := rfl
@[simp] theorem State.set_oar (s : State) (f : Fld) (v : Nat) : (s.set f v).oar = s.oar := rfl
@[simp] theorem State.set_flows (s : State) (f : Fld) (v : Nat) : (s.set f v).flows = s.flows := rfl
@[simp] theorem State.set_txn (s : State) (f : Fld) (v : Nat) : (s.set f v).txn = s.txn := rfl
@[simp] theorem State.set_cmt (s : State) (f : Fld) (v : Nat) : (s.set f v).cmt = s.cmt := rfl
@[simp] theorem State.set_hld (s : State) (f : Fld) (v : Nat) : (s.set f v).hld = s.hld := rfl
@[simp] theorem State.set_nand (s : State) (f : Fld) (v : Nat) : (s.set f v).nand = s.nand := rfl
@[simp] theorem State.set_lgb (s : State) (f : Fld) (v : Nat) : (s.set f v).lgb = s.lgb := rfl
@[simp] theorem State.set_man (s : State) (f : Fld) (v : Nat) : (s.set f v).man = s.man := rfl
@[simp] theorem State.set_live (s : State) (f : Fld) (v : Nat) : (s.set f v).live = s.live := rfl
@[simp] theorem State.set_img (s : State) (f : Fld) (v : Nat) : (s.set f v).img = s.img := rfl
@[simp] theorem State.set_met (s : State) (f : Fld) (v : Nat) : (s.set f v).met = s.met := rfl
@[simp] theorem State.set_plc (s : State) (f : Fld) (v : Nat) : (s.set f v).plc = s.plc := rfl
@[simp] theorem State.set_rad (s : State) (f : Fld) (v : Nat) : (s.set f v).rad = s.rad := rfl
@[simp] theorem State.set_eth (s : State) (f : Fld) (v : Nat) : (s.set f v).eth = s.eth := rfl
@[simp] theorem State.set_gwy (s : State) (f : Fld) (v : Nat) : (s.set f v).gwy = s.gwy := rfl
@[simp] theorem State.set_val (s : State) (f : Fld) (v : Nat) : (s.set f v).val = s.val := rfl
@[simp] theorem State.set_ept (s : State) (f : Fld) (v : Nat) : (s.set f v).ept = s.ept := rfl
@[simp] theorem State.set_bal (s : State) (f : Fld) (v : Nat) : (s.set f v).bal = s.bal := rfl
@[simp] theorem State.set_trf (s : State) (f : Fld) (v : Nat) : (s.set f v).trf = s.trf := rfl
@[simp] theorem State.set_bil (s : State) (f : Fld) (v : Nat) : (s.set f v).bil = s.bil := rfl
@[simp] theorem State.set_tok (s : State) (f : Fld) (v : Nat) : (s.set f v).tok = s.tok := rfl
@[simp] theorem State.set_pan (s : State) (f : Fld) (v : Nat) : (s.set f v).pan = s.pan := rfl
@[simp] theorem State.set_keys (s : State) (f : Fld) (v : Nat) : (s.set f v).keys = s.keys := rfl
@[simp] theorem State.set_mft (s : State) (f : Fld) (v : Nat) : (s.set f v).mft = s.mft := rfl
@[simp] theorem State.set_pwr (s : State) (f : Fld) (v : Nat) : (s.set f v).pwr = s.pwr := rfl
@[simp] theorem State.set_tst (s : State) (f : Fld) (v : Nat) : (s.set f v).tst = s.tst := rfl
@[simp] theorem State.set_msix (s : State) (f : Fld) (v : Nat) : (s.set f v).msix = s.msix := rfl
@[simp] theorem State.set_sram (s : State) (f : Fld) (v : Nat) : (s.set f v).sram = s.sram := rfl
@[simp] theorem State.set_dram (s : State) (f : Fld) (v : Nat) : (s.set f v).dram = s.dram := rfl
@[simp] theorem State.set_sent (s : State) (f : Fld) (v : Nat) : (s.set f v).sent = s.sent := rfl

/-! bump -/

@[simp] theorem State.bump_pending (s : State) (f : Fld) (n : Nat) : (s.bump f n).pending = s.pending := rfl
@[simp] theorem State.bump_free (s : State) (f : Fld) (n : Nat) : (s.bump f n).free = s.free := rfl
@[simp] theorem State.bump_clk (s : State) (f : Fld) (n : Nat) : (s.bump f n).clk = s.clk := rfl
@[simp] theorem State.bump_xing (s : State) (f : Fld) (n : Nat) : (s.bump f n).xing = s.xing := rfl
@[simp] theorem State.bump_aon (s : State) (f : Fld) (n : Nat) : (s.bump f n).aon = s.aon := rfl
@[simp] theorem State.bump_fuses (s : State) (f : Fld) (n : Nat) : (s.bump f n).fuses = s.fuses := rfl
@[simp] theorem State.bump_whf (s : State) (f : Fld) (n : Nat) : (s.bump f n).whf = s.whf := rfl
@[simp] theorem State.bump_fry (s : State) (f : Fld) (n : Nat) : (s.bump f n).fry = s.fry := rfl
@[simp] theorem State.bump_oar (s : State) (f : Fld) (n : Nat) : (s.bump f n).oar = s.oar := rfl
@[simp] theorem State.bump_flows (s : State) (f : Fld) (n : Nat) : (s.bump f n).flows = s.flows := rfl
@[simp] theorem State.bump_txn (s : State) (f : Fld) (n : Nat) : (s.bump f n).txn = s.txn := rfl
@[simp] theorem State.bump_cmt (s : State) (f : Fld) (n : Nat) : (s.bump f n).cmt = s.cmt := rfl
@[simp] theorem State.bump_hld (s : State) (f : Fld) (n : Nat) : (s.bump f n).hld = s.hld := rfl
@[simp] theorem State.bump_nand (s : State) (f : Fld) (n : Nat) : (s.bump f n).nand = s.nand := rfl
@[simp] theorem State.bump_lgb (s : State) (f : Fld) (n : Nat) : (s.bump f n).lgb = s.lgb := rfl
@[simp] theorem State.bump_man (s : State) (f : Fld) (n : Nat) : (s.bump f n).man = s.man := rfl
@[simp] theorem State.bump_live (s : State) (f : Fld) (n : Nat) : (s.bump f n).live = s.live := rfl
@[simp] theorem State.bump_img (s : State) (f : Fld) (n : Nat) : (s.bump f n).img = s.img := rfl
@[simp] theorem State.bump_met (s : State) (f : Fld) (n : Nat) : (s.bump f n).met = s.met := rfl
@[simp] theorem State.bump_plc (s : State) (f : Fld) (n : Nat) : (s.bump f n).plc = s.plc := rfl
@[simp] theorem State.bump_rad (s : State) (f : Fld) (n : Nat) : (s.bump f n).rad = s.rad := rfl
@[simp] theorem State.bump_eth (s : State) (f : Fld) (n : Nat) : (s.bump f n).eth = s.eth := rfl
@[simp] theorem State.bump_gwy (s : State) (f : Fld) (n : Nat) : (s.bump f n).gwy = s.gwy := rfl
@[simp] theorem State.bump_val (s : State) (f : Fld) (n : Nat) : (s.bump f n).val = s.val := rfl
@[simp] theorem State.bump_ept (s : State) (f : Fld) (n : Nat) : (s.bump f n).ept = s.ept := rfl
@[simp] theorem State.bump_bal (s : State) (f : Fld) (n : Nat) : (s.bump f n).bal = s.bal := rfl
@[simp] theorem State.bump_trf (s : State) (f : Fld) (n : Nat) : (s.bump f n).trf = s.trf := rfl
@[simp] theorem State.bump_bil (s : State) (f : Fld) (n : Nat) : (s.bump f n).bil = s.bil := rfl
@[simp] theorem State.bump_tok (s : State) (f : Fld) (n : Nat) : (s.bump f n).tok = s.tok := rfl
@[simp] theorem State.bump_pan (s : State) (f : Fld) (n : Nat) : (s.bump f n).pan = s.pan := rfl
@[simp] theorem State.bump_keys (s : State) (f : Fld) (n : Nat) : (s.bump f n).keys = s.keys := rfl
@[simp] theorem State.bump_mft (s : State) (f : Fld) (n : Nat) : (s.bump f n).mft = s.mft := rfl
@[simp] theorem State.bump_pwr (s : State) (f : Fld) (n : Nat) : (s.bump f n).pwr = s.pwr := rfl
@[simp] theorem State.bump_tst (s : State) (f : Fld) (n : Nat) : (s.bump f n).tst = s.tst := rfl
@[simp] theorem State.bump_msix (s : State) (f : Fld) (n : Nat) : (s.bump f n).msix = s.msix := rfl
@[simp] theorem State.bump_sram (s : State) (f : Fld) (n : Nat) : (s.bump f n).sram = s.sram := rfl
@[simp] theorem State.bump_dram (s : State) (f : Fld) (n : Nat) : (s.bump f n).dram = s.dram := rfl
@[simp] theorem State.bump_sent (s : State) (f : Fld) (n : Nat) : (s.bump f n).sent = s.sent := rfl

/-! wrapUp -/

@[simp] theorem State.wrapUp_pending (s : State) (f : Fld) (n : Nat) : (s.wrapUp f n).pending = s.pending := rfl
@[simp] theorem State.wrapUp_free (s : State) (f : Fld) (n : Nat) : (s.wrapUp f n).free = s.free := rfl
@[simp] theorem State.wrapUp_clk (s : State) (f : Fld) (n : Nat) : (s.wrapUp f n).clk = s.clk := rfl
@[simp] theorem State.wrapUp_xing (s : State) (f : Fld) (n : Nat) : (s.wrapUp f n).xing = s.xing := rfl
@[simp] theorem State.wrapUp_aon (s : State) (f : Fld) (n : Nat) : (s.wrapUp f n).aon = s.aon := rfl
@[simp] theorem State.wrapUp_fuses (s : State) (f : Fld) (n : Nat) : (s.wrapUp f n).fuses = s.fuses := rfl
@[simp] theorem State.wrapUp_whf (s : State) (f : Fld) (n : Nat) : (s.wrapUp f n).whf = s.whf := rfl
@[simp] theorem State.wrapUp_fry (s : State) (f : Fld) (n : Nat) : (s.wrapUp f n).fry = s.fry := rfl
@[simp] theorem State.wrapUp_oar (s : State) (f : Fld) (n : Nat) : (s.wrapUp f n).oar = s.oar := rfl
@[simp] theorem State.wrapUp_flows (s : State) (f : Fld) (n : Nat) : (s.wrapUp f n).flows = s.flows := rfl
@[simp] theorem State.wrapUp_txn (s : State) (f : Fld) (n : Nat) : (s.wrapUp f n).txn = s.txn := rfl
@[simp] theorem State.wrapUp_cmt (s : State) (f : Fld) (n : Nat) : (s.wrapUp f n).cmt = s.cmt := rfl
@[simp] theorem State.wrapUp_hld (s : State) (f : Fld) (n : Nat) : (s.wrapUp f n).hld = s.hld := rfl
@[simp] theorem State.wrapUp_nand (s : State) (f : Fld) (n : Nat) : (s.wrapUp f n).nand = s.nand := rfl
@[simp] theorem State.wrapUp_lgb (s : State) (f : Fld) (n : Nat) : (s.wrapUp f n).lgb = s.lgb := rfl
@[simp] theorem State.wrapUp_man (s : State) (f : Fld) (n : Nat) : (s.wrapUp f n).man = s.man := rfl
@[simp] theorem State.wrapUp_live (s : State) (f : Fld) (n : Nat) : (s.wrapUp f n).live = s.live := rfl
@[simp] theorem State.wrapUp_img (s : State) (f : Fld) (n : Nat) : (s.wrapUp f n).img = s.img := rfl
@[simp] theorem State.wrapUp_met (s : State) (f : Fld) (n : Nat) : (s.wrapUp f n).met = s.met := rfl
@[simp] theorem State.wrapUp_plc (s : State) (f : Fld) (n : Nat) : (s.wrapUp f n).plc = s.plc := rfl
@[simp] theorem State.wrapUp_rad (s : State) (f : Fld) (n : Nat) : (s.wrapUp f n).rad = s.rad := rfl
@[simp] theorem State.wrapUp_eth (s : State) (f : Fld) (n : Nat) : (s.wrapUp f n).eth = s.eth := rfl
@[simp] theorem State.wrapUp_gwy (s : State) (f : Fld) (n : Nat) : (s.wrapUp f n).gwy = s.gwy := rfl
@[simp] theorem State.wrapUp_val (s : State) (f : Fld) (n : Nat) : (s.wrapUp f n).val = s.val := rfl
@[simp] theorem State.wrapUp_ept (s : State) (f : Fld) (n : Nat) : (s.wrapUp f n).ept = s.ept := rfl
@[simp] theorem State.wrapUp_bal (s : State) (f : Fld) (n : Nat) : (s.wrapUp f n).bal = s.bal := rfl
@[simp] theorem State.wrapUp_trf (s : State) (f : Fld) (n : Nat) : (s.wrapUp f n).trf = s.trf := rfl
@[simp] theorem State.wrapUp_bil (s : State) (f : Fld) (n : Nat) : (s.wrapUp f n).bil = s.bil := rfl
@[simp] theorem State.wrapUp_tok (s : State) (f : Fld) (n : Nat) : (s.wrapUp f n).tok = s.tok := rfl
@[simp] theorem State.wrapUp_pan (s : State) (f : Fld) (n : Nat) : (s.wrapUp f n).pan = s.pan := rfl
@[simp] theorem State.wrapUp_keys (s : State) (f : Fld) (n : Nat) : (s.wrapUp f n).keys = s.keys := rfl
@[simp] theorem State.wrapUp_mft (s : State) (f : Fld) (n : Nat) : (s.wrapUp f n).mft = s.mft := rfl
@[simp] theorem State.wrapUp_pwr (s : State) (f : Fld) (n : Nat) : (s.wrapUp f n).pwr = s.pwr := rfl
@[simp] theorem State.wrapUp_tst (s : State) (f : Fld) (n : Nat) : (s.wrapUp f n).tst = s.tst := rfl
@[simp] theorem State.wrapUp_msix (s : State) (f : Fld) (n : Nat) : (s.wrapUp f n).msix = s.msix := rfl
@[simp] theorem State.wrapUp_sram (s : State) (f : Fld) (n : Nat) : (s.wrapUp f n).sram = s.sram := rfl
@[simp] theorem State.wrapUp_dram (s : State) (f : Fld) (n : Nat) : (s.wrapUp f n).dram = s.dram := rfl
@[simp] theorem State.wrapUp_sent (s : State) (f : Fld) (n : Nat) : (s.wrapUp f n).sent = s.sent := rfl

/-! setSat -/

@[simp] theorem State.setSat_pending (s : State) (f : Fld) (v : Nat) : (s.setSat f v).pending = s.pending := rfl
@[simp] theorem State.setSat_free (s : State) (f : Fld) (v : Nat) : (s.setSat f v).free = s.free := rfl
@[simp] theorem State.setSat_clk (s : State) (f : Fld) (v : Nat) : (s.setSat f v).clk = s.clk := rfl
@[simp] theorem State.setSat_xing (s : State) (f : Fld) (v : Nat) : (s.setSat f v).xing = s.xing := rfl
@[simp] theorem State.setSat_aon (s : State) (f : Fld) (v : Nat) : (s.setSat f v).aon = s.aon := rfl
@[simp] theorem State.setSat_fuses (s : State) (f : Fld) (v : Nat) : (s.setSat f v).fuses = s.fuses := rfl
@[simp] theorem State.setSat_whf (s : State) (f : Fld) (v : Nat) : (s.setSat f v).whf = s.whf := rfl
@[simp] theorem State.setSat_fry (s : State) (f : Fld) (v : Nat) : (s.setSat f v).fry = s.fry := rfl
@[simp] theorem State.setSat_oar (s : State) (f : Fld) (v : Nat) : (s.setSat f v).oar = s.oar := rfl
@[simp] theorem State.setSat_flows (s : State) (f : Fld) (v : Nat) : (s.setSat f v).flows = s.flows := rfl
@[simp] theorem State.setSat_txn (s : State) (f : Fld) (v : Nat) : (s.setSat f v).txn = s.txn := rfl
@[simp] theorem State.setSat_cmt (s : State) (f : Fld) (v : Nat) : (s.setSat f v).cmt = s.cmt := rfl
@[simp] theorem State.setSat_hld (s : State) (f : Fld) (v : Nat) : (s.setSat f v).hld = s.hld := rfl
@[simp] theorem State.setSat_nand (s : State) (f : Fld) (v : Nat) : (s.setSat f v).nand = s.nand := rfl
@[simp] theorem State.setSat_lgb (s : State) (f : Fld) (v : Nat) : (s.setSat f v).lgb = s.lgb := rfl
@[simp] theorem State.setSat_man (s : State) (f : Fld) (v : Nat) : (s.setSat f v).man = s.man := rfl
@[simp] theorem State.setSat_live (s : State) (f : Fld) (v : Nat) : (s.setSat f v).live = s.live := rfl
@[simp] theorem State.setSat_img (s : State) (f : Fld) (v : Nat) : (s.setSat f v).img = s.img := rfl
@[simp] theorem State.setSat_met (s : State) (f : Fld) (v : Nat) : (s.setSat f v).met = s.met := rfl
@[simp] theorem State.setSat_plc (s : State) (f : Fld) (v : Nat) : (s.setSat f v).plc = s.plc := rfl
@[simp] theorem State.setSat_rad (s : State) (f : Fld) (v : Nat) : (s.setSat f v).rad = s.rad := rfl
@[simp] theorem State.setSat_eth (s : State) (f : Fld) (v : Nat) : (s.setSat f v).eth = s.eth := rfl
@[simp] theorem State.setSat_gwy (s : State) (f : Fld) (v : Nat) : (s.setSat f v).gwy = s.gwy := rfl
@[simp] theorem State.setSat_val (s : State) (f : Fld) (v : Nat) : (s.setSat f v).val = s.val := rfl
@[simp] theorem State.setSat_ept (s : State) (f : Fld) (v : Nat) : (s.setSat f v).ept = s.ept := rfl
@[simp] theorem State.setSat_bal (s : State) (f : Fld) (v : Nat) : (s.setSat f v).bal = s.bal := rfl
@[simp] theorem State.setSat_trf (s : State) (f : Fld) (v : Nat) : (s.setSat f v).trf = s.trf := rfl
@[simp] theorem State.setSat_bil (s : State) (f : Fld) (v : Nat) : (s.setSat f v).bil = s.bil := rfl
@[simp] theorem State.setSat_tok (s : State) (f : Fld) (v : Nat) : (s.setSat f v).tok = s.tok := rfl
@[simp] theorem State.setSat_pan (s : State) (f : Fld) (v : Nat) : (s.setSat f v).pan = s.pan := rfl
@[simp] theorem State.setSat_keys (s : State) (f : Fld) (v : Nat) : (s.setSat f v).keys = s.keys := rfl
@[simp] theorem State.setSat_mft (s : State) (f : Fld) (v : Nat) : (s.setSat f v).mft = s.mft := rfl
@[simp] theorem State.setSat_pwr (s : State) (f : Fld) (v : Nat) : (s.setSat f v).pwr = s.pwr := rfl
@[simp] theorem State.setSat_tst (s : State) (f : Fld) (v : Nat) : (s.setSat f v).tst = s.tst := rfl
@[simp] theorem State.setSat_msix (s : State) (f : Fld) (v : Nat) : (s.setSat f v).msix = s.msix := rfl
@[simp] theorem State.setSat_sram (s : State) (f : Fld) (v : Nat) : (s.setSat f v).sram = s.sram := rfl
@[simp] theorem State.setSat_dram (s : State) (f : Fld) (v : Nat) : (s.setSat f v).dram = s.dram := rfl
@[simp] theorem State.setSat_sent (s : State) (f : Fld) (v : Nat) : (s.setSat f v).sent = s.sent := rfl

theorem State.setWords_frame (s : State) (a : Nat) (ws : List Word) : s.setWords a ws = { s with regs := (s.setWords a ws).regs } := by
  induction ws generalizing s a with
  | nil => rfl
  | cons w ws ih => rw [State.setWords, ih]; rfl

/-! setWords -/

@[simp] theorem State.setWords_pending (s : State) (a : Nat) (ws : List Word) : (s.setWords a ws).pending = s.pending := (congrArg State.pending (s.setWords_frame a ws) :)
@[simp] theorem State.setWords_free (s : State) (a : Nat) (ws : List Word) : (s.setWords a ws).free = s.free := (congrArg State.free (s.setWords_frame a ws) :)
@[simp] theorem State.setWords_clk (s : State) (a : Nat) (ws : List Word) : (s.setWords a ws).clk = s.clk := (congrArg State.clk (s.setWords_frame a ws) :)
@[simp] theorem State.setWords_xing (s : State) (a : Nat) (ws : List Word) : (s.setWords a ws).xing = s.xing := (congrArg State.xing (s.setWords_frame a ws) :)
@[simp] theorem State.setWords_aon (s : State) (a : Nat) (ws : List Word) : (s.setWords a ws).aon = s.aon := (congrArg State.aon (s.setWords_frame a ws) :)
@[simp] theorem State.setWords_fuses (s : State) (a : Nat) (ws : List Word) : (s.setWords a ws).fuses = s.fuses := (congrArg State.fuses (s.setWords_frame a ws) :)
@[simp] theorem State.setWords_whf (s : State) (a : Nat) (ws : List Word) : (s.setWords a ws).whf = s.whf := (congrArg State.whf (s.setWords_frame a ws) :)
@[simp] theorem State.setWords_fry (s : State) (a : Nat) (ws : List Word) : (s.setWords a ws).fry = s.fry := (congrArg State.fry (s.setWords_frame a ws) :)
@[simp] theorem State.setWords_oar (s : State) (a : Nat) (ws : List Word) : (s.setWords a ws).oar = s.oar := (congrArg State.oar (s.setWords_frame a ws) :)
@[simp] theorem State.setWords_flows (s : State) (a : Nat) (ws : List Word) : (s.setWords a ws).flows = s.flows := (congrArg State.flows (s.setWords_frame a ws) :)
@[simp] theorem State.setWords_txn (s : State) (a : Nat) (ws : List Word) : (s.setWords a ws).txn = s.txn := (congrArg State.txn (s.setWords_frame a ws) :)
@[simp] theorem State.setWords_cmt (s : State) (a : Nat) (ws : List Word) : (s.setWords a ws).cmt = s.cmt := (congrArg State.cmt (s.setWords_frame a ws) :)
@[simp] theorem State.setWords_hld (s : State) (a : Nat) (ws : List Word) : (s.setWords a ws).hld = s.hld := (congrArg State.hld (s.setWords_frame a ws) :)
@[simp] theorem State.setWords_nand (s : State) (a : Nat) (ws : List Word) : (s.setWords a ws).nand = s.nand := (congrArg State.nand (s.setWords_frame a ws) :)
@[simp] theorem State.setWords_lgb (s : State) (a : Nat) (ws : List Word) : (s.setWords a ws).lgb = s.lgb := (congrArg State.lgb (s.setWords_frame a ws) :)
@[simp] theorem State.setWords_man (s : State) (a : Nat) (ws : List Word) : (s.setWords a ws).man = s.man := (congrArg State.man (s.setWords_frame a ws) :)
@[simp] theorem State.setWords_live (s : State) (a : Nat) (ws : List Word) : (s.setWords a ws).live = s.live := (congrArg State.live (s.setWords_frame a ws) :)
@[simp] theorem State.setWords_img (s : State) (a : Nat) (ws : List Word) : (s.setWords a ws).img = s.img := (congrArg State.img (s.setWords_frame a ws) :)
@[simp] theorem State.setWords_met (s : State) (a : Nat) (ws : List Word) : (s.setWords a ws).met = s.met := (congrArg State.met (s.setWords_frame a ws) :)
@[simp] theorem State.setWords_plc (s : State) (a : Nat) (ws : List Word) : (s.setWords a ws).plc = s.plc := (congrArg State.plc (s.setWords_frame a ws) :)
@[simp] theorem State.setWords_rad (s : State) (a : Nat) (ws : List Word) : (s.setWords a ws).rad = s.rad := (congrArg State.rad (s.setWords_frame a ws) :)
@[simp] theorem State.setWords_eth (s : State) (a : Nat) (ws : List Word) : (s.setWords a ws).eth = s.eth := (congrArg State.eth (s.setWords_frame a ws) :)
@[simp] theorem State.setWords_gwy (s : State) (a : Nat) (ws : List Word) : (s.setWords a ws).gwy = s.gwy := (congrArg State.gwy (s.setWords_frame a ws) :)
@[simp] theorem State.setWords_val (s : State) (a : Nat) (ws : List Word) : (s.setWords a ws).val = s.val := (congrArg State.val (s.setWords_frame a ws) :)
@[simp] theorem State.setWords_ept (s : State) (a : Nat) (ws : List Word) : (s.setWords a ws).ept = s.ept := (congrArg State.ept (s.setWords_frame a ws) :)
@[simp] theorem State.setWords_bal (s : State) (a : Nat) (ws : List Word) : (s.setWords a ws).bal = s.bal := (congrArg State.bal (s.setWords_frame a ws) :)
@[simp] theorem State.setWords_trf (s : State) (a : Nat) (ws : List Word) : (s.setWords a ws).trf = s.trf := (congrArg State.trf (s.setWords_frame a ws) :)
@[simp] theorem State.setWords_bil (s : State) (a : Nat) (ws : List Word) : (s.setWords a ws).bil = s.bil := (congrArg State.bil (s.setWords_frame a ws) :)
@[simp] theorem State.setWords_tok (s : State) (a : Nat) (ws : List Word) : (s.setWords a ws).tok = s.tok := (congrArg State.tok (s.setWords_frame a ws) :)
@[simp] theorem State.setWords_pan (s : State) (a : Nat) (ws : List Word) : (s.setWords a ws).pan = s.pan := (congrArg State.pan (s.setWords_frame a ws) :)
@[simp] theorem State.setWords_keys (s : State) (a : Nat) (ws : List Word) : (s.setWords a ws).keys = s.keys := (congrArg State.keys (s.setWords_frame a ws) :)
@[simp] theorem State.setWords_mft (s : State) (a : Nat) (ws : List Word) : (s.setWords a ws).mft = s.mft := (congrArg State.mft (s.setWords_frame a ws) :)
@[simp] theorem State.setWords_pwr (s : State) (a : Nat) (ws : List Word) : (s.setWords a ws).pwr = s.pwr := (congrArg State.pwr (s.setWords_frame a ws) :)
@[simp] theorem State.setWords_tst (s : State) (a : Nat) (ws : List Word) : (s.setWords a ws).tst = s.tst := (congrArg State.tst (s.setWords_frame a ws) :)
@[simp] theorem State.setWords_msix (s : State) (a : Nat) (ws : List Word) : (s.setWords a ws).msix = s.msix := (congrArg State.msix (s.setWords_frame a ws) :)
@[simp] theorem State.setWords_sram (s : State) (a : Nat) (ws : List Word) : (s.setWords a ws).sram = s.sram := (congrArg State.sram (s.setWords_frame a ws) :)
@[simp] theorem State.setWords_dram (s : State) (a : Nat) (ws : List Word) : (s.setWords a ws).dram = s.dram := (congrArg State.dram (s.setWords_frame a ws) :)
@[simp] theorem State.setWords_sent (s : State) (a : Nat) (ws : List Word) : (s.setWords a ws).sent = s.sent := (congrArg State.sent (s.setWords_frame a ws) :)

/-! draw -/

@[simp] theorem State.draw_pending (s : State) (n : Nat) : ((s.draw n).2).pending = s.pending := rfl
@[simp] theorem State.draw_regs (s : State) (n : Nat) : ((s.draw n).2).regs = s.regs := rfl
@[simp] theorem State.draw_clk (s : State) (n : Nat) : ((s.draw n).2).clk = s.clk := rfl
@[simp] theorem State.draw_xing (s : State) (n : Nat) : ((s.draw n).2).xing = s.xing := rfl
@[simp] theorem State.draw_aon (s : State) (n : Nat) : ((s.draw n).2).aon = s.aon := rfl
@[simp] theorem State.draw_fuses (s : State) (n : Nat) : ((s.draw n).2).fuses = s.fuses := rfl
@[simp] theorem State.draw_whf (s : State) (n : Nat) : ((s.draw n).2).whf = s.whf := rfl
@[simp] theorem State.draw_fry (s : State) (n : Nat) : ((s.draw n).2).fry = s.fry := rfl
@[simp] theorem State.draw_oar (s : State) (n : Nat) : ((s.draw n).2).oar = s.oar := rfl
@[simp] theorem State.draw_flows (s : State) (n : Nat) : ((s.draw n).2).flows = s.flows := rfl
@[simp] theorem State.draw_txn (s : State) (n : Nat) : ((s.draw n).2).txn = s.txn := rfl
@[simp] theorem State.draw_cmt (s : State) (n : Nat) : ((s.draw n).2).cmt = s.cmt := rfl
@[simp] theorem State.draw_hld (s : State) (n : Nat) : ((s.draw n).2).hld = s.hld := rfl
@[simp] theorem State.draw_nand (s : State) (n : Nat) : ((s.draw n).2).nand = s.nand := rfl
@[simp] theorem State.draw_lgb (s : State) (n : Nat) : ((s.draw n).2).lgb = s.lgb := rfl
@[simp] theorem State.draw_man (s : State) (n : Nat) : ((s.draw n).2).man = s.man := rfl
@[simp] theorem State.draw_live (s : State) (n : Nat) : ((s.draw n).2).live = s.live := rfl
@[simp] theorem State.draw_img (s : State) (n : Nat) : ((s.draw n).2).img = s.img := rfl
@[simp] theorem State.draw_met (s : State) (n : Nat) : ((s.draw n).2).met = s.met := rfl
@[simp] theorem State.draw_plc (s : State) (n : Nat) : ((s.draw n).2).plc = s.plc := rfl
@[simp] theorem State.draw_rad (s : State) (n : Nat) : ((s.draw n).2).rad = s.rad := rfl
@[simp] theorem State.draw_eth (s : State) (n : Nat) : ((s.draw n).2).eth = s.eth := rfl
@[simp] theorem State.draw_gwy (s : State) (n : Nat) : ((s.draw n).2).gwy = s.gwy := rfl
@[simp] theorem State.draw_val (s : State) (n : Nat) : ((s.draw n).2).val = s.val := rfl
@[simp] theorem State.draw_ept (s : State) (n : Nat) : ((s.draw n).2).ept = s.ept := rfl
@[simp] theorem State.draw_bal (s : State) (n : Nat) : ((s.draw n).2).bal = s.bal := rfl
@[simp] theorem State.draw_trf (s : State) (n : Nat) : ((s.draw n).2).trf = s.trf := rfl
@[simp] theorem State.draw_bil (s : State) (n : Nat) : ((s.draw n).2).bil = s.bil := rfl
@[simp] theorem State.draw_tok (s : State) (n : Nat) : ((s.draw n).2).tok = s.tok := rfl
@[simp] theorem State.draw_pan (s : State) (n : Nat) : ((s.draw n).2).pan = s.pan := rfl
@[simp] theorem State.draw_keys (s : State) (n : Nat) : ((s.draw n).2).keys = s.keys := rfl
@[simp] theorem State.draw_mft (s : State) (n : Nat) : ((s.draw n).2).mft = s.mft := rfl
@[simp] theorem State.draw_pwr (s : State) (n : Nat) : ((s.draw n).2).pwr = s.pwr := rfl
@[simp] theorem State.draw_tst (s : State) (n : Nat) : ((s.draw n).2).tst = s.tst := rfl
@[simp] theorem State.draw_msix (s : State) (n : Nat) : ((s.draw n).2).msix = s.msix := rfl
@[simp] theorem State.draw_sram (s : State) (n : Nat) : ((s.draw n).2).sram = s.sram := rfl
@[simp] theorem State.draw_dram (s : State) (n : Nat) : ((s.draw n).2).dram = s.dram := rfl
@[simp] theorem State.draw_sent (s : State) (n : Nat) : ((s.draw n).2).sent = s.sent := rfl

/-! random -/

@[simp] theorem State.random_pending (s : State) (n : Nat) : ((s.random n).2).pending = s.pending := rfl
@[simp] theorem State.random_regs (s : State) (n : Nat) : ((s.random n).2).regs = s.regs := rfl
@[simp] theorem State.random_clk (s : State) (n : Nat) : ((s.random n).2).clk = s.clk := rfl
@[simp] theorem State.random_xing (s : State) (n : Nat) : ((s.random n).2).xing = s.xing := rfl
@[simp] theorem State.random_aon (s : State) (n : Nat) : ((s.random n).2).aon = s.aon := rfl
@[simp] theorem State.random_fuses (s : State) (n : Nat) : ((s.random n).2).fuses = s.fuses := rfl
@[simp] theorem State.random_whf (s : State) (n : Nat) : ((s.random n).2).whf = s.whf := rfl
@[simp] theorem State.random_fry (s : State) (n : Nat) : ((s.random n).2).fry = s.fry := rfl
@[simp] theorem State.random_oar (s : State) (n : Nat) : ((s.random n).2).oar = s.oar := rfl
@[simp] theorem State.random_flows (s : State) (n : Nat) : ((s.random n).2).flows = s.flows := rfl
@[simp] theorem State.random_txn (s : State) (n : Nat) : ((s.random n).2).txn = s.txn := rfl
@[simp] theorem State.random_cmt (s : State) (n : Nat) : ((s.random n).2).cmt = s.cmt := rfl
@[simp] theorem State.random_hld (s : State) (n : Nat) : ((s.random n).2).hld = s.hld := rfl
@[simp] theorem State.random_nand (s : State) (n : Nat) : ((s.random n).2).nand = s.nand := rfl
@[simp] theorem State.random_lgb (s : State) (n : Nat) : ((s.random n).2).lgb = s.lgb := rfl
@[simp] theorem State.random_man (s : State) (n : Nat) : ((s.random n).2).man = s.man := rfl
@[simp] theorem State.random_live (s : State) (n : Nat) : ((s.random n).2).live = s.live := rfl
@[simp] theorem State.random_img (s : State) (n : Nat) : ((s.random n).2).img = s.img := rfl
@[simp] theorem State.random_met (s : State) (n : Nat) : ((s.random n).2).met = s.met := rfl
@[simp] theorem State.random_plc (s : State) (n : Nat) : ((s.random n).2).plc = s.plc := rfl
@[simp] theorem State.random_rad (s : State) (n : Nat) : ((s.random n).2).rad = s.rad := rfl
@[simp] theorem State.random_eth (s : State) (n : Nat) : ((s.random n).2).eth = s.eth := rfl
@[simp] theorem State.random_gwy (s : State) (n : Nat) : ((s.random n).2).gwy = s.gwy := rfl
@[simp] theorem State.random_val (s : State) (n : Nat) : ((s.random n).2).val = s.val := rfl
@[simp] theorem State.random_ept (s : State) (n : Nat) : ((s.random n).2).ept = s.ept := rfl
@[simp] theorem State.random_bal (s : State) (n : Nat) : ((s.random n).2).bal = s.bal := rfl
@[simp] theorem State.random_trf (s : State) (n : Nat) : ((s.random n).2).trf = s.trf := rfl
@[simp] theorem State.random_bil (s : State) (n : Nat) : ((s.random n).2).bil = s.bil := rfl
@[simp] theorem State.random_tok (s : State) (n : Nat) : ((s.random n).2).tok = s.tok := rfl
@[simp] theorem State.random_pan (s : State) (n : Nat) : ((s.random n).2).pan = s.pan := rfl
@[simp] theorem State.random_keys (s : State) (n : Nat) : ((s.random n).2).keys = s.keys := rfl
@[simp] theorem State.random_mft (s : State) (n : Nat) : ((s.random n).2).mft = s.mft := rfl
@[simp] theorem State.random_pwr (s : State) (n : Nat) : ((s.random n).2).pwr = s.pwr := rfl
@[simp] theorem State.random_tst (s : State) (n : Nat) : ((s.random n).2).tst = s.tst := rfl
@[simp] theorem State.random_msix (s : State) (n : Nat) : ((s.random n).2).msix = s.msix := rfl
@[simp] theorem State.random_sram (s : State) (n : Nat) : ((s.random n).2).sram = s.sram := rfl
@[simp] theorem State.random_dram (s : State) (n : Nat) : ((s.random n).2).dram = s.dram := rfl
@[simp] theorem State.random_sent (s : State) (n : Nat) : ((s.random n).2).sent = s.sent := rfl

/-! setThr -/

@[simp] theorem State.setThr_pending (s : State) (t : Nat) (x : Thread) : (s.setThr t x).pending = s.pending := rfl
@[simp] theorem State.setThr_free (s : State) (t : Nat) (x : Thread) : (s.setThr t x).free = s.free := rfl
@[simp] theorem State.setThr_regs (s : State) (t : Nat) (x : Thread) : (s.setThr t x).regs = s.regs := rfl
@[simp] theorem State.setThr_clk (s : State) (t : Nat) (x : Thread) : (s.setThr t x).clk = s.clk := rfl
@[simp] theorem State.setThr_xing (s : State) (t : Nat) (x : Thread) : (s.setThr t x).xing = s.xing := rfl
@[simp] theorem State.setThr_aon (s : State) (t : Nat) (x : Thread) : (s.setThr t x).aon = s.aon := rfl
@[simp] theorem State.setThr_fuses (s : State) (t : Nat) (x : Thread) : (s.setThr t x).fuses = s.fuses := rfl
@[simp] theorem State.setThr_whf (s : State) (t : Nat) (x : Thread) : (s.setThr t x).whf = s.whf := rfl
@[simp] theorem State.setThr_oar (s : State) (t : Nat) (x : Thread) : (s.setThr t x).oar = s.oar := rfl
@[simp] theorem State.setThr_flows (s : State) (t : Nat) (x : Thread) : (s.setThr t x).flows = s.flows := rfl
@[simp] theorem State.setThr_txn (s : State) (t : Nat) (x : Thread) : (s.setThr t x).txn = s.txn := rfl
@[simp] theorem State.setThr_cmt (s : State) (t : Nat) (x : Thread) : (s.setThr t x).cmt = s.cmt := rfl
@[simp] theorem State.setThr_hld (s : State) (t : Nat) (x : Thread) : (s.setThr t x).hld = s.hld := rfl
@[simp] theorem State.setThr_nand (s : State) (t : Nat) (x : Thread) : (s.setThr t x).nand = s.nand := rfl
@[simp] theorem State.setThr_lgb (s : State) (t : Nat) (x : Thread) : (s.setThr t x).lgb = s.lgb := rfl
@[simp] theorem State.setThr_man (s : State) (t : Nat) (x : Thread) : (s.setThr t x).man = s.man := rfl
@[simp] theorem State.setThr_live (s : State) (t : Nat) (x : Thread) : (s.setThr t x).live = s.live := rfl
@[simp] theorem State.setThr_img (s : State) (t : Nat) (x : Thread) : (s.setThr t x).img = s.img := rfl
@[simp] theorem State.setThr_met (s : State) (t : Nat) (x : Thread) : (s.setThr t x).met = s.met := rfl
@[simp] theorem State.setThr_plc (s : State) (t : Nat) (x : Thread) : (s.setThr t x).plc = s.plc := rfl
@[simp] theorem State.setThr_rad (s : State) (t : Nat) (x : Thread) : (s.setThr t x).rad = s.rad := rfl
@[simp] theorem State.setThr_eth (s : State) (t : Nat) (x : Thread) : (s.setThr t x).eth = s.eth := rfl
@[simp] theorem State.setThr_gwy (s : State) (t : Nat) (x : Thread) : (s.setThr t x).gwy = s.gwy := rfl
@[simp] theorem State.setThr_val (s : State) (t : Nat) (x : Thread) : (s.setThr t x).val = s.val := rfl
@[simp] theorem State.setThr_ept (s : State) (t : Nat) (x : Thread) : (s.setThr t x).ept = s.ept := rfl
@[simp] theorem State.setThr_bal (s : State) (t : Nat) (x : Thread) : (s.setThr t x).bal = s.bal := rfl
@[simp] theorem State.setThr_trf (s : State) (t : Nat) (x : Thread) : (s.setThr t x).trf = s.trf := rfl
@[simp] theorem State.setThr_bil (s : State) (t : Nat) (x : Thread) : (s.setThr t x).bil = s.bil := rfl
@[simp] theorem State.setThr_tok (s : State) (t : Nat) (x : Thread) : (s.setThr t x).tok = s.tok := rfl
@[simp] theorem State.setThr_pan (s : State) (t : Nat) (x : Thread) : (s.setThr t x).pan = s.pan := rfl
@[simp] theorem State.setThr_keys (s : State) (t : Nat) (x : Thread) : (s.setThr t x).keys = s.keys := rfl
@[simp] theorem State.setThr_mft (s : State) (t : Nat) (x : Thread) : (s.setThr t x).mft = s.mft := rfl
@[simp] theorem State.setThr_pwr (s : State) (t : Nat) (x : Thread) : (s.setThr t x).pwr = s.pwr := rfl
@[simp] theorem State.setThr_tst (s : State) (t : Nat) (x : Thread) : (s.setThr t x).tst = s.tst := rfl
@[simp] theorem State.setThr_msix (s : State) (t : Nat) (x : Thread) : (s.setThr t x).msix = s.msix := rfl
@[simp] theorem State.setThr_sram (s : State) (t : Nat) (x : Thread) : (s.setThr t x).sram = s.sram := rfl
@[simp] theorem State.setThr_dram (s : State) (t : Nat) (x : Thread) : (s.setThr t x).dram = s.dram := rfl
@[simp] theorem State.setThr_sent (s : State) (t : Nat) (x : Thread) : (s.setThr t x).sent = s.sent := rfl

/-! setOar -/

@[simp] theorem State.setOar_pending (s : State) (n : Nat) (o : Oarsman) : (s.setOar n o).pending = s.pending := rfl
@[simp] theorem State.setOar_free (s : State) (n : Nat) (o : Oarsman) : (s.setOar n o).free = s.free := rfl
@[simp] theorem State.setOar_regs (s : State) (n : Nat) (o : Oarsman) : (s.setOar n o).regs = s.regs := rfl
@[simp] theorem State.setOar_clk (s : State) (n : Nat) (o : Oarsman) : (s.setOar n o).clk = s.clk := rfl
@[simp] theorem State.setOar_xing (s : State) (n : Nat) (o : Oarsman) : (s.setOar n o).xing = s.xing := rfl
@[simp] theorem State.setOar_aon (s : State) (n : Nat) (o : Oarsman) : (s.setOar n o).aon = s.aon := rfl
@[simp] theorem State.setOar_fuses (s : State) (n : Nat) (o : Oarsman) : (s.setOar n o).fuses = s.fuses := rfl
@[simp] theorem State.setOar_whf (s : State) (n : Nat) (o : Oarsman) : (s.setOar n o).whf = s.whf := rfl
@[simp] theorem State.setOar_fry (s : State) (n : Nat) (o : Oarsman) : (s.setOar n o).fry = s.fry := rfl
@[simp] theorem State.setOar_flows (s : State) (n : Nat) (o : Oarsman) : (s.setOar n o).flows = s.flows := rfl
@[simp] theorem State.setOar_txn (s : State) (n : Nat) (o : Oarsman) : (s.setOar n o).txn = s.txn := rfl
@[simp] theorem State.setOar_cmt (s : State) (n : Nat) (o : Oarsman) : (s.setOar n o).cmt = s.cmt := rfl
@[simp] theorem State.setOar_hld (s : State) (n : Nat) (o : Oarsman) : (s.setOar n o).hld = s.hld := rfl
@[simp] theorem State.setOar_nand (s : State) (n : Nat) (o : Oarsman) : (s.setOar n o).nand = s.nand := rfl
@[simp] theorem State.setOar_lgb (s : State) (n : Nat) (o : Oarsman) : (s.setOar n o).lgb = s.lgb := rfl
@[simp] theorem State.setOar_man (s : State) (n : Nat) (o : Oarsman) : (s.setOar n o).man = s.man := rfl
@[simp] theorem State.setOar_live (s : State) (n : Nat) (o : Oarsman) : (s.setOar n o).live = s.live := rfl
@[simp] theorem State.setOar_img (s : State) (n : Nat) (o : Oarsman) : (s.setOar n o).img = s.img := rfl
@[simp] theorem State.setOar_met (s : State) (n : Nat) (o : Oarsman) : (s.setOar n o).met = s.met := rfl
@[simp] theorem State.setOar_plc (s : State) (n : Nat) (o : Oarsman) : (s.setOar n o).plc = s.plc := rfl
@[simp] theorem State.setOar_rad (s : State) (n : Nat) (o : Oarsman) : (s.setOar n o).rad = s.rad := rfl
@[simp] theorem State.setOar_eth (s : State) (n : Nat) (o : Oarsman) : (s.setOar n o).eth = s.eth := rfl
@[simp] theorem State.setOar_gwy (s : State) (n : Nat) (o : Oarsman) : (s.setOar n o).gwy = s.gwy := rfl
@[simp] theorem State.setOar_val (s : State) (n : Nat) (o : Oarsman) : (s.setOar n o).val = s.val := rfl
@[simp] theorem State.setOar_ept (s : State) (n : Nat) (o : Oarsman) : (s.setOar n o).ept = s.ept := rfl
@[simp] theorem State.setOar_bal (s : State) (n : Nat) (o : Oarsman) : (s.setOar n o).bal = s.bal := rfl
@[simp] theorem State.setOar_trf (s : State) (n : Nat) (o : Oarsman) : (s.setOar n o).trf = s.trf := rfl
@[simp] theorem State.setOar_bil (s : State) (n : Nat) (o : Oarsman) : (s.setOar n o).bil = s.bil := rfl
@[simp] theorem State.setOar_tok (s : State) (n : Nat) (o : Oarsman) : (s.setOar n o).tok = s.tok := rfl
@[simp] theorem State.setOar_pan (s : State) (n : Nat) (o : Oarsman) : (s.setOar n o).pan = s.pan := rfl
@[simp] theorem State.setOar_keys (s : State) (n : Nat) (o : Oarsman) : (s.setOar n o).keys = s.keys := rfl
@[simp] theorem State.setOar_mft (s : State) (n : Nat) (o : Oarsman) : (s.setOar n o).mft = s.mft := rfl
@[simp] theorem State.setOar_pwr (s : State) (n : Nat) (o : Oarsman) : (s.setOar n o).pwr = s.pwr := rfl
@[simp] theorem State.setOar_tst (s : State) (n : Nat) (o : Oarsman) : (s.setOar n o).tst = s.tst := rfl
@[simp] theorem State.setOar_msix (s : State) (n : Nat) (o : Oarsman) : (s.setOar n o).msix = s.msix := rfl
@[simp] theorem State.setOar_sram (s : State) (n : Nat) (o : Oarsman) : (s.setOar n o).sram = s.sram := rfl
@[simp] theorem State.setOar_dram (s : State) (n : Nat) (o : Oarsman) : (s.setOar n o).dram = s.dram := rfl
@[simp] theorem State.setOar_sent (s : State) (n : Nat) (o : Oarsman) : (s.setOar n o).sent = s.sent := rfl

/-! joinReady -/

@[simp] theorem State.joinReady_pending (s : State) (t : Nat) (h : Bool) : (s.joinReady t h).pending = s.pending := rfl
@[simp] theorem State.joinReady_free (s : State) (t : Nat) (h : Bool) : (s.joinReady t h).free = s.free := rfl
@[simp] theorem State.joinReady_regs (s : State) (t : Nat) (h : Bool) : (s.joinReady t h).regs = s.regs := rfl
@[simp] theorem State.joinReady_clk (s : State) (t : Nat) (h : Bool) : (s.joinReady t h).clk = s.clk := rfl
@[simp] theorem State.joinReady_xing (s : State) (t : Nat) (h : Bool) : (s.joinReady t h).xing = s.xing := rfl
@[simp] theorem State.joinReady_aon (s : State) (t : Nat) (h : Bool) : (s.joinReady t h).aon = s.aon := rfl
@[simp] theorem State.joinReady_fuses (s : State) (t : Nat) (h : Bool) : (s.joinReady t h).fuses = s.fuses := rfl
@[simp] theorem State.joinReady_whf (s : State) (t : Nat) (h : Bool) : (s.joinReady t h).whf = s.whf := rfl
@[simp] theorem State.joinReady_oar (s : State) (t : Nat) (h : Bool) : (s.joinReady t h).oar = s.oar := rfl
@[simp] theorem State.joinReady_flows (s : State) (t : Nat) (h : Bool) : (s.joinReady t h).flows = s.flows := rfl
@[simp] theorem State.joinReady_txn (s : State) (t : Nat) (h : Bool) : (s.joinReady t h).txn = s.txn := rfl
@[simp] theorem State.joinReady_cmt (s : State) (t : Nat) (h : Bool) : (s.joinReady t h).cmt = s.cmt := rfl
@[simp] theorem State.joinReady_hld (s : State) (t : Nat) (h : Bool) : (s.joinReady t h).hld = s.hld := rfl
@[simp] theorem State.joinReady_nand (s : State) (t : Nat) (h : Bool) : (s.joinReady t h).nand = s.nand := rfl
@[simp] theorem State.joinReady_lgb (s : State) (t : Nat) (h : Bool) : (s.joinReady t h).lgb = s.lgb := rfl
@[simp] theorem State.joinReady_man (s : State) (t : Nat) (h : Bool) : (s.joinReady t h).man = s.man := rfl
@[simp] theorem State.joinReady_live (s : State) (t : Nat) (h : Bool) : (s.joinReady t h).live = s.live := rfl
@[simp] theorem State.joinReady_img (s : State) (t : Nat) (h : Bool) : (s.joinReady t h).img = s.img := rfl
@[simp] theorem State.joinReady_met (s : State) (t : Nat) (h : Bool) : (s.joinReady t h).met = s.met := rfl
@[simp] theorem State.joinReady_plc (s : State) (t : Nat) (h : Bool) : (s.joinReady t h).plc = s.plc := rfl
@[simp] theorem State.joinReady_rad (s : State) (t : Nat) (h : Bool) : (s.joinReady t h).rad = s.rad := rfl
@[simp] theorem State.joinReady_eth (s : State) (t : Nat) (h : Bool) : (s.joinReady t h).eth = s.eth := rfl
@[simp] theorem State.joinReady_gwy (s : State) (t : Nat) (h : Bool) : (s.joinReady t h).gwy = s.gwy := rfl
@[simp] theorem State.joinReady_val (s : State) (t : Nat) (h : Bool) : (s.joinReady t h).val = s.val := rfl
@[simp] theorem State.joinReady_ept (s : State) (t : Nat) (h : Bool) : (s.joinReady t h).ept = s.ept := rfl
@[simp] theorem State.joinReady_bal (s : State) (t : Nat) (h : Bool) : (s.joinReady t h).bal = s.bal := rfl
@[simp] theorem State.joinReady_trf (s : State) (t : Nat) (h : Bool) : (s.joinReady t h).trf = s.trf := rfl
@[simp] theorem State.joinReady_bil (s : State) (t : Nat) (h : Bool) : (s.joinReady t h).bil = s.bil := rfl
@[simp] theorem State.joinReady_tok (s : State) (t : Nat) (h : Bool) : (s.joinReady t h).tok = s.tok := rfl
@[simp] theorem State.joinReady_pan (s : State) (t : Nat) (h : Bool) : (s.joinReady t h).pan = s.pan := rfl
@[simp] theorem State.joinReady_keys (s : State) (t : Nat) (h : Bool) : (s.joinReady t h).keys = s.keys := rfl
@[simp] theorem State.joinReady_mft (s : State) (t : Nat) (h : Bool) : (s.joinReady t h).mft = s.mft := rfl
@[simp] theorem State.joinReady_pwr (s : State) (t : Nat) (h : Bool) : (s.joinReady t h).pwr = s.pwr := rfl
@[simp] theorem State.joinReady_tst (s : State) (t : Nat) (h : Bool) : (s.joinReady t h).tst = s.tst := rfl
@[simp] theorem State.joinReady_msix (s : State) (t : Nat) (h : Bool) : (s.joinReady t h).msix = s.msix := rfl
@[simp] theorem State.joinReady_sram (s : State) (t : Nat) (h : Bool) : (s.joinReady t h).sram = s.sram := rfl
@[simp] theorem State.joinReady_dram (s : State) (t : Nat) (h : Bool) : (s.joinReady t h).dram = s.dram := rfl
@[simp] theorem State.joinReady_sent (s : State) (t : Nat) (h : Bool) : (s.joinReady t h).sent = s.sent := rfl

/-! wake -/

@[simp] theorem State.wake_pending (s : State) (e t : Nat) : (s.wake e t).pending = s.pending := rfl
@[simp] theorem State.wake_free (s : State) (e t : Nat) : (s.wake e t).free = s.free := rfl
@[simp] theorem State.wake_regs (s : State) (e t : Nat) : (s.wake e t).regs = s.regs := rfl
@[simp] theorem State.wake_clk (s : State) (e t : Nat) : (s.wake e t).clk = s.clk := rfl
@[simp] theorem State.wake_xing (s : State) (e t : Nat) : (s.wake e t).xing = s.xing := rfl
@[simp] theorem State.wake_aon (s : State) (e t : Nat) : (s.wake e t).aon = s.aon := rfl
@[simp] theorem State.wake_fuses (s : State) (e t : Nat) : (s.wake e t).fuses = s.fuses := rfl
@[simp] theorem State.wake_whf (s : State) (e t : Nat) : (s.wake e t).whf = s.whf := rfl
@[simp] theorem State.wake_oar (s : State) (e t : Nat) : (s.wake e t).oar = s.oar := rfl
@[simp] theorem State.wake_flows (s : State) (e t : Nat) : (s.wake e t).flows = s.flows := rfl
@[simp] theorem State.wake_txn (s : State) (e t : Nat) : (s.wake e t).txn = s.txn := rfl
@[simp] theorem State.wake_cmt (s : State) (e t : Nat) : (s.wake e t).cmt = s.cmt := rfl
@[simp] theorem State.wake_hld (s : State) (e t : Nat) : (s.wake e t).hld = s.hld := rfl
@[simp] theorem State.wake_nand (s : State) (e t : Nat) : (s.wake e t).nand = s.nand := rfl
@[simp] theorem State.wake_lgb (s : State) (e t : Nat) : (s.wake e t).lgb = s.lgb := rfl
@[simp] theorem State.wake_man (s : State) (e t : Nat) : (s.wake e t).man = s.man := rfl
@[simp] theorem State.wake_live (s : State) (e t : Nat) : (s.wake e t).live = s.live := rfl
@[simp] theorem State.wake_img (s : State) (e t : Nat) : (s.wake e t).img = s.img := rfl
@[simp] theorem State.wake_met (s : State) (e t : Nat) : (s.wake e t).met = s.met := rfl
@[simp] theorem State.wake_plc (s : State) (e t : Nat) : (s.wake e t).plc = s.plc := rfl
@[simp] theorem State.wake_rad (s : State) (e t : Nat) : (s.wake e t).rad = s.rad := rfl
@[simp] theorem State.wake_eth (s : State) (e t : Nat) : (s.wake e t).eth = s.eth := rfl
@[simp] theorem State.wake_gwy (s : State) (e t : Nat) : (s.wake e t).gwy = s.gwy := rfl
@[simp] theorem State.wake_val (s : State) (e t : Nat) : (s.wake e t).val = s.val := rfl
@[simp] theorem State.wake_ept (s : State) (e t : Nat) : (s.wake e t).ept = s.ept := rfl
@[simp] theorem State.wake_bal (s : State) (e t : Nat) : (s.wake e t).bal = s.bal := rfl
@[simp] theorem State.wake_trf (s : State) (e t : Nat) : (s.wake e t).trf = s.trf := rfl
@[simp] theorem State.wake_bil (s : State) (e t : Nat) : (s.wake e t).bil = s.bil := rfl
@[simp] theorem State.wake_tok (s : State) (e t : Nat) : (s.wake e t).tok = s.tok := rfl
@[simp] theorem State.wake_pan (s : State) (e t : Nat) : (s.wake e t).pan = s.pan := rfl
@[simp] theorem State.wake_keys (s : State) (e t : Nat) : (s.wake e t).keys = s.keys := rfl
@[simp] theorem State.wake_mft (s : State) (e t : Nat) : (s.wake e t).mft = s.mft := rfl
@[simp] theorem State.wake_pwr (s : State) (e t : Nat) : (s.wake e t).pwr = s.pwr := rfl
@[simp] theorem State.wake_tst (s : State) (e t : Nat) : (s.wake e t).tst = s.tst := rfl
@[simp] theorem State.wake_msix (s : State) (e t : Nat) : (s.wake e t).msix = s.msix := rfl
@[simp] theorem State.wake_sram (s : State) (e t : Nat) : (s.wake e t).sram = s.sram := rfl
@[simp] theorem State.wake_dram (s : State) (e t : Nat) : (s.wake e t).dram = s.dram := rfl
@[simp] theorem State.wake_sent (s : State) (e t : Nat) : (s.wake e t).sent = s.sent := rfl

/-! emit -/

@[simp] theorem State.emit_pending (s : State) (x : Output) : (s.emit x).pending = s.pending := rfl
@[simp] theorem State.emit_free (s : State) (x : Output) : (s.emit x).free = s.free := rfl
@[simp] theorem State.emit_regs (s : State) (x : Output) : (s.emit x).regs = s.regs := rfl
@[simp] theorem State.emit_clk (s : State) (x : Output) : (s.emit x).clk = s.clk := rfl
@[simp] theorem State.emit_xing (s : State) (x : Output) : (s.emit x).xing = s.xing := rfl
@[simp] theorem State.emit_aon (s : State) (x : Output) : (s.emit x).aon = s.aon := rfl
@[simp] theorem State.emit_fuses (s : State) (x : Output) : (s.emit x).fuses = s.fuses := rfl
@[simp] theorem State.emit_whf (s : State) (x : Output) : (s.emit x).whf = s.whf := rfl
@[simp] theorem State.emit_fry (s : State) (x : Output) : (s.emit x).fry = s.fry := rfl
@[simp] theorem State.emit_oar (s : State) (x : Output) : (s.emit x).oar = s.oar := rfl
@[simp] theorem State.emit_flows (s : State) (x : Output) : (s.emit x).flows = s.flows := rfl
@[simp] theorem State.emit_txn (s : State) (x : Output) : (s.emit x).txn = s.txn := rfl
@[simp] theorem State.emit_cmt (s : State) (x : Output) : (s.emit x).cmt = s.cmt := rfl
@[simp] theorem State.emit_hld (s : State) (x : Output) : (s.emit x).hld = s.hld := rfl
@[simp] theorem State.emit_nand (s : State) (x : Output) : (s.emit x).nand = s.nand := rfl
@[simp] theorem State.emit_lgb (s : State) (x : Output) : (s.emit x).lgb = s.lgb := rfl
@[simp] theorem State.emit_man (s : State) (x : Output) : (s.emit x).man = s.man := rfl
@[simp] theorem State.emit_live (s : State) (x : Output) : (s.emit x).live = s.live := rfl
@[simp] theorem State.emit_img (s : State) (x : Output) : (s.emit x).img = s.img := rfl
@[simp] theorem State.emit_met (s : State) (x : Output) : (s.emit x).met = s.met := rfl
@[simp] theorem State.emit_plc (s : State) (x : Output) : (s.emit x).plc = s.plc := rfl
@[simp] theorem State.emit_rad (s : State) (x : Output) : (s.emit x).rad = s.rad := rfl
@[simp] theorem State.emit_eth (s : State) (x : Output) : (s.emit x).eth = s.eth := rfl
@[simp] theorem State.emit_gwy (s : State) (x : Output) : (s.emit x).gwy = s.gwy := rfl
@[simp] theorem State.emit_val (s : State) (x : Output) : (s.emit x).val = s.val := rfl
@[simp] theorem State.emit_ept (s : State) (x : Output) : (s.emit x).ept = s.ept := rfl
@[simp] theorem State.emit_bal (s : State) (x : Output) : (s.emit x).bal = s.bal := rfl
@[simp] theorem State.emit_trf (s : State) (x : Output) : (s.emit x).trf = s.trf := rfl
@[simp] theorem State.emit_bil (s : State) (x : Output) : (s.emit x).bil = s.bil := rfl
@[simp] theorem State.emit_tok (s : State) (x : Output) : (s.emit x).tok = s.tok := rfl
@[simp] theorem State.emit_pan (s : State) (x : Output) : (s.emit x).pan = s.pan := rfl
@[simp] theorem State.emit_keys (s : State) (x : Output) : (s.emit x).keys = s.keys := rfl
@[simp] theorem State.emit_mft (s : State) (x : Output) : (s.emit x).mft = s.mft := rfl
@[simp] theorem State.emit_pwr (s : State) (x : Output) : (s.emit x).pwr = s.pwr := rfl
@[simp] theorem State.emit_tst (s : State) (x : Output) : (s.emit x).tst = s.tst := rfl
@[simp] theorem State.emit_msix (s : State) (x : Output) : (s.emit x).msix = s.msix := rfl
@[simp] theorem State.emit_sram (s : State) (x : Output) : (s.emit x).sram = s.sram := rfl
@[simp] theorem State.emit_dram (s : State) (x : Output) : (s.emit x).dram = s.dram := rfl

/-! lgbDrain -/

@[simp] theorem State.lgbDrain_pending (s : State) (n : Nat) : (s.lgbDrain n).pending = s.pending := rfl
@[simp] theorem State.lgbDrain_free (s : State) (n : Nat) : (s.lgbDrain n).free = s.free := rfl
@[simp] theorem State.lgbDrain_regs (s : State) (n : Nat) : (s.lgbDrain n).regs = s.regs := rfl
@[simp] theorem State.lgbDrain_clk (s : State) (n : Nat) : (s.lgbDrain n).clk = s.clk := rfl
@[simp] theorem State.lgbDrain_xing (s : State) (n : Nat) : (s.lgbDrain n).xing = s.xing := rfl
@[simp] theorem State.lgbDrain_aon (s : State) (n : Nat) : (s.lgbDrain n).aon = s.aon := rfl
@[simp] theorem State.lgbDrain_fuses (s : State) (n : Nat) : (s.lgbDrain n).fuses = s.fuses := rfl
@[simp] theorem State.lgbDrain_whf (s : State) (n : Nat) : (s.lgbDrain n).whf = s.whf := rfl
@[simp] theorem State.lgbDrain_fry (s : State) (n : Nat) : (s.lgbDrain n).fry = s.fry := rfl
@[simp] theorem State.lgbDrain_oar (s : State) (n : Nat) : (s.lgbDrain n).oar = s.oar := rfl
@[simp] theorem State.lgbDrain_flows (s : State) (n : Nat) : (s.lgbDrain n).flows = s.flows := rfl
@[simp] theorem State.lgbDrain_txn (s : State) (n : Nat) : (s.lgbDrain n).txn = s.txn := rfl
@[simp] theorem State.lgbDrain_cmt (s : State) (n : Nat) : (s.lgbDrain n).cmt = s.cmt := rfl
@[simp] theorem State.lgbDrain_hld (s : State) (n : Nat) : (s.lgbDrain n).hld = s.hld := rfl
@[simp] theorem State.lgbDrain_nand (s : State) (n : Nat) : (s.lgbDrain n).nand = s.nand := rfl
@[simp] theorem State.lgbDrain_man (s : State) (n : Nat) : (s.lgbDrain n).man = s.man := rfl
@[simp] theorem State.lgbDrain_live (s : State) (n : Nat) : (s.lgbDrain n).live = s.live := rfl
@[simp] theorem State.lgbDrain_img (s : State) (n : Nat) : (s.lgbDrain n).img = s.img := rfl
@[simp] theorem State.lgbDrain_met (s : State) (n : Nat) : (s.lgbDrain n).met = s.met := rfl
@[simp] theorem State.lgbDrain_plc (s : State) (n : Nat) : (s.lgbDrain n).plc = s.plc := rfl
@[simp] theorem State.lgbDrain_rad (s : State) (n : Nat) : (s.lgbDrain n).rad = s.rad := rfl
@[simp] theorem State.lgbDrain_eth (s : State) (n : Nat) : (s.lgbDrain n).eth = s.eth := rfl
@[simp] theorem State.lgbDrain_gwy (s : State) (n : Nat) : (s.lgbDrain n).gwy = s.gwy := rfl
@[simp] theorem State.lgbDrain_val (s : State) (n : Nat) : (s.lgbDrain n).val = s.val := rfl
@[simp] theorem State.lgbDrain_ept (s : State) (n : Nat) : (s.lgbDrain n).ept = s.ept := rfl
@[simp] theorem State.lgbDrain_bal (s : State) (n : Nat) : (s.lgbDrain n).bal = s.bal := rfl
@[simp] theorem State.lgbDrain_trf (s : State) (n : Nat) : (s.lgbDrain n).trf = s.trf := rfl
@[simp] theorem State.lgbDrain_bil (s : State) (n : Nat) : (s.lgbDrain n).bil = s.bil := rfl
@[simp] theorem State.lgbDrain_tok (s : State) (n : Nat) : (s.lgbDrain n).tok = s.tok := rfl
@[simp] theorem State.lgbDrain_pan (s : State) (n : Nat) : (s.lgbDrain n).pan = s.pan := rfl
@[simp] theorem State.lgbDrain_keys (s : State) (n : Nat) : (s.lgbDrain n).keys = s.keys := rfl
@[simp] theorem State.lgbDrain_mft (s : State) (n : Nat) : (s.lgbDrain n).mft = s.mft := rfl
@[simp] theorem State.lgbDrain_pwr (s : State) (n : Nat) : (s.lgbDrain n).pwr = s.pwr := rfl
@[simp] theorem State.lgbDrain_tst (s : State) (n : Nat) : (s.lgbDrain n).tst = s.tst := rfl
@[simp] theorem State.lgbDrain_msix (s : State) (n : Nat) : (s.lgbDrain n).msix = s.msix := rfl
@[simp] theorem State.lgbDrain_sram (s : State) (n : Nat) : (s.lgbDrain n).sram = s.sram := rfl
@[simp] theorem State.lgbDrain_dram (s : State) (n : Nat) : (s.lgbDrain n).dram = s.dram := rfl
@[simp] theorem State.lgbDrain_sent (s : State) (n : Nat) : (s.lgbDrain n).sent = s.sent := rfl

end Sys2Proof.Machine
end

