-- ==== Sys2Proof/Laws/Regs.lean ====
section
/-!
SUPPORT. Registers and their fields: what is read after a write.
-/
namespace Sys2Proof.Machine

/-- A register after a register write. -/
@[simp] theorem State.reg_setReg (s : State) (a b : Nat) (w : Word) : (s.setReg a w).reg b = if b = a then w else s.reg b := by
  simp [State.reg, State.setReg]

theorem State.reg_set (s : State) (f : Fld) (v b : Nat) :
    (s.set f v).reg b = if b = f.addr then putBits (s.reg f.addr) f.hi f.lo v else s.reg b := by simp [State.set]

/-- A bit of a number's field mask. -/
theorem maskOf_bit (hi lo k : Nat) (hl : lo ≤ hi) (hh : hi < 32) : (maskOf hi lo).getLsbD k = (decide (lo ≤ k) && decide (k ≤ hi)) := by
  unfold maskOf
  rw [BitVec.getLsbD_ofNat, Nat.testBit_shiftLeft, Nat.testBit_two_pow_sub_one]
  by_cases h1 : lo ≤ k <;> by_cases h2 : k ≤ hi <;> simp [h1, h2] <;> omega

/-- A bit of a word after a field write. -/
theorem putBits_bit (w : Word) (hi lo v k : Nat) (hl : lo ≤ hi) (hh : hi < 32) :
    (putBits w hi lo v).getLsbD k = if lo ≤ k ∧ k ≤ hi then v.testBit (k - lo) else w.getLsbD k := by
  unfold putBits
  rw [BitVec.getLsbD_or, BitVec.getLsbD_and, BitVec.getLsbD_and, BitVec.getLsbD_not, maskOf_bit hi lo k hl hh, BitVec.getLsbD_ofNat,
    Nat.testBit_shiftLeft]
  by_cases h1 : lo ≤ k <;> by_cases h2 : k ≤ hi <;> simp [h1, h2]
  · omega
  · intro h; exact w.lt_of_getLsbD h
  · intro h; exact w.lt_of_getLsbD h
  · intro h; exact w.lt_of_getLsbD h

/-- A bit of a field read as a number. -/
theorem bitsOf_bit (w : Word) (hi lo k : Nat) : (bitsOf w hi lo).testBit k = (decide (k < hi + 1 - lo) && w.getLsbD (lo + k)) := by
  unfold bitsOf
  rw [Nat.testBit_mod_two_pow, Nat.testBit_shiftRight]
  rfl

/-- A field read after it is written: the value, cut to the field. -/
theorem bitsOf_putBits (w : Word) (hi lo v : Nat) (hl : lo ≤ hi) (hh : hi < 32) :
    bitsOf (putBits w hi lo v) hi lo = v % 2 ^ (hi + 1 - lo) := by
  apply Nat.eq_of_testBit_eq
  intro k
  rw [bitsOf_bit, putBits_bit _ _ _ _ _ hl hh, Nat.testBit_mod_two_pow]
  by_cases h : k < hi + 1 - lo
  · have a : lo ≤ lo + k ∧ lo + k ≤ hi := ⟨by omega, by omega⟩
    have b : lo + k - lo = k := by omega
    simp [h, a, b]
  · simp [h]

/-- A field read after another field of the word is written. -/
theorem bitsOf_putBits_other (w : Word) (hi lo v hi2 lo2 : Nat) (hl : lo ≤ hi) (hh : hi < 32) (hd : hi2 < lo ∨ hi < lo2) :
    bitsOf (putBits w hi lo v) hi2 lo2 = bitsOf w hi2 lo2 := by
  apply Nat.eq_of_testBit_eq
  intro k
  rw [bitsOf_bit, bitsOf_bit, putBits_bit _ _ _ _ _ hl hh]
  by_cases h : k < hi2 + 1 - lo2
  · have a : ¬ (lo ≤ lo2 + k ∧ lo2 + k ≤ hi) := by omega
    simp [a]
  · simp [h]

/-- A field of a state after it is set. -/
theorem State.get_set (s : State) (f : Fld) (v : Nat) (hl : f.lo ≤ f.hi) (hh : f.hi < 32) :
    (s.set f v).get f = v % 2 ^ (f.hi + 1 - f.lo) := by
  simp [State.get, State.reg_set, bitsOf_putBits _ _ _ _ hl hh]

/-- A field of a state after another field is set. -/
theorem State.get_set_other (s : State) (f g : Fld) (v : Nat) (hl : f.lo ≤ f.hi) (hh : f.hi < 32)
    (hd : g.addr ≠ f.addr ∨ g.hi < f.lo ∨ f.hi < g.lo) : (s.set f v).get g = s.get g := by
  simp only [State.get, State.reg_set]
  split
  · rename_i h
    rw [bitsOf_putBits_other _ _ _ _ _ _ hl hh (hd.resolve_left (fun k => k h)), h]
  · rfl

/-- A field of two states that hold the same word at its register. -/
theorem State.get_congr {s t : State} {f : Fld} (h : t.reg f.addr = s.reg f.addr) : t.get f = s.get f := by simp only [State.get, h]

/-- A field of a state after a register is written whole. -/
theorem State.get_setReg (s : State) (a : Nat) (w : Word) (g : Fld) :
    (s.setReg a w).get g = if g.addr = a then bitsOf w g.hi g.lo else s.get g := by
  simp only [State.get, State.reg_setReg]
  split <;> rfl

end Sys2Proof.Machine
end

