-- ==== Sys2Proof/Laws/Events.lean ====
section
/-!
SUPPORT. Raising an event, writing a Logbook record, refusing an access: what each may change, and what each does.
-/
namespace Sys2Proof.Machine

/-! ### Parts -/

@[simp] theorem onlyIn_refl (ps : List Part) (s : State) : onlyIn ps s s := fun p _ => by cases p <;> rfl

theorem onlyIn_trans {ps : List Part} {s t u : State} (h : onlyIn ps s t) (k : onlyIn ps t u) : onlyIn ps s u := fun p hp => by
  have a := h p hp
  have b := k p hp
  cases p <;> exact b.trans a

theorem onlyIn_mono {ps qs : List Part} {s t : State} (h : onlyIn ps s t) (k : ps ⊆ qs) : onlyIn qs s t :=
  fun p hp => h p fun q => hp (k q)

/-- A fold of steps that each keep to some parts keeps to them. -/
theorem onlyIn_foldl {α : Type} {ps : List Part} (f : State → α → State) (h : ∀ s x, onlyIn ps s (f s x)) (l : List α) (s : State) :
    onlyIn ps s (l.foldl f s) := by
  induction l generalizing s with
  | nil => exact onlyIn_refl ps s
  | cons x l ih => exact onlyIn_trans (h s x) (ih (f s x))

@[simp] theorem keepsRegs_refl (ks : List Nat) (s : State) : keepsRegs ks s s := fun _ _ => rfl

theorem keepsRegs_trans {ks : List Nat} {s t u : State} (h : keepsRegs ks s t) (k : keepsRegs ks t u) : keepsRegs ks s u :=
  fun a ha => (k a ha).trans (h a ha)

theorem keepsRegs_mono {ks ls : List Nat} {s t : State} (h : keepsRegs ks s t) (k : ks ⊆ ls) : keepsRegs ls s t :=
  fun a ha => h a fun q => ha (k q)

theorem keepsRegs_foldl {α : Type} {ks : List Nat} (f : State → α → State) (h : ∀ s x, keepsRegs ks s (f s x)) (l : List α)
    (s : State) : keepsRegs ks s (l.foldl f s) := by
  induction l generalizing s with
  | nil => exact keepsRegs_refl ks s
  | cons x l ih => exact keepsRegs_trans (h s x) (ih (f s x))

/-- A state with the same registers. -/
theorem keepsRegs_of_eq (ks : List Nat) {s t : State} (h : t.regs = s.regs) : keepsRegs ks s t := fun a _ => by
  simp only [State.reg, h]

/-! ### One part updated -/

theorem onlyIn_pending (s : State) (x) (ps : List Part) (h : Part.pending ∈ ps) : onlyIn ps s { s with pending := x } := fun p hp => by
  cases p <;> first | exact absurd h hp | rfl

theorem onlyIn_free (s : State) (x) (ps : List Part) (h : Part.free ∈ ps) : onlyIn ps s { s with free := x } := fun p hp => by
  cases p <;> first | exact absurd h hp | rfl

theorem onlyIn_regs (s : State) (x) (ps : List Part) (h : Part.regs ∈ ps) : onlyIn ps s { s with regs := x } := fun p hp => by
  cases p <;> first | exact absurd h hp | rfl

theorem onlyIn_clk (s : State) (x) (ps : List Part) (h : Part.clk ∈ ps) : onlyIn ps s { s with clk := x } := fun p hp => by
  cases p <;> first | exact absurd h hp | rfl

theorem onlyIn_xing (s : State) (x) (ps : List Part) (h : Part.xing ∈ ps) : onlyIn ps s { s with xing := x } := fun p hp => by
  cases p <;> first | exact absurd h hp | rfl

theorem onlyIn_aon (s : State) (x) (ps : List Part) (h : Part.aon ∈ ps) : onlyIn ps s { s with aon := x } := fun p hp => by
  cases p <;> first | exact absurd h hp | rfl

theorem onlyIn_fuses (s : State) (x) (ps : List Part) (h : Part.fuses ∈ ps) : onlyIn ps s { s with fuses := x } := fun p hp => by
  cases p <;> first | exact absurd h hp | rfl

theorem onlyIn_whf (s : State) (x) (ps : List Part) (h : Part.whf ∈ ps) : onlyIn ps s { s with whf := x } := fun p hp => by
  cases p <;> first | exact absurd h hp | rfl

theorem onlyIn_fry (s : State) (x) (ps : List Part) (h : Part.fry ∈ ps) : onlyIn ps s { s with fry := x } := fun p hp => by
  cases p <;> first | exact absurd h hp | rfl

theorem onlyIn_oar (s : State) (x) (ps : List Part) (h : Part.oar ∈ ps) : onlyIn ps s { s with oar := x } := fun p hp => by
  cases p <;> first | exact absurd h hp | rfl

theorem onlyIn_flows (s : State) (x) (ps : List Part) (h : Part.flows ∈ ps) : onlyIn ps s { s with flows := x } := fun p hp => by
  cases p <;> first | exact absurd h hp | rfl

theorem onlyIn_txn (s : State) (x) (ps : List Part) (h : Part.txn ∈ ps) : onlyIn ps s { s with txn := x } := fun p hp => by
  cases p <;> first | exact absurd h hp | rfl

theorem onlyIn_cmt (s : State) (x) (ps : List Part) (h : Part.cmt ∈ ps) : onlyIn ps s { s with cmt := x } := fun p hp => by
  cases p <;> first | exact absurd h hp | rfl

theorem onlyIn_hld (s : State) (x) (ps : List Part) (h : Part.hld ∈ ps) : onlyIn ps s { s with hld := x } := fun p hp => by
  cases p <;> first | exact absurd h hp | rfl

theorem onlyIn_nand (s : State) (x) (ps : List Part) (h : Part.nand ∈ ps) : onlyIn ps s { s with nand := x } := fun p hp => by
  cases p <;> first | exact absurd h hp | rfl

theorem onlyIn_lgb (s : State) (x) (ps : List Part) (h : Part.lgb ∈ ps) : onlyIn ps s { s with lgb := x } := fun p hp => by
  cases p <;> first | exact absurd h hp | rfl

theorem onlyIn_man (s : State) (x) (ps : List Part) (h : Part.man ∈ ps) : onlyIn ps s { s with man := x } := fun p hp => by
  cases p <;> first | exact absurd h hp | rfl

theorem onlyIn_live (s : State) (x) (ps : List Part) (h : Part.live ∈ ps) : onlyIn ps s { s with live := x } := fun p hp => by
  cases p <;> first | exact absurd h hp | rfl

theorem onlyIn_img (s : State) (x) (ps : List Part) (h : Part.img ∈ ps) : onlyIn ps s { s with img := x } := fun p hp => by
  cases p <;> first | exact absurd h hp | rfl

theorem onlyIn_met (s : State) (x) (ps : List Part) (h : Part.met ∈ ps) : onlyIn ps s { s with met := x } := fun p hp => by
  cases p <;> first | exact absurd h hp | rfl

theorem onlyIn_plc (s : State) (x) (ps : List Part) (h : Part.plc ∈ ps) : onlyIn ps s { s with plc := x } := fun p hp => by
  cases p <;> first | exact absurd h hp | rfl

theorem onlyIn_rad (s : State) (x) (ps : List Part) (h : Part.rad ∈ ps) : onlyIn ps s { s with rad := x } := fun p hp => by
  cases p <;> first | exact absurd h hp | rfl

theorem onlyIn_eth (s : State) (x) (ps : List Part) (h : Part.eth ∈ ps) : onlyIn ps s { s with eth := x } := fun p hp => by
  cases p <;> first | exact absurd h hp | rfl

theorem onlyIn_gwy (s : State) (x) (ps : List Part) (h : Part.gwy ∈ ps) : onlyIn ps s { s with gwy := x } := fun p hp => by
  cases p <;> first | exact absurd h hp | rfl

theorem onlyIn_val (s : State) (x) (ps : List Part) (h : Part.val ∈ ps) : onlyIn ps s { s with val := x } := fun p hp => by
  cases p <;> first | exact absurd h hp | rfl

theorem onlyIn_ept (s : State) (x) (ps : List Part) (h : Part.ept ∈ ps) : onlyIn ps s { s with ept := x } := fun p hp => by
  cases p <;> first | exact absurd h hp | rfl

theorem onlyIn_bal (s : State) (x) (ps : List Part) (h : Part.bal ∈ ps) : onlyIn ps s { s with bal := x } := fun p hp => by
  cases p <;> first | exact absurd h hp | rfl

theorem onlyIn_trf (s : State) (x) (ps : List Part) (h : Part.trf ∈ ps) : onlyIn ps s { s with trf := x } := fun p hp => by
  cases p <;> first | exact absurd h hp | rfl

theorem onlyIn_bil (s : State) (x) (ps : List Part) (h : Part.bil ∈ ps) : onlyIn ps s { s with bil := x } := fun p hp => by
  cases p <;> first | exact absurd h hp | rfl

theorem onlyIn_tok (s : State) (x) (ps : List Part) (h : Part.tok ∈ ps) : onlyIn ps s { s with tok := x } := fun p hp => by
  cases p <;> first | exact absurd h hp | rfl

theorem onlyIn_pan (s : State) (x) (ps : List Part) (h : Part.pan ∈ ps) : onlyIn ps s { s with pan := x } := fun p hp => by
  cases p <;> first | exact absurd h hp | rfl

theorem onlyIn_keys (s : State) (x) (ps : List Part) (h : Part.keys ∈ ps) : onlyIn ps s { s with keys := x } := fun p hp => by
  cases p <;> first | exact absurd h hp | rfl

theorem onlyIn_mft (s : State) (x) (ps : List Part) (h : Part.mft ∈ ps) : onlyIn ps s { s with mft := x } := fun p hp => by
  cases p <;> first | exact absurd h hp | rfl

theorem onlyIn_pwr (s : State) (x) (ps : List Part) (h : Part.pwr ∈ ps) : onlyIn ps s { s with pwr := x } := fun p hp => by
  cases p <;> first | exact absurd h hp | rfl

theorem onlyIn_tst (s : State) (x) (ps : List Part) (h : Part.tst ∈ ps) : onlyIn ps s { s with tst := x } := fun p hp => by
  cases p <;> first | exact absurd h hp | rfl

theorem onlyIn_msix (s : State) (x) (ps : List Part) (h : Part.msix ∈ ps) : onlyIn ps s { s with msix := x } := fun p hp => by
  cases p <;> first | exact absurd h hp | rfl

theorem onlyIn_sram (s : State) (x) (ps : List Part) (h : Part.sram ∈ ps) : onlyIn ps s { s with sram := x } := fun p hp => by
  cases p <;> first | exact absurd h hp | rfl

theorem onlyIn_dram (s : State) (x) (ps : List Part) (h : Part.dram ∈ ps) : onlyIn ps s { s with dram := x } := fun p hp => by
  cases p <;> first | exact absurd h hp | rfl

theorem onlyIn_sent (s : State) (x) (ps : List Part) (h : Part.sent ∈ ps) : onlyIn ps s { s with sent := x } := fun p hp => by
  cases p <;> first | exact absurd h hp | rfl

theorem State.setReg_only (s : State) (a : Nat) (w : Word) (ps : List Part) (h : Part.regs ∈ ps) : onlyIn ps s (s.setReg a w) :=
  onlyIn_regs s _ ps h

theorem State.set_only (s : State) (f : Fld) (v : Nat) (ps : List Part) (h : Part.regs ∈ ps) : onlyIn ps s (s.set f v) :=
  onlyIn_regs s _ ps h

theorem State.bump_only (s : State) (f : Fld) (n : Nat) (ps : List Part) (h : Part.regs ∈ ps) : onlyIn ps s (s.bump f n) :=
  onlyIn_regs s _ ps h

theorem State.bump_regs (s : State) (f : Fld) (n : Nat) : keepsRegs [f.addr] s (s.bump f n) := fun a ha => by
  simp only [List.mem_singleton] at ha
  simp [State.bump, State.reg_set, ha]

/-! ### Raising an event -/

theorem msixOf_only (e : Nat) (s : State) : onlyIn [.msix, .sent] s (msixOf e s) := by
  unfold msixOf
  simp only
  split
  · exact onlyIn_refl _ s
  · split
    · exact onlyIn_sent s _ _ (by decide)
    · exact onlyIn_msix s _ _ (by decide)

/-- An assertion at an Oarsman changes Oarsmen alone. -/
theorem oarAssert_eq (e n : Nat) (s : State) : ∃ m, oarAssert e s n = { s with oar := m } := by
  unfold oarAssert
  split
  · simp only
    split
    · split <;> exact ⟨_, rfl⟩
    · exact ⟨_, rfl⟩
  · exact ⟨_, rfl⟩

theorem oarAssert_only (e n : Nat) (s : State) : onlyIn [.oar] s (oarAssert e s n) := fun p hp => by
  obtain ⟨m, h⟩ := oarAssert_eq e n s
  rw [h]
  exact onlyIn_oar s m _ (by decide) p hp

theorem State.wake_only (s : State) (e t : Nat) : onlyIn [.fry] s (s.wake e t) := onlyIn_fry s _ _ (by decide)

/-- What reaches PCIe and the Oarsmen of an assertion. -/
def State.reach (s : State) (e : Nat) : State := (List.range 16).foldl (oarAssert e) (msixOf e s)

theorem State.reach_only (s : State) (e : Nat) : onlyIn [.oar, .msix, .sent] s (s.reach e) :=
  onlyIn_trans (onlyIn_mono (msixOf_only e s) (by decide))
    (onlyIn_foldl _ (fun s n => onlyIn_mono (oarAssert_only e n s) (by decide)) _ _)

@[simp] theorem State.reach_fry (s : State) (e : Nat) : (s.reach e).fry = s.fry := s.reach_only e .fry (by decide)
@[simp] theorem State.reach_regs (s : State) (e : Nat) : (s.reach e).regs = s.regs := s.reach_only e .regs (by decide)

/-- An assertion by what reaches PCIe and the Oarsmen and what the Ferryman does with it. -/
theorem State.assertEvt_eq (s : State) (e : Nat) : s.assertEvt e =
    match (s.reach e).waitersOn e with
    | [] =>
      if e ∈ s.fry.latches then
        if e ∈ s.fry.episodes then ((s.reach e).bump fryCnt_COALESCED 1, false)
        else ({ (s.reach e).bump fryCnt_COALESCED 1 with fry := { s.fry with episodes := e :: s.fry.episodes } }, true)
      else ({ s.reach e with fry := { s.fry with latches := e :: s.fry.latches } }, false)
    | ws => (ws.foldl (fun st t => st.wake e t) (s.reach e), false) := by
  have h : (s.reach e).fry = s.fry := s.reach_fry e
  unfold State.assertEvt
  simp only [← State.reach.eq_def, State.bump_fry, h]
  all_goals (cases (s.reach e).waitersOn e <;> rfl)

theorem State.waitersOn_reach (s : State) (e : Nat) : (s.reach e).waitersOn e = s.waitersOn e := by
  simp only [State.waitersOn, State.reach_fry]

theorem State.assertEvt_only (s : State) (e : Nat) : onlyIn evtParts s (s.assertEvt e).1 := by
  have h : onlyIn evtParts s (s.reach e) := onlyIn_mono (s.reach_only e) (by decide)
  rw [State.assertEvt_eq]
  generalize s.reach e = r at *
  have k := r.bump_only fryCnt_COALESCED 1 evtParts (by decide)
  split
  · split
    · split
      · exact onlyIn_trans h k
      · refine onlyIn_trans h (onlyIn_trans k ?_)
        generalize r.bump fryCnt_COALESCED 1 = u
        exact onlyIn_fry u _ _ (by decide)
    · refine onlyIn_trans h ?_
      exact onlyIn_fry r _ _ (by decide)
  · refine onlyIn_trans h ?_
    exact onlyIn_foldl (fun st t => st.wake e t) (fun s t => onlyIn_mono (s.wake_only e t) (by decide)) _ _

/-- Raising an event changes only what reaches the Ferryman, the Oarsmen and PCIe. -/
theorem State.raise_only (s : State) (e : Nat) : onlyIn evtParts s (s.raise e) := by
  unfold State.raise
  split
  · simp only
    split
    · exact onlyIn_trans (s.assertEvt_only e) (State.assertEvt_only _ 388)
    · exact s.assertEvt_only e
  · exact onlyIn_refl _ s

theorem State.assertEvt_regs (s : State) (e : Nat) : keepsRegs [fryCnt] s (s.assertEvt e).1 := by
  have h : keepsRegs [fryCnt] s (s.reach e) := keepsRegs_of_eq _ (s.reach_regs e)
  rw [State.assertEvt_eq]
  generalize s.reach e = r at *
  have k : keepsRegs [fryCnt] r (r.bump fryCnt_COALESCED 1) := r.bump_regs fryCnt_COALESCED 1
  split
  · split
    · split
      · exact keepsRegs_trans h k
      · refine keepsRegs_trans h (keepsRegs_trans k ?_)
        generalize r.bump fryCnt_COALESCED 1 = u
        exact keepsRegs_of_eq _ rfl
    · refine keepsRegs_trans h ?_
      exact keepsRegs_of_eq _ rfl
  · refine keepsRegs_trans h ?_
    exact keepsRegs_foldl (fun st t => st.wake e t) (fun s t => keepsRegs_of_eq _ (s.wake_regs e t)) _ _

/-- Raising an event changes no register but FRY_CNT. -/
theorem State.raise_regs (s : State) (e : Nat) : keepsRegs [fryCnt] s (s.raise e) := by
  unfold State.raise
  split
  · simp only
    split
    · exact keepsRegs_trans (s.assertEvt_regs e) (State.assertEvt_regs _ 388)
    · exact s.assertEvt_regs e
  · exact keepsRegs_refl _ s

/-- An event whose enable bit is 0 is not raised (R41). -/
theorem State.raise_off (s : State) (e : Nat) (h : s.evtOn e = false) : s.raise e = s := by simp [State.raise, h]

/-- An enabled event on which no thread waits is latched (R411). -/
theorem State.raise_latch (s : State) (e : Nat) (h : s.evtOn e = true) (w : s.waitersOn e = []) : e ∈ (s.raise e).fry.latches := by
  have a : e ∈ (s.assertEvt e).1.fry.latches := by
    rw [State.assertEvt_eq, State.waitersOn_reach, w]
    simp only
    split
    · rename_i m
      split
      · simpa using m
      · exact m
    · exact List.mem_cons_self
  have wl : ∀ (l : List Nat) (st : State) (d : Nat), (l.foldl (fun st t => st.wake d t) st).fry.latches = st.fry.latches := by
    intro l; induction l with
    | nil => intro st d; rfl
    | cons x l ih => intro st d; simp only [List.foldl_cons, ih]; rfl
  have b : ∀ (st : State) (d : Nat), e ∈ st.fry.latches → e ∈ (st.assertEvt d).1.fry.latches := by
    intro st d m
    rw [State.assertEvt_eq]
    split
    · split
      · split
        · simpa using m
        · exact m
      · exact List.mem_cons_of_mem _ m
    · rw [wl]; simpa using m
  unfold State.raise
  simp only [h, if_true]
  split
  · exact b _ 388 a
  · exact a

@[simp] theorem State.raise_pending (s : State) (e : Nat) : (s.raise e).pending = s.pending := s.raise_only e .pending (by decide)
@[simp] theorem State.raise_free (s : State) (e : Nat) : (s.raise e).free = s.free := s.raise_only e .free (by decide)
@[simp] theorem State.raise_clk (s : State) (e : Nat) : (s.raise e).clk = s.clk := s.raise_only e .clk (by decide)
@[simp] theorem State.raise_xing (s : State) (e : Nat) : (s.raise e).xing = s.xing := s.raise_only e .xing (by decide)
@[simp] theorem State.raise_aon (s : State) (e : Nat) : (s.raise e).aon = s.aon := s.raise_only e .aon (by decide)
@[simp] theorem State.raise_fuses (s : State) (e : Nat) : (s.raise e).fuses = s.fuses := s.raise_only e .fuses (by decide)
@[simp] theorem State.raise_whf (s : State) (e : Nat) : (s.raise e).whf = s.whf := s.raise_only e .whf (by decide)
@[simp] theorem State.raise_flows (s : State) (e : Nat) : (s.raise e).flows = s.flows := s.raise_only e .flows (by decide)
@[simp] theorem State.raise_txn (s : State) (e : Nat) : (s.raise e).txn = s.txn := s.raise_only e .txn (by decide)
@[simp] theorem State.raise_cmt (s : State) (e : Nat) : (s.raise e).cmt = s.cmt := s.raise_only e .cmt (by decide)
@[simp] theorem State.raise_hld (s : State) (e : Nat) : (s.raise e).hld = s.hld := s.raise_only e .hld (by decide)
@[simp] theorem State.raise_nand (s : State) (e : Nat) : (s.raise e).nand = s.nand := s.raise_only e .nand (by decide)
@[simp] theorem State.raise_lgb (s : State) (e : Nat) : (s.raise e).lgb = s.lgb := s.raise_only e .lgb (by decide)
@[simp] theorem State.raise_man (s : State) (e : Nat) : (s.raise e).man = s.man := s.raise_only e .man (by decide)
@[simp] theorem State.raise_live (s : State) (e : Nat) : (s.raise e).live = s.live := s.raise_only e .live (by decide)
@[simp] theorem State.raise_img (s : State) (e : Nat) : (s.raise e).img = s.img := s.raise_only e .img (by decide)
@[simp] theorem State.raise_met (s : State) (e : Nat) : (s.raise e).met = s.met := s.raise_only e .met (by decide)
@[simp] theorem State.raise_plc (s : State) (e : Nat) : (s.raise e).plc = s.plc := s.raise_only e .plc (by decide)
@[simp] theorem State.raise_rad (s : State) (e : Nat) : (s.raise e).rad = s.rad := s.raise_only e .rad (by decide)
@[simp] theorem State.raise_eth (s : State) (e : Nat) : (s.raise e).eth = s.eth := s.raise_only e .eth (by decide)
@[simp] theorem State.raise_gwy (s : State) (e : Nat) : (s.raise e).gwy = s.gwy := s.raise_only e .gwy (by decide)
@[simp] theorem State.raise_val (s : State) (e : Nat) : (s.raise e).val = s.val := s.raise_only e .val (by decide)
@[simp] theorem State.raise_ept (s : State) (e : Nat) : (s.raise e).ept = s.ept := s.raise_only e .ept (by decide)
@[simp] theorem State.raise_bal (s : State) (e : Nat) : (s.raise e).bal = s.bal := s.raise_only e .bal (by decide)
@[simp] theorem State.raise_trf (s : State) (e : Nat) : (s.raise e).trf = s.trf := s.raise_only e .trf (by decide)
@[simp] theorem State.raise_bil (s : State) (e : Nat) : (s.raise e).bil = s.bil := s.raise_only e .bil (by decide)
@[simp] theorem State.raise_tok (s : State) (e : Nat) : (s.raise e).tok = s.tok := s.raise_only e .tok (by decide)
@[simp] theorem State.raise_pan (s : State) (e : Nat) : (s.raise e).pan = s.pan := s.raise_only e .pan (by decide)
@[simp] theorem State.raise_keys (s : State) (e : Nat) : (s.raise e).keys = s.keys := s.raise_only e .keys (by decide)
@[simp] theorem State.raise_mft (s : State) (e : Nat) : (s.raise e).mft = s.mft := s.raise_only e .mft (by decide)
@[simp] theorem State.raise_pwr (s : State) (e : Nat) : (s.raise e).pwr = s.pwr := s.raise_only e .pwr (by decide)
@[simp] theorem State.raise_tst (s : State) (e : Nat) : (s.raise e).tst = s.tst := s.raise_only e .tst (by decide)
@[simp] theorem State.raise_sram (s : State) (e : Nat) : (s.raise e).sram = s.sram := s.raise_only e .sram (by decide)
@[simp] theorem State.raise_dram (s : State) (e : Nat) : (s.raise e).dram = s.dram := s.raise_only e .dram (by decide)

/-- Raising an event leaves every register but FRY_CNT. -/
@[simp] theorem State.raise_reg (s : State) (e a : Nat) (h : a ≠ fryCnt) : (s.raise e).reg a = s.reg a :=
  s.raise_regs e a (by simpa using h)

theorem State.raiseIf_only (s : State) (c : Bool) (e : Nat) : onlyIn evtParts s (s.raiseIf c e) := by
  unfold State.raiseIf; split
  · exact s.raise_only e
  · exact onlyIn_refl _ s

theorem State.raiseIf_regs (s : State) (c : Bool) (e : Nat) : keepsRegs [fryCnt] s (s.raiseIf c e) := by
  unfold State.raiseIf; split
  · exact s.raise_regs e
  · exact keepsRegs_refl _ s

@[simp] theorem State.raiseIf_pending (s : State) (c : Bool) (e : Nat) : (s.raiseIf c e).pending = s.pending := s.raiseIf_only c e .pending (by decide)
@[simp] theorem State.raiseIf_free (s : State) (c : Bool) (e : Nat) : (s.raiseIf c e).free = s.free := s.raiseIf_only c e .free (by decide)
@[simp] theorem State.raiseIf_clk (s : State) (c : Bool) (e : Nat) : (s.raiseIf c e).clk = s.clk := s.raiseIf_only c e .clk (by decide)
@[simp] theorem State.raiseIf_xing (s : State) (c : Bool) (e : Nat) : (s.raiseIf c e).xing = s.xing := s.raiseIf_only c e .xing (by decide)
@[simp] theorem State.raiseIf_aon (s : State) (c : Bool) (e : Nat) : (s.raiseIf c e).aon = s.aon := s.raiseIf_only c e .aon (by decide)
@[simp] theorem State.raiseIf_fuses (s : State) (c : Bool) (e : Nat) : (s.raiseIf c e).fuses = s.fuses := s.raiseIf_only c e .fuses (by decide)
@[simp] theorem State.raiseIf_whf (s : State) (c : Bool) (e : Nat) : (s.raiseIf c e).whf = s.whf := s.raiseIf_only c e .whf (by decide)
@[simp] theorem State.raiseIf_flows (s : State) (c : Bool) (e : Nat) : (s.raiseIf c e).flows = s.flows := s.raiseIf_only c e .flows (by decide)
@[simp] theorem State.raiseIf_txn (s : State) (c : Bool) (e : Nat) : (s.raiseIf c e).txn = s.txn := s.raiseIf_only c e .txn (by decide)
@[simp] theorem State.raiseIf_cmt (s : State) (c : Bool) (e : Nat) : (s.raiseIf c e).cmt = s.cmt := s.raiseIf_only c e .cmt (by decide)
@[simp] theorem State.raiseIf_hld (s : State) (c : Bool) (e : Nat) : (s.raiseIf c e).hld = s.hld := s.raiseIf_only c e .hld (by decide)
@[simp] theorem State.raiseIf_nand (s : State) (c : Bool) (e : Nat) : (s.raiseIf c e).nand = s.nand := s.raiseIf_only c e .nand (by decide)
@[simp] theorem State.raiseIf_lgb (s : State) (c : Bool) (e : Nat) : (s.raiseIf c e).lgb = s.lgb := s.raiseIf_only c e .lgb (by decide)
@[simp] theorem State.raiseIf_man (s : State) (c : Bool) (e : Nat) : (s.raiseIf c e).man = s.man := s.raiseIf_only c e .man (by decide)
@[simp] theorem State.raiseIf_live (s : State) (c : Bool) (e : Nat) : (s.raiseIf c e).live = s.live := s.raiseIf_only c e .live (by decide)
@[simp] theorem State.raiseIf_img (s : State) (c : Bool) (e : Nat) : (s.raiseIf c e).img = s.img := s.raiseIf_only c e .img (by decide)
@[simp] theorem State.raiseIf_met (s : State) (c : Bool) (e : Nat) : (s.raiseIf c e).met = s.met := s.raiseIf_only c e .met (by decide)
@[simp] theorem State.raiseIf_plc (s : State) (c : Bool) (e : Nat) : (s.raiseIf c e).plc = s.plc := s.raiseIf_only c e .plc (by decide)
@[simp] theorem State.raiseIf_rad (s : State) (c : Bool) (e : Nat) : (s.raiseIf c e).rad = s.rad := s.raiseIf_only c e .rad (by decide)
@[simp] theorem State.raiseIf_eth (s : State) (c : Bool) (e : Nat) : (s.raiseIf c e).eth = s.eth := s.raiseIf_only c e .eth (by decide)
@[simp] theorem State.raiseIf_gwy (s : State) (c : Bool) (e : Nat) : (s.raiseIf c e).gwy = s.gwy := s.raiseIf_only c e .gwy (by decide)
@[simp] theorem State.raiseIf_val (s : State) (c : Bool) (e : Nat) : (s.raiseIf c e).val = s.val := s.raiseIf_only c e .val (by decide)
@[simp] theorem State.raiseIf_ept (s : State) (c : Bool) (e : Nat) : (s.raiseIf c e).ept = s.ept := s.raiseIf_only c e .ept (by decide)
@[simp] theorem State.raiseIf_bal (s : State) (c : Bool) (e : Nat) : (s.raiseIf c e).bal = s.bal := s.raiseIf_only c e .bal (by decide)
@[simp] theorem State.raiseIf_trf (s : State) (c : Bool) (e : Nat) : (s.raiseIf c e).trf = s.trf := s.raiseIf_only c e .trf (by decide)
@[simp] theorem State.raiseIf_bil (s : State) (c : Bool) (e : Nat) : (s.raiseIf c e).bil = s.bil := s.raiseIf_only c e .bil (by decide)
@[simp] theorem State.raiseIf_tok (s : State) (c : Bool) (e : Nat) : (s.raiseIf c e).tok = s.tok := s.raiseIf_only c e .tok (by decide)
@[simp] theorem State.raiseIf_pan (s : State) (c : Bool) (e : Nat) : (s.raiseIf c e).pan = s.pan := s.raiseIf_only c e .pan (by decide)
@[simp] theorem State.raiseIf_keys (s : State) (c : Bool) (e : Nat) : (s.raiseIf c e).keys = s.keys := s.raiseIf_only c e .keys (by decide)
@[simp] theorem State.raiseIf_mft (s : State) (c : Bool) (e : Nat) : (s.raiseIf c e).mft = s.mft := s.raiseIf_only c e .mft (by decide)
@[simp] theorem State.raiseIf_pwr (s : State) (c : Bool) (e : Nat) : (s.raiseIf c e).pwr = s.pwr := s.raiseIf_only c e .pwr (by decide)
@[simp] theorem State.raiseIf_tst (s : State) (c : Bool) (e : Nat) : (s.raiseIf c e).tst = s.tst := s.raiseIf_only c e .tst (by decide)
@[simp] theorem State.raiseIf_sram (s : State) (c : Bool) (e : Nat) : (s.raiseIf c e).sram = s.sram := s.raiseIf_only c e .sram (by decide)
@[simp] theorem State.raiseIf_dram (s : State) (c : Bool) (e : Nat) : (s.raiseIf c e).dram = s.dram := s.raiseIf_only c e .dram (by decide)

@[simp] theorem State.raiseIf_reg (s : State) (c : Bool) (e a : Nat) (h : a ≠ fryCnt) : (s.raiseIf c e).reg a = s.reg a :=
  s.raiseIf_regs c e a (by simpa using h)

/-! ### The Logbook -/

theorem State.lgbEnter_only (s : State) (r : LogRec) : onlyIn logParts s (s.lgbEnter r) := by
  unfold State.lgbEnter
  have a : ∀ (st : State) l, onlyIn logParts st { st with lgb := l } := fun st l => onlyIn_lgb st l _ (by decide)
  have b : ∀ (st : State) e, onlyIn logParts st (st.raise e) := fun st e => onlyIn_mono (st.raise_only e) (by decide)
  simp only
  split
  · exact onlyIn_trans (onlyIn_trans (onlyIn_trans (a s _) (b _ 448)) (a _ _)) (b _ 450)
  · exact onlyIn_trans (a s _) (b _ 448)

theorem State.lgbEnter_regs (s : State) (r : LogRec) : keepsRegs [fryCnt] s (s.lgbEnter r) := by
  unfold State.lgbEnter
  have a : ∀ (st : State) l, keepsRegs [fryCnt] st { st with lgb := l } := fun st l => keepsRegs_of_eq _ rfl
  simp only
  split
  · exact keepsRegs_trans (keepsRegs_trans (keepsRegs_trans (a s _) (State.raise_regs _ 448)) (a _ _)) (State.raise_regs _ 450)
  · exact keepsRegs_trans (a s _) (State.raise_regs _ 448)

theorem State.lgbAppend_only (s : State) (r : LogRec) : onlyIn logParts s (s.lgbAppend r) := by
  have k := onlyIn_trans (onlyIn_lgb s { s.lgb with lostJust := false } logParts (by decide))
    (State.lgbEnter_only { s with lgb := { s.lgb with lostJust := false } } { r with flags := r.flags + 4 * ofBool s.lgb.lostJust })
  unfold State.lgbAppend
  simp only
  generalize State.lgbEnter { s with lgb := { s.lgb with lostJust := false } } { r with flags := r.flags + 4 * ofBool s.lgb.lostJust } = u at *
  split
  · exact k
  · exact onlyIn_trans (onlyIn_trans k (onlyIn_lgb u _ _ (by decide))) (State.lgbEnter_only _ _)

theorem State.lgbAppend_regs (s : State) (r : LogRec) : keepsRegs [fryCnt] s (s.lgbAppend r) := by
  have e : keepsRegs [fryCnt] s { s with lgb := { s.lgb with lostJust := false } } := keepsRegs_of_eq _ rfl
  have k := keepsRegs_trans e
    (State.lgbEnter_regs { s with lgb := { s.lgb with lostJust := false } } { r with flags := r.flags + 4 * ofBool s.lgb.lostJust })
  clear e
  unfold State.lgbAppend
  simp only
  generalize State.lgbEnter { s with lgb := { s.lgb with lostJust := false } } { r with flags := r.flags + 4 * ofBool s.lgb.lostJust } = u at *
  split
  · exact k
  · refine keepsRegs_trans ?_ (State.lgbEnter_regs _ _)
    exact keepsRegs_trans k (keepsRegs_of_eq _ rfl)

/-- A Logbook record changes the Logbook and what its events reach. -/
theorem State.logRec_only (s : State) (typ source extra : Nat) (d : List Byte) : onlyIn logParts s (s.logRec typ source extra d) := by
  unfold State.logRec
  split
  · have k := s.bump_only lgbStat_LOST 1 logParts (by decide)
    generalize s.bump lgbStat_LOST 1 = u at *
    exact onlyIn_trans k (onlyIn_trans (onlyIn_lgb u _ _ (by decide)) (onlyIn_mono (State.raise_only _ 451) (by decide)))
  · exact s.lgbAppend_only _

/-- A Logbook record changes no register but FRY_CNT and LGB_STAT. -/
theorem State.logRec_regs (s : State) (typ source extra : Nat) (d : List Byte) : keepsRegs logRegs s (s.logRec typ source extra d) := by
  unfold State.logRec
  split
  · have k := keepsRegs_mono (ls := logRegs) (s.bump_regs lgbStat_LOST 1) (by decide)
    generalize s.bump lgbStat_LOST 1 = u at *
    refine keepsRegs_trans k (keepsRegs_trans ?_ (keepsRegs_mono (State.raise_regs _ 451) (by decide)))
    exact keepsRegs_of_eq _ rfl
  · exact keepsRegs_mono (s.lgbAppend_regs _) (by decide)

theorem State.raiseLog_only (s : State) (e : Nat) (d : List Byte) : onlyIn logParts s (s.raiseLog e d) :=
  onlyIn_trans (onlyIn_mono (s.raise_only e) (by decide)) (State.logRec_only _ _ _ _ _)

theorem State.raiseLog_regs (s : State) (e : Nat) (d : List Byte) : keepsRegs logRegs s (s.raiseLog e d) :=
  keepsRegs_trans (keepsRegs_mono (s.raise_regs e) (by decide)) (State.logRec_regs _ _ _ _ _)

@[simp] theorem State.logRec_pending (s : State) (typ source extra : Nat) (d : List Byte) : (s.logRec typ source extra d).pending = s.pending := s.logRec_only typ source extra d .pending (by decide)
@[simp] theorem State.logRec_free (s : State) (typ source extra : Nat) (d : List Byte) : (s.logRec typ source extra d).free = s.free := s.logRec_only typ source extra d .free (by decide)
@[simp] theorem State.logRec_clk (s : State) (typ source extra : Nat) (d : List Byte) : (s.logRec typ source extra d).clk = s.clk := s.logRec_only typ source extra d .clk (by decide)
@[simp] theorem State.logRec_xing (s : State) (typ source extra : Nat) (d : List Byte) : (s.logRec typ source extra d).xing = s.xing := s.logRec_only typ source extra d .xing (by decide)
@[simp] theorem State.logRec_aon (s : State) (typ source extra : Nat) (d : List Byte) : (s.logRec typ source extra d).aon = s.aon := s.logRec_only typ source extra d .aon (by decide)
@[simp] theorem State.logRec_fuses (s : State) (typ source extra : Nat) (d : List Byte) : (s.logRec typ source extra d).fuses = s.fuses := s.logRec_only typ source extra d .fuses (by decide)
@[simp] theorem State.logRec_whf (s : State) (typ source extra : Nat) (d : List Byte) : (s.logRec typ source extra d).whf = s.whf := s.logRec_only typ source extra d .whf (by decide)
@[simp] theorem State.logRec_flows (s : State) (typ source extra : Nat) (d : List Byte) : (s.logRec typ source extra d).flows = s.flows := s.logRec_only typ source extra d .flows (by decide)
@[simp] theorem State.logRec_txn (s : State) (typ source extra : Nat) (d : List Byte) : (s.logRec typ source extra d).txn = s.txn := s.logRec_only typ source extra d .txn (by decide)
@[simp] theorem State.logRec_cmt (s : State) (typ source extra : Nat) (d : List Byte) : (s.logRec typ source extra d).cmt = s.cmt := s.logRec_only typ source extra d .cmt (by decide)
@[simp] theorem State.logRec_hld (s : State) (typ source extra : Nat) (d : List Byte) : (s.logRec typ source extra d).hld = s.hld := s.logRec_only typ source extra d .hld (by decide)
@[simp] theorem State.logRec_nand (s : State) (typ source extra : Nat) (d : List Byte) : (s.logRec typ source extra d).nand = s.nand := s.logRec_only typ source extra d .nand (by decide)
@[simp] theorem State.logRec_man (s : State) (typ source extra : Nat) (d : List Byte) : (s.logRec typ source extra d).man = s.man := s.logRec_only typ source extra d .man (by decide)
@[simp] theorem State.logRec_live (s : State) (typ source extra : Nat) (d : List Byte) : (s.logRec typ source extra d).live = s.live := s.logRec_only typ source extra d .live (by decide)
@[simp] theorem State.logRec_img (s : State) (typ source extra : Nat) (d : List Byte) : (s.logRec typ source extra d).img = s.img := s.logRec_only typ source extra d .img (by decide)
@[simp] theorem State.logRec_met (s : State) (typ source extra : Nat) (d : List Byte) : (s.logRec typ source extra d).met = s.met := s.logRec_only typ source extra d .met (by decide)
@[simp] theorem State.logRec_plc (s : State) (typ source extra : Nat) (d : List Byte) : (s.logRec typ source extra d).plc = s.plc := s.logRec_only typ source extra d .plc (by decide)
@[simp] theorem State.logRec_rad (s : State) (typ source extra : Nat) (d : List Byte) : (s.logRec typ source extra d).rad = s.rad := s.logRec_only typ source extra d .rad (by decide)
@[simp] theorem State.logRec_eth (s : State) (typ source extra : Nat) (d : List Byte) : (s.logRec typ source extra d).eth = s.eth := s.logRec_only typ source extra d .eth (by decide)
@[simp] theorem State.logRec_gwy (s : State) (typ source extra : Nat) (d : List Byte) : (s.logRec typ source extra d).gwy = s.gwy := s.logRec_only typ source extra d .gwy (by decide)
@[simp] theorem State.logRec_val (s : State) (typ source extra : Nat) (d : List Byte) : (s.logRec typ source extra d).val = s.val := s.logRec_only typ source extra d .val (by decide)
@[simp] theorem State.logRec_ept (s : State) (typ source extra : Nat) (d : List Byte) : (s.logRec typ source extra d).ept = s.ept := s.logRec_only typ source extra d .ept (by decide)
@[simp] theorem State.logRec_bal (s : State) (typ source extra : Nat) (d : List Byte) : (s.logRec typ source extra d).bal = s.bal := s.logRec_only typ source extra d .bal (by decide)
@[simp] theorem State.logRec_trf (s : State) (typ source extra : Nat) (d : List Byte) : (s.logRec typ source extra d).trf = s.trf := s.logRec_only typ source extra d .trf (by decide)
@[simp] theorem State.logRec_bil (s : State) (typ source extra : Nat) (d : List Byte) : (s.logRec typ source extra d).bil = s.bil := s.logRec_only typ source extra d .bil (by decide)
@[simp] theorem State.logRec_tok (s : State) (typ source extra : Nat) (d : List Byte) : (s.logRec typ source extra d).tok = s.tok := s.logRec_only typ source extra d .tok (by decide)
@[simp] theorem State.logRec_pan (s : State) (typ source extra : Nat) (d : List Byte) : (s.logRec typ source extra d).pan = s.pan := s.logRec_only typ source extra d .pan (by decide)
@[simp] theorem State.logRec_keys (s : State) (typ source extra : Nat) (d : List Byte) : (s.logRec typ source extra d).keys = s.keys := s.logRec_only typ source extra d .keys (by decide)
@[simp] theorem State.logRec_mft (s : State) (typ source extra : Nat) (d : List Byte) : (s.logRec typ source extra d).mft = s.mft := s.logRec_only typ source extra d .mft (by decide)
@[simp] theorem State.logRec_pwr (s : State) (typ source extra : Nat) (d : List Byte) : (s.logRec typ source extra d).pwr = s.pwr := s.logRec_only typ source extra d .pwr (by decide)
@[simp] theorem State.logRec_tst (s : State) (typ source extra : Nat) (d : List Byte) : (s.logRec typ source extra d).tst = s.tst := s.logRec_only typ source extra d .tst (by decide)
@[simp] theorem State.logRec_sram (s : State) (typ source extra : Nat) (d : List Byte) : (s.logRec typ source extra d).sram = s.sram := s.logRec_only typ source extra d .sram (by decide)
@[simp] theorem State.logRec_dram (s : State) (typ source extra : Nat) (d : List Byte) : (s.logRec typ source extra d).dram = s.dram := s.logRec_only typ source extra d .dram (by decide)
@[simp] theorem State.logEvt_pending (s : State) (e : Nat) (d : List Byte) : (s.logEvt e d).pending = s.pending := s.logRec_only _ _ _ _ .pending (by decide)
@[simp] theorem State.logEvt_free (s : State) (e : Nat) (d : List Byte) : (s.logEvt e d).free = s.free := s.logRec_only _ _ _ _ .free (by decide)
@[simp] theorem State.logEvt_clk (s : State) (e : Nat) (d : List Byte) : (s.logEvt e d).clk = s.clk := s.logRec_only _ _ _ _ .clk (by decide)
@[simp] theorem State.logEvt_xing (s : State) (e : Nat) (d : List Byte) : (s.logEvt e d).xing = s.xing := s.logRec_only _ _ _ _ .xing (by decide)
@[simp] theorem State.logEvt_aon (s : State) (e : Nat) (d : List Byte) : (s.logEvt e d).aon = s.aon := s.logRec_only _ _ _ _ .aon (by decide)
@[simp] theorem State.logEvt_fuses (s : State) (e : Nat) (d : List Byte) : (s.logEvt e d).fuses = s.fuses := s.logRec_only _ _ _ _ .fuses (by decide)
@[simp] theorem State.logEvt_whf (s : State) (e : Nat) (d : List Byte) : (s.logEvt e d).whf = s.whf := s.logRec_only _ _ _ _ .whf (by decide)
@[simp] theorem State.logEvt_flows (s : State) (e : Nat) (d : List Byte) : (s.logEvt e d).flows = s.flows := s.logRec_only _ _ _ _ .flows (by decide)
@[simp] theorem State.logEvt_txn (s : State) (e : Nat) (d : List Byte) : (s.logEvt e d).txn = s.txn := s.logRec_only _ _ _ _ .txn (by decide)
@[simp] theorem State.logEvt_cmt (s : State) (e : Nat) (d : List Byte) : (s.logEvt e d).cmt = s.cmt := s.logRec_only _ _ _ _ .cmt (by decide)
@[simp] theorem State.logEvt_hld (s : State) (e : Nat) (d : List Byte) : (s.logEvt e d).hld = s.hld := s.logRec_only _ _ _ _ .hld (by decide)
@[simp] theorem State.logEvt_nand (s : State) (e : Nat) (d : List Byte) : (s.logEvt e d).nand = s.nand := s.logRec_only _ _ _ _ .nand (by decide)
@[simp] theorem State.logEvt_man (s : State) (e : Nat) (d : List Byte) : (s.logEvt e d).man = s.man := s.logRec_only _ _ _ _ .man (by decide)
@[simp] theorem State.logEvt_live (s : State) (e : Nat) (d : List Byte) : (s.logEvt e d).live = s.live := s.logRec_only _ _ _ _ .live (by decide)
@[simp] theorem State.logEvt_img (s : State) (e : Nat) (d : List Byte) : (s.logEvt e d).img = s.img := s.logRec_only _ _ _ _ .img (by decide)
@[simp] theorem State.logEvt_met (s : State) (e : Nat) (d : List Byte) : (s.logEvt e d).met = s.met := s.logRec_only _ _ _ _ .met (by decide)
@[simp] theorem State.logEvt_plc (s : State) (e : Nat) (d : List Byte) : (s.logEvt e d).plc = s.plc := s.logRec_only _ _ _ _ .plc (by decide)
@[simp] theorem State.logEvt_rad (s : State) (e : Nat) (d : List Byte) : (s.logEvt e d).rad = s.rad := s.logRec_only _ _ _ _ .rad (by decide)
@[simp] theorem State.logEvt_eth (s : State) (e : Nat) (d : List Byte) : (s.logEvt e d).eth = s.eth := s.logRec_only _ _ _ _ .eth (by decide)
@[simp] theorem State.logEvt_gwy (s : State) (e : Nat) (d : List Byte) : (s.logEvt e d).gwy = s.gwy := s.logRec_only _ _ _ _ .gwy (by decide)
@[simp] theorem State.logEvt_val (s : State) (e : Nat) (d : List Byte) : (s.logEvt e d).val = s.val := s.logRec_only _ _ _ _ .val (by decide)
@[simp] theorem State.logEvt_ept (s : State) (e : Nat) (d : List Byte) : (s.logEvt e d).ept = s.ept := s.logRec_only _ _ _ _ .ept (by decide)
@[simp] theorem State.logEvt_bal (s : State) (e : Nat) (d : List Byte) : (s.logEvt e d).bal = s.bal := s.logRec_only _ _ _ _ .bal (by decide)
@[simp] theorem State.logEvt_trf (s : State) (e : Nat) (d : List Byte) : (s.logEvt e d).trf = s.trf := s.logRec_only _ _ _ _ .trf (by decide)
@[simp] theorem State.logEvt_bil (s : State) (e : Nat) (d : List Byte) : (s.logEvt e d).bil = s.bil := s.logRec_only _ _ _ _ .bil (by decide)
@[simp] theorem State.logEvt_tok (s : State) (e : Nat) (d : List Byte) : (s.logEvt e d).tok = s.tok := s.logRec_only _ _ _ _ .tok (by decide)
@[simp] theorem State.logEvt_pan (s : State) (e : Nat) (d : List Byte) : (s.logEvt e d).pan = s.pan := s.logRec_only _ _ _ _ .pan (by decide)
@[simp] theorem State.logEvt_keys (s : State) (e : Nat) (d : List Byte) : (s.logEvt e d).keys = s.keys := s.logRec_only _ _ _ _ .keys (by decide)
@[simp] theorem State.logEvt_mft (s : State) (e : Nat) (d : List Byte) : (s.logEvt e d).mft = s.mft := s.logRec_only _ _ _ _ .mft (by decide)
@[simp] theorem State.logEvt_pwr (s : State) (e : Nat) (d : List Byte) : (s.logEvt e d).pwr = s.pwr := s.logRec_only _ _ _ _ .pwr (by decide)
@[simp] theorem State.logEvt_tst (s : State) (e : Nat) (d : List Byte) : (s.logEvt e d).tst = s.tst := s.logRec_only _ _ _ _ .tst (by decide)
@[simp] theorem State.logEvt_sram (s : State) (e : Nat) (d : List Byte) : (s.logEvt e d).sram = s.sram := s.logRec_only _ _ _ _ .sram (by decide)
@[simp] theorem State.logEvt_dram (s : State) (e : Nat) (d : List Byte) : (s.logEvt e d).dram = s.dram := s.logRec_only _ _ _ _ .dram (by decide)
@[simp] theorem State.raiseLog_pending (s : State) (e : Nat) (d : List Byte) : (s.raiseLog e d).pending = s.pending := s.raiseLog_only e d .pending (by decide)
@[simp] theorem State.raiseLog_free (s : State) (e : Nat) (d : List Byte) : (s.raiseLog e d).free = s.free := s.raiseLog_only e d .free (by decide)
@[simp] theorem State.raiseLog_clk (s : State) (e : Nat) (d : List Byte) : (s.raiseLog e d).clk = s.clk := s.raiseLog_only e d .clk (by decide)
@[simp] theorem State.raiseLog_xing (s : State) (e : Nat) (d : List Byte) : (s.raiseLog e d).xing = s.xing := s.raiseLog_only e d .xing (by decide)
@[simp] theorem State.raiseLog_aon (s : State) (e : Nat) (d : List Byte) : (s.raiseLog e d).aon = s.aon := s.raiseLog_only e d .aon (by decide)
@[simp] theorem State.raiseLog_fuses (s : State) (e : Nat) (d : List Byte) : (s.raiseLog e d).fuses = s.fuses := s.raiseLog_only e d .fuses (by decide)
@[simp] theorem State.raiseLog_whf (s : State) (e : Nat) (d : List Byte) : (s.raiseLog e d).whf = s.whf := s.raiseLog_only e d .whf (by decide)
@[simp] theorem State.raiseLog_flows (s : State) (e : Nat) (d : List Byte) : (s.raiseLog e d).flows = s.flows := s.raiseLog_only e d .flows (by decide)
@[simp] theorem State.raiseLog_txn (s : State) (e : Nat) (d : List Byte) : (s.raiseLog e d).txn = s.txn := s.raiseLog_only e d .txn (by decide)
@[simp] theorem State.raiseLog_cmt (s : State) (e : Nat) (d : List Byte) : (s.raiseLog e d).cmt = s.cmt := s.raiseLog_only e d .cmt (by decide)
@[simp] theorem State.raiseLog_hld (s : State) (e : Nat) (d : List Byte) : (s.raiseLog e d).hld = s.hld := s.raiseLog_only e d .hld (by decide)
@[simp] theorem State.raiseLog_nand (s : State) (e : Nat) (d : List Byte) : (s.raiseLog e d).nand = s.nand := s.raiseLog_only e d .nand (by decide)
@[simp] theorem State.raiseLog_man (s : State) (e : Nat) (d : List Byte) : (s.raiseLog e d).man = s.man := s.raiseLog_only e d .man (by decide)
@[simp] theorem State.raiseLog_live (s : State) (e : Nat) (d : List Byte) : (s.raiseLog e d).live = s.live := s.raiseLog_only e d .live (by decide)
@[simp] theorem State.raiseLog_img (s : State) (e : Nat) (d : List Byte) : (s.raiseLog e d).img = s.img := s.raiseLog_only e d .img (by decide)
@[simp] theorem State.raiseLog_met (s : State) (e : Nat) (d : List Byte) : (s.raiseLog e d).met = s.met := s.raiseLog_only e d .met (by decide)
@[simp] theorem State.raiseLog_plc (s : State) (e : Nat) (d : List Byte) : (s.raiseLog e d).plc = s.plc := s.raiseLog_only e d .plc (by decide)
@[simp] theorem State.raiseLog_rad (s : State) (e : Nat) (d : List Byte) : (s.raiseLog e d).rad = s.rad := s.raiseLog_only e d .rad (by decide)
@[simp] theorem State.raiseLog_eth (s : State) (e : Nat) (d : List Byte) : (s.raiseLog e d).eth = s.eth := s.raiseLog_only e d .eth (by decide)
@[simp] theorem State.raiseLog_gwy (s : State) (e : Nat) (d : List Byte) : (s.raiseLog e d).gwy = s.gwy := s.raiseLog_only e d .gwy (by decide)
@[simp] theorem State.raiseLog_val (s : State) (e : Nat) (d : List Byte) : (s.raiseLog e d).val = s.val := s.raiseLog_only e d .val (by decide)
@[simp] theorem State.raiseLog_ept (s : State) (e : Nat) (d : List Byte) : (s.raiseLog e d).ept = s.ept := s.raiseLog_only e d .ept (by decide)
@[simp] theorem State.raiseLog_bal (s : State) (e : Nat) (d : List Byte) : (s.raiseLog e d).bal = s.bal := s.raiseLog_only e d .bal (by decide)
@[simp] theorem State.raiseLog_trf (s : State) (e : Nat) (d : List Byte) : (s.raiseLog e d).trf = s.trf := s.raiseLog_only e d .trf (by decide)
@[simp] theorem State.raiseLog_bil (s : State) (e : Nat) (d : List Byte) : (s.raiseLog e d).bil = s.bil := s.raiseLog_only e d .bil (by decide)
@[simp] theorem State.raiseLog_tok (s : State) (e : Nat) (d : List Byte) : (s.raiseLog e d).tok = s.tok := s.raiseLog_only e d .tok (by decide)
@[simp] theorem State.raiseLog_pan (s : State) (e : Nat) (d : List Byte) : (s.raiseLog e d).pan = s.pan := s.raiseLog_only e d .pan (by decide)
@[simp] theorem State.raiseLog_keys (s : State) (e : Nat) (d : List Byte) : (s.raiseLog e d).keys = s.keys := s.raiseLog_only e d .keys (by decide)
@[simp] theorem State.raiseLog_mft (s : State) (e : Nat) (d : List Byte) : (s.raiseLog e d).mft = s.mft := s.raiseLog_only e d .mft (by decide)
@[simp] theorem State.raiseLog_pwr (s : State) (e : Nat) (d : List Byte) : (s.raiseLog e d).pwr = s.pwr := s.raiseLog_only e d .pwr (by decide)
@[simp] theorem State.raiseLog_tst (s : State) (e : Nat) (d : List Byte) : (s.raiseLog e d).tst = s.tst := s.raiseLog_only e d .tst (by decide)
@[simp] theorem State.raiseLog_sram (s : State) (e : Nat) (d : List Byte) : (s.raiseLog e d).sram = s.sram := s.raiseLog_only e d .sram (by decide)
@[simp] theorem State.raiseLog_dram (s : State) (e : Nat) (d : List Byte) : (s.raiseLog e d).dram = s.dram := s.raiseLog_only e d .dram (by decide)

@[simp] theorem State.logRec_reg (s : State) (typ source extra : Nat) (d : List Byte) (a : Nat) (h : a ≠ fryCnt) (k : a ≠ lgbStat) :
    (s.logRec typ source extra d).reg a = s.reg a := s.logRec_regs typ source extra d a (by simp [logRegs, h, k])

@[simp] theorem State.logEvt_reg (s : State) (e : Nat) (d : List Byte) (a : Nat) (h : a ≠ fryCnt) (k : a ≠ lgbStat) :
    (s.logEvt e d).reg a = s.reg a := s.logRec_reg _ _ _ _ a h k

@[simp] theorem State.raiseLog_reg (s : State) (e : Nat) (d : List Byte) (a : Nat) (h : a ≠ fryCnt) (k : a ≠ lgbStat) :
    (s.raiseLog e d).reg a = s.reg a := s.raiseLog_regs e d a (by simp [logRegs, h, k])

/-! ### Access control -/

theorem State.logRefused_only (s : State) (i : Iface) (a : Nat) (v : Word) : onlyIn logParts s (s.logRefused i a v) :=
  s.logRec_only _ _ _ _

theorem State.logRefused_regs (s : State) (i : Iface) (a : Nat) (v : Word) : keepsRegs logRegs s (s.logRefused i a v) :=
  s.logRec_regs _ _ _ _

/-- A refused write changes the Logbook, what its events reach, and the result of MFT_CMD. -/
theorem State.refuse_only (s : State) (i : Iface) (a : Nat) (v : Word) : onlyIn logParts s (s.refuse i a v) := by
  have k : ∀ (st : State) f n, onlyIn logParts st (st.set f n) := fun st f n => st.set_only f n _ (by decide)
  have h : onlyIn logParts s (if i = .pcie ∨ i = .headEnd ∨ a = pwrReset then s.logRefused i a v else s) := by
    split
    · exact s.logRefused_only i a v
    · exact onlyIn_refl _ s
  unfold State.refuse
  split
  · exact onlyIn_refl _ s
  · simp only
    generalize (if i = .pcie ∨ i = .headEnd ∨ a = pwrReset then s.logRefused i a v else s) = t at h
    split
    · exact onlyIn_trans h (k _ _ _)
    · exact h

@[simp] theorem State.refuse_pending (s : State) (i : Iface) (a : Nat) (v : Word) : (s.refuse i a v).pending = s.pending := s.refuse_only i a v .pending (by decide)
@[simp] theorem State.refuse_free (s : State) (i : Iface) (a : Nat) (v : Word) : (s.refuse i a v).free = s.free := s.refuse_only i a v .free (by decide)
@[simp] theorem State.refuse_clk (s : State) (i : Iface) (a : Nat) (v : Word) : (s.refuse i a v).clk = s.clk := s.refuse_only i a v .clk (by decide)
@[simp] theorem State.refuse_xing (s : State) (i : Iface) (a : Nat) (v : Word) : (s.refuse i a v).xing = s.xing := s.refuse_only i a v .xing (by decide)
@[simp] theorem State.refuse_aon (s : State) (i : Iface) (a : Nat) (v : Word) : (s.refuse i a v).aon = s.aon := s.refuse_only i a v .aon (by decide)
@[simp] theorem State.refuse_fuses (s : State) (i : Iface) (a : Nat) (v : Word) : (s.refuse i a v).fuses = s.fuses := s.refuse_only i a v .fuses (by decide)
@[simp] theorem State.refuse_whf (s : State) (i : Iface) (a : Nat) (v : Word) : (s.refuse i a v).whf = s.whf := s.refuse_only i a v .whf (by decide)
@[simp] theorem State.refuse_flows (s : State) (i : Iface) (a : Nat) (v : Word) : (s.refuse i a v).flows = s.flows := s.refuse_only i a v .flows (by decide)
@[simp] theorem State.refuse_txn (s : State) (i : Iface) (a : Nat) (v : Word) : (s.refuse i a v).txn = s.txn := s.refuse_only i a v .txn (by decide)
@[simp] theorem State.refuse_cmt (s : State) (i : Iface) (a : Nat) (v : Word) : (s.refuse i a v).cmt = s.cmt := s.refuse_only i a v .cmt (by decide)
@[simp] theorem State.refuse_hld (s : State) (i : Iface) (a : Nat) (v : Word) : (s.refuse i a v).hld = s.hld := s.refuse_only i a v .hld (by decide)
@[simp] theorem State.refuse_nand (s : State) (i : Iface) (a : Nat) (v : Word) : (s.refuse i a v).nand = s.nand := s.refuse_only i a v .nand (by decide)
@[simp] theorem State.refuse_man (s : State) (i : Iface) (a : Nat) (v : Word) : (s.refuse i a v).man = s.man := s.refuse_only i a v .man (by decide)
@[simp] theorem State.refuse_live (s : State) (i : Iface) (a : Nat) (v : Word) : (s.refuse i a v).live = s.live := s.refuse_only i a v .live (by decide)
@[simp] theorem State.refuse_img (s : State) (i : Iface) (a : Nat) (v : Word) : (s.refuse i a v).img = s.img := s.refuse_only i a v .img (by decide)
@[simp] theorem State.refuse_met (s : State) (i : Iface) (a : Nat) (v : Word) : (s.refuse i a v).met = s.met := s.refuse_only i a v .met (by decide)
@[simp] theorem State.refuse_plc (s : State) (i : Iface) (a : Nat) (v : Word) : (s.refuse i a v).plc = s.plc := s.refuse_only i a v .plc (by decide)
@[simp] theorem State.refuse_rad (s : State) (i : Iface) (a : Nat) (v : Word) : (s.refuse i a v).rad = s.rad := s.refuse_only i a v .rad (by decide)
@[simp] theorem State.refuse_eth (s : State) (i : Iface) (a : Nat) (v : Word) : (s.refuse i a v).eth = s.eth := s.refuse_only i a v .eth (by decide)
@[simp] theorem State.refuse_gwy (s : State) (i : Iface) (a : Nat) (v : Word) : (s.refuse i a v).gwy = s.gwy := s.refuse_only i a v .gwy (by decide)
@[simp] theorem State.refuse_val (s : State) (i : Iface) (a : Nat) (v : Word) : (s.refuse i a v).val = s.val := s.refuse_only i a v .val (by decide)
@[simp] theorem State.refuse_ept (s : State) (i : Iface) (a : Nat) (v : Word) : (s.refuse i a v).ept = s.ept := s.refuse_only i a v .ept (by decide)
@[simp] theorem State.refuse_bal (s : State) (i : Iface) (a : Nat) (v : Word) : (s.refuse i a v).bal = s.bal := s.refuse_only i a v .bal (by decide)
@[simp] theorem State.refuse_trf (s : State) (i : Iface) (a : Nat) (v : Word) : (s.refuse i a v).trf = s.trf := s.refuse_only i a v .trf (by decide)
@[simp] theorem State.refuse_bil (s : State) (i : Iface) (a : Nat) (v : Word) : (s.refuse i a v).bil = s.bil := s.refuse_only i a v .bil (by decide)
@[simp] theorem State.refuse_tok (s : State) (i : Iface) (a : Nat) (v : Word) : (s.refuse i a v).tok = s.tok := s.refuse_only i a v .tok (by decide)
@[simp] theorem State.refuse_pan (s : State) (i : Iface) (a : Nat) (v : Word) : (s.refuse i a v).pan = s.pan := s.refuse_only i a v .pan (by decide)
@[simp] theorem State.refuse_keys (s : State) (i : Iface) (a : Nat) (v : Word) : (s.refuse i a v).keys = s.keys := s.refuse_only i a v .keys (by decide)
@[simp] theorem State.refuse_mft (s : State) (i : Iface) (a : Nat) (v : Word) : (s.refuse i a v).mft = s.mft := s.refuse_only i a v .mft (by decide)
@[simp] theorem State.refuse_pwr (s : State) (i : Iface) (a : Nat) (v : Word) : (s.refuse i a v).pwr = s.pwr := s.refuse_only i a v .pwr (by decide)
@[simp] theorem State.refuse_tst (s : State) (i : Iface) (a : Nat) (v : Word) : (s.refuse i a v).tst = s.tst := s.refuse_only i a v .tst (by decide)
@[simp] theorem State.refuse_sram (s : State) (i : Iface) (a : Nat) (v : Word) : (s.refuse i a v).sram = s.sram := s.refuse_only i a v .sram (by decide)
@[simp] theorem State.refuse_dram (s : State) (i : Iface) (a : Nat) (v : Word) : (s.refuse i a v).dram = s.dram := s.refuse_only i a v .dram (by decide)

/-- A stored write changes registers, and where it is a refused SL attempt what its Logbook record touches. -/
theorem State.storeWord_only (s : State) (i : Iface) (a : Nat) (v : Word) : onlyIn logParts s (s.storeWord i a v) := by
  have k : ∀ (st : State) b w, onlyIn logParts st (st.setReg b w) := fun st b w => st.setReg_only b w _ (by decide)
  unfold State.storeWord
  split
  · exact onlyIn_refl _ s
  · simp only
    split
    · exact onlyIn_trans (k _ _ _) (State.logRefused_only _ _ _ _)
    · exact k _ _ _

@[simp] theorem State.storeWord_pending (s : State) (i : Iface) (a : Nat) (v : Word) : (s.storeWord i a v).pending = s.pending := s.storeWord_only i a v .pending (by decide)
@[simp] theorem State.storeWord_free (s : State) (i : Iface) (a : Nat) (v : Word) : (s.storeWord i a v).free = s.free := s.storeWord_only i a v .free (by decide)
@[simp] theorem State.storeWord_clk (s : State) (i : Iface) (a : Nat) (v : Word) : (s.storeWord i a v).clk = s.clk := s.storeWord_only i a v .clk (by decide)
@[simp] theorem State.storeWord_xing (s : State) (i : Iface) (a : Nat) (v : Word) : (s.storeWord i a v).xing = s.xing := s.storeWord_only i a v .xing (by decide)
@[simp] theorem State.storeWord_aon (s : State) (i : Iface) (a : Nat) (v : Word) : (s.storeWord i a v).aon = s.aon := s.storeWord_only i a v .aon (by decide)
@[simp] theorem State.storeWord_fuses (s : State) (i : Iface) (a : Nat) (v : Word) : (s.storeWord i a v).fuses = s.fuses := s.storeWord_only i a v .fuses (by decide)
@[simp] theorem State.storeWord_whf (s : State) (i : Iface) (a : Nat) (v : Word) : (s.storeWord i a v).whf = s.whf := s.storeWord_only i a v .whf (by decide)
@[simp] theorem State.storeWord_flows (s : State) (i : Iface) (a : Nat) (v : Word) : (s.storeWord i a v).flows = s.flows := s.storeWord_only i a v .flows (by decide)
@[simp] theorem State.storeWord_txn (s : State) (i : Iface) (a : Nat) (v : Word) : (s.storeWord i a v).txn = s.txn := s.storeWord_only i a v .txn (by decide)
@[simp] theorem State.storeWord_cmt (s : State) (i : Iface) (a : Nat) (v : Word) : (s.storeWord i a v).cmt = s.cmt := s.storeWord_only i a v .cmt (by decide)
@[simp] theorem State.storeWord_hld (s : State) (i : Iface) (a : Nat) (v : Word) : (s.storeWord i a v).hld = s.hld := s.storeWord_only i a v .hld (by decide)
@[simp] theorem State.storeWord_nand (s : State) (i : Iface) (a : Nat) (v : Word) : (s.storeWord i a v).nand = s.nand := s.storeWord_only i a v .nand (by decide)
@[simp] theorem State.storeWord_man (s : State) (i : Iface) (a : Nat) (v : Word) : (s.storeWord i a v).man = s.man := s.storeWord_only i a v .man (by decide)
@[simp] theorem State.storeWord_live (s : State) (i : Iface) (a : Nat) (v : Word) : (s.storeWord i a v).live = s.live := s.storeWord_only i a v .live (by decide)
@[simp] theorem State.storeWord_img (s : State) (i : Iface) (a : Nat) (v : Word) : (s.storeWord i a v).img = s.img := s.storeWord_only i a v .img (by decide)
@[simp] theorem State.storeWord_met (s : State) (i : Iface) (a : Nat) (v : Word) : (s.storeWord i a v).met = s.met := s.storeWord_only i a v .met (by decide)
@[simp] theorem State.storeWord_plc (s : State) (i : Iface) (a : Nat) (v : Word) : (s.storeWord i a v).plc = s.plc := s.storeWord_only i a v .plc (by decide)
@[simp] theorem State.storeWord_rad (s : State) (i : Iface) (a : Nat) (v : Word) : (s.storeWord i a v).rad = s.rad := s.storeWord_only i a v .rad (by decide)
@[simp] theorem State.storeWord_eth (s : State) (i : Iface) (a : Nat) (v : Word) : (s.storeWord i a v).eth = s.eth := s.storeWord_only i a v .eth (by decide)
@[simp] theorem State.storeWord_gwy (s : State) (i : Iface) (a : Nat) (v : Word) : (s.storeWord i a v).gwy = s.gwy := s.storeWord_only i a v .gwy (by decide)
@[simp] theorem State.storeWord_val (s : State) (i : Iface) (a : Nat) (v : Word) : (s.storeWord i a v).val = s.val := s.storeWord_only i a v .val (by decide)
@[simp] theorem State.storeWord_ept (s : State) (i : Iface) (a : Nat) (v : Word) : (s.storeWord i a v).ept = s.ept := s.storeWord_only i a v .ept (by decide)
@[simp] theorem State.storeWord_bal (s : State) (i : Iface) (a : Nat) (v : Word) : (s.storeWord i a v).bal = s.bal := s.storeWord_only i a v .bal (by decide)
@[simp] theorem State.storeWord_trf (s : State) (i : Iface) (a : Nat) (v : Word) : (s.storeWord i a v).trf = s.trf := s.storeWord_only i a v .trf (by decide)
@[simp] theorem State.storeWord_bil (s : State) (i : Iface) (a : Nat) (v : Word) : (s.storeWord i a v).bil = s.bil := s.storeWord_only i a v .bil (by decide)
@[simp] theorem State.storeWord_tok (s : State) (i : Iface) (a : Nat) (v : Word) : (s.storeWord i a v).tok = s.tok := s.storeWord_only i a v .tok (by decide)
@[simp] theorem State.storeWord_pan (s : State) (i : Iface) (a : Nat) (v : Word) : (s.storeWord i a v).pan = s.pan := s.storeWord_only i a v .pan (by decide)
@[simp] theorem State.storeWord_keys (s : State) (i : Iface) (a : Nat) (v : Word) : (s.storeWord i a v).keys = s.keys := s.storeWord_only i a v .keys (by decide)
@[simp] theorem State.storeWord_mft (s : State) (i : Iface) (a : Nat) (v : Word) : (s.storeWord i a v).mft = s.mft := s.storeWord_only i a v .mft (by decide)
@[simp] theorem State.storeWord_pwr (s : State) (i : Iface) (a : Nat) (v : Word) : (s.storeWord i a v).pwr = s.pwr := s.storeWord_only i a v .pwr (by decide)
@[simp] theorem State.storeWord_tst (s : State) (i : Iface) (a : Nat) (v : Word) : (s.storeWord i a v).tst = s.tst := s.storeWord_only i a v .tst (by decide)
@[simp] theorem State.storeWord_sram (s : State) (i : Iface) (a : Nat) (v : Word) : (s.storeWord i a v).sram = s.sram := s.storeWord_only i a v .sram (by decide)
@[simp] theorem State.storeWord_dram (s : State) (i : Iface) (a : Nat) (v : Word) : (s.storeWord i a v).dram = s.dram := s.storeWord_only i a v .dram (by decide)

/-- A stored write changes no register but the one it names, FRY_CNT and LGB_STAT. -/
theorem State.storeWord_regs (s : State) (i : Iface) (a : Nat) (v : Word) : keepsRegs (regKey i a :: logRegs) s (s.storeWord i a v) := by
  have k : ∀ (st : State) b w, keepsRegs [b] st (st.setReg b w) := fun st b w c hc => by
    simp only [List.mem_singleton] at hc
    simp [hc]
  unfold State.storeWord
  split
  · exact keepsRegs_refl _ s
  · simp only
    split
    · exact keepsRegs_trans (keepsRegs_mono (k _ _ _) (by simp)) (keepsRegs_mono (State.logRefused_regs _ _ _ _) (by simp))
    · exact keepsRegs_mono (k _ _ _) (by simp)

/-- A register that a stored write does not name. -/
theorem State.storeWord_reg (s : State) (i : Iface) (a : Nat) (v : Word) (b : Nat) (h : b ≠ regKey i a) (k : b ≠ fryCnt) (l : b ≠ lgbStat) :
    (s.storeWord i a v).reg b = s.reg b := s.storeWord_regs i a v b (by simp [logRegs, h, k, l])

/-- A register that exists once has its address as its key (R559). -/
theorem regKey_plain (i : Iface) (a : Nat) (h : ownByIface a = false) (w : windowed a = none) : regKey i a = a := by
  simp [regKey, h, w]

/-- A granted write stores by access codes, then acts (R17, R43). -/
theorem State.writeGate_granted (s : State) (i : Iface) (a : Nat) (v : Word) (act : State → State) (h : s.mayAccess i a true = true) :
    s.writeGate i a v act = act (s.storeWord i a v) := by simp [State.writeGate, h]

/-- A write that is not granted has no effect on the register (R43). -/
theorem State.writeGate_refused (s : State) (i : Iface) (a : Nat) (v : Word) (act : State → State) (h : s.mayAccess i a true = false) :
    s.writeGate i a v act = s.refuse i a v := by simp [State.writeGate, h]

/-- A write through the gate keeps to the parts that the access and the action keep to. -/
theorem State.writeGate_only (s : State) (i : Iface) (a : Nat) (v : Word) (act : State → State) (ps : List Part) (hl : logParts ⊆ ps)
    (h : ∀ st, onlyIn ps st (act st)) : onlyIn ps s (s.writeGate i a v act) := by
  unfold State.writeGate
  split
  · exact onlyIn_trans (onlyIn_mono (s.storeWord_only i a v) hl) (h _)
  · exact onlyIn_mono (s.refuse_only i a v) hl

/-! ### What a command leaves -/

/-- What a command answers keeps the queue and only burns fuses. -/
theorem State.out_eq (s u : State) : s.out u = .next { u with pending := s.pending, fuses := s.fuses.burn u.fuses } := rfl

theorem Fuses.burn_self (f : Fuses) : f.burn f = f := by cases f; simp [Fuses.burn]

/-- A command's effect that leaves queue and fuses alone is its answer. -/
theorem State.out_plain (s u : State) (h : u.pending = s.pending) (k : u.fuses = s.fuses) : s.out u = .next u := by
  rw [State.out_eq, k, Fuses.burn_self, ← h, ← k]

/-- A fuse once blown stays blown. -/
theorem Fuses.burn_holds (a b : Fuses) : fusesHold a (a.burn b) := by
  refine ⟨rfl, rfl, le_max_left _ _, le_max_left _ _, le_max_left _ _, le_max_left _ _, le_max_left _ _, le_max_left _ _,
    fun h => ?_, fun h => ⟨?_, ?_⟩⟩ <;> simp [Fuses.burn, h]

end Sys2Proof.Machine
end

