-- ==== Sys2Proof/Laws/Memory.lean ====
section
/-!
SUPPORT. The memories (SRAM, LPDDR5, the Oarsmen's data memories, endpoint contexts): what is read after bytes are written, that other
bytes stay, and that every operation that writes one keeps the canonical form.
-/
namespace Sys2Proof.Machine

/-- Bytes written keep the canonical form. -/
@[simp] theorem putBytes_wf (m : SMap Byte) (a : Nat) (b : List Byte) (h : Memory.wf m) : Memory.wf (putBytes m a b) := by
  induction b generalizing m a with
  | nil => exact h
  | cons x r ih => exact ih _ _ (smWf_put 0 m a x h)

/-- One byte after bytes are written: the byte written there, or the byte before. -/
theorem putBytes_get (m : SMap Byte) (a : Nat) (b : List Byte) (k : Nat) :
    smGet 0 (putBytes m a b) k = if a ≤ k ∧ k < a + b.length then b.getD (k - a) 0 else smGet 0 m k := by
  induction b generalizing m a with
  | nil => simp only [putBytes, List.length_nil]; rw [if_neg (by omega)]
  | cons x r ih =>
    rw [putBytes, ih, smGet_put, List.length_cons]
    by_cases h : k = a
    · subst h; simp
    · by_cases h2 : a + 1 ≤ k ∧ k < a + 1 + r.length
      · rw [if_pos h2, if_pos (by omega)]
        have : k - a = (k - (a + 1)) + 1 := by omega
        simp [this]
      · rw [if_neg h2, if_neg h, if_neg (by omega)]

/-- A byte outside those written stays. -/
theorem putBytes_other (m : SMap Byte) (a : Nat) (b : List Byte) (k : Nat) (h : k < a ∨ a + b.length ≤ k) :
    smGet 0 (putBytes m a b) k = smGet 0 m k := by rw [putBytes_get, if_neg (by omega)]

/-- Bytes read where they were written. -/
@[simp] theorem getBytes_putBytes (m : SMap Byte) (a : Nat) (b : List Byte) : getBytes (putBytes m a b) a b.length = b := by
  refine List.ext_getElem (by simp [getBytes]) fun i h1 h2 => ?_
  simp only [getBytes, List.getElem_map, List.getElem_range, putBytes_get]
  rw [if_pos (by omega), List.getD_eq_getElem _ _ (by omega)]
  simp

@[simp] theorem getBytes_length (m : SMap Byte) (a n : Nat) : (getBytes m a n).length = n := by simp [getBytes]

/-- An order stays when pairs are left out. -/
theorem smSorted_filter {β : Type} (f : Nat × β → Bool) (o : Option Nat) (m : SMap β) (h : smSorted o m = true) :
    smSorted o (m.filter f) = true := by
  induction m generalizing o with
  | nil => exact h
  | cons p r ih =>
    obtain ⟨a, x⟩ := p
    cases o with
    | none =>
      simp only [smSorted] at h
      by_cases hf : f (a, x)
      · simpa [List.filter_cons, hf, smSorted] using ih (some a) h
      · simpa [List.filter_cons, hf] using ih none (smSorted_none a r h)
    | some b =>
      simp only [smSorted, Bool.and_eq_true, decide_eq_true_eq] at h
      by_cases hf : f (a, x)
      · simpa [List.filter_cons, hf, smSorted, h.1] using ih (some a) h.2
      · simpa [List.filter_cons, hf] using ih (some b) (smSorted_weaken a b r (by omega) h.2)

/-- A discarded range keeps the canonical form (R459). -/
@[simp] theorem dropRange_wf (m : SMap Byte) (a n : Nat) (h : Memory.wf m) : Memory.wf (dropRange m a n) := by
  simp only [Memory.wf, smWf, Bool.and_eq_true, List.all_eq_true] at h ⊢
  exact ⟨smSorted_filter _ none m h.1, fun p hp => h.2 p (List.mem_filter.mp hp).1⟩

/-- A write to a doorbell page, or through the rescue window, keeps the LPDDR5's canonical form (R402, R505). -/
theorem State.doorWrite_dram_wf (s : State) (i : Iface) (q off : Nat) (v : Word) (hd : s.flag mftStat_RESCUE = true)
    (h : Memory.wf s.dram) : Memory.wf (s.doorWrite i q off v).dram := by
  unfold State.doorWrite
  rw [if_pos hd]
  split
  · exact putBytes_wf _ _ _ h
  · exact h

/-- Both memories are in canonical form after reset. -/
theorem reset_memories_wf : Memory.wf State.reset.sram ∧ Memory.wf State.reset.dram := ⟨rfl, rfl⟩

end Sys2Proof.Machine
end

