-- ==== Sys2Proof/Laws/Out.lean ====
section
/-!
SUPPORT. Every command answers a next state, and that state is the command's effect with the queue kept and fuses only burnt.
-/
namespace Sys2Proof.Machine

/-- A command's answer is some effect put through `State.out`: the queue of waiting commands and the fuses are safe in it. -/
theorem exec_out (c : Instr) (s : State) : ∃ u, exec c s = s.out u := by
  cases c with
  | registerWrite who p width v =>
    simp only [exec, execRegisterWrite]
    repeat' split
    all_goals exact ⟨_, rfl⟩
  | profileRequest who v => simp only [exec, execProfileRequest]; exact ⟨_, rfl⟩
  | profileChange =>
    simp only [exec, execProfileChange]
    repeat' split
    all_goals exact ⟨_, rfl⟩
  | l1Crossing raw =>
    simp only [exec, execL1Crossing]
    repeat' split
    all_goals exact ⟨_, rfl⟩
  | phaseCrossing p =>
    simp only [exec, execPhaseCrossing]
    repeat' split
    all_goals exact ⟨_, rfl⟩
  | coastingBegins raw =>
    simp only [exec, execCoastingBegins]
    repeat' split
    all_goals exact ⟨_, rfl⟩
  | coastedCrossing raw =>
    simp only [exec, execCoastedCrossing]
    repeat' split
    all_goals exact ⟨_, rfl⟩
  | anchorAgeExpiry =>
    simp only [exec, execAnchorAgeExpiry]
    repeat' split
    all_goals exact ⟨_, rfl⟩
  | holdoverExpiry =>
    simp only [exec, execHoldoverExpiry]
    repeat' split
    all_goals exact ⟨_, rfl⟩
  | leapInstant =>
    simp only [exec, execLeapInstant]
    repeat' split
    all_goals exact ⟨_, rfl⟩
  | xingLatch who => simp only [exec, execXingLatch]; exact ⟨_, rfl⟩
  | xingLateClear who q => simp only [exec, execXingLateClear]; exact ⟨_, rfl⟩
  | launchItemAtHead q air =>
    simp only [exec, execLaunchItemAtHead]
    repeat' split
    all_goals exact ⟨_, rfl⟩
  | launchInstantReached q air =>
    simp only [exec, execLaunchInstantReached]
    repeat' split
    all_goals exact ⟨_, rfl⟩
  | snapshotLatch =>
    simp only [exec, execSnapshotLatch]
    repeat' split
    all_goals exact ⟨_, rfl⟩
  | calibrationWrite who a v =>
    simp only [exec, execCalibrationWrite]
    repeat' split
    all_goals exact ⟨_, rfl⟩
  | calCommit who => simp only [exec, execCalCommit]; exact ⟨_, rfl⟩
  | calDiscard who => simp only [exec, execCalDiscard]; exact ⟨_, rfl⟩
  | calCommitApply =>
    simp only [exec, execCalCommitApply]
    repeat' split
    all_goals exact ⟨_, rfl⟩
  | metQtyCapture who => simp only [exec, execMetQtyCapture]; exact ⟨_, rfl⟩
  | sealCloseRequest who v => simp only [exec, execSealCloseRequest]; exact ⟨_, rfl⟩
  | sealCloseJudged =>
    simp only [exec, execSealCloseJudged]
    repeat' split
    all_goals exact ⟨_, rfl⟩
  | sealOpening =>
    simp only [exec, execSealOpening]
    repeat' split
    all_goals exact ⟨_, rfl⟩
  | plcFrameReceived p x =>
    simp only [exec, execPlcFrameReceived]
    repeat' split
    all_goals exact ⟨_, rfl⟩
  | plcTransmitComplete c x =>
    simp only [exec, execPlcTransmitComplete]
    repeat' split
    all_goals exact ⟨_, rfl⟩
  | driveLimitDetection x last =>
    simp only [exec, execDriveLimitDetection]
    repeat' split
    all_goals exact ⟨_, rfl⟩
  | driverTrip x =>
    simp only [exec, execDriverTrip]
    repeat' split
    all_goals exact ⟨_, rfl⟩
  | driverRearm p =>
    simp only [exec, execDriverRearm]
    repeat' split
    all_goals exact ⟨_, rfl⟩
  | trippedClear who p =>
    simp only [exec, execTrippedClear]
    repeat' split
    all_goals exact ⟨_, rfl⟩
  | plcRxCntClear who p =>
    simp only [exec, execPlcRxCntClear]
    repeat' split
    all_goals exact ⟨_, rfl⟩
  | cellKeySwitch c =>
    simp only [exec, execCellKeySwitch]
    repeat' split
    all_goals exact ⟨_, rfl⟩
  | exchangePlanned c =>
    simp only [exec, execExchangePlanned]
    repeat' split
    all_goals exact ⟨_, rfl⟩
  | upwardFrameFailed c fseq =>
    simp only [exec, execUpwardFrameFailed]
    repeat' split
    all_goals exact ⟨_, rfl⟩
  | responseReceived c psdu =>
    simp only [exec, execResponseReceived]
    repeat' split
    all_goals exact ⟨_, rfl⟩
  | plcAckReceived c psdu =>
    simp only [exec, execPlcAckReceived]
    repeat' split
    all_goals exact ⟨_, rfl⟩
  | joinRequestReceived c psdu =>
    simp only [exec, execJoinRequestReceived]
    repeat' split
    all_goals exact ⟨_, rfl⟩
  | class0Window c =>
    simp only [exec, execClass0Window]
    repeat' split
    all_goals exact ⟨_, rfl⟩
  | plcRouteQuery who v => simp only [exec, execPlcRouteQuery]; exact ⟨_, rfl⟩
  | plcXchFailClear who c =>
    simp only [exec, execPlcXchFailClear]
    repeat' split
    all_goals exact ⟨_, rfl⟩
  | radioFrameReceived r x =>
    simp only [exec, execRadioFrameReceived]
    repeat' split
    all_goals exact ⟨_, rfl⟩
  | dataRequest r air x =>
    simp only [exec, execDataRequest]
    repeat' split
    all_goals exact ⟨_, rfl⟩
  | indirectItemUnacked r a =>
    simp only [exec, execIndirectItemUnacked]
    repeat' split
    all_goals exact ⟨_, rfl⟩
  | associationRequest r x caps parent =>
    simp only [exec, execAssociationRequest]
    repeat' split
    all_goals exact ⟨_, rfl⟩
  | provisionalExpiry r a =>
    simp only [exec, execProvisionalExpiry]
    repeat' split
    all_goals exact ⟨_, rfl⟩
  | readingMessage r a msg =>
    simp only [exec, execReadingMessage]
    repeat' split
    all_goals exact ⟨_, rfl⟩
  | segmentMessage r a body =>
    simp only [exec, execSegmentMessage]
    repeat' split
    all_goals exact ⟨_, rfl⟩
  | radioAckMessage r a body => simp only [exec, execRadioAckMessage]; exact ⟨_, rfl⟩
  | relayMessage r a body =>
    simp only [exec, execRelayMessage]
    repeat' split
    all_goals exact ⟨_, rfl⟩
  | coverPlan r a =>
    simp only [exec, execCoverPlan]
    repeat' split
    all_goals exact ⟨_, rfl⟩
  | coverUnacked r =>
    simp only [exec, execCoverUnacked]
    repeat' split
    all_goals exact ⟨_, rfl⟩
  | dutyBinBoundary r air =>
    simp only [exec, execDutyBinBoundary]
    repeat' split
    all_goals exact ⟨_, rfl⟩
  | pendForceSet who r a =>
    simp only [exec, execPendForceSet]
    repeat' split
    all_goals exact ⟨_, rfl⟩
  | pendForceClear who r a =>
    simp only [exec, execPendForceClear]
    repeat' split
    all_goals exact ⟨_, rfl⟩
  | pendQuery who r a =>
    simp only [exec, execPendQuery]
    repeat' split
    all_goals exact ⟨_, rfl⟩
  | radErrClear who r =>
    simp only [exec, execRadErrClear]
    repeat' split
    all_goals exact ⟨_, rfl⟩
  | spiTimeout r => simp only [exec, execSpiTimeout]; exact ⟨_, rfl⟩
  | ethFrameReceived x fcsOk b =>
    simp only [exec, execEthFrameReceived]
    repeat' split
    all_goals exact ⟨_, rfl⟩
  | ethLinkChange x up speed => simp only [exec, execEthLinkChange]; exact ⟨_, rfl⟩
  | class0AuthDone q => simp only [exec, execClass0AuthDone]; exact ⟨_, rfl⟩
  | ptpSyncReceived x b =>
    simp only [exec, execPtpSyncReceived]
    repeat' split
    all_goals exact ⟨_, rfl⟩
  | syncTimeout =>
    simp only [exec, execSyncTimeout]
    repeat' split
    all_goals exact ⟨_, rfl⟩
  | ptpAnnounceReceived x b =>
    simp only [exec, execPtpAnnounceReceived]
    repeat' split
    all_goals exact ⟨_, rfl⟩
  | pdelayReqReceived x m =>
    simp only [exec, execPdelayReqReceived]
    repeat' split
    all_goals exact ⟨_, rfl⟩
  | ptpPortInit =>
    simp only [exec, execPtpPortInit]
    repeat' split
    all_goals exact ⟨_, rfl⟩
  | ethCntClear who x =>
    simp only [exec, execEthCntClear]
    repeat' split
    all_goals exact ⟨_, rfl⟩
  | attachReceived b =>
    simp only [exec, execAttachReceived]
    repeat' split
    all_goals exact ⟨_, rfl⟩
  | attachAnswerReceived b =>
    simp only [exec, execAttachAnswerReceived]
    repeat' split
    all_goals exact ⟨_, rfl⟩
  | attachResend =>
    simp only [exec, execAttachResend]
    repeat' split
    all_goals exact ⟨_, rfl⟩
  | attachGiveUp =>
    simp only [exec, execAttachGiveUp]
    repeat' split
    all_goals exact ⟨_, rfl⟩
  | attachRetry =>
    simp only [exec, execAttachRetry]
    repeat' split
    all_goals exact ⟨_, rfl⟩
  | peerDown p =>
    simp only [exec, execPeerDown]
    repeat' split
    all_goals exact ⟨_, rfl⟩
  | keepaliveSend p =>
    simp only [exec, execKeepaliveSend]
    repeat' split
    all_goals exact ⟨_, rfl⟩
  | keepaliveReceived b =>
    simp only [exec, execKeepaliveReceived]
    repeat' split
    all_goals exact ⟨_, rfl⟩
  | anchorReceived x b => simp only [exec, execAnchorReceived]; exact ⟨_, rfl⟩
  | snapshotReceived b => simp only [exec, execSnapshotReceived]; exact ⟨_, rfl⟩
  | batchReceived b =>
    simp only [exec, execBatchReceived]
    repeat' split
    all_goals exact ⟨_, rfl⟩
  | gangwayAckReceived b => simp only [exec, execGangwayAckReceived]; exact ⟨_, rfl⟩
  | ackDelayExpiry p =>
    simp only [exec, execAckDelayExpiry]
    repeat' split
    all_goals exact ⟨_, rfl⟩
  | retransmitTimerExpiry p seq =>
    simp only [exec, execRetransmitTimerExpiry]
    repeat' split
    all_goals exact ⟨_, rfl⟩
  | commandMessageReceived b => simp only [exec, execCommandMessageReceived]; exact ⟨_, rfl⟩
  | registerMessageHub b => simp only [exec, execRegisterMessageHub]; exact ⟨_, rfl⟩
  | registerAnswerCell b => simp only [exec, execRegisterAnswerCell]; exact ⟨_, rfl⟩
  | regaccessReceived b =>
    simp only [exec, execRegaccessReceived]
    repeat' split
    all_goals exact ⟨_, rfl⟩
  | validationRecord q line => simp only [exec, execValidationRecord]; exact ⟨_, rfl⟩
  | recordFlowResume n =>
    simp only [exec, execRecordFlowResume]
    repeat' split
    all_goals exact ⟨_, rfl⟩
  | groupWaitExpiry =>
    simp only [exec, execGroupWaitExpiry]
    repeat' split
    all_goals exact ⟨_, rfl⟩
  | reassemblyTimeout c a =>
    simp only [exec, execReassemblyTimeout]
    repeat' split
    all_goals exact ⟨_, rfl⟩
  | batchMaxageExpiry => simp only [exec, execBatchMaxageExpiry]; exact ⟨_, rfl⟩
  | batchSigned =>
    simp only [exec, execBatchSigned]
    repeat' split
    all_goals exact ⟨_, rfl⟩
  | dedupQuery who v => simp only [exec, execDedupQuery]; exact ⟨_, rfl⟩
  | valVcntClear who v => simp only [exec, execValVcntClear]; exact ⟨_, rfl⟩
  | valBatchCfgWrite who v => simp only [exec, execValBatchCfgWrite]; exact ⟨_, rfl⟩
  | enrol who => simp only [exec, execEnrol]; exact ⟨_, rfl⟩
  | bar who idx => simp only [exec, execBar]; exact ⟨_, rfl⟩
  | unbar who idx => simp only [exec, execUnbar]; exact ⟨_, rfl⟩
  | remove who idx => simp only [exec, execRemove]; exact ⟨_, rfl⟩
  | reEnrol who idx => simp only [exec, execReEnrol]; exact ⟨_, rfl⟩
  | rewrap who => simp only [exec, execRewrap]; exact ⟨_, rfl⟩
  | rewrapComplete =>
    simp only [exec, execRewrapComplete]
    repeat' split
    all_goals exact ⟨_, rfl⟩
  | contextRead who idx => simp only [exec, execContextRead]; exact ⟨_, rfl⟩
  | deleteEnrolment who idx => simp only [exec, execDeleteEnrolment]; exact ⟨_, rfl⟩
  | quarantineExpiry slot =>
    simp only [exec, execQuarantineExpiry]
    repeat' split
    all_goals exact ⟨_, rfl⟩
  | tableRebuildDone =>
    simp only [exec, execTableRebuildDone]
    repeat' split
    all_goals exact ⟨_, rfl⟩
  | balanceRecord =>
    simp only [exec, execBalanceRecord]
    repeat' split
    all_goals exact ⟨_, rfl⟩
  | balanceEvaluation n =>
    simp only [exec, execBalanceEvaluation]
    repeat' split
    all_goals exact ⟨_, rfl⟩
  | balNodeQuery who v => simp only [exec, execBalNodeQuery]; exact ⟨_, rfl⟩
  | balEpQuery who v => simp only [exec, execBalEpQuery]; exact ⟨_, rfl⟩
  | balEpNodeWrite who v => simp only [exec, execBalEpNodeWrite]; exact ⟨_, rfl⟩
  | tariffOpen => simp only [exec, execTariffOpen]; exact ⟨_, rfl⟩
  | tariffWrite => simp only [exec, execTariffWrite]; exact ⟨_, rfl⟩
  | tariffClose => simp only [exec, execTariffClose]; exact ⟨_, rfl⟩
  | tariffActivate => simp only [exec, execTariffActivate]; exact ⟨_, rfl⟩
  | tariffCancel => simp only [exec, execTariffCancel]; exact ⟨_, rfl⟩
  | accountSet => simp only [exec, execAccountSet]; exact ⟨_, rfl⟩
  | accountClose => simp only [exec, execAccountClose]; exact ⟨_, rfl⟩
  | clearLockout => simp only [exec, execClearLockout]; exact ⟨_, rfl⟩
  | calendarMinute =>
    simp only [exec, execCalendarMinute]
    repeat' split
    all_goals exact ⟨_, rfl⟩
  | trfGroupQuery who v => simp only [exec, execTrfGroupQuery]; exact ⟨_, rfl⟩
  | rateQuery who v => simp only [exec, execRateQuery]; exact ⟨_, rfl⟩
  | boundaryPrestage =>
    simp only [exec, execBoundaryPrestage]
    repeat' split
    all_goals exact ⟨_, rfl⟩
  | billingStep reads => simp only [exec, execBillingStep]; exact ⟨_, rfl⟩
  | passedBoundaryCatchup =>
    simp only [exec, execPassedBoundaryCatchup]
    repeat' split
    all_goals exact ⟨_, rfl⟩
  | backstepHoldEnd =>
    simp only [exec, execBackstepHoldEnd]
    repeat' split
    all_goals exact ⟨_, rfl⟩
  | sessionResult => simp only [exec, execSessionResult]; exact ⟨_, rfl⟩
  | billingQuery who v => simp only [exec, execBillingQuery]; exact ⟨_, rfl⟩
  | loadProfileQuery who v reads => simp only [exec, execLoadProfileQuery]; exact ⟨_, rfl⟩
  | groupOpen who => simp only [exec, execGroupOpen]; exact ⟨_, rfl⟩
  | actionStage who w g => simp only [exec, execActionStage]; exact ⟨_, rfl⟩
  | groupSeal who g => simp only [exec, execGroupSeal]; exact ⟨_, rfl⟩
  | groupAbort who g => simp only [exec, execGroupAbort]; exact ⟨_, rfl⟩
  | groupDurable g =>
    simp only [exec, execGroupDurable]
    repeat' split
    all_goals exact ⟨_, rfl⟩
  | durabilityOverrun g =>
    simp only [exec, execDurabilityOverrun]
    repeat' split
    all_goals exact ⟨_, rfl⟩
  | intentDurable g =>
    simp only [exec, execIntentDurable]
    repeat' split
    all_goals exact ⟨_, rfl⟩
  | groupWithdraw g =>
    simp only [exec, execGroupWithdraw]
    repeat' split
    all_goals exact ⟨_, rfl⟩
  | sealedGroupRetry =>
    simp only [exec, execSealedGroupRetry]
    repeat' split
    all_goals exact ⟨_, rfl⟩
  | cmtGstatRead who => simp only [exec, execCmtGstatRead]; exact ⟨_, rfl⟩
  | jseqCapture who => simp only [exec, execJseqCapture]; exact ⟨_, rfl⟩
  | counterCapture who => simp only [exec, execCounterCapture]; exact ⟨_, rfl⟩
  | journalReplayDone =>
    simp only [exec, execJournalReplayDone]
    repeat' split
    all_goals exact ⟨_, rfl⟩
  | identityKeyGenerated =>
    simp only [exec, execIdentityKeyGenerated]
    repeat' split
    all_goals exact ⟨_, rfl⟩
  | epochTreeBuilt =>
    simp only [exec, execEpochTreeBuilt]
    repeat' split
    all_goals exact ⟨_, rfl⟩
  | tokenEntry => simp only [exec, execTokenEntry]; exact ⟨_, rfl⟩
  | lockoutEnd =>
    simp only [exec, execLockoutEnd]
    repeat' split
    all_goals exact ⟨_, rfl⟩
  | keyStateChange k down =>
    simp only [exec, execKeyStateChange]
    repeat' split
    all_goals exact ⟨_, rfl⟩
  | panelFrameStart =>
    simp only [exec, execPanelFrameStart]
    repeat' split
    all_goals exact ⟨_, rfl⟩
  | temperatureBandChange t =>
    simp only [exec, execTemperatureBandChange]
    repeat' split
    all_goals exact ⟨_, rfl⟩
  | dischargeHoldEnd =>
    simp only [exec, execDischargeHoldEnd]
    repeat' split
    all_goals exact ⟨_, rfl⟩
  | frameMemoryWrite who v => simp only [exec, execFrameMemoryWrite]; exact ⟨_, rfl⟩
  | frameMemoryRead who => simp only [exec, execFrameMemoryRead]; exact ⟨_, rfl⟩
  | accountQuery who v => simp only [exec, execAccountQuery]; exact ⟨_, rfl⟩
  | doorbellPush who q v => simp only [exec, execDoorbellPush]; exact ⟨_, rfl⟩
  | doorbellPop who q => simp only [exec, execDoorbellPop]; exact ⟨_, rfl⟩
  | producerClaimGranted q => simp only [exec, execProducerClaimGranted]; exact ⟨_, rfl⟩
  | queueIdleTimeout q =>
    simp only [exec, execQueueIdleTimeout]
    repeat' split
    all_goals exact ⟨_, rfl⟩
  | queueRelease who q all iseq => simp only [exec, execQueueRelease]; exact ⟨_, rfl⟩
  | queueRewind who q => simp only [exec, execQueueRewind]; exact ⟨_, rfl⟩
  | queueDone who q iseq => simp only [exec, execQueueDone]; exact ⟨_, rfl⟩
  | whfQCntClear who q => simp only [exec, execWhfQCntClear]; exact ⟨_, rfl⟩
  | threadDispatch core ns =>
    simp only [exec, execThreadDispatch]
    repeat' split
    all_goals exact ⟨_, rfl⟩
  | prefetchLoadDone core =>
    simp only [exec, execPrefetchLoadDone]
    repeat' split
    all_goals exact ⟨_, rfl⟩
  | threadWait core a b =>
    simp only [exec, execThreadWait]
    repeat' split
    all_goals exact ⟨_, rfl⟩
  | workTake core =>
    simp only [exec, execWorkTake]
    repeat' split
    all_goals exact ⟨_, rfl⟩
  | takeGranted thread =>
    simp only [exec, execTakeGranted]
    repeat' split
    all_goals exact ⟨_, rfl⟩
  | threadYield core =>
    simp only [exec, execThreadYield]
    repeat' split
    all_goals exact ⟨_, rfl⟩
  | threadDone core =>
    simp only [exec, execThreadDone]
    repeat' split
    all_goals exact ⟨_, rfl⟩
  | threadExit core =>
    simp only [exec, execThreadExit]
    repeat' split
    all_goals exact ⟨_, rfl⟩
  | setPriority core prio =>
    simp only [exec, execSetPriority]
    repeat' split
    all_goals exact ⟨_, rfl⟩
  | threadCreate who => simp only [exec, execThreadCreate]; exact ⟨_, rfl⟩
  | c0StatRead who k => simp only [exec, execC0StatRead]; exact ⟨_, rfl⟩
  | fryCntClear who => simp only [exec, execFryCntClear]; exact ⟨_, rfl⟩
  | opAdd n gd ga gb => simp only [exec, execOpAdd]; exact ⟨_, rfl⟩
  | opSub n gd ga gb => simp only [exec, execOpSub]; exact ⟨_, rfl⟩
  | opAnd n gd ga gb => simp only [exec, execOpAnd]; exact ⟨_, rfl⟩
  | opOr n gd ga gb => simp only [exec, execOpOr]; exact ⟨_, rfl⟩
  | opXor n gd ga gb => simp only [exec, execOpXor]; exact ⟨_, rfl⟩
  | opShl n gd ga gb => simp only [exec, execOpShl]; exact ⟨_, rfl⟩
  | opShr n gd ga gb => simp only [exec, execOpShr]; exact ⟨_, rfl⟩
  | opSra n gd ga gb => simp only [exec, execOpSra]; exact ⟨_, rfl⟩
  | opMul n gd ga gb => simp only [exec, execOpMul]; exact ⟨_, rfl⟩
  | opMulh n gd ga gb => simp only [exec, execOpMulh]; exact ⟨_, rfl⟩
  | opSltu n gd ga gb => simp only [exec, execOpSltu]; exact ⟨_, rfl⟩
  | opSlt n gd ga gb => simp only [exec, execOpSlt]; exact ⟨_, rfl⟩
  | opTxt n gd => simp only [exec, execOpTxt]; exact ⟨_, rfl⟩
  | opTxf n ga => simp only [exec, execOpTxf]; exact ⟨_, rfl⟩
  | opFacq n gd ga => simp only [exec, execOpFacq]; exact ⟨_, rfl⟩
  | opFrel n ga => simp only [exec, execOpFrel]; exact ⟨_, rfl⟩
  | opAddi n gd ga imm => simp only [exec, execOpAddi]; exact ⟨_, rfl⟩
  | opAndi n gd ga imm => simp only [exec, execOpAndi]; exact ⟨_, rfl⟩
  | opOri n gd ga imm => simp only [exec, execOpOri]; exact ⟨_, rfl⟩
  | opXori n gd ga imm => simp only [exec, execOpXori]; exact ⟨_, rfl⟩
  | opShli n gd ga imm => simp only [exec, execOpShli]; exact ⟨_, rfl⟩
  | opShri n gd ga imm => simp only [exec, execOpShri]; exact ⟨_, rfl⟩
  | opLui n gd imm => simp only [exec, execOpLui]; exact ⟨_, rfl⟩
  | opLdw n gd ga imm => simp only [exec, execOpLdw]; exact ⟨_, rfl⟩
  | opStw n gd ga imm => simp only [exec, execOpStw]; exact ⟨_, rfl⟩
  | opLdb n gd ga imm => simp only [exec, execOpLdb]; exact ⟨_, rfl⟩
  | opStb n gd ga imm => simp only [exec, execOpStb]; exact ⟨_, rfl⟩
  | opFex n gd ga imm => simp only [exec, execOpFex]; exact ⟨_, rfl⟩
  | opFins n gd ga imm => simp only [exec, execOpFins]; exact ⟨_, rfl⟩
  | opXld n gd ga imm => simp only [exec, execOpXld]; exact ⟨_, rfl⟩
  | opXst n gd ga imm => simp only [exec, execOpXst]; exact ⟨_, rfl⟩
  | opBeq n ga gb target => simp only [exec, execOpBeq]; exact ⟨_, rfl⟩
  | opBne n ga gb target => simp only [exec, execOpBne]; exact ⟨_, rfl⟩
  | opBltu n ga gb target => simp only [exec, execOpBltu]; exact ⟨_, rfl⟩
  | opBgeu n ga gb target => simp only [exec, execOpBgeu]; exact ⟨_, rfl⟩
  | opJmp n target => simp only [exec, execOpJmp]; exact ⟨_, rfl⟩
  | opCall n gd target => simp only [exec, execOpCall]; exact ⟨_, rfl⟩
  | opJr n ga => simp only [exec, execOpJr]; exact ⟨_, rfl⟩
  | opPop n gd ga imm => simp only [exec, execOpPop]; exact ⟨_, rfl⟩
  | opPush n gd ga imm => simp only [exec, execOpPush]; exact ⟨_, rfl⟩
  | opQop n ga imm => simp only [exec, execOpQop]; exact ⟨_, rfl⟩
  | opLwx n gd ga gb => simp only [exec, execOpLwx]; exact ⟨_, rfl⟩
  | opStamp n ga => simp only [exec, execOpStamp]; exact ⟨_, rfl⟩
  | opXnow n gd imm =>
    simp only [exec, execOpXnow]
    repeat' split
    all_goals exact ⟨_, rfl⟩
  | opLwp n gd ga gb => simp only [exec, execOpLwp]; exact ⟨_, rfl⟩
  | opWait n gd imm => simp only [exec, execOpWait]; exact ⟨_, rfl⟩
  | oarsmanWaitEnd n =>
    simp only [exec, execOarsmanWaitEnd]
    repeat' split
    all_goals exact ⟨_, rfl⟩
  | opWaitx n gd ga imm => simp only [exec, execOpWaitx]; exact ⟨_, rfl⟩
  | waitxInstantReached n =>
    simp only [exec, execWaitxInstantReached]
    repeat' split
    all_goals exact ⟨_, rfl⟩
  | opWaitu n ga => simp only [exec, execOpWaitu]; exact ⟨_, rfl⟩
  | waituExpiry n =>
    simp only [exec, execWaituExpiry]
    repeat' split
    all_goals exact ⟨_, rfl⟩
  | opSignal n => simp only [exec, execOpSignal]; exact ⟨_, rfl⟩
  | opHsub n gd ga => simp only [exec, execOpHsub]; exact ⟨_, rfl⟩
  | opHwait n gd ga => simp only [exec, execOpHwait]; exact ⟨_, rfl⟩
  | hashJobComplete n tag poisoned =>
    simp only [exec, execHashJobComplete]
    repeat' split
    all_goals exact ⟨_, rfl⟩
  | opCopen n gd imm =>
    simp only [exec, execOpCopen]
    repeat' split
    all_goals exact ⟨_, rfl⟩
  | opCstage n gd ga imm => simp only [exec, execOpCstage]; exact ⟨_, rfl⟩
  | opCseal n gd imm => simp only [exec, execOpCseal]; exact ⟨_, rfl⟩
  | opCabort n gd imm => simp only [exec, execOpCabort]; exact ⟨_, rfl⟩
  | opCwaitd n gd imm => simp only [exec, execOpCwaitd]; exact ⟨_, rfl⟩
  | opTrap n imm => simp only [exec, execOpTrap]; exact ⟨_, rfl⟩
  | oarsmanRestart who n => simp only [exec, execOarsmanRestart]; exact ⟨_, rfl⟩
  | oarsmanHalt who n => simp only [exec, execOarsmanHalt]; exact ⟨_, rfl⟩
  | oarsmanResume who n => simp only [exec, execOarsmanResume]; exact ⟨_, rfl⟩
  | sealCoreRestart n =>
    simp only [exec, execSealCoreRestart]
    repeat' split
    all_goals exact ⟨_, rfl⟩
  | ebfinHalt n =>
    simp only [exec, execEbfinHalt]
    repeat' split
    all_goals exact ⟨_, rfl⟩
  | ebfinStep n =>
    simp only [exec, execEbfinStep]
    repeat' split
    all_goals exact ⟨_, rfl⟩
  | ebfinAccess n a =>
    simp only [exec, execEbfinAccess]
    repeat' split
    all_goals exact ⟨_, rfl⟩
  | holdMount a b reads =>
    simp only [exec, execHoldMount]
    repeat' split
    all_goals exact ⟨_, rfl⟩
  | nandProgramDone b job ok =>
    simp only [exec, execNandProgramDone]
    repeat' split
    all_goals exact ⟨_, rfl⟩
  | nandEraseDone b ok =>
    simp only [exec, execNandEraseDone]
    repeat' split
    all_goals exact ⟨_, rfl⟩
  | nandReadDone b lkey page bits bad =>
    simp only [exec, execNandReadDone]
    repeat' split
    all_goals exact ⟨_, rfl⟩
  | placementWindowExpiry lkey page =>
    simp only [exec, execPlacementWindowExpiry]
    repeat' split
    all_goals exact ⟨_, rfl⟩
  | mergeSwitch lkey =>
    simp only [exec, execMergeSwitch]
    repeat' split
    all_goals exact ⟨_, rfl⟩
  | holdRead who => simp only [exec, execHoldRead]; exact ⟨_, rfl⟩
  | holdDiscard who => simp only [exec, execHoldDiscard]; exact ⟨_, rfl⟩
  | holdTrim who => simp only [exec, execHoldTrim]; exact ⟨_, rfl⟩
  | holdCmdComplete =>
    simp only [exec, execHoldCmdComplete]
    repeat' split
    all_goals exact ⟨_, rfl⟩
  | streamQuery who v => simp only [exec, execStreamQuery]; exact ⟨_, rfl⟩
  | hldEccClear who => simp only [exec, execHldEccClear]; exact ⟨_, rfl⟩
  | flushComplete =>
    simp only [exec, execFlushComplete]
    repeat' split
    all_goals exact ⟨_, rfl⟩
  | logbookReadSelect who w number => simp only [exec, execLogbookReadSelect]; exact ⟨_, rfl⟩
  | logbookClear who => simp only [exec, execLogbookClear]; exact ⟨_, rfl⟩
  | keyWrite who => simp only [exec, execKeyWrite]; exact ⟨_, rfl⟩
  | keyErase who => simp only [exec, execKeyErase]; exact ⟨_, rfl⟩
  | keyLock who => simp only [exec, execKeyLock]; exact ⟨_, rfl⟩
  | keyRead who => simp only [exec, execKeyRead]; exact ⟨_, rfl⟩
  | signingIndexCapture who => simp only [exec, execSigningIndexCapture]; exact ⟨_, rfl⟩
  | attestationRequest who v => simp only [exec, execAttestationRequest]; exact ⟨_, rfl⟩
  | attestationComplete => simp only [exec, execAttestationComplete]; exact ⟨_, rfl⟩
  | manifestVerified =>
    simp only [exec, execManifestVerified]
    repeat' split
    all_goals exact ⟨_, rfl⟩
  | manifestCheck who m => simp only [exec, execManifestCheck]; exact ⟨_, rfl⟩
  | manifestStage who m => simp only [exec, execManifestStage]; exact ⟨_, rfl⟩
  | manifestStageComplete =>
    simp only [exec, execManifestStageComplete]
    repeat' split
    all_goals exact ⟨_, rfl⟩
  | manifestApply who => simp only [exec, execManifestApply]; exact ⟨_, rfl⟩
  | manifestApplyBoundary vin =>
    simp only [exec, execManifestApplyBoundary]
    repeat' split
    all_goals exact ⟨_, rfl⟩
  | manifestConfirm who => simp only [exec, execManifestConfirm]; exact ⟨_, rfl⟩
  | manifestInvalidate who => simp only [exec, execManifestInvalidate]; exact ⟨_, rfl⟩
  | trialExpiry vin =>
    simp only [exec, execTrialExpiry]
    repeat' split
    all_goals exact ⟨_, rfl⟩
  | powerWarning thermal vin =>
    simp only [exec, execPowerWarning]
    repeat' split
    all_goals exact ⟨_, rfl⟩
  | rideThrough =>
    simp only [exec, execRideThrough]
    repeat' split
    all_goals exact ⟨_, rfl⟩
  | railDropout =>
    simp only [exec, execRailDropout]
    repeat' split
    all_goals exact ⟨_, rfl⟩
  | porst =>
    simp only [exec, execPorst]
    repeat' split
    all_goals exact ⟨_, rfl⟩
  | ebfinSystemReset => simp only [exec, execEbfinSystemReset]; exact ⟨_, rfl⟩
  | softwareReset who v vin => simp only [exec, execSoftwareReset]; exact ⟨_, rfl⟩
  | resetRelease elapsed =>
    simp only [exec, execResetRelease]
    repeat' split
    all_goals exact ⟨_, rfl⟩
  | lpddr5Trained =>
    simp only [exec, execLpddr5Trained]
    repeat' split
    all_goals exact ⟨_, rfl⟩
  | holdSenseWaitExpiry =>
    simp only [exec, execHoldSenseWaitExpiry]
    repeat' split
    all_goals exact ⟨_, rfl⟩
  | holdSenseChange up =>
    simp only [exec, execHoldSenseChange]
    repeat' split
    all_goals exact ⟨_, rfl⟩
  | temperatureWarn t =>
    simp only [exec, execTemperatureWarn]
    repeat' split
    all_goals exact ⟨_, rfl⟩
  | avsUpdate n400 n800 n1200 =>
    simp only [exec, execAvsUpdate]
    repeat' split
    all_goals exact ⟨_, rfl⟩
  | vbatLow =>
    simp only [exec, execVbatLow]
    repeat' split
    all_goals exact ⟨_, rfl⟩
  | vinMinRead who now least => simp only [exec, execVinMinRead]; exact ⟨_, rfl⟩
  | testUnlockFirst who => simp only [exec, execTestUnlockFirst]; exact ⟨_, rfl⟩
  | testUnlockSecond who => simp only [exec, execTestUnlockSecond]; exact ⟨_, rfl⟩
  | testLock who => simp only [exec, execTestLock]; exact ⟨_, rfl⟩
  | entryArm who v => simp only [exec, execEntryArm]; exact ⟨_, rfl⟩
  | entryDisarm who v => simp only [exec, execEntryDisarm]; exact ⟨_, rfl⟩
  | entryLimitExpiry n => simp only [exec, execEntryLimitExpiry]; exact ⟨_, rfl⟩
  | dramEccClear who => simp only [exec, execDramEccClear]; exact ⟨_, rfl⟩
  | radioTransmitComplete r x =>
    simp only [exec, execRadioTransmitComplete]
    repeat' split
    all_goals exact ⟨_, rfl⟩
  | ethTransmitComplete x =>
    simp only [exec, execEthTransmitComplete]
    repeat' split
    all_goals exact ⟨_, rfl⟩
  | ptpMessageInterval x typ =>
    simp only [exec, execPtpMessageInterval]
    repeat' split
    all_goals exact ⟨_, rfl⟩
  | announceReceiptTimeout x =>
    simp only [exec, execAnnounceReceiptTimeout]
    repeat' split
    all_goals exact ⟨_, rfl⟩
  | perturbedItemVisible q =>
    simp only [exec, execPerturbedItemVisible]
    repeat' split
    all_goals exact ⟨_, rfl⟩
  | alwaysOnInvalid => simp only [exec, execAlwaysOnInvalid]; exact ⟨_, rfl⟩
  | temperatureWarnRearm t =>
    simp only [exec, execTemperatureWarnRearm]
    repeat' split
    all_goals exact ⟨_, rfl⟩
  | porstFlushTimeout =>
    simp only [exec, execPorstFlushTimeout]
    repeat' split
    all_goals exact ⟨_, rfl⟩

/-- Every command answers a next state: nothing faults, nothing is refused. -/
theorem exec_next (c : Instr) (s : State) : ∃ t, exec c s = .next t := by
  obtain ⟨u, h⟩ := exec_out c s
  exact ⟨_, h⟩

end Sys2Proof.Machine
end

