-- ==== Sys2Proof/Tests/Slice0.lean ====
section
/-!
SUPPORT. The model's own tests: worked examples of the spec, an ill-formed command for each check of well-formedness, and for every
statement with hypotheses a concrete state and operands that meet them, clause by clause.
-/
namespace Sys2Proof.Tests.Slice0
open Sys2Proof Sys2Proof.Machine
set_option Elab.async false

/-! ### States of the tests -/

/-- A state with register fields set. -/
def setFs (s : State) (l : List (Fld × Nat)) : State := l.foldl (fun s p => s.set p.1 p.2) s

/-- The state after reset with register fields set. -/
def w0 (l : List (Fld × Nat)) : State := setFs State.reset l

/-- A Gangway launch item with a launch word. -/
def gwItem (w : DWord) : Item := { data := [{ val := w }, { val := 0x0001000000000008 }, { val := 0x0107000000000000 }] }

/-- A state whose queue 5 is a Gangway launch queue with one such item. -/
def gwQ (w : DWord) (held : Bool) : State :=
  State.setQ { State.reset with man := { State.reset.man with queues := [5], roles := { gwyLaunch := [6] } } } 5
    { items := [gwItem w], tail := 1, held := held, due := if held then some (false, 0) else none }

/-- A state whose queue 6 is the launch queue of Ethernet port 1 with one such item. -/
def launchEth (w : DWord) (held : Bool) : State :=
  State.setQ { State.reset with man := { State.reset.man with queues := [6], roles := { ethLaunch := [0, 7] } } } 6
    { items := [gwItem w], tail := 1, held := held, due := if held then some (false, 0) else none }

/-- A received PLC frame of 16 bytes, good or with a broken Reed-Solomon code. -/
def rx0 (good : Bool) : PlcRx :=
  { detected := [0], fchOk := true, supported := true, modc := 1, len := 16, rsOk := good, lost := none, gains := [3], snrs := [100000]
    groups := [[10000, 12000]], samples := [], pre := 0, noise := 40, before := [], dac := [], psdu := List.replicate 16 0x10 }

/-- A device with one PLC cell, its launch queue 5, and the cell's scheduler. -/
def cellS (x : Cell) : State :=
  State.setCell { State.reset with man := { State.reset.man with queues := [5], roles := { plcLaunch := [6] } } } 0 x

/-- A received radio frame of a type with a broken FCS. -/
def radRx0 (typ : Nat) : RadRx :=
  { fcsOk := false, version := 1, hasIe := false, typ := typ, seq := 1, dstPan := 0, dst := .absent, srcPan := 0, src := .absent
    ackReq := false, secured := false, keyMode := 0, keyIdx := 0, fcnt := 0, hdr := [], payload := [], ackAir := 300 }

/-- A device whose radio port is in use. -/
def radS (r : Nat) (x : RadPort) : State := State.setPort (w0 [(radCfg_EN r, 1)]) r x

/-- A device with a sleepy child of radio port 1 for which an item waits in the indirect queue 5. -/
def coverS : State :=
  State.setQ { radS 1 { nodes := [(6, some { sleepy := some { wake := 62500, poll := 0, drift := 20 } })] } with
      man := { State.reset.man with queues := [5], roles := { radIndirect := [0, 6] } }, clk := { ptp := 9000000000 } } 5
    { items := [{ data := [{ val := 0 }, { val := 0x0006000000000008 }, { val := 0 }] }], tail := 1 }

/-- A device with an Ethernet port in use, its firmware queue 5 and its launch queue 6. -/
def ethS (x : Nat) : State :=
  { w0 [(ethCfg_EN x, 1), (whfQCfg_SIZE 5, 1), (whfQCfg_SIZE 6, 1)] with
    man := { State.reset.man with queues := [5, 6], roles := { ethRx := [6, 6], ethLaunch := [7, 7] } } }

/-- A device that runs PTP, with register fields set. -/
def ptpS (l : List (Fld × Nat)) : State := { w0 l with eth := { ptpOn := true } }

/-- A Gangway link key. -/
def keyA : List Byte := List.replicate 32 7

/-- A valid Gangway message under a key: type, flags, sender, sequence, body. -/
def gwyMsg (k : List Byte) (typ flags p seq : Nat) (body : List Byte) : List Byte :=
  be 1 1 ++ be 1 typ ++ be 1 flags ++ be 1 0 ++ be 2 0 ++ be 2 p ++ be 4 seq ++ be 4 5 ++ be 8 0 ++ be 2 body.length ++ be 2 0 ++ body ++
    tagOf k (be 1 (flags &&& 0xFD) ++ be 1 0 ++ be 2 0 ++ be 2 p ++ be 4 seq ++ be 4 5 ++ be 8 0 ++ be 2 body.length ++ be 2 0 ++ body)
      16 "GWY1"

/-- A hub with an enrolled chip and its link key in slot 3; the chip is peer 1. -/
def hubS : State :=
  State.setPeer (State.setSlot { w0 [(gwyCfg_HUB, 1)] with
    man := { State.reset.man with chips := [{ eui := 77, fingerprint := 88, linkKey := 3, domain := 1 }], linkKey := 3 } } 3
    { attr := 0x80000001, key := keyA }) 1 { up := true, eui := 77 }

/-- A cell chip with its link key in slot 3. -/
def cellChip : State :=
  State.setSlot { State.reset with man := { State.reset.man with linkKey := 3 } } 3 { attr := 0x80000001, key := keyA }

/-- A class-0 message of the hub. -/
def c0Msg : List Byte := gwyMsg keyA 7 5 0 1 (be 1 0 ++ be 3 0 ++ be 20 9 ++ be 4 0)

/-- The state after a message is taken. -/
def takeU (s : State) (b : List Byte) : State := (s.gwyArrive (beAt b 6 2) b).2.gwyRelease (beAt b 6 2) b

/-- A device whose queue 5 holds a record with a wrong version. -/
def recS : State :=
  State.setQ { w0 [(whfQCfg_SIZE 5, 1), (pwrStat_PHASE, 4)] with man := { State.reset.man with queues := [5] } } 5
    { items := [mkItem 0 {} (be 24 0 ++ be 2 64 ++ be 6 0 ++ be 1 0x21 ++ be 63 0)], tail := 1 }

/-- A device with one endpoint context in slot 3, EUI-64 77, of a state. -/
def eptS (st : Nat) : State := State.ctxPut (w0 [(eptCfg_CAPACITY, 8)]) 3 0 (be 8 77 ++ be 4 3 ++ be 1 st)

/-- A device with an enrolment record staged for EUI-64 77 and a wrapping key in slot 0. -/
def enrolS : State :=
  State.setSlot (State.setStage (w0 [(trfCfg_GROUPS, 2), (eptCfg_CAPACITY, 8)]) (be 8 77 ++ be 120 0)) 0
    { attr := 0x80000002, key := keyA }

/-- A device whose balance queue 5 holds one forwarded snapshot record of slot 3. -/
def balS : State :=
  State.setQ { w0 [(whfQCfg_SIZE 5, 1), (balCfg_EN, 1)] with
      man := { State.reset.man with queues := [5], roles := { balanceIn := 6 } }, plc := { snaps := [(96, 1800)] } } 5
    { items := [mkItem 0 {} (be 4 3 ++ be 28 0 ++ be 1 0x12 ++ be 13 0 ++ be 6 96 ++ be 6 9000 ++ be 6 2000 ++ be 32 0)], tail := 1 }

/-- A valid calendar of group 0: one season, one week, one day profile with two rates, standard time 60 minutes east. -/
def calA : List Byte :=
  be 4 0x54434C31 ++ be 2 7 ++ be 1 0 ++ be 1 3 ++ be 1 1 ++ be 1 1 ++ be 1 1 ++ be 1 0 ++ be 2 0 ++ be 2 60 ++ be 16 0 ++
    (be 2 0x0101 ++ be 2 0 ++ be 60 0) ++ be 128 0 ++ (be 2 0x1000 ++ be 2 (0x2000 + 360) ++ List.replicate 28 0xFF) ++
    List.replicate 992 0 ++ List.replicate 1024 0

/-- A device whose group 0 has that calendar active. -/
def calS : State := { w0 [(trfCfg_GROUPS, 1)] with live := { tables := [(tabCalAct, [(0, nums calA)])] } }

/-- The bytes of a sealed request of an OP for group g that its tag covers, n the length of its body. -/
def reqHead (op g seq n : Nat) (body : List Byte) : List Byte :=
  be 4 0x54525131 ++ be 1 op ++ be 1 g ++ be 2 0 ++ be 4 seq ++ be 2 n ++ be 2 0 ++ body

/-- The request with its tag under the key of slot 3. -/
def reqItem (op g seq : Nat) (body : List Byte) : List Byte :=
  reqHead op g seq body.length body ++ tagOf keyA (reqHead op g seq body.length body) 16 "TRQ1"

/-- A device whose sealed tariff queue 5 holds a request, with images being built. -/
def reqS (b : List Byte) (img : SMap (List Byte)) : State :=
  State.setSlot (State.setQ { w0 [(whfQCfg_SIZE 5, 1), (trfCfg_GROUPS, 1), (trfCfg_KEY_SLOT, 3), (hldStat_MOUNTED, 1)] with
      man := { State.reset.man with queues := [5], roles := { tariffIn := 6 } }, trf := { building := img } } 5
    { items := [mkItem 0 {} b], tail := 1 }) 3 { attr := 0x80000001, key := keyA }

/-- A device whose sealed queue 5 holds an accepted CRR of slot 3. -/
def bilS : State :=
  State.setQ { State.set (eptS 1) (whfQCfg_SIZE 5) 1 with
      man := { State.reset.man with queues := [5], roles := { sealedIn := 6 } } } 5
    { items := [mkItem 0 {} (be 4 3 ++ be 28 0 ++ be 1 0x11 ++ be 1 0 ++ be 8 77 ++ be 4 9 ++ be 6 500 ++ be 6 9000 ++ be 38 0)]
      tail := 1 }

/-- A device with a waiting session of slot 3 whose quarter is complete. -/
def sessS : State :=
  { State.set (eptS 1) bilQ_Q 2 with
    bil := { isOpen := true }
    live := { (eptS 1).live with tables := [(tabSess, [(0, [3, 3, 0, 77] ++ nums (be 120 0))]),
      (tabBnd, [(1, ({ q := 1, nS := 0, nE := 96 } : Bnd).row), (2, ({ q := 2, nS := 96 } : Bnd).row)])] } }

/-- A device whose token queue 5 holds an entry; account 3 is active with identity 77, the issuer key in slot 3. -/
def tokS (b : List Byte) : State :=
  State.setSlot (State.setQ { w0 [(whfQCfg_SIZE 5, 1), (hldStat_MOUNTED, 1)] with
      man := { State.reset.man with queues := [5], roles := { tokenIn := 6 }, tokenKey := 3 }
      live := { tables := [(tabAcct, [(3, ({ id := 77, st := 1, bal := -5 } : Acct).row)])] } } 5
    { items := [mkItem 0 {} b], tail := 1 }) 3 { attr := 0x80000001, key := keyA }

/-- A device with queue 5 in use. -/
def whfS (x : Queue) : State := State.setQ { w0 [(whfQCfg_SIZE 5, 1)] with man := { State.reset.man with queues := [5] } } 5 x

/-- A device with one thread, alone in the ready list of its priority where it is READY, and core 2 in a state. -/
def fryS (k : Nat) (x : Thread) (c : CoreSt) : State :=
  { State.reset with fry := { threads := [(k, x)], cores := [(2, c)], ready := if x.st = .ready then [(x.prio, [k])] else [] } }

/-- A device whose window 0 may create threads and has set the affinity and the priority of the next one. -/
def crtS : State :=
  { State.setReg State.reset (regKey (.core 0) fryNewCfg_AFFINITY.addr)
      (BitVec.ofNat 32 (5 * 2 ^ fryNewCfg_AFFINITY.lo + 9 * 2 ^ fryNewCfg_PRIO.lo)) with
    man := { State.reset.man with priv := [(0, { create := true })] } }

/-- A device whose Oarsman n runs a two-word program with a program section. -/
def oarS (n : Nat) (o : Oarsman) (p : OarProg) : State :=
  { State.setOar State.reset n { o with st := .running } with man := { State.reset.man with oar := [(n, { p with code := [0, 0] })] } }

/-- An Oarsman with g1, g2 and g3 set and data memory bytes from 0x100 on. -/
def oarO (a b c : Word) (l : List Byte) : Oarsman := { g := [(1, a), (2, b), (3, c)], mem := putBytes [] 0x100 l }

/-- A device whose Oarsman 2 runs with a program section that maps queue 5, in use, of a size. -/
def oarQ (o : Oarsman) (p : OarProg) (x : Queue) (size : Nat) : State :=
  let s := State.setQ (State.set (oarS 2 o p) (whfQCfg_SIZE 5) size) 5 x
  { s with man := { s.man with queues := [5] } }

/-- A Hold of 8 TLC blocks of four pages with block states and a block map; region 3 is TLC. -/
def hldS (bs : SMap Block) (m : SMap (Option Nat)) : State :=
  { State.reset with hld := { blocks := bs, map := m },
                     man := { State.reset.man with tlcBlocks := 8, blockBytes := 0x10000, regions := [(3, { size := 0x80000 })] } }

/-- A device where core 0's window may use a key slot, has it selected, and has written KEY_NEW_ATTR. -/
def keySlotS (n : Nat) (f : State → State) (a : Word) : State :=
  let x := State.setReg (State.setReg State.reset (regKey (.core 0) keyNewAttr) a) (regKey (.core 0) keySel) (BitVec.ofNat 32 n)
  f { x with man := { x.man with priv := [(0, { keys := [n] })] } }

/-- The bytes of a part with empty sections of some types. -/
def mpartA (magic : Nat) (types : List Nat) : List Byte :=
  be 4 magic ++ be 4 (128 + 16 * types.length + 2820) ++ be 5 0 ++ be 1 types.length ++ be 114 0 ++
    types.flatMap fun t => be 1 t ++ be 11 0 ++ be 4 (crc32c [])

/-- The container header of a copy: its CRC takes STATE as 0xFF. -/
def mheadA (st variants seq : Nat) : List Byte :=
  let h := fun (x : Nat) => be 4 0x434D4631 ++ be 1 1 ++ be 1 x ++ be 2 variants ++ be 4 seq ++ be 4 0x1000 ++ be 40 0
  h st ++ be 4 (crc32c (h 0xFF)) ++ be 4 0

/-- A copy of a STATE, VARIANTS and SEQ whose content passes every check on a chip without fused authorities, and allows core 0 to write
MFT_CMD. -/
def mcopyH (st variants seq : Nat) : MCopy :=
  { header := mheadA st variants seq
    opn := { sigOk := true, bytes := mpartA 0x4D504F31 [1, 2, 3, 4, 5, 6, 7, 8, 10] }
    sld := { sigOk := true, bytes := mpartA 0x4D505331 [5, 13, 14] }
    man := { State.reset.man with priv := [(0, { regs := [{ lo := mftCmd, hi := mftCmd, write := true }] })], profiles := [0]
                                  regions := [(0, { size := 89128960, slc := true })], slcBlocks := 64, blockBytes := 4194304
                                  eptBytes := 1024, enrolBase := 0x10000000 } }

/-- A copy for variant 1, confirmed. -/
def mcopyA : MCopy := mcopyH 0xF0 1 0

/-- A device out of reset with two Manifest copies. -/
def mftS (a b : MCopy) : State := { w0 [(pwrReset_CAUSE, 4)] with mft := { a := a, b := b } }

/-- A device with copy A in force, and more. -/
def mftGo (f : State → State) : State :=
  f { w0 [(pwrReset_CAUSE, 4)] with mft := { a := mcopyA, b := mcopyA, inForce := some 0 }, man := mcopyA.man }

/-- A device where core 0 may write the test block's registers. -/
def tstS (f : State → State) : State :=
  f { State.reset with man := { State.reset.man with priv := [(0, { regs := [{ lo := tstCtrl, hi := tstEvtEn, write := true }] })] } }

/-- A chip whose head end may write PWR_EVT_EN, with the head-end key in slot 3. -/
def headS : State :=
  State.setSlot { State.reset with man := { State.reset.man with headKey := 3, priv := [(9, { regs := [{ lo := 0x1300000, hi := 0x13000FF, write := true }] })] } } 3
    { attr := 0x80000001, key := keyA }

/-! ### Worked examples of the spec -/

/-- A register after one command, as core 0 reads it. -/
def regAfter (c : Instr) (s : State) (a : Nat) : Option Word :=
  match exec c s with
  | .next t => some (t.shown (.core 0) a)
  | _ => none

/-- The anchor check at 49.93 Hz: number 94,999,998,870, residual −3 (02_crossing_time.md). -/
theorem test_anchor_check :
    anchorCheck { crossing := 94999998720, ptp := 1899999974400000000, freq := 3272212 } (1899999974400000000 + 3002372000) (-6000)
      = (94999998870, -3) := by decide +kernel

/-- The SNR fields of a combined response: 6.0, 1.0, 2.0 and 8.34 dB (04_plc_physical.md). -/
theorem test_snr_fields : [snrCode 12, snrCode 2, snrCode 4, snrCode 17] = [0x20, 0x16, 0x18, 0x25] := by decide +kernel

/-- The CRR window of an endpoint, top 1,000 and bitmap 0xD (08_reading_validation.md): 999 is new, 1,000 a repeat, 1,003 moves the
window, 936 lies below it, 940 is new. -/
theorem test_dedup_window :
    dedupCheck 999 1000 0xD = 0 ∧ dedupMark 999 1000 0xD = (1000, 0xF) ∧ dedupCheck 1000 1000 0xF = 0x01 ∧
    dedupMark 1003 1000 0xF = (1003, 0x79) ∧ dedupCheck 936 1003 0x79 = 0x30 ∧ dedupCheck 940 1003 0x79 = 0 ∧
    dedupMark 940 1003 0x79 = (1003, 0x8000000000000079) := by decide +kernel

/-- The loss of transformer T7 over 45,000 crossings at 50 Hz: 599,503 mWh (10_balance.md). -/
theorem test_loss : lossMwh { k0 := 610, k1 := 0, k2 := 287 } 62400000 45000 50 = 599503 := by decide +kernel

/-- The calendar of group 7 (11_tariff_calendar.md): daylight time from the last Sunday of March, minute 120, to the last Sunday of
October, minute 180; Sundays of the second season use day profile 2. -/
def calB : List Byte :=
  be 4 0x54434C31 ++ be 2 7 ++ be 1 7 ++ be 1 3 ++ be 1 2 ++ be 1 2 ++ be 1 3 ++ be 1 0 ++ be 2 0 ++ be 2 60 ++ be 1 60 ++ be 1 0 ++
    be 1 3 ++ be 1 0x57 ++ be 2 120 ++ be 1 10 ++ be 1 0x57 ++ be 2 180 ++ be 6 0 ++
    (be 1 4 ++ be 1 1 ++ be 1 1 ++ be 1 0 ++ be 1 10 ++ be 1 1 ++ be 1 0 ++ be 1 0 ++ be 56 0) ++
    (be 1 0 ++ be 5 0 ++ be 1 2 ++ be 1 0 ++ be 120 0) ++
    be 2 0 ++ List.replicate 30 0xFF ++
    be 2 0 ++ List.replicate 30 0xFF ++ (be 2 0x1000 ++ be 2 (0x2000 + 150) ++ be 2 480 ++ be 2 (0x1000 + 1320) ++ List.replicate 24 0xFF) ++
    List.replicate 928 0 ++ List.replicate 1024 0

/-- A query of quarter 2,167,492 and of 2,167,490 for that calendar reads 0x8211_0078 and 0xA212_0096 (11_tariff_calendar.md). -/
theorem test_clocks_go_back :
    let s := { w0 [(trfCfg_GROUPS, 8), (trfClockTrust_STATE, 0), (trfQrySel_GROUP, 7)] with live := { tables := [(tabCalAct, [(7, nums calB)])] } }
    let g := fun q => ((s.setReg trfQryQ q).rateQuery).reg trfQryRes
    g 2167492 = 0x82110078 ∧ g 2167490 = 0xA2120096 := by decide +kernel

/-- The token 00580756578756762702: class, key generation, serial, amount and check value (14_prepayment_panel.md). -/
theorem test_token_fields :
    let v := 580756578756762702
    v / 2 ^ 62 % 16 = 0 ∧ v / 2 ^ 58 % 16 = 2 ∧ v / 2 ^ 32 % 2 ^ 26 = 1000200 ∧ v / 2 ^ 16 % 2 ^ 16 = 2500 ∧ v % 2 ^ 16 = 0x9C4E ∧
    be 7 (v / 2 ^ 16) = be 7 0x00080F430809C4 := by decide +kernel

/-- Queue 40 with four retained items of 188 data words, ISEQ 812 to 815, all delivered (15_wharf.md). -/
def whf40 : State :=
  let it : Nat → Item := fun i => { iseq := i, data := List.replicate 188 { val := 0 } }
  State.setQ { w0 [(whfQCfg_SIZE 40, 3), (whfQCfg_RETAIN 40, 1)] with man := { State.reset.man with queues := [40] } } 40
    { items := [it 812, it 813, it 814, it 815], mark := 812, head := 816, front := 816, tail := 816 }

/-- Before the release 264 words are free; a release of ISEQ 813 leaves MARK 814 and 644 words free (15_wharf.md). -/
theorem test_queue_40 :
    whf40.shown (.core 0) (whfQFree 40) = 264 ∧
    (whf40.qRelease 40 false 813).shown (.core 0) (whfQMark 40) = 0x32E ∧
    (whf40.qRelease 40 false 813).shown (.core 0) (whfQFree 40) = 0x284 := by decide +kernel

/-- After the release with ALL, HEAD and MARK read 0x330 and 1,024 words are free (15_wharf.md). -/
theorem test_queue_40_all :
    let t := whf40.qRelease 40 true 0
    t.shown (.core 0) (whfQHead 40) = 0x330 ∧ t.shown (.core 0) (whfQMark 40) = 0x330 ∧ t.shown (.core 0) (whfQFree 40) = 0x400 := by
  decide +kernel

/-- A trial that is never confirmed: after start 4 MFT_STAT reads 0x1000_F000 and MFT_ERR 0xC000_000C (21_manifest.md). -/
theorem test_trial_given_up :
    let s := mftS (mcopyH 0xF0 1 41) (mcopyH 0xF8 1 42)
    regAfter .manifestVerified s mftStat = some 0x1000F000 ∧ regAfter .manifestVerified s mftErr = some 0xC000000C := by
  decide +kernel

/-- A copy's first failing check (21_manifest.md, R2, R78, R389, R502): a hub role on a CRN-8800-C before a wiring of 0b11, two
queues that share a unit, a default profile that is not permitted, the wiring alone; none for the copy as it stands. -/
theorem test_manifest_checks :
    let c := fun (f : Manifest → Manifest) => { mcopyH 0xF0 3 0 with man := f mcopyA.man }
    let s := fun (v : Nat) => { w0 [(pwrReset_CAUSE, 4)] with fuses := { State.reset.fuses with variant := v } }
    (s 2).firstFail (c fun m => { m with regs := [(metConfig, 0xC0), (gwyCfg, 1)] }) = some (1, 0x01, 5, 0x07) ∧
    (s 1).firstFail (c fun m => { m with queues := [40, 41], regs := [(whfQCfg 40, 0x32003), (whfQCfg 41, 0x33800)] })
      = some (1, 0x03, 9, 0x0A) ∧
    (s 1).firstFail (c fun m => { m with defaultProfile := 3 }) = some (1, 0x08, 10, 0x0A) ∧
    (s 1).firstFail (c fun m => { m with regs := [(metConfig, 0xC0)] }) = some (2, 0x0D, 12, 0x0A) ∧
    (s 1).firstFail (c id) = none := by decide +kernel

/-- TST_PSTAT 20 s after a frame-error entry was armed, with 37 hits: 0x8028_0025 (23_test_perturbation.md). -/
theorem test_pstat :
    let s := ({ State.reset with clk := { State.reset.clk with mono := 20 * nsPerSec } }.set tstCtrl_LIMIT 60).set tstPsel_ENTRY 2
    (s.setEntry 2 { armed := true, kind := 8, hits := 37 }).shown (.core 0) tstPstat = 0x80280025 := by decide +kernel

/-- An opened log record of 1,234,567 operating seconds reads VALID with 342 hours (19_logbook.md). -/
theorem test_log_hours :
    let s := { State.reset with lgb := { State.reset.lgb with ring := [{ num := 0x01312D03, opsec := 1234567 }], next := 0x01312D04 } }
    let t := (s.setReg (regKey .headEnd (lgbRdSel 9)) 0x01312D03).logCapture .headEnd 9
    t.reg (regKey .headEnd (lgbRdStat 9)) = 0x80000156 := by decide +kernel

/-- The calibration example: a staged gain reads back through MET_CAL_STAT (03_metrology_seal.md). -/
theorem test_cal_staged :
    let s := { State.reset with man := { State.reset.man with priv := [(0, { regs := [{ lo := 0x200000, hi := 0x2FFFFF, write := true }] })] } }
    regAfter (.calibrationWrite (.core 0) (metCalGain 3) 0x40268EAC) s metCalStat = some 1 := by decide +kernel

/-- Words of the excerpt for Oarsman 7 and what they spell (17_oarsman.md): ADDI g1, g0, 0x400; WAIT g2, 337, 337; POP g3, g1, 17;
BEQ g3, g0, 0x002; STW g8, [g5 + 4]; HSUB g7, g5; HWAIT g9, g7. -/
theorem test_oarsman_words :
    OWord.of 0x40400400 = { op := 0x10, gd := 1, ga := 0, gb := 0, imm := 0x400 } ∧
    ((OWord.of 0xC082A351).op, (OWord.of 0xC082A351).gd, (OWord.of 0xC082A351).imm / 512, (OWord.of 0xC082A351).imm % 512)
      = (0x30, 2, 337, 337) ∧
    ((OWord.of 0xA0C40011).op, (OWord.of 0xA0C40011).gd, (OWord.of 0xA0C40011).ga, (OWord.of 0xA0C40011).imm) = (0x28, 3, 1, 17) ∧
    ((OWord.of 0x80C00002).op, (OWord.of 0x80C00002).gd, (OWord.of 0x80C00002).ga, (OWord.of 0x80C00002).target) = (0x20, 3, 0, 2) ∧
    ((OWord.of 0x66140004).op, (OWord.of 0x66140004).gd, (OWord.of 0x66140004).ga, (OWord.of 0x66140004).imm) = (0x19, 8, 5, 4) ∧
    ((OWord.of 0xD1D40000).gd, (OWord.of 0xD1D40000).ga, (OWord.of 0xD65C0000).gd, (OWord.of 0xD65C0000).ga) = (7, 5, 9, 7) := by
  decide +kernel

/-- ADDI g1, g0, 0x400 as a word gives g1 0x400, as the command does. -/
theorem test_oarsman_addi :
    (match exec (.opAddi 2 1 0 0x400) (oarS 2 {} {}) with
      | .next t => (t.oarN 2).gr 1
      | _ => 0) = 0x400 ∧
    (match runImm 2 (OWord.of 0x40400400) (oarS 2 {} {}) with
      | .next t => (t.oarN 2).gr 1
      | _ => 0) = 0x400 := by decide +kernel

/-! ### Commands out of their bounds -/

/-- An ill-formed command for each check of well-formedness, refused by it. -/
theorem test_ill_formed :
    Instr.wf (.xingLatch (.core 8)) = false ∧ Instr.wf (.xingLatch (.oarsman 16)) = false ∧
    Instr.wf (.registerWrite (.core 0) (.reg 0x4000000) 32 0) = false ∧ Instr.wf (.registerWrite (.core 0) (.door 512 0) 32 0) = false ∧
    Instr.wf (.registerWrite (.core 0) (.door 0 4096) 32 0) = false ∧ Instr.wf (.registerWrite (.core 0) (.reg 0) 33 0) = false ∧
    Instr.wf (.phaseCrossing 3) = false ∧ Instr.wf (.threadWait 0 512 none) = false ∧ Instr.wf (.threadWait 0 0 (some 512)) = false ∧
    Instr.wf (.ebfinAccess 0 (.readReg 16)) = false ∧ Instr.wf (.ebfinAccess 0 (.writeMem 0x2000 0)) = false ∧
    Instr.wf (.threadWait 0 511 (some 511)) = true ∧ Instr.wf (.ebfinAccess 15 (.readReg 15)) = true := by decide +kernel

/-! ### Witnesses of the machine's own statements -/

/-- A device with a listed byte in each memory, a blown seal count and a waiting command that writes a register. -/
def machS : State :=
  { w0 [(pwrReset_CAUSE, 4)] with sram := [(5, 1)], dram := [(9, 2)], fuses := { State.reset.fuses with breaks := 3 },
                                  pending := [.queueIdleTimeout 5, .xingLatch (.core 0)] }

/-- A step answers a next state. -/
theorem step_next (s : State) : ∃ t, step s = .next t := by
  unfold step
  split
  · exact ⟨_, rfl⟩
  · exact exec_next _ _

/-- The hypotheses of FusesOnlyBurn, QueueStaysWellFormed and MemoriesStayCanonical are met by a device with waiting commands. -/
theorem witness_FusesOnlyBurn : ∃ t, step machS = .next t := step_next _

/-- The queue holds well-formed commands. -/
theorem witness_QueueStaysWellFormed : queueWf machS ∧ ∃ t, step machS = .next t := ⟨by unfold queueWf; decide +kernel, step_next _⟩

/-- The memories list bytes in canonical form. -/
theorem witness_MemoriesStayCanonical : Memory.wf machS.sram ∧ Memory.wf machS.dram ∧ ∃ t, step machS = .next t :=
  ⟨by decide +kernel, by decide +kernel, step_next _⟩

/-- Both cases of IdleStepIsOneTick: in reset, and out of it. -/
theorem witness_IdleStepIsOneTick :
    (State.reset.pending = [] ∧ State.reset.get pwrReset_CAUSE = 0) ∧
    ((w0 [(pwrReset_CAUSE, 4)]).pending = [] ∧ (w0 [(pwrReset_CAUSE, 4)]).get pwrReset_CAUSE ≠ 0) := by decide +kernel

/-! ### Witnesses: the hypotheses of every statement are met -/

/-- The hypotheses of ProfileRequestAndChange are met, clause by clause. -/
theorem witness_ProfileRequestAndChange :
    (let s : State := { State.reset with man := { State.reset.man with profiles := [0, 2] } }
    let i : Iface := .core 0
    (s.mayAccess i sysProfileCtrl true = true)) ∧
    (let s : State := { State.reset with man := { State.reset.man with profiles := [0, 2] } }
    let i : Iface := .core 0
    (s.mayAccess i sysProfileCtrl true = true)) ∧
    (let s : State := { w0 [(sysProfileStat_PENDING, 1), (sysProfileStat_TARGET, 1)] with xing := { num := 64 } }
    (s.xing.num % 32 = 0) ∧
    (s.get sysProfileStat_PENDING = 1) ∧
    (s.warned = false)) :=
  by and_intros <;> decide +kernel

/-- The hypotheses of EventEnableWritesAreAtomic are met, clause by clause. -/
theorem witness_EventEnableWritesAreAtomic :
    (let s : State := State.reset
    let i : Iface := .core 7
    let a : Nat := pwrEvtEn
    let d : RegDesc := { base := pwrEvtEn, dims := [], fields := [⟨15, 0, .rw⟩] }
    (a ∈ plainEnables) ∧
    (regDesc? a = some d) ∧
    (s.mayAccess i a true = true)) ∧
    (let width : Nat := 16
    (width ≠ 32)) ∧
    (let a : Nat := 0x100016
    (a % 4 ≠ 0 ∨ 0x1500000 ≤ a)) :=
  by and_intros <;> decide +kernel

/-- The hypotheses of CrossingsAreCounted are met, clause by clause. -/
theorem witness_CrossingsAreCounted :
    (let s : State := State.reset
    (s.clockFault 0 = false) ∧
    (s.xing.lastEdge = none)) ∧
    (let s : State := { State.reset with clk := { mono := 30000000 }, xing := { lastEdge := some 0 } }
    let e : Nat := 0
    (s.clockFault 0 = false) ∧
    (s.xing.lastEdge = some e) ∧
    (s.periodOk (s.clk.mono - e) = false)) ∧
    (let s : State := { w0 [(xingStatus_COASTING, 0)] with clk := { mono := 20000000 }, xing := { lastEdge := some 0 } }
    let e : Nat := 0
    (s.clockFault 0 = false) ∧
    (s.xing.lastEdge = some e) ∧
    (s.periodOk (s.clk.mono - e) = true) ∧
    (s.coasting = false) ∧
    (s.xing.hold = 0) ∧
    (s.anchorNow = none)) ∧
    (let s : State := { w0 [(xingStatus_COASTING, 0)] with clk := { mono := 20000000 }, xing := { lastEdge := some 0, hold := 3 } }
    let e : Nat := 0
    (s.clockFault 0 = false) ∧
    (s.xing.lastEdge = some e) ∧
    (s.periodOk (s.clk.mono - e) = true) ∧
    (s.coasting = false) ∧
    (1 < s.xing.hold)) ∧
    (let s : State := { State.reset with clk := { mono := 20000000 }, xing := { lastEdge := some 0, goodRun := 2 } }
    let e : Nat := 0
    (s.clockFault 0 = false) ∧
    (s.xing.lastEdge = some e) ∧
    (s.periodOk (s.clk.mono - e) = true) ∧
    (s.coasting = true) ∧
    (s.xing.goodRun < 3)) ∧
    (let s : State := { State.reset with clk := { mono := 20000000 }, xing := { lastEdge := some 0, goodRun := 3, valid := true, num := 4294967296 } }
    let e : Nat := 0
    (s.clockFault 0 = false) ∧
    (s.xing.lastEdge = some e) ∧
    (s.periodOk (s.clk.mono - e) = true) ∧
    (s.coasting = true) ∧
    (3 ≤ s.xing.goodRun) ∧
    (s.xing.hold = 0) ∧
    (s.anchorNow = none) ∧
    (s.xing.valid = true)) ∧
    (let s : State := { State.reset with clk := { mono := 30000000 }, xing := { lastEdge := some 25000000 } }
    let p : Nat := 1
    let e : Nat := 25000000
    (s.clockFault 0 = false) ∧
    (s.xing.lastEdge = some e) ∧
    (p = 1 ∨ p = 2)) ∧
    (let s : State := { State.reset with clk := { mono := 30000000 }, xing := { lastEdge := some 25000000, placed := 26000000, valid := true } }
    let p : Nat := 2
    let e : Nat := 25000000
    (s.clockFault 0 = false) ∧
    (s.xing.lastEdge = some e) ∧
    (p = 1 ∨ p = 2)) ∧
    (let s : State := { w0 [(xingStatus_COASTING, 0)] with clk := { mono := 30000000 }, xing := { lastEdge := some 0 } }
    let e : Nat := 0
    (s.xing.lastEdge = some e) ∧
    (s.coasting = false) ∧
    (s.lastPeriod * 3 / 2 ≤ s.clk.mono - e)) ∧
    (let s : State := { State.reset with clk := { mono := 40000000 }, xing := { placed := 20000000, held := 20000000, valid := true } }
    (s.coasting = true) ∧
    (s.xing.valid = true) ∧
    (s.xing.held ≠ 0) ∧
    (s.xing.placed + s.xing.held ≤ s.clk.mono)) :=
  by and_intros <;> decide +kernel

/-- The hypotheses of ClockCommands are met, clause by clause. -/
theorem witness_ClockCommands :
    (let s : State := { State.reset with xing := { anchor := some {}, anchorAge := 513 } }
    (512 < s.xing.anchorAge)) ∧
    (let s : State := { w0 [(trfClockTrust_STATE, 1)] with xing := { trustOk := true }, clk := { ptp := 259200000000000 }, aon := { syncedPtp := some 0, coastNs := 259200000000000 } }
    let p : Nat := 0
    (s.xing.trustOk = true) ∧
    (s.get trfClockTrust_STATE = 1) ∧
    (s.aon.syncedPtp = some p) ∧
    (72 * 3600 * nsPerSec ≤ s.clk.ptp - p) ∧
    (s.agrees = true)) ∧
    (let s : State := { State.reset with xing := { leap := some (1, 38) } }
    let l : Nat × Int := (1, 38)
    (s.xing.leap = some l)) ∧
    (let s : State := State.reset
    let i : Iface := .core 0
    (s.mayAccess i xingLatch true = true)) ∧
    (let s : State := w0 [(xingLate_LATE 255, 7)]
    let i : Iface := .core 3
    let q : Nat := 255
    (q < 256) ∧
    (s.mayAccess i (xingLate q) true = true)) :=
  by and_intros <;> decide +kernel

/-- The hypotheses of LaunchUnitHoldsAndSends are met, clause by clause. -/
theorem witness_LaunchUnitHoldsAndSends :
    (let s : State := (gwQ 0xC000000010000000 false)
    let q : Nat := 5
    let it : Item := gwItem 0xC000000010000000
    (q < 256) ∧
    (launchReady s q it) ∧
    (s.netQueue q = true) ∧
    (it.late = false) ∧
    (natBit (it.word 0) 63 = true) ∧
    (natBit (it.word 0) 62 = true) ∧
    (s.xt < it.word 0 % 2 ^ 62 + s.xt / 2 ^ 62 * 2 ^ 62) ∧
    (it.word 0 % 2 ^ 62 + s.xt / 2 ^ 62 * 2 ^ 62 ≤ s.xt + 4096 * 65536)) ∧
    (let s : State := launchEth 0xC000000000000001 false
    let q : Nat := 6
    let it : Item := gwItem 0xC000000000000001
    (q < 256) ∧
    (launchReady s q it) ∧
    (s.netQueue q = true) ∧
    (it.late = false) ∧
    (natBit (it.word 0) 63 = true) ∧
    (natBit (it.word 0) 62 = true) ∧
    (s.xt < it.word 0 % 2 ^ 62 + s.xt / 2 ^ 62 * 2 ^ 62) ∧
    (it.word 0 % 2 ^ 62 + s.xt / 2 ^ 62 * 2 ^ 62 ≤ s.xt + 4096 * 65536)) ∧
    (let s : State := (gwQ 0xC000000010000001 false)
    let q : Nat := 5
    let n : Nat := 0
    let it : Item := gwItem 0xC000000010000001
    (q < 256) ∧
    (launchReady s q it) ∧
    (s.netQueue q = true) ∧
    (it.late = false) ∧
    (natBit (it.word 0) 63 = true) ∧
    (natBit (it.word 0) 62 = true) ∧
    (s.xt + 4096 * 65536 < it.word 0 % 2 ^ 62 + s.xt / 2 ^ 62 * 2 ^ 62) ∧
    ((s.q q).nextIdx = some n)) ∧
    (let s : State := { gwQ 0x8000000000000000 false with clk := { ptp := 5 } }
    let q : Nat := 5
    let n : Nat := 0
    let it : Item := gwItem 0x8000000000000000
    (q < 256) ∧
    (launchReady s q it) ∧
    (s.netQueue q = true) ∧
    (it.late = false) ∧
    (s.judge (s.launchDue (it.word 0) 0) = .late) ∧
    (s.flag (xingLate_POLICY q) = false) ∧
    ((s.q q).nextIdx = some n)) ∧
    (let s : State := State.set { launchEth 0x8000000000000000 false with clk := { ptp := 5 } } (xingLate_POLICY 6) 1
    let q : Nat := 6
    let x : Nat := 1
    let it : Item := gwItem 0x8000000000000000
    (q < 256) ∧
    (launchReady s q it) ∧
    (s.man.medium q = .eth x) ∧
    (s.eth.fwd.all (fun p => p.1 != x) = true) ∧
    (it.late = false) ∧
    (it.radKind = 0) ∧
    (s.judge (s.launchDue (it.word 0) 0) = .late) ∧
    (s.flag (xingLate_POLICY q) = true) ∧
    (smGet none s.eth.jobs x = none)) ∧
    (let s : State := gwQ 0 false
    let q : Nat := 5
    let it : Item := gwItem 0
    (q < 256) ∧
    (launchReady s q it) ∧
    (s.man.medium q = .gwy) ∧
    (it.late = false) ∧
    (natBit (it.word 0) 63 = false) ∧
    (smGet none s.eth.jobs (s.peerPlace it.radDst).port = none) ∧
    (s.fwdWaits (s.peerPlace it.radDst).port = false)) ∧
    (let s : State := launchEth 0 false
    let q : Nat := 6
    let x : Nat := 1
    let it : Item := gwItem 0
    (q < 256) ∧
    (launchReady s q it) ∧
    (s.man.medium q = .eth x) ∧
    (it.late = false) ∧
    (natBit (it.word 0) 63 = false) ∧
    (it.radKind = 0) ∧
    (smGet none s.eth.jobs x = none) ∧
    (s.eth.fwd.all (fun p => p.1 != x) = true)) ∧
    (let s : State := State.setQ (gwQ 0 false) 5 { items := [gwItem 0], tail := 1, lane := [{ item := {}, hold := true }] }
    let q : Nat := 5
    let l : LaneItem := { item := {}, hold := true }
    let r : List LaneItem := []
    ((s.q q).lane = l :: r) ∧
    (l.hold = true)) ∧
    (let s : State := gwQ 0x8000000000000000 true
    let q : Nat := 5
    let it : Item := gwItem 0x8000000000000000
    (q < 256) ∧
    (s.warned = false) ∧
    (s.qUsed q = true) ∧
    ((s.q q).lane = []) ∧
    ((s.q q).held = true) ∧
    (s.man.medium q = .gwy) ∧
    (s.launchHead q = some it) ∧
    (it.deferred = false) ∧
    ((s.q q).due = some (false, s.clk.ptp)) ∧
    (smGet none s.eth.jobs (s.peerPlace it.radDst).port = none) ∧
    (s.fwdWaits (s.peerPlace it.radDst).port = false)) ∧
    (let s : State := launchEth 0x8000000000000000 true
    let q : Nat := 6
    let x : Nat := 1
    let it : Item := gwItem 0x8000000000000000
    (q < 256) ∧
    (s.warned = false) ∧
    (s.qUsed q = true) ∧
    ((s.q q).lane = []) ∧
    ((s.q q).held = true) ∧
    (s.man.medium q = .eth x) ∧
    (s.launchHead q = some it) ∧
    (it.deferred = false) ∧
    ((s.q q).due = some (false, s.clk.ptp)) ∧
    (it.radKind = 0) ∧
    (smGet none s.eth.jobs x = none) ∧
    (s.fwdWaits x = false)) ∧
    (let s : State := State.setQ (gwQ 0x8000000000001388 true) 5 { items := [gwItem 0x8000000000001388], tail := 1, held := true, due := some (false, 5000) }
    let q : Nat := 5
    let n : Nat := 5000
    ((s.q q).held = true) ∧
    ((s.q q).due = some (false, n)) ∧
    (s.clk.ptp + 4000 < n ∨ (s.q q).lane ≠ [])) ∧
    (let s : State := State.setQ (gwQ 0 true) 5 { items := [gwItem 0x8000000000000000], tail := 1, held := true, due := some (false, 0), lane := [{ item := {}, hold := true }] }
    let q : Nat := 5
    let n : Nat := 0
    ((s.q q).held = true) ∧
    ((s.q q).due = some (false, n)) ∧
    (s.clk.ptp + 4000 < n ∨ (s.q q).lane ≠ [])) :=
  by and_intros <;> decide +kernel

/-- The hypotheses of CalibrationIsStagedThenApplied are met, clause by clause. -/
theorem witness_CalibrationIsStagedThenApplied :
    (let s : State := State.reset
    let i : Iface := .core 0
    let a : Nat := metCalGain 6
    let d : RegDesc := { base := metCalGain 0, dims := [(7, 16)], fields := [⟨31, 0, .sl⟩] }
    (a ∈ calAddrs) ∧
    (regDesc? a = some d) ∧
    (s.mayAccess i a true = true) ∧
    (s.sealOpen = true)) ∧
    (let s : State := w0 [(metSealStat_STATE, 1)]
    let i : Iface := .core 0
    let a : Nat := metCalCreep
    (a ∈ calAddrs) ∧
    (s.mayAccess i a true = true) ∧
    (s.sealOpen = false)) ∧
    (let s : State := State.reset
    let i : Iface := .core 0
    (s.mayAccess i metCalCtrl true = true) ∧
    (s.sealOpen = true) ∧
    (s.mlogFull = false)) ∧
    (let s : State := w0 [(metSealStat_STATE, 1)]
    let i : Iface := .core 0
    (s.mayAccess i metCalCtrl true = true) ∧
    (s.sealOpen = false)) ∧
    (let s : State := State.setReg { State.reset with met := { copy := some [] } } metCalCreep 3
    let i : Iface := .core 0
    (s.mayAccess i metCalCtrl true = true) ∧
    (s.sealOpen = true)) ∧
    (let s : State := State.set { State.reset with met := { copy := some [(metCalCreep, 7)] } } metStatus_CAL_LOST 1
    let m : SMap Word := [(metCalCreep, 7)]
    (s.met.copy = some m) ∧
    (s.sealOpen = true) ∧
    (s.mlogFull = false)) ∧
    (let s : State := { w0 [(metQtySel_CODE, 0x10)] with met := { impA := 3600000000000 * 2 ^ 33 } }
    let i : Iface := .core 0
    (s.mayAccess i metQtyHi false = true)) :=
  by and_intros <;> decide +kernel

/-- The hypotheses of SealClosesAndBreaks are met, clause by clause. -/
theorem witness_SealClosesAndBreaks :
    (let s : State := State.reset
    let i : Iface := .core 0
    (s.mayAccess i metSealCtrl true = true) ∧
    (s.get metSealStat_STATE = 0) ∧
    (s.met.closing = false) ∧
    (s.closeOk = true)) ∧
    (let s : State := w0 [(metSealStat_BREAKS, 255)]
    let i : Iface := .core 0
    (s.mayAccess i metSealCtrl true = true) ∧
    (s.met.closing = false) ∧
    (s.get metSealStat_STATE ≠ 0 ∨ s.closeOk = false)) ∧
    (let s : State := w0 [(metSealStat_STATE, 1)]
    let i : Iface := .core 0
    (s.mayAccess i metSealCtrl true = true) ∧
    (s.met.closing = false) ∧
    (s.get metSealStat_STATE ≠ 0 ∨ s.closeOk = false)) ∧
    (let s : State := { State.reset with met := { closing := true } }
    let i : Iface := .core 0
    (s.mayAccess i metSealCtrl true = true) ∧
    (s.met.closing = true)) ∧
    (let s : State := { w0 [(metSealStat_BREAKS, 254)] with met := { closing := true } }
    (s.met.closing = true) ∧
    (s.closeOk = true)) ∧
    (let s : State := { w0 [(metCalStat_PENDING, 1)] with met := { closing := true } }
    (s.met.closing = true) ∧
    (s.closeOk = false)) ∧
    (let s : State := { w0 [(metSealStat_STATE, 1), (metSealStat_BREAKS, 254), (pwrReset_CAUSE, 1)] with pwr := { State.reset.pwr with mounted := true } }
    (s.get metSealStat_STATE = 1) ∧
    (s.get pwrReset_CAUSE ≠ 0)) ∧
    (let s : State := w0 [(metSealStat_STATE, 1), (metSealStat_BREAKS, 255), (pwrReset_CAUSE, 2)]
    (s.get metSealStat_STATE = 1) ∧
    (s.get pwrReset_CAUSE ≠ 0)) ∧
    (let s : State := w0 [(metSealStat_STATE, 1), (metSealStat_BREAKS, 3)]
    (s.get metSealStat_STATE = 1) ∧
    (s.get pwrReset_CAUSE = 0)) ∧
    (let s : State := { w0 [(metSealStat_STATE, 2)] with met := { closing := true } }
    (s.get metSealStat_STATE ≠ 1) ∧
    (s.met.closing = true)) ∧
    (let s : State := w0 [(metSealStat_LOOP, 1)]
    (s.get metSealStat_STATE ≠ 1) ∧
    (s.met.closing = false)) :=
  by and_intros <;> decide +kernel

/-- The hypotheses of SnapshotLatchesEnergies are met, clause by clause. -/
theorem witness_SnapshotLatchesEnergies :
    (let s : State := { State.reset with plc := { snapN := 96 }, xing := { num := 96 }, met := { impA := 3600000000000 * 5 } }
    (s.plc.snapN ≠ 0) ∧
    (s.bil.latchN ≠ s.plc.snapN) ∧
    (s.plc.snapN ≤ s.xing.num)) ∧
    (let s : State := { w0 [(balSite_EMIT, 1)] with plc := { snapN := 96 }, xing := { num := 97, skipFrom := 90, skipTo := 97 }, met := { impA := 3600000000000 * 5 } }
    (s.plc.snapN ≠ 0) ∧
    (s.bil.latchN ≠ s.plc.snapN) ∧
    (s.plc.snapN ≤ s.xing.num)) ∧
    (let s : State := State.reset
    (s.bil.latchN = s.plc.snapN)) :=
  by and_intros <;> decide +kernel

/-- The hypotheses of PlcFramesAreReceivedAndSent are met, clause by clause. -/
theorem witness_PlcFramesAreReceivedAndSent :
    (let s : State := setFs { State.reset with man := { State.reset.man with queues := [9], roles := { plcRx := [10] } } } [(plcStatus_PATH_ON, 7), (whfQCfg_FLAG 9, 1)]
    let p : Nat := 0
    let q : Nat := 9
    let x : PlcRx := rx0 true
    (p < 3) ∧
    (s.warned = false) ∧
    (natBit (s.get plcStatus_PATH_ON) p = true) ∧
    (s.tst.entries = []) ∧
    (x.verdict false = 0) ∧
    (roleQ s.man.roles.plcRx (s.pathCell p) = some q) ∧
    (q < 256) ∧
    (s.qUsed q = true) ∧
    (s.flag (whfQCfg_FLAG q) = true) ∧
    (40 + x.len ≤ 8 * (s.qFree q - 2)) ∧
    (x.len ≤ 254)) ∧
    (let s : State := w0 [(plcStatus_PATH_ON, 7), (plcRxCnt_BAD 2, 32767)]
    let p : Nat := 2
    let x : PlcRx := rx0 false
    (p < 3) ∧
    (s.warned = false) ∧
    (natBit (s.get plcStatus_PATH_ON) p = true) ∧
    (s.tst.entries = []) ∧
    (x.verdict false ≠ 0)) ∧
    (let s : State := { w0 [(plcStatus_PATH_ON, 5)] with plc := {} }
    let p : Nat := 1
    (s.warned = true ∨ natBit (s.get plcStatus_PATH_ON) p = false)) ∧
    (let s : State := w0 [(plcStatus_PATH_ON, 7), (pwrStat_WARN, 1)]
    let p : Nat := 1
    (s.warned = true ∨ natBit (s.get plcStatus_PATH_ON) p = false)) ∧
    (let s : State := State.setPath State.reset 0 { job := some { phases := [0], limited := true } }
    let c : Nat := 0
    let k : Nat := 0
    let j : TxJob := { phases := [0], limited := true }
    (s.cellJob c = some j) ∧
    (j.phases.Nodup) ∧
    (k ∈ j.phases) ∧
    (k < 3) ∧
    ((∀ y ∈ j.phases, y < 3))) ∧
    (let s : State := State.setPath State.reset 1 { job := some { phases := [1, 2], limit := 3, maxStep := 4, steps := 3 } }
    let x : IsnsRead := { path := 1, samples := [13, 13, 12, 13, 12, 13] }
    let p : Nat := 1
    let j : TxJob := { phases := [1, 2], limit := 3, maxStep := 4, steps := 3 }
    (x.path = p) ∧
    ((s.path p).job = some j) ∧
    (j.detects x.samples = true)) ∧
    (let s : State := State.setPath State.reset 1 { job := some { phases := [1, 2], limit := 3, maxStep := 4, steps := 4 } }
    let x : IsnsRead := { path := 1, samples := [13, 13, 13, 13] }
    let p : Nat := 1
    let j : TxJob := { phases := [1, 2], limit := 3, maxStep := 4, steps := 4 }
    (x.path = p) ∧
    ((s.path p).job = some j) ∧
    (j.detects x.samples = true)) ∧
    (let s : State := State.setPath State.reset 1 { job := some { phases := [1, 2], limit := 3, maxStep := 4, steps := 0 } }
    let x : IsnsRead := { path := 1, samples := [13, 13, 13, 13] }
    let p : Nat := 1
    let j : TxJob := { phases := [1, 2], limit := 3, maxStep := 4, steps := 0 }
    (x.path = p) ∧
    ((s.path p).job = some j) ∧
    (j.detects x.samples = true)) ∧
    (let s : State := State.setPath State.reset 1 { job := some { phases := [1, 2], limit := 3, maxStep := 4, steps := 3 } }
    let x : IsnsRead := { path := 1, samples := [12, 12, 12, 12, 12] }
    let j : TxJob := { phases := [1, 2], limit := 3, maxStep := 4, steps := 3 }
    ((s.path x.path).job = some j) ∧
    (j.detects x.samples = false)) :=
  by and_intros <;> decide +kernel

/-- The hypotheses of PlcDriverTripsAndRearms are met, clause by clause. -/
theorem witness_PlcDriverTripsAndRearms :
    (let s : State := State.setPath State.reset 2 { job := some { phases := [2], trip := 4 } }
    let x : IsnsRead := { path := 2, samples := [17, 17, 17, 17, 17] }
    let p : Nat := 2
    let j : TxJob := { phases := [2], trip := 4 }
    (x.path = p) ∧
    (p < 3) ∧
    ((s.path p).job = some j) ∧
    (p ∈ j.phases) ∧
    (j.trips x.samples = true)) ∧
    (let s : State := State.setPath (w0 [(plcTxStat_REARMS 0, 3)]) 0 { job := some { phases := [0], trip := 4 } }
    let x : IsnsRead := { path := 0, samples := [17, 17, 17, 17, 17] }
    let p : Nat := 0
    let j : TxJob := { phases := [0], trip := 4 }
    (x.path = p) ∧
    (p < 3) ∧
    ((s.path p).job = some j) ∧
    (p ∈ j.phases) ∧
    (j.trips x.samples = true)) ∧
    (let s : State := { State.setPath State.reset 1 { tripAt := some 32 } with xing := { num := 64 } }
    let p : Nat := 1
    let k : Nat := 32
    (p < 3) ∧
    ((s.path p).tripAt = some k) ∧
    (s.xing.num % 32 = 0) ∧
    (k + 32 ≤ s.xing.num)) ∧
    (let s : State := w0 [(plcTxStat_TRIPPED 2, 1), (plcTxStat_OFF 2, 1), (plcTxStat_REARMS 2, 3), (plcStatus_OFF, 7)]
    let i : Iface := .core 0
    let p : Nat := 2
    (p < 3) ∧
    (s.mayAccess i (plcTxStat p) true = true)) ∧
    (let s : State := w0 [(plcRxCnt_BAD 2, 5)]
    let i : Iface := .core 0
    let p : Nat := 2
    (p < 3) ∧
    (s.mayAccess i (plcRxCnt p) true = true)) :=
  by and_intros <;> decide +kernel

/-- The hypotheses of CellExchangesRunAndEnd are met, clause by clause. -/
theorem witness_CellExchangesRunAndEnd :
    (let s : State := cellS { nodes := [(1, some { slot := 5, eui := 77 })], cmds := [{ addr := 1, typ := 3 }], fseq := 65535 }
    let c : Nat := 0
    let e : Nat := 0
    let x : Exchange := { kind := 4, addr := 1, job := some { addr := 1, typ := 3 } }
    (s.cellUp c = true) ∧
    ((s.cell c).suspended = false) ∧
    (s.warned = false) ∧
    ((s.cell c).xch = []) ∧
    (s.val.segs = []) ∧
    ((s.pollable c).any (s.sessionDue c) = false) ∧
    (s.pick c = some x) ∧
    (smGet none s.txn.granted c = none) ∧
    (s.txnCan (if c < 3 then 3 else c + 1) = true) ∧
    (s.txnFree = some e)) ∧
    (let s : State := State.ctxPut (cellS { nodes := [(1, some { slot := 5, eui := 77, route := [9] })] }) 5 0 (be 8 77 ++ be 4 0 ++ be 1 1)
    let c : Nat := 0
    let e : Nat := 0
    let x : Exchange := { kind := 1, addr := 1, route := [9] }
    (s.cellUp c = true) ∧
    ((s.cell c).suspended = false) ∧
    (s.warned = false) ∧
    ((s.cell c).xch = []) ∧
    (s.val.segs = []) ∧
    ((s.pollable c).any (s.sessionDue c) = false) ∧
    (s.pick c = some x) ∧
    (smGet none s.txn.granted c = none) ∧
    (s.txnCan (if c < 3 then 3 else c + 1) = true) ∧
    (s.txnFree = some e)) ∧
    (let s : State := State.setCell State.reset 3 { nodes := [(1, some { slot := 5, eui := 77 })], cmds := [{ addr := 1, typ := 3 }], fseq := 65535 }
    let c : Nat := 3
    let e : Nat := 0
    let x : Exchange := { kind := 4, addr := 1, job := some { addr := 1, typ := 3 } }
    (s.cellUp c = true) ∧
    ((s.cell c).suspended = false) ∧
    (s.warned = false) ∧
    ((s.cell c).xch = []) ∧
    (s.val.segs = []) ∧
    ((s.pollable c).any (s.sessionDue c) = false) ∧
    (s.pick c = some x) ∧
    (smGet none s.txn.granted c = none) ∧
    (s.txnCan (if c < 3 then 3 else c + 1) = true) ∧
    (s.txnFree = some e)) ∧
    (let s : State := cellS { suspended := true }
    let c : Nat := 0
    ((s.cell c).suspended = true ∨ s.warned = true)) ∧
    (let s : State := State.set (cellS {}) pwrStat_WARN 1
    let c : Nat := 2
    ((s.cell c).suspended = true ∨ s.warned = true)) ∧
    (let s : State := cellS { xch := [{ kind := 1, addr := 1, fseq := 9, retries := 2, limit := 3 }] }
    let c : Nat := 0
    let fseq : Nat := 9
    let x : Exchange := { kind := 1, addr := 1, fseq := 9, retries := 2, limit := 3 }
    (c < 3) ∧
    (((s.cell c).xch.find? fun e => e.fseq == fseq && !e.acking) = some x) ∧
    (x.retries < x.limit)) ∧
    (let s : State := cellS { xch := [{ kind := 1, addr := 1, fseq := 9, retries := 3, limit := 3 }] }
    let c : Nat := 0
    let fseq : Nat := 9
    let x : Exchange := { kind := 1, addr := 1, fseq := 9, retries := 3, limit := 3 }
    (c < 3) ∧
    (((s.cell c).xch.find? fun e => e.fseq == fseq && !e.acking) = some x) ∧
    (x.limit ≤ x.retries) ∧
    (x.job.all (fun j => !j.leave) = true)) ∧
    (let s : State := cellS { xch := [{ kind := 4, addr := 1, fseq := 9, retries := 3, limit := 3, job := some { addr := 1, typ := 3 } }] }
    let c : Nat := 0
    let fseq : Nat := 9
    let x : Exchange := { kind := 4, addr := 1, fseq := 9, retries := 3, limit := 3, job := some { addr := 1, typ := 3 } }
    (c < 3) ∧
    (((s.cell c).xch.find? fun e => e.fseq == fseq && !e.acking) = some x) ∧
    (x.limit ≤ x.retries) ∧
    (x.job.all (fun j => !j.leave) = true)) ∧
    (let s : State := cellS { xch := [{ kind := 1, addr := 2, fseq := 9 }] }
    let c : Nat := 0
    let psdu : List Byte := withFcs (be 1 0x31 ++ be 1 0 ++ be 2 0 ++ be 2 2 ++ be 2 9 ++ be 1 1 ++ be 11 0)
    let x : Exchange := { kind := 1, addr := 2, fseq := 9 }
    (s.cellUp c = true) ∧
    (s.frameOk c psdu = true) ∧
    (frType psdu = 3) ∧
    ((s.cell c).exchangeOf (frSrc psdu) = some x) ∧
    (x.acking = false) ∧
    (beAt (frBody psdu) 0 1 = 1)) ∧
    (let s : State := cellS { xch := [{ kind := 4, addr := 2, fseq := 9, cseq := 6, job := some { addr := 2 } }] }
    let c : Nat := 0
    let psdu : List Byte := withFcs (be 1 0x41 ++ be 1 0 ++ be 2 0 ++ be 2 2 ++ be 2 9 ++ be 4 6 ++ be 1 4 ++ be 3 0)
    let x : Exchange := { kind := 4, addr := 2, fseq := 9, cseq := 6, job := some { addr := 2 } }
    (c < 3) ∧
    (s.cellUp c = true) ∧
    (s.frameOk c psdu = true) ∧
    (frType psdu = 4) ∧
    ((s.cell c).exchangeOf (frSrc psdu) = some x) ∧
    (x.job.isSome = true) ∧
    (x.cseq = beAt (frBody psdu) 0 4) ∧
    (4 ≤ beAt (frBody psdu) 4 1) ∧
    (beAt (frBody psdu) 4 1 ≤ 6)) :=
  by and_intros <;> decide +kernel

/-- The hypotheses of CellJoinsKeysAndQueries are met, clause by clause. -/
theorem witness_CellJoinsKeysAndQueries :
    (let s : State := cellS { xch := [{ kind := 6, addr := 0xFFFF, fseq := 9 }] }
    let c : Nat := 0
    let psdu : List Byte := withFcs (be 1 0x61 ++ be 1 0 ++ be 2 0 ++ be 2 0xFFFE ++ be 2 9 ++ be 32 7)
    let x : Exchange := { kind := 6, addr := 0xFFFF, fseq := 9 }
    (s.cellUp c = true) ∧
    (s.frameOk c psdu = true) ∧
    (frType psdu = 6) ∧
    (((s.cell c).xch.find? fun e => e.kind == 6 && !e.acking && e.route == frRelays psdu) = some x)) ∧
    (let s : State := cellS { c0Cur := some (be 12 0), c0Left := 1, cseq := 4 }
    let c : Nat := 0
    let q : Nat := 5
    let f : List Byte := be 12 0
    (c ∈ s.plcCells) ∧
    (roleQ s.man.roles.plcLaunch c = some q) ∧
    (s.warned = false) ∧
    (s.cellOff c = false) ∧
    (s.cellBusy c = false) ∧
    ((s.cell c).c0Cur = some f)) ∧
    (let s : State := State.setQ (cellS { cseq := 0xFFFFFFFF }) 5 { lane := [{ item := {}, hold := false }] }
    let c : Nat := 0
    let q : Nat := 5
    let l : LaneItem := { item := {}, hold := false }
    (c ∈ s.plcCells) ∧
    (roleQ s.man.roles.plcLaunch c = some q) ∧
    (s.warned = false) ∧
    (s.cellOff c = false) ∧
    (s.cellBusy c = false) ∧
    ((s.cell c).c0Cur = none) ∧
    ((s.q q).releasedLane = some l)) ∧
    (let s : State := { cellS { keyNew := some (3, be 32 1), nodes := [(7, some { eui := 5 })], keySince := some 0 } with clk := { ptp := 345600000000000 } }
    let c : Nat := 0
    let g : Nat := 3
    let k : List Byte := be 32 1
    (c < 3) ∧
    ((s.cell c).keyNew = some (g, k)) ∧
    (s.keyDue c = true) ∧
    (s.xing.num % 32 = 0)) ∧
    (let s : State := State.setPort (State.setCell State.reset 4 { keyNew := some (3, be 32 1) }) 1 { cellFcnt := 9 }
    let r : Nat := 1
    let g : Nat := 3
    let k : List Byte := be 32 1
    ((s.cell (3 + r)).keyNew = some (g, k)) ∧
    (s.keyDue (3 + r) = true) ∧
    (s.xing.num % 32 = 0)) ∧
    (let s : State := cellS { nodes := [(7, some { route := [2, 3] })] }
    let i : Iface := .core 0
    (s.mayAccess i plcRouteSel true = true)) ∧
    (let s : State := State.reset
    let i : Iface := .core 0
    (s.mayAccess i plcRouteSel true = true)) ∧
    (let s : State := w0 [(plcRouteData0_RELAY1, 3)]
    let i : Iface := .core 0
    let v : Word := 7
    (s.mayAccess i plcRouteSel true = true) ∧
    (s.node (wordBits v plcRouteSel_CELL) (wordBits v plcRouteSel_ADDR) = none)) ∧
    (let s : State := w0 [(plcXchFail_RETRIES 2, 3)]
    let i : Iface := .core 0
    let c : Nat := 2
    (c < 3) ∧
    (s.mayAccess i (plcXchFail c) true = true)) :=
  by and_intros <;> decide +kernel

/-- The hypotheses of RadioFramesAndDutyAccount are met, clause by clause. -/
theorem witness_RadioFramesAndDutyAccount :
    (let s : State := w0 [(radCfg_EN 1, 1)]
    let r : Nat := 1
    let x : RadRx := radRx0 7
    (r < 2) ∧
    (s.tst.entries = []) ∧
    (s.radHears r = true) ∧
    (s.radFilter r x = false)) ∧
    (let s : State := radS 1 { job := some { dst := 9, ackReq := true, seq := 44 }, force := [3, 9] }
    let r : Nat := 1
    let x : RadRx := { radRx0 2 with fcsOk := true, seq := 44 }
    let j : RadJob := { dst := 9, ackReq := true, seq := 44 }
    (r < 2) ∧
    (s.tst.entries = []) ∧
    (s.radHears r = true) ∧
    (s.radFilter r x = true) ∧
    (x.typ = 2) ∧
    ((s.port r).job = some j) ∧
    (j.ackReq = true) ∧
    (j.seq = x.seq) ∧
    (j.iseq = none) ∧
    (j.cover = false) ∧
    (j.kind ≠ 3) ∧
    (natBit (beAt x.payload 1 1) 0 = false)) ∧
    (let s : State := radS 1 { job := some { dst := 9, ackReq := true, seq := 44, typ := 6 }, force := [3, 9], nodes := [(9, some { timeDue := true })] }
    let r : Nat := 1
    let x : RadRx := { radRx0 2 with fcsOk := true, seq := 44 }
    let j : RadJob := { dst := 9, ackReq := true, seq := 44, typ := 6 }
    (r < 2) ∧
    (s.tst.entries = []) ∧
    (s.radHears r = true) ∧
    (s.radFilter r x = true) ∧
    (x.typ = 2) ∧
    ((s.port r).job = some j) ∧
    (j.ackReq = true) ∧
    (j.seq = x.seq) ∧
    (j.iseq = none) ∧
    (j.cover = false) ∧
    (j.kind ≠ 3) ∧
    (natBit (beAt x.payload 1 1) 0 = false)) ∧
    (let s : State := radS 1 { ext := [(77, 5, 0)] }
    let r : Nat := 1
    let e : Nat := 77
    let e1 : Nat := 77
    let a : Nat := 5
    let st : Nat := 0
    let x : RadRx := { radRx0 3 with fcsOk := true, dst := .short 0, src := .ext 77, payload := [4], ackReq := true }
    (r < 2) ∧
    (s.tst.entries = []) ∧
    (s.radHears r = true) ∧
    (s.radFilter r x = true) ∧
    (x.typ = 3) ∧
    (x.cmd = 4) ∧
    (x.secured = false) ∧
    (x.src = .ext e) ∧
    (s.radByEui r e = none) ∧
    (((s.port r).ext.find? fun p => p.1 == e) = some (e1, a, st)) ∧
    ((s.port r).job = none) ∧
    ((s.port r).budgetUs = 0) ∧
    (bitsOf (s.port r).dwell 15 0 = 0)) ∧
    (let s : State := radS 0 { job := some { dst := 9, iseq := some 4 } }
    let r : Nat := 0
    let a : Nat := 9
    let j : RadJob := { dst := 9, iseq := some 4 }
    (r < 2) ∧
    ((s.port r).job = some j) ∧
    (j.dst = a) ∧
    (j.iseq.isSome = true) ∧
    (j.cover = false)) ∧
    (let s : State := radS 0 { job := some { dst := 9, iseq := some 4 } }
    let r : Nat := 0
    let j : RadJob := { dst := 9, iseq := some 4 }
    (r < 2) ∧
    ((s.port r).job = some j)) ∧
    (let s : State := radS 0 { job := some { dst := 9, iseq := some 4 } }
    let r : Nat := 0
    let j : RadJob := { dst := 9, iseq := some 4 }
    (r < 2) ∧
    ((s.port r).job = some j)) ∧
    (let s : State := State.setReg { radS 1 { bins := List.replicate 64 9000000 } with man := { State.reset.man with queues := [5], roles := { radLaunch := [0, 6] } } } (radDutyBudget 1) 0x00640001
    let r : Nat := 1
    let q : Nat := 5
    (r < 2) ∧
    (roleQ s.man.roles.radLaunch r = some q) ∧
    ((s.q q).lane = []) ∧
    (s.headDeferred q = false) ∧
    ((s.port r).cover = none)) ∧
    (let s : State := State.set (State.setReg (radS 1 { bins := List.replicate 64 9000000 }) (radDutyBudget 1) 0x00640001) pwrStat_WARN 1
    let r : Nat := 1
    (r < 2) ∧
    (s.warned = true)) ∧
    (let r : Nat := 1
    (r < 2)) :=
  by and_intros <;> decide +kernel

/-- The hypotheses of RadioEndpointsJoinAndSpeak are met, clause by clause. -/
theorem witness_RadioEndpointsJoinAndSpeak :
    (let s : State := radS 1 {}
    let r : Nat := 1
    let e : Nat := 77
    let x : RadRx := { radRx0 3 with fcsOk := true, dst := .short 0, src := .ext 77, payload := [1], ackReq := true }
    (r < 2) ∧
    (s.tst.entries = []) ∧
    (s.radHears r = true) ∧
    (s.radFilter r x = true) ∧
    (x.typ = 3) ∧
    (x.cmd = 1) ∧
    (x.secured = false) ∧
    (x.src = .ext e) ∧
    (s.enrolment e = none) ∧
    ((s.port r).ext.length < 16)) ∧
    (let s : State := { setFs (radS 1 {}) [(radCfg_ASSOC_OPEN 1, 1), (eptCfg_CAPACITY, 8)] with live := { tables := [(tabEnrol, [(77, nums (be 8 77 ++ be 120 0))])] } }
    let r : Nat := 1
    let e : Nat := 77
    let k : Nat := 0
    let x : RadRx := { radRx0 3 with fcsOk := true, dst := .short 0, src := .ext 77, payload := [1], ackReq := true }
    let u : State := (((s.radAccept 1 x).2.register ((s.enrolment 77).getD []) 4 1 1 0).getD (0, s)).2
    (r < 2) ∧
    (s.tst.entries = []) ∧
    (s.radHears r = true) ∧
    (s.radFilter r x = true) ∧
    (x.typ = 3) ∧
    (x.cmd = 1) ∧
    (x.secured = false) ∧
    (x.src = .ext e) ∧
    ((s.radAccept r x).2.assocCheck r e = 0) ∧
    (s.radByEui r e = none) ∧
    ((s.radAccept r x).2.register ((s.enrolment e).getD []) (3 + r) (s.freeAddr (3 + r)) 1 0 = some (k, u))) ∧
    (let s : State := State.setNode (radS 1 { nodes := [(6, some { provisional := true })], ext := [(77, 6, 0)] }) 4 6 (some { slot := 3, eui := 77 })
    let r : Nat := 1
    let a : Nat := 6
    let n : RNode := { provisional := true }
    (r < 2) ∧
    (s.rnode r a = some n) ∧
    (n.provisional = true)) ∧
    (let s : State := State.setNode (radS 1 {}) 4 6 (some { slot := 3, eui := 77, polled := 4 })
    let r : Nat := 1
    let a : Nat := 6
    let n : Node := { slot := 3, eui := 77, polled := 4 }
    (r < 2) ∧
    (s.warned = false) ∧
    (s.node (3 + r) a = some n)) ∧
    (let s : State := State.setNode (radS 1 {}) 4 6 (some { slot := 3, eui := 77, polled := 4 })
    let r : Nat := 1
    let a : Nat := 6
    let n : Node := { slot := 3, eui := 77, polled := 4 }
    (r < 2) ∧
    (s.warned = false) ∧
    (s.node (3 + r) a = some n)) ∧
    (let s : State := State.setCell (radS 1 {}) 4 { xch := [{ kind := 4, addr := 6, fseq := 9, cseq := 6, job := some { addr := 6 } }] }
    let r : Nat := 1
    let a : Nat := 6
    let body : List Byte := be 4 6 ++ be 1 5
    let x : Exchange := { kind := 4, addr := 6, fseq := 9, cseq := 6, job := some { addr := 6 } }
    (r < 2) ∧
    ((s.cell (3 + r)).exchangeOf a = some x) ∧
    (x.job.isSome = true) ∧
    (x.cseq = beAt body 0 4) ∧
    (4 ≤ beAt body 4 1) ∧
    (beAt body 4 1 ≤ 6)) ∧
    (let s : State := State.setNode (radS 1 { nodes := [(6, some { parent := 2, provisional := true, answered := true })] }) 4 6 (some { slot := 3, eui := 77, parent := 2 })
    let r : Nat := 1
    let a : Nat := 2
    let k : Nat := 6
    let body : List Byte := be 8 77 ++ be 2 0x0100 ++ be 24 1
    let n : Node := { slot := 3, eui := 77, parent := 2 }
    let x : RNode := { parent := 2, provisional := true, answered := true }
    (r < 2) ∧
    (s.warned = false) ∧
    (s.radByEui r (beAt body 0 8) = some (k, n)) ∧
    (s.rnode r k = some x) ∧
    (x.parent = a) ∧
    ((x.provisional && !x.answered) = false)) :=
  by and_intros <;> decide +kernel

/-- The hypotheses of CoversAndPendingTable are met, clause by clause. -/
theorem witness_CoversAndPendingTable :
    (let s : State := coverS
    let r : Nat := 1
    let a : Nat := 6
    let q : Nat := 5
    let e : Nat := 0
    let it : Item := { data := [{ val := 0 }, { val := 0x0006000000000008 }, { val := 0 }] }
    let n : RNode := { sleepy := some { wake := 62500, poll := 0, drift := 20 } }
    let m : Sleepy := { wake := 62500, poll := 0, drift := 20 }
    (r < 2) ∧
    (s.warned = false) ∧
    (s.rnode r a = some n) ∧
    (roleQ s.man.roles.radIndirect r = some q) ∧
    (n.sleepy = some m) ∧
    (n.parent = 0) ∧
    ((s.port r).cover = none) ∧
    (m.tries < 3) ∧
    (s.coverItem q a m = some it) ∧
    (smGet none s.txn.granted (8 + r) = none) ∧
    (s.txnCan (4 + r) = true) ∧
    (s.txnFree = some e)) ∧
    (let s : State := radS 1 { nodes := [(6, some { sleepy := some {} })], cover := some { addr := 6, start := 0, len := 1, whole := false, txn := 0 } }
    let r : Nat := 1
    let c : Cover := { addr := 6, start := 0, len := 1, whole := false, txn := 0 }
    let n : RNode := { sleepy := some {} }
    let m : Sleepy := {}
    (r < 2) ∧
    ((s.port r).cover = some c) ∧
    (s.rnode r c.addr = some n) ∧
    (n.sleepy = some m)) ∧
    (let s : State := radS 1 { nodes := [(6, some { sleepy := some { tries := 2 } })], cover := some { addr := 6, start := 0, len := 1, whole := false, txn := 0 } }
    let r : Nat := 1
    let c : Cover := { addr := 6, start := 0, len := 1, whole := false, txn := 0 }
    let n : RNode := { sleepy := some { tries := 2 } }
    let m : Sleepy := { tries := 2 }
    (r < 2) ∧
    ((s.port r).cover = some c) ∧
    (s.rnode r c.addr = some n) ∧
    (n.sleepy = some m)) ∧
    (let s : State := radS 1 { force := [3] }
    let i : Iface := .core 0
    let r : Nat := 1
    let a : Nat := 0x800
    (r < 2) ∧
    (1 ≤ a) ∧
    (a ≤ 0x800) ∧
    (s.mayAccess i (radPendCtrl r) true = true)) ∧
    (let s : State := radS 1 { force := [3] }
    let i : Iface := .core 0
    let r : Nat := 1
    let a : Nat := 3
    (r < 2) ∧
    (1 ≤ a) ∧
    (a ≤ 0x800) ∧
    (s.mayAccess i (radPendCtrl r) true = true)) ∧
    (let s : State := radS 1 { force := [3] }
    let i : Iface := .core 0
    let r : Nat := 1
    let a : Nat := 3
    (r < 2) ∧
    (1 ≤ a) ∧
    (a ≤ 0x800) ∧
    (s.mayAccess i (radPendCtrl r) true = true)) ∧
    (let s : State := w0 [(radErr_SECFAIL 1, 3), (radErr_FILTERED 1, 6)]
    let i : Iface := .core 0
    let r : Nat := 1
    (r < 2) ∧
    (s.mayAccess i (radErr r) true = true)) :=
  by and_intros <;> decide +kernel

/-- The hypotheses of EthernetPortsTakeFrames are met, clause by clause. -/
theorem witness_EthernetPortsTakeFrames :
    (let s : State := ethS 1
    let x : Nat := 1
    let q : Nat := 5
    let b : List Byte := be 14 0x0800 ++ be 6 9
    (x < 2) ∧
    (s.warned = false) ∧
    (s.flag (ethCfg_EN x) = true) ∧
    (s.tst.entries = []) ∧
    (b.length ≤ 1518) ∧
    (twoTags b = false) ∧
    (isFragment b = false) ∧
    (ptpHdr b = none) ∧
    (s.gwyPayload b = none) ∧
    (roleQ s.man.roles.ethRx x = some q) ∧
    (s.qUsed q = true) ∧
    ((s.q q).waiters = []) ∧
    ((mkItem 0 (s.ethRx x) ((s.ethRx x).bytes ++ be 2 b.length ++ be 2 0 ++ b)).words ≤ s.qFree q)) ∧
    (let s : State := ethS 1
    let x : Nat := 1
    let fcsOk : Bool := false
    let b : List Byte := be 20 9
    (x < 2) ∧
    (s.warned = false) ∧
    (s.flag (ethCfg_EN x) = true) ∧
    (s.tst.entries = []) ∧
    (fcsOk = false ∨ 1518 < b.length)) ∧
    (let s : State := ethS 0
    let x : Nat := 0
    let fcsOk : Bool := true
    let b : List Byte := List.replicate 1519 0
    (x < 2) ∧
    (s.warned = false) ∧
    (s.flag (ethCfg_EN x) = true) ∧
    (s.tst.entries = []) ∧
    (fcsOk = false ∨ 1518 < b.length)) ∧
    (let s : State := w0 [(ethStat_LINK 1, 1), (ethCfg_EN 1, 1)]
    let x : Nat := 1
    let up : Bool := false
    (x < 2) ∧
    (s.flag (ethCfg_EN x) = true) ∧
    (s.flag (ethStat_LINK x) ≠ up)) ∧
    (let s : State := w0 [(ethCfg_EN 0, 1)]
    let x : Nat := 0
    let up : Bool := true
    (x < 2) ∧
    (s.flag (ethCfg_EN x) = true) ∧
    (s.flag (ethStat_LINK x) ≠ up)) ∧
    (let s : State := State.reset
    let x : Nat := 1
    (s.flag (ethCfg_EN x) = false)) ∧
    (let s : State := State.setQ State.reset 5 { lane := [{ item := { data := [{ val := 5 }] }, hold := true }] }
    let q : Nat := 5
    let l : LaneItem := { item := { data := [{ val := 5 }] }, hold := true }
    let k : Bool := false
    (((s.q q).lane.find? fun l => l.hold) = some l) ∧
    (s.gwyCheck (l.item.bytes.take (44 + beAt l.item.bytes 24 2)) (s.class0Key (l.item.bytes.take (44 + beAt l.item.bytes 24 2))) false = some k)) ∧
    (let s : State := { State.reset with eth := { jobs := [(1, some {})] } }
    let x : Nat := 1
    let j : EthJob := {}
    (smGet none s.eth.jobs x = some j)) ∧
    (let s : State := w0 [(ethCnt_FCS 1, 3), (ethCnt_SIZE 1, 6)]
    let i : Iface := .core 0
    let x : Nat := 1
    (x < 2) ∧
    (s.mayAccess i (ethCnt x) true = true)) :=
  by and_intros <;> decide +kernel

/-- The hypotheses of PtpServoFollowsItsMaster are met, clause by clause. -/
theorem witness_PtpServoFollowsItsMaster :
    (let s : State := { ptpS [(ptpStat_STATE_B, 9), (ptpServo_STEP_US, 5)] with clk := { ptp := 1000005001 }, eth := { ptpOn := true, master := 7 } }
    let x : Nat := 1
    let b : List Byte := be 20 0 ++ be 10 7 ++ be 4 0 ++ be 6 1 ++ be 4 0
    let offset : Int := 5001
    (x < 2) ∧
    (s.ptpRuns = true) ∧
    (s.ptpState x = 9) ∧
    (ptpType b 0 = 0) ∧
    (beAt b 4 1 = s.ptpDomain) ∧
    (s.fromMaster b 0 = true) ∧
    (ptpTwoStep b 0 = false) ∧
    (offset = s.offsetOf x (syncSpan (ptpTimeAt b 34) (s.ethRx x).ptp (toSigned 64 (beAt b 8 8))))) ∧
    (let s : State := { ptpS [(ptpStat_STATE_A, 9), (ptpServo_STEP_US, 5)] with clk := { ptp := 1000005000 }, eth := { ptpOn := true, master := 7 } }
    let x : Nat := 0
    let b : List Byte := be 20 0 ++ be 10 7 ++ be 4 0 ++ be 6 1 ++ be 4 10000
    let offset : Int := -5000
    (x < 2) ∧
    (s.ptpRuns = true) ∧
    (s.ptpState x = 9) ∧
    (ptpType b 0 = 0) ∧
    (beAt b 4 1 = s.ptpDomain) ∧
    (s.fromMaster b 0 = true) ∧
    (ptpTwoStep b 0 = false) ∧
    (offset = s.offsetOf x (syncSpan (ptpTimeAt b 34) (s.ethRx x).ptp (toSigned 64 (beAt b 8 8))))) ∧
    (let s : State := { ptpS [(ptpStat_STATE_A, 9)] with eth := { ptpOn := true, master := 7 } }
    let x : Nat := 0
    let b : List Byte := be 6 0 ++ be 2 0x0200 ++ be 12 0 ++ be 10 7 ++ be 4 9 ++ be 10 0
    (x < 2) ∧
    (s.ptpRuns = true) ∧
    (s.ptpState x = 9) ∧
    (ptpType b 0 = 0) ∧
    (beAt b 4 1 = s.ptpDomain) ∧
    (s.fromMaster b 0 = true) ∧
    (ptpTwoStep b 0 = true)) ∧
    (let s : State := ptpS [(ptpStat_LOCKED, 1)]
    (s.eth.ptpOn = true)) ∧
    (let s : State := ptpS []
    let x : Nat := 0
    let b : List Byte := be 7 0 ++ be 1 4 ++ be 12 0 ++ be 10 77 ++ be 14 0 ++ be 2 37 ++ be 1 0 ++ be 1 1 ++ be 15 0
    (x < 2) ∧
    (s.ptpRuns = true) ∧
    (s.ptpPort x = true) ∧
    (beAt b 4 1 = s.ptpDomain) ∧
    (announceKey b < s.ownKey) ∧
    (s.eth.master = 0 ∨ announceKey b < s.eth.master / 2 ^ 80) ∧
    (s.ptpState (1 - x) ≠ 9)) ∧
    (let s : State := { ethS 1 with eth := { ptpOn := true, cfg := 0x80 } }
    let x : Nat := 1
    let q : Nat := 6
    let m : List Byte := be 54 2
    (x < 2) ∧
    (s.eth.ptpOn = true) ∧
    (s.ptpP2p = true) ∧
    (s.warned = false) ∧
    (beAt m 4 1 = s.ptpDomain) ∧
    (s.tst.entries = []) ∧
    (roleQ s.man.roles.ethLaunch x = some q) ∧
    (s.qUsed q = true) ∧
    ((s.q q).waiters = []) ∧
    (100 ≤ s.qFree q)) ∧
    (let s : State := ptpS []
    (s.eth.ptpOn = true)) ∧
    (let s : State := { ptpS [(ptpStat_STATE_A, 6)] with eth := { ptpOn := true, seqs := [(0, 65535)] } }
    let x : Nat := 0
    let typ : Nat := 0
    (x < 2) ∧
    (typ < 16) ∧
    (s.eth.ptpOn = true) ∧
    (s.ptpPort x = true) ∧
    (s.ptpSends x typ = true)) ∧
    (let s : State := { ptpS [(ptpStat_STATE_B, 9), (ptpStat_LOCKED, 1)] with eth := { ptpOn := true, cfg := 0x20, master := 7 } }
    let x : Nat := 1
    (x < 2) ∧
    (s.eth.ptpOn = true) ∧
    (s.ptpPort x = true) ∧
    (s.ptpState x = 9)) ∧
    (let s : State := { ptpS [(ptpStat_STATE_A, 4)] with eth := { ptpOn := true } }
    let x : Nat := 0
    (x < 2) ∧
    (s.eth.ptpOn = true) ∧
    (s.ptpPort x = true) ∧
    (s.ptpState x = 4)) :=
  by and_intros <;> decide +kernel

/-- The hypotheses of GangwayChipsAttach are met, clause by clause. -/
theorem witness_GangwayChipsAttach :
    (let s : State := { State.reset with gwy := { attach := 1, chip := 3 } }
    (s.gwy.attach = 1)) ∧
    (let s : State := { State.reset with gwy := { attach := 1, chip := 3 } }
    (s.gwy.attach = 1)) ∧
    (let s : State := { State.reset with gwy := { attach := 2, chip := 3 } }
    (s.gwy.attach = 2)) ∧
    (let s : State := State.setPeer { State.reset with clk := { mono := 31000000000 } } 3 { up := true, heard := 1000000000 }
    let p : Nat := 3
    ((s.peer p).up = true) ∧
    ((s.peer p).heard + 30 * nsPerSec ≤ s.clk.mono)) ∧
    (let s : State := State.setPeer State.reset 1 { up := true, out := [{ seq := 7, typ := 5, timer := 3200 }] }
    let p : Nat := 1
    let seq : Nat := 7
    let m : OutMsg := { seq := 7, typ := 5, timer := 3200 }
    (((s.peer p).out.find? fun m => m.seq == seq && !m.mapped) = some m) ∧
    (s.warned = false) ∧
    ((s.peer p).up = true)) ∧
    (let s : State := { w0 [(whfQCfg_SIZE 5, 1)] with gwy := { attach := 1 }, man := { State.reset.man with queues := [5], roles := { gwyLaunch := [6] } } }
    let q : Nat := 5
    (s.gwy.attach = 1) ∧
    (s.gwyQueue = some q) ∧
    (s.qUsed q = true) ∧
    (s.tst.entries = []) ∧
    ((s.q q).waiters = []) ∧
    (32 ≤ s.qFree q)) ∧
    (let s : State := { w0 [(whfQCfg_SIZE 5, 1)] with gwy := { attach := 2 }, man := { State.reset.man with queues := [5], roles := { gwyLaunch := [6] } } }
    let q : Nat := 5
    (s.gwy.attach = 2) ∧
    (s.gwyQueue = some q) ∧
    (s.qUsed q = true) ∧
    (s.tst.entries = []) ∧
    ((s.q q).waiters = []) ∧
    (32 ≤ s.qFree q)) :=
  by and_intros <;> decide +kernel

/-- The hypotheses of RecordsAndBatchesAreJudged are met, clause by clause. -/
theorem witness_RecordsAndBatchesAreJudged :
    (let s : State := recS
    let u : State := ((recS.deliver 5).getD ({}, recS)).2
    let q : Nat := 5
    let k : Nat := 0x11
    let it : Item := ((recS.deliver 5).getD ({}, recS)).1
    let o : Option Nat := none
    (s.val.recs = []) ∧
    (s.val.reasm = []) ∧
    (s.val.entries = []) ∧
    (s.get pwrStat_PHASE = 4) ∧
    (s.mergeQueue q = q) ∧
    (s.deliver q = some (it, u)) ∧
    (u.pathOfQueue q = none) ∧
    (u.stageParse (otherRecord it) = (k, o)) ∧
    (k < 0x13 ∨ k = 0x60)) ∧
    (let s : State := State.setRec (State.ctxPut State.reset 3 72 (be 4 9 ++ be 4 0 ++ be 8 5)) 7 (some { bytes := be 10 0 ++ be 4 9 ++ be 6 0 ++ be 44 0, slot := some 3, stage := 1 })
    let n : Nat := 7
    let k : Nat := 3
    let v : VRec := { bytes := be 10 0 ++ be 4 9 ++ be 6 0 ++ be 44 0, slot := some 3, stage := 1 }
    (s.ept.waitOp = none) ∧
    (s.vrec n = some v) ∧
    (v.stage = 1) ∧
    (v.slot = some k) ∧
    (s.flow (s.epFlow k) = .nobody) ∧
    (s.olderWaits n (s.epFlow k) v = false) ∧
    (s.stageMid v k = 0x01)) ∧
    (let s : State := State.setRec (State.ctxPut State.reset 3 72 (be 4 9 ++ be 4 0 ++ be 8 5)) 7 (some { bytes := be 10 0 ++ be 4 10 ++ be 6 0 ++ be 44 9, slot := some 3, stage := 1 })
    let n : Nat := 7
    let k : Nat := 3
    let v : VRec := { bytes := be 10 0 ++ be 4 10 ++ be 6 0 ++ be 44 9, slot := some 3, stage := 1 }
    (s.ept.waitOp = none) ∧
    (s.vrec n = some v) ∧
    (v.stage = 1) ∧
    (v.slot = some k) ∧
    (s.flow (s.epFlow k) = .nobody) ∧
    (s.olderWaits n (s.epFlow k) v = false) ∧
    (s.stageMid v k = 0) ∧
    (s.val.staged + s.val.held.length < 63)) ∧
    (let s : State := State.setGrp { State.reset with val := { group := some 2, members := [4], groupWait := 2, groupAt := 1000 }, clk := { mono := 3000 } } 2 { st := .opened, issuer := 7 }
    let g : Nat := 2
    (s.val.group = some g) ∧
    (s.warned = false) ∧
    (s.val.groupAt + 1000 * s.val.groupWait ≤ s.clk.mono)) ∧
    (let s : State := { State.reset with val := { reasm := [{ cell := 1, addr := 6 }] } }
    let c : Nat := 1
    let a : Nat := 6
    let x : Reasm := { cell := 1, addr := 6 }
    (s.reasmOf c a = some x)) ∧
    (let s : State := { State.reset with val := { batch := { count := 1, entries := be 80 1 } } }
    (s.val.batch.count ≠ 0)) ∧
    (let s : State := { w0 [(keyIdStat_READY, 1)] with pwr := { State.reset.pwr with mounted := true }, val := { closed := [{ count := 1, entries := be 80 1 }], bseq := 4 }, live := { tables := [(tabClosed, [(0, [1])])] }, img := { tables := [(tabResv, [(0, [3])])] } }
    let b : Batch := { count := 1, entries := be 80 1 }
    let rest : List Batch := []
    let j : Nat := 0
    let r : List Nat := [1]
    let more : SMap (List Nat) := []
    (s.val.closed = b :: rest) ∧
    (smGet [] s.live.tables tabClosed = (j, r) :: more) ∧
    (s.warned = false) ∧
    (s.idReady = true) ∧
    (s.noIndex = false) ∧
    (s.maySign s.keys.next = true) ∧
    (j ≤ s.cmt.durJseq)) ∧
    (let s : State := State.ctxPut State.reset 3 0 (be 8 77 ++ be 4 3 ++ be 1 1 ++ be 59 0 ++ be 4 9 ++ be 4 0 ++ be 8 (2 ^ 40 + 5))
    let i : Iface := .core 0
    let v : Word := 3
    let k : Nat := 3
    (s.mayAccess i valDedupSel true = true) ∧
    (s.named (wordBits v valDedupSel_INDEX) = some k)) ∧
    (let s : State := { State.reset with val := { vcnt := [(1, 5)] } }
    let i : Iface := .core 0
    (s.mayAccess i valVcntSel true = true)) ∧
    (let s : State := { State.reset with val := { batch := { count := 2, entries := be 80 1 } } }
    let i : Iface := .core 0
    let v : Word := BitVec.ofNat 32 (2 * 2 ^ valBatchCfg_MAX_ENTRIES.lo)
    (s.mayAccess i valBatchCfg true = true) ∧
    (s.val.batch.count ≠ 0) ∧
    (wordBits v valBatchCfg_MAX_ENTRIES ≠ 0) ∧
    (wordBits v valBatchCfg_MAX_ENTRIES ≤ 4096) ∧
    (wordBits v valBatchCfg_MAX_ENTRIES ≤ s.val.batch.count)) :=
  by and_intros <;> decide +kernel

/-- The hypotheses of TableOperationsChangeTheTable are met, clause by clause. -/
theorem witness_TableOperationsChangeTheTable :
    (let s : State := enrolS
    let i : Iface := .core 0
    let kek : List Byte := keyA
    (s.mayAccess i eptCmd true = true) ∧
    (s.flag eptCmdStat_BUSY = false) ∧
    (euiOk (beAt s.staged 0 8) = true) ∧
    (beAt s.staged 50 1 < s.get trfCfg_GROUPS) ∧
    (s.enrolment (beAt s.staged 0 8) = none) ∧
    ((smGet [] s.live.tables tabEnrol).length < s.storeSize) ∧
    (s.keyFor (s.get eptKek_SLOT) 1 = some kek) ∧
    (beAt s.staged 0 8 ≠ s.fuses.eui)) ∧
    (let s : State := eptS 1
    let i : Iface := .core 0
    let n : Nat := 3
    let k : Nat := 3
    (s.mayAccess i eptCmd true = true) ∧
    (s.flag eptCmdStat_BUSY = false) ∧
    (n < 2 ^ 20) ∧
    (s.named n = some k) ∧
    (s.epState k ≠ 1 ∨ s.flow (s.epFlow k) = .nobody)) ∧
    (let s : State := eptS 1
    let i : Iface := .core 0
    let n : Nat := 3
    let k : Nat := 3
    (s.mayAccess i eptCmd true = true) ∧
    (s.flag eptCmdStat_BUSY = false) ∧
    (n < 2 ^ 20) ∧
    (s.named n = some k) ∧
    (s.epState k ≠ 1 ∨ s.flow (s.epFlow k) = .nobody)) ∧
    (let s : State := eptS 1
    let i : Iface := .core 0
    let n : Nat := 3
    let k : Nat := 3
    (s.mayAccess i eptCmd true = true) ∧
    (s.flag eptCmdStat_BUSY = false) ∧
    (n < 2 ^ 20) ∧
    (s.named n = some k) ∧
    (s.epState k = 1) ∧
    (s.flow (s.epFlow k) = .nobody)) ∧
    (let s : State := { enrolS with live := (eptS 1).live }
    let i : Iface := .core 0
    let n : Nat := 3
    let k : Nat := 3
    let kek : List Byte := keyA
    (s.mayAccess i eptCmd true = true) ∧
    (s.flag eptCmdStat_BUSY = false) ∧
    (n < 2 ^ 20) ∧
    (s.named n = some k) ∧
    (s.epState k ≠ 1 ∨ s.flow (s.epFlow k) = .nobody) ∧
    (beAt s.staged 0 8 = s.epEui k) ∧
    (euiOk (s.epEui k) = true) ∧
    (beAt s.staged 50 1 < s.get trfCfg_GROUPS) ∧
    (s.keyFor (s.get eptKek_SLOT) 1 = some kek)) ∧
    (let s : State := State.set enrolS eptKek_NEW_SLOT 0
    let i : Iface := .core 0
    let kek : List Byte := keyA
    (s.mayAccess i eptCmd true = true) ∧
    (s.flag eptCmdStat_BUSY = false) ∧
    (s.keyFor (s.get eptKek_NEW_SLOT) 1 = some kek)) ∧
    (let s : State := { w0 [(eptCmdStat_BUSY, 1)] with ept := { rewrap := some [4] } }
    let n : Nat := 4
    (s.ept.rewrap = some [n]) ∧
    (n ≤ eptKek_SLOT.top)) ∧
    (let s : State := eptS 1
    let i : Iface := .core 0
    let n : Nat := 3
    (s.mayAccess i eptCmd true = true) ∧
    (s.flag eptCmdStat_BUSY = false) ∧
    (n < 2 ^ 20) ∧
    (s.slotOk n = true) ∧
    (s.tagHeld n = false)) ∧
    (let s : State := { eptS 0 with live := { (eptS 0).live with tables := [(tabEnrol, [(77, [1, 2])])] } }
    let i : Iface := .core 0
    let n : Nat := 3
    let r : List Byte := [1, 2]
    (s.mayAccess i eptCmd true = true) ∧
    (s.flag eptCmdStat_BUSY = false) ∧
    (n < 2 ^ 20) ∧
    (s.named n = none) ∧
    (s.slotOk n = true) ∧
    (s.epState n = 0) ∧
    (s.enrolment (s.epEui n) = some r)) ∧
    (let s : State := { eptS 3 with live := { (eptS 3).live with tables := [(tabEnrol, [(77, [1, 2])])] } }
    let i : Iface := .core 0
    let n : Nat := 3
    let k : Nat := 3
    let r : List Byte := [1, 2]
    (s.mayAccess i eptCmd true = true) ∧
    (s.flag eptCmdStat_BUSY = false) ∧
    (n < 2 ^ 20) ∧
    (s.named n = some k) ∧
    (s.slotOk k = true) ∧
    (s.epState k = 3) ∧
    (s.enrolment (s.epEui k) = some r)) ∧
    (let s : State := { eptS 3 with clk := { ptp := 10000 * 86400 * 1000000000 } }
    let k : Nat := 3
    (s.epState k = 3) ∧
    (s.retainOver k = true)) ∧
    (let s : State := { eptS 3 with man := { State.reset.man with retention := 5 } }
    let k : Nat := 3
    (s.retainOver k = false)) ∧
    (let s : State := { w0 [(pwrStat_PHASE, 3)] with pwr := { replayed := true } }
    (s.pwr.replayed = true) ∧
    (s.get pwrStat_PHASE = 3) ∧
    (s.warned = false)) :=
  by and_intros <;> decide +kernel

/-- The hypotheses of BalanceTakesRecordsAndAnswers are met, clause by clause. -/
theorem witness_BalanceTakesRecordsAndAnswers :
    (let s : State := balS
    let u : State := ((balS.deliver 5).getD ({}, balS)).2
    let q : Nat := 5
    let n : Nat := 96
    let bt : Nat := 1800
    let it : Item := ((balS.deliver 5).getD ({}, balS)).1
    (s.man.roles.balanceIn = q + 1) ∧
    (s.deliver q = some (it, u)) ∧
    (u.flag balCfg_EN = true) ∧
    (it.poisoned = false) ∧
    (beAt (it.bytes.drop 32) 0 1 = 0x12) ∧
    (beAt it.bytes 8 1 = 0 ∨ beAt it.bytes 8 1 = 3) ∧
    (snapFor u.plc.snaps (beAt (it.bytes.drop 32) 14 6) = some (n, bt)) ∧
    ((u.brec (beAt it.bytes 0 4)).qNew < bt / 900) ∧
    (u.balLate (bt / 900) it.order = false)) ∧
    (let s : State := { w0 [(balCfg_EN, 1)] with plc := { snaps := [(96, 1800)] }, man := { State.reset.man with nodes := [(0, some { refKind := 1, k0 := 5 })] }, xing := { num := 352 } }
    let n : Nat := 96
    let p : Nat × Nat := (96, 1800)
    (s.flag balCfg_EN = true) ∧
    (s.warned = false) ∧
    (s.bal.run = none) ∧
    (s.bal.due = []) ∧
    (s.evalCross n ≤ s.xing.num) ∧
    (s.evalTaken n = false) ∧
    ((s.plc.snaps.find? fun p => p.1 == n) = some p)) ∧
    (let s : State := { w0 [(balCfg_EN, 1)] with plc := { snaps := [(96, 1800)] }, bal := { run := some { cross := 64 } }, xing := { num := 352 } }
    let n : Nat := 96
    (s.flag balCfg_EN = true) ∧
    (s.bal.run.isSome = true ∨ s.warned = true) ∧
    (s.evalCross n ≤ s.xing.num) ∧
    (s.evalTaken n = false)) ∧
    (let s : State := { State.reset with bal := { nodes := [(3, { residual := -5 })] } }
    let i : Iface := .core 0
    let v : Word := 3
    (s.mayAccess i balNodeSel true = true) ∧
    ((s.bnode (wordBits v balNodeSel_NODE)).rflags < 256)) ∧
    (let s : State := { eptS 1 with bal := { recs := [(3, { ovr := 7, slope := -9 })] } }
    let i : Iface := .core 0
    let v : Word := 3
    let k : Nat := 3
    (s.mayAccess i balEpSel true = true) ∧
    (s.slotOfIndex (wordBits v balEpSel_INDEX) = some k)) ∧
    (let s : State := State.set (eptS 1) balEpSel_INDEX 3
    let i : Iface := .core 0
    let k : Nat := 3
    (s.mayAccess i balEpNode true = true) ∧
    (s.balSel = some k)) ∧
    (let s : State := State.set (eptS 1) balEpSel_INDEX 3
    let i : Iface := .core 0
    let k : Nat := 3
    (s.mayAccess i balEpNode true = true) ∧
    (s.balSel = some k)) :=
  by and_intros <;> decide +kernel

/-- The hypotheses of CalendarsGiveTheRates are met, clause by clause. -/
theorem witness_CalendarsGiveTheRates :
    (let s : State := calS
    (s.trust ≠ 3)) ∧
    (let s : State := calS
    let i : Iface := .core 0
    let v : Word := 0
    let c : List Byte := calA
    (s.mayAccess i trfGroupSel true = true) ∧
    (wordBits v trfGroupSel_CAL = 0) ∧
    (s.calActive (wordBits v trfGroupSel_GROUP) = some c)) ∧
    (let s : State := calS
    let i : Iface := .core 0
    let c : List Byte := calA
    (s.mayAccess i trfQryQ true = true) ∧
    (s.get trfQrySel_CAL = 0) ∧
    (s.calActive (s.get trfQrySel_GROUP) = some c) ∧
    (s.trust ≠ 3) ∧
    (calCheck c (s.get trfQrySel_GROUP) = 0)) ∧
    (let s : State := State.reset
    let i : Iface := .core 0
    (s.mayAccess i trfQryQ true = true) ∧
    (s.get trfQrySel_CAL = 0) ∧
    (s.calActive (s.get trfQrySel_GROUP) = none)) :=
  by and_intros <;> decide +kernel

/-- The hypotheses of BillingOpensStagesAndBooks are met, clause by clause. -/
theorem witness_BillingOpensStagesAndBooks :
    (let s : State := { State.set (w0 [(bilQ_Q, 1)]) trfClockTrust_STATE 1 with bil := { isOpen := true }, xing := { num := 46 }, plc := { snapN := 96, snapB := 1800 } }
    (s.bil.isOpen = true) ∧
    (s.bil.staged = none) ∧
    (s.trust ≠ 3) ∧
    (s.flag bilStat_HOLD = false) ∧
    (s.xing.num + 50 = s.plc.snapN) ∧
    (s.plc.snapB = (s.get bilQ_Q + 1) * 900) ∧
    (s.warned = false) ∧
    ([60, 61, 62, 63].any (fun g => !(s.grp g).held) = true)) ∧
    (let s : State := bilS
    let u : State := ((bilS.deliver 5).getD ({}, bilS)).2
    let q : Nat := 5
    let k : Nat := 3
    let it : Item := ((bilS.deliver 5).getD ({}, bilS)).1
    let b0 : BSet := { eui := 77, index := 3 }
    (s.man.roles.sealedIn = q + 1) ∧
    (s.deliver q = some (it, u)) ∧
    (it.poisoned = false) ∧
    (k = beAt it.bytes 0 4) ∧
    (beAt it.bytes 8 1 = 0) ∧
    (beAt (it.bytes.drop 32) 0 1 % 16 ≠ 8) ∧
    (beAt (it.bytes.drop 32) 2 8 ≠ s.fuses.eui) ∧
    (s.epState k = 1) ∧
    (s.epEui k = beAt (it.bytes.drop 32) 2 8) ∧
    (s.bset (k + 1) = some b0) ∧
    (b0.cursor = false) ∧
    (s.acctBusy (s.ctxAt k 116 2) = false) ∧
    (k < s.get eptCfg_CAPACITY) ∧
    (s.cmt.groups = []) ∧
    (s.warned = false) ∧
    (s.sealedOpen = 0)) ∧
    (let s : State := { State.set State.reset trfClockTrust_STATE 1 with clk := { ptp := 9000 * nsPerSec }, xing := { num := 46 } }
    (s.bil.isOpen = false) ∧
    (s.bil.staged = none) ∧
    (s.warned = false) ∧
    (s.trust ≠ 3) ∧
    (s.flag bilStat_HOLD = false) ∧
    (s.utcSec / 900 ≤ bilQ_Q.top) ∧
    (s.sealedOpen = 0) ∧
    (s.cmt.groups = [])) ∧
    (let s : State := w0 [(bilStat_HOLD, 1)]
    (s.flag bilStat_HOLD = true) ∧
    (s.hwTai ≤ s.ptpSec)) ∧
    (let s : State := sessS
    let k : Nat := 0
    let r : List Nat := [3, 3, 0, 77] ++ nums (be 120 0)
    ((sessGroup s k r).2 = true) ∧
    (((smGet [] s.live.tables tabSess).find? fun p => s.sessReady (beAt (Sess.ofRow p.2).bytes 44 6) (beAt (Sess.ofRow p.2).bytes 50 6)) =
      some (k, r))) ∧
    (let s : State := { State.set sessS (whfQCfg_SIZE 5) 3 with man := { State.reset.man with queues := [5], roles := { sealedOut := 6 } } }
    let k : Nat := 0
    let r : List Nat := [3, 3, 0, 77] ++ nums (be 120 0)
    ((sessGroup s k r).2 = true) ∧
    (((smGet [] s.live.tables tabSess).find? fun p => s.sessReady (beAt (Sess.ofRow p.2).bytes 44 6) (beAt (Sess.ofRow p.2).bytes 50 6)) =
      some (k, r))) ∧
    (let s : State := { eptS 1 with live := { (eptS 1).live with tables := [(tabSet, [(4, ({ eui := 77, imp := [5, 6, 7, 0, 0, 0, 0, 0, 0, 0, 0, 0, 0, 0, 0, 0] } : BSet).row)])] } }
    let i : Iface := .core 0
    let v : Word := BitVec.ofNat 32 (3 * 2 ^ bilSel_SLOT.lo + 2 * 2 ^ bilSel_RATE.lo)
    let b : BSet := { eui := 77, imp := [5, 6, 7, 0, 0, 0, 0, 0, 0, 0, 0, 0, 0, 0, 0, 0] }
    (s.mayAccess i bilSel true = true) ∧
    (wordBits v bilSel_SITE = 0) ∧
    (wordBits v bilSel_PERIOD = 0) ∧
    (wordBits v bilSel_RATE < 16) ∧
    (s.bset (wordBits v bilSel_SLOT + 1) = some b) ∧
    (b.imp.length = 16) ∧
    (b.exp.length = 16)) ∧
    (let s : State := State.set { eptS 1 with live := { (eptS 1).live with tables := [(tabSet, [(4, ({ eui := 77 } : BSet).row)]), (tabLp, [(4 * 2 ^ 40 + 9, [9, 1, 2, 3, 4, 5])])] } } bilLpSel_SLOT 3
    let i : Iface := .core 0
    let v : Word := 9
    let b : BSet := { eui := 77 }
    (s.mayAccess i bilLpQ true = true) ∧
    (s.get bilLpSel_SITE = 0) ∧
    (s.bset (s.get bilLpSel_SLOT + 1) = some b) ∧
    ((s.live.row tabLp ((s.get bilLpSel_SLOT + 1) * 2 ^ 40 + v.toNat % s.lpRing)).getD 0 0 = v.toNat) ∧
    (s.live.row tabLp ((s.get bilLpSel_SLOT + 1) * 2 ^ 40 + v.toNat % s.lpRing) ≠ [])) :=
  by and_intros <;> decide +kernel

/-- The hypotheses of CommitGroupsOpenStageAndSeal are met, clause by clause. -/
theorem witness_CommitGroupsOpenStageAndSeal :
    (let s : State := State.setGrp State.reset 0 { st := .opened }
    let i : Iface := .core 2
    let g : Nat := 1
    (s.mayAccess i cmtAlloc false = true) ∧
    (s.warned = false) ∧
    (((List.range 60).find? fun g => !(s.grp g).held) = some g)) ∧
    (let s : State := State.setWords (State.setGrp State.reset 5 { st := .opened, issuer := 0x3F }) (cmtAct 15 0) [0x09000008, 0, 4]
    let i : Iface := .sealCore
    let w : Nat := 15
    let g : Nat := 5
    let a : Action := { kind := 9, len := 8, target := 4, data := be 16 0 }
    (w < 16) ∧
    (g < 64) ∧
    (s.mayAccess i (cmtPush w) true = true) ∧
    (a = Action.ofBytes (s.windowBytes i w)) ∧
    (s.warned = false) ∧
    ((s.grp g).st = .opened) ∧
    ((s.grp g).issuer = windowIssuer i (cmtPush w)) ∧
    (s.actionValid g (windowIssuer i (cmtPush w)) a = true) ∧
    ((s.grp g).actions.length < 256) ∧
    (s.placesUsed false < 7168) ∧
    (s.conflict g a = false) ∧
    (s.actionCredit a = true)) ∧
    (let s : State := State.setGrp State.reset 5 { st := .opened, issuer := (Iface.core 0).issuer, actions := [{ kind := 9, len := 8, target := 4, data := be 8 1 }] }
    let i : Iface := .core 0
    let g : Nat := 5
    (g < 64) ∧
    (s.mayAccess i cmtCtrl true = true) ∧
    (s.warned = false) ∧
    ((s.grp g).st = .opened) ∧
    ((s.grp g).issuer = i.issuer) ∧
    ((s.grp g).actions.any Action.late = false) ∧
    (s.val.group = none)) ∧
    (let s : State := { State.setGrp State.reset 5 { st := .visible, jseq := 3 } with cmt := { groups := [(5, { st := .visible, jseq := 3 })], next := 4, journal := [{ typ := 1, group := 5, jseq := 3 }] } }
    let g : Nat := 5
    ((s.grp g).st = .visible) ∧
    ((s.grp g).jseq < s.cmt.next) ∧
    (s.journalWaits = false)) ∧
    (let s : State := State.setGrp State.reset 5 { st := .visible, jseq := 3 }
    let g : Nat := 5
    ((s.grp g).st = .visible)) ∧
    (let s : State := { State.reset with cmt := { groups := [(61, { st := .opened, intent := 2 })], next := 4, journal := [{ typ := 2, group := 61, jseq := 2 }] } }
    let g : Nat := 61
    ((s.grp g).st = .opened) ∧
    ((s.grp g).intent ≠ 0)) ∧
    (let s : State := { State.reset with cmt := { groups := [(61, { st := .prestaged, intent := 2 })], next := 4 } }
    let g : Nat := 61
    ((s.grp g).st = .prestaged)) ∧
    (let s : State := { State.reset with lgb := { clearWaits := true, next := 9 } }
    (s.warned = false) ∧
    (s.lgb.clearWaits = true) ∧
    (s.cmt.groups = []) ∧
    (0 < s.lgbRoom) ∧
    (s.sealedRoom 0 = true) ∧
    (s.man.roles.sealedIn = 0) ∧
    (s.man.roles.tariffIn = 0) ∧
    (s.man.roles.tokenIn = 0) ∧
    (s.bil.catchup = none) ∧
    (s.bil.staged = none) ∧
    (s.val.recs = []) ∧
    (s.val.entries = [])) ∧
    (let s : State := State.set (State.setGrp State.reset 5 { st := .durable, issuer := 9 }) cmtGsel_GROUP 5
    let i : Iface := .core 0
    (s.mayAccess i cmtGstat false = true)) ∧
    (let s : State := { State.reset with cmt := { durJseq := 2 ^ 33 + 5 } }
    let i : Iface := .core 0
    (s.mayAccess i cmtJseqHi false = true)) ∧
    (let s : State := State.set { State.reset with live := { counters := [(7, -2)] } } cmtCntSel_COUNTER 7
    let i : Iface := .core 0
    (s.mayAccess i cmtCntHi false = true)) ∧
    (let s : State := { State.reset with pwr := { mounted := true } }
    (s.pwr.mounted = true) ∧
    (s.pwr.replayed = false) ∧
    (s.warned = false)) :=
  by and_intros <;> decide +kernel

/-- The hypotheses of The257thStagingIsRefused are met, clause by clause. -/
theorem witness_The257thStagingIsRefused :
    (let s : State := State.setGrp State.reset 5 { st := .opened, issuer := 9, actions := List.replicate 256 { kind := 9, len := 8, target := 4, data := be 8 1 } }
    let g : Nat := 5
    ((s.grp g).actions.length ≤ 256)) ∧
    (let s : State := State.setGrp State.reset 5 { st := .opened, issuer := 9, actions := List.replicate 256 { kind := 9, len := 8, target := 4, data := be 8 1 } }
    let g : Nat := 5
    let iss : Issuer := 9
    let a : Action := { kind := 9, len := 8, target := 4, data := be 8 1 }
    (s.warned = false) ∧
    ((s.grp g).st = .opened) ∧
    ((s.grp g).issuer = iss) ∧
    (s.actionValid g iss a = true) ∧
    ((s.grp g).actions.length = 256)) ∧
    (let s : State := State.setWords (State.setGrp State.reset 5 { st := .opened, issuer := 0x3F, actions := List.replicate 256 { kind := 9, len := 8, target := 4, data := be 8 1 } }) (cmtAct 15 0) [0x09000008, 0, 4]
    let i : Iface := .sealCore
    let w : Nat := 15
    let g : Nat := 5
    (w < 16) ∧
    (g < 64) ∧
    (s.mayAccess i (cmtPush w) true = true) ∧
    (s.warned = false) ∧
    ((s.grp g).st = .opened) ∧
    ((s.grp g).issuer = windowIssuer i (cmtPush w)) ∧
    (s.actionValid g (windowIssuer i (cmtPush w)) (Action.ofBytes (s.windowBytes i w)) = true) ∧
    ((s.grp g).actions.length = 256)) ∧
    (let s : State := State.setGrp State.reset 5 { st := .opened, issuer := (Iface.core 0).issuer, actions := List.replicate 256 { kind := 9, len := 8, target := 4, data := be 8 1 } }
    let i : Iface := .core 0
    let g : Nat := 5
    (g < 64) ∧
    (s.mayAccess i cmtCtrl true = true) ∧
    (s.warned = false) ∧
    ((s.grp g).st = .opened) ∧
    ((s.grp g).issuer = i.issuer) ∧
    ((s.grp g).actions.length = 256) ∧
    ((s.grp g).actions.any Action.late = false)) ∧
    (let s : State := State.setGrp State.reset 5 { st := .opened, issuer := (Iface.core 0).issuer, actions := List.replicate 256 { kind := 9, len := 8, target := 4, data := be 8 1 } }
    let i : Iface := .core 0
    let g : Nat := 5
    (g < 64) ∧
    (s.mayAccess i cmtCtrl true = true) ∧
    ((s.grp g).st = .opened) ∧
    ((s.grp g).issuer = i.issuer) ∧
    ((s.grp g).actions.length = 256)) :=
  by and_intros <;> decide +kernel

/-- The hypotheses of AnOpenGroupIsAborted are met, clause by clause. -/
theorem witness_AnOpenGroupIsAborted :
    (let s : State := State.setQ (State.setGrp State.reset 5 { st := .opened, issuer := (Iface.core 0).issuer, actions := [{ kind := 4, len := 8, target := 6 }, { kind := 8, len := 48 }, { kind := 3, target := 2 }] }) 6 { claimed := 9 }
    let i : Iface := .core 0
    let g : Nat := 5
    (g < 64) ∧
    (s.mayAccess i cmtCtrl true = true) ∧
    ((s.grp g).st = .opened) ∧
    ((s.grp g).issuer = i.issuer)) ∧
    (let s : State := State.setGrp State.reset 5 { st := .visible, issuer := (Iface.core 0).issuer }
    let i : Iface := .core 0
    let g : Nat := 5
    (g < 64) ∧
    (s.mayAccess i cmtCtrl true = true) ∧
    ((s.grp g).st = .visible)) :=
  by and_intros <;> decide +kernel

/-- The hypotheses of TokensLockoutsAndIdentity are met, clause by clause. -/
theorem witness_TokensLockoutsAndIdentity :
    (let s : State := tokS (be 1 0 ++ be 1 1 ++ be 2 9 ++ be 3 0 ++ be 9 7)
    let u : State := ((State.deliver (tokS (be 1 0 ++ be 1 1 ++ be 2 9 ++ be 3 0 ++ be 9 7)) 5).getD ({}, {})).2
    let q : Nat := 5
    let n : Nat := 9
    let v : Nat := 7
    let it : Item := ((State.deliver (tokS (be 1 0 ++ be 1 1 ++ be 2 9 ++ be 3 0 ++ be 9 7)) 5).getD ({}, {})).1
    (s.man.roles.tokenIn = q + 1) ∧
    (s.deliver q = some (it, u)) ∧
    (it.poisoned = false) ∧
    (n = beAt it.bytes 2 2) ∧
    (v = beAt it.bytes 7 9) ∧
    (s.tok.locked = false) ∧
    (s.tokCheck v n ∈ [0x01, 0x06, 0x07, 0x09]) ∧
    (s.flag hldStat_MOUNTED = true)) ∧
    (let s : State := { w0 [(hldStat_MOUNTED, 1)] with tok := { locked := true } }
    (s.tok.locked = true) ∧
    (s.flag hldStat_MOUNTED = true)) ∧
    (let s : State := { State.reset with live := { tables := [(tabAcct, [(3, ({ id := 77, st := 1, bal := -5 } : Acct).row)])] } }
    let i : Iface := .core 0
    (s.mayAccess i panAcctSel true = true)) ∧
    (let s : State := { State.reset with keys := { generating := some (be 96 7) } }
    let d : List Byte := be 96 7
    (s.keys.generating = some d) ∧
    (s.fuses.identity = false)) ∧
    (let s : State := { w0 [(keyIdStat_GENERATING, 1)] with keys := { treeWait := true } }
    (s.keys.treeWait = true)) :=
  by and_intros <;> decide +kernel

/-- The hypotheses of PanelDrawsAndReadsKeys are met, clause by clause. -/
theorem witness_PanelDrawsAndReadsKeys :
    (let s : State := w0 [(kpCfg_EN, 1), (kpStat_DOWN, 8)]
    let k : Nat := 3
    let down : Bool := false
    (k < 16) ∧
    (s.flag kpCfg_EN = true) ∧
    (s.pan.stopped = false) ∧
    (natBit (s.get kpStat_DOWN) k = !down)) ∧
    (let s : State := { w0 [(panStat_LEGAL_READY, 1), (panStat_FRAMES, 65535)] with pan := { band := 2 } }
    (s.flag panStat_LEGAL_READY = true) ∧
    (s.warned = false) ∧
    (s.pan.discharge = none) ∧
    (s.panTemp.pan.band < 4)) ∧
    (let s : State := { w0 [(panStat_DRIVE, 1)] with pan := { discharge := some 2 } }
    (s.pan.discharge.isSome = true)) ∧
    (let s : State := { w0 [(panCfg_MODE, 1), (panFbAddr_WORD, 127)] with man := { State.reset.man with legalMask := [1017] } }
    let i : Iface := .core 0
    (s.mayAccess i panFbData true = true) ∧
    (s.fbThere (s.get panFbAddr_WORD) = true)) ∧
    (let s : State := { w0 [(panFbAddr_WORD, 5)] with pan := { opn := [(41, 7)] } }
    let i : Iface := .core 0
    (s.mayAccess i panFbData false = true)) :=
  by and_intros <;> decide +kernel

/-- The hypotheses of DoorbellsAndQueuesMoveItems are met, clause by clause. -/
theorem witness_DoorbellsAndQueuesMoveItems :
    (let s : State := State.setPage { whfS {} with man := { (whfS {}).man with producers := [(5, [.cores])] } } 5 { staging := [(0, 7), (3, 9)] }
    let i : Iface := .core 0
    let q : Nat := 5
    let v : Word := 0x00700001
    (q < 256) ∧
    (s.tst.entries = []) ∧
    (s.pushResult i q (bitsOf v 8 0 + 1) = 0)) ∧
    (let s : State := whfS {}
    let i : Iface := .core 0
    let q : Nat := 5
    let v : Word := 0
    (s.pushResult i q (bitsOf v 8 0 + 1) ≠ 0)) ∧
    (let s : State := { whfS { items := [{ data := [{ val := 7 }, { val := 9 }] }], tail := 1 } with man := { (whfS {}).man with consumers := [(5, some .cores)] } }
    let u : State := ((State.deliver { whfS { items := [{ data := [{ val := 7 }, { val := 9 }] }], tail := 1 } with man := { (whfS {}).man with consumers := [(5, some .cores)] } } 5).getD ({}, {})).2
    let i : Iface := .core 3
    let q : Nat := 5
    let a : Agent := .cores
    let it : Item := { data := [{ val := 7 }, { val := 9 }] }
    (q < 256) ∧
    (smGet none s.man.consumers q = some a) ∧
    ((∀ k ∈ List.range 64, a ≠ .pool k)) ∧
    (s.mayPop i q = true) ∧
    (s.deliver q = some (it, u))) ∧
    (let s : State := whfS { waiters := [{ prod := .launchUnit, item := { data := [{ val := 7 }] } }] }
    let q : Nat := 5
    let w : Waiter := { prod := .launchUnit, item := { data := [{ val := 7 }] } }
    let rest : List Waiter := []
    (q < 256) ∧
    (s.tst.entries = []) ∧
    ((s.q q).waiters = w :: rest) ∧
    (w.item.words ≤ s.qFree q) ∧
    (s.val.recs = []) ∧
    (s.val.entries = []) ∧
    (s.bal.run = none) ∧
    (s.bal.due = [])) ∧
    (let s : State := whfS { idleRun := true }
    let q : Nat := 5
    (q < 256) ∧
    ((s.q q).idleRun = true)) ∧
    (let s : State := State.set (whfS { items := [{ iseq := 0xFFFFFFFF }, { iseq := 0 }], mark := 0xFFFFFFFF, head := 0, front := 0, tail := 1 }) (whfQCfg_RETAIN 5) 1
    let i : Iface := .core 0
    let q : Nat := 5
    (q < 256) ∧
    (s.mayAccess i (whfQCtrl q) true = true) ∧
    (s.qUsed q = true) ∧
    (s.flag (whfQCfg_RETAIN q) = true)) ∧
    (let s : State := State.set (whfS { items := [{ iseq := 0xFFFFFFFF }, { iseq := 0 }], mark := 0xFFFFFFFF, head := 0, front := 0, tail := 1 }) (whfQCfg_RETAIN 5) 1
    let i : Iface := .core 0
    let q : Nat := 5
    (q < 256) ∧
    (s.mayAccess i (whfQCtrl q) true = true) ∧
    (s.qUsed q = true) ∧
    (s.flag (whfQCfg_RETAIN q) = true)) ∧
    (let s : State := State.set (whfS { items := [{ iseq := 0xFFFFFFFF }, { iseq := 0 }], mark := 0xFFFFFFFF, head := 0, front := 0, tail := 1 }) (whfQCfg_RETAIN 5) 1
    let i : Iface := .core 0
    let q : Nat := 5
    let n : Nat := 0xFFFFFF
    let k : Nat := 0
    (q < 256) ∧
    (s.mayAccess i (whfQCtrl q) true = true) ∧
    (s.qUsed q = true) ∧
    (s.flag (whfQCfg_RETAIN q) = true) ∧
    ((s.q q).rel ((s.q q).extend (n % 2 ^ 24)) = (k : Int)) ∧
    ((k : Int) < (s.q q).rel (s.q q).front) ∧
    (k < (s.q q).items.length)) ∧
    (let s : State := w0 [(whfQCnt_OVERRUN 5, 3), (whfQCnt_POISONED 5, 6)]
    let i : Iface := .core 0
    let q : Nat := 5
    (q < 256) ∧
    (s.mayAccess i (whfQCnt q) true = true)) ∧
    (let s : State := whfS { items := [{}, { delayed := true }] }
    let q : Nat := 5
    let k : Nat := 1
    (q < 256) ∧
    (((List.range (s.q q).items.length).find? fun k => ((s.q q).items.getD k {}).delayed) = some k) ∧
    (((s.q q).items.getD k {}).dueAt ≤ s.clk.mono)) :=
  by and_intros <;> decide +kernel

/-- The hypotheses of EventsWakeOrLatch are met, clause by clause. -/
theorem witness_EventsWakeOrLatch :
    (let s : State := State.setThr (State.setThr (State.setThr (w0 [(⟨pwrEvtEn, 31, 0⟩, 0xFFFF)]) 3 { st := .waiting, waitA := 5, waitSeq := 9, prio := 2 }) 7 { st := .waiting, waitA := 1, waitB := some 5, waitSeq := 4, prio := 2 }) 9 { st := .waiting, waitA := 6 }
    let e : Nat := 5
    (smWf {} s.fry.threads = true) ∧
    (s.evtOn e = true) ∧
    (s.waitersOn e ≠ []) ∧
    (e ∉ s.fry.latches)) ∧
    (let s : State := State.setThr (State.setThr (State.setThr State.reset 3 { st := .waiting, waitA := 5, waitSeq := 9, prio := 2 }) 7 { st := .waiting, waitA := 1, waitB := some 5, waitSeq := 4, prio := 2 }) 9 { st := .waiting, waitA := 6 }
    (smWf {} s.fry.threads = true)) ∧
    (let s : State := w0 [(⟨pwrEvtEn, 31, 0⟩, 0xFFFF)]
    let e : Nat := 5
    (s.evtOn e = true) ∧
    (s.waitersOn e = []) ∧
    (e ∉ s.fry.latches)) ∧
    (let s : State := { w0 [(⟨pwrEvtEn, 31, 0⟩, 0xFFFF)] with fry := { latches := [5], episodes := [5] } }
    let e : Nat := 5
    (s.evtOn e = true) ∧
    (s.waitersOn e = []) ∧
    (e ∈ s.fry.latches) ∧
    (e ∈ s.fry.episodes)) ∧
    (let s : State := { w0 [(⟨pwrEvtEn, 31, 0⟩, 0xFFFF), (⟨fryEvtEn, 31, 0⟩, 0x1F)] with fry := { latches := [5] } }
    let e : Nat := 5
    (e ≠ 388) ∧
    (s.evtOn e = true) ∧
    (s.waitersOn e = []) ∧
    (e ∈ s.fry.latches) ∧
    (e ∉ s.fry.episodes)) ∧
    (let s : State := State.setThr { State.reset with fry := { latches := [5, 6], cores := [(2, { running := some 7 })] } } 7 { st := .running }
    let core : Nat := 2
    let a : Nat := 5
    let k : Nat := 7
    (s.running core = some k) ∧
    (a ∈ s.fry.latches)) :=
  by and_intros <;> decide +kernel

/-- The hypotheses of ThreadsRunAndStop are met, clause by clause. -/
theorem witness_ThreadsRunAndStop :
    (let s : State := fryS 7 { st := .ready, prio := 3, affinity := 4 } {}
    let core : Nat := 2
    let k : Nat := 7
    (s.candidate core = some k) ∧
    ((s.core core).parked = false) ∧
    ((s.core core).halted = false) ∧
    ((s.core core).running = none)) ∧
    (let s : State := fryS 7 { st := .ready, prio := 3, affinity := 4 } {}
    let core : Nat := 2
    let k : Nat := 7
    ((s.core core).parked = false) ∧
    (s.c0Of core = none) ∧
    (s.nextReady core = some k) ∧
    ((s.core core).slot = none)) ∧
    (let s : State := fryS 7 { st := .running } { running := some 7 }
    let core : Nat := 2
    let a : Nat := 5
    let k : Nat := 7
    let b : Option Nat := some 6
    (s.running core = some k) ∧
    (a ∉ s.fry.latches) ∧
    ((∀ e ∈ b, e ∉ s.fry.latches))) ∧
    (let s : State := State.setFlow (fryS 7 { st := .running, flow := some 9 } { running := some 7 }) 9 (.thread 7)
    let core : Nat := 2
    let k : Nat := 7
    let f : Nat := 9
    (s.running core = some k) ∧
    ((s.thr k).pool = none) ∧
    ((s.thr k).flow = some f) ∧
    (s.flow f = .thread k)) ∧
    (let s : State := State.setThr { whfS { items := [{ flow := 9 }], tail := 1 } with man := { (whfS {}).man with pools := [(1, [5])] } } 7 { st := .taking, pool := some 1 }
    let k : Nat := 7
    let p : Nat := 1
    let q : Nat := 5
    let it : Item := { flow := 9 }
    ((s.thr k).st = .taking) ∧
    ((s.thr k).pool = some p) ∧
    (smGet [] s.man.pools p = [q]) ∧
    ((s.q q).headItem = some it) ∧
    (s.flow it.flow = .nobody)) ∧
    (let s : State := fryS 7 { st := .running, prio := 3 } { running := some 7 }
    let core : Nat := 2
    let k : Nat := 7
    (s.running core = some k)) ∧
    (let s : State := State.setFlow (fryS 7 { st := .running, flow := some 9, grant := some 5 } { running := some 7 }) 9 (.thread 7)
    let core : Nat := 2
    let k : Nat := 7
    (s.running core = some k)) ∧
    (let s : State := State.setFlow (fryS 7 { st := .running, flow := some 9, grant := some 5 } { running := some 7 }) 9 (.thread 7)
    let core : Nat := 2
    let k : Nat := 7
    (s.running core = some k)) ∧
    (let s : State := { fryS 7 { st := .running } { running := some 7 } with fry := { threads := [(7, { st := .running })], cores := [(2, { running := some 7 })] } }
    let core : Nat := 2
    let k : Nat := 7
    (s.running core = some k) ∧
    (s.c0Index k = none) ∧
    (s.fry.ready = []) ∧
    ((s.core core).slot = none) ∧
    (s.c0Ready core = none)) ∧
    (let s : State := crtS
    let i : Iface := .core 0
    let k : Nat := 0
    (s.mayAccess i fryCreate false = true) ∧
    (s.mayCreate i = true) ∧
    (s.getOf i fryNewCfg_AFFINITY ≠ 0) ∧
    (s.getOf i fryNewCfg_POOL_EN = 0) ∧
    (((List.range 1024).find? fun t => (s.thr t).st == .free) = some k)) ∧
    (let s : State := w0 [(fryC0Stat_MAX 1, 90), (fryC0Stat_LAST 1, 80)]
    let i : Iface := .core 0
    let k : Nat := 1
    (k < 2) ∧
    (s.mayAccess i (fryC0Stat k) false = true)) ∧
    (let s : State := w0 [(fryCnt_FLOWWAIT, 90), (fryCnt_COALESCED, 80)]
    let i : Iface := .core 0
    (s.mayAccess i fryCnt true = true)) :=
  by and_intros <;> decide +kernel

/-- The hypotheses of OarsmanComputesInRegisters are met, clause by clause. -/
theorem witness_OarsmanComputesInRegisters :
    (let s : State := oarS 2 (oarO 0x80000001 0xFFFFFFE3 7 []) {}
    let n : Nat := 2
    let ga : Nat := 1
    let gb : Nat := 2
    let a : Word := 0x80000001
    let b : Word := 0xFFFFFFE3
    (oarRuns n s) ∧
    (a = (s.oarN n).gr ga) ∧
    (b = (s.oarN n).gr gb)) ∧
    (let s : State := oarS 2 (oarO 0x80000001 0xFFFFFFE3 7 []) {}
    let n : Nat := 2
    let ga : Nat := 2
    let gb : Nat := 0
    let a : Word := 0xFFFFFFE3
    let b : Word := 0
    (oarRuns n s) ∧
    (a = (s.oarN n).gr ga) ∧
    (b = (s.oarN n).gr gb)) ∧
    (let s : State := oarS 2 (oarO 0x80000001 0xFFFFFFE3 7 []) {}
    let n : Nat := 2
    let ga : Nat := 1
    let imm : Nat := 0x3FFFF
    let a : Word := 0x80000001
    (oarRuns n s) ∧
    (a = (s.oarN n).gr ga) ∧
    (imm < 2 ^ 18)) :=
  by and_intros <;> decide +kernel

/-- The hypotheses of OarsmanReachesDataMemory are met, clause by clause. -/
theorem witness_OarsmanReachesDataMemory :
    (let s : State := oarS 2 (oarO 0x102 0xFFEE0012 7 [1, 2, 3, 4, 5, 6, 7, 8]) {}
    let n : Nat := 2
    let ga : Nat := 1
    let imm : Nat := 0x3FFFE
    let a : Nat := 0x100
    (oarRuns n s) ∧
    (a = ((s.oarN n).gr ga + BitVec.ofInt 32 (toSigned 18 imm)).toNat) ∧
    (a + 4 ≤ 0x2000) ∧
    (a % 4 = 0)) ∧
    (let s : State := oarS 2 (oarO 0x1FFF 0xFFEE0012 7 [1, 2, 3, 4, 5, 6, 7, 8]) {}
    let n : Nat := 2
    let ga : Nat := 1
    let imm : Nat := 0
    let a : Nat := 0x1FFF
    (oarRuns n s) ∧
    (a = ((s.oarN n).gr ga + BitVec.ofInt 32 (toSigned 18 imm)).toNat) ∧
    (a < 0x2000)) ∧
    (let s : State := oarS 2 (oarO 0x100 0xFFEE0012 7 [1, 0xA2, 3, 4, 5, 0x96, 7, 8]) {}
    let n : Nat := 2
    let ga : Nat := 1
    let imm : Nat := 0x3FC01
    let a : Nat := 0x101
    let skip : Nat := 7
    let w : Nat := 32
    let k : Nat := 5
    (oarRuns n s) ∧
    (imm < 2 ^ 18) ∧
    (a = ((s.oarN n).gr ga + BitVec.ofNat 32 (imm % 1024)).toNat) ∧
    (skip = imm / 1024 % 8) ∧
    (w = imm / 8192 + 1) ∧
    (k = (skip + w + 7) / 8) ∧
    (a + k ≤ 0x2000)) ∧
    (let s : State := oarS 2 (oarO 0x1FFE 0xFFEE0012 7 [1, 0xA2, 3, 4, 5, 0x96, 7, 8]) {}
    let n : Nat := 2
    let ga : Nat := 1
    let imm : Nat := 0xE800
    let a : Nat := 0x1FFE
    let skip : Nat := 2
    let w : Nat := 8
    let k : Nat := 2
    (oarRuns n s) ∧
    (imm < 2 ^ 18) ∧
    (a = ((s.oarN n).gr ga + BitVec.ofNat 32 (imm % 1024)).toNat) ∧
    (skip = imm / 1024 % 8) ∧
    (w = imm / 8192 + 1) ∧
    (k = (skip + w + 7) / 8) ∧
    (a + k ≤ 0x2000)) ∧
    (let s : State := { oarS 2 (oarO 0x104 5 0xABCD1234 [1, 0xA2, 3, 4, 5, 0x96, 7, 8]) {} with xing := { State.reset.xing with num := 0x1FFFFFFF0, valid := true } }
    let n : Nat := 2
    let ga : Nat := 1
    let gb : Nat := 2
    let a : Nat := 0x104
    let x : Nat := 0x200000005
    (oarRuns n s) ∧
    (a = ((s.oarN n).gr ga).toNat) ∧
    (a + 8 ≤ 0x2000) ∧
    (x % 2 ^ 32 = ((s.oarN n).gr gb).toNat) ∧
    (x < 2 ^ 46) ∧
    ((x : Int) - s.xing.num < 2 ^ 31) ∧
    (-(2 ^ 31 : Int) ≤ (x : Int) - s.xing.num)) ∧
    (let s : State := oarS 2 (oarO 0x104 0xFFEE0012 0xABCD1234 [1, 0xA2, 3, 4, 5, 0x96, 7, 8]) {}
    let n : Nat := 2
    let ga : Nat := 1
    let a : Nat := 0x104
    (oarRuns n s) ∧
    (a = ((s.oarN n).gr ga).toNat) ∧
    (a + 8 ≤ 0x2000)) ∧
    (let s : State := oarS 2 (oarO 0x1FEC 0xFFEE0012 0xABCD1234 [1, 0xA2, 3, 4, 5, 0x96, 7, 8]) {}
    let n : Nat := 2
    let ga : Nat := 1
    let a : Nat := 0x1FEC
    (oarRuns n s) ∧
    (a = ((s.oarN n).gr ga).toNat) ∧
    (a + 20 ≤ 0x2000)) :=
  by and_intros <;> decide +kernel

/-- The hypotheses of OarsmanBranchesMoveThePc are met, clause by clause. -/
theorem witness_OarsmanBranchesMoveThePc :
    (let s : State := oarS 2 (oarO 0x102 0xFFEE0012 7 []) {}
    let n : Nat := 2
    let target : Nat := 4095
    let o : Oarsman := State.oarN (oarS 2 (oarO 0x102 0xFFEE0012 7 []) {}) 2
    (oarRuns n s) ∧
    (o = s.oarN n) ∧
    (target < 4096)) ∧
    (let s : State := oarS 2 (oarO 0x102 0xFFEE0012 7 []) {}
    let n : Nat := 2
    let target : Nat := 0
    let o : Oarsman := State.oarN (oarS 2 (oarO 0x102 0xFFEE0012 7 []) {}) 2
    (oarRuns n s) ∧
    (o = s.oarN n) ∧
    (target < 4096)) ∧
    (let s : State := oarS 2 (oarO 0x102 0xFFEE0012 7 []) {}
    let n : Nat := 2
    let o : Oarsman := State.oarN (oarS 2 (oarO 0x102 0xFFEE0012 7 []) {}) 2
    (oarRuns n s) ∧
    (o = s.oarN n)) :=
  by and_intros <;> decide +kernel

/-- The hypotheses of XnowReadsTheCapturedTime are met, clause by clause. -/
theorem witness_XnowReadsTheCapturedTime :
    (let s : State := oarS 2 (oarO 0x102 0xFFEE0012 7 []) {}
    let n : Nat := 2
    (oarRuns n s)) ∧
    (let s : State := oarS 2 { oarO 0x102 0xFFEE0012 7 [] with capX := 0x12345678ABCD, capP := 5999999999, capF := 3 } {}
    let n : Nat := 2
    let imm : Nat := 3
    let v : Nat := 5
    (oarRuns n s) ∧
    (0 < imm) ∧
    (imm < 2 ^ 18) ∧
    (v = (if imm = 1 then (s.oarN n).capX / 2 ^ 48 else if imm = 2 then (s.oarN n).capX % 2 ^ 16
      else if imm = 3 then (s.oarN n).capP / 1000000000 else if imm = 4 then (s.oarN n).capP % 1000000000
      else if imm = 5 then (s.oarN n).capF else 0))) ∧
    (let s : State := oarS 2 { oarO 0x102 0xFFEE0012 7 [] with capX := 0x12345678ABCD, capP := 5999999999, capF := 3 } {}
    let n : Nat := 2
    let imm : Nat := 6
    let v : Nat := 0
    (oarRuns n s) ∧
    (0 < imm) ∧
    (imm < 2 ^ 18) ∧
    (v = (if imm = 1 then (s.oarN n).capX / 2 ^ 48 else if imm = 2 then (s.oarN n).capX % 2 ^ 16
      else if imm = 3 then (s.oarN n).capP / 1000000000 else if imm = 4 then (s.oarN n).capP % 1000000000
      else if imm = 5 then (s.oarN n).capF else 0))) ∧
    (let s : State := oarS 2 { oarO 0x102 0xFFEE0012 7 [] with capX := 0x12345678ABCD, capP := 5999999999, capF := 3 } {}
    let n : Nat := 2
    let imm : Nat := 1
    let v : Nat := 0
    (oarRuns n s) ∧
    (0 < imm) ∧
    (imm < 2 ^ 18) ∧
    (v = (if imm = 1 then (s.oarN n).capX / 2 ^ 48 else if imm = 2 then (s.oarN n).capX % 2 ^ 16
      else if imm = 3 then (s.oarN n).capP / 1000000000 else if imm = 4 then (s.oarN n).capP % 1000000000
      else if imm = 5 then (s.oarN n).capF else 0))) :=
  by and_intros <;> decide +kernel

/-- The hypotheses of OarsmanMovesItemsAndTags are met, clause by clause. -/
theorem witness_OarsmanMovesItemsAndTags :
    (let s : State := oarQ (oarO 0x200 0 0 []) { consumes := [5] } { items := [{ data := [{ val := 7 }, { val := 9 }] }], tail := 1 } 1
    let u : State := State.setQ (oarQ (oarO 0x200 0 0 []) { consumes := [5] } { items := [{ data := [{ val := 7 }, { val := 9 }] }], tail := 1 } 1) 5 { tail := 1, head := 1, front := 1, mark := 1 }
    let n : Nat := 2
    let gd : Nat := 3
    let ga : Nat := 1
    let imm : Nat := 5
    let q : Nat := 5
    let a : Nat := 0x200
    let it : Item := { data := [{ val := 7 }, { val := 9 }] }
    (oarRuns n s) ∧
    (gd ≠ 0) ∧
    (q = imm % 256) ∧
    (q ∈ (smGet {} s.man.oar n).consumes) ∧
    (s.deliver q = some (it, u)) ∧
    (a = ((s.oarN n).gr ga).toNat) ∧
    (a + 16 + 8 * it.data.length ≤ 0x2000)) ∧
    (let s : State := oarQ (oarO 0x200 0 0 []) { consumes := [5] } {} 1
    let n : Nat := 2
    let imm : Nat := 5
    let q : Nat := 5
    (oarRuns n s) ∧
    (q = imm % 256) ∧
    (q ∈ (smGet {} s.man.oar n).consumes) ∧
    (s.deliver q = none)) ∧
    (let s : State := oarQ (oarO 0x100 0 0 [0x00, 0x78, 0, 1, 2, 0, 0, 0, 0, 0, 0, 0, 0, 5, 0, 0, 0, 6]) { produces := [5] } {} 1
    let n : Nat := 2
    let gd : Nat := 3
    let ga : Nat := 1
    let imm : Nat := 5
    let q : Nat := 5
    let a : Nat := 0x100
    let ctrl : Nat := 0x780001
    let d : Nat := 0x200
    let len : Nat := 2
    (oarRuns n s) ∧
    (gd ≠ 0) ∧
    (q = imm % 256) ∧
    (q ∈ (smGet {} s.man.oar n).produces) ∧
    (s.qUsed q = true) ∧
    (s.flag (whfQCfg_FLAG q) = false) ∧
    (s.tst.entries = []) ∧
    (a = ((s.oarN n).gr ga).toNat) ∧
    (a + 32 ≤ 0x2000) ∧
    (ctrl = ofBe (getBytes (s.oarN n).mem a 4)) ∧
    (ctrl % 2 ^ 18 < 256) ∧
    (len = ctrl % 2 ^ 18 + 1) ∧
    (d = ofBe (getBytes (s.oarN n).mem (a + 4) 2)) ∧
    (d + 8 * len ≤ 0x2000) ∧
    (ofBe (getBytes (s.oarN n).mem (a + 6) 2) = 0) ∧
    (ofBe (getBytes (s.oarN n).mem (a + 28) 4) = 0) ∧
    ((s.q q).waiters = []) ∧
    (len + 2 ≤ s.qFree q)) ∧
    (let s : State := oarQ (oarO 0x100 0 0 [0x00, 0x74, 0, 1, 2, 0, 0, 0, 0, 0, 0, 0, 0, 5, 0, 0, 0, 6]) { produces := [5] } { claimed := 510 } 1
    let n : Nat := 2
    let ga : Nat := 1
    let imm : Nat := 5
    let q : Nat := 5
    let a : Nat := 0x100
    let ctrl : Nat := 0x740001
    let d : Nat := 0x200
    let len : Nat := 2
    (oarRuns n s) ∧
    (q = imm % 256) ∧
    (q ∈ (smGet {} s.man.oar n).produces) ∧
    (s.qUsed q = true) ∧
    (s.flag (whfQCfg_FLAG q) = false) ∧
    (a = ((s.oarN n).gr ga).toNat) ∧
    (a + 32 ≤ 0x2000) ∧
    (ctrl = ofBe (getBytes (s.oarN n).mem a 4)) ∧
    (ctrl % 2 ^ 18 < 256) ∧
    (len = ctrl % 2 ^ 18 + 1) ∧
    (d = ofBe (getBytes (s.oarN n).mem (a + 4) 2)) ∧
    (d + 8 * len ≤ 0x2000) ∧
    (ofBe (getBytes (s.oarN n).mem (a + 6) 2) = 0) ∧
    (ofBe (getBytes (s.oarN n).mem (a + 28) 4) = 0) ∧
    (s.qFree q < len + 2 ∨ (s.q q).waiters ≠ [])) ∧
    (let s : State := oarQ (oarO 0x100 0 0 [0x00, 0x70, 0, 1, 2, 0, 0, 0, 0, 0, 0, 0, 0, 5, 0, 0, 0, 6]) { produces := [5] } { claimed := 510 } 1
    let n : Nat := 2
    let ga : Nat := 1
    let imm : Nat := 5
    let q : Nat := 5
    let a : Nat := 0x100
    let ctrl : Nat := 0x700001
    let d : Nat := 0x200
    let len : Nat := 2
    (oarRuns n s) ∧
    (q = imm % 256) ∧
    (q ∈ (smGet {} s.man.oar n).produces) ∧
    (s.qUsed q = true) ∧
    (s.flag (whfQCfg_FLAG q) = false) ∧
    (a = ((s.oarN n).gr ga).toNat) ∧
    (a + 32 ≤ 0x2000) ∧
    (ctrl = ofBe (getBytes (s.oarN n).mem a 4)) ∧
    (ctrl % 2 ^ 18 < 256) ∧
    (len = ctrl % 2 ^ 18 + 1) ∧
    (d = ofBe (getBytes (s.oarN n).mem (a + 4) 2)) ∧
    (d + 8 * len ≤ 0x2000) ∧
    (ofBe (getBytes (s.oarN n).mem (a + 6) 2) = 0) ∧
    (ofBe (getBytes (s.oarN n).mem (a + 28) 4) = 0) ∧
    (s.qFree q < len + 2 ∨ (s.q q).waiters ≠ [])) ∧
    (let s : State := State.set (oarQ (oarO 0x100 0 0 []) { consumes := [5] } { items := [{ data := [{ val := 7 }] }, { data := [{ val := 8 }] }], tail := 2, head := 1, front := 1 } 1) (whfQCfg_RETAIN 5) 1
    let n : Nat := 2
    let q : Nat := 5
    (oarRuns n s) ∧
    (q < 256) ∧
    (q ∈ (smGet {} s.man.oar n).consumes) ∧
    (s.qUsed q = true) ∧
    (s.flag (whfQCfg_RETAIN q) = true)) ∧
    (let s : State := oarS 2 (oarO 0x1009 0 0 []) {}
    let n : Nat := 2
    let ga : Nat := 1
    let f : Nat := 9
    let limit : Nat := 4
    (oarRuns n s) ∧
    (f = ((s.oarN n).gr ga).toNat % 4096) ∧
    (limit = (if 7 ≤ n ∧ n ≤ 10 then 128 else 4)) ∧
    (s.flow f ≠ .oarsman n)) ∧
    (let s : State := { oarS 2 (oarO 0x1009 0 0 []) {} with flows := [(1, .oarsman 2), (2, .oarsman 2), (3, .oarsman 2), (4, .oarsman 2)] }
    let n : Nat := 2
    let ga : Nat := 1
    let f : Nat := 9
    let limit : Nat := 4
    (oarRuns n s) ∧
    (f = ((s.oarN n).gr ga).toNat % 4096) ∧
    (limit = (if 7 ≤ n ∧ n ≤ 10 then 128 else 4)) ∧
    (s.flow f ≠ .oarsman n)) ∧
    (let s : State := { oarS 7 (oarO 0x1009 0 0 []) {} with flows := [(9, .thread 4)] }
    let n : Nat := 7
    let ga : Nat := 1
    let f : Nat := 9
    let limit : Nat := 128
    (oarRuns n s) ∧
    (f = ((s.oarN n).gr ga).toNat % 4096) ∧
    (limit = (if 7 ≤ n ∧ n ≤ 10 then 128 else 4)) ∧
    (s.flow f ≠ .oarsman n)) ∧
    (let s : State := { oarS 2 (oarO 0x1009 0 0 []) {} with flows := [(4, .thread 2), (9, .oarsman 2)] }
    let n : Nat := 2
    let ga : Nat := 1
    let f : Nat := 9
    (oarRuns n s) ∧
    (f = ((s.oarN n).gr ga).toNat % 4096) ∧
    (s.flow f = .oarsman n)) ∧
    (let s : State := { oarS 2 (oarO 0x1009 0 0 []) {} with txn := { State.reset.txn with used := [(0, some { issuer := 2 })] } }
    let n : Nat := 2
    let e : Nat := 1
    (oarRuns n s) ∧
    (s.txnCan n = true) ∧
    (((List.range 4096).find? fun e => smGet none s.txn.used e == none) = some e)) ∧
    (let s : State := { oarS 2 (oarO 0x9 0 0 []) {} with txn := { State.reset.txn with used := [(9, some { issuer := 2 })] } }
    let n : Nat := 2
    let ga : Nat := 1
    let e : Nat := 9
    (oarRuns n s) ∧
    (e = ((s.oarN n).gr ga).toNat) ∧
    ((smGet none s.txn.used e).isSome = true) ∧
    (s.txn.waiting = [])) :=
  by and_intros <;> decide +kernel

/-- The hypotheses of OarsmanWaitsSignalsAndTraps are met, clause by clause. -/
theorem witness_OarsmanWaitsSignalsAndTraps :
    (let s : State := oarS 2 { oarO 0 0 0 [] with latches := [6, 5, 9] } { events := [5, 6] }
    let n : Nat := 2
    let imm : Nat := 5 + 512 * 6
    let a : Nat := 5
    let b : Nat := 6
    (oarRuns n s) ∧
    (a = imm % 512) ∧
    (b = imm / 512 % 512) ∧
    (a ∈ (smGet {} s.man.oar n).events) ∧
    (b ∈ (smGet {} s.man.oar n).events)) ∧
    (let s : State := oarS 2 { oarO 0 0 0 [] with latches := [6, 9] } { events := [5, 6] }
    let n : Nat := 2
    let imm : Nat := 5 + 512 * 6
    let a : Nat := 5
    let b : Nat := 6
    (oarRuns n s) ∧
    (a = imm % 512) ∧
    (b = imm / 512 % 512) ∧
    (a ∈ (smGet {} s.man.oar n).events) ∧
    (b ∈ (smGet {} s.man.oar n).events)) ∧
    (let s : State := oarS 2 { oarO 0 0 0 [] with latches := [9] } { events := [5, 6] }
    let n : Nat := 2
    let imm : Nat := 5 + 512 * 6
    let a : Nat := 5
    let b : Nat := 6
    (oarRuns n s) ∧
    (a = imm % 512) ∧
    (b = imm / 512 % 512) ∧
    (a ∈ (smGet {} s.man.oar n).events) ∧
    (b ∈ (smGet {} s.man.oar n).events)) ∧
    (let s : State := State.setOar State.reset 2 { st := .waiting, wait := .events 3 5 6 (some 5), haltReq := true }
    let n : Nat := 2
    let gd : Nat := 3
    let a : Nat := 5
    let b : Nat := 6
    let e : Nat := 5
    ((s.oarN n).wait = .events gd a b (some e))) ∧
    (let s : State := { oarS 2 (oarO 0x105 0 0 []) {} with xing := { State.reset.xing with num := 0x100000100, valid := true } }
    let n : Nat := 2
    let ga : Nat := 1
    let imm : Nat := 7
    let x : Nat := 0x100000105
    let w : Nat := 0x1000001050007
    (oarRuns n s) ∧
    (x % 2 ^ 32 = ((s.oarN n).gr ga).toNat) ∧
    ((x : Int) - s.xing.num < 2 ^ 31) ∧
    (-(2 ^ 31 : Int) ≤ (x : Int) - s.xing.num) ∧
    (w = x * 65536 + imm % 65536)) ∧
    (let s : State := { oarS 2 (oarO 0x105 0 0 []) {} with xing := { State.reset.xing with num := 0x100000200, valid := true } }
    let n : Nat := 2
    let ga : Nat := 1
    let imm : Nat := 7
    let x : Nat := 0x100000105
    let w : Nat := 0x1000001050007
    (oarRuns n s) ∧
    (x % 2 ^ 32 = ((s.oarN n).gr ga).toNat) ∧
    ((x : Int) - s.xing.num < 2 ^ 31) ∧
    (-(2 ^ 31 : Int) ≤ (x : Int) - s.xing.num) ∧
    (w = x * 65536 + imm % 65536)) ∧
    (let s : State := { State.setOar State.reset 2 { st := .waiting, wait := .crossing 3 5000 } with xing := { State.reset.xing with num := 1, valid := true } }
    let n : Nat := 2
    let gd : Nat := 3
    let w : Nat := 5000
    ((s.oarN n).wait = .crossing gd w) ∧
    (w ≤ s.xt)) ∧
    (let s : State := oarS 2 (oarO 0x105 0 0 []) {}
    let n : Nat := 2
    (oarRuns n s)) ∧
    (let s : State := { State.setOar State.reset 2 { st := .waiting, wait := .micros 5000 } with clk := { mono := 5000 } }
    let n : Nat := 2
    let w : Nat := 5000
    ((s.oarN n).wait = .micros w) ∧
    (w ≤ s.clk.mono)) ∧
    (let s : State := State.set (oarS 2 (oarO 0x105 0 0 []) { events := [418] }) ⟨oarEvtEn, 31, 0⟩ 0xFFFFFFFF
    let n : Nat := 2
    (oarRuns n s) ∧
    (n < 16)) ∧
    (let s : State := oarS 2 (oarO 0x105 0 0 []) { events := [418] }
    let n : Nat := 2
    (oarRuns n s) ∧
    (n < 16)) ∧
    (let s : State := { State.setGrp (oarS 2 (oarO 0x105 0 0 [5]) {}) 3 { st := .opened, issuer := 2 } with flows := [(3, .oarsman 2), (4, .thread 2)] }
    let n : Nat := 2
    (oarRuns n s) ∧
    (n < 16) ∧
    ((s.oarN n).pc < 4096) ∧
    (s.txn.used = [])) :=
  by and_intros <;> decide +kernel

/-- The hypotheses of OarsmanJobsAndCommitGroups are met, clause by clause. -/
theorem witness_OarsmanJobsAndCommitGroups :
    (let s : State := oarS 2 (oarO 0x100 0 0 ([3, 0, 0, 4] ++ be 8 0 ++ [0, 5, 2, 0, 0, 0, 3, 0])) {}
    let n : Nat := 2
    let gd : Nat := 3
    let ga : Nat := 1
    let a : Nat := 0x100
    let k : Nat := 0
    let d : HashDesc := { func := 3, c0 := false, keySrc := 0, outLen := 4, key := 0, cust := 0, inLen := 5, outAddr := 0x200, inAddr := 0x300, pad := 0 }
    (oarRuns n s) ∧
    (gd ≠ 0) ∧
    (a = ((s.oarN n).gr ga).toNat) ∧
    (a + 32 ≤ 0x2000) ∧
    (d = (s.oarN n).hashDesc a) ∧
    (d.ok n = true) ∧
    (d.inRange = true) ∧
    (s.hashGranted n d = true) ∧
    ((s.oarN n).freeTag = some k)) ∧
    (let s : State := State.setSlot (oarS 2 { oarO 0x100 0 0 ([2, 1, 0, 4] ++ be 4 3 ++ be 4 0x41424344 ++ [0, 5, 2, 0, 0, 0, 3, 0]) with jobs := [(0, some {})] } { keys := [3] }) 3 { attr := 0x80000001, key := keyA }
    let n : Nat := 2
    let gd : Nat := 3
    let ga : Nat := 1
    let a : Nat := 0x100
    let k : Nat := 1
    let d : HashDesc := { func := 2, c0 := false, keySrc := 1, outLen := 4, key := 3, cust := 0x41424344, inLen := 5, outAddr := 0x200, inAddr := 0x300, pad := 0 }
    (oarRuns n s) ∧
    (gd ≠ 0) ∧
    (a = ((s.oarN n).gr ga).toNat) ∧
    (a + 32 ≤ 0x2000) ∧
    (d = (s.oarN n).hashDesc a) ∧
    (d.ok n = true) ∧
    (d.inRange = true) ∧
    (s.hashGranted n d = true) ∧
    ((s.oarN n).freeTag = some k)) ∧
    (let s : State := oarS 2 { oarO 0x100 0 0 ([3, 0, 0, 4] ++ be 8 0 ++ [0, 5, 2, 0, 0, 0, 3, 0]) with jobs := [(0, some {}), (1, some {}), (2, some {}), (3, some {})] } {}
    let n : Nat := 2
    let ga : Nat := 1
    let a : Nat := 0x100
    let d : HashDesc := { func := 3, c0 := false, keySrc := 0, outLen := 4, key := 0, cust := 0, inLen := 5, outAddr := 0x200, inAddr := 0x300, pad := 0 }
    (oarRuns n s) ∧
    (a = ((s.oarN n).gr ga).toNat) ∧
    (a + 32 ≤ 0x2000) ∧
    (d = (s.oarN n).hashDesc a) ∧
    (d.ok n = true) ∧
    (d.inRange = true) ∧
    (s.hashGranted n d = true) ∧
    ((s.oarN n).freeTag = none)) ∧
    (let s : State := oarS 2 { oarO 1 0 0 [] with jobs := [(1, some { result := some 2 })] } {}
    let n : Nat := 2
    let ga : Nat := 1
    let k : Nat := 1
    let j : HashJob := { result := some 2 }
    (oarRuns n s) ∧
    (k = ((s.oarN n).gr ga).toNat) ∧
    (smGet none (s.oarN n).jobs k = some j)) ∧
    (let s : State := oarS 2 { oarO 1 0 0 [] with jobs := [(1, some {})] } {}
    let n : Nat := 2
    let ga : Nat := 1
    let k : Nat := 1
    let j : HashJob := {}
    (oarRuns n s) ∧
    (k = ((s.oarN n).gr ga).toNat) ∧
    (smGet none (s.oarN n).jobs k = some j)) ∧
    (let s : State := { oarS 2 { oarO 1 0 0 [] with jobs := [(1, some { outAddr := 0x101, out := [1, 2, 3] })] } {} with pwr := { serving := [(2, 1, 0)] } }
    let n : Nat := 2
    let k : Nat := 1
    let code : Nat := 0
    let j : HashJob := { outAddr := 0x101, out := [1, 2, 3] }
    let p : Bool := false
    (smGet none (s.oarN n).jobs k = some j) ∧
    (j.result = none) ∧
    ((s.pwr.serving.find? fun x => x.1 == n && x.2.1 == k) = some (n, k, j.ord)) ∧
    (code = (if p = true then 3 else j.code)) ∧
    (obElse (s.oarN n) k = true)) ∧
    (let s : State := { oarS 2 { oarO 1 0 0 [] with jobs := [(1, some { outAddr := 0x101, out := [1, 2, 3] })] } {} with pwr := { serving := [(2, 1, 0)] } }
    let n : Nat := 2
    let k : Nat := 1
    let code : Nat := 3
    let j : HashJob := { outAddr := 0x101, out := [1, 2, 3] }
    let p : Bool := true
    (smGet none (s.oarN n).jobs k = some j) ∧
    (j.result = none) ∧
    ((s.pwr.serving.find? fun x => x.1 == n && x.2.1 == k) = some (n, k, j.ord)) ∧
    (code = (if p = true then 3 else j.code)) ∧
    (obElse (s.oarN n) k = true)) ∧
    (let s : State := oarS 2 { oarO 1 0 0 [] with jobs := [(1, some {})] } {}
    let n : Nat := 2
    let k : Nat := 1
    ((s.pwr.serving.find? fun x => x.1 == n && x.2.1 == k) = none)) ∧
    (let s : State := State.setOar { State.reset with pwr := { serving := [(2, 1, 0)] } } 2 { oarO 1 0 0 [] with st := .waiting, wait := .job 3 1, jobs := [(1, some { code := 1 })] }
    let n : Nat := 2
    let gd : Nat := 3
    let k : Nat := 1
    let code : Nat := 1
    let j : HashJob := { code := 1 }
    let p : Bool := false
    (gd ≠ 0) ∧
    (smGet none (s.oarN n).jobs k = some j) ∧
    (j.result = none) ∧
    ((s.pwr.serving.find? fun x => x.1 == n && x.2.1 == k) = some (n, k, j.ord)) ∧
    (code = (if p = true then 3 else j.code)) ∧
    ((s.oarN n).wait = .job gd k)) ∧
    (let s : State := State.setGrp (oarS 2 (oarO 1 0 0 []) {}) 0 { st := .opened }
    let n : Nat := 2
    let imm : Nat := 0
    let g : Nat := 1
    (oarRuns n s) ∧
    (s.warned = false) ∧
    ((imm % 2 = 1 → n = 12 ∨ n = 13)) ∧
    ((((if imm % 2 = 1 then [60, 61, 62, 63] else List.range 60).find? fun g => !(s.grp g).held) = some g))) ∧
    (let s : State := State.setGrp (oarS 13 (oarO 1 0 0 []) {}) 60 { st := .opened }
    let n : Nat := 13
    let imm : Nat := 1
    let g : Nat := 61
    (oarRuns n s) ∧
    (s.warned = false) ∧
    ((imm % 2 = 1 → n = 12 ∨ n = 13)) ∧
    ((((if imm % 2 = 1 then [60, 61, 62, 63] else List.range 60).find? fun g => !(s.grp g).held) = some g))) ∧
    (let s : State := oarS 2 (oarO 1 0 0 []) {}
    let n : Nat := 2
    let imm : Nat := 1
    (oarRuns n s) ∧
    (s.warned = true ∨ (imm % 2 = 1 ∧ n ≠ 12 ∧ n ≠ 13))) ∧
    (let s : State := State.set (oarS 13 (oarO 1 0 0 []) {}) pwrStat_WARN 1
    let n : Nat := 13
    let imm : Nat := 1
    (oarRuns n s) ∧
    (s.warned = true ∨ (imm % 2 = 1 ∧ n ≠ 12 ∧ n ≠ 13))) ∧
    (let s : State := State.setGrp (oarS 12 (oarO 0x100 0 0 ([9, 0, 0, 8] ++ be 4 0 ++ be 4 4)) {}) 5 { st := .opened, issuer := 12 }
    let n : Nat := 12
    let ga : Nat := 1
    let g : Nat := 5
    let a : Nat := 0x100
    let x : Action := { kind := 9, len := 8, target := 4, data := be 16 0 }
    (oarRuns n s) ∧
    (g < 64) ∧
    (a = ((s.oarN n).gr ga).toNat) ∧
    (a + 32 ≤ 0x2000) ∧
    (x = Action.ofBytes (getBytes (s.oarN n).mem a 32)) ∧
    (s.warned = false) ∧
    ((s.grp g).st = .opened) ∧
    ((s.grp g).issuer = n) ∧
    (s.actionValid g n x = true) ∧
    ((s.grp g).actions.length < 256) ∧
    (s.placesUsed false < 7168) ∧
    (s.conflict g x = false) ∧
    (s.actionCredit x = true)) ∧
    (let s : State := State.setGrp (oarS 12 (oarO 0x100 0 0 []) {}) 5 { st := .opened, issuer := 12, actions := [{ kind := 9, len := 8, target := 4, data := be 8 1 }] }
    let n : Nat := 12
    let gd : Nat := 3
    let g : Nat := 5
    (oarRuns n s) ∧
    (gd ≠ 0) ∧
    (g < 64) ∧
    (s.warned = false) ∧
    ((s.grp g).st = .opened) ∧
    ((s.grp g).issuer = n) ∧
    ((s.grp g).actions.any Action.late = false) ∧
    (s.val.group = none)) ∧
    (let s : State := State.setGrp (oarS 12 (oarO 0x100 0 0 []) {}) 5 { st := .opened, issuer := 12, actions := [{ kind := 9, len := 8, target := 4, data := be 8 1 }] }
    let n : Nat := 12
    let gd : Nat := 3
    let g : Nat := 5
    (oarRuns n s) ∧
    (gd ≠ 0) ∧
    (g < 64) ∧
    ((s.grp g).st = .opened) ∧
    ((s.grp g).issuer = n)) ∧
    (let s : State := State.setGrp (oarS 12 (oarO 0x100 0 0 []) {}) 5 { st := .visible, issuer := 12 }
    let n : Nat := 12
    let g : Nat := 5
    (oarRuns n s) ∧
    (g < 64) ∧
    ((s.grp g).issuer = n) ∧
    ((s.grp g).st ≠ .free)) ∧
    (let s : State := State.setGrp (oarS 12 (oarO 0x100 0 0 []) {}) 5 { st := .durable, issuer := 12 }
    let n : Nat := 12
    let g : Nat := 5
    (oarRuns n s) ∧
    (g < 64) ∧
    ((s.grp g).issuer = n) ∧
    ((s.grp g).st ≠ .free)) :=
  by and_intros <;> decide +kernel

/-- The hypotheses of OarsmanIsRestartedHaltedAndDebugged are met, clause by clause. -/
theorem witness_OarsmanIsRestartedHaltedAndDebugged :
    (let s : State := State.setOar (oarS 2 {} { data := [5, 6, 7] }) 2 { oarO 1 2 3 [9] with st := .trapped, latches := [4] }
    let i : Iface := .core 0
    let n : Nat := 2
    (n < 16) ∧
    (s.mayAccess i (oarCtrl n) true = true) ∧
    (s.oarControl i n = true) ∧
    ((s.oarN n).st = .trapped ∨ (s.oarN n).st = .halted)) ∧
    (let s : State := State.setOar State.reset 2 { oarO 1 2 3 [9] with st := .running }
    let i : Iface := .core 0
    let n : Nat := 2
    (n < 16) ∧
    (s.mayAccess i (oarCtrl n) true = true) ∧
    (s.oarControl i n = true)) ∧
    (let s : State := State.setOar (oarS 12 {} { data := [5, 6, 7] }) 12 { oarO 1 2 3 [9] with st := .trapped, latches := [4] }
    let n : Nat := 12
    (n = 12 ∨ n = 13) ∧
    ((s.oarN n).st = .trapped)) ∧
    (let s : State := State.setOar State.reset 2 { oarO 1 2 3 [9] with st := .running }
    let n : Nat := 2
    (s.oarControl .ebfin n = true)) ∧
    (let s : State := { State.setOar State.reset 2 { oarO 1 2 3 [9] with st := .halted } with man := { State.reset.man with oar := [(2, { code := [0x40440400, 0] })] } }
    let n : Nat := 2
    let w : Word := 0x40440400
    (s.oarControl .ebfin n = true) ∧
    ((s.oarN n).st = .halted) ∧
    ((smGet {} s.man.oar n).code[(s.oarN n).pc]? = some w) ∧
    (bitsOf w 31 26 = 0x10)) ∧
    (let s : State := { State.setOar State.reset 2 { oarO 1 2 3 [9] with st := .halted } with man := { State.reset.man with oar := [(2, { code := [0x5C000000, 0] })] } }
    let n : Nat := 2
    let w : Word := 0x5C000000
    (s.oarControl .ebfin n = true) ∧
    ((s.oarN n).st = .halted) ∧
    ((s.oarN n).pc < 4096) ∧
    ((smGet {} s.man.oar n).code[(s.oarN n).pc]? = some w) ∧
    (bitsOf w 31 26 ∈ [0x17, 0x27, 0x2F, 0x36, 0x37, 0x3D, 0x3F]) ∧
    (s.txn.used = [])) ∧
    (let s : State := State.setOar State.reset 2 { oarO 1 2 3 [9] with st := .halted }
    let n : Nat := 2
    let r : Nat := 0
    (s.oarControl .ebfin n = true) ∧
    (r < 16)) ∧
    (let s : State := State.setOar State.reset 2 { oarO 1 2 3 [9] with st := .halted }
    let n : Nat := 2
    let a : Nat := 0x100
    (s.oarControl .ebfin n = true) ∧
    (a < 0x2000)) :=
  by and_intros <;> decide +kernel

/-- The hypotheses of RegistersAreReachedOverTheFabric are met, clause by clause. -/
theorem witness_RegistersAreReachedOverTheFabric :
    (let s : State := oarS 2 (oarO 0x1300020 0xFFFF1234 7 []) { access := [{ lo := 0x1300000, hi := 0x13000FF, write := true }] }
    let n : Nat := 2
    let ga : Nat := 1
    let imm : Nat := 3
    let a : Nat := 0x1300020
    let d : RegDesc := { base := pwrEvtEn, dims := [], fields := [⟨15, 0, .rw⟩] }
    (oarRuns n s) ∧
    (a = ((s.oarN n).gr ga + BitVec.ofInt 32 (toSigned 18 imm)).toNat / 4 * 4) ∧
    (a ∈ plainEnables) ∧
    (regDesc? a = some d) ∧
    (s.mayAccess (.oarsman n) a true = true)) ∧
    (let s : State := State.setReg (oarS 2 (oarO 0x1300020 0 7 []) { access := [{ lo := 0, hi := 0x13FFFFF }] }) 0x1300020 0x5A
    let n : Nat := 2
    let ga : Nat := 1
    let imm : Nat := 3
    let a : Nat := 0x1300020
    (oarRuns n s) ∧
    (a = ((s.oarN n).gr ga + BitVec.ofInt 32 (toSigned 18 imm)).toNat / 4 * 4) ∧
    (a ∈ plainEnables) ∧
    (s.mayAccess (.oarsman n) a false = true)) ∧
    (let s : State := oarS 2 (oarO 0x1300020 0xFFFF1234 7 []) {}
    let n : Nat := 2
    let ga : Nat := 1
    let imm : Nat := 3
    let a : Nat := 0x1300020
    (oarRuns n s) ∧
    (n < 16) ∧
    (s.txn.used = []) ∧
    (a ∈ plainEnables) ∧
    (a = ((s.oarN n).gr ga + BitVec.ofInt 32 (toSigned 18 imm)).toNat / 4 * 4) ∧
    (s.mayAccess (.oarsman n) a false = false) ∧
    (s.mayAccess (.oarsman n) a true = false)) :=
  by and_intros <;> decide +kernel

/-- The hypotheses of HoldBlocksArePlacedMergedAndRetired are met, clause by clause. -/
theorem witness_HoldBlocksArePlacedMergedAndRetired :
    (let s : State := hldS [(1, { use := .log 7, pe := 2 })] []
    let l : Nat := 0x300000001
    let page : Nat := 5
    let d : Nat := 0
    (s.tst.entries = []) ∧
    (s.nandWaits (.place l page) = false) ∧
    (s.dataBlk l = none) ∧
    (s.takeFree (s.lkeyPool l) = some d)) ∧
    (let s : State := hldS [(1, { use := .data 0x300000001, pe := 2 }), (2, { use := .log 0x300000001, pages := [4] })] [(0x300000001, some 1)]
    let l : Nat := 0x300000001
    let page : Nat := 5
    let g : Nat := 2
    let old : Nat := 1
    (s.tst.entries = []) ∧
    (s.nandWaits (.place l page) = false) ∧
    (s.dataBlk l = some old) ∧
    (s.openLog l = some g) ∧
    ((s.blk g).pages.length + 1 < s.lbPages l)) ∧
    (let s : State := { hldS [] [] with nand := { pages := [{ lkey := 7, page := 3, window := some 100 }] }, clk := { mono := 100 } }
    let l : Nat := 7
    let page : Nat := 3
    let w : Nat := 100
    let x : PageBuf := { lkey := 7, page := 3, window := some 100 }
    (x ∈ s.nand.pages) ∧
    (x.lkey = l) ∧
    (x.page = page) ∧
    (x.due = false) ∧
    (x.window = some w) ∧
    (x.opened + w ≤ s.clk.mono)) ∧
    (let s : State := { hldS [] [] with lgb := { buf := [{ num := 4 }, { num := 5 }], next := 6 } }
    let k : Nat := 1
    (s.tst.entries = []) ∧
    (s.journalWaits = false) ∧
    (s.nandWaits .mapRec = false) ∧
    (k ≤ s.lgb.buf.length)) ∧
    (let s : State := hldS [(1, { use := .erasing, pe := 2 })] []
    let b : Nat := 1
    (s.tst.entries = []) ∧
    (s.journalWaits = false) ∧
    (s.nandWaits (.erase b) = false) ∧
    ((s.blk b).use = .erasing ∨ ((s.blk b).use = .flushArea ∧ s.flushReusable = true))) ∧
    (let s : State := hldS [(1, { use := .erasing, pe := 2 }), (2, { use := .data 7, pe := 1 })] []
    let b : Nat := 1
    (s.tst.entries = []) ∧
    (s.nandWaits (.erase b) = false) ∧
    (s.mergeDue = none) ∧
    ((s.hld.blocks.all fun p => !p.2.refresh) = true) ∧
    ((s.blk b).use = .erasing) ∧
    (smGet 0 s.hld.erases (s.poolOf b) + 1 < 64)) ∧
    (let s : State := hldS [(1, { use := .data 7, pe := 2 })] [(7, some 1)]
    let bits : Nat := 48
    (s.tst.entries = []) ∧
    (bits ≤ 48)) ∧
    (let s : State := hldS [(1, { use := .data 7, pe := 2 })] [(7, some 1)]
    let bits : Nat := 10
    (s.tst.entries = []) ∧
    (bits ≤ 48)) ∧
    (let s : State := hldS [(1, { use := .data 7, pe := 2 })] [(7, some 1)]
    let bits : Nat := 49
    (s.tst.entries = []) ∧
    (48 < bits)) ∧
    (let s : State := { hldS [(1, { use := .data 7 }), (2, { use := .log 7, pages := [4] }), (3, { use := .dest 7 })] [(7, some 1)] with hld := { (hldS [(1, { use := .data 7 }), (2, { use := .log 7, pages := [4] }), (3, { use := .dest 7 })] [(7, some 1)]).hld with merges := [{ lb := 7, logBlk := some 2, dst := 3, startedAt := 0, move := false, logged := true }] } }
    let l : Nat := 7
    let m : Merge := { lb := 7, logBlk := some 2, dst := 3, startedAt := 0, move := false, logged := true }
    ((s.hld.merges.find? fun m => m.lb == l) = some m) ∧
    (s.nandWaits (.merge l) = false) ∧
    (m.logged = true) ∧
    ((s.hld.merges.any fun x => x.lb == l && x.drop) = false) ∧
    ((s.hld.blocks.all fun p => !p.2.refresh) = true) ∧
    (s.onlyFullLog m.logBlk = true)) ∧
    (let s : State := { w0 [(pwrStat_HOLD_OK, 1)] with pwr := { verified := true, trained := true } }
    (s.pwr.verified = true) ∧
    (s.pwr.trained = true) ∧
    (s.pwr.mounted = false) ∧
    (s.flag pwrStat_STORAGE_FAIL = false) ∧
    (s.flag mftStat_RESCUE = false) ∧
    (s.warned = false) ∧
    (s.flag pwrStat_HOLD_OK = true ∨ s.pwr.waited = true)) ∧
    (let s : State := { w0 [(pwrStat_HOLD_OK, 1)] with pwr := { verified := true, trained := true } }
    (s.pwr.verified = true) ∧
    (s.pwr.trained = true) ∧
    (s.pwr.mounted = false) ∧
    (s.flag pwrStat_STORAGE_FAIL = false) ∧
    (s.flag mftStat_RESCUE = false) ∧
    (s.warned = false) ∧
    (s.flag pwrStat_HOLD_OK = true ∨ s.pwr.waited = true)) ∧
    (let s : State := { w0 [(pwrStat_HOLD_OK, 1)] with pwr := { verified := true, trained := true } }
    (s.pwr.verified = true) ∧
    (s.pwr.trained = true) ∧
    (s.pwr.mounted = false) ∧
    (s.flag pwrStat_STORAGE_FAIL = false) ∧
    (s.flag mftStat_RESCUE = false) ∧
    (s.warned = false) ∧
    (s.flag pwrStat_HOLD_OK = true ∨ s.pwr.waited = true)) :=
  by and_intros <;> decide +kernel

/-- The hypotheses of HoldCommandsReadDiscardAndTrim are met, clause by clause. -/
theorem witness_HoldCommandsReadDiscardAndTrim :
    (let s : State := { State.setReg (State.setReg State.reset hldCmdAddrHi 0x03000000) hldCmdLen 0x4000 with man := { State.reset.man with regions := [(3, { size := 0x8000 })], priv := [(0, { hold := [3] })] } }
    let i : Iface := .core 0
    let a : Nat := 0x0300000000000000
    let len : Nat := 0x4000
    (s.mayAccess i hldCmd true = true) ∧
    (s.hld.op = none) ∧
    (a = (s.reg hldCmdAddrHi).toNat * 2 ^ 32 + (s.reg hldCmdAddrLo).toNat) ∧
    (len = (s.reg hldCmdLen).toNat)) ∧
    (let s : State := { State.reset with hld := { op := some (1, 0x0300000000000010, 4, 128, 0), poisonPages := [0x3000000000000] }, live := { bytes := putBytes [] 0x0300000000000010 [5, 0, 7, 8] }, dram := putBytes [] 126 [1, 2, 3, 4, 5, 6, 7, 8], man := { State.reset.man with regions := [(3, { size := 0x8000 })], blockBytes := 0x10000 } }
    let a : Nat := 0x0300000000000010
    let len : Nat := 4
    let dram : Nat := 128
    let w : Nat := 0
    (s.hld.op = some (1, a, len, dram, w)) ∧
    (s.nandWaits .read = false) ∧
    (dram + len ≤ s.dramTop)) ∧
    (let s : State := { State.reset with hld := { op := some (2, 0x0300000000004000, 4, 128, 0) }, live := { bytes := putBytes [] 0x0300000000003FFF [5, 6, 7, 8, 9, 10] }, man := { State.reset.man with regions := [(3, { size := 0x8000 })] } }
    let a : Nat := 0x0300000000004000
    let len : Nat := 4
    let dram : Nat := 128
    let w : Nat := 0
    (s.hld.op = some (2, a, len, dram, w))) ∧
    (let s : State := { State.reset with hld := { op := some (3, 0x0300000000000040, 0, 128, 0) }, live := { streams := [(3, { tail := 128, recs := [(0, [1]), (64, [2])] })] }, man := { State.reset.man with regions := [(3, { size := 0x8000, stream := true, keep := true })] } }
    let a : Nat := 0x0300000000000040
    let len : Nat := 0
    let dram : Nat := 128
    let w : Nat := 0
    let r : Nat := 3
    (s.hld.op = some (3, a, len, dram, w)) ∧
    (r = a / 2 ^ 56)) ∧
    (let s : State := { State.reset with live := { streams := [(3, { tail := 128, recs := [(0, [1]), (64, [2])], fullSeen := true })] }, man := { State.reset.man with regions := [(3, { size := 0x8000, stream := true, keep := true })] } }
    let i : Iface := .core 0
    let v : Word := 3
    let r : Nat := 3
    let st : Stream := { tail := 128, recs := [(0, [1]), (64, [2])], fullSeen := true }
    (s.mayAccess i hldStrSel true = true) ∧
    (r = bitsOf v 3 0) ∧
    (st = (if r = s.man.logRegion then s.lgb.stream else s.str r)) ∧
    ((s.man.region r).stream = true) ∧
    (st.tail - st.head ≤ (s.man.region r).size) ∧
    ((s.man.region r).size ≠ 0)) ∧
    (let s : State := { State.reset with lgb := { ring := [{ num := 4 }] }, man := { State.reset.man with regions := [(5, { size := 0x8000, stream := true })] } }
    let i : Iface := .core 0
    let v : Word := 5
    let r : Nat := 5
    let st : Stream := { tail := 320 }
    (s.mayAccess i hldStrSel true = true) ∧
    (r = bitsOf v 3 0) ∧
    (st = (if r = s.man.logRegion then s.lgb.stream else s.str r)) ∧
    ((s.man.region r).stream = true) ∧
    (st.tail - st.head ≤ (s.man.region r).size) ∧
    ((s.man.region r).size ≠ 0)) ∧
    (let s : State := w0 [(hldEcc_UNCORR, 9), (hldEcc_REFRESH, 4)]
    let i : Iface := .core 0
    (s.mayAccess i hldEcc true = true)) ∧
    (let s : State := { w0 [(pwrStat_WARN, 1), (pwrStat_FLUSHING, 1)] with pwr := { mounted := true }, cmt := { next := 4, journal := [{ typ := 1, group := 5, jseq := 3 }] }, lgb := { buf := [{ num := 4 }], next := 5 } }
    (s.warned = true) ∧
    (s.pwr.mounted = true) ∧
    (s.pwr.flushed = false) ∧
    (s.pwr.cause = none) ∧
    (s.pwr.porst = false)) :=
  by and_intros <;> decide +kernel

/-- The hypotheses of LogbookIsReadAndCleared are met, clause by clause. -/
theorem witness_LogbookIsReadAndCleared :
    (let s : State := { State.reset with lgb := { first := 4, next := 6, ring := [{ num := 4, typ := 5, opsec := 9000, payload := List.replicate 48 7 }, { num := 5 }] } }
    let i : Iface := .core 0
    let w : Nat := 0
    let number : Word := 4
    let r : LogRec := { num := 4, typ := 5, opsec := 9000, payload := List.replicate 48 7 }
    (w < 10) ∧
    (s.mayAccess i (lgbRdSel w) true = true) ∧
    (s.logFind number.toNat = some r)) ∧
    (let s : State := { State.reset with lgb := { first := 5, next := 6, ring := [{ num := 4, typ := 5, opsec := 9000 }, { num := 5 }] } }
    let i : Iface := .core 0
    let w : Nat := 0
    let number : Word := 4
    (w < 10) ∧
    (s.mayAccess i (lgbRdSel w) true = true) ∧
    (s.logFind number.toNat = none)) ∧
    (let s : State := { State.reset with lgb := { clearBusy := true } }
    let i : Iface := .core 0
    (s.mayAccess i lgbClear true = true) ∧
    (s.lgb.clearBusy = true ∨ s.warned = true)) ∧
    (let s : State := w0 [(pwrStat_WARN, 1)]
    let i : Iface := .core 0
    (s.mayAccess i lgbClear true = true) ∧
    (s.lgb.clearBusy = true ∨ s.warned = true)) ∧
    (let s : State := State.reset
    let i : Iface := .core 0
    (s.mayAccess i lgbClear true = true) ∧
    (s.lgb.clearBusy = false) ∧
    (s.warned = false) ∧
    (s.cmt.groups = []) ∧
    (0 < s.lgbRoom) ∧
    (s.sealedRoom 0 = true) ∧
    (0 ≤ smGet 0 s.live.counters 1023) ∧
    (smGet 0 s.live.counters 1023 < 2 ^ 31)) :=
  by and_intros <;> decide +kernel

/-- The hypotheses of KeySlotsAndAttestation are met, clause by clause. -/
theorem witness_KeySlotsAndAttestation :
    (let s : State := keySlotS 9 (fun x => x) 0x0810FF81
    let i : Iface := .core 0
    let n : Nat := 9
    let a : Word := 0x0810FF81
    (s.mayAccess i keyCmd true = true) ∧
    (s.getOf i keyCmdStat_BUSY = 0) ∧
    (n = s.getOf i keySel_SLOT) ∧
    (a = s.reg (regKey i keyNewAttr)) ∧
    (s.keyResult i 1 n = 0)) ∧
    (let s : State := keySlotS 9 (fun x => { x with keys := { x.keys with staged := [(0, 0x01020304), (1, 5), (16, 7)] } }) 0x40200001
    let i : Iface := .core 0
    let n : Nat := 9
    let a : Word := 0x40200001
    (s.mayAccess i keyCmd true = true) ∧
    (s.getOf i keyCmdStat_BUSY = 0) ∧
    (n = s.getOf i keySel_SLOT) ∧
    (a = s.reg (regKey i keyNewAttr)) ∧
    (s.keyResult i 1 n = 0)) ∧
    (let s : State := keySlotS 9 (fun x => x.setSlot 9 { attr := 0xC0100001, key := keyA }) 0
    let i : Iface := .core 0
    let n : Nat := 9
    (s.mayAccess i keyCmd true = true) ∧
    (s.getOf i keyCmdStat_BUSY = 0) ∧
    (n = s.getOf i keySel_SLOT) ∧
    (s.keyResult i 2 n = 0)) ∧
    (let s : State := keySlotS 9 (fun x => x.setSlot 9 { attr := 0xC0100001, key := keyA }) 0
    let i : Iface := .core 0
    let n : Nat := 9
    (s.mayAccess i keyCmd true = true) ∧
    (s.getOf i keyCmdStat_BUSY = 0) ∧
    (n = s.getOf i keySel_SLOT) ∧
    (s.keyResult i 3 n = 0)) ∧
    (let s : State := keySlotS 9 (fun x => x.setSlot 9 { attr := 0x90100010, key := keyA }) 0
    let i : Iface := .core 0
    let n : Nat := 9
    (s.mayAccess i keyCmd true = true) ∧
    (s.getOf i keyCmdStat_BUSY = 0) ∧
    (n = s.getOf i keySel_SLOT) ∧
    (s.keyResult i 4 n = 0)) ∧
    (let s : State := keySlotS 5 (fun x => x) 0
    let i : Iface := .core 0
    let n : Nat := 5
    (s.mayAccess i keyCmd true = true) ∧
    (s.getOf i keyCmdStat_BUSY = 0) ∧
    (n = s.getOf i keySel_SLOT)) ∧
    (let s : State := keySlotS 9 (fun x => x.set pwrStat_WARN 1) 0
    let i : Iface := .core 0
    let n : Nat := 9
    (s.mayAccess i keyCmd true = true) ∧
    (s.getOf i keyCmdStat_BUSY = 0) ∧
    (n = s.getOf i keySel_SLOT)) ∧
    (let s : State := { State.reset with keys := { next := 0x8123456789 } }
    let i : Iface := .core 0
    (s.mayAccess i keyIdxHi false = true)) ∧
    (let s : State := { w0 [(keyIdStat_READY, 1)] with fuses := { State.reset.fuses with identity := true } }
    let i : Iface := .core 0
    let v : Word := 0x80000010
    let r : Nat := 0
    (s.mayAccess i keyAttCtrl true = true) ∧
    (bitsOf v 31 31 = 1) ∧
    (r = (if s.keys.attest.isSome = true then 2 else if s.fuses.identity = false then 3 else if s.noIndex = true then 4
      else if s.warned = true then 5 else 0))) ∧
    (let s : State := { w0 [(keyIdStat_READY, 1)] with fuses := { State.reset.fuses with identity := true }, pwr := { mounted := true }, img := { tables := [(tabResv, [(0, [1])])] }, keys := { next := 3072 }, mft := { inForce := some 0, a := { fw := [{}, {}] } } }
    let i : Iface := .core 0
    let v : Word := 0x80000010
    let r : Nat := 0
    (s.mayAccess i keyAttCtrl true = true) ∧
    (bitsOf v 31 31 = 1) ∧
    (r = (if s.keys.attest.isSome = true then 2 else if s.fuses.identity = false then 3 else if s.noIndex = true then 4
      else if s.warned = true then 5 else 0))) ∧
    (let s : State := { w0 [(keyIdStat_READY, 1)] with fuses := { State.reset.fuses with identity := true }, pwr := { mounted := true }, img := { tables := [(tabResv, [(0, [0x400000])])] }, keys := { next := 0x3FFFFFFFF } }
    let i : Iface := .core 0
    let v : Word := 0x80000010
    let r : Nat := 0
    (s.mayAccess i keyAttCtrl true = true) ∧
    (bitsOf v 31 31 = 1) ∧
    (r = (if s.keys.attest.isSome = true then 2 else if s.fuses.identity = false then 3 else if s.noIndex = true then 4
      else if s.warned = true then 5 else 0))) ∧
    (let s : State := State.reset
    let i : Iface := .core 0
    let v : Word := 0x80000010
    let r : Nat := 3
    (s.mayAccess i keyAttCtrl true = true) ∧
    (bitsOf v 31 31 = 1) ∧
    (r = (if s.keys.attest.isSome = true then 2 else if s.fuses.identity = false then 3 else if s.noIndex = true then 4
      else if s.warned = true then 5 else 0))) ∧
    (let s : State := { State.reset with keys := { attest := some (64, List.replicate 431 0 ++ [9] ++ List.replicate 56 1) }, man := { State.reset.man with dram := 0x80000000 }, dram := putBytes [] 60 (List.replicate 10 7) }
    let a : Nat := 64
    let idx : Nat := 9
    let b : List Byte := List.replicate 431 0 ++ [9] ++ List.replicate 56 1
    (s.keys.attest = some (a, b)) ∧
    (b.length = 488) ∧
    (idx = beAt b 424 8) ∧
    (a + 6093 ≤ s.dramTop)) :=
  by and_intros <;> decide +kernel

/-- The hypotheses of ManifestIsChosenAtStart are met, clause by clause. -/
theorem witness_ManifestIsChosenAtStart :
    (let s : State := mftS (mcopyH 0xF0 1 41) (mcopyH 0xF0 1 42)
    let k : Nat := 1
    (s.get pwrReset_CAUSE ≠ 0) ∧
    (s.pwr.verified = false) ∧
    (s.flag mftStat_RESCUE = false) ∧
    (k < 2) ∧
    (obPreferred s k) ∧
    ((s.copyOf k).st = 0xF0) ∧
    (s.firstFail (s.copyOf k) = none)) ∧
    (let s : State := mftS (mcopyH 0xF0 1 41) {}
    let k : Nat := 0
    (s.get pwrReset_CAUSE ≠ 0) ∧
    (s.pwr.verified = false) ∧
    (s.flag mftStat_RESCUE = false) ∧
    (k < 2) ∧
    (obPreferred s k) ∧
    ((s.copyOf k).st = 0xF0) ∧
    (s.firstFail (s.copyOf k) = none)) ∧
    (let s : State := mftS (mcopyH 0xF0 1 41) (mcopyH 0xFE 1 42)
    let k : Nat := 1
    (s.get pwrReset_CAUSE ≠ 0) ∧
    (s.pwr.verified = false) ∧
    (s.flag mftStat_RESCUE = false) ∧
    (k < 2) ∧
    (obPreferred s k) ∧
    ((s.copyOf k).st ∈ [0xFF, 0xFE, 0xFC]) ∧
    (s.firstFail (s.copyOf k) = none)) ∧
    (let s : State := mftS (mcopyH 0xF0 1 41) (mcopyH 0xF8 1 42)
    let k : Nat := 1
    (s.get pwrReset_CAUSE ≠ 0) ∧
    (s.pwr.verified = false) ∧
    (s.flag mftStat_RESCUE = false) ∧
    (k < 2) ∧
    ((s.copyOf k).good = true) ∧
    ((s.copyOf k).st = 0xF8) ∧
    ((s.copyOf (1 - k)).good = true) ∧
    ((s.copyOf (1 - k)).st = 0xF0) ∧
    ((s.copyOf (1 - k)).seq < (s.copyOf k).seq) ∧
    (s.firstFail (s.copyOf (1 - k)) = none)) ∧
    (let s : State := mftS (mcopyH 0xF0 0 43) (mcopyH 0xF0 1 42)
    let k : Nat := 0
    let f : Nat × Nat × Nat × Nat := (0, 0, 5, 7)
    (s.get pwrReset_CAUSE ≠ 0) ∧
    (s.pwr.verified = false) ∧
    (s.flag mftStat_RESCUE = false) ∧
    (k < 2) ∧
    (obPreferred s k) ∧
    ((s.copyOf k).st = 0xF0) ∧
    (s.firstFail (s.copyOf k) = some f) ∧
    (f.2.2.2 < 256) ∧
    ((s.copyOf (1 - k)).good = true) ∧
    ((s.copyOf (1 - k)).st = 0xF0) ∧
    (s.firstFail (s.copyOf (1 - k)) = none)) ∧
    (let s : State := mftS (mcopyH 0 1 43) {}
    (s.get pwrReset_CAUSE ≠ 0) ∧
    (s.pwr.verified = false) ∧
    (s.flag mftStat_RESCUE = false) ∧
    ((s.copyOf 0).good = false ∨ (s.copyOf 0).st = 0) ∧
    ((s.copyOf 1).good = false ∨ (s.copyOf 1).st = 0)) :=
  by and_intros <;> decide +kernel

/-- The hypotheses of ManifestOperationsStageApplyConfirm are met, clause by clause. -/
theorem witness_ManifestOperationsStageApplyConfirm :
    (let s : State := mftGo (fun s => s.set pwrStat_WARN 1)
    let i : Iface := .core 0
    (s.mayAccess i mftCmd true = true) ∧
    (s.flag mftCmdStat_BUSY = false) ∧
    (s.warned = true)) ∧
    (let s : State := mftGo (fun s => s)
    let i : Iface := .core 0
    (s.mayAccess i mftCmd true = true) ∧
    (s.flag mftCmdStat_BUSY = false) ∧
    (s.warned = false)) ∧
    (let s : State := mftGo (fun s => s)
    let i : Iface := .core 0
    (s.mayAccess i mftCmd true = true) ∧
    (s.flag mftCmdStat_BUSY = false) ∧
    (s.warned = false)) ∧
    (let s : State := mftGo (fun s => s.set mftStat_TRIAL 1)
    let i : Iface := .core 0
    (s.mayAccess i mftCmd true = true) ∧
    (s.flag mftCmdStat_BUSY = false) ∧
    (s.warned = false)) ∧
    (let s : State := mftGo (fun s => { s with mft := { s.mft with staging := some mcopyA } })
    let k : Nat := 0
    let m : MCopy := mcopyA
    (k < 2) ∧
    (s.mft.staging = some m) ∧
    (s.mft.inForce = some k)) ∧
    (let s : State := mftGo (fun s => s)
    let i : Iface := .core 0
    (s.mayAccess i mftCmd true = true) ∧
    (s.flag mftCmdStat_BUSY = false) ∧
    (s.warned = false) ∧
    (s.get pwrReset_CAUSE ≠ 0)) ∧
    (let s : State := mftGo (fun s => s.set mftStat_RESCUE 1)
    let i : Iface := .pcie
    (s.mayAccess i mftCmd true = true) ∧
    (s.flag mftCmdStat_BUSY = false) ∧
    (s.warned = false) ∧
    (s.get pwrReset_CAUSE ≠ 0)) ∧
    (let s : State := mftGo (fun s => { s with mft := { s.mft with applyDue := true }, xing := { s.xing with num := 64 }, pwr := { mounted := true } })
    (s.mft.applyDue = true) ∧
    (s.xing.num % 32 = 0) ∧
    (s.flag bilStat_STAGED = false) ∧
    (s.warned = false) ∧
    (s.get pwrReset_CAUSE ≠ 0) ∧
    (s.pwr.mounted = true)) ∧
    (let s : State := mftGo (fun s => s.set mftStat_TRIAL 1)
    let i : Iface := .core 0
    let k : Nat := 0
    (s.mayAccess i mftCmd true = true) ∧
    (s.flag mftCmdStat_BUSY = false) ∧
    (s.warned = false) ∧
    (s.mft.inForce = some k) ∧
    (k < 2) ∧
    (s.flag mftStat_TRIAL = true)) ∧
    (let s : State := mftGo (fun s => s)
    let i : Iface := .core 0
    let k : Nat := 0
    (s.mayAccess i mftCmd true = true) ∧
    (s.flag mftCmdStat_BUSY = false) ∧
    (s.warned = false) ∧
    (s.mft.inForce = some k) ∧
    (k < 2)) ∧
    (let s : State := mftGo (fun s => { s.set mftStat_TRIAL 1 with pwr := { mounted := true } })
    (s.flag mftStat_TRIAL = true) ∧
    (s.trialLeft = 0) ∧
    (s.warned = false) ∧
    (s.get pwrReset_CAUSE ≠ 0) ∧
    (s.pwr.mounted = true)) :=
  by and_intros <;> decide +kernel

/-- The hypotheses of WarningsRideThroughsAndResets are met, clause by clause. -/
theorem witness_WarningsRideThroughsAndResets :
    (let s : State := { State.setGrp (w0 [(pwrReset_CAUSE, 4), (tstStat_UNLOCKED, 1)]) 5 { st := .opened } with pwr := { mounted := true } }
    (s.warned = false) ∧
    (s.get pwrReset_CAUSE ≠ 0) ∧
    (s.pwr.mounted = true)) ∧
    (let s : State := w0 [(pwrReset_CAUSE, 4), (pwrStat_WARN, 1)]
    (s.warned = true)) ∧
    (let s : State := { w0 [(pwrReset_CAUSE, 4)] with pwr := { mounted := true }, man := { State.reset.man with priv := [(0, { regs := [{ lo := pwrReset, hi := pwrReset, write := true }] })] } }
    let i : Iface := .core 0
    (s.mayAccess i pwrReset true = true) ∧
    (s.warned = false) ∧
    (s.get pwrReset_CAUSE ≠ 0) ∧
    (s.pwr.mounted = true)) ∧
    (let s : State := { w0 [(pwrReset_CAUSE, 4)] with pwr := { mounted := true }, man := { State.reset.man with priv := [(0, { regs := [{ lo := pwrReset, hi := pwrReset, write := true }] })] } }
    let i : Iface := .core 0
    (s.mayAccess i pwrReset true = true) ∧
    (s.warned = false) ∧
    (s.get pwrReset_CAUSE ≠ 0) ∧
    (s.pwr.mounted = true)) ∧
    (let s : State := { w0 [(pwrReset_CAUSE, 4), (pwrStat_WARN, 1)] with pwr := { flushed := true } }
    (s.warned = true) ∧
    (s.pwr.flushed = true) ∧
    (s.pwr.cause = none) ∧
    (s.pwr.porst = false) ∧
    (toSigned 8 (s.get pwrTemp_TJ) < 125)) ∧
    (let s : State := { w0 [(pwrReset_CAUSE, 4), (pwrStat_WARN, 1), (metSealStat_STATE, 1)] with aon := { flushDone := true }, pwr := { mounted := true }, img := { counters := [(4, 5)] }, cmt := { journal := [{ typ := 1, group := 5, jseq := 3 }, { typ := 1, group := 5, jseq := 2, durable := true }] } }
    (s.get pwrReset_CAUSE ≠ 0)) ∧
    (let s : State := w0 [(pwrReset_CAUSE, 4)]
    (s.get pwrReset_CAUSE ≠ 0)) ∧
    (let s : State := w0 [(pwrReset_CAUSE, 4), (pwrStat_WARN, 1)]
    (s.get pwrReset_CAUSE ≠ 0)) ∧
    (let s : State := { w0 [(pwrReset_CAUSE, 4), (pwrStat_WARN, 1)] with pwr := { porst := true, warnAt := 5 }, clk := { mono := 15000005 } }
    (s.get pwrReset_CAUSE ≠ 0) ∧
    (s.pwr.porst = true) ∧
    (s.pwr.warnAt + 15000000 ≤ s.clk.mono)) :=
  by and_intros <;> decide +kernel

/-- The hypotheses of HoldSenseFollowsItsInput are met, clause by clause. -/
theorem witness_HoldSenseFollowsItsInput :
    (let s : State := w0 [(pwrStat_HOLD_OK, 1)]
    let up : Bool := true
    (s.flag pwrStat_HOLD_OK = up)) ∧
    (let s : State := w0 [(pwrEvtEn_EN, 0x3F)]
    (s.flag pwrStat_HOLD_OK = false)) ∧
    (let s : State := w0 [(pwrStat_HOLD_OK, 1), (pwrEvtEn_EN, 0x3F)]
    (s.flag pwrStat_HOLD_OK = true)) :=
  by and_intros <;> decide +kernel

/-- The hypotheses of StartUpIsFollowed are met, clause by clause. -/
theorem witness_StartUpIsFollowed :
    (let s : State := { State.reset with aon := { State.reset.aon with valid := true, cause := 4, rtc := 5000, crossing := 9, since := 3, held := 20000000 } }
    (s.get pwrReset_CAUSE = 0) ∧
    (s.pwr.heat = false) ∧
    (s.aon.valid = true) ∧
    (s.aon.cause < 256)) ∧
    (let s : State := { State.reset with aon := { State.reset.aon with valid := false }, hld := { State.reset.hld with endPcycle := 6, endOpsec := 77 } }
    (s.get pwrReset_CAUSE = 0) ∧
    (s.pwr.heat = false) ∧
    (s.aon.valid = false)) ∧
    (let s : State := { State.reset with pwr := { heat := true } }
    (s.get pwrReset_CAUSE = 0) ∧
    (s.pwr.heat = true)) ∧
    (let s : State := { State.reset with pwr := { verified := true } }
    (s.pwr.verified = true ∨ s.flag mftStat_RESCUE = true)) ∧
    (let s : State := { w0 [(pwrEvtEn_EN, 0x3F)] with pwr := { verified := true } }
    (s.pwr.verified = true) ∧
    (s.pwr.mounted = false) ∧
    (s.pwr.waited = false) ∧
    (s.flag pwrStat_HOLD_OK = false)) :=
  by and_intros <;> decide +kernel

/-- The hypotheses of SupplyAndSensorsAreFollowed are met, clause by clause. -/
theorem witness_SupplyAndSensorsAreFollowed :
    (let s : State := w0 [(pwrTemp_WARN, 0x64), (pwrEvtEn_EN, 0xFF)]
    let tj : Nat := 0x64
    let warn : Int := 100
    let now : Int := 100
    (tj < 256) ∧
    (warn = toSigned 8 (s.get pwrTemp_WARN)) ∧
    (now = toSigned 8 tj)) ∧
    (let s : State := { w0 [(pwrTemp_WARN, 0x64)] with pwr := { heat := true } }
    let tj : Nat := 0xF0
    let warn : Int := 100
    let now : Int := -16
    (tj < 256) ∧
    (warn = toSigned 8 (s.get pwrTemp_WARN)) ∧
    (now = toSigned 8 tj)) ∧
    (let s : State := { w0 [(pwrTemp_WARN, 0x64)] with pwr := { hot := true } }
    let tj : Nat := 0x5F
    let warn : Int := 100
    let now : Int := 95
    (tj < 256) ∧
    (warn = toSigned 8 (s.get pwrTemp_WARN)) ∧
    (now = toSigned 8 tj)) ∧
    (let s : State := w0 [(pwrAvs_VCORE, 700)]
    (s.warned = false) ∧
    (s.pwr.trained = false ∨ s.flag pwrAvs_EN = false)) ∧
    (let s : State := { w0 [(pwrAvs_EN, 1), (pwrAvs_VCORE, 800), (sysProfileStat_ACTIVE, 2)] with pwr := { trained := true } }
    let a : Nat := 500
    let b : Nat := 620
    let c : Nat := 700
    let top : Nat := 2
    let fit : Nat := 2
    let n : Nat := 700
    let v : Nat := 720
    (s.warned = false) ∧
    (s.pwr.trained = true) ∧
    (s.flag pwrAvs_EN = true) ∧
    (top = min 2 (s.get sysProfileStat_ACTIVE)) ∧
    (fit = ([2, 1, 0].find? fun k => decide (k ≤ top) && decide ((if k = 0 then a else if k = 1 then b else c) ≤ 800)).getD 0) ∧
    (n = (if fit = 0 then a else if fit = 1 then b else c)) ∧
    (v = min 800 (max (if fit = 0 then 550 else if fit = 1 then 650 else 720) n))) ∧
    (let s : State := { w0 [(pwrAvs_EN, 1), (pwrAvs_VCORE, 700), (sysProfileStat_ACTIVE, 2), (pwrEvtEn_EN, 0x1FF)] with pwr := { trained := true } }
    let a : Nat := 500
    let b : Nat := 801
    let c : Nat := 900
    let top : Nat := 2
    let fit : Nat := 0
    let n : Nat := 500
    let v : Nat := 550
    (s.warned = false) ∧
    (s.pwr.trained = true) ∧
    (s.flag pwrAvs_EN = true) ∧
    (top = min 2 (s.get sysProfileStat_ACTIVE)) ∧
    (fit = ([2, 1, 0].find? fun k => decide (k ≤ top) && decide ((if k = 0 then a else if k = 1 then b else c) ≤ 800)).getD 0) ∧
    (n = (if fit = 0 then a else if fit = 1 then b else c)) ∧
    (v = min 800 (max (if fit = 0 then 550 else if fit = 1 then 650 else 720) n))) ∧
    (let s : State := { w0 [(pwrAvs_EN, 1), (pwrAvs_VCORE, 700)] with pwr := { trained := true } }
    let a : Nat := 801
    let b : Nat := 801
    let c : Nat := 900
    let top : Nat := 0
    let fit : Nat := 0
    let n : Nat := 801
    let v : Nat := 800
    (s.warned = false) ∧
    (s.pwr.trained = true) ∧
    (s.flag pwrAvs_EN = true) ∧
    (top = min 2 (s.get sysProfileStat_ACTIVE)) ∧
    (fit = ([2, 1, 0].find? fun k => decide (k ≤ top) && decide ((if k = 0 then a else if k = 1 then b else c) ≤ 800)).getD 0) ∧
    (n = (if fit = 0 then a else if fit = 1 then b else c)) ∧
    (v = min 800 (max (if fit = 0 then 550 else if fit = 1 then 650 else 720) n))) ∧
    (let s : State := w0 [(pwrEvtEn_EN, 0xFF)]
    (s.flag pwrStat_VBAT_LOW = false)) ∧
    (let s : State := w0 [(pwrStat_VBAT_LOW, 1)]
    (s.flag pwrStat_VBAT_LOW = true)) ∧
    (let s : State := State.reset
    let i : Iface := .core 0
    let now : Nat := 900
    let least : Nat := 850
    (s.mayAccess i pwrVin false = true) ∧
    (s.reg pwrVin &&& 0xF800F800#32 = 0) ∧
    (now < 2048) ∧
    (least < 2048)) ∧
    (let s : State := w0 [(sysDramEcc_UNCORR, 3), (sysDramEcc_CORR, 4)]
    let i : Iface := .core 0
    (s.mayAccess i sysDramEcc true = true)) :=
  by and_intros <;> decide +kernel

/-- The hypotheses of TestBlockUnlocksAndArms are met, clause by clause. -/
theorem witness_TestBlockUnlocksAndArms :
    (let s : State := tstS (fun s => s)
    let i : Iface := .core 0
    (s.mayAccess i tstCtrl true = true)) ∧
    (let s : State := tstS (fun s => { s with tst := { first := some (0, 5) }, clk := { s.clk with mono := 1000005 } })
    let i : Iface := .core 0
    let ok : Bool := true
    (s.mayAccess i tstCtrl true = true) ∧
    (ok = (match s.tst.first with | some (w, at0) => decide (w = i.window ∧ s.clk.mono - at0 ≤ 1000000) | none => false))) ∧
    (let s : State := tstS (fun s => { s with tst := { first := some (0, 5) }, clk := { s.clk with mono := 1000006 } })
    let i : Iface := .core 0
    let ok : Bool := false
    (s.mayAccess i tstCtrl true = true) ∧
    (ok = (match s.tst.first with | some (w, at0) => decide (w = i.window ∧ s.clk.mono - at0 ≤ 1000000) | none => false))) ∧
    (let s : State := tstS (fun s => { s.set pwrStat_WARN 1 with tst := { first := some (0, 5) }, clk := { s.clk with mono := 6 } })
    let i : Iface := .core 0
    let ok : Bool := true
    (s.mayAccess i tstCtrl true = true) ∧
    (ok = (match s.tst.first with | some (w, at0) => decide (w = i.window ∧ s.clk.mono - at0 ≤ 1000000) | none => false))) ∧
    (let s : State := tstS (fun s => { (s.set tstStat_UNLOCKED 1).set tstStat_ARMED 4 with tst := { entries := [(2, { armed := true, kind := 4 })] } })
    let i : Iface := .core 0
    (s.mayAccess i tstCtrl true = true)) ∧
    (let s : State := tstS (fun s => (s.set tstStat_UNLOCKED 1).setEntry 0 { param := 0x00020003 })
    let i : Iface := .core 0
    let v : Word := 0x04000007
    let n : Nat := 0
    let k : Nat := 4
    let g : Nat := 7
    let a : Nat := 2
    let b : Nat := 3
    (s.mayAccess i tstPcfg true = true) ∧
    (n = s.get tstPsel_ENTRY) ∧
    (k = bitsOf v 27 24) ∧
    (g = bitsOf v 15 0) ∧
    (a = bitsOf (s.entry n).param 31 16) ∧
    (b = bitsOf (s.entry n).param 15 0) ∧
    (s.armResult n k g a b = 0)) ∧
    (let s : State := tstS (fun s => s)
    let i : Iface := .core 0
    let v : Word := 0x04000007
    let n : Nat := 0
    let r : Nat := 1
    (s.mayAccess i tstPcfg true = true) ∧
    (n = s.get tstPsel_ENTRY) ∧
    (r = s.armResult n (bitsOf v 27 24) (bitsOf v 15 0) (bitsOf (s.entry n).param 31 16) (bitsOf (s.entry n).param 15 0)) ∧
    (r ≠ 0)) ∧
    (let s : State := tstS (fun s => s.set tstStat_UNLOCKED 1)
    let i : Iface := .core 0
    let v : Word := 0x0A000007
    let n : Nat := 0
    let r : Nat := 2
    (s.mayAccess i tstPcfg true = true) ∧
    (n = s.get tstPsel_ENTRY) ∧
    (r = s.armResult n (bitsOf v 27 24) (bitsOf v 15 0) (bitsOf (s.entry n).param 31 16) (bitsOf (s.entry n).param 15 0)) ∧
    (r ≠ 0)) ∧
    (let s : State := tstS (fun s => (s.set tstStat_ARMED 1).setEntry 0 { armed := true, kind := 4 })
    let i : Iface := .core 0
    let n : Nat := 0
    (s.mayAccess i tstPcfg true = true) ∧
    (n = s.get tstPsel_ENTRY) ∧
    ((s.entry n).armed = true)) ∧
    (let s : State := tstS (fun s => { (s.set tstStat_ARMED 4).setEntry 2 { armed := true, kind := 4 } with clk := { s.clk with mono := 1000000000 } })
    let n : Nat := 2
    (n < 8) ∧
    ((s.entry n).armed = true) ∧
    ((s.entry n).since + max 1 (min 3600 (s.get tstCtrl_LIMIT)) * 1000000000 ≤ s.clk.mono)) :=
  by and_intros <;> decide +kernel

/-! ### Tags

A tag is the value of KMAC256, long to evaluate, so a hypothesis that a tag is right is shown by these lemmas and not by evaluation. -/

/-- A message of whole form whose tag is that of its own bytes passes the check of R215. -/
theorem check_ok (s : State) (b k h inp : List Byte) (key : Option (List Byte)) (any : Bool) (hk : key = some k)
    (hb : b = h ++ tagOf k inp 16 "GWY1") (hl : h.length = 28 + beAt b 24 2) (hv : beAt b 0 1 = 1) (hh : beAt b 4 2 = s.man.hubId)
    (hi : be 1 (beAt b 2 1 &&& 0xFD) ++ h.drop 3 = inp) : s.gwyCheck b key any = none := by
  subst hk
  have hlen : b.length = 44 + beAt b 24 2 := by rw [hb, List.length_append, tagOf_length, ← hb]; omega
  have hd : b.drop (28 + beAt b 24 2) = tagOf k inp 16 "GWY1" := by
    rw [← hl]; conv_lhs => rw [hb]
    simp
  have hs : slice b 3 (25 + beAt b 24 2) = h.drop 3 := by
    generalize beAt b 24 2 = n at *
    subst hb
    rw [slice, List.drop_append_of_le_length (by omega), List.take_append_of_le_length (by simp; omega), List.take_of_length_le (by simp; omega)]
  simp [State.gwyCheck, hv, hh, hlen, hd, hs, hi]

/-- A message that passes the check is taken, with the state that its sequence and acknowledgements leave. -/
theorem take_ok (s : State) (b : List Byte) (pr : Bool) (hw : s.warned = false)
    (hc : s.gwyCheck b (s.peerKey (beAt b 6 2) (beAt b 3 1)) false = none) (ha : (s.gwyArrive (beAt b 6 2) b).1 = pr) :
    s.gwyTake b = some (pr, takeU s b) := by
  simp [State.gwyTake, hw, hc, ha, takeU]

/-- The next item of a queue that holds one. -/
theorem nextIdx_one (it : Item) : Queue.nextIdx { items := [it], tail := 1 } = some 0 := by simp [Queue.nextIdx, List.range_succ]

/-- The delivery from a queue that holds one item, delivered to nobody yet. -/
theorem deliver_one (s : State) (n : Nat) (it : Item) (hu : s.qUsed n = true) (hq : s.q n = { items := [it], tail := 1 })
    (h1 : it.delayed = false) (h2 : it.redelivered = false) :
    s.deliver n = some (((s.deliver n).getD ({}, s)).1, ((s.deliver n).getD ({}, s)).2) ∧ ((s.deliver n).getD ({}, s)).1 = it := by
  obtain ⟨_, _, _, _, _, _, _, _, _, _, _, _⟩ := it
  simp only at h1 h2
  subst h1 h2
  simp [State.deliver, hu, hq, Queue.deliverable, nextIdx_one]

/-- The bytes of a request's item: what the tag covers, the tag, zeros to whole words. -/
theorem reqItem_bytes (op g seq n : Nat) (body : List Byte) (hn : body.length = n) :
    (mkItem 0 {} (reqItem op g seq body)).bytes =
      reqHead op g seq n body ++ tagOf keyA (reqHead op g seq n body) 16 "TRQ1" ++ List.replicate ((n + 39) / 8 * 8 - (n + 32)) 0 := by
  rw [mkItem_bytes]
  simp only [reqItem, hn]
  congr 2
  simp [reqHead, hn]
  omega

/-- Steps 1 to 4 of R308 pass for a request of whole form whose tag is that of its own bytes. -/
theorem reqGate_ok (s : State) (b h k : List Byte) (n : Nat) (hb : b = h ++ tagOf k h 16 "TRQ1" ++ List.replicate ((n + 39) / 8 * 8 - (n + 32)) 0)
    (hn : beAt b 12 2 = n) (hl : h.length = 16 + n) (hm : beAt b 0 4 = 0x54525131)
    (hf : reqBody (beAt b 4 1) (beAt b 12 2) = true) (hk : s.familyKey (s.get trfCfg_KEY_SLOT) (beAt b 6 1) 0 = some k)
    (hr : rseqCheck (beAt b 8 4) s.rseq.1 s.rseq.2 = 0) : s.reqGate b = 0 := by
  have hlen : b.length = (n + 39) / 8 * 8 := by rw [hb]; simp; omega
  have ht : b.take (16 + n) = h := by rw [hb, ← hl]; simp
  have hs : slice b (16 + n) 16 = tagOf k h 16 "TRQ1" := by
    rw [hb, ← hl, slice, List.append_assoc, List.drop_left, List.take_append_of_le_length (by simp), List.take_of_length_le (by simp)]
  have hform : reqForm b = true := by
    simp only [reqForm, Bool.and_eq_true, decide_eq_true_eq]
    exact ⟨⟨hm, by rw [hn, hlen]⟩, hf⟩
  simp [State.reqGate, hform, hk, hn, ht, hs, hr]

/-- Checks 2 to 10 pass for a credit or debit token with a right check value, whatever the tag function is. -/
theorem tokCheck_ok (s : State) (n c : Nat) (k : List Byte) (hc : c < 2 ^ 50) (hst : (s.acct n).st ≠ 0)
    (hk : s.familyKey s.man.tokenKey (c / 2 ^ 42 % 16) 0 = some k) (hcls : c / 2 ^ 46 % 16 = 0)
    (hlo : s.tokHigh < c / 2 ^ 16 % 2 ^ 26) (hhi : c / 2 ^ 16 % 2 ^ 26 < s.tokHigh + 65536)
    (hb : 0 ≤ (s.acct n).bal + 10000 * ((c % 2 ^ 16 : Nat) : Int) + 2 ^ 62) (hb2 : (s.acct n).bal + 10000 * ((c % 2 ^ 16 : Nat) : Int) ≤ 2 ^ 62) :
    s.tokCheck (c * 2 ^ 16 + ofBe (tagOf k (be 8 (s.acct n).id ++ be 7 c) 2 "TOK1")) n = 0 := by
  have ht := ofBe_lt (tagOf k (be 8 (s.acct n).id ++ be 7 c) 2 "TOK1")
  rw [tagOf_length] at ht
  set T := ofBe (tagOf k (be 8 (s.acct n).id ++ be 7 c) 2 "TOK1") with hT
  have e1 : (c * 2 ^ 16 + T) / 2 ^ 16 = c := by omega
  have e2 : (c * 2 ^ 16 + T) % 2 ^ 16 = T := by omega
  have e3 : (c * 2 ^ 16 + T) / 2 ^ 62 % 16 = 0 := by omega
  have e4 : (c * 2 ^ 16 + T) / 2 ^ 32 % 2 ^ 26 = c / 2 ^ 16 % 2 ^ 26 := by omega
  have e5 : (c * 2 ^ 16 + T) / 2 ^ 58 % 16 = c / 2 ^ 42 % 16 := by omega
  have e6 : ¬ 2 ^ 66 ≤ c * 2 ^ 16 + T := by omega
  unfold State.tokCheck
  simp only [e1, e2, e3, e4, e5, e6, hst, hk, ← hT, if_false, ne_eq, not_true_eq_false]
  generalize c / 2 ^ 16 % 2 ^ 26 = q at *
  generalize c % 2 ^ 16 = r at *
  norm_num at *
  split_ifs <;> omega

/-- The hypotheses of a clause of EthernetPortsTakeFrames are met by a message or request with a right tag, whatever the tag function is. -/
theorem witness_EthernetPortsTakeFrames_5x :
    let l : LaneItem := { item := mkItem 0 {} c0Msg, hold := true }
    let s : State := State.setQ cellChip 5 { lane := [l] }
    let q : Nat := 5
    let d : List Byte := c0Msg
    (((s.q q).lane.find? fun l => l.hold) = some l) ∧
    (d = l.item.bytes.take (44 + beAt l.item.bytes 24 2)) ∧
    (s.gwyCheck d (s.class0Key d) false = none) ∧
    (s.class0Room q d = true) ∧
    ((s.gwyArrive (beAt d 6 2) d).1 = true) ∧
    (s.man.medium q ≠ .gwy ∨ (s.peerOfCell (beAt d 28 1)).isSome = true) := by
  intro l s q d
  have hl : c0Msg.length = 72 := by simp [c0Msg, gwyMsg]
  have hb : (mkItem 0 {} c0Msg).bytes = c0Msg := by rw [mkItem_bytes, hl]; simp
  have h0 : ((s.q q).lane.find? fun l => l.hold) = some l := rfl
  have h1 : d = l.item.bytes.take (44 + beAt l.item.bytes 24 2) := by
    clear h0
    show c0Msg = (mkItem 0 {} c0Msg).bytes.take (44 + beAt (mkItem 0 {} c0Msg).bytes 24 2)
    rw [hb, show beAt c0Msg 24 2 = 28 from by decide +kernel]
    exact (List.take_of_length_le (by omega)).symm
  have h2 : s.gwyCheck d (s.class0Key d) false = none := by
    clear h1 h0
    clear hb hl
    refine check_ok s d keyA _ _ _ _ ?_ rfl ?_ ?_ ?_ ?_
    all_goals decide +revert +kernel
  clear hb hl
  and_intros
  all_goals first | with_reducible assumption | (clear h2 h1 h0; decide +revert +kernel)

/-- The hypotheses of a clause of GangwayChipsAttach are met by a message or request with a right tag, whatever the tag function is. -/
theorem witness_GangwayChipsAttach_1xa :
    let s : State := { hubS with man := { hubS.man with chips := [{ eui := 78, fingerprint := 88, linkKey := 3, domain := 1 }] } }
    let b : List Byte := gwyMsg keyA 1 1 0xFFFE 9 (be 8 78 ++ be 8 88 ++ be 1 2 ++ be 3 0 ++ be 4 9)
    let k : List Byte := keyA
    let c : ChipEnrol := { eui := 78, fingerprint := 88, linkKey := 3, domain := 1 }
    (s.isHub = true) ∧
    (s.warned = false) ∧
    (s.chipEnrol (beAt (gwyBody b) 0 8) = some c) ∧
    (c.eui = beAt (gwyBody b) 0 8) ∧
    (s.familyKey c.linkKey (beAt b 3 1) 0 = some k) ∧
    (s.gwyCheck b (some k) true = none) ∧
    (beAt (gwyBody b) 8 8 = c.fingerprint) ∧
    (beAt (gwyBody b) 16 1 ≤ (s.attachCells c.eui (beAt (gwyBody b) 16 1)).length) := by
  intro s b k c
  have h5 : s.gwyCheck b (some k) true = none := by
    refine check_ok s b keyA _ _ _ _ ?_ rfl ?_ ?_ ?_ ?_
    all_goals decide +revert +kernel
  and_intros
  all_goals first | with_reducible assumption | (clear h5; decide +revert +kernel)

/-- The hypotheses of a clause of GangwayChipsAttach are met by a message or request with a right tag, whatever the tag function is. -/
theorem witness_GangwayChipsAttach_1xb :
    let s : State := State.setPeer hubS 1 { up := true, eui := 77, cells := [4] }
    let b : List Byte := gwyMsg keyA 1 1 0xFFFE 9 (be 8 77 ++ be 8 88 ++ be 1 2 ++ be 3 0 ++ be 4 9)
    let k : List Byte := keyA
    let c : ChipEnrol := { eui := 77, fingerprint := 88, linkKey := 3, domain := 1 }
    (s.isHub = true) ∧
    (s.warned = false) ∧
    (s.chipEnrol (beAt (gwyBody b) 0 8) = some c) ∧
    (c.eui = beAt (gwyBody b) 0 8) ∧
    (s.familyKey c.linkKey (beAt b 3 1) 0 = some k) ∧
    (s.gwyCheck b (some k) true = none) ∧
    (beAt (gwyBody b) 8 8 = c.fingerprint) ∧
    (beAt (gwyBody b) 16 1 ≤ (s.attachCells c.eui (beAt (gwyBody b) 16 1)).length) := by
  intro s b k c
  have h5 : s.gwyCheck b (some k) true = none := by
    refine check_ok s b keyA _ _ _ _ ?_ rfl ?_ ?_ ?_ ?_
    all_goals decide +revert +kernel
  and_intros
  all_goals first | with_reducible assumption | (clear h5; decide +revert +kernel)

/-- The hypotheses of a clause of GangwayChipsAttach are met by a message or request with a right tag, whatever the tag function is. -/
theorem witness_GangwayChipsAttach_2xa :
    let s : State := { hubS with gwy := { attach := 1 } }
    let b : List Byte := gwyMsg keyA 2 1 1 9 (be 1 0 ++ be 1 1 ++ be 2 5 ++ be 12 9)
    (s.warned = false) ∧
    (s.gwy.attach = 1) ∧
    (s.gwyCheck b (s.familyKey s.man.linkKey (beAt b 3 1) 0) false = none) := by
  intro s b
  have h2 : s.gwyCheck b (s.familyKey s.man.linkKey (beAt b 3 1) 0) false = none := by
    refine check_ok s b keyA _ _ _ _ ?_ rfl ?_ ?_ ?_ ?_
    all_goals decide +revert +kernel
  and_intros
  all_goals first | with_reducible assumption | (clear h2; decide +revert +kernel)

/-- The hypotheses of a clause of GangwayChipsAttach are met by a message or request with a right tag, whatever the tag function is. -/
theorem witness_GangwayChipsAttach_2xb :
    let s : State := { hubS with gwy := { attach := 1 } }
    let b : List Byte := gwyMsg keyA 2 1 1 9 (be 1 2 ++ be 15 0)
    (s.warned = false) ∧
    (s.gwy.attach = 1) ∧
    (s.gwyCheck b (s.familyKey s.man.linkKey (beAt b 3 1) 0) false = none) := by
  intro s b
  have h2 : s.gwyCheck b (s.familyKey s.man.linkKey (beAt b 3 1) 0) false = none := by
    refine check_ok s b keyA _ _ _ _ ?_ rfl ?_ ?_ ?_ ?_
    all_goals decide +revert +kernel
  and_intros
  all_goals first | with_reducible assumption | (clear h2; decide +revert +kernel)

/-- The hypotheses of a clause of GangwayChipsAttach are met by a message or request with a right tag, whatever the tag function is. -/
theorem witness_GangwayChipsAttach_7x :
    let s : State := State.setPeer cellChip 0 { up := true, unrelNext := 0xFFFFFFFF }
    let p : Nat := 0
    ((s.peer p).up = true) ∧
    (s.warned = false) ∧
    (s.gwyKeyed p = true) := by
  intro s p
  and_intros
  all_goals first | with_reducible assumption | decide +revert +kernel

/-- The hypotheses of a clause of GangwayChipsAttach are met by a message or request with a right tag, whatever the tag function is. -/
theorem witness_GangwayChipsAttach_8x :
    let s : State := State.setPeer cellChip 0 { ackDue := true }
    let p : Nat := 0
    ((s.peer p).ackDue = true) ∧
    (s.warned = false) ∧
    (s.gwyKeyed p = true) := by
  intro s p
  and_intros
  all_goals first | with_reducible assumption | decide +revert +kernel

/-- The hypotheses of a clause of GangwayMessagesAreTaken are met by a message or request with a right tag, whatever the tag function is. -/
theorem witness_GangwayMessagesAreTaken_1x :
    let s : State := cellChip
    let b : List Byte := gwyMsg keyA 0x0A 0 0 9 (be 6 500 ++ be 4 17 ++ be 2 0)
    let u : State := takeU s b
    (s.gwyTake b = some (true, u)) ∧
    (beAt b 6 2 = 0) := by
  intro s b u
  have h0 : s.gwyTake b = some (true, u) := by
    refine take_ok s b _ (by decide +revert +kernel) (check_ok s b keyA _ _ _ _ ?_ rfl ?_ ?_ ?_ ?_) (by decide +revert +kernel)
    all_goals decide +revert +kernel
  and_intros
  all_goals first | with_reducible assumption | (clear h0; decide +revert +kernel)

/-- The hypotheses of a clause of GangwayMessagesAreTaken are met by a message or request with a right tag, whatever the tag function is. -/
theorem witness_GangwayMessagesAreTaken_2x :
    let s : State := State.set cellChip xingConfig_ANCHOR_EN 1
    let b : List Byte := gwyMsg keyA 3 0 0 9 (be 6 500 ++ be 6 0 ++ be 4 0 ++ be 4 50 ++ be 12 0)
    let u : State := takeU s b
    let x : Nat := 0
    (s.gwyTake b = some (true, u)) ∧
    ((u.gwy.lastAnchor.all fun l => decide (l < beAt (gwyBody b) 0 6)) = true) ∧
    (beAt (gwyBody b) 22 6 * nsPerSec + beAt (gwyBody b) 28 4 ≤ (u.ethRx x).ptp + 1000000) ∧
    ((u.ethRx x).ptp ≤ beAt (gwyBody b) 22 6 * nsPerSec + beAt (gwyBody b) 28 4 + 100000000) ∧
    (u.clockFault 2 = false) ∧
    (u.flag xingConfig_ANCHOR_EN = true) ∧
    (beAt (gwyBody b) 20 1 = u.get xingConfig_GRID_DOMAIN) := by
  intro s b u x
  have h0 : s.gwyTake b = some (true, u) := by
    refine take_ok s b _ (by decide +revert +kernel) (check_ok s b keyA _ _ _ _ ?_ rfl ?_ ?_ ?_ ?_) (by decide +revert +kernel)
    all_goals decide +revert +kernel
  and_intros
  all_goals first | with_reducible assumption | (clear h0; decide +revert +kernel)

/-- The hypotheses of a clause of GangwayMessagesAreTaken are met by a message or request with a right tag, whatever the tag function is. -/
theorem witness_GangwayMessagesAreTaken_3x :
    let s : State := State.set cellChip xingConfig_ANCHOR_EN 1
    let b : List Byte := gwyMsg keyA 4 1 0 1 (be 6 900 ++ be 6 500 ++ be 4 0)
    let u : State := takeU s b
    (s.gwyTake b = some (true, u)) ∧
    (u.flag xingConfig_ANCHOR_EN = true) ∧
    (beAt (gwyBody b) 12 1 = u.get xingConfig_GRID_DOMAIN) ∧
    (u.plc.snapB ≠ beAt (gwyBody b) 0 6) ∧
    (u.xing.num + 96 ≤ beAt (gwyBody b) 6 6) := by
  intro s b u
  have h0 : s.gwyTake b = some (true, u) := by
    refine take_ok s b _ (by decide +revert +kernel) (check_ok s b keyA _ _ _ _ ?_ rfl ?_ ?_ ?_ ?_) (by decide +revert +kernel)
    all_goals decide +revert +kernel
  and_intros
  all_goals first | with_reducible assumption | (clear h0; decide +revert +kernel)

/-- The hypotheses of a clause of GangwayMessagesAreTaken are met by a message or request with a right tag, whatever the tag function is. -/
theorem witness_GangwayMessagesAreTaken_4x :
    let s : State := State.setPeer cellChip 0 { up := true, out := [{ seq := 5 }, { seq := 0xFFFFFFFF }] }
    let b : List Byte := gwyMsg keyA 6 0 0 9 []
    let u : State := takeU s b
    let pr : Bool := true
    (s.gwyTake b = some (pr, u)) ∧
    ((s.peer (beAt b 6 2)).waiting = []) := by
  intro s b u pr
  have h0 : s.gwyTake b = some (pr, u) := by
    refine take_ok s b _ (by decide +revert +kernel) (check_ok s b keyA _ _ _ _ ?_ rfl ?_ ?_ ?_ ?_) (by decide +revert +kernel)
    all_goals decide +revert +kernel
  and_intros
  all_goals first | with_reducible assumption | (clear h0; decide +revert +kernel)

/-- The hypotheses of a clause of GangwayMessagesAreTaken are met by a message or request with a right tag, whatever the tag function is. -/
theorem witness_GangwayMessagesAreTaken_5x :
    let s : State := State.setNode cellChip 0 6 (some { slot := 3, eui := 77 })
    let b : List Byte := gwyMsg keyA 8 1 0 1 (be 8 77 ++ be 1 5 ++ be 1 2 ++ be 2 9)
    let u : State := takeU s b
    let c : Nat := 0
    let ad : Nat := 6
    (s.gwyTake b = some (true, u)) ∧
    (u.joinedAt (beAt (gwyBody b) 0 8) = some (c, ad)) := by
  intro s b u c ad
  have h0 : s.gwyTake b = some (true, u) := by
    refine take_ok s b _ (by decide +revert +kernel) (check_ok s b keyA _ _ _ _ ?_ rfl ?_ ?_ ?_ ?_) (by decide +revert +kernel)
    all_goals decide +revert +kernel
  and_intros
  all_goals first | with_reducible assumption | (clear h0; decide +revert +kernel)

/-- The hypotheses of a clause of GangwayMessagesAreTaken are met by a message or request with a right tag, whatever the tag function is. -/
theorem witness_GangwayMessagesAreTaken_6x :
    let s : State := State.ctxPut hubS 3 0 (be 8 77 ++ be 4 3 ++ be 1 1)
    let b : List Byte := gwyMsg keyA 8 1 0 1 (be 8 77 ++ be 1 200)
    let u : State := takeU s b
    let k : Nat := 3
    (s.gwyTake b = some (true, u)) ∧
    (u.isHub = true) ∧
    (euiOk (beAt (gwyBody b) 0 8) = true) ∧
    (u.liveSlot (beAt (gwyBody b) 0 8) = some k) := by
  intro s b u k
  have h0 : s.gwyTake b = some (true, u) := by
    refine take_ok s b _ (by decide +revert +kernel) (check_ok s b keyA _ _ _ _ ?_ rfl ?_ ?_ ?_ ?_) (by decide +revert +kernel)
    all_goals decide +revert +kernel
  and_intros
  all_goals first | with_reducible assumption | (clear h0; decide +revert +kernel)

/-- The hypotheses of a clause of GangwayMessagesAreTaken are met by a message or request with a right tag, whatever the tag function is. -/
theorem witness_GangwayMessagesAreTaken_7x :
    let s : State := State.ctxPut cellChip 3 0 (be 8 77 ++ be 4 0 ++ be 1 2)
    let b : List Byte := gwyMsg keyA 9 1 0 1 (be 8 77 ++ be 1 2 ++ be 1 0 ++ be 4 9)
    let u : State := takeU s b
    let k : Nat := 3
    (s.gwyTake b = some (true, u)) ∧
    (u.liveSlot (beAt (gwyBody b) 0 8) = some k) ∧
    (beAt (gwyBody b) 9 1 = 0) := by
  intro s b u k
  have h0 : s.gwyTake b = some (true, u) := by
    refine take_ok s b _ (by decide +revert +kernel) (check_ok s b keyA _ _ _ _ ?_ rfl ?_ ?_ ?_ ?_) (by decide +revert +kernel)
    all_goals decide +revert +kernel
  and_intros
  all_goals first | with_reducible assumption | (clear h0; decide +revert +kernel)

/-- The hypotheses of a clause of GangwayMessagesAreTaken are met by a message or request with a right tag, whatever the tag function is. -/
theorem witness_GangwayMessagesAreTaken_8x :
    let s : State := hubS
    let b : List Byte := gwyMsg keyA 5 1 0 1 (be 4 1400 ++ be 4 1500 ++ be 4 7)
    let u : State := takeU s b
    (s.gwyTake b = some (true, u)) ∧
    (s.isHub = true) ∧
    ((s.peer (beAt b 6 2)).judge (beAt b 8 4) = 0) ∧
    ((s.peer (beAt b 6 2)).parts = []) ∧
    ((s.peer (beAt b 6 2)).badSeq ≠ some (beAt b 8 4)) ∧
    (beAt (gwyBody b) 0 4 ≠ 0) := by
  intro s b u
  have h0 : s.gwyTake b = some (true, u) := by
    refine take_ok s b _ (by decide +revert +kernel) (check_ok s b keyA _ _ _ _ ?_ rfl ?_ ?_ ?_ ?_) (by decide +revert +kernel)
    all_goals decide +revert +kernel
  and_intros
  all_goals first | with_reducible assumption | (clear h0; decide +revert +kernel)

/-- The hypotheses of a clause of TariffRequestsChangeCalendars are met by a message or request with a right tag, whatever the tag function is. -/
theorem witness_TariffRequestsChangeCalendars_1x :
    let s : State := reqS (reqItem 1 0 9 []) []
    let it : Item := ((s.deliver 5).getD ({}, s)).1
    let u : State := ((s.deliver 5).getD ({}, s)).2
    let q : Nat := 5
    let g : Nat := 0
    (s.man.roles.tariffIn = q + 1) ∧
    (s.deliver q = some (it, u)) ∧
    (it.poisoned = false) ∧
    (beAt it.bytes 4 1 = 1) ∧
    (s.reqGate it.bytes = 0) ∧
    (g = beAt it.bytes 5 1) ∧
    (g < s.get trfCfg_GROUPS) ∧
    (g ∉ s.trf.fixedAct) ∧
    (s.flag hldStat_MOUNTED = true) := by
  intro s it u q g
  have hd := deliver_one s 5 (mkItem 0 {} (reqItem 1 0 9 [])) rfl (by simp [s, reqS, State.q, State.setQ, State.setSlot]) rfl rfl
  have hit : it = mkItem 0 {} (reqItem 1 0 9 []) := hd.2
  have hb := reqItem_bytes 1 0 9 0 [] rfl
  rw [← hit] at hb
  have h1 : s.deliver q = some (it, u) := hd.1
  have h2 : it.poisoned = false := by rw [hit]; exact mkItem_poisoned _ _ _
  have h4 : s.reqGate it.bytes = 0 := by
    clear h2 h1
    rw [hb]
    clear hb hit hd
    refine reqGate_ok s _ _ keyA 0 rfl ?_ rfl ?_ ?_ ?_ ?_
    all_goals decide +revert +kernel
  and_intros
  all_goals first
    | with_reducible assumption
    | (rw [hb]; clear h4 h2 h1 hb hit hd; decide +revert +kernel)
    | (clear h4 h2 h1 hb hit hd; decide +revert +kernel)

/-- The hypotheses of a clause of TariffRequestsChangeCalendars are met by a message or request with a right tag, whatever the tag function is. -/
theorem witness_TariffRequestsChangeCalendars_2x :
    let c : List Byte := List.replicate calBytes 1
    let s : State := reqS (reqItem 2 0 9 (be 2 2270 ++ be 2 0 ++ be 2 77)) [(0, c)]
    let it : Item := ((s.deliver 5).getD ({}, s)).1
    let u : State := ((s.deliver 5).getD ({}, s)).2
    let q : Nat := 5
    let g : Nat := 0
    (s.man.roles.tariffIn = q + 1) ∧
    (s.deliver q = some (it, u)) ∧
    (it.poisoned = false) ∧
    (beAt it.bytes 4 1 = 2) ∧
    (s.reqGate it.bytes = 0) ∧
    (g = beAt it.bytes 5 1) ∧
    (g < s.get trfCfg_GROUPS) ∧
    (s.calBuilding g = some c) ∧
    (s.flag hldStat_MOUNTED = true) ∧
    (beAt it.bytes 16 2 + (slice it.bytes 20 (beAt it.bytes 12 2 - 4)).length ≤ calBytes) := by
  intro c s it u q g
  have hd := deliver_one s 5 (mkItem 0 {} (reqItem 2 0 9 (be 2 2270 ++ be 2 0 ++ be 2 77))) rfl (by simp [s, reqS, State.q, State.setQ, State.setSlot]) rfl rfl
  have hit : it = mkItem 0 {} (reqItem 2 0 9 (be 2 2270 ++ be 2 0 ++ be 2 77)) := hd.2
  have hb := reqItem_bytes 2 0 9 6 (be 2 2270 ++ be 2 0 ++ be 2 77) rfl
  rw [← hit] at hb
  have h1 : s.deliver q = some (it, u) := hd.1
  have h2 : it.poisoned = false := by rw [hit]; exact mkItem_poisoned _ _ _
  have h4 : s.reqGate it.bytes = 0 := by
    clear h2 h1
    rw [hb]
    clear hb hit hd
    refine reqGate_ok s _ _ keyA 6 rfl ?_ rfl ?_ ?_ ?_ ?_
    all_goals decide +revert +kernel
  and_intros
  all_goals first
    | with_reducible assumption
    | (rw [hb]; clear h4 h2 h1 hb hit hd; decide +revert +kernel)
    | (clear h4 h2 h1 hb hit hd; decide +revert +kernel)

/-- The hypotheses of a clause of TariffRequestsChangeCalendars are met by a message or request with a right tag, whatever the tag function is. -/
theorem witness_TariffRequestsChangeCalendars_3x :
    let c : List Byte := calA
    let s : State := reqS (reqItem 3 0 9 (calHash calA ++ be 6 900 ++ be 2 0)) [(0, c)]
    let it : Item := ((s.deliver 5).getD ({}, s)).1
    let u : State := ((s.deliver 5).getD ({}, s)).2
    let q : Nat := 5
    let g : Nat := 0
    (s.man.roles.tariffIn = q + 1) ∧
    (s.deliver q = some (it, u)) ∧
    (it.poisoned = false) ∧
    (beAt it.bytes 4 1 = 3) ∧
    (s.reqGate it.bytes = 0) ∧
    (g = beAt it.bytes 5 1) ∧
    (g < s.get trfCfg_GROUPS) ∧
    (s.calBuilding g = some c) ∧
    (s.flag hldStat_MOUNTED = true) ∧
    (calHash c = slice it.bytes 16 32) ∧
    (calCheck c g = 0) := by
  intro c s it u q g
  have hd := deliver_one s 5 (mkItem 0 {} (reqItem 3 0 9 (calHash calA ++ be 6 900 ++ be 2 0))) rfl (by simp [s, reqS, State.q, State.setQ, State.setSlot]) rfl rfl
  have hit : it = mkItem 0 {} (reqItem 3 0 9 (calHash calA ++ be 6 900 ++ be 2 0)) := hd.2
  have hb := reqItem_bytes 3 0 9 40 (calHash calA ++ be 6 900 ++ be 2 0) (by simp [calHash])
  rw [← hit] at hb
  have h1 : s.deliver q = some (it, u) := hd.1
  have h2 : it.poisoned = false := by rw [hit]; exact mkItem_poisoned _ _ _
  have h4 : s.reqGate it.bytes = 0 := by
    clear h2 h1
    rw [hb]
    clear hb hit hd
    refine reqGate_ok s _ _ keyA 40 rfl ?_ (by simp [reqHead, calHash]) ?_ ?_ ?_ ?_
    all_goals decide +revert +kernel
  have h9 : calHash c = slice it.bytes 16 32 := by
    clear h4 h2 h1
    rw [hb]
    simp [slice, reqHead, be, calHash, c]
  and_intros
  all_goals first
    | with_reducible assumption
    | (rw [hb]; clear h9 h4 h2 h1 hb hit hd; decide +revert +kernel)
    | (clear h9 h4 h2 h1 hb hit hd; decide +revert +kernel)

/-- The hypotheses of a clause of TariffRequestsChangeCalendars are met by a message or request with a right tag, whatever the tag function is. -/
theorem witness_TariffRequestsChangeCalendars_4x :
    let p : Nat × List Byte := (7, [1, 2])
    let s : State := { reqS (reqItem 4 0 9 (be 6 900 ++ be 2 0)) [] with live := { tables := [(tabCalPend, [(0, [7, 1, 2])])] } }
    let it : Item := ((s.deliver 5).getD ({}, s)).1
    let u : State := ((s.deliver 5).getD ({}, s)).2
    let q : Nat := 5
    let g : Nat := 0
    (s.man.roles.tariffIn = q + 1) ∧
    (s.deliver q = some (it, u)) ∧
    (it.poisoned = false) ∧
    (beAt it.bytes 4 1 = 4) ∧
    (s.reqGate it.bytes = 0) ∧
    (g = beAt it.bytes 5 1) ∧
    (g < s.get trfCfg_GROUPS) ∧
    (s.calPending g = some p) ∧
    (s.flag hldStat_MOUNTED = true) := by
  intro p s it u q g
  have hd := deliver_one s 5 (mkItem 0 {} (reqItem 4 0 9 (be 6 900 ++ be 2 0))) rfl (by simp [s, reqS, State.q, State.setQ, State.setSlot]) rfl rfl
  have hit : it = mkItem 0 {} (reqItem 4 0 9 (be 6 900 ++ be 2 0)) := hd.2
  have hb := reqItem_bytes 4 0 9 8 (be 6 900 ++ be 2 0) rfl
  rw [← hit] at hb
  have h1 : s.deliver q = some (it, u) := hd.1
  have h2 : it.poisoned = false := by rw [hit]; exact mkItem_poisoned _ _ _
  have h4 : s.reqGate it.bytes = 0 := by
    clear h2 h1
    rw [hb]
    clear hb hit hd
    refine reqGate_ok s _ _ keyA 8 rfl ?_ rfl ?_ ?_ ?_ ?_
    all_goals decide +revert +kernel
  and_intros
  all_goals first
    | with_reducible assumption
    | (rw [hb]; clear h4 h2 h1 hb hit hd; decide +revert +kernel)
    | (clear h4 h2 h1 hb hit hd; decide +revert +kernel)

/-- The hypotheses of a clause of TariffRequestsChangeCalendars are met by a message or request with a right tag, whatever the tag function is. -/
theorem witness_TariffRequestsChangeCalendars_5x :
    let c : List Byte := [1, 2]
    let s : State := reqS (reqItem 5 0 9 []) [(0, c)]
    let it : Item := ((s.deliver 5).getD ({}, s)).1
    let u : State := ((s.deliver 5).getD ({}, s)).2
    let q : Nat := 5
    let g : Nat := 0
    (s.man.roles.tariffIn = q + 1) ∧
    (s.deliver q = some (it, u)) ∧
    (it.poisoned = false) ∧
    (beAt it.bytes 4 1 = 5) ∧
    (s.reqGate it.bytes = 0) ∧
    (g = beAt it.bytes 5 1) ∧
    (g < s.get trfCfg_GROUPS) ∧
    (s.calBuilding g = some c) := by
  intro c s it u q g
  have hd := deliver_one s 5 (mkItem 0 {} (reqItem 5 0 9 [])) rfl (by simp [s, reqS, State.q, State.setQ, State.setSlot]) rfl rfl
  have hit : it = mkItem 0 {} (reqItem 5 0 9 []) := hd.2
  have hb := reqItem_bytes 5 0 9 0 [] rfl
  rw [← hit] at hb
  have h1 : s.deliver q = some (it, u) := hd.1
  have h2 : it.poisoned = false := by rw [hit]; exact mkItem_poisoned _ _ _
  have h4 : s.reqGate it.bytes = 0 := by
    clear h2 h1
    rw [hb]
    clear hb hit hd
    refine reqGate_ok s _ _ keyA 0 rfl ?_ rfl ?_ ?_ ?_ ?_
    all_goals decide +revert +kernel
  and_intros
  all_goals first
    | with_reducible assumption
    | (rw [hb]; clear h4 h2 h1 hb hit hd; decide +revert +kernel)
    | (clear h4 h2 h1 hb hit hd; decide +revert +kernel)

/-- The hypotheses of a clause of TariffRequestsChangeCalendars are met by a message or request with a right tag, whatever the tag function is. -/
theorem witness_TariffRequestsChangeCalendars_6x :
    let s : State := reqS (reqItem 0x10 0 9 (be 2 3 ++ be 2 0 ++ be 8 77 ++ be 4 5 ++ be 68 6)) []
    let it : Item := ((s.deliver 5).getD ({}, s)).1
    let u : State := ((s.deliver 5).getD ({}, s)).2
    let q : Nat := 5
    let n : Nat := 3
    (s.man.roles.tariffIn = q + 1) ∧
    (s.deliver q = some (it, u)) ∧
    (it.poisoned = false) ∧
    (beAt it.bytes 4 1 = 0x10) ∧
    (s.reqGate it.bytes = 0) ∧
    (beAt it.bytes 5 1 < s.get trfCfg_GROUPS) ∧
    (n = beAt (slice it.bytes 16 (beAt it.bytes 12 2)) 0 2) ∧
    (s.acctBusy n = false) ∧
    (s.warned = false) ∧
    (s.sealedRoom 1 = true) ∧
    ((List.range 60).any (fun g => !(s.grp g).held) = true) ∧
    (s.placesUsed false < 7168) := by
  intro s it u q n
  have hd := deliver_one s 5 (mkItem 0 {} (reqItem 0x10 0 9 (be 2 3 ++ be 2 0 ++ be 8 77 ++ be 4 5 ++ be 68 6))) rfl (by simp [s, reqS, State.q, State.setQ, State.setSlot]) rfl rfl
  have hit : it = mkItem 0 {} (reqItem 0x10 0 9 (be 2 3 ++ be 2 0 ++ be 8 77 ++ be 4 5 ++ be 68 6)) := hd.2
  have hb := reqItem_bytes 0x10 0 9 84 (be 2 3 ++ be 2 0 ++ be 8 77 ++ be 4 5 ++ be 68 6) rfl
  rw [← hit] at hb
  have h1 : s.deliver q = some (it, u) := hd.1
  have h2 : it.poisoned = false := by rw [hit]; exact mkItem_poisoned _ _ _
  have h4 : s.reqGate it.bytes = 0 := by
    clear h2 h1
    rw [hb]
    clear hb hit hd
    refine reqGate_ok s _ _ keyA 84 rfl ?_ rfl ?_ ?_ ?_ ?_
    all_goals decide +revert +kernel
  and_intros
  all_goals first
    | with_reducible assumption
    | (rw [hb]; clear h4 h2 h1 hb hit hd; decide +revert +kernel)
    | (clear h4 h2 h1 hb hit hd; decide +revert +kernel)

/-- The hypotheses of a clause of TariffRequestsChangeCalendars are met by a message or request with a right tag, whatever the tag function is. -/
theorem witness_TariffRequestsChangeCalendars_7x :
    let s : State := reqS (reqItem 0x11 0 9 (be 2 3 ++ be 2 0)) []
    let it : Item := ((s.deliver 5).getD ({}, s)).1
    let u : State := ((s.deliver 5).getD ({}, s)).2
    let q : Nat := 5
    let n : Nat := 3
    (s.man.roles.tariffIn = q + 1) ∧
    (s.deliver q = some (it, u)) ∧
    (it.poisoned = false) ∧
    (beAt it.bytes 4 1 = 0x11) ∧
    (s.reqGate it.bytes = 0) ∧
    (beAt it.bytes 5 1 < s.get trfCfg_GROUPS) ∧
    (n = beAt (slice it.bytes 16 (beAt it.bytes 12 2)) 0 2) ∧
    (s.acctBusy n = false) ∧
    (s.warned = false) ∧
    (s.sealedRoom 1 = true) ∧
    ((List.range 60).any (fun g => !(s.grp g).held) = true) := by
  intro s it u q n
  have hd := deliver_one s 5 (mkItem 0 {} (reqItem 0x11 0 9 (be 2 3 ++ be 2 0))) rfl (by simp [s, reqS, State.q, State.setQ, State.setSlot]) rfl rfl
  have hit : it = mkItem 0 {} (reqItem 0x11 0 9 (be 2 3 ++ be 2 0)) := hd.2
  have hb := reqItem_bytes 0x11 0 9 4 (be 2 3 ++ be 2 0) rfl
  rw [← hit] at hb
  have h1 : s.deliver q = some (it, u) := hd.1
  have h2 : it.poisoned = false := by rw [hit]; exact mkItem_poisoned _ _ _
  have h4 : s.reqGate it.bytes = 0 := by
    clear h2 h1
    rw [hb]
    clear hb hit hd
    refine reqGate_ok s _ _ keyA 4 rfl ?_ rfl ?_ ?_ ?_ ?_
    all_goals decide +revert +kernel
  and_intros
  all_goals first
    | with_reducible assumption
    | (rw [hb]; clear h4 h2 h1 hb hit hd; decide +revert +kernel)
    | (clear h4 h2 h1 hb hit hd; decide +revert +kernel)

/-- The hypotheses of a clause of TariffRequestsChangeCalendars are met by a message or request with a right tag, whatever the tag function is. -/
theorem witness_TariffRequestsChangeCalendars_8x :
    let s : State := { reqS (reqItem 0x12 0 9 []) [] with tok := { locked := true } }
    let it : Item := ((s.deliver 5).getD ({}, s)).1
    let u : State := ((s.deliver 5).getD ({}, s)).2
    let q : Nat := 5
    (s.man.roles.tariffIn = q + 1) ∧
    (s.deliver q = some (it, u)) ∧
    (it.poisoned = false) ∧
    (beAt it.bytes 4 1 = 0x12) ∧
    (s.reqGate it.bytes = 0) ∧
    (beAt it.bytes 5 1 < s.get trfCfg_GROUPS) ∧
    (s.flag hldStat_MOUNTED = true) := by
  intro s it u q
  have hd := deliver_one s 5 (mkItem 0 {} (reqItem 0x12 0 9 [])) rfl (by simp [s, reqS, State.q, State.setQ, State.setSlot]) rfl rfl
  have hit : it = mkItem 0 {} (reqItem 0x12 0 9 []) := hd.2
  have hb := reqItem_bytes 0x12 0 9 0 [] rfl
  rw [← hit] at hb
  have h1 : s.deliver q = some (it, u) := hd.1
  have h2 : it.poisoned = false := by rw [hit]; exact mkItem_poisoned _ _ _
  have h4 : s.reqGate it.bytes = 0 := by
    clear h2 h1
    rw [hb]
    clear hb hit hd
    refine reqGate_ok s _ _ keyA 0 rfl ?_ rfl ?_ ?_ ?_ ?_
    all_goals decide +revert +kernel
  and_intros
  all_goals first
    | with_reducible assumption
    | (rw [hb]; clear h4 h2 h1 hb hit hd; decide +revert +kernel)
    | (clear h4 h2 h1 hb hit hd; decide +revert +kernel)

/-- The hypotheses of a clause of TokensLockoutsAndIdentity are met by a message or request with a right tag, whatever the tag function is. -/
theorem witness_TokensLockoutsAndIdentity_1x :
    let s : State := tokS (be 1 0 ++ be 1 1 ++ be 2 3 ++ be 3 0 ++ be 7 131112 ++ tagOf keyA (be 8 77 ++ be 7 131112) 2 "TOK1")
    let it : Item := ((s.deliver 5).getD ({}, s)).1
    let u : State := ((s.deliver 5).getD ({}, s)).2
    let q : Nat := 5
    let n : Nat := 3
    let v : Nat := 131112 * 2 ^ 16 + ofBe (tagOf keyA (be 8 77 ++ be 7 131112) 2 "TOK1")
    (s.man.roles.tokenIn = q + 1) ∧
    (s.deliver q = some (it, u)) ∧
    (it.poisoned = false) ∧
    (n = beAt it.bytes 2 2) ∧
    (v = beAt it.bytes 7 9) ∧
    (s.tok.locked = false) ∧
    (s.tokCheck v n = 0) ∧
    (v / 2 ^ 62 % 16 = 0) ∧
    (s.acctBusy n = false) ∧
    (s.sealedRoom 3 = true) ∧
    (s.placesUsed false + 3 ≤ 7168) ∧
    (s.warned = false) ∧
    ((List.range 60).any (fun g => !(s.grp g).held) = true) ∧
    (s.man.roles.sealedOut = 0) := by
  intro s it u q n v
  have hd := deliver_one s 5 (mkItem 0 {} (be 1 0 ++ be 1 1 ++ be 2 3 ++ be 3 0 ++ be 7 131112 ++ tagOf keyA (be 8 77 ++ be 7 131112) 2 "TOK1")) rfl (by simp [s, tokS, State.q, State.setQ, State.setSlot]) rfl rfl
  have hit : it = mkItem 0 {} (be 1 0 ++ be 1 1 ++ be 2 3 ++ be 3 0 ++ be 7 131112 ++ tagOf keyA (be 8 77 ++ be 7 131112) 2 "TOK1") := hd.2
  have hb := mkItem_bytes 0 {} (be 1 0 ++ be 1 1 ++ be 2 3 ++ be 3 0 ++ be 7 131112 ++ tagOf keyA (be 8 77 ++ be 7 131112) 2 "TOK1")
  rw [← hit] at hb
  have h1 : s.deliver q = some (it, u) := hd.1
  have h2 : it.poisoned = false := by rw [hit]; exact mkItem_poisoned _ _ _
  have h4 : v = beAt it.bytes 7 9 := by
    clear h2 h1
    rw [hb, beAt_eq _ _ _ (by simp)]
    have hs : ∀ x : List Byte, x.length = 9 → slice ((be 1 0 ++ be 1 1 ++ be 2 3 ++ be 3 0) ++ x ++ []) 7 9 = x := by
      intro x hx
      simp [slice, be, List.take_of_length_le, hx]
    have hl : (be 7 131112 ++ tagOf keyA (be 8 77 ++ be 7 131112) 2 "TOK1").length = 9 := by simp
    have h9 := hs _ hl
    simp only [List.append_nil, List.append_assoc] at h9 ⊢
    simp [h9, ofBe_append, ofBe_be, v]
  have h6 : s.tokCheck v n = 0 := by
    clear h4 h2 h1
    clear hb hit hd
    refine tokCheck_ok s n 131112 keyA ?_ ?_ ?_ ?_ ?_ ?_ ?_ ?_
    all_goals decide +revert +kernel
  have h7 : v / 2 ^ 62 % 16 = 0 := by
    clear h6 h4 h2 h1
    have ht := ofBe_lt (tagOf keyA (be 8 77 ++ be 7 131112) 2 "TOK1")
    rw [tagOf_length] at ht
    simp only [v]
    omega
  and_intros
  all_goals first
    | with_reducible assumption
    | (rw [hb]; clear h7 h6 h4 h2 h1 hb hit hd; decide +revert +kernel)
    | (clear h7 h6 h4 h2 h1 hb hit hd; decide +revert +kernel)

/-- The hypotheses of a clause of RegistersAreReachedOverTheFabric are met by a message or request with a right tag, whatever the tag function is. -/
theorem witness_RegistersAreReachedOverTheFabric_4x :
    let s : State := headS
    let b : List Byte := gwyMsg keyA 0x0B 1 0xFFFF 1 (be 1 2 ++ be 3 0 ++ be 4 0x1300020 ++ be 4 0xFFFF1234)
    let u : State := takeU s b
    let a : Nat := 0x1300020
    let v : Nat := 0xFFFF1234
    let d : RegDesc := { base := pwrEvtEn, dims := [], fields := [⟨15, 0, .rw⟩] }
    (s.gwyTake b = some (true, u)) ∧
    (beAt b 6 2 = 0xFFFF) ∧
    (beAt (gwyBody b) 0 1 = 2) ∧
    (a = beAt (gwyBody b) 4 4) ∧
    (v = beAt (gwyBody b) 8 4) ∧
    (a ∈ plainEnables) ∧
    (regDesc? a = some d) ∧
    (u.mayAccess .headEnd a true = true) ∧
    ((u.peer 0xFFFF).waiting = []) ∧
    ((u.peer 0xFFFF).out.length < 64) := by
  intro s b u a v d
  have h0 : s.gwyTake b = some (true, u) := by
    refine take_ok s b _ (by decide +revert +kernel) (check_ok s b keyA _ _ _ _ ?_ rfl ?_ ?_ ?_ ?_) (by decide +revert +kernel)
    all_goals decide +revert +kernel
  and_intros
  all_goals first | with_reducible assumption | (clear h0; decide +revert +kernel)

/-- The hypotheses of a clause of RegistersAreReachedOverTheFabric are met by a message or request with a right tag, whatever the tag function is. -/
theorem witness_RegistersAreReachedOverTheFabric_5x :
    let s : State := headS
    let b : List Byte := gwyMsg keyA 0x0B 1 0xFFFF 1 (be 1 1 ++ be 3 0 ++ be 4 0x1300020)
    let u : State := takeU s b
    let a : Nat := 0x1300020
    (s.gwyTake b = some (true, u)) ∧
    (beAt b 6 2 = 0xFFFF) ∧
    (beAt (gwyBody b) 0 1 = 1) ∧
    (a = beAt (gwyBody b) 4 4) ∧
    (a ∈ plainEnables) ∧
    (u.mayAccess .headEnd a false = true) ∧
    ((u.peer 0xFFFF).waiting = []) ∧
    ((u.peer 0xFFFF).out.length < 64) := by
  intro s b u a
  have h0 : s.gwyTake b = some (true, u) := by
    refine take_ok s b _ (by decide +revert +kernel) (check_ok s b keyA _ _ _ _ ?_ rfl ?_ ?_ ?_ ?_) (by decide +revert +kernel)
    all_goals decide +revert +kernel
  and_intros
  all_goals first | with_reducible assumption | (clear h0; decide +revert +kernel)

end Sys2Proof.Tests.Slice0
end

/-! ## 00_scope.md: what every command leaves, reset, register writes -/

namespace Sys2Proof.Machine

/-! ### Answers -/

/-- A command whose effect leaves the queue and the fuses answers that effect. -/
theorem answers_of_out {c : Instr} {s u : State} {P : State → Prop} (h : exec c s = s.out u) (hq : u.pending = s.pending)
    (hf : u.fuses = s.fuses) (hP : P u) : answers c s P :=
  ⟨u, h.trans (State.out_plain s u hq hf), hP⟩

/-- A property of a command's effect that says nothing of the queue and the fuses holds of its answer. -/
theorem answers_of_out_congr {c : Instr} {s u : State} {P : State → Prop} (h : exec c s = s.out u)
    (hP : P { u with pending := s.pending, fuses := s.fuses.burn u.fuses }) : answers c s P :=
  ⟨_, h.trans (State.out_eq s u), hP⟩

/-- A command that leaves the state as it is answers it. -/
theorem State.out_self (s : State) : s.out s = .next s := State.out_plain s s rfl rfl

/-- Settles O2: every answer is `State.out` of some effect (`exec_out`), and `State.out` keeps the queue. -/
theorem everyCommandAnswersAndKeepsTheQueue : Obligations.EveryCommandAnswersAndKeepsTheQueue := by
  intro c s
  obtain ⟨u, h⟩ := exec_out c s
  exact ⟨_, h.trans (State.out_eq s u), rfl⟩

/-! ### Reset -/

/-- The gains of the seven channels are listed in the reset registers (03_metrology_seal.md). -/
theorem reset_gain_unity : ∀ c, c < 7 → State.reset.reg (metCalGain c) = 0x40000000#32 := by decide

/-- SYS_DEVICE_ID after reset: part 0x8800, variant 1, step 1.1 (00_scope.md). -/
theorem reset_device_id : State.reset.get sysDeviceId_PART_NUMBER = 0x8800 ∧ State.reset.get sysDeviceId_VARIANT = 1 ∧
    State.reset.get sysDeviceId_STEP_MAJOR = 1 ∧ State.reset.get sysDeviceId_STEP_MINOR = 1 := by decide

/-- XING_PERIOD and XING_PHASE_OFS after reset, and COASTING (02_crossing_time.md, R46). -/
theorem reset_crossing : State.reset.reg 0x100004 = 1#32 ∧ State.reset.reg 0x10000C = 0xAAAB5555#32 ∧
    State.reset.coasting = true := by decide

/-- Settles O6: the registers that `resetRegs` lists, read one by one; every table of the reset state is empty, so that each of
its entries is the default one. -/
theorem resetLeaves : Obligations.ResetLeaves := by
  obtain ⟨hpart, hvariant, hmajor, hminor⟩ := reset_device_id
  obtain ⟨hperiod, hofs, hcoast⟩ := reset_crossing
  obtain ⟨hsram, hdram⟩ := reset_memories_wf
  exact ⟨hpart, hvariant, hmajor, hminor, reset_gain_unity, hperiod, hofs, rfl, hcoast, fun _ => rfl, fun _ => rfl, fun _ => rfl,
    fun _ => rfl, rfl, hsram, hdram⟩

/-! ### A stored write -/

/-- A write that attempts no SL field under the seal stores its fields and nothing else (R15, R18, R19). -/
theorem State.storeWord_stored {s : State} {i : Iface} {a : Nat} {v : Word} {d : RegDesc} (hd : regDesc? a = some d)
    (hk : regKey i a = a) (hs : s.sealOpen = true ∨ slAttempt i a d.fields (s.reg a) v = false) :
    s.storeWord i a v = s.setReg a (writeFields i a s.sealOpen d.fields (s.reg a) v) := by
  unfold State.storeWord
  rcases hs with hs | hs <;> simp [hd, hk, hs]

/-- A register write changes no register but the one written. -/
theorem State.setReg_regs (s : State) (a : Nat) (w : Word) : keepsRegs [a] s (s.setReg a w) := fun b hb => by
  rw [State.reg_setReg, if_neg (by simpa using hb)]

/-- No field of a register acts as SL: no write of it is an SL attempt (R18). -/
theorem slAttempt_false {i : Iface} {a : Nat} {fs : List FieldDesc} (h : ∀ f ∈ fs, actsAsSl i a f = false) (old new : Word) :
    slAttempt i a fs old new = false := by
  simp only [slAttempt, List.any_eq_false]
  intro f hf
  simp [h f hf]

/-! ### Event enable registers -/

/-- An event enable register is one for every interface, at an aligned address within the blocks, and neither MFT_RESCUE_WIN nor
OAR_CTRL of a sealed Oarsman. -/
theorem plainEnables_place : ∀ a ∈ plainEnables, ownByIface a = false ∧ windowed a = none ∧ a % 4 = 0 ∧ beyondBlocks a = false ∧
    a ≠ mftRescueWin ∧ a ≠ oarCtrl 12 ∧ a ≠ oarCtrl 13 := by decide

/-- No event enable register has an SL field. -/
theorem plainEnables_fields : ∀ a ∈ plainEnables, ∀ d ∈ regDesc? a, ∀ f ∈ d.fields, f.acc ≠ .sl := by decide +kernel

/-- A write of an event enable register does nothing beside its stored effect. -/
theorem State.busAct_enable {a : Nat} (ha : a ∈ plainEnables) (s₀ s : State) (i : Iface) (v : Word) : s₀.busAct i a v s = s := by
  revert a
  simp only [plainEnables, List.forall_mem_cons, List.not_mem_nil, false_implies, implies_true, and_true]
  cases i <;> and_intros <;> rfl

/-- A granted write of an event enable register stores its fields (R15, R19). -/
theorem State.busWrite_enable {s : State} {i : Iface} {a : Nat} {d : RegDesc} (v : Word) (ha : a ∈ plainEnables)
    (hd : regDesc? a = some d) (hm : s.mayAccess i a true = true) :
    s.busWrite i a v = s.setReg a (writeFields i a s.sealOpen d.fields (s.reg a) v) := by
  obtain ⟨hown, hwin, -, hin, hresc, h12, h13⟩ := plainEnables_place a ha
  have hsl : ∀ f ∈ d.fields, actsAsSl i a f = false := fun f hf => by
    simp [actsAsSl, plainEnables_fields a ha d hd f hf, h12, h13]
  unfold State.busWrite
  rw [hin, State.rescueOnly, beq_eq_false_iff_ne.mpr hresc, Bool.false_and, Bool.or_false, if_neg (by simp),
    State.writeGate_granted _ _ _ _ _ hm, State.busAct_enable ha,
    State.storeWord_stored hd (regKey_plain i a hown hwin) (.inr (slAttempt_false hsl _ _))]

/-- A write beyond the register blocks is ignored (R42). -/
theorem State.busWrite_beyond (s : State) (i : Iface) {a : Nat} (v : Word) (h : 0x1500000 ≤ a) : s.busWrite i a v = s := by
  simp [State.busWrite, beyondBlocks, h]

/-- Settles O9: a granted enable write is one `setReg`; a narrow, unaligned or unmapped write never reaches a block. -/
theorem eventEnableWritesAreAtomic : Obligations.EventEnableWritesAreAtomic := by
  refine ⟨fun s i a v d ha hd hm => ?_, fun s i p width v hw => ?_, fun s i a v h => ?_⟩
  · have hx : exec (.registerWrite i (.reg a) 32 v) s = s.out (s.setReg a (writeFields i a s.sealOpen d.fields (s.reg a) v)) := by
      obtain ⟨-, -, h4, -⟩ := plainEnables_place a ha
      rw [← State.busWrite_enable v ha hd hm]
      simp [exec, execRegisterWrite, h4]
    exact answers_of_out hx rfl rfl ⟨by simp, s.setReg_regs a _, s.setReg_only a _ _ (by decide)⟩
  · simp [exec, execRegisterWrite, hw, State.out_self]
  · have hx : (if a % 4 = 0 then s.busWrite i a v else s) = s := by
      rcases h with h | h
      · rw [if_neg h]
      · rw [State.busWrite_beyond s i v h, ite_self]
    simp [exec, execRegisterWrite, hx, State.out_self]

end Sys2Proof.Machine

/-! ## 03_metrology_seal.md: calibration and the quantity capture -/

namespace Sys2Proof.Machine

/-! ### Fields written with what they hold -/

/-- A field written with what it holds leaves the word. -/
theorem putBits_bitsOf (w : Word) (hi lo : Nat) (hl : lo ≤ hi) (hh : hi < 32) : putBits w hi lo (bitsOf w hi lo) = w := by
  apply BitVec.eq_of_getLsbD_eq
  intro k _
  rw [putBits_bit _ _ _ _ _ hl hh, bitsOf_bit]
  split
  · rename_i h
    rw [show lo + (k - lo) = k by omega, decide_eq_true (by omega), Bool.true_and]
  · rfl

/-- While SEALED a write of a register whose every field acts as SL leaves its word (R18). -/
theorem writeFields_sealed {i : Iface} {a : Nat} {fs : List FieldDesc}
    (h : ∀ f ∈ fs, actsAsSl i a f = true ∧ f.lo ≤ f.hi ∧ f.hi < 32) (old new : Word) :
    writeFields i a false fs old new = old := by
  unfold writeFields
  induction fs with
  | nil => rfl
  | cons f fs ih =>
    obtain ⟨hsl, hl, hh⟩ := h f (by simp)
    rw [List.foldl_cons, hsl]
    rw [show fieldNew false true f old new = bitsOf old f.hi f.lo by simp [fieldNew], putBits_bitsOf old _ _ hl hh]
    exact ih fun g hg => h g (by simp [hg])

/-- A bit read after a truth value is written to it. -/
theorem State.get_set_bit (s : State) (f : Fld) (b : Bool) (h : f.hi = f.lo) (hh : f.hi < 32) : (s.set f (ofBool b)).get f = ofBool b := by
  rw [State.get_set _ _ _ h.ge hh, h, Nat.add_sub_cancel_left]
  cases b <;> rfl

/-- A field set in another register. -/
theorem State.set_regs (s : State) (f : Fld) (v : Nat) : keepsRegs [f.addr] s (s.set f v) := s.setReg_regs f.addr _

/-! ### Consecutive registers -/

/-- Registers set to a value each: those listed hold theirs. -/
theorem reg_foldl_setReg (f : Nat → Word) (l : List Nat) (s : State) (b : Nat) :
    (l.foldl (fun (st : State) a => st.setReg a (f a)) s).reg b = if b ∈ l then f b else s.reg b := by
  induction l generalizing s with
  | nil => simp
  | cons a l ih =>
    rw [List.foldl_cons, ih, State.reg_setReg]
    by_cases hb : b = a
    · subst hb; simp
    · simp [hb]

/-- A register below those that consecutive words are stored in. -/
theorem State.reg_setWords_below (s : State) (a : Nat) (ws : List Word) {b : Nat} (h : b < a) : (s.setWords a ws).reg b = s.reg b := by
  induction ws generalizing s a with
  | nil => rfl
  | cons w ws ih => rw [State.setWords, ih _ _ (by omega), State.reg_setReg, if_neg (by omega)]

/-! ### The calibration registers -/

/-- A calibration register is one for every interface, and none of the registers that calibration, the seal, the events and the
Logbook use. -/
theorem calAddrs_place : ∀ a ∈ calAddrs, ownByIface a = false ∧ windowed a = none ∧ a ≠ metCalStat ∧ a ≠ metCalCtrl ∧ a ∉ logRegs := by
  decide

/-- A calibration register's key is its address. -/
theorem regKey_cal {a : Nat} (ha : a ∈ calAddrs) (i : Iface) : regKey i a = a := by
  obtain ⟨hown, hwin, -⟩ := calAddrs_place a ha
  exact regKey_plain i a hown hwin

/-- Every field of a calibration register is an SL field within the word (R83). -/
theorem calAddrs_fields : ∀ a ∈ calAddrs, ∀ d ∈ regDesc? a, ∀ f ∈ d.fields, f.acc = .sl ∧ f.lo ≤ f.hi ∧ f.hi < 32 := by decide +kernel

/-- While SEALED a write of a calibration register leaves its word (R18). -/
theorem State.storeWord_cal_sealed {s : State} {a : Nat} (ha : a ∈ calAddrs) (hs : s.sealOpen = false) (i : Iface) (v : Word) :
    (s.storeWord i a v).reg a = s.reg a := by
  obtain ⟨-, -, -, -, hlog⟩ := calAddrs_place a ha
  unfold State.storeWord
  split
  · rfl
  · rename_i d hd
    have hw : writeFields i a false d.fields (s.reg a) v = s.reg a := writeFields_sealed (fun f hf => by
      obtain ⟨hsl, hl, hh⟩ := calAddrs_fields a ha d hd f hf
      exact ⟨by simp [actsAsSl, hsl], hl, hh⟩) _ _
    simp only [regKey_cal ha, hs, hw]
    split
    · rw [State.logRefused_regs _ i a v a hlog, State.reg_setReg, if_pos rfl]
    · rw [State.reg_setReg, if_pos rfl]

/-- While the seal is open a stored write is no refused SL attempt: it changes registers alone (R18). -/
theorem State.storeWord_open_only {s : State} (hs : s.sealOpen = true) (i : Iface) (a : Nat) (v : Word) :
    onlyIn [.regs] s (s.storeWord i a v) := by
  unfold State.storeWord
  split
  · exact onlyIn_refl _ s
  · simpa [hs] using s.setReg_only _ _ _ (by decide)

/-! ### PENDING -/

theorem State.showPending_only (s : State) : onlyIn [.regs] s s.showPending := s.set_only _ _ _ (by decide)

theorem State.showPending_regs (s : State) : keepsRegs [metCalStat] s s.showPending := s.set_regs metCalStat_PENDING _

@[simp] theorem State.showPending_met (s : State) : s.showPending.met = s.met := rfl

/-- PENDING: a copy waits or a staged value differs (R83). -/
theorem State.showPending_get (s : State) : s.showPending.get metCalStat_PENDING =
    ofBool (s.met.copy.isSome || calAddrs.any fun a => s.reg a != s.activeCal a) :=
  s.get_set_bit _ _ rfl (by decide)

/-- A calibration register does not change when PENDING is shown. -/
theorem State.showPending_cal (s : State) {a : Nat} (ha : a ∈ calAddrs) : s.showPending.reg a = s.reg a := by
  obtain ⟨-, -, hstat, -⟩ := calAddrs_place a ha
  exact s.showPending_regs a (by simpa using hstat)

/-! ### MET_CAL_CTRL -/

/-- The state that a write of MET_CAL_CTRL acts on. -/
abbrev State.calStored (s : State) (i : Iface) (v : Word) : State := s.storeWord i metCalCtrl v

/-- The stored write of MET_CAL_CTRL leaves every register but it, FRY_CNT and LGB_STAT. -/
theorem State.calStored_reg (s : State) (i : Iface) (v : Word) {b : Nat} (h : b ∉ metCalCtrl :: logRegs) :
    (s.calStored i v).reg b = s.reg b := by
  have hk : regKey i metCalCtrl = metCalCtrl := regKey_plain i _ (by decide) (by decide)
  exact s.storeWord_regs i metCalCtrl v b (by rwa [hk])

theorem State.calStored_sealOpen (s : State) (i : Iface) (v : Word) : (s.calStored i v).sealOpen = s.sealOpen := by
  simp only [State.sealOpen]
  rw [State.get_congr (s.calStored_reg i v (by decide))]

theorem State.calStored_mlogFull (s : State) (i : Iface) (v : Word) : (s.calStored i v).mlogFull = s.mlogFull := by
  simp only [State.mlogFull, State.flag]
  rw [State.get_congr (s.calStored_reg i v (by decide))]

theorem State.calStored_cal (s : State) (i : Iface) (v : Word) {a : Nat} (ha : a ∈ calAddrs) : (s.calStored i v).reg a = s.reg a := by
  obtain ⟨-, -, -, hctrl, hlog⟩ := calAddrs_place a ha
  exact s.calStored_reg i v (by simp [hctrl, hlog])

theorem State.calStored_stagedCal (s : State) (i : Iface) (v : Word) : (s.calStored i v).stagedCal = s.stagedCal :=
  List.map_congr_left fun a ha => by rw [s.calStored_cal i v ha]

/-- A write of 1 commits, a write of 2 discards (R85). -/
theorem State.calCtrl_one (s : State) : s.calCtrl 1 = s.calCommit := rfl

theorem State.calCtrl_two (s : State) : s.calCtrl 2 = s.calDiscard := rfl

/-- A refused calibration command sets REFUSED (R85). -/
theorem State.refuseCal_refused (s : State) : s.refuseCal.get metCalStat_REFUSED = 1 := by
  unfold State.refuseCal
  rw [State.get_congr (State.raiseLog_regs _ 52 _ metCalStat (by decide)), State.get_set _ _ _ (by decide) (by decide)]
  rfl

@[simp] theorem State.refuseCal_met (s : State) : s.refuseCal.met = s.met := by simp [State.refuseCal]

/-- COMMIT with the seal open and room in the log keeps a copy of the staged set (R84). -/
theorem State.calCommit_open {s : State} (hs : s.sealOpen = true) (hf : s.mlogFull = false) :
    s.calCommit = State.showPending { s with met := { s.met with copy := some s.stagedCal } } := by
  simp [State.calCommit, hs, hf]

/-- COMMIT while SEALED is refused (R85). -/
theorem State.calCommit_sealed {s : State} (hs : s.sealOpen = false) : s.calCommit = s.refuseCal := by simp [State.calCommit, hs]

/-- The staged values returned to the active ones. -/
def State.unstaged (s : State) : State := calAddrs.foldl (fun (st : State) a => st.setReg a (s.activeCal a)) s

theorem State.unstaged_only (s : State) : onlyIn [.regs] s s.unstaged :=
  onlyIn_foldl _ (fun st a => st.setReg_only a _ _ (by decide)) _ s

theorem State.unstaged_cal (s : State) {a : Nat} (ha : a ∈ calAddrs) : s.unstaged.reg a = s.activeCal a := by
  rw [State.unstaged, reg_foldl_setReg, if_pos ha]

/-- DISCARD with the seal open (R85). -/
theorem State.calDiscard_open {s : State} (hs : s.sealOpen = true) :
    s.calDiscard = State.showPending { s.unstaged with met := { s.unstaged.met with copy := none } } := by
  simp [State.calDiscard, hs, State.unstaged]

/-- The active value of a calibration register is that of the active set. -/
theorem State.activeCal_congr {s t : State} (h : t.met.active = s.met.active) (a : Nat) : t.activeCal a = s.activeCal a := by
  simp only [State.activeCal, h]

end Sys2Proof.Machine

/-! ## 03_metrology_seal.md: what a sealed record leaves, and the calibration commands -/

namespace Sys2Proof.Machine

/-! ### The Hold's buffers -/

theorem State.nandGo_only (n : Nat) (s : State) : onlyIn [.nand] s (State.nandGo n s) := by
  induction n generalizing s with
  | zero => exact onlyIn_refl _ s
  | succ n ih =>
    unfold State.nandGo
    split
    · exact onlyIn_refl _ s
    · split
      · exact onlyIn_refl _ s
      · exact onlyIn_trans (onlyIn_nand s _ _ (by decide)) (ih _)

theorem State.nandAdd_only (s : State) (k : NandKind) : onlyIn [.nand] s (s.nandAdd k) := by
  unfold State.nandAdd
  split
  · exact onlyIn_refl _ s
  · exact onlyIn_trans (onlyIn_nand s _ _ (by decide)) (State.nandGo_only _ _)

theorem State.pageDue_only (s : State) (l p : Nat) : onlyIn [.nand] s (s.pageDue l p) :=
  onlyIn_trans (onlyIn_nand s _ _ (by decide)) (State.nandAdd_only _ _)

theorem State.pageDueIf_only (s : State) (c : Bool) (l p : Nat) : onlyIn [.nand] s (if c then s.pageDue l p else s) := by
  split
  · exact s.pageDue_only l p
  · exact onlyIn_refl _ s

theorem State.gatherPage_only (s : State) (l p at0 n : Nat) : onlyIn [.nand] s (s.gatherPage l p at0 n) := by
  unfold State.gatherPage
  extract_lets m running gathers more opened pages nand s1 full s2
  have h : onlyIn [.nand] s s2 := onlyIn_trans (onlyIn_nand s _ _ (by decide)) (s1.pageDueIf_only full l p)
  clear_value s2
  split
  · exact h
  · split
    · exact onlyIn_trans h (s2.pageDue_only _ _)
    · exact h

theorem State.gatherAt_only (s : State) (a len : Nat) : onlyIn [.nand] s (s.gatherAt a len) := by
  unfold State.gatherAt
  simp only
  split
  · exact onlyIn_refl _ s
  · exact onlyIn_foldl _ (fun st _ => st.gatherPage_only _ _ _ _) _ s

/-- Gathering writes changes the NAND's buffers and work alone (R453). -/
theorem State.gather_only (s : State) (us : List StoreUpd) : onlyIn [.nand] s (s.gather us) :=
  onlyIn_foldl (fun st (p : Nat × Nat) => st.gatherAt p.1 p.2) (fun st p => st.gatherAt_only p.1 p.2) _ s

/-! ### Sealed records -/

/-- A sealed record takes the next value of the write counter, kept in the always-on domain (R93). -/
theorem State.sealUpd_only (s : State) (u : StoreUpd) : onlyIn [.aon] s (s.sealUpd u).2 := by
  unfold State.sealUpd
  split
  · split
    · exact onlyIn_aon s _ _ (by decide)
    · exact onlyIn_refl _ s
  · exact onlyIn_refl _ s

/-- The effective and the durable content replaced. -/
theorem State.content_only (s : State) (x y : Image) : onlyIn [.live, .img] s { s with live := x, img := y } :=
  onlyIn_trans (onlyIn_live s x _ (by decide)) (onlyIn_img { s with live := x } y _ (by decide))

/-- What a sealed record may change: the write counter, the content and the buffers, or the records that wait for the mount. -/
theorem State.sealedStore_only (s : State) (t k : Nat) (v : List Nat) : onlyIn [.aon, .live, .img, .nand, .met] s (s.sealedStore t k v) := by
  unfold State.sealedStore
  split
  · have hu := onlyIn_mono (qs := [.aon, .live, .img, .nand, .met]) (s.sealUpd_only (.record t k v)) (by decide)
    simp only
    generalize s.sealUpd (.record t k v) = q at hu
    exact onlyIn_trans hu (onlyIn_trans (onlyIn_mono (q.2.content_only _ _) (by decide))
      (onlyIn_mono (State.gather_only _ _) (by decide)))
  · exact onlyIn_met s _ _ (by decide)

@[simp] theorem State.sealedStore_regs (s : State) (t k : Nat) (v : List Nat) : (s.sealedStore t k v).regs = s.regs :=
  s.sealedStore_only t k v .regs (by decide)

/-- Of the metrology block a sealed record changes at most the records that wait for the mount. -/
theorem State.sealedStore_met (s : State) (t k : Nat) (v : List Nat) :
    ∃ w, (s.sealedStore t k v).met = { s.met with waitStore := w } := by
  unfold State.sealedStore
  split
  · refine ⟨s.met.waitStore, ?_⟩
    exact (State.gather_only _ _ .met (by decide)).trans (s.sealUpd_only _ .met (by decide))
  · exact ⟨_, rfl⟩

/-! ### The calibration in force -/

/-- The active set, the waiting copy and MET_STATUS are those of another state. -/
def keepsCal (s t : State) : Prop :=
  t.met.active = s.met.active ∧ t.met.copy = s.met.copy ∧ t.reg metStatus = s.reg metStatus

theorem keepsCal_refl (s : State) : keepsCal s s := ⟨rfl, rfl, rfl⟩

theorem keepsCal_trans {s t u : State} (h : keepsCal s t) (k : keepsCal t u) : keepsCal s u := by
  obtain ⟨ha, hc, hr⟩ := h
  obtain ⟨ka, kc, kr⟩ := k
  exact ⟨ka.trans ha, kc.trans hc, kr.trans hr⟩

/-- A change of other registers alone. -/
theorem keepsCal_of_regs {ks : List Nat} {s t : State} (hm : t.met = s.met) (hr : keepsRegs ks s t) (h : metStatus ∉ ks) : keepsCal s t :=
  ⟨by rw [hm], by rw [hm], hr _ h⟩

theorem State.raise_keepsCal (s : State) (e : Nat) : keepsCal s (s.raise e) :=
  keepsCal_of_regs (s.raise_met e) (s.raise_regs e) (by decide)

theorem State.set_keepsCal (s : State) (f : Fld) (v : Nat) (h : metStatus ≠ f.addr) : keepsCal s (s.set f v) :=
  keepsCal_of_regs rfl (s.set_regs f v) (by simpa using h)

theorem State.sealedStore_keepsCal (s : State) (t k : Nat) (v : List Nat) : keepsCal s (s.sealedStore t k v) := by
  obtain ⟨w, hw⟩ := s.sealedStore_met t k v
  exact ⟨by rw [hw], by rw [hw], by simp [State.reg]⟩

theorem State.setFlag_keepsCal (s : State) : keepsCal s (s.setFlag 1) :=
  keepsCal_trans (s.sealedStore_keepsCal tabFlag 1 [1]) ⟨rfl, rfl, rfl⟩

theorem State.showCalHash_keepsCal (s : State) (m : SMap Word) : keepsCal s (s.showCalHash m) :=
  ⟨by simp [State.showCalHash], by simp [State.showCalHash], s.reg_setWords_below _ _ (by decide)⟩

/-- A record of the metrological log leaves the calibration in force (R96, R97). -/
theorem State.mlogPut_keepsCal (s : State) (typ detail : Nat) (rest : List Byte) : keepsCal s (s.mlogPut typ detail rest) := by
  have hmark : ∀ (t : State) (c : Prop) [Decidable c] (f : Fld) (e : Nat), metStatus ≠ f.addr →
      keepsCal t (if c then (t.set f 1).raise e else t) := by
    intro t c _ f e hf
    split
    · exact keepsCal_trans (t.set_keepsCal f 1 hf) (State.raise_keepsCal _ e)
    · exact keepsCal_refl t
  unfold State.mlogPut
  split
  · exact s.set_keepsCal metMlogStat_OVERFLOW _ (by decide)
  · refine keepsCal_trans ?_ (hmark _ _ metMlogStat_FULL 57 (by decide))
    refine keepsCal_trans ?_ (hmark _ _ metMlogStat_NEAR_FULL 56 (by decide))
    exact keepsCal_trans (s.sealedStore_keepsCal tabMlog _ _) (State.set_keepsCal _ metMlogStat_COUNT _ (by decide))

theorem State.mlog_keepsCal (s : State) (typ detail : Nat) (payload : List Byte) : keepsCal s (s.mlog typ detail payload) := by
  unfold State.mlog
  split
  · exact s.mlogPut_keepsCal _ _ _
  · exact ⟨rfl, rfl, rfl⟩

/-! ### CAL_COMMIT_APPLY -/

/-- The copy made active, up to the seal's flag of a changed calibration (R84). -/
def State.calInForce (s : State) (m : SMap Word) : State :=
  (State.showPending { s with met := { s.met with copy := none, active := m } }).setFlag 1

/-- CAL_LOST cleared, in the registers and in the sealed records (R86). -/
def State.calRestored (s : State) : State :=
  (if s.flag metStatus_CAL_LOST then s.sealedStore tabFlag 4 [] else s).set metStatus_CAL_LOST 0

/-- The active set's hash, its record, the log's entry and event 51 (R84, R96). -/
def State.calRecorded (s : State) (m : SMap Word) (ch : Nat) : State :=
  ((((s.showCalHash m).sealedStore tabCal 0 ((calWindow m).map (·.toNat))).mlog 0x04 ch
    ((padTo 32 (shake256 (calWindow m) 32)).take 16)).raise 51)

theorem State.calInForce_set (s : State) (m : SMap Word) : (s.calInForce m).met.active = m ∧ (s.calInForce m).met.copy = none := by
  obtain ⟨ha, hc, -⟩ := State.setFlag_keepsCal (State.showPending { s with met := { s.met with copy := none, active := m } })
  exact ⟨ha, hc⟩

theorem State.calRestored_spec (s : State) : s.calRestored.met.active = s.met.active ∧ s.calRestored.met.copy = s.met.copy ∧
    s.calRestored.get metStatus_CAL_LOST = 0 := by
  have hstore : keepsCal s (if s.flag metStatus_CAL_LOST then s.sealedStore tabFlag 4 [] else s) := by
    split
    · exact s.sealedStore_keepsCal tabFlag 4 []
    · exact keepsCal_refl s
  obtain ⟨ha, hc, -⟩ := hstore
  exact ⟨ha, hc, State.get_set_bit _ metStatus_CAL_LOST false rfl (by decide)⟩

theorem State.calRecorded_keepsCal (s : State) (m : SMap Word) (ch : Nat) : keepsCal s (s.calRecorded m ch) :=
  keepsCal_trans (keepsCal_trans (keepsCal_trans (s.showCalHash_keepsCal m) (State.sealedStore_keepsCal _ _ _ _))
    (State.mlog_keepsCal _ _ _ _)) (State.raise_keepsCal _ 51)

/-- CAL_COMMIT_APPLY of a waiting copy, the seal open and room in the log (R84, R86). -/
theorem exec_calCommitApply {s : State} {m : SMap Word} (hc : s.met.copy = some m) (hs : s.sealOpen = true) (hf : s.mlogFull = false) :
    exec .calCommitApply s = s.out ((s.calInForce m).calRestored.calRecorded m (s.changedChannels m)) := by
  simp only [exec, execCalCommitApply, hc, hs, hf]
  rfl

/-! ### MET_QTY_CAPTURE -/

/-- A granted capture (R80). -/
theorem exec_metQtyCapture {s : State} {i : Iface} (hm : s.mayAccess i metQtyHi false = true) :
    exec (.metQtyCapture i) s = s.out (State.emit
      ((s.setReg metQtyHi (BitVec.ofNat 32 (s.quantity (s.get metQtySel_CODE) / 2 ^ 32))).setReg metQtyLo
        (BitVec.ofNat 32 (s.quantity (s.get metQtySel_CODE))))
      (.readValue i (BitVec.ofNat 32 (s.quantity (s.get metQtySel_CODE) / 2 ^ 32)))) := by
  simp only [exec, execMetQtyCapture, State.readGate, hm]
  rfl

/-! ### Calibration commands: what each answers -/

/-- A granted calibration write stores and shows PENDING (R83). -/
theorem exec_calibrationWrite {s : State} {i : Iface} {a : Nat} (v : Word) (ha : a ∈ calAddrs) (hm : s.mayAccess i a true = true) :
    exec (.calibrationWrite i a v) s = s.out (s.storeWord i a v).showPending := by
  simp only [exec, execCalibrationWrite, if_pos ha, State.writeGate_granted _ _ _ _ _ hm]

/-- A granted write of 1 to MET_CAL_CTRL (R85). -/
theorem exec_calCommit {s : State} {i : Iface} (hm : s.mayAccess i metCalCtrl true = true) :
    exec (.calCommit i) s = s.out (s.calStored i 1).calCommit := by
  simp only [exec, execCalCommit, State.writeGate_granted _ _ _ _ _ hm, State.calCtrl_one]

/-- A granted write of 2 to MET_CAL_CTRL (R85). -/
theorem exec_calDiscard {s : State} {i : Iface} (hm : s.mayAccess i metCalCtrl true = true) :
    exec (.calDiscard i) s = s.out (s.calStored i 2).calDiscard := by
  simp only [exec, execCalDiscard, State.writeGate_granted _ _ _ _ _ hm, State.calCtrl_two]

/-- A calibration write with the seal open (R83). -/
theorem calibrationWrite_open (s : State) (i : Iface) (a : Nat) (v : Word) (d : RegDesc) (ha : a ∈ calAddrs)
    (hd : regDesc? a = some d) (hm : s.mayAccess i a true = true) (hs : s.sealOpen = true) :
    answers (.calibrationWrite i a v) s fun t =>
      t.reg a = writeFields i a true d.fields (s.reg a) v ∧ t.met = s.met ∧ onlyIn [.regs] s t ∧ keepsRegs [a, metCalStat] s t ∧
      (t.reg a ≠ s.activeCal a → t.get metCalStat_PENDING = 1) := by
  have hst := State.storeWord_stored (v := v) hd (regKey_cal ha i) (.inl hs)
  rw [hs] at hst
  refine answers_of_out (exec_calibrationWrite v ha hm) ?_ ?_ ?_ <;> rw [hst]
  · rfl
  · rfl
  generalize writeFields i a true d.fields (s.reg a) v = w
  have hw : (s.setReg a w).showPending.reg a = w := by rw [State.showPending_cal _ ha]; simp
  refine ⟨hw, rfl, onlyIn_trans (s.setReg_only a w _ (by decide)) (State.showPending_only _),
    keepsRegs_trans (keepsRegs_mono (s.setReg_regs a w) (by simp)) (keepsRegs_mono (State.showPending_regs _) (by simp)), fun hne => ?_⟩
  have hany : (calAddrs.any fun b => (s.setReg a w).reg b != (s.setReg a w).activeCal b) = true := by
    refine List.any_eq_true.mpr ⟨a, ha, ?_⟩
    rw [hw] at hne
    simpa [State.activeCal_congr (s := s) (t := s.setReg a w) rfl] using hne
  rw [State.showPending_get, hany, Bool.or_true]
  rfl

/-- A calibration write while SEALED (R18). -/
theorem calibrationWrite_sealed (s : State) (i : Iface) (a : Nat) (v : Word) (ha : a ∈ calAddrs) (hm : s.mayAccess i a true = true)
    (hs : s.sealOpen = false) : answers (.calibrationWrite i a v) s fun t => t.reg a = s.reg a ∧ t.met = s.met :=
  answers_of_out_congr (exec_calibrationWrite v ha hm)
    ⟨(State.showPending_cal _ ha).trans (State.storeWord_cal_sealed ha hs i v), s.storeWord_met i a v⟩

/-- COMMIT with the seal open (R84). -/
theorem calCommit_answers (s : State) (i : Iface) (hm : s.mayAccess i metCalCtrl true = true) (hs : s.sealOpen = true)
    (hf : s.mlogFull = false) :
    answers (.calCommit i) s fun t =>
      t.met = { s.met with copy := some s.stagedCal } ∧ t.get metCalStat_PENDING = 1 ∧ onlyIn [.regs, .met] s t := by
  have hst := onlyIn_mono (qs := [.regs, .met]) (State.storeWord_open_only hs i metCalCtrl 1) (by decide)
  have hx := exec_calCommit hm
  rw [State.calCommit_open (by rw [State.calStored_sealOpen, hs]) (by rw [State.calStored_mlogFull, hf]), State.calStored_stagedCal,
    State.storeWord_met] at hx
  have honly := onlyIn_trans hst (onlyIn_trans (onlyIn_met (s.calStored i 1) { s.met with copy := some s.stagedCal } _ (by decide))
    (onlyIn_mono (State.showPending_only _) (by decide)))
  refine answers_of_out hx (honly .pending (by decide)) (honly .fuses (by decide)) ⟨rfl, ?_, honly⟩
  rw [State.showPending_get]
  rfl

/-- DISCARD with the seal open (R85). -/
theorem calDiscard_answers (s : State) (i : Iface) (hm : s.mayAccess i metCalCtrl true = true) (hs : s.sealOpen = true) :
    answers (.calDiscard i) s fun t =>
      (∀ a ∈ calAddrs, t.reg a = s.activeCal a) ∧ t.met = { s.met with copy := none } ∧ t.get metCalStat_PENDING = 0 ∧
      onlyIn [.regs, .met] s t := by
  have hst := onlyIn_mono (qs := [.regs, .met]) (State.storeWord_open_only hs i metCalCtrl 2) (by decide)
  have hx := exec_calDiscard hm
  rw [State.calDiscard_open (by rw [State.calStored_sealOpen, hs])] at hx
  have hmet : (s.calStored i 2).unstaged.met = s.met := ((State.unstaged_only _) .met (by decide)).trans (s.storeWord_met i metCalCtrl 2)
  rw [hmet] at hx
  have hact : ∀ a ∈ calAddrs, (s.calStored i 2).unstaged.reg a = s.activeCal a := fun a ha => by
    rw [State.unstaged_cal _ ha, State.activeCal_congr (s := s) (by rw [State.storeWord_met])]
  have hr := onlyIn_trans hst (onlyIn_mono (State.unstaged_only (s.calStored i 2)) (by decide))
  generalize (s.calStored i 2).unstaged = r at *
  have honly := onlyIn_trans hr (onlyIn_trans (onlyIn_met r { s.met with copy := none } _ (by decide))
    (onlyIn_mono (State.showPending_only _) (by decide)))
  have hany : (calAddrs.any fun a => r.reg a != s.activeCal a) = false := List.any_eq_false.mpr fun a ha => by simp [hact a ha]
  refine answers_of_out hx (honly .pending (by decide)) (honly .fuses (by decide))
    ⟨fun a ha => (State.showPending_cal _ ha).trans (hact a ha), rfl, ?_, honly⟩
  rw [State.showPending_get]
  exact congrArg ofBool hany

/-- The capture of a quantity (R80). -/
theorem metQtyCapture_answers (s : State) (i : Iface) (hm : s.mayAccess i metQtyHi false = true) :
    answers (.metQtyCapture i) s fun t =>
      t.reg metQtyHi = BitVec.ofNat 32 (s.quantity (s.get metQtySel_CODE) / 2 ^ 32) ∧
      t.reg metQtyLo = BitVec.ofNat 32 (s.quantity (s.get metQtySel_CODE)) ∧
      t.sent = .readValue i (BitVec.ofNat 32 (s.quantity (s.get metQtySel_CODE) / 2 ^ 32)) :: s.sent ∧
      onlyIn [.regs, .sent] s t ∧ keepsRegs [metQtyHi, metQtyLo] s t := by
  have hx := exec_metQtyCapture hm
  generalize s.quantity (s.get metQtySel_CODE) = v at *
  have hregs := keepsRegs_trans (keepsRegs_mono (ls := [metQtyHi, metQtyLo]) (s.setReg_regs metQtyHi (BitVec.ofNat 32 (v / 2 ^ 32))) (by simp))
    (keepsRegs_mono (State.setReg_regs _ metQtyLo (BitVec.ofNat 32 v)) (by simp))
  have honly := onlyIn_trans (s.setReg_only metQtyHi (BitVec.ofNat 32 (v / 2 ^ 32)) [.regs, .sent] (by decide))
    (State.setReg_only _ metQtyLo (BitVec.ofNat 32 v) _ (by decide))
  refine answers_of_out hx rfl rfl ⟨?_, ?_, rfl, onlyIn_trans honly (onlyIn_sent _ _ _ (by decide)), hregs⟩
  · exact (State.reg_setReg _ _ _ _).trans ((if_neg (by decide)).trans ((State.reg_setReg _ _ _ _).trans (if_pos rfl)))
  · exact (State.reg_setReg _ _ _ _).trans (if_pos rfl)

/-- COMMIT while SEALED (R85). -/
theorem calCommit_refused (s : State) (i : Iface) (hm : s.mayAccess i metCalCtrl true = true) (hs : s.sealOpen = false) :
    answers (.calCommit i) s fun t => t.met = s.met ∧ t.get metCalStat_REFUSED = 1 := by
  have hx := exec_calCommit hm
  rw [State.calCommit_sealed (by rw [State.calStored_sealOpen, hs])] at hx
  exact answers_of_out_congr hx ⟨by simp, State.refuseCal_refused _⟩

/-- A waiting copy becomes the active set (R84, R86). -/
theorem calCommitApply_answers (s : State) (m : SMap Word) (hc : s.met.copy = some m) (hs : s.sealOpen = true)
    (hf : s.mlogFull = false) :
    answers .calCommitApply s fun t => t.met.active = m ∧ t.met.copy = none ∧ t.get metStatus_CAL_LOST = 0 := by
  obtain ⟨ha, hcopy, hreg⟩ := State.calRecorded_keepsCal (s.calInForce m).calRestored m (s.changedChannels m)
  obtain ⟨hra, hrc, hlost⟩ := (s.calInForce m).calRestored_spec
  obtain ⟨hia, hic⟩ := s.calInForce_set m
  exact answers_of_out_congr (exec_calCommitApply hc hs hf)
    ⟨ha.trans (hra.trans hia), hcopy.trans (hrc.trans hic), (State.get_congr hreg).trans hlost⟩

/-- Settles O13: staging, COMMIT, its refusal, DISCARD, the crossing and the capture, a lemma each. -/
theorem calibrationIsStagedThenApplied : Obligations.CalibrationIsStagedThenApplied :=
  ⟨calibrationWrite_open, calibrationWrite_sealed, calCommit_answers, calCommit_refused, calDiscard_answers, calCommitApply_answers,
    metQtyCapture_answers⟩

end Sys2Proof.Machine

/-! ## 07_ethernet_gangway.md: a head-end answer that waits -/

namespace Sys2Proof.Machine

/-! ### Received messages -/

/-- A number that stands before what is put behind a string. -/
theorem beAt_append_left (h t : List Byte) (off n : Nat) (hl : off + n ≤ h.length) : beAt (h ++ t) off n = beAt h off n := by
  unfold beAt
  congr 1
  refine List.map_congr_left fun i hi => ?_
  rw [List.getD_append _ _ _ _ (by have := List.mem_range.mp hi; omega)]

/-- Bytes that stand before what is put behind a string. -/
theorem slice_append_left (h t : List Byte) (off n : Nat) (hl : off + n ≤ h.length) : slice (h ++ t) off n = slice h off n := by
  rw [slice, slice, List.drop_append_of_le_length (by omega), List.take_append_of_le_length (by rw [List.length_drop]; omega)]

/-- A Gangway message: header and body, then their tag under a key (R215). -/
def taggedMsg (k h : List Byte) : List Byte := h ++ tagOf k (be 1 (beAt h 2 1 &&& 0xFD) ++ h.drop 3) 16 "GWY1"

/-- A tagged message of the right version, hub and length passes the check of R215, whatever the tag function is. -/
theorem State.gwyCheck_tagged (s : State) (k h : List Byte) (anyHub : Bool) (hv : beAt h 0 1 = 1) (hh : beAt h 4 2 = s.man.hubId)
    (hl : h.length = 28 + beAt h 24 2) : s.gwyCheck (taggedMsg k h) (some k) anyHub = none := by
  have hat : ∀ off n, off + n ≤ 28 → beAt (taggedMsg k h) off n = beAt h off n := fun off n ho => beAt_append_left h _ off n (by omega)
  have hin : slice (taggedMsg k h) 3 (25 + beAt h 24 2) = h.drop 3 := by
    rw [taggedMsg, slice_append_left _ _ _ _ (by omega), slice, List.take_of_length_le (by rw [List.length_drop]; omega)]
  have htag : (taggedMsg k h).drop (28 + beAt h 24 2) = tagOf k (be 1 (beAt h 2 1 &&& 0xFD) ++ h.drop 3) 16 "GWY1" := by
    rw [← hl, taggedMsg, List.drop_left]
  have hlen : (taggedMsg k h).length = 44 + beAt h 24 2 := by rw [taggedMsg, List.length_append, tagOf_length]; omega
  simp [State.gwyCheck, hat 24 2 (by decide), hat 0 1 (by decide), hat 4 2 (by decide), hat 2 1 (by decide), hv, hh, hin, htag, hlen]

/-! ### Reliable messages -/

/-- Nothing goes out to a peer that reliable messages may not go to (R218, R224). -/
theorem State.gwyDrain_closed (fuel : Nat) {s : State} {p : Nat} (h : s.gwyOpen p = false) : State.gwyDrain fuel s p = s := by
  cases fuel with
  | zero => rfl
  | succ fuel =>
    unfold State.gwyDrain
    simp only [h, Bool.not_false, Bool.or_true, if_true]
    split <;> rfl

@[simp] theorem State.peer_setPeer_same (s : State) (p : Nat) (x : Peer) : (s.setPeer p x).peer p = x := by
  simp [State.peer, State.setPeer]

/-- Whether a message to the head end can be tagged depends on no peer's state (R216). -/
theorem State.gwyKeyed_head_setPeer (s : State) (x : Peer) : (s.setPeer 0xFFFF x).gwyKeyed 0xFFFF = s.gwyKeyed 0xFFFF := rfl

/-- A reliable message to the head end that cannot be tagged waits: none becomes unacknowledged (log entry 86). -/
theorem State.gwyReliable_head_unkeyed {s : State} (h : s.gwyKeyed 0xFFFF = false) (typ : Nat) (body : List Byte) (batch : Option Nat) :
    ((s.gwyReliable 0xFFFF typ body batch).peer 0xFFFF).out = (s.peer 0xFFFF).out := by
  unfold State.gwyReliable
  simp only
  rw [State.gwyDrain_closed 64 (by rw [State.gwyOpen, State.gwyKeyed_head_setPeer, h, Bool.and_false]), State.peer_setPeer_same]

/-! ### The counterexample to O49

The head end's key family spans slots 8 and 9. Generation 0 in slot 8 may tag (KMAC); generation 1 in slot 9 is valid and has no usage bit.
A message under generation 0 passes its check, while the newest generation, which answers are tagged under (log entry 37), tags nothing. -/

/-- A device in that state, whose head end may read PWR_EVT_EN. -/
def staleHeadKey : State :=
  { man := { headKey := 8, priv := [(9, { regs := [{ lo := pwrEvtEn, hi := pwrEvtEn, write := false }] })] }
    keys := { slots := [(8, { attr := 0x80008001, key := List.replicate 32 7 }), (9, { attr := 0x80000080, key := List.replicate 32 8 })] } }

/-- Header and body of the head end's REGACCESS that reads PWR_EVT_EN, unreliable, under generation 0. -/
def readRequest : List Byte :=
  be 1 1 ++ be 1 0x0B ++ be 1 0 ++ be 1 0 ++ be 2 0 ++ be 2 0xFFFF ++ be 4 1 ++ be 4 0 ++ be 8 0 ++ be 2 8 ++ be 2 0 ++
    (be 1 1 ++ be 3 0 ++ be 4 pwrEvtEn)

/-- That message with its tag. -/
def readMessage : List Byte := taggedMsg (List.replicate 32 7) readRequest

/-- The device once it has taken the message. -/
def staleTaken : State := (staleHeadKey.gwyArrive 0xFFFF readMessage).2.gwyRelease 0xFFFF readMessage

/-- The message is addressed from the head end, under generation 0. -/
theorem readMessage_header : beAt readMessage 6 2 = 0xFFFF ∧ beAt readMessage 3 1 = 0 ∧ gwyBody readMessage = be 1 1 ++ be 3 0 ++ be 4 pwrEvtEn := by
  have hlen : beAt readMessage 24 2 = 8 := (beAt_append_left readRequest _ 24 2 (by decide)).trans (by decide)
  refine ⟨(beAt_append_left readRequest _ 6 2 (by decide)).trans (by decide), (beAt_append_left readRequest _ 3 1 (by decide)).trans (by decide), ?_⟩
  rw [gwyBody, hlen]
  exact (slice_append_left readRequest _ 28 8 (by decide)).trans (by decide)

/-- The message is taken and is to be processed. -/
theorem staleHeadKey_takes : staleHeadKey.gwyTake readMessage = some (true, staleTaken) := by
  obtain ⟨hfrom, hgen, -⟩ := readMessage_header
  have hcheck : staleHeadKey.gwyCheck readMessage (some (List.replicate 32 7)) false = none :=
    State.gwyCheck_tagged staleHeadKey _ readRequest false (by decide) (by decide) (by decide)
  have hkey : staleHeadKey.peerKey 0xFFFF 0 = some (List.replicate 32 7) := by decide
  have hnew : (staleHeadKey.gwyArrive 0xFFFF readMessage).1 = true := by decide +kernel
  simp only [State.gwyTake, hfrom, hgen, hkey, hcheck, hnew]
  rfl

/-- The head end may read the register; nothing waits, nothing is unacknowledged, and no message to the head end can be tagged. -/
theorem staleTaken_facts : staleTaken.mayAccess .headEnd pwrEvtEn false = true ∧ (staleTaken.peer 0xFFFF).waiting = [] ∧
    (staleTaken.peer 0xFFFF).out = [] ∧ staleTaken.gwyKeyed 0xFFFF = false := by decide +kernel

/-- A read of PWR_EVT_EN has no effect. -/
theorem State.busRead_pwrEvtEn (s : State) (i : Iface) : (s.busRead i pwrEvtEn).2 = s := by
  unfold State.busRead
  simp only
  split <;> rfl

/-- The answer waits, so that no message is kept to be acknowledged. -/
theorem State.regAccess_read_unkeyed {s : State} (h : s.gwyKeyed 0xFFFF = false) :
    ((s.regAccess (be 1 1 ++ be 3 0 ++ be 4 pwrEvtEn)).peer 0xFFFF).out = (s.peer 0xFFFF).out := by
  have hop : beAt (be 1 1 ++ be 3 0 ++ be 4 pwrEvtEn) 0 1 = 1 := by decide
  have ha : beAt (be 1 1 ++ be 3 0 ++ be 4 pwrEvtEn) 4 4 = pwrEvtEn := by decide
  unfold State.regAccess
  simp only [hop, ha, if_true, State.busRead_pwrEvtEn]
  exact State.gwyReliable_head_unkeyed h _ _ _

/-- What the device answers to the message. -/
theorem exec_readMessage : exec (.regaccessReceived readMessage) staleHeadKey =
    staleHeadKey.out (staleTaken.regAccess (be 1 1 ++ be 3 0 ++ be 4 pwrEvtEn)) := by
  obtain ⟨hfrom, -, hbody⟩ := readMessage_header
  simp only [exec, execRegaccessReceived, State.onMessage, staleHeadKey_takes, hfrom, hbody, if_true]

/-- Refutes O49, its last clause: the answer to a head-end read is not among the messages kept to be acknowledged when the newest
generation of the head end's key cannot tag it; it waits (R216, R224, log entries 37 and 86). -/
theorem not_registersAreReachedOverTheFabric : ¬ Obligations.RegistersAreReachedOverTheFabric := by
  rintro ⟨-, -, -, -, hread⟩
  obtain ⟨hfrom, -, hbody⟩ := readMessage_header
  obtain ⟨hmay, hwait, hout, hkey⟩ := staleTaken_facts
  obtain ⟨t, ht, -, m, hm, -⟩ := hread staleHeadKey staleTaken readMessage pwrEvtEn staleHeadKey_takes hfrom (by rw [hbody]; decide)
    (by rw [hbody]; decide) (by decide) hmay hwait (by rw [hout]; decide)
  have hnone : (t.peer 0xFFFF).out = [] := by
    rw [exec_readMessage, State.out_eq] at ht
    obtain rfl := (Host.Outcome.next.inj ht).symm
    exact (State.regAccess_read_unkeyed hkey).trans hout
  rw [hnone] at hm
  exact List.not_mem_nil hm

end Sys2Proof.Machine

/-! ## 01_architecture.md: what every function leaves of the memories

Every function of the model that passes a state on has a lemma here. Most leave both memories alone; those that write one come after
the others and keep its canonical form. -/

namespace Sys2Proof.Machine

/-! ### The memories of a state -/

/-- The memories of a state. Opaque: two states are compared by their functions' lemmas, never by evaluating the functions. -/
opaque observe : { f : State → SMap Byte × SMap Byte // f = fun s => (s.sram, s.dram) } := ⟨_, rfl⟩

/-- The SRAM and the LPDDR5. -/
def State.mem (s : State) : SMap Byte × SMap Byte := observe.1 s

theorem State.mem_eq (s : State) : s.mem = (s.sram, s.dram) := congrFun observe.2 s

@[simp] theorem State.mem_mk (pending free regs clk xing aon fuses whf fry oar flows txn cmt hld nand lgb man live img met plc
      rad eth gwy val ept bal trf bil tok pan keys mft pwr tst msix sram dram sent) :
    State.mem ⟨pending, free, regs, clk, xing, aon, fuses, whf, fry, oar, flows, txn, cmt, hld, nand, lgb, man, live, img, met,
      plc, rad, eth, gwy, val, ept, bal, trf, bil, tok, pan, keys, mft, pwr, tst, msix, sram, dram, sent⟩ = (sram, dram) :=
  State.mem_eq _

@[simp] theorem State.mem_eta (s : State) : (s.sram, s.dram) = s.mem := s.mem_eq.symm

@[simp] theorem State.mem_ite (c : Prop) [Decidable c] (a b : State) : (if c then a else b).mem = if c then a.mem else b.mem :=
  apply_ite _ _ _ _

/-- What every step of a fold keeps, the fold keeps. -/
theorem foldl_keeps {σ α β : Type} (g : σ → β) {f : σ → α → σ} (h : ∀ s x, g (f s x) = g s) (l : List α) (s : σ) :
    g (l.foldl f s) = g s := by
  induction l generalizing s with
  | nil => rfl
  | cons x l ih => exact (ih (f s x)).trans (h s x)

@[simp] theorem foldl_mem {α : Type} (f : State → α → State) (h : ∀ s x, (f s x).mem = s.mem) (l : List α) (s : State) :
    (l.foldl f s).mem = s.mem := foldl_keeps State.mem h l s

/-- What two values share, a choice between them has. -/
theorem ite_keeps {α β : Type} (g : α → β) {c : Prop} [Decidable c] {a b : α} {m : β} (ha : g a = m) (hb : g b = m) :
    g (if c then a else b) = m := by split <;> assumption

@[simp] theorem State.setReg_mem (s : State) (a : Nat) (w : Word) : (s.setReg a w).mem = s.mem := by
  rw [State.mem_eq, State.mem_eq]
  rfl

@[simp] theorem State.set_mem (s : State) (f : Fld) (v : Nat) : (s.set f v).mem = s.mem := s.setReg_mem _ _

@[simp] theorem State.bump_mem (s : State) (f : Fld) (v : Nat) : (s.bump f v).mem = s.mem := s.set_mem _ _

@[simp] theorem State.wrapUp_mem (s : State) (f : Fld) (v : Nat) : (s.wrapUp f v).mem = s.mem := s.set_mem _ _

@[simp] theorem State.setSat_mem (s : State) (f : Fld) (v : Nat) : (s.setSat f v).mem = s.mem := s.set_mem _ _

@[simp] theorem afterOut_out_mem (s u t : State) : (afterOut (s.out u) t).mem = u.mem := by
  rw [State.mem_eq, State.mem_eq]
  rfl

@[simp] theorem afterOut_next (t s : State) : afterOut (.next t) s = t := (rfl)

@[simp] theorem afterOut_ite (c : Prop) [Decidable c] (a b : Out) (s : State) :
    afterOut (if c then a else b) s = if c then afterOut a s else afterOut b s :=
  apply_ite (fun o => afterOut o s) _ _ _

/-- A state that differs only in other parts has the same memories. -/
theorem State.mem_of_only {ps : List Part} {s t : State} (h : onlyIn ps s t) (hp : Part.sram ∉ ps ∧ Part.dram ∉ ps) :
    t.mem = s.mem := by
  have hsram : t.sram = s.sram := h .sram hp.1
  have hdram : t.dram = s.dram := h .dram hp.2
  simp only [State.mem_eq, hsram, hdram]

/-! ### What leaves the memories alone -/

/-! #### Left alone: Ops -/

@[simp] theorem State.setWords_mem (s : State) (a : Nat) (ws : List Word) : (s.setWords a ws).mem = s.mem := by
  induction ws generalizing s a with
  | nil => rfl
  | cons w ws ih => simp [State.setWords, ih]

@[simp] theorem State.draw_mem (s : State) (n : Nat) : (s.draw n).2.mem = s.mem := by simp [State.draw]
@[simp] theorem State.random_mem (s : State) (n : Nat) : (s.random n).2.mem = s.mem := by simp [State.random]
@[simp] theorem State.setThr_mem (s : State) (t : Nat) (x : Thread) : (s.setThr t x).mem = s.mem := by simp [State.setThr]
@[simp] theorem State.setOar_mem (s : State) (n : Nat) (o : Oarsman) : (s.setOar n o).mem = s.mem := by simp [State.setOar]

@[simp] theorem State.joinReady_mem (s : State) (t : Nat) (atHead : Bool) : (s.joinReady t atHead).mem = s.mem := by
  simp [State.joinReady]

@[simp] theorem State.wake_mem (s : State) (e t : Nat) : (s.wake e t).mem = s.mem := by simp [State.wake]

@[simp] theorem oarAssert_mem (e : Nat) (s : State) (n : Nat) : (oarAssert e s n).mem = s.mem := by
  unfold oarAssert
  simp only
  (repeat' split) <;> simp

@[simp] theorem msixOf_mem (e : Nat) (s : State) : (msixOf e s).mem = s.mem := by simp [msixOf]

@[simp] theorem State.assertEvt_mem (s : State) (e : Nat) : (s.assertEvt e).1.mem = s.mem :=
  State.mem_of_only (s.assertEvt_only e) (by decide)

@[simp] theorem State.raise_mem (s : State) (e : Nat) : (s.raise e).mem = s.mem := by simp [State.raise]
@[simp] theorem State.raiseIf_mem (s : State) (c : Bool) (e : Nat) : (s.raiseIf c e).mem = s.mem := by simp [State.raiseIf]
@[simp] theorem State.emit_mem (s : State) (o : Output) : (s.emit o).mem = s.mem := by simp [State.emit]

@[simp] theorem State.lgbEnter_mem (s : State) (r : LogRec) : (s.lgbEnter r).mem = s.mem :=
  State.mem_of_only (s.lgbEnter_only r) (by decide)

@[simp] theorem State.lgbAppend_mem (s : State) (r : LogRec) : (s.lgbAppend r).mem = s.mem := by simp [State.lgbAppend]

@[simp] theorem State.logRec_mem (s : State) (typ source extra : Nat) (detail : List Byte) :
    (s.logRec typ source extra detail).mem = s.mem :=
  State.mem_of_only (s.logRec_only typ source extra detail) (by decide)

@[simp] theorem State.logEvt_mem (s : State) (e : Nat) (detail : List Byte) : (s.logEvt e detail).mem = s.mem := by simp [State.logEvt]

@[simp] theorem State.raiseLog_mem (s : State) (e : Nat) (detail : List Byte) : (s.raiseLog e detail).mem = s.mem := by
  simp [State.raiseLog]

@[simp] theorem State.lgbDrain_mem (s : State) (n : Nat) : (s.lgbDrain n).mem = s.mem := by simp [State.lgbDrain]

@[simp] theorem State.logRefused_mem (s : State) (i : Iface) (a : Nat) (v : Word) : (s.logRefused i a v).mem = s.mem := by
  simp [State.logRefused]

@[simp] theorem State.refuse_mem (s : State) (i : Iface) (a : Nat) (v : Word) : (s.refuse i a v).mem = s.mem := by simp [State.refuse]

/-! #### Left alone: Operands -/

@[simp] theorem State.storeWord_mem (s : State) (i : Iface) (a : Nat) (v : Word) : (s.storeWord i a v).mem = s.mem := by
  unfold State.storeWord
  split <;> simp

@[simp] theorem State.writeGate_mem (s : State) (i : Iface) (a : Nat) (v : Word) (act : State → State)
    (h : ∀ s, (act s).mem = s.mem) : (s.writeGate i a v act).mem = s.mem := by
  unfold State.writeGate
  split <;> simp [h]

@[simp] theorem State.readGate_mem (s : State) (i : Iface) (a : Nat) (act : State → Word × State)
    (h : ∀ s, (act s).2.mem = s.mem) : (s.readGate i a act).mem = s.mem := by
  unfold State.readGate
  split <;> simp [h]

@[simp] theorem State.setOf_mem (s : State) (i : Iface) (f : Fld) (v : Nat) : (s.setOf i f v).mem = s.mem := by simp [State.setOf]

/-! #### Left alone: TestOps -/

@[simp] theorem State.setEntry_mem (s : State) (n : Nat) (e : TEntry) : (s.setEntry n e).mem = s.mem := by simp [State.setEntry]
@[simp] theorem State.hit_mem (s : State) (n : Nat) : (s.hit n).mem = s.mem := by simp [State.hit]

@[simp] theorem State.everyNth_mem (s : State) (kind : Nat) (p : TEntry → Bool) : (s.everyNth kind p).2.mem = s.mem := by
  unfold State.everyNth
  simp only
  (repeat' split) <;> simp

@[simp] theorem State.disarm_mem (s : State) (n win cause : Nat) : (s.disarm n win cause).mem = s.mem := by simp [State.disarm]

@[simp] theorem State.disarmAll_mem (s : State) (p : TEntry → Bool) (win cause : Nat) :
    (s.disarmAll p win cause).mem = s.mem := by simp [State.disarmAll]

/-! #### Left alone: WharfOps -/

@[simp] theorem State.setQ_mem (s : State) (n : Nat) (x : Queue) : (s.setQ n x).mem = s.mem := by simp [State.setQ]

@[simp] theorem State.touchQ_mem (s : State) (n : Nat) (f : State → State) (h : ∀ s, (f s).mem = s.mem) :
    (s.touchQ n f).mem = s.mem := by
  unfold State.touchQ
  simp only
  split <;> simp [h]

@[simp] theorem State.perturbItem_mem (s : State) (n : Nat) (it : Item) : (s.perturbItem n it).2.mem = s.mem := by
  unfold State.perturbItem
  simp only
  split <;> simp

@[simp] theorem State.enqueueNow_mem (s : State) (n : Nat) (it : Item) : (s.enqueueNow n it).mem = s.mem := by simp [State.enqueueNow]

@[simp] theorem State.hwEnqueue_mem (s : State) (p : Producer) (n : Nat) (it : Item) : (s.hwEnqueue p n it).1.mem = s.mem := by
  unfold State.hwEnqueue
  (repeat' split) <;> simp

@[simp] theorem State.produce_mem (s : State) (p : Producer) (n : Nat) (it : Item) : (s.produce p n it).mem = s.mem := by
  simp [State.produce]

@[simp] theorem State.rxEnqueue_mem (s : State) (who : Producer) (n : Nat) (it : Item) : (s.rxEnqueue who n it).mem = s.mem := by
  simp [State.rxEnqueue]

@[simp] theorem State.noteDelivery_mem (s : State) (n : Nat) (it : Item) : (s.noteDelivery n it).mem = s.mem := by
  simp [State.noteDelivery]

theorem State.deliver_mem {s u : State} {n : Nat} {x : Item} (h : s.deliver n = some (x, u)) : u.mem = s.mem := by
  unfold State.deliver at h
  simp only at h
  split at h
  · cases h
  · split at h
    · cases h
      simp
    · split at h
      · cases h
      · cases h
        simp

@[simp] theorem State.qRelease_mem (s : State) (n : Nat) (all : Bool) (iseq : Nat) : (s.qRelease n all iseq).mem = s.mem := by
  simp [State.qRelease]

@[simp] theorem State.qRewind_mem (s : State) (n : Nat) : (s.qRewind n).mem = s.mem := by simp [State.qRewind]
@[simp] theorem State.qDone_mem (s : State) (n iseq : Nat) : (s.qDone n iseq).mem = s.mem := by simp [State.qDone]

@[simp] theorem State.qOp_mem (s : State) (n op : Nat) (all : Bool) (iseq : Nat) : (s.qOp n op all iseq).mem = s.mem := by
  simp [State.qOp]

@[simp] theorem State.qDropHead_mem (s : State) (n : Nat) : (s.qDropHead n).mem = s.mem := by
  unfold State.qDropHead
  simp only
  split <;> simp

@[simp] theorem State.lanePlace_mem (s : State) (n : Nat) (it : Item) : (s.lanePlace n it).1.mem = s.mem := by
  unfold State.lanePlace
  simp only
  split <;> simp

@[simp] theorem State.dropLane_mem (s : State) (n : Nat) (l : LaneItem) : (s.dropLane n l).mem = s.mem := by simp [State.dropLane]

theorem State.takeMain_mem {s u : State} {n : Nat} {x : Item} (h : s.takeMain n = some (x, u)) : u.mem = s.mem := by
  unfold State.takeMain at h
  obtain ⟨⟨y, t⟩, ht, he⟩ := Option.map_eq_some_iff.mp h
  cases he
  simp [State.deliver_mem ht]

@[simp] theorem State.holdFor_mem (s : State) (n : Nat) (due : Option (Bool × Nat)) : (s.holdFor n due).mem = s.mem := by
  simp [State.holdFor]

@[simp] theorem State.holdMain_mem (s : State) (n : Nat) : (s.holdMain n).mem = s.mem := by simp [State.holdMain]

@[simp] theorem State.markHead_mem (s : State) (n : Nat) (f : Item → Item) : (s.markHead n f).mem = s.mem := by
  unfold State.markHead
  simp only
  split <;> simp

@[simp] theorem State.markLate_mem (s : State) (n : Nat) : (s.markLate n).mem = s.mem := by simp [State.markLate]
@[simp] theorem State.markDeferred_mem (s : State) (n : Nat) : (s.markDeferred n).mem = s.mem := by simp [State.markDeferred]

/-! #### Left alone: NandOps -/

@[simp] theorem State.setBlk_mem (s : State) (b : Nat) (x : Block) : (s.setBlk b x).mem = s.mem := by simp [State.setBlk]

@[simp] theorem State.nandGo_mem (n : Nat) (s : State) : (s.nandGo n).mem = s.mem := by
  induction n generalizing s with
  | zero => rfl
  | succ n ih =>
    unfold State.nandGo
    split
    · rfl
    · split <;> simp [ih]

@[simp] theorem State.nandRun_mem (s : State) : (s.nandRun).mem = s.mem := by simp [State.nandRun]
@[simp] theorem State.nandAdd_mem (s : State) (k : NandKind) : (s.nandAdd k).mem = s.mem := by simp [State.nandAdd]
@[simp] theorem State.nandDone_mem (s : State) (k : NandKind) : (s.nandDone k).mem = s.mem := by simp [State.nandDone]
@[simp] theorem State.nandAgain_mem (s : State) (k : NandKind) : (s.nandAgain k).mem = s.mem := by simp [State.nandAgain]
@[simp] theorem State.abortErases_mem (s : State) : (s.abortErases).mem = s.mem := by simp [State.abortErases]
@[simp] theorem State.pageDue_mem (s : State) (l p : Nat) : (s.pageDue l p).mem = s.mem := by simp [State.pageDue]
@[simp] theorem State.allDue_mem (s : State) : (s.allDue).mem = s.mem := by simp [State.allDue]

@[simp] theorem State.gatherPage_mem (s : State) (l p at0 n : Nat) : (s.gatherPage l p at0 n).mem = s.mem := by
  unfold State.gatherPage
  simp only
  (repeat' split) <;> simp

@[simp] theorem State.gatherAt_mem (s : State) (a len : Nat) : (s.gatherAt a len).mem = s.mem := by simp [State.gatherAt]

@[simp] theorem State.pagePlaced_mem (s : State) (l p : Nat) (line : Option Nat) : (s.pagePlaced l p line).mem = s.mem := by
  simp [State.pagePlaced]

@[simp] theorem State.linePlaced_mem (s : State) (b : Nat) : (s.linePlaced b).mem = s.mem := by simp [State.linePlaced]
@[simp] theorem State.lineMoved_mem (s : State) (b d : Nat) : (s.lineMoved b d).mem = s.mem := by simp [State.lineMoved]

/-! #### Left alone: CommitOps -/

@[simp] theorem State.sealUpd_mem (s : State) (u : StoreUpd) : (s.sealUpd u).2.mem = s.mem := by
  unfold State.sealUpd
  (repeat' split) <;> simp

@[simp] theorem State.gather_mem (s : State) (us : List StoreUpd) : (s.gather us).mem = s.mem := by simp [State.gather]

@[simp] theorem State.sealUpds_mem (s : State) (us : List StoreUpd) : (s.sealUpds us).2.mem = s.mem := by
  induction us generalizing s with
  | nil => rfl
  | cons u us ih => simp [State.sealUpds, ih]

@[simp] theorem State.setGrp_mem (s : State) (g : Nat) (x : Group) : (s.setGrp g x).mem = s.mem := by simp [State.setGrp]

@[simp] theorem State.openGroup_mem (s : State) (iss : Issuer) (reserved : Bool) :
    (s.openGroup iss reserved).2.2.mem = s.mem := by
  unfold State.openGroup
  simp only
  (repeat' split) <;> simp

@[simp] theorem State.dirtyCtx_mem (s : State) (us : List StoreUpd) : (s.dirtyCtx us).mem = s.mem := by simp [State.dirtyCtx]

@[simp] theorem State.claim_mem (s : State) (a : Action) : (s.claim a).mem = s.mem := by
  unfold State.claim
  split <;> simp

@[simp] theorem State.unclaim_mem (s : State) (a : Action) : (s.unclaim a).mem = s.mem := by
  unfold State.unclaim
  split <;> simp

@[simp] theorem State.spendClaim_mem (s : State) (a : Action) : (s.spendClaim a).mem = s.mem := by simp [State.spendClaim]
@[simp] theorem State.setStr_mem (s : State) (r : Nat) (x : Stream) : (s.setStr r x).mem = s.mem := by simp [State.setStr]
@[simp] theorem State.noteStreamFull_mem (s : State) (a : Action) : (s.noteStreamFull a).mem = s.mem := by simp [State.noteStreamFull]

@[simp] theorem State.stage_mem (s : State) (g : Nat) (iss : Issuer) (a : Action) : (s.stage g iss a).2.mem = s.mem := by
  unfold State.stage
  simp only
  (repeat' split) <;> simp

@[simp] theorem State.loseVal_mem (s : State) (g : Nat) : (s.loseVal g).mem = s.mem := by simp [State.loseVal]
@[simp] theorem State.abortGroup_mem (s : State) (g : Nat) : (s.abortGroup g).mem = s.mem := by simp [State.abortGroup]

@[simp] theorem State.withdraw_mem (s : State) (g : Nat) : (s.withdraw g).mem = s.mem := by
  unfold State.withdraw
  simp only
  split <;> simp

@[simp] theorem State.abortRequest_mem (s : State) (g : Nat) (iss : Issuer) : (s.abortRequest g iss).2.mem = s.mem := by
  unfold State.abortRequest
  simp only
  split <;> simp

@[simp] theorem State.durableRec_mem (s : State) (r : JRec) : (s.durableRec r).mem = s.mem := by simp [State.durableRec]
@[simp] theorem State.durableUpTo_mem (s : State) (j : Nat) : (s.durableUpTo j).mem = s.mem := by simp [State.durableUpTo]

/-! #### Left alone: MetOps -/

@[simp] theorem State.sealedStore_mem (s : State) (t k : Nat) (v : List Nat) : (s.sealedStore t k v).mem = s.mem := by
  simp [State.sealedStore]

@[simp] theorem State.mlogPut_mem (s : State) (typ detail : Nat) (rest : List Byte) :
    (s.mlogPut typ detail rest).mem = s.mem := by simp [State.mlogPut]

@[simp] theorem State.mlog_mem (s : State) (typ detail : Nat) (payload : List Byte) :
    (s.mlog typ detail payload).mem = s.mem := by simp [State.mlog]

@[simp] theorem State.integrityFailure_mem (s : State) (t k c : Nat) : (s.integrityFailure t k c).mem = s.mem := by
  simp [State.integrityFailure]

@[simp] theorem State.showPending_mem (s : State) : (s.showPending).mem = s.mem := by simp [State.showPending]
@[simp] theorem State.refuseCal_mem (s : State) : (s.refuseCal).mem = s.mem := by simp [State.refuseCal]
@[simp] theorem State.refuseClose_mem (s : State) : (s.refuseClose).mem = s.mem := by simp [State.refuseClose]
@[simp] theorem State.pulse_mem (s : State) (before after : Nat) : (s.pulse before after).mem = s.mem := by simp [State.pulse]

@[simp] theorem State.metCrossing_mem (s : State) (dur : Nat) (raw : List (List Int)) : (s.metCrossing dur raw).mem = s.mem := by
  simp [State.metCrossing]

@[simp] theorem State.setFlag_mem (s : State) (k : Nat) : (s.setFlag k).mem = s.mem := by simp [State.setFlag]
@[simp] theorem State.showCalHash_mem (s : State) (m : SMap Word) : (s.showCalHash m).mem = s.mem := by simp [State.showCalHash]

/-! #### Left alone: KeyOps -/

@[simp] theorem State.setSlot_mem (s : State) (n : Nat) (x : Slot) : (s.setSlot n x).mem = s.mem := by simp [State.setSlot]
@[simp] theorem State.journalUpd_mem (s : State) (us : List StoreUpd) : (s.journalUpd us).mem = s.mem := by simp [State.journalUpd]

@[simp] theorem State.ckSettle_mem (s : State) : (s.ckSettle).mem = s.mem := by
  unfold State.ckSettle
  split <;> simp

@[simp] theorem State.ctxPut_mem (s : State) (slot off : Nat) (bs : List Byte) : (s.ctxPut slot off bs).mem = s.mem := by
  simp [State.ctxPut]

/-! #### Left alone: OarOps -/

@[simp] theorem State.oarResume_mem (s : State) (n gd : Nat) (v : Word) : (s.oarResume n gd v).mem = s.mem := by simp [State.oarResume]
@[simp] theorem State.oarWait_mem (s : State) (n : Nat) (w : OWait) : (s.oarWait n w).mem = s.mem := by simp [State.oarWait]
@[simp] theorem State.txnGive_mem (s : State) (e : Nat) (t : Txn) : (s.txnGive e t).mem = s.mem := by simp [State.txnGive]
@[simp] theorem State.txnWait_mem (s : State) (w : TxnWaiter) : (s.txnWait w).mem = s.mem := by simp [State.txnWait]

theorem State.txnTake_mem {s u : State} {t : Txn} {x : Nat} (h : s.txnTake t = some (x, u)) : u.mem = s.mem := by
  unfold State.txnTake at h
  split at h
  · obtain ⟨e, -, he⟩ := Option.map_eq_some_iff.mp h
    cases he
    simp
  · cases h

@[simp] theorem State.txnServe_mem (s : State) (w : TxnWaiter) : (s.txnServe w).mem = s.mem := by
  unfold State.txnServe
  split
  · next h =>
    split <;> simp [State.txnTake_mem h]
  · next h => simp [State.txnTake_mem h]
  · next h => simp [State.txnTake_mem h]
  · rfl

theorem State.takeGranted_mem {s u : State} {c : Nat} {x : Nat} (h : s.takeGranted c = some (x, u)) : u.mem = s.mem := by
  obtain ⟨e, -, he⟩ := Option.map_eq_some_iff.mp h
  cases he
  simp

theorem State.txnFor_mem {s u : State} {key : Nat} {t : Txn} {x : Nat} (h : s.txnFor key t = some (x, u)) : u.mem = s.mem := by
  unfold State.txnFor at h
  split at h
  · next hg =>
    cases h
    simp [State.takeGranted_mem hg]
  · exact State.txnTake_mem h

@[simp] theorem State.workWaits_mem (s : State) (key issuer : Nat) : (s.workWaits key issuer).mem = s.mem := by simp [State.workWaits]

@[simp] theorem State.txnRelease_mem (s : State) (e : Nat) : (s.txnRelease e).mem = s.mem := by
  unfold State.txnRelease
  simp only
  split <;> simp

@[simp] theorem State.setFlow_mem (s : State) (t : Nat) (o : Owner) : (s.setFlow t o).mem = s.mem := by simp [State.setFlow]
@[simp] theorem State.dropFlows_mem (s : State) (o : Owner) : (s.dropFlows o).mem = s.mem := by simp [State.dropFlows]

@[simp] theorem State.endGroupWaits_mem (s : State) (g res : Nat) : (s.endGroupWaits g res).mem = s.mem := by
  refine foldl_mem _ (fun s n => ?_) _ _
  split
  · split <;> simp
  · rfl

@[simp] theorem State.trapOar_mem (s : State) (n cause detail : Nat) : (s.trapOar n cause detail).mem = s.mem := by
  have hg : ∀ (l : List Nat) (st : State), (l.foldl State.abortGroup st).mem = st.mem := fun l st =>
    foldl_mem _ (fun s g => State.abortGroup_mem s g) l st
  have ht : ∀ (l : List Nat) (st : State), (l.foldl State.txnRelease st).mem = st.mem := fun l st =>
    foldl_mem _ (fun s e => State.txnRelease_mem s e) l st
  unfold State.trapOar
  simp only [State.raiseLog_mem, ht, State.mem_mk, State.mem_eta, State.dropFlows_mem, hg, State.setOar_mem, State.bump_mem,
    State.setReg_mem]

@[simp] theorem State.fillEngines_mem (k : Nat) (s : State) : (State.fillEngines k s).mem = s.mem := by
  induction k generalizing s with
  | zero => rfl
  | succ k ih =>
    unfold State.fillEngines
    split
    · rfl
    · split <;> simp [ih]

@[simp] theorem State.oarStart_mem (s : State) (n : Nat) : (s.oarStart n).mem = s.mem := by simp [State.oarStart]
@[simp] theorem State.oarRestart_mem (s : State) (n : Nat) : (s.oarRestart n).mem = s.mem := by simp [State.oarRestart]

/-! #### Left alone: EptOps -/

@[simp] theorem State.recount_mem (s : State) : (s.recount).mem = s.mem := by simp [State.recount]
@[simp] theorem State.freshBrec_mem (s : State) (slot : Nat) : (s.freshBrec slot).mem = s.mem := by simp [State.freshBrec]

theorem State.registerEp_mem {s u : State} {r : List Byte} {cell addr depth parent : Nat} {x : Nat}
    (h : s.registerEp r cell addr depth parent = some (x, u)) : u.mem = s.mem := by
  obtain ⟨i, -, he⟩ := Option.map_eq_some_iff.mp h
  cases he
  simp

@[simp] theorem State.freeCtx_mem (s : State) (slot : Nat) : (s.freeCtx slot).mem = s.mem := by
  unfold State.freeCtx
  simp only [State.recount_mem, State.ctxPut_mem]

@[simp] theorem State.refuseReg_mem (s : State) (hub : Bool) (eui cell : Nat) : (s.refuseReg hub eui cell).mem = s.mem := by
  simp [State.refuseReg]

@[simp] theorem State.setCacheE_mem (s : State) (k : Nat) (e : Option CacheE) : (s.setCacheE k e).mem = s.mem := by
  simp [State.setCacheE]

@[simp] theorem clockSweep_mem (pins : List Nat) (n : Nat) (s : State) : (clockSweep pins n s).2.mem = s.mem := by
  induction n generalizing s with
  | zero => rfl
  | succ n ih =>
    unfold clockSweep
    simp only
    split
    · simp
    · split
      · simp [ih]
      · split <;> simp [ih]

@[simp] theorem State.cacheRoom_mem (s : State) : (s.cacheRoom).2.mem = s.mem := by
  unfold State.cacheRoom
  split <;> simp

@[simp] theorem State.restoreCtx_mem (s : State) (slot : Nat) : (s.restoreCtx slot).mem = s.mem := by simp [State.restoreCtx]

@[simp] theorem State.dramCount_mem (s : State) (x : LineRead) : (s.dramCount x).mem = s.mem := by
  unfold State.dramCount
  split <;> simp

@[simp] theorem State.ctxFetch_mem (s0 : State) (slot : Nat) (line : LineRead) : (s0.ctxFetch slot line).2.mem = s0.mem := by
  unfold State.ctxFetch
  simp only
  (repeat' split) <;> simp

@[simp] theorem State.hot_mem (s : State) (slot : Nat) (write : Bool) (line : LineRead) :
    (s.hot slot write line).2.mem = s.mem := by
  unfold State.hot
  split
  · simp
  · have h := State.cacheRoom_mem ((s.wrapUp eptCacheMiss_COUNT 1).ctxFetch slot line).2
    simp only
    split <;> next hc => simp_all

/-! #### Left alone: PlcOps -/

@[simp] theorem State.setPath_mem (s : State) (p : Nat) (x : PlcPath) : (s.setPath p x).mem = s.mem := by simp [State.setPath]

@[simp] theorem State.plcCompletion_mem (s : State) (c flow : Nat) (t : Stamp) (status steps : Nat) :
    (s.plcCompletion c flow t status steps).mem = s.mem := by
  unfold State.plcCompletion
  split <;> simp

@[simp] theorem State.pathStart_mem (s : State) (job : TxJob) (extra tones k : Nat) :
    (s.pathStart job extra tones k).mem = s.mem := by simp [State.pathStart]

@[simp] theorem State.tellRenum_mem (s : State) (c : Nat) (told : Bool) : (s.tellRenum c told).mem = s.mem := by simp [State.tellRenum]

@[simp] theorem State.plcStart_mem (s : State) (c q flow modc phases extra tones : Nat) (psdu : List Byte)
    (late renum rep : Bool) : (s.plcStart c q flow modc phases extra tones psdu late renum rep).mem = s.mem := by simp [State.plcStart]

@[simp] theorem State.pathStop_mem (s : State) (k : Nat) : (s.pathStop k).mem = s.mem := by simp [State.pathStop]
@[simp] theorem State.clearJob_mem (s : State) (j : TxJob) : (s.clearJob j).mem = s.mem := by simp [State.clearJob]

@[simp] theorem State.setCanceller_mem (s : State) (p q : Nat) (x : Canceller) : (s.setCanceller p q x).mem = s.mem := by
  simp [State.setCanceller]

/-! #### Left alone: CellOps -/

@[simp] theorem State.setCell_mem (s : State) (c : Nat) (x : Cell) : (s.setCell c x).mem = s.mem := by simp [State.setCell]
@[simp] theorem State.setNode_mem (s : State) (c a : Nat) (n : Option Node) : (s.setNode c a n).mem = s.mem := by simp [State.setNode]

@[simp] theorem State.suggestLink_mem (s : State) (c a b m tone : Nat) : (s.suggestLink c a b m tone).mem = s.mem := by
  simp [State.suggestLink]

@[simp] theorem State.lowerLink_mem (s : State) (c a b : Nat) : (s.lowerLink c a b).mem = s.mem := by simp [State.lowerLink]

@[simp] theorem State.releaseFrames_mem (s : State) (c : Nat) : (s.releaseFrames c).mem = s.mem := by
  unfold State.releaseFrames
  split <;> simp

@[simp] theorem State.queuePlc_mem (s : State) (c slot modc tone flow : Nat) (psdu : List Byte) :
    (s.queuePlc c slot modc tone flow psdu).mem = s.mem := by simp [State.queuePlc]

@[simp] theorem State.takeFseq_mem (s : State) (c : Nat) : (s.takeFseq c).2.mem = s.mem := by simp [State.takeFseq]
@[simp] theorem State.showCell_mem (s : State) (c : Nat) : (s.showCell c).mem = s.mem := by simp [State.showCell]
@[simp] theorem State.queueBeacon_mem (s : State) (c x : Nat) : (s.queueBeacon c x).mem = s.mem := by simp [State.queueBeacon]

@[simp] theorem State.refreshBeacon_mem (s : State) (c x : Nat) : (s.refreshBeacon c x).mem = s.mem := by
  unfold State.refreshBeacon
  simp only
  (repeat' split) <;> simp

@[simp] theorem State.beaconStep_mem (s : State) (c : Nat) : (s.beaconStep c).mem = s.mem := by simp [State.beaconStep]
@[simp] theorem State.penalise_mem (s : State) (c : Nat) (x : Exchange) : (s.penalise c x).mem = s.mem := by simp [State.penalise]
@[simp] theorem State.ctxRoute_mem (s : State) (c a : Nat) (n : Node) : (s.ctxRoute c a n).mem = s.mem := by simp [State.ctxRoute]

@[simp] theorem State.roles_mem (s : State) (c : Nat) : (s.roles c).mem = s.mem := by
  refine foldl_mem _ (fun s p => ?_) _ _
  split
  · rfl
  · simp only
    split <;> simp

@[simp] theorem State.takeRoute_mem (s : State) (c a : Nat) (n : Node) (p : List Nat) : (s.takeRoute c a n p).mem = s.mem := by
  simp [State.takeRoute]

@[simp] theorem State.reroute_mem (s : State) (c a : Nat) : (s.reroute c a).mem = s.mem := by
  unfold State.reroute
  (repeat' split) <;> simp

@[simp] theorem State.routesWithout_mem (s : State) (c r : Nat) : (s.routesWithout c r).mem = s.mem := by simp [State.routesWithout]

@[simp] theorem State.dropExchange_mem (s : State) (c : Nat) (x : Exchange) : (s.dropExchange c x).mem = s.mem := by
  simp [State.dropExchange]

@[simp] theorem State.endExchange_mem (s : State) (c : Nat) (x : Exchange) : (s.endExchange c x).mem = s.mem := by
  unfold State.endExchange
  simp only
  split <;> simp

@[simp] theorem State.setExchange_mem (s : State) (c : Nat) (e : Exchange) : (s.setExchange c e).mem = s.mem := by
  simp [State.setExchange]

@[simp] theorem State.dropWork_mem (s : State) (c a : Nat) : (s.dropWork c a).mem = s.mem := by
  unfold State.dropWork
  simp only
  split <;> simp

@[simp] theorem State.leaveAddr_mem (s : State) (c a : Nat) : (s.leaveAddr c a).mem = s.mem := by
  unfold State.leaveAddr
  split <;> simp

@[simp] theorem State.dropNode_mem (s : State) (c a : Nat) : (s.dropNode c a).mem = s.mem := by simp [State.dropNode]

/-! #### Left alone: RadOps -/

@[simp] theorem State.setPort_mem (s : State) (r : Nat) (x : RadPort) : (s.setPort r x).mem = s.mem := by simp [State.setPort]

@[simp] theorem State.setRnode_mem (s : State) (r a : Nat) (n : Option RNode) : (s.setRnode r a n).mem = s.mem := by
  simp [State.setRnode]

@[simp] theorem State.book_mem (s : State) (r air : Nat) : (s.book r air).mem = s.mem := by simp [State.book]

@[simp] theorem State.queueRadK_mem (s : State) (r dst kind flow : Nat) (launch : DWord) (m : List Byte) :
    (s.queueRadK r dst kind flow launch m).mem = s.mem := by
  unfold State.queueRadK
  split <;> simp

@[simp] theorem State.queueRad_mem (s : State) (r a flow : Nat) (launch : DWord) (msg : List Byte) :
    (s.queueRad r a flow launch msg).mem = s.mem := by simp [State.queueRad]

@[simp] theorem State.queueMac_mem (s : State) (r a flow : Nat) (m : List Byte) : (s.queueMac r a flow m).mem = s.mem := by
  simp [State.queueMac]

@[simp] theorem State.refreshTime_mem (s : State) (r x : Nat) : (s.refreshTime r x).mem = s.mem := by
  unfold State.refreshTime
  split <;> simp

@[simp] theorem State.timeStep_mem (s : State) (r : Nat) : (s.timeStep r).mem = s.mem := by
  unfold State.timeStep
  split <;> simp

@[simp] theorem State.nextLinkCount_mem (s : State) (slot : Nat) : (s.nextLinkCount slot).2.mem = s.mem := by
  simp [State.nextLinkCount]

@[simp] theorem State.randomBytes_mem (n : Nat) (s : State) : (s.randomBytes n).2.mem = s.mem := by
  induction n generalizing s with
  | zero => rfl
  | succ n ih => simp [State.randomBytes, ih]

@[simp] theorem State.startKeyChange_mem (s : State) (c gen : Nat) (key : List Byte) :
    (s.startKeyChange c gen key).mem = s.mem := by simp [State.startKeyChange]

@[simp] theorem State.nextCellCount_mem (s : State) (r : Nat) : (s.nextCellCount r).2.mem = s.mem := by
  unfold State.nextCellCount
  simp only
  (repeat' split) <;> simp

@[simp] theorem State.setAway_mem (s : State) (r a : Nat) (k : Option (List Byte × Nat)) : (s.setAway r a k).mem = s.mem := by
  unfold State.setAway
  split <;> simp

@[simp] theorem State.secure_mem (s : State) (r typ dst : Nat) (msg : List Byte) (ackReq : Bool) :
    (s.secure r typ dst msg ackReq).2.mem = s.mem := by
  unfold State.secure
  simp only
  (repeat' split) <;> simp

@[simp] theorem State.radFrame_mem (s : State) (r : Nat) (it : Item) : (s.radFrame r it).2.mem = s.mem := by
  unfold State.radFrame
  split <;> simp

@[simp] theorem State.radOn_mem (s : State) (r : Nat) : (s.radOn r).mem = s.mem := by simp [State.radOn]
@[simp] theorem State.radOff_mem (s : State) (r : Nat) : (s.radOff r).mem = s.mem := by simp [State.radOff]

@[simp] theorem State.radStart_mem (s : State) (r : Nat) (j : RadJob) (lead : List Output) (bytes : List Byte) :
    (s.radStart r j lead bytes).mem = s.mem := by simp [State.radStart]

@[simp] theorem State.radSend_mem (s : State) (r : Nat) (j : RadJob) : (s.radSend r j).mem = s.mem := by simp [State.radSend]

@[simp] theorem State.radSends_mem (s : State) (r : Nat) (j : RadJob) (n : Nat) : (s.radSends r j n).mem = s.mem := by
  induction n with
  | zero => rfl
  | succ n ih => simp [State.radSends, ih]

@[simp] theorem State.radDone_mem (s : State) (r : Nat) : (s.radDone r).mem = s.mem := by simp [State.radDone]

@[simp] theorem State.radCompletion_mem (s : State) (r flow : Nat) (t : Stamp) (status : Nat) :
    (s.radCompletion r flow t status).mem = s.mem := by
  unfold State.radCompletion
  split <;> simp

@[simp] theorem State.spend_mem (s : State) (q i : Nat) : (s.spend q i).mem = s.mem := by simp [State.spend]

@[simp] theorem State.dropCover_mem (s : State) (r a : Nat) : (s.dropCover r a).mem = s.mem := by
  unfold State.dropCover
  split <;> simp

@[simp] theorem State.ackSync_mem (s : State) (r a : Nat) : (s.ackSync r a).mem = s.mem := by
  unfold State.ackSync
  split <;> simp

@[simp] theorem State.sleepySync_mem (s : State) (r a : Nat) (t : Stamp) (msg : List Byte) :
    (s.sleepySync r a t msg).mem = s.mem := by
  unfold State.sleepySync
  split <;> simp

@[simp] theorem State.radDrop_mem (s : State) (r a : Nat) : (s.radDrop r a).mem = s.mem := by simp [State.radDrop]
@[simp] theorem State.leaveNow_mem (s : State) (c a : Nat) : (s.leaveNow c a).mem = s.mem := by simp [State.leaveNow]

@[simp] theorem State.sendAway_mem (s : State) (c a : Nat) : (s.sendAway c a).mem = s.mem := by
  unfold State.sendAway
  split <;> simp

@[simp] theorem State.coverLead_mem (s : State) (r a n : Nat) : (s.coverLead r a n).2.mem = s.mem := by
  unfold State.coverLead
  split <;> simp

@[simp] theorem State.rebuildNode_mem (s : State) (c i : Nat) : (s.rebuildNode c i).mem = s.mem := by simp [State.rebuildNode]

@[simp] theorem State.rebuildCells_mem (s : State) (cells : List Nat) : (s.rebuildCells cells).mem = s.mem := by
  simp [State.rebuildCells]

@[simp] theorem State.loadCells_mem (s : State) : (s.loadCells).mem = s.mem := by simp [State.loadCells]

/-! #### Left alone: GwyOps -/

@[simp] theorem State.setPeer_mem (s : State) (p : Nat) (x : Peer) : (s.setPeer p x).mem = s.mem := by simp [State.setPeer]

@[simp] theorem State.gwyPut_mem (s : State) (p : Nat) (launch : DWord) (bytes : List Byte) :
    (s.gwyPut p launch bytes).mem = s.mem := by
  unfold State.gwyPut
  split <;> simp

@[simp] theorem State.gwyUnreliable_mem (s : State) (p typ : Nat) (launch : DWord) (body : List Byte) :
    (s.gwyUnreliable p typ launch body).mem = s.mem := by simp [State.gwyUnreliable]

@[simp] theorem State.gwySend_mem (s : State) (p typ : Nat) (body : List Byte) (batch : Option Nat) :
    (s.gwySend p typ body batch).mem = s.mem := by simp [State.gwySend]

@[simp] theorem State.gwyDrain_mem (n : Nat) (s : State) (k : Nat) : (s.gwyDrain n k).mem = s.mem := by
  induction n generalizing s with
  | zero => rfl
  | succ n ih =>
    unfold State.gwyDrain
    simp only
    split
    · rfl
    · split <;> simp [ih]

@[simp] theorem State.gwyReliable_mem (s : State) (p typ : Nat) (body : List Byte) (batch : Option Nat) :
    (s.gwyReliable p typ body batch).mem = s.mem := by simp [State.gwyReliable]

@[simp] theorem State.gwyAck_mem (s : State) (p : Nat) : (s.gwyAck p).mem = s.mem := by simp [State.gwyAck]

@[simp] theorem State.ackCarried_mem (s : State) (p : Nat) (b : List Byte) : (s.ackCarried p b).mem = s.mem := by
  simp [State.ackCarried]

@[simp] theorem State.gwyDiscard_mem (s : State) (p : Nat) (tag : Bool) : (s.gwyDiscard p tag).mem = s.mem := by
  simp [State.gwyDiscard]

@[simp] theorem State.gwyArrive_mem (s : State) (p : Nat) (b : List Byte) : (s.gwyArrive p b).2.mem = s.mem := by
  rcases hj : (s.peer p).judge (beAt b 8 4) with _ | _ | k <;> simp only [State.gwyArrive, hj] <;> split
  · simp
  · split <;> simp
  · simp
  · split <;> simp
  · simp
  · split <;> simp

@[simp] theorem State.gwyUp_mem (s : State) (p : Nat) : (s.gwyUp p).mem = s.mem := by simp [State.gwyUp]

/-! #### Left alone: ValOps -/

@[simp] theorem State.sendAck_mem (s : State) (c a seq status verdict : Nat) :
    (s.sendAck c a seq status verdict).mem = s.mem := by
  unfold State.sendAck
  (repeat' split) <;> simp

@[simp] theorem State.showBatch_mem (s : State) : (s.showBatch).mem = s.mem := by simp [State.showBatch]

@[simp] theorem State.batchIdle_mem (s : State) (run : Bool) : (s.batchIdle run).mem = s.mem := by
  unfold State.batchIdle
  split <;> simp

@[simp] theorem State.noteLimit_mem (s : State) : (s.noteLimit).mem = s.mem := by simp [State.noteLimit]
@[simp] theorem State.closeBatch_mem (s : State) (flags : Nat) : (s.closeBatch flags).mem = s.mem := by simp [State.closeBatch]
@[simp] theorem State.appendEntry_mem (s : State) (e : List Byte) : (s.appendEntry e).mem = s.mem := by simp [State.appendEntry]
@[simp] theorem State.setRec_mem (s : State) (n : Nat) (v : Option VRec) : (s.setRec n v).mem = s.mem := by simp [State.setRec]
@[simp] theorem State.noteFull_mem (s : State) : (s.noteFull).mem = s.mem := by simp [State.noteFull]

@[simp] theorem State.countVerdict_mem (s : State) (v : Nat) : (s.countVerdict v).mem = s.mem := by
  unfold State.countVerdict
  split <;> simp

@[simp] theorem State.leavePlace_mem (s : State) (n : Nat) : (s.leavePlace n).mem = s.mem := by simp [State.leavePlace]

theorem State.valGroup_mem {s u : State} {x : Nat} (h : s.valGroup = some (x, u)) : u.mem = s.mem := by
  unfold State.valGroup at h
  split at h
  · cases h
    rfl
  · have hg := s.openGroup_mem 7 false
    split at h
    · next he =>
      cases h
      simpa [he] using hg
    · cases h

@[simp] theorem State.noteNoGroup_mem (s : State) : (s.noteNoGroup).mem = s.mem := by simp [State.noteNoGroup]

@[simp] theorem State.stageAll_mem (s : State) (g : Nat) (acts : List Action) : (s.stageAll g acts).1.mem = s.mem := by
  unfold State.stageAll
  refine foldl_keeps (fun r : State × Bool => r.1.mem) (fun r a => ?_) _ _
  split <;> simp

@[simp] theorem State.applyPend_mem (s : State) : (s.applyPend).mem = s.mem := by simp [State.applyPend]

@[simp] theorem State.phaseEvents_mem (s : State) (n : Nat) : (s.phaseEvents n).mem = s.mem := by
  unfold State.phaseEvents
  (repeat' split) <;> simp

@[simp] theorem State.stageEntry_mem (s : State) (g : Nat) (e : List Byte) : (s.stageEntry g e).1.mem = s.mem := by
  unfold State.stageEntry
  simp only
  split <;> simp

@[simp] theorem State.stageHeld_mem (n : Nat) (s : State) (k : Nat) : (s.stageHeld n k).mem = s.mem := by
  induction n generalizing s with
  | zero => rfl
  | succ n ih =>
    unfold State.stageHeld
    split
    · rfl
    · simp only
      split <;> simp [ih]

@[simp] theorem State.duplicateRec_mem (s : State) (n : Nat) (v : VRec) : (s.duplicateRec n v).mem = s.mem := by
  simp [State.duplicateRec]

@[simp] theorem State.fetchFor_mem (s : State) (v : VRec) (slot : Nat) (line : LineRead) :
    (s.fetchFor v slot line).2.mem = s.mem := by
  unfold State.fetchFor
  simp only
  split <;> simp

@[simp] theorem State.takePlace_mem (s : State) (n : Nat) (v : VRec) : (s.takePlace n v).mem = s.mem := by simp [State.takePlace]

/-! #### Left alone: RecOps -/

@[simp] theorem State.dropReasm_mem (s : State) (c a : Nat) : (s.dropReasm c a).mem = s.mem := by
  unfold State.dropReasm
  split <;> simp

@[simp] theorem State.putReasm_mem (s : State) (r : Reasm) : (s.putReasm r).mem = s.mem := by simp [State.putReasm]
@[simp] theorem State.noteReasm_mem (s : State) : (s.noteReasm).mem = s.mem := by simp [State.noteReasm]
@[simp] theorem State.reportFull_mem (s : State) (eui cell : Nat) : (s.reportFull eui cell).mem = s.mem := by simp [State.reportFull]

@[simp] theorem State.noRoom_mem (s : State) (hub : Bool) (eui cell : Nat) : (s.noRoom hub eui cell).mem = s.mem := by
  simp [State.noRoom]

theorem State.register_mem {s u : State} {r : List Byte} {c addr depth parent : Nat} {x : Nat}
    (h : s.register r c addr depth parent = some (x, u)) : u.mem = s.mem := by
  unfold State.register at h
  extract_lets eui s0 reg at h
  have hreg : ∀ st : State, (reg st).mem = st.mem := fun st => by
    simp only [reg]
    split <;> simp
  have h0 : s0.mem = s.mem := by
    simp only [s0]
    split
    · split <;> simp
    · rfl
  clear_value s0 reg
  split at h
  · cases h
    split <;> simp [hreg, h0]
  · obtain ⟨⟨i, t⟩, ht, he⟩ := Option.map_eq_some_iff.mp h
    cases he
    simp [hreg, State.registerEp_mem ht, h0]

/-! #### Left alone: MacOps -/

@[simp] theorem State.noteKeySent_mem (s : State) (c : Nat) (x : Exchange) : (s.noteKeySent c x).mem = s.mem := by
  simp [State.noteKeySent]

@[simp] theorem State.putExchange_mem (s : State) (c : Nat) (x : Exchange) (next : Nat) :
    (s.putExchange c x next).mem = s.mem := by simp [State.putExchange]

@[simp] theorem State.sendRequest_mem (s : State) (c : Nat) (x : Exchange) (k : Nat) (retry : Bool) :
    (s.sendRequest c x k retry).mem = s.mem := by simp [State.sendRequest]

@[simp] theorem State.sendRadio_mem (s : State) (c : Nat) (x : Exchange) : (s.sendRadio c x).mem = s.mem := by
  unfold State.sendRadio
  split <;> simp

@[simp] theorem State.nextCseq_mem (s : State) (slot : Nat) : (s.nextCseq slot).2.mem = s.mem := by simp [State.nextCseq]

@[simp] theorem State.startExchange_mem (s : State) (c : Nat) (x : Exchange) (e : Nat) : (s.startExchange c x e).mem = s.mem := by
  unfold State.startExchange
  split <;> simp

@[simp] theorem State.endStale_mem (s : State) (c : Nat) : (s.endStale c).mem = s.mem := by simp [State.endStale]

@[simp] theorem State.planWith_mem (s : State) (c : Nat) (x : Exchange) : (s.planWith c x).mem = s.mem := by
  unfold State.planWith
  simp only
  split
  · next h => simp [State.txnFor_mem h]
  · split <;> simp

@[simp] theorem State.doneItem_mem (s : State) (c fseq : Nat) : (s.doneItem c fseq).mem = s.mem := by
  unfold State.doneItem
  (repeat' split) <;> simp

@[simp] theorem State.unreached_mem (s : State) (c : Nat) (x : Exchange) : (s.unreached c x).mem = s.mem := by
  unfold State.unreached
  simp only
  (repeat' split) <;> simp

@[simp] theorem State.rewindItem_mem (s : State) (q i : Nat) (f : PlcFrame) : (s.rewindItem q i f).mem = s.mem := by
  simp [State.rewindItem]

@[simp] theorem State.resend_mem (s : State) (c : Nat) (x : Exchange) : (s.resend c x).mem = s.mem := by
  unfold State.resend
  simp only
  (repeat' split) <;> simp

/-! #### Left alone: LaunchOps -/

@[simp] theorem State.launchDone_mem (s : State) (q flow st : Nat) (due : Option (Bool × Nat)) :
    (s.launchDone q flow st due).mem = s.mem := by
  unfold State.launchDone
  split <;> simp

@[simp] theorem State.dropDone_mem (s : State) (q st : Nat) : (s.dropDone q st).mem = s.mem := by simp [State.dropDone]

@[simp] theorem State.removeFar_mem (s : State) (q : Nat) : (s.removeFar q).mem = s.mem := by
  unfold State.removeFar
  simp only
  split <;> simp

@[simp] theorem State.removeLate_mem (s : State) (q : Nat) : (s.removeLate q).mem = s.mem := by
  unfold State.removeLate
  simp only
  split <;> simp

@[simp] theorem State.startPlc_mem (s : State) (q c : Nat) (late renum : Bool) : (s.startPlc q c late renum).mem = s.mem := by
  unfold State.startPlc
  split
  · rfl
  · split
    · rfl
    · split
      · simp
      · split
        · rfl
        · next h => simp [State.takeMain_mem h]

@[simp] theorem State.refuseLane_mem (s : State) (c q : Nat) (l : LaneItem) : (s.refuseLane c q l).mem = s.mem := by
  simp [State.refuseLane]

@[simp] theorem State.noteDeferred_mem (s : State) (r : Nat) (already : Bool) : (s.noteDeferred r already).mem = s.mem := by
  simp [State.noteDeferred]

@[simp] theorem State.deferRad_mem (s : State) (q r : Nat) (it : Item) : (s.deferRad q r it).mem = s.mem := by simp [State.deferRad]

@[simp] theorem State.startRad_mem (s : State) (q r air : Nat) (late renum : Bool) :
    (s.startRad q r air late renum).mem = s.mem := by
  unfold State.startRad
  split
  · rfl
  · split
    · rfl
    · split
      · simp
      · split
        · simp
        · simp only
          split
          · simp
          · split
            · rfl
            · next h => simp [State.takeMain_mem h]

@[simp] theorem State.sendEth_mem (s : State) (x : Nat) (j : EthJob) : (s.sendEth x j).mem = s.mem := by simp [State.sendEth]

@[simp] theorem State.startFwd_mem (s : State) (x : Nat) : (s.startFwd x).mem = s.mem := by
  unfold State.startFwd
  split <;> simp

@[simp] theorem State.startEth_mem (s : State) (q x : Nat) (late renum : Bool) : (s.startEth q x late renum).mem = s.mem := by
  unfold State.startEth
  split
  · rfl
  · split
    · simp
    · split
      · rfl
      · next h => simp [State.takeMain_mem h]

@[simp] theorem State.gwySettle_mem (s : State) : (s.gwySettle).mem = s.mem := by
  obtain ⟨last, hlast⟩ : ∃ l, l = @List.getLast? Item := ⟨_, rfl⟩
  rw [State.gwySettle, ← hlast]
  clear hlast
  split
  · rfl
  · simp only
    split
    · rfl
    · exact s.qRelease_mem _ false _

@[simp] theorem State.startGwy_mem (s : State) (q : Nat) (late renum : Bool) : (s.startGwy q late renum).mem = s.mem := by
  unfold State.startGwy
  split
  · rfl
  · simp only
    split
    · rfl
    · split
      · simp
      · split
        · rfl
        · next h => simp [State.takeMain_mem h]

@[simp] theorem State.startMain_mem (s : State) (q air : Nat) (late renum : Bool) :
    (s.startMain q air late renum).mem = s.mem := by
  unfold State.startMain
  split <;> simp

@[simp] theorem State.startLane_mem (s : State) (q air : Nat) (l : LaneItem) : (s.startLane q air l).mem = s.mem := by
  unfold State.startLane
  simp only
  (repeat' split) <;> simp

@[simp] theorem State.spendIseq_mem (s : State) (q k : Nat) : (s.spendIseq q k).mem = s.mem := by
  unfold State.spendIseq
  split <;> simp

@[simp] theorem State.startCover_mem (s : State) (q r air : Nat) (c : Cover) : (s.startCover q r air c).mem = s.mem := by
  unfold State.startCover
  simp only
  (repeat' split) <;> simp

/-! #### Left alone: EthOps -/

@[simp] theorem State.setPtpState_mem (s : State) (x st : Nat) : (s.setPtpState x st).mem = s.mem := by simp [State.setPtpState]

@[simp] theorem State.queueEth_mem (s : State) (x kind : Nat) (t : Option Stamp) (b : List Byte) :
    (s.queueEth x kind t b).mem = s.mem := by
  unfold State.queueEth
  split <;> simp

@[simp] theorem State.ptpSeq_mem (s : State) (x typ : Nat) : (s.ptpSeq x typ).2.mem = s.mem := by simp [State.ptpSeq]
@[simp] theorem State.dropMaster_mem (s : State) : (s.dropMaster).mem = s.mem := by simp [State.dropMaster]
@[simp] theorem State.ptpSend_mem (s : State) (x typ : Nat) : (s.ptpSend x typ).mem = s.mem := by simp [State.ptpSend]

@[simp] theorem State.ethToFirmware_mem (s : State) (x : Nat) (t : Stamp) (b : List Byte) :
    (s.ethToFirmware x t b).mem = s.mem := by
  unfold State.ethToFirmware
  split <;> simp

/-! #### Left alone: SnapOps -/

@[simp] theorem State.setCellNo_mem (s : State) (c n : Nat) : (s.setCellNo c n).mem = s.mem := by simp [State.setCellNo]
@[simp] theorem State.numberCells_mem (s : State) : (s.numberCells).mem = s.mem := by simp [State.numberCells]
@[simp] theorem State.showSnap_mem (s : State) (valid : Bool) (c : Nat) : (s.showSnap valid c).mem = s.mem := by simp [State.showSnap]

@[simp] theorem State.timeDue_mem (s : State) : (s.timeDue).mem = s.mem := by
  refine foldl_mem _ (fun s r => ?_) _ _
  simp only [State.setPort_mem]
  refine foldl_mem _ (fun s a => ?_) _ _
  split <;> simp

@[simp] theorem State.fixSnap_mem (s : State) (n b : Nat) (loc : Bool) : (s.fixSnap n b loc).mem = s.mem := by simp [State.fixSnap]
@[simp] theorem State.snapClash_mem (s : State) (n : Nat) : (s.snapClash n).mem = s.mem := by simp [State.snapClash]
@[simp] theorem State.sendAttach_mem (s : State) : (s.sendAttach).mem = s.mem := by simp [State.sendAttach]
@[simp] theorem State.attachStart_mem (s : State) : (s.attachStart).mem = s.mem := by simp [State.attachStart]

@[simp] theorem State.sendParts_mem (s : State) (p : Nat) (id : Option Nat) (b : List Byte) :
    (s.sendParts p id b).mem = s.mem := by simp [State.sendParts]

/-! #### Left alone: SignOps -/

@[simp] theorem State.reserve_mem (s : State) (r : Nat) : (s.reserve r).mem = s.mem := by simp [State.reserve]
@[simp] theorem State.nextEpoch_mem (s : State) : (s.nextEpoch).mem = s.mem := by simp [State.nextEpoch]
@[simp] theorem State.takeIndex_mem (s : State) : (s.takeIndex).2.mem = s.mem := by simp [State.takeIndex]
@[simp] theorem State.keysDurable_mem (s : State) : (s.keysDurable).mem = s.mem := by simp [State.keysDurable]

/-! #### Left alone: SiteOps -/

@[simp] theorem State.putSite_mem (s : State) (r : List Byte) (slot : Nat) : (s.putSite r slot).mem = s.mem := by simp [State.putSite]

@[simp] theorem State.registerSite_mem (s : State) : (s.registerSite).mem = s.mem := by
  unfold State.registerSite
  split <;> simp

@[simp] theorem State.startSite_mem (s : State) : (s.startSite).mem = s.mem := by simp [State.startSite]

/-! #### Left alone: BalOps -/

@[simp] theorem State.setBrec_mem (s : State) (k : Nat) (b : BRec) : (s.setBrec k b).mem = s.mem := by simp [State.setBrec]
@[simp] theorem State.setBnode_mem (s : State) (n : Nat) (b : BNode) : (s.setBnode n b).mem = s.mem := by simp [State.setBnode]

@[simp] theorem State.balSlot_mem (s : State) (k q v : Nat) (unc selfFix : Bool) (t : Stamp) :
    (s.balSlot k q v unc selfFix t).mem = s.mem := by simp [State.balSlot]

@[simp] theorem State.balRecord_mem (s : State) (b : List Byte) (t : Stamp) : (s.balRecord b t).mem = s.mem := by
  unfold State.balRecord
  simp only
  (repeat' split) <;> simp

@[simp] theorem State.balDrain_mem (t : Stamp) (q n : Nat) (s : State) : (s.balDrain t q n).mem = s.mem := by
  induction n generalizing s with
  | zero => rfl
  | succ n ih =>
    unfold State.balDrain
    split
    · rfl
    · next h =>
      split
      · rfl
      · rw [ih]
        split <;> simp [State.deliver_mem h]

@[simp] theorem State.moveMembers_mem (s : State) (q : Nat) : (s.moveMembers q).mem = s.mem := by simp [State.moveMembers]

@[simp] theorem State.refInterval_mem (s : State) (i q delta : Nat) : (s.refInterval i q delta).2.mem = s.mem := by
  unfold State.refInterval
  simp only
  (repeat' split) <;> simp

@[simp] theorem State.memberSum_mem (s : State) (n q delta : Nat) : (s.memberSum n q delta).2.mem = s.mem := by
  unfold State.memberSum
  exact foldl_keeps (fun r : NodeSum × State => r.2.mem) (fun r k => by simp) _ _

@[simp] theorem State.nodeClass_mem (s : State) (n k : Nat) (hit : Bool) (cross : Nat) :
    (s.nodeClass n k hit cross).mem = s.mem := by simp [State.nodeClass]

@[simp] theorem State.balOut_mem (s : State) (b : List Byte) : (s.balOut b).mem = s.mem := by
  unfold State.balOut
  split <;> simp

@[simp] theorem State.epClass_mem (s : State) (k cls : Nat) (hit : Bool) (n cross phases : Nat) :
    (s.epClass k cls hit n cross phases).mem = s.mem := by simp [State.epClass]

@[simp] theorem State.endpointTest_mem (s : State) (k n cross : Nat) (c : NodeCfg) (ref : Bool) :
    (s.endpointTest k n cross c ref).mem = s.mem := by simp [State.endpointTest]

@[simp] theorem State.reference_mem (s : State) (c : NodeCfg) (cross prev : Option Nat) (q delta : Nat) :
    (s.reference c cross prev q delta).2.mem = s.mem := by
  unfold State.reference
  simp only
  (repeat' split) <;> simp

@[simp] theorem State.nodeAlarms_mem (s : State) (n cross : Nat) (c : NodeCfg) (ref inc : Bool) (res ratio : Int) :
    (s.nodeAlarms n cross c ref inc res ratio).mem = s.mem := by simp [State.nodeAlarms]

@[simp] theorem State.evalNode_mem (s : State) (x : EvalRun) (n : Nat) : (s.evalNode x n).2.mem = s.mem := by simp [State.evalNode]
@[simp] theorem State.checkpoint_mem (s : State) : (s.checkpoint).mem = s.mem := by simp [State.checkpoint]
@[simp] theorem State.setRun_mem (s : State) (r : Option EvalRun) : (s.setRun r).mem = s.mem := by simp [State.setRun]
@[simp] theorem State.evalEnd_mem (s : State) (x : EvalRun) : (s.evalEnd x).mem = s.mem := by simp [State.evalEnd]

@[simp] theorem State.evalNodes_mem (l : List Nat) (r : EvalRun) (s : State) : (s.evalNodes l r).mem = s.mem := by
  induction l generalizing r s with
  | nil =>
    unfold State.evalNodes
    split <;> simp
  | cons n l ih =>
    unfold State.evalNodes
    split <;> simp [ih]

@[simp] theorem State.evalGo_mem (s : State) : (s.evalGo).mem = s.mem := by
  unfold State.evalGo
  split <;> simp

@[simp] theorem State.evaluate_mem (s : State) (cross : Nat) (t : Stamp) (ride : Bool) :
    (s.evaluate cross t ride).mem = s.mem := by
  unfold State.evaluate
  (repeat' split) <;> simp

@[simp] theorem State.evalDue_mem (n : Nat) (s : State) (b : Bool) : (s.evalDue n b).mem = s.mem := by
  induction n generalizing s with
  | zero => rfl
  | succ n ih =>
    unfold State.evalDue
    split <;> simp [ih]

/-! #### Left alone: Balance -/

@[simp] theorem execBalanceRecord_mem (s : State) : (afterOut (execBalanceRecord s) s).mem = s.mem := by
  unfold execBalanceRecord
  split
  · simp
  · split
    · simp
    · next h => simp [State.deliver_mem h]

@[simp] theorem execBalanceEvaluation_mem (n : Nat) (s : State) : (afterOut (execBalanceEvaluation n s) s).mem = s.mem := by
  simp [execBalanceEvaluation]

@[simp] theorem State.nodeQuery_mem (s : State) : (s.nodeQuery).mem = s.mem := by simp [State.nodeQuery]

@[simp] theorem execBalNodeQuery_mem (i : Iface) (v : Word) (s : State) : (afterOut (execBalNodeQuery i v s) s).mem = s.mem := by
  simp [execBalNodeQuery]

@[simp] theorem State.epQuery_mem (s : State) : (s.epQuery).mem = s.mem := by simp [State.epQuery]

@[simp] theorem execBalEpQuery_mem (i : Iface) (v : Word) (s : State) : (afterOut (execBalEpQuery i v s) s).mem = s.mem := by
  simp [execBalEpQuery]

@[simp] theorem State.epNodeWrite_mem (s : State) (v : Word) : (s.epNodeWrite v).mem = s.mem := by
  unfold State.epNodeWrite
  split <;> simp

@[simp] theorem execBalEpNodeWrite_mem (i : Iface) (v : Word) (s : State) :
    (afterOut (execBalEpNodeWrite i v s) s).mem = s.mem := by simp [execBalEpNodeWrite]

/-! #### Left alone: TrfOps -/

@[simp] theorem State.showTrf_mem (s : State) : (s.showTrf).mem = s.mem := by simp [State.showTrf]

@[simp] theorem State.calMinute_mem (s : State) (g : Nat) : (s.calMinute g).mem = s.mem := by
  unfold State.calMinute
  split <;> simp

@[simp] theorem State.groupQuery_mem (s : State) : (s.groupQuery).mem = s.mem := by simp [State.groupQuery]
@[simp] theorem State.rateQuery_mem (s : State) : (s.rateQuery).mem = s.mem := by simp [State.rateQuery]
@[simp] theorem State.activated_mem (s : State) (gs : List Nat) : (s.activated gs).mem = s.mem := by simp [State.activated]
@[simp] theorem State.suspendCal_mem (s : State) : (s.suspendCal).mem = s.mem := by simp [State.suspendCal]
@[simp] theorem State.resumeCal_mem (s : State) : (s.resumeCal).mem = s.mem := by simp [State.resumeCal]

/-! #### Left alone: TokOps -/

@[simp] theorem State.sealedResult_mem (s : State) (b : List Byte) : (s.sealedResult b).mem = s.mem := by
  unfold State.sealedResult
  split <;> simp

@[simp] theorem State.atHead_mem (s : State) (role : Nat) (f : State → Item → State × Bool) (h : ∀ s it, (f s it).1.mem = s.mem) :
    (s.atHead role f).mem = s.mem := by
  unfold State.atHead
  split
  · rfl
  · split
    · rfl
    · simp only
      split
      · split
        · next hd => rw [State.deliver_mem hd, h]
        · exact h _ _
      · exact h _ _

@[simp] theorem State.acctHeld_mem (s : State) (n : Nat) : (s.acctHeld n).mem = s.mem := by simp [State.acctHeld]

@[simp] theorem State.acctOut_mem (s : State) (recs : List (List Byte)) (evs : List Nat) : (s.acctOut recs evs).mem = s.mem := by
  simp [State.acctOut]

@[simp] theorem State.acctQuery_mem (s : State) : (s.acctQuery).mem = s.mem := by simp [State.acctQuery]
@[simp] theorem State.showTok_mem (s : State) (n res : Nat) : (s.showTok n res).mem = s.mem := by simp [State.showTok]

@[simp] theorem State.tokRefuse_mem (s : State) (res n src v : Nat) : (s.tokRefuse res n src v).mem = s.mem := by
  simp [State.tokRefuse]

@[simp] theorem State.endLockout_mem (s : State) : (s.endLockout).mem = s.mem := by simp [State.endLockout]
@[simp] theorem State.tokStart_mem (s : State) : (s.tokStart).mem = s.mem := by simp [State.tokStart]

/-! #### Left alone: BilOps -/

@[simp] theorem State.holdBoundary_mem (s : State) (t : Staged) (g : Nat) (x : Group) : (s.holdBoundary t g x).mem = s.mem := by
  simp [State.holdBoundary]

@[simp] theorem State.showOpen_mem (s : State) : (s.showOpen).mem = s.mem := by simp [State.showOpen]
@[simp] theorem State.setClosed_mem (s : State) (key : Nat) : (s.setClosed key).mem = s.mem := by simp [State.setClosed]

@[simp] theorem State.boundaryDone_mem (s : State) (r : BoundaryRes) (b next : Nat)
    (d : List StoreUpd × List (List Byte) × List Nat) : (s.boundaryDone r b next d).mem = s.mem := by simp [State.boundaryDone]

@[simp] theorem State.prestage_mem (s : State) : (s.prestage).mem = s.mem := by
  have h := s.openGroup_mem 0x3F true
  unfold State.prestage
  simp only
  split <;> next he => simp_all

@[simp] theorem State.rebuildSet_mem (s : State) (key : Nat) : (s.rebuildSet key).mem = s.mem := by simp [State.rebuildSet]

@[simp] theorem State.readSet_mem (s : State) (k : Nat) (reads : List SealRead) : (s.readSet k reads).2.mem = s.mem := by
  unfold State.readSet
  simp only
  split <;> simp

@[simp] theorem State.beginHold_mem (s : State) : (s.beginHold).mem = s.mem := by simp [State.beginHold]

@[simp] theorem State.backStart_mem (s : State) : (s.backStart).mem = s.mem := by
  unfold State.backStart
  simp only
  (repeat' split) <;> simp

@[simp] theorem State.backEnd_mem (s : State) : (s.backEnd).mem = s.mem := by
  unfold State.backEnd
  simp only
  (repeat' split) <;> simp

@[simp] theorem State.bilQuery_mem (s : State) : (s.bilQuery).mem = s.mem := by simp [State.bilQuery]
@[simp] theorem State.lpQuery_mem (s : State) (reads : List SealRead) : (s.lpQuery reads).mem = s.mem := by simp [State.lpQuery]

@[simp] theorem State.bilWarn_mem (s : State) : (s.bilWarn).mem = s.mem := by
  unfold State.bilWarn
  split <;> simp

@[simp] theorem State.bilShow_mem (s : State) : (s.bilShow).mem = s.mem := by
  unfold State.bilShow
  split <;> simp

@[simp] theorem State.restoreEnergy_mem (s : State) (e : List Nat) : (s.restoreEnergy e).mem = s.mem := by simp [State.restoreEnergy]

/-! #### Left alone: Billing -/

@[simp] theorem execBoundaryPrestage_mem (s : State) : (afterOut (execBoundaryPrestage s) s).mem = s.mem := by
  simp [execBoundaryPrestage]

@[simp] theorem State.dropPassed_mem (s : State) : (s.dropPassed).mem = s.mem := by
  unfold State.dropPassed
  split <;> simp

@[simp] theorem execBackstepHoldEnd_mem (s : State) : (afterOut (execBackstepHoldEnd s) s).mem = s.mem := by simp [execBackstepHoldEnd]

@[simp] theorem execBillingQuery_mem (i : Iface) (v : Word) (s : State) : (afterOut (execBillingQuery i v s) s).mem = s.mem := by
  simp [execBillingQuery]

@[simp] theorem execLoadProfileQuery_mem (i : Iface) (v : Word) (reads : List SealRead) (s : State) :
    (afterOut (execLoadProfileQuery i v reads s) s).mem = s.mem := by simp [execLoadProfileQuery]

/-! #### Left alone: Cells -/

@[simp] theorem State.plan_mem (s : State) (c : Nat) : (s.plan c).mem = s.mem := by
  unfold State.plan
  simp only
  (repeat' split) <;> simp

@[simp] theorem execUpwardFrameFailed_mem (c fseq : Nat) (s : State) :
    (afterOut (execUpwardFrameFailed c fseq s) s).mem = s.mem := by
  unfold execUpwardFrameFailed
  split <;> simp

@[simp] theorem State.answered_mem (s : State) (c a : Nat) (f : Node → Node) : (s.answered c a f).mem = s.mem := by
  unfold State.answered
  split <;> simp

@[simp] theorem State.hopLost_mem (s : State) (c relay silent : Nat) : (s.hopLost c relay silent).mem = s.mem := by
  unfold State.hopLost
  simp only
  split <;> simp

@[simp] theorem State.ackedJob_mem (s : State) (c : Nat) (x : Exchange) (status : Nat) : (s.ackedJob c x status).mem = s.mem := by
  unfold State.ackedJob
  split <;> simp

@[simp] theorem execPlcAckReceived_mem (c : Nat) (psdu : List Byte) (s : State) :
    (afterOut (execPlcAckReceived c psdu s) s).mem = s.mem := by
  unfold execPlcAckReceived
  (repeat' split) <;> simp

@[simp] theorem State.joinBody_mem (s : State) (c eui : Nat) (nonce : List Byte) (key : Option (List Byte)) (r : JoinRes) :
    (s.joinBody c eui nonce key r).2.mem = s.mem := by
  unfold State.joinBody
  split <;> simp

@[simp] theorem State.sendJoinAnswer_mem (s : State) (c : Nat) (x : Exchange) (flow : Nat) (body : List Byte) :
    (s.sendJoinAnswer c x flow body).mem = s.mem := by simp [State.sendJoinAnswer]

@[simp] theorem State.refuseJoin_mem (s : State) (c eui st : Nat) : (s.refuseJoin c eui st).mem = s.mem := by simp [State.refuseJoin]
@[simp] theorem State.newKeyDue_mem (s : State) (c a : Nat) : (s.newKeyDue c a).mem = s.mem := by simp [State.newKeyDue]

@[simp] theorem State.join_mem (s : State) (c : Nat) (f : List Byte) (x : Exchange) : (s.join c f x).mem = s.mem := by
  unfold State.join
  simp only
  split
  · simp
  · split
    · simp
    · split
      · simp
      · next h => simp [State.register_mem h]

@[simp] theorem execJoinRequestReceived_mem (c : Nat) (psdu : List Byte) (s : State) :
    (afterOut (execJoinRequestReceived c psdu s) s).mem = s.mem := by
  unfold execJoinRequestReceived
  (repeat' split) <;> simp

@[simp] theorem State.missWindow_mem (s : State) (c q : Nat) : (s.missWindow c q).mem = s.mem := by simp [State.missWindow]

@[simp] theorem State.sendClass0_mem (s : State) (c q flow : Nat) (f : List Byte) (rep : Bool) :
    (s.sendClass0 c q flow f rep).mem = s.mem := by simp [State.sendClass0]

@[simp] theorem State.class0Frame_mem (s : State) (c : Nat) (msg : List Byte) : (s.class0Frame c msg).2.mem = s.mem := by
  simp [State.class0Frame]

@[simp] theorem State.class0Window_mem (s : State) (c q : Nat) : (s.class0Window c q).mem = s.mem := by
  unfold State.class0Window
  simp only
  (repeat' split) <;> simp

@[simp] theorem execClass0Window_mem (c : Nat) (s : State) : (afterOut (execClass0Window c s) s).mem = s.mem := by
  unfold execClass0Window
  split <;> simp

@[simp] theorem State.switchKey_mem (s : State) (c g : Nat) (k : List Byte) : (s.switchKey c g k).mem = s.mem := by
  simp [State.switchKey]

@[simp] theorem execCellKeySwitch_mem (c : Nat) (s : State) : (afterOut (execCellKeySwitch c s) s).mem = s.mem := by
  unfold execCellKeySwitch
  split <;> simp

@[simp] theorem State.routeQuery_mem (s : State) : (s.routeQuery).mem = s.mem := by
  unfold State.routeQuery
  simp only
  split <;> simp

@[simp] theorem execPlcRouteQuery_mem (i : Iface) (v : Word) (s : State) :
    (afterOut (execPlcRouteQuery i v s) s).mem = s.mem := by simp [execPlcRouteQuery]

@[simp] theorem State.clearXch_mem (s : State) (c : Nat) (v : Word) : (s.clearXch c v).mem = s.mem := by simp [State.clearXch]

@[simp] theorem execPlcXchFailClear_mem (i : Iface) (c : Nat) (s : State) :
    (afterOut (execPlcXchFailClear i c s) s).mem = s.mem := by simp [execPlcXchFailClear]

/-! #### Left alone: FerryOps -/

@[simp] theorem State.setCore_mem (s : State) (n : Nat) (c : CoreSt) : (s.setCore n c).mem = s.mem := by simp [State.setCore]
@[simp] theorem State.unready_mem (s : State) (t : Nat) : (s.unready t).mem = s.mem := by simp [State.unready]

@[simp] theorem State.leaveCore_mem (s : State) (core t : Nat) (x : Thread) : (s.leaveCore core t x).mem = s.mem := by
  simp [State.leaveCore]

@[simp] theorem State.threadDrop_mem (s : State) (t : Nat) : (s.threadDrop t).mem = s.mem := by
  unfold State.threadDrop
  simp only
  split <;> simp

@[simp] theorem State.noteBlocked_mem (s : State) (n : Nat) : (s.noteBlocked n).mem = s.mem := by simp [State.noteBlocked]

@[simp] theorem State.tryGrant_mem (s : State) (t pool : Nat) : (s.tryGrant t pool).1.mem = s.mem := by
  refine foldl_keeps (fun r : State × Bool => r.1.mem) (fun r n => ?_) _ _
  split
  · rfl
  · split
    · rfl
    · split <;> simp

/-! #### Left alone: HoldOps -/

@[simp] theorem State.setData_mem (s : State) (l : Nat) (b : Option Nat) : (s.setData l b).mem = s.mem := by simp [State.setData]

@[simp] theorem State.releaseBlk_mem (s : State) (b : Option Nat) : (s.releaseBlk b).mem = s.mem := by
  unfold State.releaseBlk
  split <;> simp

@[simp] theorem State.flushGrow_mem (s : State) (n : Nat) (map : Bool) : (s.flushGrow n map).mem = s.mem := by simp [State.flushGrow]
@[simp] theorem State.mapImage_mem (s : State) (n : Nat) : (s.mapImage n).mem = s.mem := by simp [State.mapImage]
@[simp] theorem State.mapRecord_mem (s : State) : (s.mapRecord).mem = s.mem := by simp [State.mapRecord]
@[simp] theorem State.switchRecord_mem (s : State) : (s.switchRecord).mem = s.mem := by simp [State.switchRecord]
@[simp] theorem State.showMerges_mem (s : State) : (s.showMerges).mem = s.mem := by simp [State.showMerges]

@[simp] theorem State.switchTo_mem (s : State) (l d : Nat) (log : Option Nat) (startedAt : Nat) :
    (s.switchTo l d log startedAt).mem = s.mem := by simp [State.switchTo]

@[simp] theorem State.startMerge_mem (s : State) (l g : Nat) : (s.startMerge l g).mem = s.mem := by
  unfold State.startMerge
  (repeat' split) <;> simp

@[simp] theorem State.mergeNext_mem (s : State) : (s.mergeNext).mem = s.mem := by
  unfold State.mergeNext
  split <;> simp

@[simp] theorem State.progPage_mem (s : State) (b page : Nat) : (s.progPage b page).mem = s.mem := by simp [State.progPage]
@[simp] theorem State.logPlaced_mem (s : State) (l g page : Nat) : (s.logPlaced l g page).mem = s.mem := by simp [State.logPlaced]

@[simp] theorem State.placePage_mem (s : State) (l page : Nat) : (s.placePage l page).1.mem = s.mem := by
  unfold State.placePage
  (repeat' split) <;> simp

@[simp] theorem State.showPool_mem (s : State) (p : Nat) : (s.showPool p).mem = s.mem := by simp [State.showPool]
@[simp] theorem State.lifeUpdate_mem (s : State) : (s.lifeUpdate).mem = s.mem := by simp [State.lifeUpdate]

@[simp] theorem State.refuge_mem (s : State) (x : Block) (d : Nat) : (s.refuge x d).mem = s.mem := by
  unfold State.refuge
  split <;> simp

@[simp] theorem State.renameBlk_mem (s : State) (b d : Nat) : (s.renameBlk b d).mem = s.mem := by simp [State.renameBlk]

@[simp] theorem State.retire_mem (s : State) (b : Nat) : (s.retire b).mem = s.mem := by
  unfold State.retire
  simp only
  cases h : State.takeFree _ _ <;> simp

@[simp] theorem State.startMove_mem (s : State) (src : Nat) (dst : Option Nat) (wear : Bool) :
    (s.startMove src dst wear).mem = s.mem := by
  unfold State.startMove
  split <;> simp

@[simp] theorem State.refreshNext_mem (s : State) : (s.refreshNext).mem = s.mem := by
  unfold State.refreshNext
  (repeat' split) <;> simp

@[simp] theorem State.wearMove_mem (s : State) (p : Nat) : (s.wearMove p).mem = s.mem := by
  unfold State.wearMove
  split <;> simp

@[simp] theorem State.discardNow_mem (s : State) (a n : Nat) : (s.discardNow a n).mem = s.mem := by simp [State.discardNow]
@[simp] theorem State.trimNow_mem (s : State) (r off : Nat) : (s.trimNow r off).mem = s.mem := by simp [State.trimNow]

/-! #### Left alone: CommitCtl -/

@[simp] theorem State.allocRead_mem (s : State) (i : Iface) : (s.allocRead i).2.mem = s.mem := by
  have h := s.openGroup_mem i.issuer false
  unfold State.allocRead
  split <;> next he => simp_all

@[simp] theorem execGroupOpen_mem (i : Iface) (s : State) : (afterOut (execGroupOpen i s) s).mem = s.mem := by simp [execGroupOpen]

@[simp] theorem State.pushAction_mem (s : State) (i : Iface) (w g : Nat) : (s.pushAction i w g).mem = s.mem := by
  simp [State.pushAction]

@[simp] theorem execActionStage_mem (i : Iface) (w g : Nat) (s : State) : (afterOut (execActionStage i w g s) s).mem = s.mem := by
  simp [execActionStage]

@[simp] theorem execGroupAbort_mem (i : Iface) (g : Nat) (s : State) : (afterOut (execGroupAbort i g s) s).mem = s.mem := by
  simp [execGroupAbort]

@[simp] theorem execDurabilityOverrun_mem (g : Nat) (s : State) : (afterOut (execDurabilityOverrun g s) s).mem = s.mem := by
  simp [execDurabilityOverrun]

@[simp] theorem execIntentDurable_mem (g : Nat) (s : State) : (afterOut (execIntentDurable g s) s).mem = s.mem := by
  simp [execIntentDurable]

@[simp] theorem execGroupWithdraw_mem (g : Nat) (s : State) : (afterOut (execGroupWithdraw g s) s).mem = s.mem := by
  simp [execGroupWithdraw]

@[simp] theorem State.gstatRead_mem (s : State) : (s.gstatRead).2.mem = s.mem := by simp [State.gstatRead]

@[simp] theorem execCmtGstatRead_mem (i : Iface) (s : State) : (afterOut (execCmtGstatRead i s) s).mem = s.mem := by
  simp [execCmtGstatRead]

@[simp] theorem State.jseqRead_mem (s : State) : (s.jseqRead).2.mem = s.mem := by simp [State.jseqRead]

@[simp] theorem execJseqCapture_mem (i : Iface) (s : State) : (afterOut (execJseqCapture i s) s).mem = s.mem := by
  simp [execJseqCapture]

@[simp] theorem State.cntRead_mem (s : State) : (s.cntRead).2.mem = s.mem := by simp [State.cntRead]

@[simp] theorem execCounterCapture_mem (i : Iface) (s : State) : (afterOut (execCounterCapture i s) s).mem = s.mem := by
  simp [execCounterCapture]

@[simp] theorem State.logCapture_mem (s : State) (i : Iface) (w : Nat) : (s.logCapture i w).mem = s.mem := by
  unfold State.logCapture
  simp only
  split <;> simp

@[simp] theorem execLogbookReadSelect_mem (i : Iface) (w : Nat) (number : Word) (s : State) :
    (afterOut (execLogbookReadSelect i w number s) s).mem = s.mem := by simp [execLogbookReadSelect]

/-! #### Left alone: DoneOps -/

@[simp] theorem State.recDone_mem (s : State) (n : Nat) : (s.recDone n).mem = s.mem := by
  unfold State.recDone
  split <;> simp

@[simp] theorem State.clearDone_mem (s : State) : (s.clearDone).mem = s.mem := by simp [State.clearDone]

/-! #### Left alone: OarsmanAlu -/

@[simp] theorem State.oarDo_mem (s : State) (n cycles : Nat) (f : Oarsman → State → State) (h : ∀ o s, (f o s).mem = s.mem) :
    (s.oarDo n cycles f).mem = s.mem := by
  unfold State.oarDo
  simp only
  split
  · rfl
  · split <;> simp [h]

@[simp] theorem State.oarRet_mem (s : State) (n : Nat) (o : Oarsman) (gd : Nat) (v : Word) : (s.oarRet n o gd v).mem = s.mem := by
  simp [State.oarRet]

@[simp] theorem State.oarAlu_mem (s : State) (n gd cycles : Nat) (f : Oarsman → Word) : (s.oarAlu n gd cycles f).mem = s.mem := by
  simp [State.oarAlu]

@[simp] theorem execOpAdd_mem (n gd ga gb : Nat) (s : State) : (afterOut (execOpAdd n gd ga gb s) s).mem = s.mem := by simp [execOpAdd]
@[simp] theorem execOpSub_mem (n gd ga gb : Nat) (s : State) : (afterOut (execOpSub n gd ga gb s) s).mem = s.mem := by simp [execOpSub]
@[simp] theorem execOpAnd_mem (n gd ga gb : Nat) (s : State) : (afterOut (execOpAnd n gd ga gb s) s).mem = s.mem := by simp [execOpAnd]
@[simp] theorem execOpOr_mem (n gd ga gb : Nat) (s : State) : (afterOut (execOpOr n gd ga gb s) s).mem = s.mem := by simp [execOpOr]
@[simp] theorem execOpXor_mem (n gd ga gb : Nat) (s : State) : (afterOut (execOpXor n gd ga gb s) s).mem = s.mem := by simp [execOpXor]
@[simp] theorem execOpShl_mem (n gd ga gb : Nat) (s : State) : (afterOut (execOpShl n gd ga gb s) s).mem = s.mem := by simp [execOpShl]
@[simp] theorem execOpShr_mem (n gd ga gb : Nat) (s : State) : (afterOut (execOpShr n gd ga gb s) s).mem = s.mem := by simp [execOpShr]
@[simp] theorem execOpSra_mem (n gd ga gb : Nat) (s : State) : (afterOut (execOpSra n gd ga gb s) s).mem = s.mem := by simp [execOpSra]
@[simp] theorem execOpMul_mem (n gd ga gb : Nat) (s : State) : (afterOut (execOpMul n gd ga gb s) s).mem = s.mem := by simp [execOpMul]

@[simp] theorem execOpMulh_mem (n gd ga gb : Nat) (s : State) : (afterOut (execOpMulh n gd ga gb s) s).mem = s.mem := by
  simp [execOpMulh]

@[simp] theorem execOpSltu_mem (n gd ga gb : Nat) (s : State) : (afterOut (execOpSltu n gd ga gb s) s).mem = s.mem := by
  simp [execOpSltu]

@[simp] theorem execOpSlt_mem (n gd ga gb : Nat) (s : State) : (afterOut (execOpSlt n gd ga gb s) s).mem = s.mem := by simp [execOpSlt]

@[simp] theorem execOpAddi_mem (n gd ga imm : Nat) (s : State) : (afterOut (execOpAddi n gd ga imm s) s).mem = s.mem := by
  simp [execOpAddi]

@[simp] theorem execOpAndi_mem (n gd ga imm : Nat) (s : State) : (afterOut (execOpAndi n gd ga imm s) s).mem = s.mem := by
  simp [execOpAndi]

@[simp] theorem execOpOri_mem (n gd ga imm : Nat) (s : State) : (afterOut (execOpOri n gd ga imm s) s).mem = s.mem := by
  simp [execOpOri]

@[simp] theorem execOpXori_mem (n gd ga imm : Nat) (s : State) : (afterOut (execOpXori n gd ga imm s) s).mem = s.mem := by
  simp [execOpXori]

@[simp] theorem execOpShli_mem (n gd ga imm : Nat) (s : State) : (afterOut (execOpShli n gd ga imm s) s).mem = s.mem := by
  simp [execOpShli]

@[simp] theorem execOpShri_mem (n gd ga imm : Nat) (s : State) : (afterOut (execOpShri n gd ga imm s) s).mem = s.mem := by
  simp [execOpShri]

@[simp] theorem execOpLui_mem (n gd imm : Nat) (s : State) : (afterOut (execOpLui n gd imm s) s).mem = s.mem := by simp [execOpLui]

@[simp] theorem State.oarMem_mem (s : State) (n : Nat) (o : Oarsman) (base : Nat) (off : Word) (len al : Nat) (f : Nat → State)
    (h : ∀ a, (f a).mem = s.mem) : (s.oarMem n o base off len al f).mem = s.mem := by
  unfold State.oarMem
  simp only
  split <;> simp [h]

@[simp] theorem execOpLdw_mem (n gd ga imm : Nat) (s : State) : (afterOut (execOpLdw n gd ga imm s) s).mem = s.mem := by
  simp [execOpLdw]

@[simp] theorem execOpStw_mem (n gd ga imm : Nat) (s : State) : (afterOut (execOpStw n gd ga imm s) s).mem = s.mem := by
  simp [execOpStw]

@[simp] theorem execOpLdb_mem (n gd ga imm : Nat) (s : State) : (afterOut (execOpLdb n gd ga imm s) s).mem = s.mem := by
  simp [execOpLdb]

@[simp] theorem execOpStb_mem (n gd ga imm : Nat) (s : State) : (afterOut (execOpStb n gd ga imm s) s).mem = s.mem := by
  simp [execOpStb]

@[simp] theorem execOpFex_mem (n gd ga imm : Nat) (s : State) : (afterOut (execOpFex n gd ga imm s) s).mem = s.mem := by
  simp [execOpFex]

@[simp] theorem execOpFins_mem (n gd ga imm : Nat) (s : State) : (afterOut (execOpFins n gd ga imm s) s).mem = s.mem := by
  simp [execOpFins]

@[simp] theorem State.oarBranch_mem (s : State) (n target : Nat) (c : Oarsman → Bool) : (s.oarBranch n target c).mem = s.mem := by
  simp [State.oarBranch]

@[simp] theorem execOpBeq_mem (n ga gb target : Nat) (s : State) : (afterOut (execOpBeq n ga gb target s) s).mem = s.mem := by
  simp [execOpBeq]

@[simp] theorem execOpBne_mem (n ga gb target : Nat) (s : State) : (afterOut (execOpBne n ga gb target s) s).mem = s.mem := by
  simp [execOpBne]

@[simp] theorem execOpBltu_mem (n ga gb target : Nat) (s : State) : (afterOut (execOpBltu n ga gb target s) s).mem = s.mem := by
  simp [execOpBltu]

@[simp] theorem execOpBgeu_mem (n ga gb target : Nat) (s : State) : (afterOut (execOpBgeu n ga gb target s) s).mem = s.mem := by
  simp [execOpBgeu]

@[simp] theorem execOpJmp_mem (n target : Nat) (s : State) : (afterOut (execOpJmp n target s) s).mem = s.mem := by simp [execOpJmp]

@[simp] theorem execOpCall_mem (n gd target : Nat) (s : State) : (afterOut (execOpCall n gd target s) s).mem = s.mem := by
  simp [execOpCall]

@[simp] theorem execOpJr_mem (n ga : Nat) (s : State) : (afterOut (execOpJr n ga s) s).mem = s.mem := by simp [execOpJr]

@[simp] theorem execOpTxt_mem (n gd : Nat) (s : State) : (afterOut (execOpTxt n gd s) s).mem = s.mem := by
  simp only [execOpTxt, afterOut_out_mem]
  refine State.oarDo_mem s n 4 _ fun o s => ?_
  split
  · next h => simp [State.txnTake_mem h]
  · simp

@[simp] theorem execOpTxf_mem (n ga : Nat) (s : State) : (afterOut (execOpTxf n ga s) s).mem = s.mem := by simp [execOpTxf]
@[simp] theorem execOpFacq_mem (n gd ga : Nat) (s : State) : (afterOut (execOpFacq n gd ga s) s).mem = s.mem := by simp [execOpFacq]
@[simp] theorem execOpFrel_mem (n ga : Nat) (s : State) : (afterOut (execOpFrel n ga s) s).mem = s.mem := by simp [execOpFrel]

@[simp] theorem execOpPop_mem (n gd ga imm : Nat) (s : State) : (afterOut (execOpPop n gd ga imm s) s).mem = s.mem := by
  simp only [execOpPop, afterOut_out_mem]
  refine State.oarDo_mem s n 2 _ fun o s => ?_
  split
  · simp
  · split
    · next h =>
      split <;> simp [State.deliver_mem h]
    · simp

@[simp] theorem execOpPush_mem (n gd ga imm : Nat) (s : State) : (afterOut (execOpPush n gd ga imm s) s).mem = s.mem := by
  simp [execOpPush]

@[simp] theorem execOpQop_mem (n ga imm : Nat) (s : State) : (afterOut (execOpQop n ga imm s) s).mem = s.mem := by simp [execOpQop]
@[simp] theorem execOpLwx_mem (n gd ga gb : Nat) (s : State) : (afterOut (execOpLwx n gd ga gb s) s).mem = s.mem := by simp [execOpLwx]
@[simp] theorem execOpLwp_mem (n gd ga gb : Nat) (s : State) : (afterOut (execOpLwp n gd ga gb s) s).mem = s.mem := by simp [execOpLwp]
@[simp] theorem execOpStamp_mem (n ga : Nat) (s : State) : (afterOut (execOpStamp n ga s) s).mem = s.mem := by simp [execOpStamp]

@[simp] theorem execOpXnow_mem (n gd imm : Nat) (s : State) : (afterOut (execOpXnow n gd imm s) s).mem = s.mem := by
  unfold execOpXnow
  split <;> simp

@[simp] theorem execOpWait_mem (n gd imm : Nat) (s : State) : (afterOut (execOpWait n gd imm s) s).mem = s.mem := by simp [execOpWait]

@[simp] theorem execOarsmanWaitEnd_mem (n : Nat) (s : State) : (afterOut (execOarsmanWaitEnd n s) s).mem = s.mem := by
  unfold execOarsmanWaitEnd
  split <;> simp

@[simp] theorem execOpWaitx_mem (n gd ga imm : Nat) (s : State) : (afterOut (execOpWaitx n gd ga imm s) s).mem = s.mem := by
  simp [execOpWaitx]

@[simp] theorem execWaitxInstantReached_mem (n : Nat) (s : State) : (afterOut (execWaitxInstantReached n s) s).mem = s.mem := by
  unfold execWaitxInstantReached
  split <;> simp

@[simp] theorem execOpWaitu_mem (n ga : Nat) (s : State) : (afterOut (execOpWaitu n ga s) s).mem = s.mem := by simp [execOpWaitu]

@[simp] theorem execWaituExpiry_mem (n : Nat) (s : State) : (afterOut (execWaituExpiry n s) s).mem = s.mem := by
  unfold execWaituExpiry
  split <;> simp

@[simp] theorem execOpSignal_mem (n : Nat) (s : State) : (afterOut (execOpSignal n s) s).mem = s.mem := by simp [execOpSignal]
@[simp] theorem execOpTrap_mem (n imm : Nat) (s : State) : (afterOut (execOpTrap n imm s) s).mem = s.mem := by simp [execOpTrap]

/-! #### Left alone: OarsmanSys -/

@[simp] theorem State.jobIssued_mem (s : State) : (s.jobIssued).mem = s.mem := by simp [State.jobIssued]

@[simp] theorem execOpHsub_mem (n gd ga : Nat) (s : State) : (afterOut (execOpHsub n gd ga s) s).mem = s.mem := by
  simp only [execOpHsub, afterOut_out_mem]
  refine State.oarDo_mem s n 4 _ fun o s => ?_
  refine State.oarMem_mem s n o ga 0 32 1 _ fun a => ?_
  split
  · simp
  · split
    · simp
    · split
      · simp
      · split <;> simp

@[simp] theorem execOpHwait_mem (n gd ga : Nat) (s : State) : (afterOut (execOpHwait n gd ga s) s).mem = s.mem := by
  simp only [execOpHwait, afterOut_out_mem]
  refine State.oarDo_mem s n 2 _ fun o s => ?_
  split
  · simp
  · split <;> simp

@[simp] theorem State.jobDone_mem (s : State) (n tag : Nat) (j : HashJob) (poisoned : Bool) :
    (s.jobDone n tag j poisoned).mem = s.mem := by
  unfold State.jobDone
  simp only
  split <;> simp

@[simp] theorem State.submitStalled_mem (s : State) (n : Nat) : (s.submitStalled n).mem = s.mem := by
  unfold State.submitStalled
  simp only
  split <;> simp

@[simp] theorem State.engineDone_mem (s : State) (x : Nat × Nat × Nat) : (s.engineDone x).mem = s.mem := by simp [State.engineDone]

@[simp] theorem State.hashResult_mem (s : State) (n tag ord : Nat) (poisoned : Bool) :
    (s.hashResult n tag ord poisoned).mem = s.mem := by
  unfold State.hashResult
  split <;> simp

@[simp] theorem execHashJobComplete_mem (n tag : Nat) (poisoned : Bool) (s : State) :
    (afterOut (execHashJobComplete n tag poisoned s) s).mem = s.mem := by
  unfold execHashJobComplete
  split <;> simp

@[simp] theorem execOpCopen_mem (n gd imm : Nat) (s : State) : (afterOut (execOpCopen n gd imm s) s).mem = s.mem := by
  simp only [execOpCopen, afterOut_out_mem]
  refine State.oarDo_mem s n 4 _ fun o s => ?_
  have hg := s.openGroup_mem n (natBit imm 0)
  split
  · simp
  · split
    · simp
    · split <;> next he => simp_all

@[simp] theorem execOpCstage_mem (n gd ga imm : Nat) (s : State) : (afterOut (execOpCstage n gd ga imm s) s).mem = s.mem := by
  simp [execOpCstage]

@[simp] theorem execOpCabort_mem (n gd imm : Nat) (s : State) : (afterOut (execOpCabort n gd imm s) s).mem = s.mem := by
  simp [execOpCabort]

@[simp] theorem execOpCwaitd_mem (n gd imm : Nat) (s : State) : (afterOut (execOpCwaitd n gd imm s) s).mem = s.mem := by
  simp only [execOpCwaitd, afterOut_out_mem]
  refine State.oarDo_mem s n 2 _ fun o s => ?_
  split
  · simp
  · split <;> simp

@[simp] theorem State.oarHalt_mem (s : State) (n : Nat) : (s.oarHalt n).mem = s.mem := by simp [State.oarHalt]
@[simp] theorem State.oarUnhalt_mem (s : State) (n : Nat) : (s.oarUnhalt n).mem = s.mem := by simp [State.oarUnhalt]

@[simp] theorem State.oarCtrl_mem (s : State) (i : Iface) (n : Nat) (v : Word) : (s.oarCtrl i n v).mem = s.mem := by
  simp [State.oarCtrl]

@[simp] theorem execOarsmanRestart_mem (i : Iface) (n : Nat) (s : State) :
    (afterOut (execOarsmanRestart i n s) s).mem = s.mem := by simp [execOarsmanRestart]

@[simp] theorem execOarsmanHalt_mem (i : Iface) (n : Nat) (s : State) : (afterOut (execOarsmanHalt i n s) s).mem = s.mem := by
  simp [execOarsmanHalt]

@[simp] theorem execOarsmanResume_mem (i : Iface) (n : Nat) (s : State) : (afterOut (execOarsmanResume i n s) s).mem = s.mem := by
  simp [execOarsmanResume]

@[simp] theorem execSealCoreRestart_mem (n : Nat) (s : State) : (afterOut (execSealCoreRestart n s) s).mem = s.mem := by
  simp [execSealCoreRestart]

@[simp] theorem execEbfinHalt_mem (n : Nat) (s : State) : (afterOut (execEbfinHalt n s) s).mem = s.mem := by simp [execEbfinHalt]

@[simp] theorem State.ebAccess_mem (s : State) (n : Nat) (x : EbAccess) : (s.ebAccess n x).mem = s.mem := by
  unfold State.ebAccess
  split <;> simp

@[simp] theorem execEbfinAccess_mem (n : Nat) (a : EbAccess) (s : State) : (afterOut (execEbfinAccess n a s) s).mem = s.mem := by
  simp [execEbfinAccess]

/-! #### Left alone: Tariff -/

@[simp] theorem State.reqResult_mem (s : State) (b : List Byte) (res detail ver : Nat) :
    (s.reqResult b res detail ver).mem = s.mem := by simp [State.reqResult]

@[simp] theorem State.reqMark_mem (s : State) (b : List Byte) : (s.reqMark b).mem = s.mem := by simp [State.reqMark]

@[simp] theorem State.setBuilding_mem (s : State) (g : Nat) (b : List Byte) : (s.setBuilding g b).mem = s.mem := by
  simp [State.setBuilding]

@[simp] theorem State.tariffOpen_mem (s : State) (g : Nat) : (s.tariffOpen g).2.mem = s.mem := by
  unfold State.tariffOpen
  split <;> simp

@[simp] theorem State.tariffWrite_mem (s : State) (g : Nat) (b : List Byte) : (s.tariffWrite g b).2.mem = s.mem := by
  unfold State.tariffWrite
  simp only
  (repeat' split) <;> simp

@[simp] theorem State.tariffClose_mem (s : State) (g : Nat) (b : List Byte) : (s.tariffClose g b).2.mem = s.mem := by
  unfold State.tariffClose
  (repeat' split) <;> simp

@[simp] theorem State.tariffActivate_mem (s : State) (g : Nat) (b : List Byte) : (s.tariffActivate g b).2.mem = s.mem := by
  unfold State.tariffActivate
  split <;> simp

@[simp] theorem State.tariffCancel_mem (s : State) (g : Nat) : (s.tariffCancel g).2.mem = s.mem := by
  unfold State.tariffCancel
  (repeat' split) <;> simp

@[simp] theorem State.tariffDo_mem (s : State) (g : Nat) (b : List Byte) : (s.tariffDo g b).2.mem = s.mem := by
  unfold State.tariffDo
  split <;> simp

@[simp] theorem execCalendarMinute_mem (s : State) : (afterOut (execCalendarMinute s) s).mem = s.mem := by simp [execCalendarMinute]

@[simp] theorem execTrfGroupQuery_mem (i : Iface) (v : Word) (s : State) :
    (afterOut (execTrfGroupQuery i v s) s).mem = s.mem := by simp [execTrfGroupQuery]

@[simp] theorem execRateQuery_mem (i : Iface) (v : Word) (s : State) : (afterOut (execRateQuery i v s) s).mem = s.mem := by
  simp [execRateQuery]

/-! #### Left alone: Wharf -/

@[simp] theorem State.setPage_mem (s : State) (n : Nat) (p : Page) : (s.setPage n p).mem = s.mem := by simp [State.setPage]

@[simp] theorem State.doorPush_mem (s : State) (i : Iface) (n : Nat) (v : Word) : (s.doorPush i n v).mem = s.mem := by
  simp [State.doorPush]

@[simp] theorem execDoorbellPush_mem (i : Iface) (q : Nat) (v : Word) (s : State) :
    (afterOut (execDoorbellPush i q v s) s).mem = s.mem := by simp [execDoorbellPush]

@[simp] theorem State.useGrant_mem (s : State) (i : Iface) : (s.useGrant i).mem = s.mem := by
  unfold State.useGrant
  (repeat' split) <;> simp

@[simp] theorem State.doorPop_mem (s : State) (i : Iface) (n : Nat) : (s.doorPop i n).2.mem = s.mem := by
  unfold State.doorPop
  split
  · split
    · rfl
    · next h => simp [State.deliver_mem h]
  · rfl

@[simp] theorem execDoorbellPop_mem (i : Iface) (q : Nat) (s : State) : (afterOut (execDoorbellPop i q s) s).mem = s.mem := by
  simp [execDoorbellPop]

@[simp] theorem State.resumeProducer_mem (s : State) (p : Producer) : (s.resumeProducer p).mem = s.mem := by
  unfold State.resumeProducer
  (repeat' split) <;> simp

@[simp] theorem State.grantClaim_mem (s : State) (n : Nat) : (s.grantClaim n).mem = s.mem := by
  unfold State.grantClaim
  simp only
  split <;> simp

@[simp] theorem execQueueRelease_mem (i : Iface) (q : Nat) (all : Bool) (iseq : Nat) (s : State) :
    (afterOut (execQueueRelease i q all iseq s) s).mem = s.mem := by simp [execQueueRelease]

@[simp] theorem execQueueRewind_mem (i : Iface) (q : Nat) (s : State) : (afterOut (execQueueRewind i q s) s).mem = s.mem := by
  simp [execQueueRewind]

@[simp] theorem execQueueDone_mem (i : Iface) (q iseq : Nat) (s : State) :
    (afterOut (execQueueDone i q iseq s) s).mem = s.mem := by simp [execQueueDone]

@[simp] theorem State.clrQCnt_mem (s : State) (n : Nat) : (s.clrQCnt n).mem = s.mem := by simp [State.clrQCnt]

@[simp] theorem execWhfQCntClear_mem (i : Iface) (q : Nat) (s : State) : (afterOut (execWhfQCntClear i q s) s).mem = s.mem := by
  simp [execWhfQCntClear]

/-! #### Left alone: CommitDone -/

@[simp] theorem execQueueIdleTimeout_mem (q : Nat) (s : State) : (afterOut (execQueueIdleTimeout q s) s).mem = s.mem := by
  simp [execQueueIdleTimeout]

/-! #### Left alone: EptCmdOps -/

@[simp] theorem State.setStage_mem (s : State) (b : List Byte) : (s.setStage b).mem = s.mem := by simp [State.setStage]
@[simp] theorem State.eptResult_mem (s : State) (r : Nat) : (s.eptResult r).mem = s.mem := by simp [State.eptResult]

@[simp] theorem State.enrol_mem (s : State) : (s.enrol).mem = s.mem := by
  unfold State.enrol
  simp only
  (repeat' split) <;> simp

@[simp] theorem State.barOp_mem (s : State) (k : Nat) (on : Bool) : (s.barOp k on).mem = s.mem := by simp [State.barOp]

@[simp] theorem State.removeOp_mem (s : State) (k : Nat) : (s.removeOp k).mem = s.mem := by
  unfold State.removeOp
  (repeat' split) <;> simp

@[simp] theorem State.reEnrol_mem (s : State) (k : Nat) : (s.reEnrol k).mem = s.mem := by
  unfold State.reEnrol
  simp only
  (repeat' split) <;> simp

@[simp] theorem State.opWaits_mem (s : State) (op i : Nat) : (s.opWaits op i).mem = s.mem := by simp [State.opWaits]
@[simp] theorem State.readOp_mem (s : State) (k : Nat) : (s.readOp k).mem = s.mem := by simp [State.readOp]
@[simp] theorem State.deleteOp_mem (s : State) (i : Nat) : (s.deleteOp i).mem = s.mem := by simp [State.deleteOp]

@[simp] theorem State.rewrapOp_mem (s : State) : (s.rewrapOp).mem = s.mem := by
  unfold State.rewrapOp
  split <;> simp

@[simp] theorem State.flowOp_mem (s : State) (op i : Nat) : (s.flowOp op i).mem = s.mem := by
  unfold State.flowOp
  split <;> simp

@[simp] theorem State.eptOp_mem (s : State) (op i : Nat) : (s.eptOp op i).mem = s.mem := by simp [State.eptOp]

@[simp] theorem State.retryOp_mem (s : State) : (s.retryOp).mem = s.mem := by
  unfold State.retryOp
  split <;> simp

/-! #### Left alone: Endpoints -/

@[simp] theorem State.tableOp_mem (s : State) (i : Iface) (op idx : Nat) : (s.tableOp i op idx).mem = s.mem := by simp [State.tableOp]
@[simp] theorem execEnrol_mem (i : Iface) (s : State) : (afterOut (execEnrol i s) s).mem = s.mem := by simp [execEnrol]
@[simp] theorem execBar_mem (i : Iface) (idx : Nat) (s : State) : (afterOut (execBar i idx s) s).mem = s.mem := by simp [execBar]
@[simp] theorem execUnbar_mem (i : Iface) (idx : Nat) (s : State) : (afterOut (execUnbar i idx s) s).mem = s.mem := by simp [execUnbar]

@[simp] theorem execRemove_mem (i : Iface) (idx : Nat) (s : State) : (afterOut (execRemove i idx s) s).mem = s.mem := by
  simp [execRemove]

@[simp] theorem execReEnrol_mem (i : Iface) (idx : Nat) (s : State) : (afterOut (execReEnrol i idx s) s).mem = s.mem := by
  simp [execReEnrol]

@[simp] theorem execRewrap_mem (i : Iface) (s : State) : (afterOut (execRewrap i s) s).mem = s.mem := by simp [execRewrap]

@[simp] theorem execRewrapComplete_mem (s : State) : (afterOut (execRewrapComplete s) s).mem = s.mem := by
  unfold execRewrapComplete
  split <;> simp

@[simp] theorem execContextRead_mem (i : Iface) (idx : Nat) (s : State) : (afterOut (execContextRead i idx s) s).mem = s.mem := by
  simp [execContextRead]

@[simp] theorem execDeleteEnrolment_mem (i : Iface) (idx : Nat) (s : State) :
    (afterOut (execDeleteEnrolment i idx s) s).mem = s.mem := by simp [execDeleteEnrolment]

@[simp] theorem execQuarantineExpiry_mem (slot : Nat) (s : State) : (afterOut (execQuarantineExpiry slot s) s).mem = s.mem := by
  simp [execQuarantineExpiry]

/-! #### Left alone: Gangway -/

@[simp] theorem State.refuseAttach_mem (s : State) (eui gen status : Nat) : (s.refuseAttach eui gen status).mem = s.mem := by
  simp [State.refuseAttach]

@[simp] theorem State.acceptAttach_mem (s : State) (c : ChipEnrol) (gen first : Nat) (cells : List Nat) :
    (s.acceptAttach c gen first cells).mem = s.mem := by simp [State.acceptAttach]

@[simp] theorem execAttachReceived_mem (b : List Byte) (s : State) : (afterOut (execAttachReceived b s) s).mem = s.mem := by
  unfold execAttachReceived
  simp only
  (repeat' split) <;> simp

@[simp] theorem State.attachRefused_mem (s : State) (status : Nat) : (s.attachRefused status).mem = s.mem := by
  simp [State.attachRefused]

@[simp] theorem State.attachDone_mem (s : State) (b : List Byte) : (s.attachDone b).mem = s.mem := by simp [State.attachDone]

@[simp] theorem execAttachAnswerReceived_mem (b : List Byte) (s : State) :
    (afterOut (execAttachAnswerReceived b s) s).mem = s.mem := by
  unfold execAttachAnswerReceived
  (repeat' split) <;> simp

@[simp] theorem execAttachResend_mem (s : State) : (afterOut (execAttachResend s) s).mem = s.mem := by simp [execAttachResend]
@[simp] theorem execAttachGiveUp_mem (s : State) : (afterOut (execAttachGiveUp s) s).mem = s.mem := by simp [execAttachGiveUp]
@[simp] theorem execAttachRetry_mem (s : State) : (afterOut (execAttachRetry s) s).mem = s.mem := by simp [execAttachRetry]
@[simp] theorem execPeerDown_mem (p : Nat) (s : State) : (afterOut (execPeerDown p s) s).mem = s.mem := by simp [execPeerDown]
@[simp] theorem State.batchAcked_mem (s : State) (p bseq : Nat) : (s.batchAcked p bseq).mem = s.mem := by simp [State.batchAcked]

@[simp] theorem State.gwyRelease_mem (s : State) (p : Nat) (b : List Byte) : (s.gwyRelease p b).mem = s.mem := by
  simp [State.gwyRelease]

theorem State.gwyTake_mem {s u : State} {b : List Byte} {x : Bool} (h : s.gwyTake b = some (x, u)) : u.mem = s.mem := by
  unfold State.gwyTake at h
  simp only at h
  split at h
  · cases h
  · split at h
    · cases h
    · cases h
      simp

@[simp] theorem State.onMessage_mem (s : State) (b : List Byte) (f : State → State) (h : ∀ s, (f s).mem = s.mem) :
    (s.onMessage b f).mem = s.mem := by
  unfold State.onMessage
  split
  · rfl
  · next ht => rw [h, State.gwyTake_mem ht]
  · next ht => exact State.gwyTake_mem ht

@[simp] theorem execKeepaliveSend_mem (p : Nat) (s : State) : (afterOut (execKeepaliveSend p s) s).mem = s.mem := by
  simp [execKeepaliveSend]

@[simp] theorem execKeepaliveReceived_mem (b : List Byte) (s : State) : (afterOut (execKeepaliveReceived b s) s).mem = s.mem := by
  simp [execKeepaliveReceived]

@[simp] theorem State.anchorIn_mem (s : State) (b : List Byte) (t : Nat) : (s.anchorIn b t).mem = s.mem := by simp [State.anchorIn]

@[simp] theorem execAnchorReceived_mem (x : Nat) (b : List Byte) (s : State) :
    (afterOut (execAnchorReceived x b s) s).mem = s.mem := by simp [execAnchorReceived]

@[simp] theorem State.snapshotIn_mem (s : State) (b : List Byte) : (s.snapshotIn b).mem = s.mem := by simp [State.snapshotIn]

@[simp] theorem execSnapshotReceived_mem (b : List Byte) (s : State) : (afterOut (execSnapshotReceived b s) s).mem = s.mem := by
  simp [execSnapshotReceived]

@[simp] theorem execGangwayAckReceived_mem (b : List Byte) (s : State) :
    (afterOut (execGangwayAckReceived b s) s).mem = s.mem := by simp [execGangwayAckReceived]

@[simp] theorem execAckDelayExpiry_mem (p : Nat) (s : State) : (afterOut (execAckDelayExpiry p s) s).mem = s.mem := by
  simp [execAckDelayExpiry]

@[simp] theorem execRetransmitTimerExpiry_mem (p seq : Nat) (s : State) :
    (afterOut (execRetransmitTimerExpiry p seq s) s).mem = s.mem := by
  unfold execRetransmitTimerExpiry
  simp only
  split <;> simp

@[simp] theorem execCommandMessageReceived_mem (b : List Byte) (s : State) :
    (afterOut (execCommandMessageReceived b s) s).mem = s.mem := by
  simp only [execCommandMessageReceived, afterOut_out_mem]
  refine State.onMessage_mem s b _ fun s => ?_
  split <;> simp

@[simp] theorem State.hubRegister_mem (s : State) (p eui cell : Nat) : (s.hubRegister p eui cell).mem = s.mem := by
  unfold State.hubRegister
  simp only
  split
  · rfl
  · split
    · simp
    · split
      · simp
      · split
        · next h => simp [State.registerEp_mem h]
        · simp

@[simp] theorem execRegisterMessageHub_mem (b : List Byte) (s : State) :
    (afterOut (execRegisterMessageHub b s) s).mem = s.mem := by simp [execRegisterMessageHub]

@[simp] theorem State.registerAnswer_mem (s : State) (a : List Byte) : (s.registerAnswer a).mem = s.mem := by
  unfold State.registerAnswer
  simp only
  (repeat' split) <;> simp

@[simp] theorem execRegisterAnswerCell_mem (b : List Byte) (s : State) :
    (afterOut (execRegisterAnswerCell b s) s).mem = s.mem := by simp [execRegisterAnswerCell]

@[simp] theorem State.badBatch_mem (s : State) (p seq : Nat) (whole : List Byte) (rest : List (Nat × Nat × Nat × List Byte)) :
    (s.badBatch p seq whole rest).mem = s.mem := by simp [State.badBatch]

/-! #### Left alone: TrustOps -/

@[simp] theorem State.noteSynced_mem (s : State) : (s.noteSynced).mem = s.mem := by simp [State.noteSynced]
@[simp] theorem State.trustFollows_mem (s : State) (new : Nat) : (s.trustFollows new).mem = s.mem := by simp [State.trustFollows]
@[simp] theorem State.setTrust_mem (s : State) (new cause : Nat) : (s.setTrust new cause).mem = s.mem := by simp [State.setTrust]
@[simp] theorem State.trustSynced_mem (s : State) : (s.trustSynced).mem = s.mem := by simp [State.trustSynced]
@[simp] theorem State.trustEval_mem (s : State) : (s.trustEval).mem = s.mem := by simp [State.trustEval]
@[simp] theorem State.backstep_mem (s : State) : (s.backstep).mem = s.mem := by simp [State.backstep]
@[simp] theorem State.stepPtp_mem (s : State) (d : Int) : (s.stepPtp d).mem = s.mem := by simp [State.stepPtp]
@[simp] theorem State.unlockServo_mem (s : State) : (s.unlockServo).mem = s.mem := by simp [State.unlockServo]
@[simp] theorem State.trustStart_mem (s : State) : (s.trustStart).mem = s.mem := by simp [State.trustStart]

/-! #### Left alone: Ptp -/

@[simp] theorem State.servoLock_mem (s : State) (off : Int) : (s.servoLock off).mem = s.mem := by simp [State.servoLock]
@[simp] theorem State.setSlew_mem (s : State) : (s.setSlew).mem = s.mem := by simp [State.setSlew]
@[simp] theorem State.setSlave_mem (s : State) (x : Nat) (v : PtpPort) : (s.setSlave x v).mem = s.mem := by simp [State.setSlave]
@[simp] theorem State.servo_mem (s : State) (offset : Int) : (s.servo offset).mem = s.mem := by simp [State.servo]

@[simp] theorem State.takeSync_mem (s : State) (x t1 t2 : Nat) (corr : Int) : (s.takeSync x t1 t2 corr).mem = s.mem := by
  simp [State.takeSync]

@[simp] theorem State.syncIn_mem (s : State) (x : Nat) (b : List Byte) : (s.syncIn x b).mem = s.mem := by simp [State.syncIn]

@[simp] theorem State.followIn_mem (s : State) (x : Nat) (b : List Byte) (o : Nat) : (s.followIn x b o).mem = s.mem := by
  unfold State.followIn
  split <;> simp

@[simp] theorem State.delayIn_mem (s : State) (x : Nat) (b : List Byte) (o : Nat) : (s.delayIn x b o).mem = s.mem := by
  unfold State.delayIn
  simp only
  split <;> simp

@[simp] theorem execPtpSyncReceived_mem (x : Nat) (b : List Byte) (s : State) :
    (afterOut (execPtpSyncReceived x b s) s).mem = s.mem := by simp [execPtpSyncReceived]

@[simp] theorem execSyncTimeout_mem (s : State) : (afterOut (execSyncTimeout s) s).mem = s.mem := by simp [execSyncTimeout]
@[simp] theorem State.leaveSlave_mem (s : State) (x st : Nat) : (s.leaveSlave x st).mem = s.mem := by simp [State.leaveSlave]

@[simp] theorem execAnnounceReceiptTimeout_mem (x : Nat) (s : State) :
    (afterOut (execAnnounceReceiptTimeout x s) s).mem = s.mem := by simp [execAnnounceReceiptTimeout]

@[simp] theorem State.ptpInit_mem (s : State) : (s.ptpInit).mem = s.mem := by simp [State.ptpInit]
@[simp] theorem execPtpPortInit_mem (s : State) : (afterOut (execPtpPortInit s) s).mem = s.mem := by simp [execPtpPortInit]
@[simp] theorem State.takeUtc_mem (s : State) (b : List Byte) : (s.takeUtc b).mem = s.mem := by simp [State.takeUtc]

@[simp] theorem State.selectMaster_mem (s : State) (x : Nat) (b : List Byte) : (s.selectMaster x b).mem = s.mem := by
  simp [State.selectMaster]

@[simp] theorem execPtpAnnounceReceived_mem (x : Nat) (b : List Byte) (s : State) :
    (afterOut (execPtpAnnounceReceived x b s) s).mem = s.mem := by simp [execPtpAnnounceReceived]

/-! #### Left alone: Ethernet -/

@[simp] theorem State.placeClass0_mem (s : State) (x : Nat) (t : Stamp) (b d : List Byte) :
    (s.placeClass0 x t b d).mem = s.mem := by
  unfold State.placeClass0
  split <;> simp

@[simp] theorem State.gwyIn_mem (s : State) (t : Stamp) (d : List Byte) : (s.gwyIn t d).mem = s.mem := by
  unfold State.gwyIn
  simp only
  (repeat' split) <;> simp

@[simp] theorem State.pdelayIn_mem (s : State) (x : Nat) (t : Stamp) (b : List Byte) (o : Nat) :
    (s.pdelayIn x t b o).mem = s.mem := by simp [State.pdelayIn]

@[simp] theorem State.forwardPtp_mem (s : State) (x : Nat) (t : Stamp) (b : List Byte) (o : Nat) :
    (s.forwardPtp x t b o).mem = s.mem := by simp [State.forwardPtp]

@[simp] theorem State.delayResp_mem (s : State) (x : Nat) (t : Stamp) (b : List Byte) (o : Nat) :
    (s.delayResp x t b o).mem = s.mem := by simp [State.delayResp]

@[simp] theorem State.ptpOwn_mem (s : State) (x : Nat) (t : Stamp) (b : List Byte) (o : Nat) :
    (s.ptpOwn x t b o).mem = s.mem := by
  unfold State.ptpOwn
  split <;> simp

@[simp] theorem State.ptpIn_mem (s : State) (x : Nat) (t : Stamp) (b : List Byte) (o : Nat) : (s.ptpIn x t b o).mem = s.mem := by
  simp [State.ptpIn]

@[simp] theorem State.ethParse_mem (s : State) (x : Nat) (t : Stamp) (b : List Byte) : (s.ethParse x t b).mem = s.mem := by
  unfold State.ethParse
  (repeat' split) <;> simp

@[simp] theorem execEthFrameReceived_mem (x : Nat) (fcsOk : Bool) (b : List Byte) (s : State) :
    (afterOut (execEthFrameReceived x fcsOk b s) s).mem = s.mem := by simp [execEthFrameReceived]

@[simp] theorem execEthLinkChange_mem (x : Nat) (up : Bool) (speed : Nat) (s : State) :
    (afterOut (execEthLinkChange x up speed s) s).mem = s.mem := by simp [execEthLinkChange]

theorem State.rewriteClass0_mem {s u : State} {d : List Byte} {x : List Byte} (h : s.rewriteClass0 d = some (x, u)) :
    u.mem = s.mem := by
  obtain ⟨p, -, he⟩ := Option.map_eq_some_iff.mp h
  cases he
  simp

@[simp] theorem State.releaseHold_mem (s : State) (q : Nat) (l : LaneItem) (d : List Byte) :
    (s.releaseHold q l d).mem = s.mem := by simp [State.releaseHold]

@[simp] theorem State.class0Auth_mem (s : State) (q : Nat) : (s.class0Auth q).mem = s.mem := by
  unfold State.class0Auth
  split
  · rfl
  · simp only
    split
    · simp
    · split
      · rfl
      · split
        · simp
        · split
          · split
            · next h => simp [State.rewriteClass0_mem h]
            · simp
          · simp

@[simp] theorem execClass0AuthDone_mem (q : Nat) (s : State) : (afterOut (execClass0AuthDone q s) s).mem = s.mem := by
  simp [execClass0AuthDone]

@[simp] theorem State.followUp_mem (s : State) (x : Nat) (b : List Byte) (o : Nat) (t : Stamp) :
    (s.followUp x b o t).mem = s.mem := by simp [State.followUp]

@[simp] theorem execEthTransmitComplete_mem (x : Nat) (s : State) : (afterOut (execEthTransmitComplete x s) s).mem = s.mem := by
  unfold execEthTransmitComplete
  simp only
  (repeat' split) <;> simp

@[simp] theorem execPtpMessageInterval_mem (x typ : Nat) (s : State) :
    (afterOut (execPtpMessageInterval x typ s) s).mem = s.mem := by simp [execPtpMessageInterval]

@[simp] theorem State.pdelayResp_mem (s : State) (x : Nat) (m : List Byte) : (s.pdelayResp x m).mem = s.mem := by
  simp [State.pdelayResp]

@[simp] theorem execPdelayReqReceived_mem (x : Nat) (m : List Byte) (s : State) :
    (afterOut (execPdelayReqReceived x m s) s).mem = s.mem := by simp [execPdelayReqReceived]

@[simp] theorem State.clearEthCnt_mem (s : State) (x : Nat) (v : Word) : (s.clearEthCnt x v).mem = s.mem := by simp [State.clearEthCnt]

@[simp] theorem execEthCntClear_mem (i : Iface) (x : Nat) (s : State) : (afterOut (execEthCntClear i x s) s).mem = s.mem := by
  simp [execEthCntClear]

/-! #### Left alone: Ferryman -/

@[simp] theorem State.startOn_mem (s : State) (core t : Nat) : (s.startOn core t).mem = s.mem := by
  unfold State.startOn
  simp only
  split <;> simp

@[simp] theorem State.c0Measure_mem (s : State) (core t ns : Nat) : (s.c0Measure core t ns).mem = s.mem := by
  unfold State.c0Measure
  split <;> simp

@[simp] theorem State.dispatchHit_mem (s : State) (core : Nat) : (s.dispatchHit core).mem = s.mem := by
  unfold State.dispatchHit
  split <;> simp

@[simp] theorem execThreadDispatch_mem (core ns : Nat) (s : State) : (afterOut (execThreadDispatch core ns s) s).mem = s.mem := by
  unfold execThreadDispatch
  simp only
  split <;> simp

@[simp] theorem execPrefetchLoadDone_mem (core : Nat) (s : State) : (afterOut (execPrefetchLoadDone core s) s).mem = s.mem := by
  unfold execPrefetchLoadDone
  simp only
  (repeat' split) <;> simp

@[simp] theorem State.consume_mem (s : State) (e : Nat) : (s.consume e).mem = s.mem := by simp [State.consume]

@[simp] theorem execThreadWait_mem (core a : Nat) (b : Option Nat) (s : State) :
    (afterOut (execThreadWait core a b s) s).mem = s.mem := by
  unfold execThreadWait
  (repeat' split) <;> simp

@[simp] theorem State.workTake_mem (s : State) (core : Nat) : (s.workTake core).2.mem = s.mem := by
  unfold State.workTake
  simp only
  (repeat' split) <;> simp

@[simp] theorem execWorkTake_mem (core : Nat) (s : State) : (afterOut (execWorkTake core s) s).mem = s.mem := by
  have h := s.workTake_mem core
  unfold execWorkTake
  split <;> next he => simp_all

@[simp] theorem execTakeGranted_mem (t : Nat) (s : State) : (afterOut (execTakeGranted t s) s).mem = s.mem := by
  unfold execTakeGranted
  simp only
  split <;> simp

@[simp] theorem execThreadYield_mem (core : Nat) (s : State) : (afterOut (execThreadYield core s) s).mem = s.mem := by
  unfold execThreadYield
  split <;> simp

@[simp] theorem execThreadDone_mem (core : Nat) (s : State) : (afterOut (execThreadDone core s) s).mem = s.mem := by
  unfold execThreadDone
  split <;> simp

@[simp] theorem execThreadExit_mem (core : Nat) (s : State) : (afterOut (execThreadExit core s) s).mem = s.mem := by
  unfold execThreadExit
  split <;> simp

@[simp] theorem execSetPriority_mem (core prio : Nat) (s : State) : (afterOut (execSetPriority core prio s) s).mem = s.mem := by
  unfold execSetPriority
  simp only
  (repeat' split) <;> simp

@[simp] theorem State.createThread_mem (s : State) (i : Iface) : (s.createThread i).2.mem = s.mem := by
  unfold State.createThread
  simp only
  split <;> simp

@[simp] theorem execThreadCreate_mem (i : Iface) (s : State) : (afterOut (execThreadCreate i s) s).mem = s.mem := by
  simp [execThreadCreate]

@[simp] theorem State.c0StatRead_mem (s : State) (k : Nat) : (s.c0StatRead k).2.mem = s.mem := by simp [State.c0StatRead]

@[simp] theorem execC0StatRead_mem (i : Iface) (k : Nat) (s : State) : (afterOut (execC0StatRead i k s) s).mem = s.mem := by
  simp [execC0StatRead]

@[simp] theorem State.clrFryCnt_mem (s : State) : (s.clrFryCnt).mem = s.mem := by simp [State.clrFryCnt]

@[simp] theorem execFryCntClear_mem (i : Iface) (s : State) : (afterOut (execFryCntClear i s) s).mem = s.mem := by
  simp [execFryCntClear]

/-! #### Left alone: PanOps -/

@[simp] theorem State.panTemp_mem (s : State) : (s.panTemp).mem = s.mem := by
  unfold State.panTemp
  split <;> simp

@[simp] theorem State.drawFrame_mem (s : State) : (s.drawFrame).mem = s.mem := by simp [State.drawFrame]
@[simp] theorem State.panelRide_mem (s : State) : (s.panelRide).mem = s.mem := by simp [State.panelRide]
@[simp] theorem State.panelWarn_mem (s : State) : (s.panelWarn).mem = s.mem := by simp [State.panelWarn]
@[simp] theorem State.legalPaint_mem (s : State) : (s.legalPaint).mem = s.mem := by simp [State.legalPaint]
@[simp] theorem State.fbAddr_mem (s : State) : (s.fbAddr).mem = s.mem := by simp [State.fbAddr]
@[simp] theorem State.fbNext_mem (s : State) : (s.fbNext).mem = s.mem := by simp [State.fbNext]
@[simp] theorem State.fbWrite_mem (s : State) (v : Word) : (s.fbWrite v).mem = s.mem := by simp [State.fbWrite]
@[simp] theorem State.fbRead_mem (s : State) : (s.fbRead).2.mem = s.mem := by simp [State.fbRead]

@[simp] theorem State.keyChange_mem (s : State) (k : Nat) (down : Bool) : (s.keyChange k down).mem = s.mem := by
  unfold State.keyChange
  simp only
  (repeat' split) <;> simp

/-! #### Left alone: PinOps -/

@[simp] theorem State.pinsDown_mem (s : State) : (s.pinsDown).mem = s.mem := by simp [State.pinsDown]

/-! #### Left alone: PowOps -/

@[simp] theorem State.avsSet_mem (s : State) (want : Nat) : (s.avsSet want).mem = s.mem := by simp [State.avsSet]
@[simp] theorem State.setClock_mem (s : State) (c : Nat) : (s.setClock c).mem = s.mem := by simp [State.setClock]
@[simp] theorem State.changeClock_mem (s : State) (c : Nat) : (s.changeClock c).mem = s.mem := by simp [State.changeClock]
@[simp] theorem State.lockTest_mem (s : State) (win cause : Nat) : (s.lockTest win cause).mem = s.mem := by simp [State.lockTest]

@[simp] theorem State.plcWarn_mem (s : State) (p : Nat) : (s.plcWarn p).mem = s.mem := by
  unfold State.plcWarn
  split <;> simp

@[simp] theorem State.radWarn_mem (s : State) (r : Nat) : (s.radWarn r).mem = s.mem := by
  unfold State.radWarn
  split <;> simp

@[simp] theorem State.powerAbort_mem (s : State) (g : Nat) : (s.powerAbort g).mem = s.mem := by simp [State.powerAbort]
@[simp] theorem State.powerAbandon_mem (s : State) (g : Nat) : (s.powerAbandon g).mem = s.mem := by simp [State.powerAbandon]
@[simp] theorem State.cmtWarn_mem (s : State) : (s.cmtWarn).mem = s.mem := by simp [State.cmtWarn]
@[simp] theorem State.clearWarn_mem (s : State) : (s.clearWarn).mem = s.mem := by simp [State.clearWarn]
@[simp] theorem State.attestWarn_mem (s : State) : (s.attestWarn).mem = s.mem := by simp [State.attestWarn]
@[simp] theorem State.mftWarn_mem (s : State) : (s.mftWarn).mem = s.mem := by simp [State.mftWarn]

@[simp] theorem State.blocksWarn_mem (s : State) : (s.blocksWarn).mem = s.mem := by
  unfold State.blocksWarn
  simp only
  split <;> simp

@[simp] theorem State.showVin_mem (s : State) (vin : Nat) : (s.showVin vin).mem = s.mem := by simp [State.showVin]
@[simp] theorem State.flushBegin_mem (s : State) : (s.flushBegin).mem = s.mem := by simp [State.flushBegin]
@[simp] theorem State.closeLogs_mem (s : State) : (s.closeLogs).mem = s.mem := by simp [State.closeLogs]

@[simp] theorem State.redoMerge_mem (s : State) (m : Merge) : (s.redoMerge m).mem = s.mem := by
  unfold State.redoMerge
  simp only
  (repeat' split) <;> simp

@[simp] theorem State.redoMerges_mem (s : State) : (s.redoMerges).mem = s.mem := by simp [State.redoMerges]
@[simp] theorem State.holdRide_mem (s : State) : (s.holdRide).mem = s.mem := by simp [State.holdRide]

@[simp] theorem State.reportGroup_mem (s : State) (g : Nat) : (s.reportGroup g).mem = s.mem := by
  unfold State.reportGroup
  split <;> simp

@[simp] theorem State.reportGroups_mem (s : State) : (s.reportGroups).mem = s.mem := by simp [State.reportGroups]

@[simp] theorem State.rideResults_mem (s : State) : (s.rideResults).mem = s.mem := by
  unfold State.rideResults
  split <;> simp

@[simp] theorem State.balRide_mem (s : State) : (s.balRide).mem = s.mem := by simp [State.balRide]

/-! #### Left alone: XingOps -/

@[simp] theorem State.goodPeriod_mem (s : State) (p : Nat) : (s.goodPeriod p).mem = s.mem := by simp [State.goodPeriod]
@[simp] theorem State.badPeriod_mem (s : State) : (s.badPeriod).mem = s.mem := by simp [State.badPeriod]
@[simp] theorem State.showLock_mem (s : State) : (s.showLock).mem = s.mem := by simp [State.showLock]
@[simp] theorem State.relearn_mem (s : State) : (s.relearn).mem = s.mem := by simp [State.relearn]

@[simp] theorem State.refreshOwn_mem (s : State) (c : Nat) : (s.refreshOwn c).mem = s.mem := by
  unfold State.refreshOwn
  split <;> simp

@[simp] theorem State.noteRenum_mem (s : State) (c d : Nat) : (s.noteRenum c d).mem = s.mem := by simp [State.noteRenum]

@[simp] theorem State.applyNum_mem (s : State) (c d : Nat) : (s.applyNum c d).1.mem = s.mem := by
  unfold State.applyNum
  (repeat' split) <;> simp

@[simp] theorem State.learnDone_mem (s : State) : (s.learnDone).mem = s.mem := by simp [State.learnDone]
@[simp] theorem State.anchorFault_mem (s : State) : (s.anchorFault).mem = s.mem := by simp [State.anchorFault]

@[simp] theorem State.checkLearning_mem (s : State) (c d : Nat) (r : Int) (fresh ret : Bool) :
    (s.checkLearning c d r fresh ret).1.mem = s.mem := by
  unfold State.checkLearning
  simp only
  (repeat' split) <;> simp

@[simp] theorem State.track_mem (s : State) (r : Int) : (s.track r).mem = s.mem := by simp [State.track]

@[simp] theorem State.checkLearned_mem (s : State) (c d : Nat) (r : Int) (fresh ret : Bool) :
    (s.checkLearned c d r fresh ret).1.mem = s.mem := by
  unfold State.checkLearned
  simp only
  (repeat' split) <;> simp

@[simp] theorem State.nextNumber_mem (s : State) (ret : Bool) : (s.nextNumber ret).1.mem = s.mem := by
  unfold State.nextNumber
  simp only
  (repeat' split) <;> simp

@[simp] theorem State.firstNumber_mem (s : State) : (s.firstNumber).1.mem = s.mem := by
  unfold State.firstNumber
  split <;> simp

@[simp] theorem State.judgePhases_mem (s : State) : (s.judgePhases).mem = s.mem := by simp [State.judgePhases]
@[simp] theorem State.publishAnchors_mem (s : State) : (s.publishAnchors).mem = s.mem := by simp [State.publishAnchors]
@[simp] theorem State.sendSnapshots_mem (s : State) (b n : Nat) : (s.sendSnapshots b n).mem = s.mem := by simp [State.sendSnapshots]
@[simp] theorem State.snapFix_mem (s : State) : (s.snapFix).mem = s.mem := by simp [State.snapFix]
@[simp] theorem State.snapReached_mem (s : State) (prev : Nat) : (s.snapReached prev).mem = s.mem := by simp [State.snapReached]
@[simp] theorem State.exchangeSuspension_mem (s : State) : (s.exchangeSuspension).mem = s.mem := by simp [State.exchangeSuspension]
@[simp] theorem State.cellsStep_mem (s : State) : (s.cellsStep).mem = s.mem := by simp [State.cellsStep]
@[simp] theorem State.superframe_mem (s : State) : (s.superframe).mem = s.mem := by simp [State.superframe]

@[simp] theorem State.crossingWork_mem (s : State) (prev dur : Nat) (raw : List (List Int)) :
    (s.crossingWork prev dur raw).mem = s.mem := by simp [State.crossingWork]

@[simp] theorem State.countCrossing_mem (s : State) (n dur : Nat) (raw : List (List Int)) :
    (s.countCrossing n dur raw).mem = s.mem := by simp [State.countCrossing]

/-! #### Left alone: Crossing -/

@[simp] theorem State.realCrossing_mem (s : State) (p : Nat) (raw : List (List Int)) : (s.realCrossing p raw).mem = s.mem := by
  simp [State.realCrossing]

@[simp] theorem State.mainsReturn_mem (s : State) (p : Nat) (raw : List (List Int)) : (s.mainsReturn p raw).mem = s.mem := by
  unfold State.mainsReturn
  split <;> simp

@[simp] theorem execL1Crossing_mem (raw : List (List Int)) (s : State) : (afterOut (execL1Crossing raw s) s).mem = s.mem := by
  unfold execL1Crossing
  (repeat' split) <;> simp

@[simp] theorem execPhaseCrossing_mem (p : Nat) (s : State) : (afterOut (execPhaseCrossing p s) s).mem = s.mem := by
  unfold execPhaseCrossing
  (repeat' split) <;> simp

@[simp] theorem State.coastOne_mem (s : State) (raw : List (List Int)) : (s.coastOne raw).mem = s.mem := by simp [State.coastOne]

@[simp] theorem execCoastingBegins_mem (raw : List (List Int)) (s : State) :
    (afterOut (execCoastingBegins raw s) s).mem = s.mem := by
  unfold execCoastingBegins
  split <;> simp

@[simp] theorem execCoastedCrossing_mem (raw : List (List Int)) (s : State) :
    (afterOut (execCoastedCrossing raw s) s).mem = s.mem := by simp [execCoastedCrossing]

@[simp] theorem execAnchorAgeExpiry_mem (s : State) : (afterOut (execAnchorAgeExpiry s) s).mem = s.mem := by simp [execAnchorAgeExpiry]
@[simp] theorem execHoldoverExpiry_mem (s : State) : (afterOut (execHoldoverExpiry s) s).mem = s.mem := by simp [execHoldoverExpiry]

@[simp] theorem execLeapInstant_mem (s : State) : (afterOut (execLeapInstant s) s).mem = s.mem := by
  unfold execLeapInstant
  split <;> simp

@[simp] theorem State.latchTime_mem (s : State) : (s.latchTime).mem = s.mem := by simp [State.latchTime]
@[simp] theorem State.latchWrite_mem (s : State) (v : Word) : (s.latchWrite v).mem = s.mem := by simp [State.latchWrite]
@[simp] theorem execXingLatch_mem (i : Iface) (s : State) : (afterOut (execXingLatch i s) s).mem = s.mem := by simp [execXingLatch]
@[simp] theorem State.lateWrite_mem (s : State) (q : Nat) (v : Word) : (s.lateWrite q v).mem = s.mem := by simp [State.lateWrite]

@[simp] theorem execXingLateClear_mem (i : Iface) (q : Nat) (s : State) : (afterOut (execXingLateClear i q s) s).mem = s.mem := by
  simp [execXingLateClear]

@[simp] theorem State.profileWrite_mem (s : State) (i : Iface) (old v : Word) : (s.profileWrite i old v).mem = s.mem := by
  simp [State.profileWrite]

@[simp] theorem execProfileRequest_mem (i : Iface) (v : Word) (s : State) :
    (afterOut (execProfileRequest i v s) s).mem = s.mem := by simp [execProfileRequest]

@[simp] theorem State.parkCore_mem (s : State) (n : Nat) (park : Bool) : (s.parkCore n park).mem = s.mem := by
  unfold State.parkCore
  simp only
  (repeat' split) <;> simp

@[simp] theorem State.parkEngines_mem (s : State) (p : Nat) : (s.parkEngines p).mem = s.mem := by simp [State.parkEngines]
@[simp] theorem State.applyProfile_mem (s : State) (p : Nat) : (s.applyProfile p).mem = s.mem := by simp [State.applyProfile]
@[simp] theorem execProfileChange_mem (s : State) : (afterOut (execProfileChange s) s).mem = s.mem := by simp [execProfileChange]

/-! #### Left alone: ManifestChk -/

@[simp] theorem State.loadRow_mem (s : State) (m : SMap Word) (row : Nat × List (Nat × Nat) × Word) :
    (s.loadRow m row).mem = s.mem := by simp [State.loadRow]

@[simp] theorem State.loadRegs_mem (s : State) : (s.loadRegs).mem = s.mem := by simp [State.loadRegs]

/-! #### Left alone: Keys -/

@[simp] theorem State.clearStaged_mem (s : State) (i : Iface) : (s.clearStaged i).mem = s.mem := by simp [State.clearStaged]

@[simp] theorem State.storeSlot_mem (s : State) (i : Iface) (n : Nat) (x : Slot) : (s.storeSlot i n x).mem = s.mem := by
  simp [State.storeSlot]

@[simp] theorem State.cellKeyNews_mem (s : State) (n : Nat) : (s.cellKeyNews n).mem = s.mem := by simp [State.cellKeyNews]
@[simp] theorem State.keyCmd_mem (s : State) (i : Iface) (op : Nat) : (s.keyCmd i op).mem = s.mem := by simp [State.keyCmd]
@[simp] theorem execKeyWrite_mem (i : Iface) (s : State) : (afterOut (execKeyWrite i s) s).mem = s.mem := by simp [execKeyWrite]
@[simp] theorem execKeyErase_mem (i : Iface) (s : State) : (afterOut (execKeyErase i s) s).mem = s.mem := by simp [execKeyErase]
@[simp] theorem execKeyLock_mem (i : Iface) (s : State) : (afterOut (execKeyLock i s) s).mem = s.mem := by simp [execKeyLock]
@[simp] theorem execKeyRead_mem (i : Iface) (s : State) : (afterOut (execKeyRead i s) s).mem = s.mem := by simp [execKeyRead]
@[simp] theorem State.indexCapture_mem (s : State) : (s.indexCapture).2.mem = s.mem := by simp [State.indexCapture]

@[simp] theorem execSigningIndexCapture_mem (i : Iface) (s : State) : (afterOut (execSigningIndexCapture i s) s).mem = s.mem := by
  simp [execSigningIndexCapture]

@[simp] theorem State.startIdentity_mem (s : State) : (s.startIdentity).mem = s.mem := by
  have h := foldl_keeps (fun r : List Byte × State => r.2.mem)
    (f := fun r (_ : Nat) => let d := r.2.random 64; (r.1 ++ be 8 d.1, d.2)) (fun r _ => by simp) (List.range 12) ([], s)
  unfold State.startIdentity
  simpa using h

@[simp] theorem State.fuseIdentity_mem (s : State) (sk pub : List Byte) : (s.fuseIdentity sk pub).mem = s.mem := by
  simp [State.fuseIdentity]

@[simp] theorem execIdentityKeyGenerated_mem (s : State) : (afterOut (execIdentityKeyGenerated s) s).mem = s.mem := by
  unfold execIdentityKeyGenerated
  split <;> simp

@[simp] theorem execEpochTreeBuilt_mem (s : State) : (afterOut (execEpochTreeBuilt s) s).mem = s.mem := by simp [execEpochTreeBuilt]
@[simp] theorem State.refuseAttest_mem (s : State) (r : Nat) : (s.refuseAttest r).mem = s.mem := by simp [State.refuseAttest]
@[simp] theorem State.beginAttest_mem (s : State) (a : Nat) : (s.beginAttest a).mem = s.mem := by simp [State.beginAttest]
@[simp] theorem State.attest_mem (s : State) (v : Word) : (s.attest v).mem = s.mem := by simp [State.attest]

@[simp] theorem execAttestationRequest_mem (i : Iface) (v : Word) (s : State) :
    (afterOut (execAttestationRequest i v s) s).mem = s.mem := by simp [execAttestationRequest]

/-! #### Left alone: Metrology -/

@[simp] theorem execCalibrationWrite_mem (i : Iface) (a : Nat) (v : Word) (s : State) :
    (afterOut (execCalibrationWrite i a v s) s).mem = s.mem := by simp [execCalibrationWrite]

@[simp] theorem State.calCommit_mem (s : State) : (s.calCommit).mem = s.mem := by simp [State.calCommit]
@[simp] theorem State.calDiscard_mem (s : State) : (s.calDiscard).mem = s.mem := by simp [State.calDiscard]
@[simp] theorem State.calCtrl_mem (s : State) (v : Word) : (s.calCtrl v).mem = s.mem := by simp [State.calCtrl]
@[simp] theorem execCalCommit_mem (i : Iface) (s : State) : (afterOut (execCalCommit i s) s).mem = s.mem := by simp [execCalCommit]
@[simp] theorem execCalDiscard_mem (i : Iface) (s : State) : (afterOut (execCalDiscard i s) s).mem = s.mem := by simp [execCalDiscard]

@[simp] theorem execCalCommitApply_mem (s : State) : (afterOut (execCalCommitApply s) s).mem = s.mem := by
  unfold execCalCommitApply
  split <;> simp

@[simp] theorem State.qtyRead_mem (s : State) : (s.qtyRead).2.mem = s.mem := by simp [State.qtyRead]

@[simp] theorem execMetQtyCapture_mem (i : Iface) (s : State) : (afterOut (execMetQtyCapture i s) s).mem = s.mem := by
  simp [execMetQtyCapture]

@[simp] theorem State.closeWrite_mem (s : State) : (s.closeWrite).mem = s.mem := by simp [State.closeWrite]

@[simp] theorem execSealCloseRequest_mem (i : Iface) (v : Word) (s : State) :
    (afterOut (execSealCloseRequest i v s) s).mem = s.mem := by simp [execSealCloseRequest]

@[simp] theorem execSealCloseJudged_mem (s : State) : (afterOut (execSealCloseJudged s) s).mem = s.mem := by simp [execSealCloseJudged]
@[simp] theorem State.countBreak_mem (s : State) : (s.countBreak).mem = s.mem := by simp [State.countBreak]
@[simp] theorem execSealOpening_mem (s : State) : (afterOut (execSealOpening s) s).mem = s.mem := by simp [execSealOpening]

/-! #### Left alone: Power -/

@[simp] theorem State.aonRun_mem (s : State) (elapsed : Nat) : (s.aonRun elapsed).mem = s.mem := by simp [State.aonRun]
@[simp] theorem State.aonCold_mem (s : State) : (s.aonCold).mem = s.mem := by simp [State.aonCold]
@[simp] theorem State.breakAtStart_mem (s : State) : (s.breakAtStart).mem = s.mem := by simp [State.breakAtStart]
@[simp] theorem State.showFuses_mem (s : State) : (s.showFuses).mem = s.mem := by simp [State.showFuses]

@[simp] theorem execResetRelease_mem (elapsed : Nat) (s : State) : (afterOut (execResetRelease elapsed s) s).mem = s.mem := by
  simp [execResetRelease]

@[simp] theorem execLpddr5Trained_mem (s : State) : (afterOut (execLpddr5Trained s) s).mem = s.mem := by simp [execLpddr5Trained]

@[simp] theorem execHoldSenseWaitExpiry_mem (s : State) : (afterOut (execHoldSenseWaitExpiry s) s).mem = s.mem := by
  simp [execHoldSenseWaitExpiry]

@[simp] theorem execHoldSenseChange_mem (up : Bool) (s : State) : (afterOut (execHoldSenseChange up s) s).mem = s.mem := by
  simp [execHoldSenseChange]

@[simp] theorem State.startThreads_mem (s : State) : (s.startThreads).mem = s.mem := by simp [State.startThreads]
@[simp] theorem State.storageFailed_mem (s : State) : (s.storageFailed).mem = s.mem := by simp [State.storageFailed]

@[simp] theorem State.loadSlot_mem (reads : List SealRead) (s : State) (p : Nat × List Nat) :
    (s.loadSlot reads p).mem = s.mem := by
  unfold State.loadSlot
  (repeat' split) <;> simp

@[simp] theorem State.makeSealedKeys_mem (s : State) : (s.makeSealedKeys).mem = s.mem := by
  refine foldl_mem _ (fun s n => ?_) _ _
  split
  · rfl
  · simp only [State.setSlot_mem]
    exact foldl_keeps (fun r : List Byte × State => r.2.mem) (fun r _ => by simp) _ _

@[simp] theorem State.setCal_mem (s : State) (m : SMap Word) : (s.setCal m).mem = s.mem := by simp [State.setCal]
@[simp] theorem State.loadCal_mem (s : State) : (s.loadCal).mem = s.mem := by simp [State.loadCal]
@[simp] theorem State.loadMlog_mem (s : State) : (s.loadMlog).mem = s.mem := by simp [State.loadMlog]

@[simp] theorem State.continuity_mem (s : State) (newest addr : Nat) (valid done : Bool) :
    (s.continuity newest addr valid done).mem = s.mem := by simp [State.continuity]

@[simp] theorem State.rowNow_mem (s : State) (t k : Nat) (v : List Nat) : (s.rowNow t k v).mem = s.mem := by simp [State.rowNow]
@[simp] theorem State.recordLost_mem (s : State) (t k : Nat) : (s.recordLost t k).mem = s.mem := by simp [State.recordLost]

@[simp] theorem State.loadRec_mem (reads : List SealRead) (s : State) (p : Nat × Nat) : (s.loadRec reads p).mem = s.mem := by
  unfold State.loadRec
  simp only
  split <;> simp

@[simp] theorem State.readJournal_mem (s : State) (reads : List SealRead) : (s.readJournal reads).mem = s.mem := by
  simp [State.readJournal]

@[simp] theorem State.journalFailed_mem (s : State) (r : JRec) : (s.journalFailed r).mem = s.mem := by simp [State.journalFailed]
@[simp] theorem State.judgeJournal_mem (s : State) : (s.judgeJournal).mem = s.mem := by simp [State.judgeJournal]
@[simp] theorem State.loadReserve_mem (s : State) (valid : Bool) : (s.loadReserve valid).mem = s.mem := by simp [State.loadReserve]
@[simp] theorem State.logSealedPart_mem (s : State) : (s.logSealedPart).mem = s.mem := by simp [State.logSealedPart]
@[simp] theorem State.logBreak_mem (s : State) : (s.logBreak).mem = s.mem := by simp [State.logBreak]
@[simp] theorem State.loadFlags_mem (s : State) : (s.loadFlags).mem = s.mem := by simp [State.loadFlags]
@[simp] theorem State.storeWaiting_mem (s : State) : (s.storeWaiting).mem = s.mem := by simp [State.storeWaiting]
@[simp] theorem State.layFlush_mem (s : State) : (s.layFlush).mem = s.mem := by simp [State.layFlush]
@[simp] theorem State.eraseLeft_mem (s : State) : (s.eraseLeft).mem = s.mem := by simp [State.eraseLeft]
@[simp] theorem State.regather_mem (s : State) : (s.regather).mem = s.mem := by simp [State.regather]
@[simp] theorem State.mount_mem (s : State) (reads : List SealRead) : (s.mount reads).mem = s.mem := by simp [State.mount]

@[simp] theorem execHoldMount_mem (a b : List DieParam) (reads : List SealRead) (s : State) :
    (afterOut (execHoldMount a b reads s) s).mem = s.mem := by simp [execHoldMount]

@[simp] theorem State.loadBatches_mem (s : State) : (s.loadBatches).mem = s.mem := by simp [State.loadBatches]
@[simp] theorem State.loadCellCount_mem (s : State) (r : Nat) : (s.loadCellCount r).mem = s.mem := by simp [State.loadCellCount]
@[simp] theorem State.loadLinkCount_mem (s : State) (slot : Nat) : (s.loadLinkCount slot).mem = s.mem := by simp [State.loadLinkCount]
@[simp] theorem State.loadCounters_mem (s : State) : (s.loadCounters).mem = s.mem := by simp [State.loadCounters]
@[simp] theorem State.tariffStart_mem (s : State) : (s.tariffStart).mem = s.mem := by simp [State.tariffStart]
@[simp] theorem State.startOarsmen_mem (s : State) : (s.startOarsmen).mem = s.mem := by simp [State.startOarsmen]

@[simp] theorem execTableRebuildDone_mem (s : State) : (afterOut (execTableRebuildDone s) s).mem = s.mem := by
  simp [execTableRebuildDone]

@[simp] theorem State.seeTemp_mem (s : State) (t : Nat) : (s.seeTemp t).mem = s.mem := by simp [State.seeTemp]

@[simp] theorem execTemperatureWarn_mem (t : Nat) (s : State) : (afterOut (execTemperatureWarn t s) s).mem = s.mem := by
  simp [execTemperatureWarn]

@[simp] theorem execTemperatureWarnRearm_mem (t : Nat) (s : State) : (afterOut (execTemperatureWarnRearm t s) s).mem = s.mem := by
  simp [execTemperatureWarnRearm]

@[simp] theorem execAvsUpdate_mem (n400 n800 n1200 : Nat) (s : State) :
    (afterOut (execAvsUpdate n400 n800 n1200 s) s).mem = s.mem := by simp [execAvsUpdate]

@[simp] theorem execVbatLow_mem (s : State) : (afterOut (execVbatLow s) s).mem = s.mem := by simp [execVbatLow]
@[simp] theorem execAlwaysOnInvalid_mem (s : State) : (afterOut (execAlwaysOnInvalid s) s).mem = s.mem := by simp [execAlwaysOnInvalid]
@[simp] theorem State.vinRead_mem (s : State) (now least : Nat) : (s.vinRead now least).2.mem = s.mem := by simp [State.vinRead]

@[simp] theorem execVinMinRead_mem (i : Iface) (now least : Nat) (s : State) :
    (afterOut (execVinMinRead i now least s) s).mem = s.mem := by simp [execVinMinRead]

@[simp] theorem State.clrDramEcc_mem (s : State) (v : Word) : (s.clrDramEcc v).mem = s.mem := by simp [State.clrDramEcc]

@[simp] theorem execDramEccClear_mem (i : Iface) (s : State) : (afterOut (execDramEccClear i s) s).mem = s.mem := by
  simp [execDramEccClear]

/-! #### Left alone: ManifestCmd -/

@[simp] theorem State.setCopy_mem (s : State) (k : Nat) (c : MCopy) : (s.setCopy k c).mem = s.mem := by simp [State.setCopy]

@[simp] theorem State.rejectCopy_mem (s : State) (copy : Nat) (f : Nat × Nat × Nat × Nat) :
    (s.rejectCopy copy f).mem = s.mem := by simp [State.rejectCopy]

@[simp] theorem State.fuseAuth_mem (s : State) (p : Nat) (h : List Byte) : (s.fuseAuth p h).mem = s.mem := by simp [State.fuseAuth]

@[simp] theorem State.confirmPart_mem (s : State) (p : Nat) (m : MPart) : (s.confirmPart p m).mem = s.mem := by
  simp [State.confirmPart]

@[simp] theorem State.raiseFloors_mem (s : State) (c : MCopy) : (s.raiseFloors c).mem = s.mem := by simp [State.raiseFloors]

@[simp] theorem State.showCopies_mem (s : State) : (s.showCopies).mem = s.mem := by
  unfold State.showCopies
  split <;> simp

@[simp] theorem State.loadKeys_mem (s : State) : (s.loadKeys).mem = s.mem := by
  refine foldl_mem _ (fun s e => ?_) _ _
  split
  · rfl
  · simp only
    split
    · simp
    · split <;> simp

@[simp] theorem State.parkAtStart_mem (s : State) : (s.parkAtStart).mem = s.mem := by simp [State.parkAtStart]
@[simp] theorem State.startFrom_mem (s : State) (k : Nat) (fb : Bool) : (s.startFrom k fb).mem = s.mem := by simp [State.startFrom]
@[simp] theorem State.enterRescue_mem (s : State) : (s.enterRescue).mem = s.mem := by simp [State.enterRescue]

@[simp] theorem State.dropCopy_mem (s : State) (k : Nat) (f : Nat × Nat × Nat × Nat) : (s.dropCopy k f).mem = s.mem := by
  simp [State.dropCopy]

@[simp] theorem State.verifyFrom_mem (s : State) (ks : List Nat) (top : Option Nat) : (s.verifyFrom ks top).mem = s.mem := by
  unfold State.verifyFrom
  simp only
  (repeat' split) <;> simp

@[simp] theorem State.chooseCopy_mem (s : State) : (s.chooseCopy).mem = s.mem := by simp [State.chooseCopy]

@[simp] theorem execManifestVerified_mem (s : State) : (afterOut (execManifestVerified s) s).mem = s.mem := by
  simp [execManifestVerified]

@[simp] theorem State.mftResult_mem (s : State) (r : Nat) : (s.mftResult r).mem = s.mem := by simp [State.mftResult]

@[simp] theorem State.rejectStaged_mem (s : State) (f : Nat × Nat × Nat × Nat) : (s.rejectStaged f).mem = s.mem := by
  simp [State.rejectStaged]

@[simp] theorem State.mftCheck_mem (s : State) (m : MCopy) : (s.mftCheck m).mem = s.mem := by
  unfold State.mftCheck
  split <;> simp

@[simp] theorem State.mftStage_mem (s : State) (m : MCopy) : (s.mftStage m).mem = s.mem := by
  unfold State.mftStage
  (repeat' split) <;> simp

@[simp] theorem State.mftConfirm_mem (s : State) : (s.mftConfirm).mem = s.mem := by
  unfold State.mftConfirm
  split <;> simp

@[simp] theorem State.mftInvalidate_mem (s : State) : (s.mftInvalidate).mem = s.mem := by
  unfold State.mftInvalidate
  split <;> simp

@[simp] theorem execManifestStageComplete_mem (s : State) : (afterOut (execManifestStageComplete s) s).mem = s.mem := by
  unfold execManifestStageComplete
  split <;> simp

/-! #### Left alone: TestBlk -/

@[simp] theorem State.tstResult_mem (s : State) (r : Nat) : (s.tstResult r).mem = s.mem := by simp [State.tstResult]

@[simp] theorem State.tstRefuse_mem (s : State) (r : Nat) (detail : List Byte) : (s.tstRefuse r detail).mem = s.mem := by
  simp [State.tstRefuse]

@[simp] theorem State.unlockFirst_mem (s : State) (i : Iface) : (s.unlockFirst i).mem = s.mem := by simp [State.unlockFirst]

@[simp] theorem State.unlockSecond_mem (s : State) (i : Iface) : (s.unlockSecond i).mem = s.mem := by
  unfold State.unlockSecond
  (repeat' split) <;> simp

@[simp] theorem State.tstKey_mem (s : State) (i : Iface) (v : Word) : (s.tstKey i v).mem = s.mem := by simp [State.tstKey]

@[simp] theorem execTestUnlockFirst_mem (i : Iface) (s : State) : (afterOut (execTestUnlockFirst i s) s).mem = s.mem := by
  simp [execTestUnlockFirst]

@[simp] theorem execTestUnlockSecond_mem (i : Iface) (s : State) : (afterOut (execTestUnlockSecond i s) s).mem = s.mem := by
  simp [execTestUnlockSecond]

@[simp] theorem execTestLock_mem (i : Iface) (s : State) : (afterOut (execTestLock i s) s).mem = s.mem := by simp [execTestLock]
@[simp] theorem State.arm_mem (s : State) (i : Iface) (n : Nat) (v : Word) : (s.arm i n v).mem = s.mem := by simp [State.arm]

@[simp] theorem State.tstPcfgWrite_mem (s : State) (i : Iface) (v : Word) : (s.tstPcfgWrite i v).mem = s.mem := by
  simp [State.tstPcfgWrite]

@[simp] theorem State.tstParamWrite_mem (s : State) (v : Word) : (s.tstParamWrite v).mem = s.mem := by simp [State.tstParamWrite]

@[simp] theorem execEntryArm_mem (i : Iface) (v : Word) (s : State) : (afterOut (execEntryArm i v s) s).mem = s.mem := by
  simp [execEntryArm]

@[simp] theorem execEntryDisarm_mem (i : Iface) (v : Word) (s : State) : (afterOut (execEntryDisarm i v s) s).mem = s.mem := by
  simp [execEntryDisarm]

@[simp] theorem execEntryLimitExpiry_mem (n : Nat) (s : State) : (afterOut (execEntryLimitExpiry n s) s).mem = s.mem := by
  simp [execEntryLimitExpiry]

@[simp] theorem execPerturbedItemVisible_mem (q : Nat) (s : State) : (afterOut (execPerturbedItemVisible q s) s).mem = s.mem := by
  unfold execPerturbedItemVisible
  simp only
  split <;> simp

/-! #### Left alone: Hold -/

@[simp] theorem State.mapsDone_mem (s : State) (n : Nat) : (s.mapsDone n).mem = s.mem := by simp [State.mapsDone]
@[simp] theorem State.pageDone_mem (s : State) (l p : Nat) : (s.pageDone l p).mem = s.mem := by simp [State.pageDone]

@[simp] theorem State.programmed_mem (s : State) (job : NandJob) : (s.programmed job).mem = s.mem := by
  unfold State.programmed
  split <;> simp

@[simp] theorem State.nandHit_mem (s : State) (b : Nat) : (s.nandHit b).mem = s.mem := by
  unfold State.nandHit
  split <;> simp

@[simp] theorem execNandProgramDone_mem (b : Nat) (job : NandJob) (ok : Bool) (s : State) :
    (afterOut (execNandProgramDone b job ok s) s).mem = s.mem := by simp [execNandProgramDone]

@[simp] theorem State.flushFreed_mem (s : State) : (s.flushFreed).mem = s.mem := by simp [State.flushFreed]
@[simp] theorem State.erased_mem (s : State) (b : Nat) : (s.erased b).mem = s.mem := by simp [State.erased]

@[simp] theorem execNandEraseDone_mem (b : Nat) (ok : Bool) (s : State) :
    (afterOut (execNandEraseDone b ok s) s).mem = s.mem := by simp [execNandEraseDone]

@[simp] theorem State.lgbDamage_mem (s : State) (lkey page : Nat) : (s.lgbDamage lkey page).mem = s.mem := by simp [State.lgbDamage]

@[simp] theorem execNandReadDone_mem (b lkey page bits bad : Nat) (s : State) :
    (afterOut (execNandReadDone b lkey page bits bad s) s).mem = s.mem := by simp [execNandReadDone]

@[simp] theorem execPlacementWindowExpiry_mem (lkey page : Nat) (s : State) :
    (afterOut (execPlacementWindowExpiry lkey page s) s).mem = s.mem := by simp [execPlacementWindowExpiry]

@[simp] theorem execMergeSwitch_mem (lkey : Nat) (s : State) : (afterOut (execMergeSwitch lkey s) s).mem = s.mem := by
  unfold execMergeSwitch
  split <;> simp

@[simp] theorem State.holdCmd_mem (s : State) (i : Iface) (op : Nat) : (s.holdCmd i op).mem = s.mem := by simp [State.holdCmd]
@[simp] theorem execHoldRead_mem (i : Iface) (s : State) : (afterOut (execHoldRead i s) s).mem = s.mem := by simp [execHoldRead]

@[simp] theorem execHoldDiscard_mem (i : Iface) (s : State) : (afterOut (execHoldDiscard i s) s).mem = s.mem := by
  simp [execHoldDiscard]

@[simp] theorem execHoldTrim_mem (i : Iface) (s : State) : (afterOut (execHoldTrim i s) s).mem = s.mem := by simp [execHoldTrim]
@[simp] theorem State.dropBlocks_mem (s : State) (a n : Nat) : (s.dropBlocks a n).mem = s.mem := by simp [State.dropBlocks]
@[simp] theorem State.trimBlocks_mem (s : State) (r h0 h1 : Nat) : (s.trimBlocks r h0 h1).mem = s.mem := by simp [State.trimBlocks]
@[simp] theorem State.trimDo_mem (s : State) (r off : Nat) : (s.trimDo r off).mem = s.mem := by simp [State.trimDo]
@[simp] theorem State.streamCapture_mem (s : State) : (s.streamCapture).mem = s.mem := by simp [State.streamCapture]

@[simp] theorem execStreamQuery_mem (i : Iface) (v : Word) (s : State) : (afterOut (execStreamQuery i v s) s).mem = s.mem := by
  simp [execStreamQuery]

@[simp] theorem State.clrHldEcc_mem (s : State) : (s.clrHldEcc).mem = s.mem := by simp [State.clrHldEcc]

@[simp] theorem execHldEccClear_mem (i : Iface) (s : State) : (afterOut (execHldEccClear i s) s).mem = s.mem := by
  simp [execHldEccClear]

/-! #### Left alone: Launch -/

@[simp] theorem State.lateItem_mem (s : State) (q air : Nat) : (s.lateItem q air).mem = s.mem := by
  unfold State.lateItem
  split <;> simp

@[simp] theorem State.jitter_mem (s : State) (q w : Nat) : (s.jitter q w).2.mem = s.mem := by
  unfold State.jitter
  (repeat' split) <;> simp

@[simp] theorem State.launchMain_mem (s : State) (q air : Nat) : (s.launchMain q air).mem = s.mem := by
  unfold State.launchMain
  simp only
  (repeat' split) <;> simp

@[simp] theorem State.launchHeadStep_mem (s : State) (q air : Nat) : (s.launchHeadStep q air).mem = s.mem := by
  unfold State.launchHeadStep
  (repeat' split) <;> simp

@[simp] theorem execLaunchItemAtHead_mem (q air : Nat) (s : State) : (afterOut (execLaunchItemAtHead q air s) s).mem = s.mem := by
  simp [execLaunchItemAtHead]

@[simp] theorem State.heldDue_mem (s : State) (q air : Nat) : (s.heldDue q air).mem = s.mem := by simp [State.heldDue]

@[simp] theorem State.instantReached_mem (s : State) (q air : Nat) : (s.instantReached q air).mem = s.mem := by
  unfold State.instantReached
  (repeat' split) <;> simp

@[simp] theorem execLaunchInstantReached_mem (q air : Nat) (s : State) :
    (afterOut (execLaunchInstantReached q air s) s).mem = s.mem := by simp [execLaunchInstantReached]

@[simp] theorem State.recheckMain_mem (s : State) (q air : Nat) : (s.recheckMain q air).mem = s.mem := by
  unfold State.recheckMain
  split <;> simp

@[simp] theorem State.recheck_mem (s : State) (r air : Nat) : (s.recheck r air).mem = s.mem := by
  unfold State.recheck
  simp only
  (repeat' split) <;> simp

@[simp] theorem execDutyBinBoundary_mem (r air : Nat) (s : State) : (afterOut (execDutyBinBoundary r air s) s).mem = s.mem := by
  unfold execDutyBinBoundary
  simp only
  split <;> simp

/-! #### Left alone: PanelCmd -/

@[simp] theorem execLockoutEnd_mem (s : State) : (afterOut (execLockoutEnd s) s).mem = s.mem := by simp [execLockoutEnd]

@[simp] theorem execKeyStateChange_mem (k : Nat) (down : Bool) (s : State) :
    (afterOut (execKeyStateChange k down s) s).mem = s.mem := by simp [execKeyStateChange]

@[simp] theorem execPanelFrameStart_mem (s : State) : (afterOut (execPanelFrameStart s) s).mem = s.mem := by simp [execPanelFrameStart]

@[simp] theorem execTemperatureBandChange_mem (t : Nat) (s : State) :
    (afterOut (execTemperatureBandChange t s) s).mem = s.mem := by simp [execTemperatureBandChange]

@[simp] theorem execDischargeHoldEnd_mem (s : State) : (afterOut (execDischargeHoldEnd s) s).mem = s.mem := by
  simp [execDischargeHoldEnd]

@[simp] theorem execFrameMemoryWrite_mem (i : Iface) (v : Word) (s : State) :
    (afterOut (execFrameMemoryWrite i v s) s).mem = s.mem := by simp [execFrameMemoryWrite]

@[simp] theorem execFrameMemoryRead_mem (i : Iface) (s : State) : (afterOut (execFrameMemoryRead i s) s).mem = s.mem := by
  simp [execFrameMemoryRead]

@[simp] theorem execAccountQuery_mem (i : Iface) (v : Word) (s : State) : (afterOut (execAccountQuery i v s) s).mem = s.mem := by
  simp [execAccountQuery]

/-! #### Left alone: Plc -/

@[simp] theorem State.ownSuggestion_mem (s : State) (c v : Nat) (x : PlcRx) (b : List Byte) :
    (s.ownSuggestion c v x b).mem = s.mem := by simp [State.ownSuggestion]

@[simp] theorem State.rxStatus_mem (s : State) (p : Nat) (x : PlcRx) : (s.rxStatus p x).mem = s.mem := by simp [State.rxStatus]
@[simp] theorem State.adapt_mem (s : State) (x : XtcRead) (q p : Nat) : (s.adapt x q p).mem = s.mem := by simp [State.adapt]
@[simp] theorem State.convergence_mem (s : State) : (s.convergence).mem = s.mem := by simp [State.convergence]
@[simp] theorem State.adaptAll_mem (s : State) (x : XtcRead) (q : Nat) : (s.adaptAll x q).mem = s.mem := by simp [State.adaptAll]

@[simp] theorem State.countImpulse_mem (s : State) (x : PlcRx) (p : Nat) : (s.countImpulse x p).mem = s.mem := by
  simp [State.countImpulse]

@[simp] theorem State.plcReceive_mem (s : State) (p : Nat) (x : PlcRx) : (s.plcReceive p x).mem = s.mem := by
  unfold State.plcReceive
  simp only
  (repeat' split) <;> simp

@[simp] theorem execPlcFrameReceived_mem (p : Nat) (x : PlcRx) (s : State) :
    (afterOut (execPlcFrameReceived p x s) s).mem = s.mem := by simp [execPlcFrameReceived]

@[simp] theorem State.sentFrame_mem (s : State) (c : Nat) (j : TxJob) (limited : Bool) :
    (s.sentFrame c j limited).mem = s.mem := by
  unfold State.sentFrame
  simp only
  split <;> simp

@[simp] theorem State.freeSent_mem (s : State) (c : Nat) (j : TxJob) : (s.freeSent c j).mem = s.mem := by
  unfold State.freeSent
  (repeat' split) <;> simp

@[simp] theorem State.noteLimited_mem (s : State) (p : Nat) : (s.noteLimited p).mem = s.mem := by simp [State.noteLimited]

@[simp] theorem State.plcComplete_mem (s : State) (c : Nat) (j : TxJob) (status : Nat) :
    (s.plcComplete c j status).mem = s.mem := by simp [State.plcComplete]

@[simp] theorem execPlcTransmitComplete_mem (c : Nat) (x : XtcRead) (s : State) :
    (afterOut (execPlcTransmitComplete c x s) s).mem = s.mem := by
  unfold execPlcTransmitComplete
  split <;> simp

@[simp] theorem execDriveLimitDetection_mem (x : IsnsRead) (last : Bool) (s : State) :
    (afterOut (execDriveLimitDetection x last s) s).mem = s.mem := by
  unfold execDriveLimitDetection
  simp only
  split <;> simp

@[simp] theorem State.tripPath_mem (s : State) (p : Nat) : (s.tripPath p).mem = s.mem := by simp [State.tripPath]

@[simp] theorem execDriverTrip_mem (x : IsnsRead) (s : State) : (afterOut (execDriverTrip x s) s).mem = s.mem := by
  unfold execDriverTrip
  split <;> simp

@[simp] theorem execDriverRearm_mem (p : Nat) (s : State) : (afterOut (execDriverRearm p s) s).mem = s.mem := by
  unfold execDriverRearm
  split <;> simp

@[simp] theorem State.rearm_mem (s : State) (p : Nat) (v : Word) : (s.rearm p v).mem = s.mem := by simp [State.rearm]

@[simp] theorem execTrippedClear_mem (i : Iface) (p : Nat) (s : State) : (afterOut (execTrippedClear i p s) s).mem = s.mem := by
  simp [execTrippedClear]

@[simp] theorem State.clearRx_mem (s : State) (p : Nat) (v : Word) : (s.clearRx p v).mem = s.mem := by simp [State.clearRx]

@[simp] theorem execPlcRxCntClear_mem (i : Iface) (p : Nat) (s : State) : (afterOut (execPlcRxCntClear i p s) s).mem = s.mem := by
  simp [execPlcRxCntClear]

/-! #### Left alone: Radio -/

@[simp] theorem State.autoAck_mem (s : State) (r : Nat) (x : RadRx) (pending : Bool) : (s.autoAck r x pending).mem = s.mem := by
  simp [State.autoAck]

@[simp] theorem State.secFail_mem (s : State) (r : Nat) : (s.secFail r).mem = s.mem := by simp [State.secFail]

@[simp] theorem State.radOpen_mem (s : State) (r : Nat) (x : RadRx) : (s.radOpen r x).2.mem = s.mem := by
  unfold State.radOpen
  simp only
  (repeat' split) <;> simp

@[simp] theorem State.endProvisional_mem (s : State) (r a : Nat) (secured : Bool) :
    (s.endProvisional r a secured).mem = s.mem := by
  unfold State.endProvisional
  split <;> simp

@[simp] theorem State.radBroken_mem (s : State) (r : Nat) : (s.radBroken r).2.mem = s.mem := by simp [State.radBroken]

@[simp] theorem State.radAccept_mem (s : State) (r : Nat) (x : RadRx) : (s.radAccept r x).2.mem = s.mem := by
  unfold State.radAccept
  simp only
  split <;> simp

@[simp] theorem State.noteAnswered_mem (s : State) (r e : Nat) : (s.noteAnswered r e).mem = s.mem := by
  unfold State.noteAnswered
  (repeat' split) <;> simp

@[simp] theorem State.radAcked_mem (s : State) (r : Nat) (j : RadJob) : (s.radAcked r j).mem = s.mem := by
  unfold State.radAcked
  simp only
  (repeat' split) <;> simp

@[simp] theorem State.radReqDone_mem (s : State) (r : Nat) (j : RadJob) : (s.radReqDone r j).mem = s.mem := by
  unfold State.radReqDone
  simp only
  (repeat' split) <;> simp

@[simp] theorem State.bookTries_mem (s : State) (r : Nat) (j : RadJob) (tries : Nat) : (s.bookTries r j tries).mem = s.mem := by
  simp [State.bookTries]

@[simp] theorem execRadioTransmitComplete_mem (r : Nat) (x : RadDone) (s : State) :
    (afterOut (execRadioTransmitComplete r x s) s).mem = s.mem := by
  unfold execRadioTransmitComplete
  split <;> simp

@[simp] theorem execIndirectItemUnacked_mem (r a : Nat) (s : State) :
    (afterOut (execIndirectItemUnacked r a s) s).mem = s.mem := by
  unfold execIndirectItemUnacked
  split <;> simp

@[simp] theorem State.radDeliver_mem (s : State) (r a : Nat) (t : Stamp) (msg : List Byte) :
    (s.radDeliver r a t msg).mem = s.mem := by
  unfold State.radDeliver
  split <;> simp

@[simp] theorem State.radFrameIn_mem (s : State) (r : Nat) (x : RadRx) : (s.radFrameIn r x).mem = s.mem := by
  unfold State.radFrameIn
  simp only
  (repeat' split) <;> simp

@[simp] theorem execRadioFrameReceived_mem (r : Nat) (x : RadRx) (s : State) :
    (afterOut (execRadioFrameReceived r x s) s).mem = s.mem := by
  unfold execRadioFrameReceived
  simp only
  (repeat' split) <;> simp

@[simp] theorem State.markIndirect_mem (s : State) (r : Nat) (j : RadJob) : (s.markIndirect r j).mem = s.mem := by
  unfold State.markIndirect
  split <;> simp

@[simp] theorem State.dropServed_mem (s : State) (r : Nat) (j : RadJob) : (s.dropServed r j).mem = s.mem := by
  unfold State.dropServed
  simp only
  (repeat' split) <;> simp

@[simp] theorem State.serve_mem (s : State) (r air : Nat) (j : RadJob) (f : Option (List Byte) × State) (h : f.2.mem = s.mem) :
    (s.serve r air j f).mem = s.mem := by
  unfold State.serve
  split
  · rfl
  · split
    · simp
    · split
      · simp
      · split <;> simp [h]

@[simp] theorem State.answerDataRequest_mem (s : State) (r air : Nat) (x : RadRx) :
    (s.answerDataRequest r air x).mem = s.mem := by
  unfold State.answerDataRequest
  (repeat' split) <;> simp

@[simp] theorem State.noteAsked_mem (s : State) (r a : Nat) : (s.noteAsked r a).mem = s.mem := by
  unfold State.noteAsked
  split <;> simp

@[simp] theorem State.dataRequest_mem (s : State) (r air : Nat) (x : RadRx) : (s.dataRequest r air x).mem = s.mem := by
  unfold State.dataRequest
  simp only
  (repeat' split) <;> simp

@[simp] theorem execDataRequest_mem (r air : Nat) (x : RadRx) (s : State) :
    (afterOut (execDataRequest r air x s) s).mem = s.mem := by simp [execDataRequest]

@[simp] theorem State.recordIn_mem (s : State) (r a flags : Nat) (crr : List Byte) (t : Stamp) :
    (s.recordIn r a flags crr t).mem = s.mem := by
  unfold State.recordIn
  split <;> simp

@[simp] theorem State.endPoll_mem (s : State) (r a : Nat) (p : Exchange → Bool) : (s.endPoll r a p).mem = s.mem := by
  unfold State.endPoll
  split <;> simp

@[simp] theorem State.reading_mem (s : State) (r a flags : Nat) (crr : List Byte) : (s.reading r a flags crr).mem = s.mem := by
  unfold State.reading
  simp only
  split <;> simp

@[simp] theorem execReadingMessage_mem (r a : Nat) (msg : List Byte) (s : State) :
    (afterOut (execReadingMessage r a msg s) s).mem = s.mem := by simp [execReadingMessage]

@[simp] theorem State.radAckIn_mem (s : State) (r a : Nat) (body : List Byte) : (s.radAckIn r a body).mem = s.mem := by
  unfold State.radAckIn
  split <;> simp

@[simp] theorem execRadioAckMessage_mem (r a : Nat) (body : List Byte) (s : State) :
    (afterOut (execRadioAckMessage r a body s) s).mem = s.mem := by simp [execRadioAckMessage]

@[simp] theorem State.putExt_mem (s : State) (r eui a st parent : Nat) : (s.putExt r eui a st parent).mem = s.mem := by
  simp [State.putExt]

@[simp] theorem State.associate_mem (s : State) (r eui caps parent : Nat) : (s.associate r eui caps parent).mem = s.mem := by
  unfold State.associate
  simp only
  split
  · simp
  · next h => simp [State.register_mem h]

@[simp] theorem State.assocDecide_mem (s : State) (r eui caps parent : Nat) : (s.assocDecide r eui caps parent).mem = s.mem := by
  unfold State.assocDecide
  split <;> simp

@[simp] theorem State.assocRequest_mem (s : State) (r : Nat) (x : RadRx) (caps parent : Nat) :
    (s.assocRequest r x caps parent).mem = s.mem := by
  unfold State.assocRequest
  split <;> simp

@[simp] theorem execAssociationRequest_mem (r : Nat) (x : RadRx) (caps parent : Nat) (s : State) :
    (afterOut (execAssociationRequest r x caps parent s) s).mem = s.mem := by simp [execAssociationRequest]

@[simp] theorem execProvisionalExpiry_mem (r a : Nat) (s : State) : (afterOut (execProvisionalExpiry r a s) s).mem = s.mem := by
  unfold execProvisionalExpiry
  split <;> simp

@[simp] theorem State.planCover_mem (s : State) (r a : Nat) (m : Sleepy) (txn iseq : Nat) :
    (s.planCover r a m txn iseq).mem = s.mem := by simp [State.planCover]

@[simp] theorem State.coverPlan_mem (s : State) (r a : Nat) : (s.coverPlan r a).mem = s.mem := by
  unfold State.coverPlan
  split
  · split
    · rfl
    · split
      · rfl
      · split
        · simp
        · next h => simp [State.txnFor_mem h]
  · rfl

@[simp] theorem execCoverPlan_mem (r a : Nat) (s : State) : (afterOut (execCoverPlan r a s) s).mem = s.mem := by simp [execCoverPlan]

@[simp] theorem State.coverFailed_mem (s : State) (r : Nat) (c : Cover) : (s.coverFailed r c).mem = s.mem := by
  unfold State.coverFailed
  simp only
  (repeat' split) <;> simp

@[simp] theorem execCoverUnacked_mem (r : Nat) (s : State) : (afterOut (execCoverUnacked r s) s).mem = s.mem := by
  unfold execCoverUnacked
  (repeat' split) <;> simp

@[simp] theorem State.pendOp_mem (s : State) (r : Nat) (v : Word) : (s.pendOp r v).mem = s.mem := by simp [State.pendOp]

@[simp] theorem execPendForceSet_mem (i : Iface) (r a : Nat) (s : State) :
    (afterOut (execPendForceSet i r a s) s).mem = s.mem := by simp [execPendForceSet]

@[simp] theorem execPendForceClear_mem (i : Iface) (r a : Nat) (s : State) :
    (afterOut (execPendForceClear i r a s) s).mem = s.mem := by simp [execPendForceClear]

@[simp] theorem execPendQuery_mem (i : Iface) (r a : Nat) (s : State) : (afterOut (execPendQuery i r a s) s).mem = s.mem := by
  simp [execPendQuery]

@[simp] theorem State.clearRadErr_mem (s : State) (r : Nat) (v : Word) : (s.clearRadErr r v).mem = s.mem := by simp [State.clearRadErr]

@[simp] theorem execRadErrClear_mem (i : Iface) (r : Nat) (s : State) : (afterOut (execRadErrClear i r s) s).mem = s.mem := by
  simp [execRadErrClear]

@[simp] theorem execSpiTimeout_mem (r : Nat) (s : State) : (afterOut (execSpiTimeout r s) s).mem = s.mem := by simp [execSpiTimeout]

/-! #### Left alone: Validation -/

@[simp] theorem execReassemblyTimeout_mem (c a : Nat) (s : State) : (afterOut (execReassemblyTimeout c a s) s).mem = s.mem := by
  unfold execReassemblyTimeout
  split <;> simp

@[simp] theorem execBatchMaxageExpiry_mem (s : State) : (afterOut (execBatchMaxageExpiry s) s).mem = s.mem := by
  simp [execBatchMaxageExpiry]

@[simp] theorem State.signBatch_mem (s : State) (b : Batch) (rest : List Batch) : (s.signBatch b rest).mem = s.mem := by
  simp [State.signBatch]

@[simp] theorem execBatchSigned_mem (s : State) : (afterOut (execBatchSigned s) s).mem = s.mem := by
  unfold execBatchSigned
  split <;> simp

@[simp] theorem State.dedupQuery_mem (s : State) : (s.dedupQuery).mem = s.mem := by simp [State.dedupQuery]

@[simp] theorem execDedupQuery_mem (i : Iface) (v : Word) (s : State) : (afterOut (execDedupQuery i v s) s).mem = s.mem := by
  simp [execDedupQuery]

@[simp] theorem State.clearVcnt_mem (s : State) (v : Word) : (s.clearVcnt v).mem = s.mem := by simp [State.clearVcnt]

@[simp] theorem execValVcntClear_mem (i : Iface) (v : Word) (s : State) : (afterOut (execValVcntClear i v s) s).mem = s.mem := by
  simp [execValVcntClear]

@[simp] theorem State.batchCfg_mem (s : State) : (s.batchCfg).mem = s.mem := by simp [State.batchCfg]

@[simp] theorem execValBatchCfgWrite_mem (i : Iface) (v : Word) (s : State) :
    (afterOut (execValBatchCfgWrite i v s) s).mem = s.mem := by simp [execValBatchCfgWrite]

/-! #### Left alone: Bus -/

@[simp] theorem State.actCore_mem (s₀ s : State) (i : Iface) (a : Nat) (v : Word) : (s₀.actCore i a v s).mem = s.mem := by
  unfold State.actCore
  repeat' split
  all_goals simp

@[simp] theorem State.actLinks_mem (i : Iface) (a : Nat) (v : Word) (s : State) : (s.actLinks i a v).mem = s.mem := by
  unfold State.actLinks
  (repeat' split) <;> simp

@[simp] theorem State.actTables_mem (a : Nat) (v : Word) (s : State) : (s.actTables a v).mem = s.mem := by simp [State.actTables]
@[simp] theorem State.actQueue_mem (s : State) (q off : Nat) (v : Word) : (s.actQueue q off v).mem = s.mem := by simp [State.actQueue]

@[simp] theorem State.nowPending_mem (s₀ s : State) (q : Nat) : (State.nowPending s₀ q s).mem = s.mem := by
  unfold State.nowPending
  simp

@[simp] theorem State.actWhf_mem (s₀ s : State) (a : Nat) (v : Word) : (State.actWhf s₀ a v s).mem = s.mem := by
  unfold State.actWhf
  split
  · split <;> simp
  · rfl

@[simp] theorem State.actFry_mem (i : Iface) (a : Nat) (v : Word) (s : State) : (s.actFry i a v).mem = s.mem := by
  unfold State.actFry
  (repeat' split) <;> simp

@[simp] theorem State.readAct_mem (s : State) (i : Iface) (a : Nat) : (s.readAct i a).2.mem = s.mem := by
  let g : Word × State → SMap Byte × SMap Byte := fun p => p.2.mem
  refine ite_keeps g (s.allocRead_mem i) <| ite_keeps g s.gstatRead_mem <| ite_keeps g s.jseqRead_mem <|
    ite_keeps g s.cntRead_mem <| ite_keeps g (s.createThread_mem i) <| ite_keeps g (s.c0StatRead_mem 0) <|
    ite_keeps g (s.c0StatRead_mem 1) <| ite_keeps g s.indexCapture_mem <| ite_keeps g s.qtyRead_mem <|
    ite_keeps g s.fbRead_mem <| ite_keeps g ?_ <| ite_keeps g ?_ rfl
  · simp [g]
  · simp [g]

@[simp] theorem State.busRead_mem (s : State) (i : Iface) (a : Nat) : (s.busRead i a).2.mem = s.mem := by
  unfold State.busRead
  simp only
  split <;> simp

@[simp] theorem State.msixWrite_mem (s : State) (off : Nat) (v : Word) : (s.msixWrite off v).mem = s.mem := by simp [State.msixWrite]

@[simp] theorem execOpXld_mem (n gd ga imm : Nat) (s : State) : (afterOut (execOpXld n gd ga imm s) s).mem = s.mem := by
  simp [execOpXld]

/-! #### Left alone: Debug -/

@[simp] theorem runAlu_mem (n : Nat) (x : OWord) (s : State) : (afterOut (runAlu n x s) s).mem = s.mem := by
  unfold runAlu
  split <;> simp

@[simp] theorem runFlow_mem (n : Nat) (x : OWord) (s : State) : (afterOut (runFlow n x s) s).mem = s.mem := by
  unfold runFlow
  split <;> simp

/-! #### Left alone: Time -/

@[simp] theorem State.tick_mem (s : State) : (s.tick).mem = s.mem := by simp [State.tick]

/-! ### What writes the memories keeps their form -/

/-- Both memories are in canonical form. -/
def memWf (m : SMap Byte × SMap Byte) : Prop := Memory.wf m.1 ∧ Memory.wf m.2

@[simp] theorem memWf_ite (c : Prop) [Decidable c] (a b : SMap Byte × SMap Byte) :
    memWf (if c then a else b) ↔ if c then memWf a else memWf b := iff_of_eq (apply_ite memWf _ _ _)

/-- A fold of steps that keep the canonical form keeps it. -/
@[simp] theorem foldl_wf {α : Type} (f : State → α → State) (hf : ∀ s x, memWf s.mem → memWf (f s x).mem) (l : List α) (s : State)
    (h : memWf s.mem) : memWf (l.foldl f s).mem := by
  induction l generalizing s with
  | nil => exact h
  | cons x l ih => exact ih _ (hf s x h)

@[simp] theorem State.writeGate_wf (s : State) (i : Iface) (a : Nat) (v : Word) (act : State → State)
    (hact : ∀ s, memWf s.mem → memWf (act s).mem) (h : memWf s.mem) : memWf (s.writeGate i a v act).mem := by
  unfold State.writeGate
  split <;> simp [h, hact]

@[simp] theorem State.atHead_wf (s : State) (role : Nat) (f : State → Item → State × Bool)
    (hf : ∀ s it, memWf s.mem → memWf (f s it).1.mem) (h : memWf s.mem) : memWf (s.atHead role f).mem := by
  unfold State.atHead
  split
  · exact h
  · split
    · exact h
    · simp only
      split
      · split
        · next hd => rw [State.deliver_mem hd]; exact hf _ _ h
        · exact hf _ _ h
      · exact hf _ _ h

@[simp] theorem State.oarDo_wf (s : State) (n cycles : Nat) (f : Oarsman → State → State)
    (hf : ∀ o s, memWf s.mem → memWf (f o s).mem) (h : memWf s.mem) : memWf (s.oarDo n cycles f).mem := by
  unfold State.oarDo
  simp only
  split
  · exact h
  · split <;> simp [h, hf]

@[simp] theorem State.onMessage_wf (s : State) (b : List Byte) (f : State → State)
    (hf : ∀ s, memWf s.mem → memWf (f s).mem) (h : memWf s.mem) : memWf (s.onMessage b f).mem := by
  unfold State.onMessage
  split
  · exact h
  · next ht => exact hf _ (by rwa [State.gwyTake_mem ht])
  · next ht => rwa [State.gwyTake_mem ht]

/-! #### Form kept: CommitOps -/

@[simp] theorem State.dramPut_wf (s : State) (a : Nat) (bs : List Byte) (h : memWf s.mem) : memWf (s.dramPut a bs).mem := by
  simp only [State.mem_eq] at h ⊢
  exact ⟨h.1, putBytes_wf _ _ _ h.2⟩

@[simp] theorem State.applyAction_wf (iss : Issuer) (s : State) (ad : Action × List Byte) (h : memWf s.mem) :
    memWf (s.applyAction iss ad).mem := by
  unfold State.applyAction
  simp only
  split
  · simp only [State.mem_eq] at h ⊢
    exact ⟨putBytes_wf _ _ _ h.1, h.2⟩
  all_goals simp [h]

@[simp] theorem State.sealGroup_wf (s : State) (g : Nat) (bound : List Byte) (jflags : Nat) (extra : List StoreUpd)
    (h : memWf s.mem) : memWf (s.sealGroup g bound jflags extra).mem := by
  have hfold (l : List (Action × List Byte)) : memWf (l.foldl (State.applyAction (s.grp g).issuer) s).mem :=
    foldl_wf _ (fun s p hs => s.applyAction_wf _ p hs) l s h
  simp only [State.sealGroup]
  simp [hfold]

@[simp] theorem State.sealRequest_wf (s : State) (g : Nat) (iss : Issuer) (h : memWf s.mem) :
    memWf (s.sealRequest g iss).2.mem := by
  unfold State.sealRequest
  simp only
  (repeat' split) <;> simp [h]

@[simp] theorem State.sealedGroup_wf (s : State) (acts : List Action) (upds : List StoreUpd) (p : GPurpose) (h : memWf s.mem) :
    memWf (s.sealedGroup acts upds p).1.mem := by
  have hfold (g : Nat) (u : State) (hu : memWf u.mem) :
      memWf (acts.foldl (fun (st : State × Bool) a =>
        if st.2 then let q := st.1.stage g 0x3F a; (q.2, q.1 == 0) else st) (u, true)).1.mem := by
    rw [foldl_keeps (fun p : State × Bool => p.1.mem) (fun p a => ?_) acts (u, true)]
    · exact hu
    · split <;> simp
  have ho {r : Bool} {x g : Nat} {u : State} (he : s.openGroup 0x3F r = (x, g, u)) : memWf u.mem := by
    have hs := s.openGroup_mem 0x3F r
    rw [he] at hs
    rwa [hs]
  unfold State.sealedGroup
  simp only
  split
  · exact h
  · split
    · next he =>
      have hg := ho he
      split
      · simp [hfold _ _ hg]
      · split <;> simp [hfold _ _ hg]
    · next he => exact ho he

/-! #### Form kept: ValOps -/

@[simp] theorem State.sealVal_wf (s : State) (h : memWf s.mem) : memWf (s.sealVal).mem := by
  unfold State.sealVal
  split <;> simp [h]

@[simp] theorem State.sealFull_wf (s : State) (h : memWf s.mem) : memWf (s.sealFull).mem := by simp [State.sealFull, h]

@[simp] theorem State.stageEvidence_wf (s : State) (n : Nat) (v : VRec) (verdict : Nat) (h : memWf s.mem) :
    memWf (s.stageEvidence n v verdict).mem := by
  unfold State.stageEvidence
  split <;> simp [h]

@[simp] theorem State.rejectRec_wf (s : State) (n : Nat) (v : VRec) (verdict : Nat) (h : memWf s.mem) :
    memWf (s.rejectRec n v verdict).mem := by simp [State.rejectRec, h]

@[simp] theorem State.storeRec_wf (s : State) (n : Nat) (v : VRec) (slot : Nat) (h : memWf s.mem) :
    memWf (s.storeRec n v slot).mem := by
  unfold State.storeRec
  simp only
  split
  · simp [h]
  · split
    · simp [h]
    · next g s0 hv =>
      have h0 : memWf s0.mem := by rwa [State.valGroup_mem hv]
      (split <;> split) <;> simp [h0]

@[simp] theorem State.resumeRec_wf (s : State) (n : Nat) (h : memWf s.mem) : memWf (s.resumeRec n).mem := by
  unfold State.resumeRec
  (repeat' split) <;> simp [h]

@[simp] theorem State.enterRec_wf (s : State) (v : VRec) (line : LineRead) (h : memWf s.mem) : memWf (s.enterRec v line).mem := by
  unfold State.enterRec
  simp only
  (repeat' split) <;> simp [h]

@[simp] theorem State.enterEntry_wf (s : State) (n : Nat) (v : VRec) (h : memWf s.mem) : memWf (s.enterEntry n v).mem := by
  unfold State.enterEntry
  simp only
  split <;> simp [h]

@[simp] theorem State.enterWaiting_wf (n : Nat) (s : State) (h : memWf s.mem) : memWf (s.enterWaiting n).mem := by
  induction n generalizing s with
  | zero => exact h
  | succ fuel ih =>
    unfold State.enterWaiting
    split
    · exact h
    · split
      · refine ih _ ?_
        split <;> simp [h]
      · exact h

@[simp] theorem State.poisonRec_wf (s : State) (n : Nat) (v : VRec) (h : memWf s.mem) : memWf (s.poisonRec n v).mem := by
  simp [State.poisonRec, h]

@[simp] theorem State.retryRec_wf (s : State) (n : Nat) (h : memWf s.mem) : memWf (s.retryRec n).mem := by
  unfold State.retryRec
  (repeat' split) <;> simp [h]

@[simp] theorem State.retryRecs_wf (s : State) (h : memWf s.mem) : memWf (s.retryRecs).mem := by
  have hf := foldl_wf State.retryRec (fun s n hs => s.retryRec_wf n hs)
  unfold State.retryRecs
  exact State.enterWaiting_wf _ _ (hf _ s h)

/-! #### Form kept: RecOps -/

@[simp] theorem State.segmentIn_wf (s : State) (r : Reasm) (data : List Byte) (t : Stamp) (h : memWf s.mem) :
    memWf (s.segmentIn r data t).mem := by simp [State.segmentIn, h]

@[simp] theorem State.segment_wf (s : State) (c a off total : Nat) (data : List Byte) (t : Stamp) (h : memWf s.mem) :
    memWf (s.segment c a off total data t).mem := by
  unfold State.segment
  split
  · split <;> simp [h]
  · split
    · exact h
    · split
      · simp [h]
      · simp only
        split
        · simp [h]
        · next ht => simp [h, State.txnFor_mem ht]

@[simp] theorem State.retrySegs_wf (s : State) (c : Nat) (h : memWf s.mem) : memWf (s.retrySegs c).mem :=
  foldl_wf _ (fun s x hs => State.segment_wf _ _ _ _ _ _ _ (by simpa using hs)) _ s h

/-! #### Form kept: SiteOps -/

@[simp] theorem State.siteEmit_wf (s : State) (n : Nat) (regs : List Nat) (h : memWf s.mem) : memWf (s.siteEmit n regs).mem := by
  simp [State.siteEmit, h]

/-! #### Form kept: TokOps -/

@[simp] theorem State.acctGroup_wf (s : State) (n : Nat) (acts : List Action) (upds : List StoreUpd) (h : memWf s.mem) :
    memWf (s.acctGroup n acts upds).1.mem := by
  unfold State.acctGroup
  simp only
  (repeat' split) <;> simp [h]

@[simp] theorem State.acctSet_wf (s : State) (body : List Byte) (h : memWf s.mem) : memWf (s.acctSet body).1.mem := by
  simp [State.acctSet, h]

@[simp] theorem State.acctClose_wf (s : State) (body : List Byte) (h : memWf s.mem) : memWf (s.acctClose body).1.mem := by
  simp [State.acctClose, h]

@[simp] theorem State.tokAccept_wf (s : State) (n src v : Nat) (h : memWf s.mem) : memWf (s.tokAccept n src v).1.mem := by
  unfold State.tokAccept
  simp only
  (repeat' split) <;> simp [h]

@[simp] theorem State.tokenIn_wf (s : State) (b : List Byte) (h : memWf s.mem) : memWf (s.tokenIn b).1.mem := by
  unfold State.tokenIn
  simp only
  (repeat' split) <;> simp [h]

/-! #### Form kept: BilOps -/

@[simp] theorem State.boundaryNow_wf (s : State) (b n next : Nat) (regs : List Nat) (good withLp late : Bool)
    (flags newFlags : Nat) (acts : List Nat) (h : memWf s.mem) :
    memWf (s.boundaryNow b n next regs good withLp late flags newFlags acts).1.mem := by
  unfold State.boundaryNow
  simp only
  (repeat' split) <;> simp [h]

@[simp] theorem State.sealStaged_wf (s : State) (t : Staged) (n : Nat) (regs : List Nat) (good : Bool) (flags : Nat)
    (h : memWf s.mem) : memWf (s.sealStaged t n regs good flags).mem := by simp [State.sealStaged, h]

@[simp] theorem State.sealWaiting_wf (s : State) (h : memWf s.mem) : memWf (s.sealWaiting).mem := by
  unfold State.sealWaiting
  split <;> simp [h]

@[simp] theorem State.bilLatch_wf (s : State) (n : Nat) (regs : List Nat) (h : memWf s.mem) : memWf (s.bilLatch n regs).mem := by
  unfold State.bilLatch
  simp only
  split <;> simp [h]

@[simp] theorem State.replayIntent_wf (s : State) (t : Staged) (n : Nat) (regs : List Nat) (good : Bool) (flags : Nat)
    (h : memWf s.mem) : memWf (s.replayIntent t n regs good flags).mem := by simp [State.replayIntent, h]

@[simp] theorem State.firstOpen_wf (s : State) (c : Nat) (h : memWf s.mem) : memWf (s.firstOpen c).1.mem := by
  unfold State.firstOpen
  simp only
  (repeat' split) <;> simp [h]

@[simp] theorem State.catchLoop_wf (c qn : Nat) (restart : Bool) (n : Nat) (s : State) (h : memWf s.mem) :
    memWf (s.catchLoop c qn restart n).1.mem := by
  induction n generalizing s with
  | zero => exact h
  | succ fuel ih =>
    have hif (r : State × Bool) (t : State) (hr : memWf r.1.mem) (ht : memWf t.mem) :
        memWf (if r.2 then State.catchLoop c qn restart fuel t else r).1.mem := by
      split
      · exact ih _ ht
      · exact hr
    unfold State.catchLoop
    simp only
    split
    · exact h
    · refine hif _ _ ?_ ?_ <;> simp [h]

@[simp] theorem State.catchUp_wf (s : State) (c qn : Nat) (restart : Bool) (h : memWf s.mem) :
    memWf (s.catchUp c qn restart).mem := by simp [State.catchUp, h]

@[simp] theorem State.closeGroup_wf (s : State) (k : Nat) (c : Closed) (h : memWf s.mem) : memWf (s.closeGroup k c).1.mem := by
  have hfold (us : List StoreUpd) : memWf (us.foldl (fun (st : State) u => match u with
      | .record t i v => st.sealedStore t i v
      | _ => st) s).mem := by
    rw [foldl_mem _ fun st u => ?_]
    · exact h
    · split <;> simp
  have hif (g : State × Bool) (t : State) (hg : memWf g.1.mem) (ht : memWf t.mem) :
      memWf (if g.2 then (t, true) else g).1.mem := by
    split <;> assumption
  unfold State.closeGroup
  simp only
  split
  · exact h
  · refine hif _ _ (State.sealedGroup_wf _ _ _ _ (hfold _)) ?_
    split <;> simp <;> exact State.sealedGroup_wf _ _ _ _ (hfold _)

@[simp] theorem State.billCrr_wf (s : State) (k : Nat) (r : List Byte) (reads : List SealRead) (h : memWf s.mem) :
    memWf (s.billCrr k r reads).1.mem := by
  unfold State.billCrr
  simp only
  (repeat' split) <;> simp [h]

@[simp] theorem State.sessIn_wf (s : State) (k : Nat) (r : List Byte) (h : memWf s.mem) : memWf (s.sessIn k r).1.mem := by
  simp [State.sessIn, h]

@[simp] theorem State.billStep_wf (s : State) (b : List Byte) (reads : List SealRead) (h : memWf s.mem) :
    memWf (s.billStep b reads).1.mem := by
  unfold State.billStep
  simp only
  (repeat' split) <;> simp [h]

@[simp] theorem State.sessNext_wf (s : State) (h : memWf s.mem) : memWf (s.sessNext).mem := by
  unfold State.sessNext
  split <;> simp [h]

@[simp] theorem State.bilRide_wf (s : State) (h : memWf s.mem) : memWf (s.bilRide).mem := by
  unfold State.bilRide
  simp only
  split <;> simp [h]

@[simp] theorem State.bilStart_wf (s : State) (intent : Option Staged) (h : memWf s.mem) : memWf (s.bilStart intent).mem := by
  unfold State.bilStart
  split <;> simp [h]

/-! #### Form kept: Billing -/

@[simp] theorem execBillingStep_wf (reads : List SealRead) (s : State) (h : memWf s.mem) :
    memWf (afterOut (execBillingStep reads s) s).mem := by
  rw [execBillingStep, afterOut_out_mem]
  refine State.atHead_wf s _ _ (fun s it hs => ?_) h
  split <;> simp [hs]

@[simp] theorem execPassedBoundaryCatchup_wf (s : State) (h : memWf s.mem) :
    memWf (afterOut (execPassedBoundaryCatchup s) s).mem := by simp [execPassedBoundaryCatchup, h]

@[simp] theorem execSessionResult_wf (s : State) (h : memWf s.mem) : memWf (afterOut (execSessionResult s) s).mem := by
  simp [execSessionResult, h]

/-! #### Form kept: Cells -/

@[simp] theorem execExchangePlanned_wf (c : Nat) (s : State) (h : memWf s.mem) :
    memWf (afterOut (execExchangePlanned c s) s).mem := by simp [execExchangePlanned, h]

@[simp] theorem State.answer_wf (s : State) (c : Nat) (x : Exchange) (kind off total : Nat) (data : List Byte) (t : Stamp)
    (h : memWf s.mem) : memWf (s.answer c x kind off total data t).mem := by simp [State.answer, h]

@[simp] theorem State.response_wf (s : State) (c : Nat) (f : List Byte) (t : Stamp) (h : memWf s.mem) :
    memWf (s.response c f t).mem := by
  unfold State.response
  simp only
  (repeat' split) <;> simp [h]

@[simp] theorem execResponseReceived_wf (c : Nat) (psdu : List Byte) (s : State) (h : memWf s.mem) :
    memWf (afterOut (execResponseReceived c psdu s) s).mem := by simp [execResponseReceived, h]

/-! #### Form kept: CommitCtl -/

@[simp] theorem State.clearGroup_wf (s : State) (h : memWf s.mem) : memWf (s.clearGroup).mem := by simp [State.clearGroup, h]

@[simp] theorem State.clearWrite_wf (s : State) (i : Iface) (h : memWf s.mem) : memWf (s.clearWrite i).mem := by
  simp [State.clearWrite, h]

@[simp] theorem execLogbookClear_wf (i : Iface) (s : State) (h : memWf s.mem) :
    memWf (afterOut (execLogbookClear i s) s).mem := by
  rw [execLogbookClear, afterOut_out_mem]
  exact State.writeGate_wf s _ _ _ _ (fun s hs => by simp [hs]) h

/-! #### Form kept: DoneOps -/

@[simp] theorem State.sealBy_wf (s : State) (g : Nat) (iss : Issuer) (h : memWf s.mem) : memWf (s.sealBy g iss).2.mem := by
  unfold State.sealBy
  split <;> simp [h]

@[simp] theorem State.purposeDone_wf (s : State) (p : GPurpose) (h : memWf s.mem) : memWf (s.purposeDone p).mem := by
  unfold State.purposeDone
  split <;> simp [h]

@[simp] theorem State.groupDone_wf (s : State) (g : Nat) (h : memWf s.mem) : memWf (s.groupDone g).mem := by simp [State.groupDone, h]

@[simp] theorem State.makeDurable_wf (s : State) (j : Nat) (h : memWf s.mem) : memWf (s.makeDurable j).mem :=
  foldl_wf _ (fun s g hs => s.groupDone_wf g hs) _ _ (by simpa using h)

/-! #### Form kept: Tariff -/

@[simp] theorem State.request_wf (s : State) (b : List Byte) (h : memWf s.mem) : memWf (s.request b).1.mem := by
  unfold State.request
  simp only
  (repeat' split) <;> simp [h]

@[simp] theorem State.requestRow_wf (op : Nat) (s : State) (h : memWf s.mem) : memWf (s.requestRow op).mem := by
  refine State.atHead_wf s _ _ (fun s it hs => ?_) h
  split
  · exact hs
  · split <;> simp [hs]

@[simp] theorem execTariffOpen_wf (s : State) (h : memWf s.mem) : memWf (afterOut (execTariffOpen s) s).mem := by
  simp [execTariffOpen, h]

@[simp] theorem execTariffWrite_wf (s : State) (h : memWf s.mem) : memWf (afterOut (execTariffWrite s) s).mem := by
  simp [execTariffWrite, h]

@[simp] theorem execTariffClose_wf (s : State) (h : memWf s.mem) : memWf (afterOut (execTariffClose s) s).mem := by
  simp [execTariffClose, h]

@[simp] theorem execTariffActivate_wf (s : State) (h : memWf s.mem) : memWf (afterOut (execTariffActivate s) s).mem := by
  simp [execTariffActivate, h]

@[simp] theorem execTariffCancel_wf (s : State) (h : memWf s.mem) : memWf (afterOut (execTariffCancel s) s).mem := by
  simp [execTariffCancel, h]

@[simp] theorem execAccountSet_wf (s : State) (h : memWf s.mem) : memWf (afterOut (execAccountSet s) s).mem := by
  simp [execAccountSet, h]

@[simp] theorem execAccountClose_wf (s : State) (h : memWf s.mem) : memWf (afterOut (execAccountClose s) s).mem := by
  simp [execAccountClose, h]

@[simp] theorem execClearLockout_wf (s : State) (h : memWf s.mem) : memWf (afterOut (execClearLockout s) s).mem := by
  simp [execClearLockout, h]

/-! #### Form kept: CommitDone -/

@[simp] theorem execGroupSeal_wf (i : Iface) (g : Nat) (s : State) (h : memWf s.mem) :
    memWf (afterOut (execGroupSeal i g s) s).mem := by
  rw [execGroupSeal, afterOut_out_mem]
  exact State.writeGate_wf s _ _ _ _ (fun s hs => by simp [hs]) h

@[simp] theorem execOpCseal_wf (n gd imm : Nat) (s : State) (h : memWf s.mem) :
    memWf (afterOut (execOpCseal n gd imm s) s).mem := by
  rw [execOpCseal, afterOut_out_mem]
  exact State.oarDo_wf s _ _ _ (fun o s hs => by simp [hs]) h

@[simp] theorem execGroupDurable_wf (g : Nat) (s : State) (h : memWf s.mem) : memWf (afterOut (execGroupDurable g s) s).mem := by
  simp [execGroupDurable, h]

@[simp] theorem execProducerClaimGranted_wf (q : Nat) (s : State) (h : memWf s.mem) :
    memWf (afterOut (execProducerClaimGranted q s) s).mem := by simp [execProducerClaimGranted, h]

@[simp] theorem State.retryCatchup_wf (s : State) (h : memWf s.mem) : memWf (s.retryCatchup).mem := by
  unfold State.retryCatchup
  split <;> simp [h]

@[simp] theorem execSealedGroupRetry_wf (s : State) (h : memWf s.mem) : memWf (afterOut (execSealedGroupRetry s) s).mem := by
  unfold execSealedGroupRetry
  split
  · simpa using h
  · rw [afterOut_out_mem]
    have h1 : memWf (if s.lgb.clearWaits then s.clearGroup else s).mem := by split <;> simp [h]
    refine State.retryRecs_wf _ (State.atHead_wf _ _ _ (fun s it hs => ?_) (State.atHead_wf _ _ _ (fun s it hs => ?_)
      (State.atHead_wf _ _ _ (fun s it hs => ?_) (State.sealWaiting_wf _ (State.retryCatchup_wf _ h1)))))
    all_goals split <;> simp [hs]

/-! #### Form kept: Gangway -/

@[simp] theorem State.takeBatch_wf (s : State) (p : Nat) (b : List Byte) (h : memWf s.mem) : memWf (s.takeBatch p b).mem := by
  simp [State.takeBatch, h]

@[simp] theorem State.batchMsg_wf (s : State) (b : List Byte) (h : memWf s.mem) : memWf (s.batchMsg b).mem := by
  unfold State.batchMsg
  simp only
  split
  · split
    · next ht => simp [h, State.gwyTake_mem ht]
    · exact h
  · split
    · simp [h]
    · split
      · split
        · split
          · next ht => simp [h, State.gwyTake_mem ht]
          · next ht => simp [h, State.gwyTake_mem ht]
          · exact h
        · simp [h]
      · split
        · next ht => simp [h, State.gwyTake_mem ht]
        · next ht => simp [h, State.gwyTake_mem ht]
        · exact h

@[simp] theorem execBatchReceived_wf (b : List Byte) (s : State) (h : memWf s.mem) :
    memWf (afterOut (execBatchReceived b s) s).mem := by simp [execBatchReceived, h]

/-! #### Form kept: PowOps -/

@[simp] theorem State.resetNow_wf (s : State) (cause : Nat) : memWf (s.resetNow cause).mem := by
  rw [State.mem_eq]
  exact reset_memories_wf

@[simp] theorem State.doReset_wf (s : State) (cause : Nat) (h : memWf s.mem) : memWf (s.doReset cause).mem := by
  simp [State.doReset, h]

@[simp] theorem State.powerWarn_wf (s : State) (cause : Option Nat) (vin : Nat) (h : memWf s.mem) :
    memWf (s.powerWarn cause vin).mem := by
  unfold State.powerWarn
  (repeat' split) <;> simp [h]

@[simp] theorem State.flushEnd_wf (s : State) (h : memWf s.mem) : memWf (s.flushEnd).mem := by simp [State.flushEnd, h]

@[simp] theorem State.rideThrough_wf (s : State) (h : memWf s.mem) : memWf (s.rideThrough).mem := by
  unfold State.rideThrough
  simp only
  (repeat' split) <;> simp [h]

/-! #### Form kept: Crossing -/

@[simp] theorem execSnapshotLatch_wf (s : State) (h : memWf s.mem) : memWf (afterOut (execSnapshotLatch s) s).mem := by
  simp [execSnapshotLatch, h]

/-! #### Form kept: Keys -/

@[simp] theorem State.endAttest_wf (s : State) (a : Nat) (b : List Byte) (h : memWf s.mem) : memWf (s.endAttest a b).mem := by
  simp [State.endAttest, h]

@[simp] theorem State.attestDone_wf (s : State) (h : memWf s.mem) : memWf (s.attestDone).mem := by
  unfold State.attestDone
  (repeat' split) <;> simp [h]

@[simp] theorem execAttestationComplete_wf (s : State) (h : memWf s.mem) :
    memWf (afterOut (execAttestationComplete s) s).mem := by simp [execAttestationComplete, h]

/-! #### Form kept: Power -/

@[simp] theorem execPowerWarning_wf (thermal : Bool) (vin : Nat) (s : State) (h : memWf s.mem) :
    memWf (afterOut (execPowerWarning thermal vin s) s).mem := by simp [execPowerWarning, h]

@[simp] theorem execFlushComplete_wf (s : State) (h : memWf s.mem) : memWf (afterOut (execFlushComplete s) s).mem := by
  unfold execFlushComplete
  simp only
  (repeat' split) <;> simp [h]

@[simp] theorem execRideThrough_wf (s : State) (h : memWf s.mem) : memWf (afterOut (execRideThrough s) s).mem := by
  simp [execRideThrough, h]

@[simp] theorem execRailDropout_wf (s : State) (h : memWf s.mem) : memWf (afterOut (execRailDropout s) s).mem := by
  simp [execRailDropout, h]

@[simp] theorem execPorst_wf (s : State) (h : memWf s.mem) : memWf (afterOut (execPorst s) s).mem := by simp [execPorst, h]

@[simp] theorem execPorstFlushTimeout_wf (s : State) (h : memWf s.mem) : memWf (afterOut (execPorstFlushTimeout s) s).mem := by
  simp [execPorstFlushTimeout, h]

@[simp] theorem execEbfinSystemReset_wf (s : State) (h : memWf s.mem) : memWf (afterOut (execEbfinSystemReset s) s).mem := by
  simp [execEbfinSystemReset, h]

@[simp] theorem State.resetWrite_wf (s : State) (i : Iface) (v : Word) (vin : Nat) (h : memWf s.mem) :
    memWf (s.resetWrite i v vin).mem := by simp [State.resetWrite, h]

@[simp] theorem execSoftwareReset_wf (i : Iface) (v : Word) (vin : Nat) (s : State) (h : memWf s.mem) :
    memWf (afterOut (execSoftwareReset i v vin s) s).mem := by
  rw [execSoftwareReset, afterOut_out_mem]
  exact State.writeGate_wf s _ _ _ _ (fun s hs => by simp [hs]) h

@[simp] theorem State.replayDone_wf (s : State) (h : memWf s.mem) : memWf (s.replayDone).mem := by simp [State.replayDone, h]

@[simp] theorem execJournalReplayDone_wf (s : State) (h : memWf s.mem) : memWf (afterOut (execJournalReplayDone s) s).mem := by
  simp [execJournalReplayDone, h]

/-! #### Form kept: ManifestCmd -/

@[simp] theorem State.mftApply_wf (s : State) (h : memWf s.mem) : memWf (s.mftApply).mem := by simp [State.mftApply, h]

@[simp] theorem State.mftOp_wf (s : State) (op : Nat) (m : MCopy) (h : memWf s.mem) : memWf (s.mftOp op m).mem := by
  simp [State.mftOp, h]

@[simp] theorem State.mftWrite_wf (s : State) (i : Iface) (op : Nat) (m : MCopy) (h : memWf s.mem) :
    memWf (s.mftWrite i op m).mem :=
  State.writeGate_wf s _ _ _ _ (fun s hs => by simp [hs]) h

@[simp] theorem execManifestCheck_wf (i : Iface) (m : MCopy) (s : State) (h : memWf s.mem) :
    memWf (afterOut (execManifestCheck i m s) s).mem := by simp [execManifestCheck, h]

@[simp] theorem execManifestStage_wf (i : Iface) (m : MCopy) (s : State) (h : memWf s.mem) :
    memWf (afterOut (execManifestStage i m s) s).mem := by simp [execManifestStage, h]

@[simp] theorem execManifestApply_wf (i : Iface) (s : State) (h : memWf s.mem) :
    memWf (afterOut (execManifestApply i s) s).mem := by simp [execManifestApply, h]

@[simp] theorem execManifestApplyBoundary_wf (vin : Nat) (s : State) (h : memWf s.mem) :
    memWf (afterOut (execManifestApplyBoundary vin s) s).mem := by simp [execManifestApplyBoundary, h]

@[simp] theorem execManifestConfirm_wf (i : Iface) (s : State) (h : memWf s.mem) :
    memWf (afterOut (execManifestConfirm i s) s).mem := by simp [execManifestConfirm, h]

@[simp] theorem execManifestInvalidate_wf (i : Iface) (s : State) (h : memWf s.mem) :
    memWf (afterOut (execManifestInvalidate i s) s).mem := by simp [execManifestInvalidate, h]

@[simp] theorem execTrialExpiry_wf (vin : Nat) (s : State) (h : memWf s.mem) :
    memWf (afterOut (execTrialExpiry vin s) s).mem := by simp [execTrialExpiry, h]

/-! #### Form kept: Hold -/

@[simp] theorem execHoldCmdComplete_wf (s : State) (h : memWf s.mem) : memWf (afterOut (execHoldCmdComplete s) s).mem := by
  unfold execHoldCmdComplete
  split <;> simp [h]

/-! #### Form kept: PanelCmd -/

@[simp] theorem execTokenEntry_wf (s : State) (h : memWf s.mem) : memWf (afterOut (execTokenEntry s) s).mem := by
  rw [execTokenEntry, afterOut_out_mem]
  refine State.atHead_wf s _ _ (fun s it hs => ?_) h
  split <;> simp [hs]

/-! #### Form kept: Radio -/

@[simp] theorem State.radSegment_wf (s : State) (r a : Nat) (body : List Byte) (h : memWf s.mem) :
    memWf (s.radSegment r a body).mem := by
  unfold State.radSegment
  simp only
  split <;> simp [h]

@[simp] theorem execSegmentMessage_wf (r a : Nat) (body : List Byte) (s : State) (h : memWf s.mem) :
    memWf (afterOut (execSegmentMessage r a body s) s).mem := by simp [execSegmentMessage, h]

@[simp] theorem State.relayed_wf (s : State) (r a eui : Nat) (inner : List Byte) (h : memWf s.mem) :
    memWf (s.relayed r a eui inner).mem := by
  unfold State.relayed
  split <;> simp [h]

@[simp] theorem execRelayMessage_wf (r a : Nat) (body : List Byte) (s : State) (h : memWf s.mem) :
    memWf (afterOut (execRelayMessage r a body s) s).mem := by simp [execRelayMessage, h]

/-! #### Form kept: Validation -/

@[simp] theorem State.takeRecord_wf (s : State) (q0 : Nat) (line : LineRead) (h : memWf s.mem) :
    memWf (s.takeRecord q0 line).mem := by
  unfold State.takeRecord
  simp only
  split
  · simp [h]
  · split
    · simp [h]
    · split
      · simp [h]
      · next hd =>
        (repeat' split) <;> simp [h, State.deliver_mem hd]

@[simp] theorem execValidationRecord_wf (q : Nat) (line : LineRead) (s : State) (h : memWf s.mem) :
    memWf (afterOut (execValidationRecord q line s) s).mem := by simp [execValidationRecord, h]

@[simp] theorem execRecordFlowResume_wf (x : PlaceRead) (s : State) (h : memWf s.mem) :
    memWf (afterOut (execRecordFlowResume x s) s).mem := by
  unfold execRecordFlowResume
  simp only
  split <;> simp [h]

@[simp] theorem execGroupWaitExpiry_wf (s : State) (h : memWf s.mem) : memWf (afterOut (execGroupWaitExpiry s) s).mem := by
  simp [execGroupWaitExpiry, h]

/-! #### Form kept: Bus -/

@[simp] theorem State.actStore_wf (i : Iface) (a : Nat) (v : Word) (s : State) (h : memWf s.mem) :
    memWf (s.actStore i a v).mem := by
  unfold State.actStore
  (repeat' split) <;> simp [h]

@[simp] theorem State.actSys_wf (i : Iface) (a : Nat) (v : Word) (s : State) (h : memWf s.mem) : memWf (s.actSys i a v).mem := by
  simp [State.actSys, h]

@[simp] theorem State.busAct_wf (s0 : State) (i : Iface) (a : Nat) (v : Word) (s : State) (h : memWf s.mem) :
    memWf (s0.busAct i a v s).mem := by
  unfold State.busAct
  split <;> simp [h]

@[simp] theorem State.busWrite_wf (s : State) (i : Iface) (a : Nat) (v : Word) (h : memWf s.mem) :
    memWf (s.busWrite i a v).mem := by
  unfold State.busWrite
  split
  · exact h
  · exact State.writeGate_wf s _ _ _ _ (fun s' hs => State.busAct_wf s i a v s' hs) h

@[simp] theorem State.doorWrite_wf (s : State) (i : Iface) (q off : Nat) (v : Word) (h : memWf s.mem) :
    memWf (s.doorWrite i q off v).mem := by simp [State.doorWrite, h]

@[simp] theorem execRegisterWrite_wf (i : Iface) (p : Place) (width : Nat) (v : Word) (s : State) (h : memWf s.mem) :
    memWf (afterOut (execRegisterWrite i p width v s) s).mem := by
  unfold execRegisterWrite
  (repeat' split) <;> simp [h]

@[simp] theorem State.regAccess_wf (s : State) (b : List Byte) (h : memWf s.mem) : memWf (s.regAccess b).mem := by
  simp [State.regAccess, h]

@[simp] theorem execRegaccessReceived_wf (b : List Byte) (s : State) (h : memWf s.mem) :
    memWf (afterOut (execRegaccessReceived b s) s).mem := by
  rw [execRegaccessReceived, afterOut_out_mem]
  refine State.onMessage_wf s _ _ (fun s hs => ?_) h
  split <;> simp [hs]

@[simp] theorem execOpXst_wf (n gd ga imm : Nat) (s : State) (h : memWf s.mem) :
    memWf (afterOut (execOpXst n gd ga imm s) s).mem := by
  rw [execOpXst, afterOut_out_mem]
  refine State.oarDo_wf s _ _ _ (fun o s hs => ?_) h
  simp only
  split <;> simp [hs]

/-! #### Form kept: Debug -/

@[simp] theorem runImm_wf (n : Nat) (x : OWord) (s : State) (h : memWf s.mem) : memWf (afterOut (runImm n x s) s).mem := by
  unfold runImm
  split <;> simp [h]

@[simp] theorem runSys_wf (n : Nat) (x : OWord) (s : State) (h : memWf s.mem) : memWf (afterOut (runSys n x s) s).mem := by
  unfold runSys
  split <;> simp [h]

@[simp] theorem runWord_wf (n : Nat) (w : Word) (s : State) (h : memWf s.mem) : memWf (afterOut (runWord n w s) s).mem := by
  simp [runWord, h]

@[simp] theorem State.stepOar_wf (s : State) (n : Nat) (h : memWf s.mem) : memWf (s.stepOar n).mem := by simp [State.stepOar, h]

@[simp] theorem execEbfinStep_wf (n : Nat) (s : State) (h : memWf s.mem) : memWf (afterOut (execEbfinStep n s) s).mem := by
  simp [execEbfinStep, h]

/-! ### Every command and every step -/

/-- Every command keeps both memories' canonical form, each by its own lemma. -/
theorem exec_wf (c : Instr) (s : State) (h : memWf s.mem) : memWf (afterOut (exec c s) s).mem := by
  cases c <;> simp [exec, h]

/-- A step is the tick of an idle block or the front command, and both keep the canonical form. -/
theorem step_wf {s t : State} (hs : step s = .next t) (h : memWf s.mem) : memWf t.mem := by
  unfold step at hs
  split at hs
  · cases hs
    simpa using h
  · next c rest _ =>
    have hc := exec_wf c { s with pending := rest } (by simpa using h)
    rwa [hs] at hc

/-- Settles O5: every function of the model either leaves both memories alone or writes them through `putBytes` (`exec_wf`). -/
theorem memoriesStayCanonical : Obligations.MemoriesStayCanonical := by
  intro s t hsram hdram hs
  have h := step_wf hs (by rw [State.mem_eq]; exact ⟨hsram, hdram⟩)
  rwa [State.mem_eq] at h

end Sys2Proof.Machine

/-! ## 01_architecture.md: supply and sensors -/

namespace Sys2Proof.Machine

/-! ### Raising an event on two states that differ elsewhere -/

/-- What raising an event reads: the Ferryman, the Oarsmen, the Manifest and the clock are those of another state. -/
def sameWaits (s t : State) : Prop := t.fry = s.fry ∧ t.oar = s.oar ∧ t.man = s.man ∧ t.clk = s.clk

theorem oarAssert_sameWaits {s t : State} (e n : Nat) (h : sameWaits s t) : sameWaits (oarAssert e s n) (oarAssert e t n) := by
  obtain ⟨hfry, hoar, hman, hclk⟩ := h
  unfold oarAssert
  rw [hman]
  split
  · simp only [State.oarN, hoar]
    split
    · split <;> simp [sameWaits, State.setOar, hfry, hoar, hman, hclk]
    · simp [sameWaits, State.setOar, hfry, hoar, hman, hclk]
  · exact ⟨hfry, hoar, hman, hclk⟩

theorem foldl_sameWaits {α : Type} {f g : State → α → State} (hf : ∀ s t x, sameWaits s t → sameWaits (f s x) (g t x))
    (l : List α) {s t : State} (h : sameWaits s t) : sameWaits (l.foldl f s) (l.foldl g t) := by
  induction l generalizing s t with
  | nil => exact h
  | cons x l ih => exact ih (hf s t x h)

theorem msixOf_sameWaits (e : Nat) (s : State) : sameWaits s (msixOf e s) :=
  have h := msixOf_only e s
  ⟨h .fry (by decide), h .oar (by decide), h .man (by decide), h .clk (by decide)⟩

theorem sameWaits_symm {s t : State} (h : sameWaits s t) : sameWaits t s := ⟨h.1.symm, h.2.1.symm, h.2.2.1.symm, h.2.2.2.symm⟩

theorem sameWaits_trans {s t u : State} (h : sameWaits s t) (k : sameWaits t u) : sameWaits s u :=
  ⟨k.1.trans h.1, k.2.1.trans h.2.1, k.2.2.1.trans h.2.2.1, k.2.2.2.trans h.2.2.2⟩

theorem State.reach_sameWaits {s t : State} (e : Nat) (h : sameWaits s t) : sameWaits (s.reach e) (t.reach e) :=
  foldl_sameWaits (fun _ _ n hs => oarAssert_sameWaits e n hs) _
    (sameWaits_trans (sameWaits_symm (msixOf_sameWaits e s)) (sameWaits_trans h (msixOf_sameWaits e t)))

theorem State.wake_sameWaits {s t : State} (e n : Nat) (h : sameWaits s t) : sameWaits (s.wake e n) (t.wake e n) := by
  obtain ⟨hfry, hoar, hman, hclk⟩ := h
  simp [sameWaits, State.wake, State.joinReady, State.setThr, State.thr, hfry, hoar, hman, hclk]

/-- An assertion does the same to the waits of two states whose waits are the same. -/
theorem State.assertEvt_sameWaits {s t : State} (e : Nat) (h : sameWaits s t) :
    sameWaits (s.assertEvt e).1 (t.assertEvt e).1 ∧ (t.assertEvt e).2 = (s.assertEvt e).2 := by
  have hr := State.reach_sameWaits e h
  obtain ⟨-, hoar, hman, hclk⟩ := hr
  have hw : t.waitersOn e = s.waitersOn e := by simp only [State.waitersOn, h.1]
  rw [State.assertEvt_eq, State.assertEvt_eq, State.waitersOn_reach, State.waitersOn_reach, hw, h.1]
  split
  · split
    · split <;> simp [sameWaits, hoar, hman, hclk, h.1]
    · simp [sameWaits, hoar, hman, hclk]
  · exact ⟨foldl_sameWaits (fun _ _ n hs => State.wake_sameWaits e n hs) _ (State.reach_sameWaits e h), rfl⟩

/-- Raising an event does the same to the Ferryman and the Oarsmen of two states that enable the same events. -/
theorem State.raise_sameWaits {s t : State} (e : Nat) (h : sameWaits s t) (he : t.evtOn e = s.evtOn e)
    (hc : (t.assertEvt e).1.evtOn 388 = (s.assertEvt e).1.evtOn 388) : sameWaits (s.raise e) (t.raise e) := by
  obtain ⟨ha, hb⟩ := State.assertEvt_sameWaits e h
  unfold State.raise
  simp only [he, hb, hc]
  split
  · split
    · exact (State.assertEvt_sameWaits 388 ha).1
    · exact ha
  · exact h

/-- Whether an event is enabled depends on its enable register, and PLC_CONFIG, alone. -/
theorem State.evtOn_congr {s t : State} {e a b : Nat} (he : evtEnable e = some (a, b)) (ha : t.reg a = s.reg a)
    (hp : t.reg plcConfig = s.reg plcConfig) : t.evtOn e = s.evtOn e := by
  have hm : t.get plcConfig_MODE = s.get plcConfig_MODE := State.get_congr hp
  simp only [State.evtOn, he, ha, hm]

theorem State.emit_only (s : State) (x : Output) (ps : List Part) (h : Part.sent ∈ ps) : onlyIn ps s (s.emit x) := onlyIn_sent s _ ps h

theorem State.emit_reg (s : State) (x : Output) (a : Nat) : (s.emit x).reg a = s.reg a := rfl

/-! ### The junction temperature -/

theorem State.seeTemp_only (s : State) (n : Nat) : onlyIn [.regs, .pwr] s (s.seeTemp n) :=
  onlyIn_trans (onlyIn_pwr s _ _ (by decide)) (State.set_only _ _ _ _ (by decide))

theorem State.seeTemp_regs (s : State) (n : Nat) : keepsRegs [pwrTemp] s (s.seeTemp n) :=
  keepsRegs_trans (keepsRegs_of_eq _ rfl) (State.set_regs _ pwrTemp_TJ _)

/-- The reading stands in TJ, the threshold stays, and a shutdown's end is judged (R521). -/
theorem State.seeTemp_spec (s : State) {tj : Nat} (h : tj < 256) : (s.seeTemp tj).get pwrTemp_TJ = tj ∧
    (s.seeTemp tj).get pwrTemp_WARN = s.get pwrTemp_WARN := by
  refine ⟨?_, State.get_set_other _ _ _ _ (by decide) (by decide) (by decide)⟩
  have hm : tj % 256 = tj := Nat.mod_eq_of_lt h
  rw [State.seeTemp, hm, State.get_set _ _ _ (by decide) (by decide)]
  exact hm

/-- A reading changes no event's enable bit and no wait. -/
theorem State.seeTemp_waits (s : State) (n : Nat) :
    (s.seeTemp n).evtOn 7 = s.evtOn 7 ∧ (s.seeTemp n).waitersOn 7 = s.waitersOn 7 :=
  ⟨State.evtOn_congr rfl (s.seeTemp_regs n _ (by decide)) (s.seeTemp_regs n _ (by decide)), rfl⟩

/-- The state with event 7 noted as raised, or armed again (R521). -/
def State.withHot (s : State) (b : Bool) : State := { s with pwr := { s.pwr with hot := b } }

theorem State.withHot_only (s : State) (b : Bool) : onlyIn [.pwr] s (s.withHot b) := onlyIn_pwr s _ _ (by decide)

theorem State.withHot_waits (s : State) (b : Bool) (e : Nat) :
    (s.withHot b).evtOn e = s.evtOn e ∧ (s.withHot b).waitersOn e = s.waitersOn e := ⟨rfl, rfl⟩

theorem State.withHot_get (s : State) (b : Bool) (f : Fld) : (s.withHot b).get f = s.get f := rfl

theorem State.withHot_regs (s : State) (b : Bool) : (s.withHot b).regs = s.regs := rfl

/-- The power block after a reading, whether or not the warning stands. -/
theorem State.seeTemp_pwr (s : State) {tj : Nat} (h : tj < 256) {b : Bool} (hb : s.pwr.hot = b) :
    (s.seeTemp tj).pwr = { s.pwr with hot := b, heat := s.pwr.heat && decide (105 ≤ toSigned 8 tj) } := by
  have hm : tj % 256 = tj := Nat.mod_eq_of_lt h
  simp [State.seeTemp, hm, ← hb]

theorem State.seeTemp_withHot_pwr (s : State) {tj : Nat} (h : tj < 256) {a b : Bool} (hb : a = b) :
    ((s.seeTemp tj).withHot a).pwr = { s.pwr with hot := b, heat := s.pwr.heat && decide (105 ≤ toSigned 8 tj) } := by
  rw [State.withHot, s.seeTemp_pwr h rfl, hb]

/-- TEMPERATURE_WARN below the threshold, or while the warning stands: the reading is shown, no more. -/
theorem exec_temperatureWarn_quiet {s : State} {tj : Nat} (h : tj < 256)
    (hq : toSigned 8 tj < toSigned 8 (s.get pwrTemp_WARN) ∨ s.pwr.hot = true) :
    exec (.temperatureWarn tj) s = s.out (s.seeTemp tj) := by
  have hm : tj % 256 = tj := Nat.mod_eq_of_lt h
  simp only [exec, execTemperatureWarn, hm, if_pos hq]

theorem exec_temperatureWarn_raises {s : State} {tj : Nat} (h : tj < 256)
    (hq : ¬ (toSigned 8 tj < toSigned 8 (s.get pwrTemp_WARN) ∨ s.pwr.hot = true)) :
    exec (.temperatureWarn tj) s = s.out (((s.seeTemp tj).withHot true).raise 7) := by
  have hm : tj % 256 = tj := Nat.mod_eq_of_lt h
  simp only [exec, execTemperatureWarn, hm, if_neg hq, State.withHot]

theorem temperatureWarn_answers (s : State) (tj : Nat) (warn now : Int) (h : tj < 256) (hw : warn = toSigned 8 (s.get pwrTemp_WARN))
    (hn : now = toSigned 8 tj) : answers (.temperatureWarn tj) s fun t =>
      t.get pwrTemp_TJ = tj ∧ t.get pwrTemp_WARN = s.get pwrTemp_WARN ∧
      t.pwr = { s.pwr with hot := s.pwr.hot || decide (warn ≤ now), heat := s.pwr.heat && decide (105 ≤ now) } ∧
      (warn ≤ now → s.pwr.hot = false → s.evtOn 7 = true → s.waitersOn 7 = [] → 7 ∈ t.fry.latches) ∧
      (now < warn ∨ s.pwr.hot = true → t.fry = s.fry) ∧ onlyIn (.pwr :: evtParts) s t ∧ keepsRegs [pwrTemp, fryCnt] s t := by
  obtain ⟨htj, hwarn⟩ := s.seeTemp_spec h
  obtain ⟨hon, hwait⟩ := s.seeTemp_waits tj
  have honly : onlyIn (.pwr :: evtParts) s (s.seeTemp tj) := onlyIn_mono (s.seeTemp_only tj) (by decide)
  have hregs : keepsRegs [pwrTemp, fryCnt] s (s.seeTemp tj) := keepsRegs_mono (s.seeTemp_regs tj) (by decide)
  subst hw hn
  by_cases hq : toSigned 8 tj < toSigned 8 (s.get pwrTemp_WARN) ∨ s.pwr.hot = true
  · have hhot : s.pwr.hot = (s.pwr.hot || decide (toSigned 8 (s.get pwrTemp_WARN) ≤ toSigned 8 tj)) := by
      rcases hq with hq | hq
      · rw [decide_eq_false (Int.not_le.mpr hq), Bool.or_false]
      · rw [hq, Bool.true_or]
    refine answers_of_out (exec_temperatureWarn_quiet h hq) rfl rfl
      ⟨htj, hwarn, s.seeTemp_pwr h hhot, fun h1 h2 => ?_, fun _ => rfl, honly, hregs⟩
    exact absurd hq (not_or.mpr ⟨Int.not_lt.mpr h1, by simp [h2]⟩)
  · obtain ⟨hge, hhot⟩ := not_or.mp hq
    have hon' := ((s.seeTemp tj).withHot_waits true 7).1.trans hon
    have hwait' := ((s.seeTemp tj).withHot_waits true 7).2.trans hwait
    have hpwr := s.seeTemp_withHot_pwr h
      (show true = (s.pwr.hot || decide (toSigned 8 (s.get pwrTemp_WARN) ≤ toSigned 8 tj)) by
        rw [decide_eq_true (Int.not_lt.mp hge), Bool.or_true])
    have honly' := onlyIn_trans honly (onlyIn_mono ((s.seeTemp tj).withHot_only true) (by decide))
    have hregs' := keepsRegs_trans hregs (keepsRegs_of_eq _ ((s.seeTemp tj).withHot_regs true))
    have hget := (s.seeTemp tj).withHot_get true
    have hx := exec_temperatureWarn_raises h hq
    have hpend : ((s.seeTemp tj).withHot true).pending = s.pending := rfl
    have hfuse : ((s.seeTemp tj).withHot true).fuses = s.fuses := rfl
    generalize (s.seeTemp tj).withHot true = u at *
    exact answers_of_out hx ((u.raise_pending 7).trans hpend) ((u.raise_fuses 7).trans hfuse)
      ⟨(State.get_congr (u.raise_reg 7 _ (by decide))).trans ((hget _).trans htj),
        (State.get_congr (u.raise_reg 7 _ (by decide))).trans ((hget _).trans hwarn), (u.raise_pwr 7).trans hpwr,
        fun _ _ h3 h4 => u.raise_latch 7 (hon'.trans h3) (hwait'.trans h4), fun h1 => absurd h1 hq,
        onlyIn_trans honly' (onlyIn_mono (u.raise_only 7) (by decide)),
        keepsRegs_trans hregs' (keepsRegs_mono (u.raise_regs 7) (by decide))⟩

theorem temperatureWarnRearm_answers (s : State) (tj : Nat) (warn now : Int) (h : tj < 256)
    (hw : warn = toSigned 8 (s.get pwrTemp_WARN)) (hn : now = toSigned 8 tj) : answers (.temperatureWarnRearm tj) s fun t =>
      t.get pwrTemp_TJ = tj ∧ t.get pwrTemp_WARN = s.get pwrTemp_WARN ∧
      t.pwr = { s.pwr with hot := s.pwr.hot && decide (warn - 5 < now), heat := s.pwr.heat && decide (105 ≤ now) } ∧
      onlyIn [.regs, .pwr] s t ∧ keepsRegs [pwrTemp] s t := by
  obtain ⟨htj, hwarn⟩ := s.seeTemp_spec h
  have hm : tj % 256 = tj := Nat.mod_eq_of_lt h
  subst hw hn
  by_cases hq : toSigned 8 tj ≤ toSigned 8 (s.get pwrTemp_WARN) - 5
  · have hx : exec (.temperatureWarnRearm tj) s = s.out ((s.seeTemp tj).withHot false) := by
      simp only [exec, execTemperatureWarnRearm, hm, if_pos hq, State.withHot]
    refine answers_of_out hx rfl rfl ⟨htj, hwarn, s.seeTemp_withHot_pwr h ?_,
      onlyIn_trans (s.seeTemp_only tj) (onlyIn_mono (State.withHot_only _ _) (by decide)), s.seeTemp_regs tj⟩
    rw [decide_eq_false (Int.not_lt.mpr hq), Bool.and_false]
  · have hx : exec (.temperatureWarnRearm tj) s = s.out (s.seeTemp tj) := by
      simp only [exec, execTemperatureWarnRearm, hm, if_neg hq]
    refine answers_of_out hx rfl rfl ⟨htj, hwarn, s.seeTemp_pwr h ?_, s.seeTemp_only tj, s.seeTemp_regs tj⟩
    rw [decide_eq_true (Int.not_le.mp hq), Bool.and_true]

/-! ### Adaptive voltage -/

/-- The request after one update: at once upward, down by at most 5 mV (R511). -/
def avsNext (cur want : Nat) : Nat := if cur ≤ want then want else max want (cur - 5)

theorem State.get_lt (s : State) (f : Fld) : s.get f < 2 ^ (f.hi + 1 - f.lo) := Nat.mod_lt _ (Nat.two_pow_pos _)

/-- AVS asks for a voltage only where it differs. -/
theorem State.avsSet_eq (s : State) (want : Nat) : s.avsSet want =
    if avsNext (s.get pwrAvs_VCORE) want = s.get pwrAvs_VCORE then s
    else (s.set pwrAvs_VCORE (avsNext (s.get pwrAvs_VCORE) want)).emit (.avsRequest (avsNext (s.get pwrAvs_VCORE) want)) := rfl

theorem State.avsSet_only (s : State) (want : Nat) : onlyIn [.regs, .sent] s (s.avsSet want) := by
  rw [State.avsSet_eq]
  split
  · exact onlyIn_refl _ s
  · exact onlyIn_trans (State.set_only _ _ _ _ (by decide)) (State.emit_only _ _ _ (by decide))

theorem State.avsSet_regs (s : State) (want : Nat) : keepsRegs [pwrAvs] s (s.avsSet want) := by
  rw [State.avsSet_eq]
  split
  · exact keepsRegs_refl _ s
  · exact State.set_regs s pwrAvs_VCORE _

/-- The request after AVS asks for a voltage that the field holds. -/
theorem State.avsSet_get (s : State) {want : Nat} (h : want < 1024) :
    (s.avsSet want).get pwrAvs_VCORE = avsNext (s.get pwrAvs_VCORE) want := by
  have hlt : avsNext (s.get pwrAvs_VCORE) want < 1024 := by
    have hc : s.get pwrAvs_VCORE < 1024 := s.get_lt pwrAvs_VCORE
    unfold avsNext
    split <;> omega
  rw [State.avsSet_eq]
  split
  · next hv => exact hv.symm
  · refine (State.get_set s pwrAvs_VCORE _ (by decide) (by decide)).trans (Nat.mod_eq_of_lt hlt)

theorem State.setClock_only (s : State) (c : Nat) : onlyIn [.pwr, .sent] s (s.setClock c) := by
  unfold State.setClock
  split
  · exact onlyIn_refl _ s
  · exact onlyIn_trans (onlyIn_pwr s _ _ (by decide)) (State.emit_only _ _ _ (by decide))

theorem State.setClock_pwr (s : State) (c : Nat) : (s.setClock c).pwr = { s.pwr with clock := c } := by
  unfold State.setClock
  split
  · next h => rw [← h]
  · rfl

theorem State.setClock_regs (s : State) (c : Nat) : (s.setClock c).regs = s.regs := s.setClock_only c .regs (by decide)

theorem avsUpdate_idle_answers (s : State) (a b c : Nat) (hw : s.warned = false) (hi : s.pwr.trained = false ∨ s.flag pwrAvs_EN = false) :
    answers (.avsUpdate a b c) s fun t =>
      t.get pwrAvs_VCORE = max 800 (s.get pwrAvs_VCORE - 5) ∧ onlyIn [.regs, .sent] s t ∧ keepsRegs [pwrAvs] s t := by
  have hx : exec (.avsUpdate a b c) s = s.out (s.avsSet 800) := by simp only [exec, execAvsUpdate, hw, if_pos hi, Bool.false_eq_true, if_false]
  refine answers_of_out hx (s.avsSet_only 800 .pending (by decide)) (s.avsSet_only 800 .fuses (by decide))
    ⟨?_, s.avsSet_only 800, s.avsSet_regs 800⟩
  rw [State.avsSet_get _ (by decide), avsNext]
  split <;> omega

/-- The clock and the voltage changed, the voltage first when the clock rises. -/
def State.avsApply (s : State) (fit v : Nat) : State :=
  if s.pwr.clock < fit then (s.avsSet v).setClock fit else (s.setClock fit).avsSet v

theorem State.avsApply_only (s : State) (fit v : Nat) : onlyIn [.regs, .pwr, .sent] s (s.avsApply fit v) := by
  have hv (u : State) : onlyIn [.regs, .pwr, .sent] u (u.avsSet v) := onlyIn_mono (u.avsSet_only v) (by decide)
  have hc (u : State) : onlyIn [.regs, .pwr, .sent] u (u.setClock fit) := onlyIn_mono (u.setClock_only fit) (by decide)
  unfold State.avsApply
  split
  · exact onlyIn_trans (hv _) (hc _)
  · exact onlyIn_trans (hc _) (hv _)

theorem State.avsApply_regs (s : State) (fit v : Nat) : keepsRegs [pwrAvs] s (s.avsApply fit v) := by
  have hc (u : State) : keepsRegs [pwrAvs] u (u.setClock fit) := keepsRegs_of_eq _ (u.setClock_regs fit)
  unfold State.avsApply
  split
  · exact keepsRegs_trans (State.avsSet_regs _ _) (hc _)
  · exact keepsRegs_trans (hc _) (State.avsSet_regs _ _)

/-- The clock in force and the request, whichever of the two changed first. -/
theorem State.avsApply_spec (s : State) (fit : Nat) {v : Nat} (h : v < 1024) : (s.avsApply fit v).pwr.clock = fit ∧
    (s.avsApply fit v).get pwrAvs_VCORE = avsNext (s.get pwrAvs_VCORE) v := by
  have hget (u : State) : (u.setClock fit).get pwrAvs_VCORE = u.get pwrAvs_VCORE :=
    State.get_congr (keepsRegs_of_eq [] (u.setClock_regs fit) _ (by decide))
  unfold State.avsApply
  split
  · exact ⟨by rw [State.setClock_pwr], (hget _).trans (s.avsSet_get h)⟩
  · refine ⟨?_, (State.avsSet_get _ h).trans (by rw [hget])⟩
    rw [State.avsSet_only _ v .pwr (by decide), State.setClock_pwr]

/-- The clamp as an update leaves it, and the needs that it saw. -/
def State.avsSeen (s : State) (fit : Nat) (need : List Nat) : State :=
  { s with pwr := { s.pwr with clamp := if fit = s.profileClock then 3 else fit, need := need } }

/-- The highest clock up to the profile's whose need is at most 800 mV, 400 MHz where none is (R511). -/
def avsFit (top : Nat) (need : Nat → Nat) : Nat := ([2, 1, 0].find? fun k => decide (k ≤ top) && decide (need k ≤ 800)).getD 0

theorem avsFit_range {top : Nat} (h : top ≤ 2) (need : Nat → Nat) :
    ((List.range (top + 1)).reverse.find? fun c => decide (need c ≤ 800)).getD 0 = avsFit top need := by
  unfold avsFit
  obtain rfl | rfl | rfl : top = 0 ∨ top = 1 ∨ top = 2 := by omega
  all_goals simp [List.range_succ, List.find?_cons]

theorem avsFit_le (top : Nat) (need : Nat → Nat) : avsFit top need ≤ top := by
  unfold avsFit
  cases h : [2, 1, 0].find? fun k => decide (k ≤ top) && decide (need k ≤ 800) with
  | none => simp
  | some k =>
    have hk := List.find?_some h
    simp at hk
    simpa using hk.1

/-- CLAMPED shown, event 8 raised where it becomes so. -/
def State.avsClamp (s : State) (c : Bool) : State :=
  (s.set pwrStat_CLAMPED (ofBool c)).raiseIf (c && !s.flag pwrStat_CLAMPED) 8

theorem State.avsClamp_only (s : State) (c : Bool) : onlyIn evtParts s (s.avsClamp c) :=
  onlyIn_trans (State.set_only _ _ _ _ (by decide)) (State.raiseIf_only _ _ _)

theorem State.avsClamp_regs (s : State) (c : Bool) : keepsRegs [pwrStat, fryCnt] s (s.avsClamp c) :=
  keepsRegs_trans (keepsRegs_mono (State.set_regs s pwrStat_CLAMPED _) (by decide))
    (keepsRegs_mono (State.raiseIf_regs _ _ _) (by decide))

/-- CLAMPED is what it is told, and its event is latched where it becomes so and nobody waits. -/
theorem State.avsClamp_spec (s : State) (c : Bool) : (s.avsClamp c).flag pwrStat_CLAMPED = c ∧
    (c = true → s.flag pwrStat_CLAMPED = false → s.evtOn 8 = true → s.waitersOn 8 = [] → 8 ∈ (s.avsClamp c).fry.latches) := by
  have hset : (s.set pwrStat_CLAMPED (ofBool c)).get pwrStat_CLAMPED = ofBool c := State.get_set_bit _ _ _ rfl (by decide)
  have hreg : (s.avsClamp c).reg pwrStat = (s.set pwrStat_CLAMPED (ofBool c)).reg pwrStat :=
    State.raiseIf_regs _ _ _ _ (by decide)
  refine ⟨?_, fun hc hf hon hw => ?_⟩
  · rw [State.flag, State.get_congr (f := pwrStat_CLAMPED) hreg, hset]
    cases c <;> rfl
  · have hon' : (s.set pwrStat_CLAMPED (ofBool c)).evtOn 8 = true :=
      (State.evtOn_congr rfl (State.set_regs s pwrStat_CLAMPED _ _ (by decide)) (State.set_regs s pwrStat_CLAMPED _ _ (by decide))).trans hon
    rw [State.avsClamp, State.raiseIf, if_pos (by rw [hc, hf]; rfl)]
    exact State.raise_latch _ 8 hon' hw

theorem exec_avsUpdate_runs {s : State} {a b c : Nat} (hw : s.warned = false) (ht : s.pwr.trained = true)
    (he : s.flag pwrAvs_EN = true) (need : Nat → Nat) (hn : need = fun k => if k = 0 then a else if k = 1 then b else c)
    (fit : Nat) (hf : fit = avsFit s.profileClock need) :
    exec (.avsUpdate a b c) s =
      s.out (((s.avsSeen fit [a, b, c]).avsClamp (decide (fit < s.profileClock) || decide (800 < need fit))).avsApply fit
        (min 800 (max (avsFloor fit) (need fit)))) := by
  have htop : s.profileClock ≤ 2 := Nat.min_le_left _ _
  have hle : fit ≤ s.profileClock := hf ▸ avsFit_le _ need
  have hne : decide (fit ≠ s.profileClock) = decide (fit < s.profileClock) := decide_eq_decide.mpr (by omega)
  have hfind := (avsFit_range htop need).trans hf.symm
  have hx : ¬ (s.pwr.trained = false ∨ s.flag pwrAvs_EN = false) := by simp [ht, he]
  rw [← hne]
  subst hn
  simp only [exec, execAvsUpdate, hw, Bool.false_eq_true, if_false, if_neg hx, hfind]
  rfl

theorem avsUpdate_runs_answers (s : State) (a b c top fit n v : Nat) (hw : s.warned = false) (ht : s.pwr.trained = true)
    (he : s.flag pwrAvs_EN = true) (htop : top = min 2 (s.get sysProfileStat_ACTIVE))
    (hfit : fit = ([2, 1, 0].find? fun k => decide (k ≤ top) && decide ((if k = 0 then a else if k = 1 then b else c) ≤ 800)).getD 0)
    (hn : n = (if fit = 0 then a else if fit = 1 then b else c))
    (hv : v = min 800 (max (if fit = 0 then 550 else if fit = 1 then 650 else 720) n)) :
    answers (.avsUpdate a b c) s fun t =>
      t.pwr.clock = fit ∧ t.get pwrAvs_VCORE = (if s.get pwrAvs_VCORE ≤ v then v else max v (s.get pwrAvs_VCORE - 5)) ∧
      t.flag pwrStat_CLAMPED = (decide (fit < top) || decide (800 < n)) ∧
      (fit < top ∨ 800 < n → s.flag pwrStat_CLAMPED = false → s.evtOn 8 = true → s.waitersOn 8 = [] → 8 ∈ t.fry.latches) ∧
      onlyIn (.pwr :: evtParts) s t ∧ keepsRegs [pwrAvs, pwrStat, fryCnt] s t := by
  have hx := exec_avsUpdate_runs hw ht he _ rfl fit (hfit.trans (by rw [htop]; rfl))
  simp only [← hn] at hx
  have hv' : v = min 800 (max (avsFloor fit) n) := hv
  rw [← hv', show s.profileClock = top from htop.symm] at hx
  have hv1024 : v < 1024 := by omega
  have hseen : onlyIn [.pwr] s (s.avsSeen fit [a, b, c]) := onlyIn_pwr s _ _ (by decide)
  have hsregs : (s.avsSeen fit [a, b, c]).regs = s.regs := rfl
  have hson : (s.avsSeen fit [a, b, c]).evtOn 8 = s.evtOn 8 := rfl
  have hswait : (s.avsSeen fit [a, b, c]).waitersOn 8 = s.waitersOn 8 := rfl
  have hsflag : (s.avsSeen fit [a, b, c]).flag pwrStat_CLAMPED = s.flag pwrStat_CLAMPED := rfl
  have hsget : (s.avsSeen fit [a, b, c]).get pwrAvs_VCORE = s.get pwrAvs_VCORE := rfl
  generalize s.avsSeen fit [a, b, c] = u at *
  obtain ⟨hflag, hlatch⟩ := u.avsClamp_spec (decide (fit < top) || decide (800 < n))
  have hconly := u.avsClamp_only (decide (fit < top) || decide (800 < n))
  have hcregs := u.avsClamp_regs (decide (fit < top) || decide (800 < n))
  generalize u.avsClamp (decide (fit < top) || decide (800 < n)) = x at *
  have haonly := x.avsApply_only fit v
  have haregs := x.avsApply_regs fit v
  obtain ⟨hclock, hget⟩ := x.avsApply_spec fit hv1024
  have hall : onlyIn (.pwr :: evtParts) s (x.avsApply fit v) :=
    onlyIn_trans (onlyIn_mono hseen (by decide)) (onlyIn_trans (onlyIn_mono hconly (by decide)) (onlyIn_mono haonly (by decide)))
  refine answers_of_out hx (hall .pending (by decide)) (hall .fuses (by decide)) ⟨hclock, ?_, ?_, fun hc hf hon hwait => ?_, hall, ?_⟩
  · rw [hget, State.get_congr (hcregs pwrAvs_VCORE.addr (by decide)), hsget]
    rfl
  · rw [← hflag, State.flag, State.flag, State.get_congr (haregs pwrStat_CLAMPED.addr (by decide))]
  · rw [haonly .fry (by decide)]
    exact hlatch (by simpa using hc) (hsflag.trans hf) (hson.trans hon) (hswait.trans hwait)
  · exact keepsRegs_trans (keepsRegs_of_eq _ hsregs) (keepsRegs_trans (keepsRegs_mono hcregs (by decide)) (keepsRegs_mono haregs (by decide)))

/-! ### VBAT, the supply reading, the always-on domain, the LPDDR5 counters -/

/-- Raising an event does the same to the Ferryman and the Oarsmen after PWR_STAT is written. -/
theorem State.raise_set_pwrStat (s : State) {f : Fld} (h : f.addr = pwrStat) (v : Nat) :
    ((s.set f v).raise 6).fry = (s.raise 6).fry ∧ ((s.set f v).raise 6).oar = (s.raise 6).oar := by
  have hset : keepsRegs [pwrStat] s (s.set f v) := h ▸ State.set_regs s f v
  have hon : (s.set f v).evtOn 6 = s.evtOn 6 := State.evtOn_congr rfl (hset _ (by decide)) (hset _ (by decide))
  have hw : sameWaits s (s.set f v) := ⟨rfl, rfl, rfl, rfl⟩
  have hasserted {a : Nat} (ha : a ≠ fryCnt) (hp : a ≠ pwrStat) :
      ((s.set f v).assertEvt 6).1.reg a = (s.assertEvt 6).1.reg a := by
    rw [State.assertEvt_regs _ 6 a (by simpa using ha), State.assertEvt_regs _ 6 a (by simpa using ha), hset a (by simpa using hp)]
  have hon388 := State.evtOn_congr (e := 388) rfl (hasserted (a := fryEvtEn) (by decide) (by decide))
    (hasserted (a := plcConfig) (by decide) (by decide))
  obtain ⟨hfry, hoar, -, -⟩ := State.raise_sameWaits 6 hw hon hon388
  exact ⟨hfry, hoar⟩

theorem vbatLow_answers (s : State) (h : s.flag pwrStat_VBAT_LOW = false) : answers .vbatLow s fun t =>
    t.get pwrStat_VBAT_LOW = 1 ∧ t.fry = (s.raise 6).fry ∧ t.oar = (s.raise 6).oar ∧ onlyIn evtParts s t ∧
    keepsRegs [pwrStat, fryCnt] s t := by
  have hx : exec .vbatLow s = s.out ((s.set pwrStat_VBAT_LOW 1).raise 6) := by
    simp only [exec, execVbatLow, h, Bool.false_eq_true, if_false]
  obtain ⟨hfry, hoar⟩ := s.raise_set_pwrStat (f := pwrStat_VBAT_LOW) rfl 1
  refine answers_of_out hx (State.raise_pending _ 6) (State.raise_fuses _ 6)
    ⟨?_, hfry, hoar, onlyIn_trans (State.set_only _ _ _ _ (by decide)) (State.raise_only _ 6), ?_⟩
  · exact (State.get_congr (State.raise_reg _ 6 _ (by decide))).trans (State.get_set _ _ _ (by decide) (by decide))
  · exact keepsRegs_trans (keepsRegs_mono (State.set_regs s pwrStat_VBAT_LOW 1) (by decide))
      (keepsRegs_mono (State.raise_regs _ 6) (by decide))

theorem vbatLow_again (s : State) (h : s.flag pwrStat_VBAT_LOW = true) : answers .vbatLow s fun t => t = s := by
  have hx : exec .vbatLow s = s.out s := by simp only [exec, execVbatLow, h, if_true]
  exact answers_of_out hx rfl rfl rfl

/-- The bits of a word that lie in neither of the fields of PWR_VIN. -/
theorem vinMask_bit : ∀ k, k < 32 → ¬ (16 ≤ k ∧ k ≤ 26) → ¬ (0 ≤ k ∧ k ≤ 10) → (0xF800F800#32).getLsbD k = true := by decide

/-- PWR_VIN's word from its two fields, where nothing else is set in it. -/
theorem vinWord (w : Word) {now least : Nat} (hw : w &&& 0xF800F800#32 = 0) (hn : now < 2048) (hl : least < 2048) :
    putBits (putBits w 10 0 now) 26 16 least = BitVec.ofNat 32 (least * 65536 + now) := by
  apply BitVec.eq_of_getLsbD_eq
  intro k hk
  have hsum : (least * 65536 + now).testBit k = if k < 16 then now.testBit k else least.testBit (k - 16) := by
    rw [Nat.mul_comm]
    exact Nat.testBit_two_pow_mul_add least (show now < 2 ^ 16 by omega) k
  rw [putBits_bit _ _ _ _ _ (by decide) (by decide), putBits_bit _ _ _ _ _ (by decide) (by decide), BitVec.getLsbD_ofNat, hsum,
    decide_eq_true hk, Bool.true_and]
  have hzero {x j : Nat} (hx : x < 2048) (hj : 11 ≤ j) : x.testBit j = false :=
    Nat.testBit_lt_two_pow (hx.trans_le (show 2 ^ 11 ≤ 2 ^ j from Nat.pow_le_pow_right Nat.two_pos hj))
  by_cases h1 : 16 ≤ k ∧ k ≤ 26
  · rw [if_pos h1, if_neg (by omega)]
  · by_cases h2 : 0 ≤ k ∧ k ≤ 10
    · rw [if_neg h1, if_pos h2, if_pos (by omega), Nat.sub_zero]
    · have hbit : w.getLsbD k = false := by
        have hb := congrArg (BitVec.getLsbD · k) hw
        simpa [BitVec.getLsbD_and, vinMask_bit k hk h1 h2] using hb
      rw [if_neg h1, if_neg h2, hbit]
      split
      · exact (hzero hn (by omega)).symm
      · exact (hzero hl (by omega)).symm

theorem vinMinRead_answers (s : State) (i : Iface) (now least : Nat) (hm : s.mayAccess i pwrVin false = true)
    (hw : s.reg pwrVin &&& 0xF800F800#32 = 0) (hn : now < 2048) (hl : least < 2048) : answers (.vinMinRead i now least) s fun t =>
      t.sent.head? = some (.readValue i (BitVec.ofNat 32 (least * 65536 + now))) ∧ t.get pwrVin_NOW = now ∧ t.get pwrVin_MIN = now ∧
      onlyIn [.regs, .sent] s t ∧ keepsRegs [pwrVin] s t := by
  have hnow : min now pwrVin_NOW.top = now := Nat.min_eq_left (by simp only [Fld.top, pwrVin_NOW]; omega)
  have hmin {x : Nat} (hx : x < 2048) : min x pwrVin_MIN.top = x := Nat.min_eq_left (by simp only [Fld.top, pwrVin_MIN]; omega)
  have hread : s.vinRead now least = (((s.set pwrVin_NOW now).set pwrVin_MIN least).reg pwrVin,
      ((s.set pwrVin_NOW now).set pwrVin_MIN least).set pwrVin_MIN now) := by
    simp only [State.vinRead, State.setSat, hnow, hmin hn, hmin hl]
  have hword : ((s.set pwrVin_NOW now).set pwrVin_MIN least).reg pwrVin = BitVec.ofNat 32 (least * 65536 + now) :=
    (by simp [State.reg_set, pwrVin_MIN, pwrVin_NOW] : _ = putBits (putBits (s.reg pwrVin) 10 0 now) 26 16 least).trans (vinWord _ hw hn hl)
  have hx : exec (.vinMinRead i now least) s =
      s.out ((((s.set pwrVin_NOW now).set pwrVin_MIN least).set pwrVin_MIN now).emit
        (.readValue i (BitVec.ofNat 32 (least * 65536 + now)))) := by
    simp only [exec, execVinMinRead, State.readGate, hm, if_true, hread, hword]
  have hother (u : State) (x : Nat) : (u.set pwrVin_MIN x).get pwrVin_NOW = u.get pwrVin_NOW :=
    State.get_set_other _ _ _ _ (by decide) (by decide) (by decide)
  have hgetnow (u : State) : (u.set pwrVin_NOW now).get pwrVin_NOW = now :=
    (State.get_set _ _ _ (by decide) (by decide)).trans (Nat.mod_eq_of_lt hn)
  have hgetmin (u : State) : (u.set pwrVin_MIN now).get pwrVin_MIN = now :=
    (State.get_set _ _ _ (by decide) (by decide)).trans (Nat.mod_eq_of_lt hn)
  refine answers_of_out hx rfl rfl ⟨rfl, ((hother _ _).trans (hother _ _)).trans (hgetnow s), hgetmin _, ?_, ?_⟩
  · exact onlyIn_trans (State.set_only _ _ _ _ (by decide)) (onlyIn_trans (State.set_only _ _ _ _ (by decide))
      (onlyIn_trans (State.set_only _ _ _ _ (by decide)) (State.emit_only _ _ _ (by decide))))
  · exact keepsRegs_trans (State.set_regs s pwrVin_NOW now) (keepsRegs_trans (State.set_regs _ pwrVin_MIN least)
      (State.set_regs _ pwrVin_MIN now))

theorem alwaysOnInvalid_answers (s : State) : answers .alwaysOnInvalid s fun t =>
    t.aon = {} ∧ t.xing = { s.xing with rtcValid := false } ∧ onlyIn [.aon, .xing] s t :=
  answers_of_out (u := { s with aon := {}, xing := { s.xing with rtcValid := false } }) rfl rfl rfl
    ⟨rfl, rfl, onlyIn_trans (onlyIn_aon s {} [.aon, .xing] (by decide))
      (onlyIn_xing ({ s with aon := {} } : State) { s.xing with rtcValid := false } [.aon, .xing] (by decide))⟩

/-- SYS_DRAM_ECC has one copy for every interface. -/
theorem regKey_sysDramEcc (i : Iface) : regKey i sysDramEcc = sysDramEcc := regKey_plain i _ (by decide) (by decide)

/-- SYS_DRAM_ECC is neither MFT_RESCUE_WIN nor OAR_CTRL of a sealed Oarsman. -/
theorem sysDramEcc_place : sysDramEcc ≠ mftRescueWin ∧ sysDramEcc ≠ oarCtrl 12 ∧ sysDramEcc ≠ oarCtrl 13 := by decide

/-- No field of SYS_DRAM_ECC is an SL field. -/
theorem sysDramEcc_fields : ∀ d ∈ regDesc? sysDramEcc, ∀ f ∈ d.fields, f.acc ≠ .sl := by decide +kernel

/-- A write of SYS_DRAM_ECC stores in that register alone. -/
theorem State.storeWord_dramEcc (s : State) (i : Iface) (v : Word) : ∃ w, s.storeWord i sysDramEcc v = s.setReg sysDramEcc w := by
  obtain ⟨d, hd⟩ : ∃ d, regDesc? sysDramEcc = some d := Option.isSome_iff_exists.mp (by decide +kernel)
  refine ⟨_, State.storeWord_stored hd (regKey_sysDramEcc i) (.inr (slAttempt_false (fun f hf => ?_) _ _))⟩
  simp [actsAsSl, sysDramEcc_fields d hd f hf, sysDramEcc_place]

theorem dramEccClear_answers (s : State) (i : Iface) (hm : s.mayAccess i sysDramEcc true = true) : answers (.dramEccClear i) s fun t =>
    t.get sysDramEcc_UNCORR = 0 ∧ t.get sysDramEcc_CORR = 0 ∧ onlyIn [.regs] s t ∧ keepsRegs [sysDramEcc] s t := by
  obtain ⟨w, hw⟩ := s.storeWord_dramEcc i 0x80000000
  have hx : exec (.dramEccClear i) s =
      s.out (((s.setReg sysDramEcc w).set sysDramEcc_UNCORR 0).set sysDramEcc_CORR 0) := by
    simp only [exec, execDramEccClear, State.writeGate_granted _ _ _ _ _ hm, hw, State.clrDramEcc,
      show wordBits 0x80000000 sysDramEcc_CLR = 1 from rfl, if_true]
  refine answers_of_out hx rfl rfl ⟨?_, State.get_set _ _ _ (by decide) (by decide), ?_, ?_⟩
  · exact (State.get_set_other _ sysDramEcc_CORR sysDramEcc_UNCORR _ (by decide) (by decide) (by decide)).trans
      (State.get_set _ _ _ (by decide) (by decide))
  · exact onlyIn_trans (State.setReg_only _ _ _ _ (by decide)) (onlyIn_trans (State.set_only _ _ _ _ (by decide))
      (State.set_only _ _ _ _ (by decide)))
  · exact keepsRegs_trans (State.setReg_regs s _ w) (keepsRegs_trans (State.set_regs _ sysDramEcc_UNCORR 0)
      (State.set_regs _ sysDramEcc_CORR 0))

/-- Settles O59, command by command. -/
theorem supplyAndSensorsAreFollowed : Obligations.SupplyAndSensorsAreFollowed :=
  ⟨fun s tj warn now h hw hn => ⟨temperatureWarn_answers s tj warn now h hw hn, temperatureWarnRearm_answers s tj warn now h hw hn⟩,
    avsUpdate_idle_answers, avsUpdate_runs_answers, vbatLow_answers, vbatLow_again, vinMinRead_answers, alwaysOnInvalid_answers,
    dramEccClear_answers⟩

end Sys2Proof.Machine

/-! ## 01_architecture.md: profiles -/

namespace Sys2Proof.Machine

/-! ### The request -/

/-- SYS_PROFILE_CTRL is one plain field, with one copy for every interface. -/
theorem sysProfileCtrl_desc : ∃ d f, regDesc? sysProfileCtrl = some d ∧ d.fields = [f] ∧ f.hi = 1 ∧ f.lo = 0 ∧ f.acc = .rw := by
  refine ⟨_, _, rfl, rfl, ?_, ?_, ?_⟩ <;> decide

theorem sysProfileCtrl_place : ownByIface sysProfileCtrl = false ∧ windowed sysProfileCtrl = none ∧ sysProfileCtrl ≠ oarCtrl 12 ∧
    sysProfileCtrl ≠ oarCtrl 13 := by decide

/-- A write of SYS_PROFILE_CTRL stores REQUEST in that register alone. -/
theorem State.storeWord_profileCtrl (s : State) (i : Iface) (v : Word) : s.storeWord i sysProfileCtrl v =
    s.set sysProfileCtrl_REQUEST (wordBits v sysProfileCtrl_REQUEST) := by
  obtain ⟨d, f, hd, hf, hhi, hlo, hacc⟩ := sysProfileCtrl_desc
  obtain ⟨hown, hwin, h12, h13⟩ := sysProfileCtrl_place
  have hsl : actsAsSl i sysProfileCtrl f = false := by simp [actsAsSl, hacc, h12, h13]
  rw [State.storeWord_stored hd (regKey_plain i _ hown hwin) (.inr (slAttempt_false (by simpa [hf] using hsl) _ _))]
  simp only [writeFields, hf, hsl, List.foldl_cons, List.foldl_nil, fieldNew, hacc, hhi, hlo]
  rfl

theorem exec_profileRequest {s : State} {i : Iface} (v : Word) (hm : s.mayAccess i sysProfileCtrl true = true) :
    exec (.profileRequest i v) s =
      s.out ((s.set sysProfileCtrl_REQUEST (wordBits v sysProfileCtrl_REQUEST)).profileWrite i (s.reg sysProfileCtrl) v) := by
  rw [← State.storeWord_profileCtrl s i v]
  exact congrArg s.out (State.writeGate_granted _ _ _ _ _ hm)

/-- REQUEST put back, REJECT set: PENDING and TARGET are as they were (R39). -/
theorem State.rejected_get (s : State) (r : Nat) :
    let t := ((s.set sysProfileCtrl_REQUEST r).set sysProfileCtrl_REQUEST (s.get sysProfileCtrl_REQUEST)).set sysProfileStat_REJECT 1
    t.get sysProfileStat_REJECT = 1 ∧ t.get sysProfileCtrl_REQUEST = s.get sysProfileCtrl_REQUEST ∧
    t.get sysProfileStat_PENDING = s.get sysProfileStat_PENDING ∧ t.get sysProfileStat_TARGET = s.get sysProfileStat_TARGET := by
  have hstat (u : State) (x : Nat) {g : Fld} (h : g.addr ≠ sysProfileCtrl) : (u.set sysProfileCtrl_REQUEST x).get g = u.get g :=
    State.get_set_other _ _ _ _ (by decide) (by decide) (.inl h)
  have hrej (u : State) {g : Fld} (h : g.addr ≠ sysProfileStat ∨ g.hi < 8 ∨ 8 < g.lo) : (u.set sysProfileStat_REJECT 1).get g = u.get g :=
    State.get_set_other _ _ _ _ (by decide) (by decide) h
  refine ⟨State.get_set _ _ _ (by decide) (by decide), ?_, ?_, ?_⟩
  · rw [hrej _ (by decide), State.get_set _ _ _ (by decide) (by decide)]
    exact Nat.mod_eq_of_lt (s.get_lt sysProfileCtrl_REQUEST)
  · rw [hrej _ (by decide), hstat _ _ (by decide), hstat _ _ (by decide)]
  · rw [hrej _ (by decide), hstat _ _ (by decide), hstat _ _ (by decide)]

/-- A stored request with the PENDING bit that it gets, TARGET the profile asked for (R39). -/
theorem State.requested_get (s : State) {r p : Nat} (hr : r < 4) (hp : p < 2) :
    let t := ((s.set sysProfileCtrl_REQUEST r).set sysProfileStat_PENDING p).set sysProfileStat_TARGET r
    t.get sysProfileCtrl_REQUEST = r ∧ t.get sysProfileStat_TARGET = r ∧ t.get sysProfileStat_PENDING = p := by
  have htarget (u : State) {g : Fld} (h : g.addr ≠ sysProfileStat ∨ g.hi < 2 ∨ 3 < g.lo) :
      (u.set sysProfileStat_TARGET r).get g = u.get g := State.get_set_other _ _ _ _ (by decide) (by decide) h
  refine ⟨?_, (State.get_set _ _ _ (by decide) (by decide)).trans (Nat.mod_eq_of_lt hr), ?_⟩
  · rw [htarget _ (by decide), State.get_set_other _ _ _ _ (by decide) (by decide) (.inl (by decide)),
      State.get_set _ _ _ (by decide) (by decide)]
    exact Nat.mod_eq_of_lt hr
  · rw [htarget _ (by decide), State.get_set _ _ _ (by decide) (by decide)]
    exact Nat.mod_eq_of_lt hp

theorem profileRequest_answers (s : State) (i : Iface) (v : Word) (hm : s.mayAccess i sysProfileCtrl true = true) :
    answers (.profileRequest i v) s fun t =>
      (wordBits v sysProfileCtrl_REQUEST ∉ s.man.profiles →
        t.get sysProfileStat_REJECT = 1 ∧ t.get sysProfileCtrl_REQUEST = s.get sysProfileCtrl_REQUEST ∧
        t.get sysProfileStat_PENDING = s.get sysProfileStat_PENDING ∧ t.get sysProfileStat_TARGET = s.get sysProfileStat_TARGET) ∧
      (wordBits v sysProfileCtrl_REQUEST ∈ s.man.profiles →
        t.get sysProfileCtrl_REQUEST = wordBits v sysProfileCtrl_REQUEST ∧
        t.get sysProfileStat_TARGET = wordBits v sysProfileCtrl_REQUEST ∧
        t.get sysProfileStat_PENDING =
          if wordBits v sysProfileCtrl_REQUEST = s.get sysProfileStat_ACTIVE then 0 else 1) := by
  have hx := exec_profileRequest v hm
  have hr : wordBits v sysProfileCtrl_REQUEST < 4 := Nat.mod_lt _ (by decide)
  generalize hq : wordBits v sysProfileCtrl_REQUEST = r at *
  by_cases hp : r ∈ s.man.profiles
  · have hactive : (s.set sysProfileCtrl_REQUEST r).get sysProfileStat_ACTIVE = s.get sysProfileStat_ACTIVE :=
      State.get_set_other _ _ _ _ (by decide) (by decide) (.inl (by decide))
    have hw : (s.set sysProfileCtrl_REQUEST r).profileWrite i (s.reg sysProfileCtrl) v =
        ((s.set sysProfileCtrl_REQUEST r).set sysProfileStat_PENDING (if r = s.get sysProfileStat_ACTIVE then 0 else 1)).set
          sysProfileStat_TARGET r := by
      simp only [State.profileWrite, hq, State.set_man, hp, not_true_eq_false, if_false, hactive]
      split <;> rfl
    rw [hw] at hx
    exact answers_of_out hx rfl rfl ⟨absurd hp, fun _ => s.requested_get hr (by split <;> decide)⟩
  · have hw : (s.set sysProfileCtrl_REQUEST r).profileWrite i (s.reg sysProfileCtrl) v =
        (((s.set sysProfileCtrl_REQUEST r).set sysProfileCtrl_REQUEST (s.get sysProfileCtrl_REQUEST)).set
          sysProfileStat_REJECT 1).logRefused i sysProfileCtrl v := by
      simp only [State.profileWrite, hq, State.set_man, hp, not_false_eq_true, if_true]
      rfl
    have hget := s.rejected_get r
    rw [hw] at hx
    generalize hu : ((s.set sysProfileCtrl_REQUEST r).set sysProfileCtrl_REQUEST (s.get sysProfileCtrl_REQUEST)).set
      sysProfileStat_REJECT 1 = u at *
    have hlog {f : Fld} (h : f.addr ∉ logRegs) : (u.logRefused i sysProfileCtrl v).get f = u.get f :=
      State.get_congr (u.logRefused_regs i sysProfileCtrl v _ h)
    have hpend := u.logRefused_only i sysProfileCtrl v .pending (by decide)
    have hfuse := u.logRefused_only i sysProfileCtrl v .fuses (by decide)
    refine answers_of_out hx (hpend.trans (by rw [← hu]; rfl)) (hfuse.trans (by rw [← hu]; rfl)) ⟨fun _ => ?_, fun h => absurd h hp⟩
    rwa [hlog (by decide), hlog (by decide), hlog (by decide), hlog (by decide)]

/-! ### The change -/

theorem State.core_setCore (s : State) (n m : Nat) (c : CoreSt) : (s.setCore n c).core m = if m = n then c else s.core m := by
  simp [State.core, State.setCore]

/-- A thread that goes back to its ready list. -/
def State.sendBack (s : State) (t : Option Nat) : State :=
  match t with
  | some k => (s.setThr k { s.thr k with st := .ready }).joinReady k false
  | none => s

theorem State.sendBack_core (s : State) (t : Option Nat) (m : Nat) : (s.sendBack t).core m = s.core m := by cases t <;> rfl

theorem State.sendBack_only (s : State) (t : Option Nat) : onlyIn [.fry] s (s.sendBack t) := by
  cases t
  · exact onlyIn_refl _ s
  · exact onlyIn_fry s _ _ (by decide)

theorem State.parkCore_eq (s : State) (n : Nat) : s.parkCore n true =
    ((s.sendBack (s.core n).running).sendBack (s.core n).slot).setCore n
      { ((s.sendBack (s.core n).running).sendBack (s.core n).slot).core n with
        running := none, slot := none, loaded := false, parked := true } := by
  simp only [State.parkCore, State.sendBack, if_true] <;> rfl

/-- A core parked or unparked is so, the others stay as they are. -/
theorem State.parkCore_parked (s : State) (n m : Nat) (park : Bool) :
    ((s.parkCore n park).core m).parked = if m = n then park else (s.core m).parked := by
  cases park
  · rw [show s.parkCore n false = s.setCore n { s.core n with parked := false } from rfl, State.core_setCore]
    split <;> rfl
  · rw [State.parkCore_eq, State.core_setCore]
    split
    · rfl
    · rw [State.sendBack_core, State.sendBack_core]

theorem State.parkCore_only (s : State) (n : Nat) (park : Bool) : onlyIn [.fry] s (s.parkCore n park) := by
  cases park
  · exact onlyIn_fry s _ _ (by decide)
  · rw [State.parkCore_eq]
    exact onlyIn_trans (s.sendBack_only _) (onlyIn_trans (State.sendBack_only _ _) (onlyIn_fry _ _ _ (by decide)))

/-- The cores as a profile of `k` cores parks them. -/
def State.parkFrom (s : State) (k : Nat) (l : List Nat) : State :=
  l.foldl (fun (st : State) n => if (st.core n).parked = decide (k ≤ n) then st else st.parkCore n (decide (k ≤ n))) s

theorem State.parkFrom_parked (s : State) (k m : Nat) (l : List Nat) :
    ((s.parkFrom k l).core m).parked = if m ∈ l then decide (k ≤ m) else (s.core m).parked := by
  unfold State.parkFrom
  induction l generalizing s with
  | nil => simp
  | cons n l ih =>
    rw [List.foldl_cons, ih]
    by_cases hm : m ∈ l
    · simp [hm]
    · by_cases hn : m = n
      · subst hn
        by_cases hp : (s.core m).parked = decide (k ≤ m) <;> simp [hm, hp, State.parkCore_parked]
      · by_cases hp : (s.core n).parked = decide (k ≤ n) <;> simp [hm, hn, hp, State.parkCore_parked]

theorem State.parkFrom_only (s : State) (k : Nat) (l : List Nat) : onlyIn [.fry] s (s.parkFrom k l) :=
  onlyIn_foldl _ (fun st n => by
    split
    · exact onlyIn_refl _ st
    · exact st.parkCore_only n _) l s

theorem State.fillEngines_only (n : Nat) (s : State) : onlyIn [.pwr] s (State.fillEngines n s) := by
  induction n generalizing s with
  | zero => exact onlyIn_refl _ s
  | succ n ih =>
    unfold State.fillEngines
    split
    · exact onlyIn_refl _ s
    · split
      · exact onlyIn_trans (onlyIn_pwr s _ _ (by decide)) (ih _)
      · exact onlyIn_refl _ s

theorem State.parkEngines_only (s : State) (p : Nat) : onlyIn [.pwr] s (s.parkEngines p) :=
  onlyIn_trans (onlyIn_pwr s _ _ (by decide)) (State.fillEngines_only 4 _)

theorem State.changeClock_only (s : State) (c : Nat) : onlyIn [.regs, .pwr, .sent] s (s.changeClock c) := by
  have hv (u : State) (w : Nat) : onlyIn [.regs, .pwr, .sent] u (u.avsSet w) := onlyIn_mono (u.avsSet_only w) (by decide)
  have hc (u : State) (w : Nat) : onlyIn [.regs, .pwr, .sent] u (u.setClock w) := onlyIn_mono (u.setClock_only w) (by decide)
  unfold State.changeClock
  simp only
  split
  · exact onlyIn_trans (hv _ _) (hc _ _)
  · exact onlyIn_trans (hc _ _) (hv _ _)

/-- The cores are none of an event's business. -/
theorem State.assertEvt_cores (s : State) (e : Nat) : (s.assertEvt e).1.fry.cores = s.fry.cores := by
  have hwake : ∀ (l : List Nat) (st : State), (l.foldl (fun st t => st.wake e t) st).fry.cores = st.fry.cores :=
    fun l st => foldl_keeps (f := fun st t => st.wake e t) (fun s : State => s.fry.cores) (fun _ _ => rfl) l st
  rw [State.assertEvt_eq]
  split
  · split
    · split
      · rw [State.bump_fry, State.reach_fry]
      · rfl
    · rfl
  · rw [hwake, State.reach_fry]

theorem State.raise_core (s : State) (e m : Nat) : (s.raise e).core m = s.core m := by
  have hc : (s.raise e).fry.cores = s.fry.cores := by
    unfold State.raise
    split
    · simp only
      split
      · rw [State.assertEvt_cores, State.assertEvt_cores]
      · exact s.assertEvt_cores e
    · rfl
  simp only [State.core, hc]

/-- The voltage, the clock, the engines and the cores of a profile (R37 steps 1 to 3). -/
def State.poweredFor (s : State) (p : Nat) : State :=
  ((s.changeClock (min 2 p)).parkEngines p).parkFrom (profileCores p) (List.range 8)

theorem State.poweredFor_only (s : State) (p : Nat) : onlyIn [.regs, .pwr, .sent, .fry] s (s.poweredFor p) :=
  onlyIn_trans (onlyIn_mono (s.changeClock_only _) (by decide))
    (onlyIn_trans (onlyIn_mono (State.parkEngines_only _ p) (by decide)) (onlyIn_mono (State.parkFrom_only _ _ _) (by decide)))

/-- A profile in force: shown in SYS_PROFILE_STAT, with the crossing number of the boundary (R36, R37). -/
def State.profileShown (s : State) (p : Nat) : State :=
  let s2 := ((s.set sysProfileStat_PENDING 0).set sysProfileStat_TARGET p).set sysProfileStat_ACTIVE p
  s2.setReg sysProfileSwxing (BitVec.ofNat 32 s2.xing.num)

theorem State.profileShown_spec (s : State) {p : Nat} (hp : p < 4) : (s.profileShown p).get sysProfileStat_ACTIVE = p ∧
    (s.profileShown p).get sysProfileStat_PENDING = 0 ∧ (s.profileShown p).reg sysProfileSwxing = BitVec.ofNat 32 s.xing.num := by
  have hsw (u : State) (w : Word) {g : Fld} (h : g.addr ≠ sysProfileSwxing) : (u.setReg sysProfileSwxing w).get g = u.get g :=
    (State.get_setReg _ _ _ _).trans (if_neg h)
  refine ⟨?_, ?_, ?_⟩
  · exact (hsw _ _ (by decide)).trans ((State.get_set _ _ _ (by decide) (by decide)).trans (Nat.mod_eq_of_lt hp))
  · exact (hsw _ _ (by decide)).trans ((State.get_set_other _ _ _ _ (by decide) (by decide) (by decide)).trans
      ((State.get_set_other _ _ _ _ (by decide) (by decide) (by decide)).trans (State.get_set _ _ _ (by decide) (by decide))))
  · exact (State.reg_setReg _ _ _ _).trans (if_pos rfl)

theorem State.applyProfile_eq (s : State) (p : Nat) : s.applyProfile p = ((s.poweredFor p).profileShown p).raise 2 := by
  simp only [State.applyProfile, State.profileShown, State.poweredFor, State.parkFrom]

theorem profileChange_answers (s : State) (hn : s.xing.num % 32 = 0) (hp : s.get sysProfileStat_PENDING = 1) (hw : s.warned = false) :
    answers .profileChange s fun t =>
      t.get sysProfileStat_ACTIVE = s.get sysProfileStat_TARGET ∧ t.get sysProfileStat_PENDING = 0 ∧
      t.reg sysProfileSwxing = BitVec.ofNat 32 s.xing.num ∧
      ∀ n ∈ List.range 8, (t.core n).parked = decide (profileCores (s.get sysProfileStat_TARGET) ≤ n) := by
  have hlt : s.get sysProfileStat_TARGET < 4 := s.get_lt sysProfileStat_TARGET
  have hflag : s.flag sysProfileStat_PENDING = true := by rw [State.flag, hp]; rfl
  have hx : exec .profileChange s = s.out (s.applyProfile (s.get sysProfileStat_TARGET)) :=
    congrArg s.out (if_pos ⟨hn, hflag, hw⟩)
  generalize s.get sysProfileStat_TARGET = p at *
  rw [State.applyProfile_eq] at hx
  have hcore : ∀ n ∈ List.range 8, ((s.poweredFor p).core n).parked = decide (profileCores p ≤ n) := fun n h =>
    (State.parkFrom_parked _ _ _ _).trans (if_pos h)
  have honly := s.poweredFor_only p
  have hxing : (s.poweredFor p).xing = s.xing := honly .xing (by decide)
  have hpend : (s.poweredFor p).pending = s.pending := honly .pending (by decide)
  have hfuse : (s.poweredFor p).fuses = s.fuses := honly .fuses (by decide)
  generalize s.poweredFor p = u at *
  obtain ⟨hactive, hpending, hswxing⟩ := u.profileShown_spec hlt
  have hshown : ∀ n, (u.profileShown p).core n = u.core n := fun _ => rfl
  have hpend' : (u.profileShown p).pending = u.pending := rfl
  have hfuse' : (u.profileShown p).fuses = u.fuses := rfl
  generalize u.profileShown p = x at *
  have hraise {f : Fld} (h : f.addr ≠ fryCnt) : (x.raise 2).get f = x.get f := State.get_congr (x.raise_reg 2 _ h)
  exact answers_of_out hx ((x.raise_pending 2).trans (hpend'.trans hpend)) ((x.raise_fuses 2).trans (hfuse'.trans hfuse))
    ⟨(hraise (by decide)).trans hactive, (hraise (by decide)).trans hpending,
      (x.raise_reg 2 _ (by decide)).trans (hswxing.trans (by rw [hxing])),
      fun n h => by rw [State.raise_core, hshown, hcore n h]⟩

/-- Settles O8. -/
theorem profileRequestAndChange : Obligations.ProfileRequestAndChange := ⟨profileRequest_answers, profileChange_answers⟩

end Sys2Proof.Machine

/-! ## 01_architecture.md: a refused reset write

### The counterexample to O56

KEY and RESET of PWR_RESET act on write alone, so that every write stores 0 in them (R15). A state may list other bits there: the
statement ranges over every state. A write without the key then changes PWR_RESET, which the statement holds fixed. -/

namespace Sys2Proof.Machine

/-- A mounted device, out of reset (CAUSE 4), whose core 0 may write PWR_RESET and whose KEY field holds 1. -/
def strayKey : State :=
  { regs := [(pwrReset, 0x01000004#32)], pwr := { mounted := true }
    man := { priv := [(0, { regs := [{ lo := pwrReset, hi := pwrReset, write := true }] })] } }

/-- No warning stands, the device is out of reset, and core 0 may write PWR_RESET. -/
theorem strayKey_facts : strayKey.mayAccess (.core 0) pwrReset true = true ∧ strayKey.warned = false ∧
    strayKey.get pwrReset_CAUSE ≠ 0 ∧ strayKey.pwr.mounted = true := by decide

/-- A write of 0 stores 0 in KEY. -/
theorem strayKey_storeWord : (strayKey.storeWord (.core 0) pwrReset 0).reg pwrReset = 4#32 := by decide +kernel

/-- A write of PWR_RESET without the key is logged, over what the write has stored (R520). -/
theorem exec_softwareReset_unkeyed {s : State} {i : Iface} (vin : Nat) (hm : s.mayAccess i pwrReset true = true) :
    exec (.softwareReset i 0 vin) s = s.out ((s.storeWord i pwrReset 0).logRefused i pwrReset 0) :=
  congrArg s.out (State.writeGate_granted s i pwrReset 0 _ hm)

/-- Refutes O56, its third clause: a write of PWR_RESET without the key clears a KEY field that holds 1. -/
theorem not_warningsRideThroughsAndResets : ¬ Obligations.WarningsRideThroughsAndResets := by
  rintro ⟨-, -, hwrite, -⟩
  obtain ⟨hmay, hwarn, hcause, hmount⟩ := strayKey_facts
  obtain ⟨t, ht, hkept⟩ := hwrite strayKey (.core 0) 0 0 hmay hwarn hcause hmount
  rw [if_neg (by decide)] at hkept
  have hafter : t.reg pwrReset = 4#32 := by
    rw [exec_softwareReset_unkeyed 0 hmay, State.out_eq] at ht
    obtain rfl := (Host.Outcome.next.inj ht).symm
    exact (State.logRefused_regs _ (.core 0) pwrReset 0 pwrReset (by decide)).trans strayKey_storeWord
  have hbefore : t.reg pwrReset = 0x01000004#32 := hkept.2 pwrReset (by decide)
  rw [hafter] at hbefore
  exact absurd hbefore (by decide)

end Sys2Proof.Machine

/-! ## 01_architecture.md: a class-0 message for a cell whose chip is listed twice -/

namespace Sys2Proof.Machine

/-! ### Leaving the lane -/

/-- What is done to a queue shows in the Wharf; its status and its event do not. -/
theorem State.touchQ_whf (s : State) (n : Nat) (f : State → State) : (s.touchQ n f).whf = (f s).whf := by
  unfold State.touchQ
  simp only
  split <;> split <;> simp

theorem State.dropLane_lane (s : State) (n : Nat) (l : LaneItem) : ((s.dropLane n l).q n).lane = (s.q n).lane.erase l := by
  unfold State.dropLane
  simp only
  rw [State.q, State.touchQ_whf]
  split <;> simp [State.setQ]

theorem State.raise_q (s : State) (e n : Nat) : (s.raise e).q n = s.q n := by simp [State.q]

/-- A message for a cell that no chip runs leaves the lane of a Gangway queue, with event 175 (R212). -/
theorem State.class0Auth_unknown {s : State} {q : Nat} {l : LaneItem} {d : List Byte}
    (hl : ((s.q q).lane.find? fun l => l.hold) = some l) (hd : l.item.bytes.take (44 + beAt l.item.bytes 24 2) = d)
    (hc : s.gwyCheck d (s.class0Key d) false = none) (hr : s.class0Room q d = true) (ha : (s.gwyArrive (beAt d 6 2) d).1 = true)
    (hm : ((s.gwyArrive (beAt d 6 2) d).2.gwyRelease (beAt d 6 2) d).man.medium q = .gwy)
    (hp : ((s.gwyArrive (beAt d 6 2) d).2.gwyRelease (beAt d 6 2) d).peerOfCell (beAt d 28 1) = none) :
    s.class0Auth q = (((s.gwyArrive (beAt d 6 2) d).2.gwyRelease (beAt d 6 2) d).dropLane q l).raise 175 := by
  simp only [State.class0Auth, hl, hd, hc, hr, ha, hm, State.rewriteClass0, hp, Option.map_none, Bool.not_true, Bool.false_eq_true, if_false]

/-! ### The counterexample to O23

A state's table of peers may list a number twice: the statement ranges over every state. Peer 5 is listed first without a cell and then
with cell 9. The cell is known, by the second entry; the arrival of a message of peer 5 stores the first entry in place of both, so
that the cell is no longer known, and the message leaves the lane instead of being passed on. -/

/-- Header and body of peer 5's class-0 message for cell 9, unreliable, under generation 0. -/
def cellRequest : List Byte :=
  be 1 1 ++ be 1 7 ++ be 1 0 ++ be 1 0 ++ be 2 0 ++ be 2 5 ++ be 4 1 ++ be 4 0 ++ be 8 0 ++ be 2 1 ++ be 2 0 ++ be 1 9

/-- That message with its tag. -/
def cellMessage : List Byte := taggedMsg (List.replicate 32 7) cellRequest

/-- The message held in a lane. -/
def cellHeld : LaneItem := { item := mkItem 0 {} cellMessage, hold := true }

/-- A hub that holds the message in the lane of its Gangway queue 3 and lists peer 5 twice. -/
def peerTwice : State :=
  { regs := [(gwyCfg_HUB.addr, putBits 0 gwyCfg_HUB.hi gwyCfg_HUB.lo 1)]
    man := { linkKey := 8, chips := [{ eui := 0, linkKey := 8 }], roles := { gwyLaunch := [4] } }
    keys := { slots := [(8, { attr := 0x80008001, key := List.replicate 32 7 })] }
    gwy := { peers := [(5, { up := true }), (5, { cells := [9] })] }
    whf := { queues := [(3, { lane := [cellHeld] })] } }

/-- The hub once it has taken the message. -/
def peerOnce : State := (peerTwice.gwyArrive 5 cellMessage).2.gwyRelease 5 cellMessage

/-- The message is addressed from peer 5, under generation 0, to cell 9. -/
theorem cellMessage_header : beAt cellMessage 24 2 = 1 ∧ beAt cellMessage 6 2 = 5 ∧ beAt cellMessage 3 1 = 0 ∧ beAt cellMessage 28 1 = 9 := by
  refine ⟨(beAt_append_left cellRequest _ 24 2 (by decide)).trans (by decide), (beAt_append_left cellRequest _ 6 2 (by decide)).trans (by decide),
    (beAt_append_left cellRequest _ 3 1 (by decide)).trans (by decide), (beAt_append_left cellRequest _ 28 1 (by decide)).trans (by decide)⟩

theorem cellMessage_length : cellMessage.length = 45 := by
  rw [cellMessage, taggedMsg, List.length_append, tagOf_length]
  decide

/-- The held item's content is the message. -/
theorem cellHeld_content : cellHeld.item.bytes.take (44 + beAt cellHeld.item.bytes 24 2) = cellMessage := by
  obtain ⟨hlen, -⟩ := cellMessage_header
  obtain ⟨z, hz⟩ : ∃ z, cellHeld.item.bytes = cellMessage ++ z := ⟨_, mkItem_bytes 0 {} cellMessage⟩
  rw [hz, beAt_append_left _ _ 24 2 (by rw [cellMessage_length]; decide), hlen, show 44 + 1 = cellMessage.length from cellMessage_length.symm,
    List.take_left]

/-- The message passes its check, is new, and may go to the chip of its cell. -/
theorem peerTwice_passes : peerTwice.gwyCheck cellMessage (peerTwice.class0Key cellMessage) false = none ∧
    peerTwice.class0Room 3 cellMessage = true ∧ (peerTwice.gwyArrive 5 cellMessage).1 = true ∧
    (peerTwice.peerOfCell 9).isSome = true := by
  obtain ⟨-, hfrom, hgen, hcell⟩ := cellMessage_header
  have hkey : peerTwice.class0Key cellMessage = some (List.replicate 32 7) := by
    rw [State.class0Key, hfrom, hgen]
    decide
  refine ⟨?_, ?_, by decide +kernel, by decide⟩
  · rw [hkey]
    exact State.gwyCheck_tagged peerTwice _ cellRequest false (by decide) (by decide) (by decide)
  · rw [State.class0Room, hcell]
    decide +kernel

/-- Once the message is taken nobody runs cell 9, and the lane is as it was. -/
theorem peerOnce_facts : peerOnce.man.medium 3 = .gwy ∧ peerOnce.peerOfCell 9 = none := by decide +kernel

theorem peerOnce_lane : (peerOnce.q 3).lane = [cellHeld] := by rfl

/-- Refutes O23, its fifth clause: the message of a peer listed twice leaves the lane. -/
theorem not_ethernetPortsTakeFrames : ¬ Obligations.EthernetPortsTakeFrames := by
  rintro ⟨-, -, -, -, hclass0, -⟩
  obtain ⟨-, hfrom, -, hcell⟩ := cellMessage_header
  obtain ⟨hcheck, hroom, hnew, hknown⟩ := peerTwice_passes
  obtain ⟨hmedium, hnobody⟩ := peerOnce_facts
  have hfind : ((peerTwice.q 3).lane.find? fun l => l.hold) = some cellHeld := by rfl
  obtain ⟨t, ht, hlane, -⟩ := hclass0 peerTwice 3 cellHeld cellMessage hfind cellHeld_content.symm hcheck hroom
    (by rw [hfrom]; exact hnew) (.inr (by rw [hcell]; exact hknown))
  have hx := State.class0Auth_unknown hfind cellHeld_content hcheck hroom (by rw [hfrom]; exact hnew)
    (by rw [hfrom]; exact hmedium) (by rw [hfrom, hcell]; exact hnobody)
  rw [hfrom, show (peerTwice.gwyArrive 5 cellMessage).2.gwyRelease 5 cellMessage = peerOnce from rfl] at hx
  have hempty : (t.q 3).lane = [] := by
    rw [show exec (.class0AuthDone 3) peerTwice = peerTwice.out (peerTwice.class0Auth 3) from rfl, hx, State.out_eq] at ht
    obtain rfl := (Host.Outcome.next.inj ht).symm
    have hq : (((peerOnce.dropLane 3 cellHeld).raise 175).q 3).lane = [] := by
      rw [State.raise_q, State.dropLane_lane, peerOnce_lane, List.erase_cons_head]
    exact hq
  have hone : (peerTwice.q 3).lane = [cellHeld] := by rfl
  rw [hempty, hone] at hlane
  exact absurd hlane (by simp)

end Sys2Proof.Machine

/-! ## 02_crossing_time.md: the tick of an empty queue -/

namespace Sys2Proof.Machine

theorem step_idle {s : State} (h : s.pending = []) : step s = .next s.tick := by simp [step, h]

theorem State.tick_reset {s : State} (h : s.get pwrReset_CAUSE = 0) : s.tick = s := by simp [State.tick, h]

theorem onlyIn_clk_aon (s : State) (c : Clock) (a : AlwaysOn) : onlyIn [.clk, .aon] s { s with clk := c, aon := a } :=
  onlyIn_trans (onlyIn_clk s c _ (by decide)) (onlyIn_aon { s with clk := c } a _ (by decide))

theorem State.tick_only (s : State) : onlyIn [.clk, .aon] s s.tick := by
  rw [State.tick]
  split
  · exact onlyIn_refl _ s
  · exact onlyIn_clk_aon s _ _

/-- Settles O7: an empty queue runs `State.tick`, which tests CAUSE. -/
theorem idleStepIsOneTick : Obligations.IdleStepIsOneTick := by
  intro s hq
  refine ⟨fun hc => by rw [step_idle hq, State.tick_reset hc], fun hc => ⟨s.tick, step_idle hq, ?_⟩⟩
  have ho := s.tick_only
  rw [State.tick, if_neg hc] at ho ⊢
  exact ⟨rfl, rfl, rfl, rfl, rfl, ho⟩

end Sys2Proof.Machine

/-! ## 17_oarsman.md: loads, stores and fields of data memory -/

namespace Sys2Proof.Machine

/-! ### One instruction of a running Oarsman -/

/-- The state in which an instruction of so many cycles acts. -/
abbrev State.busied (s : State) (n cycles : Nat) : State := s.wrapUp (oarBusy_CYCLES n) cycles

theorem State.oarDo_runs {s : State} {n : Nat} (h : oarRuns n s) (cycles : Nat) (f : Oarsman → State → State) :
    s.oarDo n cycles f = f (s.oarN n) (s.busied n cycles) := by
  obtain ⟨hst, hpc⟩ := h
  rw [State.oarDo, if_neg (by simp [hst]), if_neg (by omega)]

theorem State.oarMem_reaches (s : State) (n : Nat) (o : Oarsman) (base : Nat) (off : Word) {len al a : Nat} (f : Nat → State)
    (ha : a = (o.gr base + off).toNat) (hr : a + len ≤ 0x2000) (hal : a % al = 0) : s.oarMem n o base off len al f = f a := by
  rw [State.oarMem, ← ha, if_neg (by omega)]

theorem State.oarN_setOar (s : State) (n k : Nat) (o : Oarsman) : (s.setOar n o).oarN k = if k = n then o else s.oarN k := by
  simp [State.oarN, State.setOar]

theorem State.setOar_busied_only (s : State) (n cycles : Nat) (o : Oarsman) : oarOnly n s ((s.busied n cycles).setOar n o) := by
  refine ⟨onlyIn_trans (s.set_only _ _ _ (by decide)) (onlyIn_oar _ _ _ (by decide)), ?_, fun k _ hk => ?_⟩
  · exact keepsRegs_trans (s.set_regs (oarBusy_CYCLES n) _) (keepsRegs_of_eq _ rfl)
  · rw [State.oarN_setOar, if_neg hk]
    rfl

theorem State.oarRet_writes (s : State) (n cycles gd : Nat) (v : Word) :
    oarWrites n gd v s ((s.busied n cycles).oarRet n (s.oarN n) gd v) :=
  ⟨by rw [State.oarRet, State.oarN_setOar, if_pos rfl], s.setOar_busied_only n cycles _⟩

theorem State.oarRet_stored (s : State) (n cycles a : Nat) (bs : List Byte) :
    obStored n a bs s ((s.busied n cycles).oarRet n ((s.oarN n).store a bs) 0 0) := by
  have ho : ((s.busied n cycles).oarRet n ((s.oarN n).store a bs) 0 0).oarN n =
      { s.oarN n with mem := putBytes (s.oarN n).mem a bs, pc := (s.oarN n).pc + 1 } := by
    rw [State.oarRet, State.oarN_setOar, if_pos rfl]
    rfl
  refine ⟨?_, fun k _ hk => ?_, by rw [ho], s.setOar_busied_only n cycles _⟩
  · rw [ho, getBytes_putBytes]
  · rw [ho, putBytes_other _ _ _ _ hk]

/-! ### A field within a number -/

/-- A number with a field of w bits replaced, by its parts above, in and below the field. -/
theorem field_replaced (v sh w x : Nat) : v - v / 2 ^ sh % 2 ^ w * 2 ^ sh + x * 2 ^ sh = (v / 2 ^ (sh + w) * 2 ^ w + x) * 2 ^ sh + v % 2 ^ sh := by
  have hv := Nat.div_add_mod v (2 ^ sh)
  have hq := Nat.div_add_mod (v / 2 ^ sh) (2 ^ w)
  rw [Nat.div_div_eq_div_mul, ← pow_add] at hq
  have hle : v / 2 ^ sh % 2 ^ w * 2 ^ sh ≤ v := (Nat.mul_le_mul_right _ (Nat.mod_le _ _)).trans (Nat.div_mul_le_self v _)
  have he : v = (v / 2 ^ (sh + w) * 2 ^ w + v / 2 ^ sh % 2 ^ w) * 2 ^ sh + v % 2 ^ sh := by
    rw [Nat.mul_comm _ (2 ^ w), hq, Nat.mul_comm _ (2 ^ sh), hv]
  rw [Nat.add_mul] at he ⊢
  omega

/-- Above, in and below a replaced field. -/
theorem field_replaced_parts (v sh w : Nat) {x v1 : Nat} (hx : x < 2 ^ w) (h : v1 = v - v / 2 ^ sh % 2 ^ w * 2 ^ sh + x * 2 ^ sh) :
    v1 / 2 ^ sh % 2 ^ w = x ∧ v1 / 2 ^ (sh + w) = v / 2 ^ (sh + w) ∧ v1 % 2 ^ sh = v % 2 ^ sh := by
  have hlow : v % 2 ^ sh < 2 ^ sh := Nat.mod_lt _ (Nat.two_pow_pos _)
  rw [field_replaced] at h
  have hq : v1 / 2 ^ sh = v / 2 ^ (sh + w) * 2 ^ w + x := by
    rw [h, Nat.mul_comm, Nat.mul_add_div (Nat.two_pow_pos _), Nat.div_eq_of_lt hlow, Nat.add_zero]
  refine ⟨?_, ?_, ?_⟩
  · rw [hq, Nat.mul_add_mod_self_right, Nat.mod_eq_of_lt hx]
  · rw [pow_add, ← Nat.div_div_eq_div_mul, hq, Nat.mul_comm, Nat.mul_add_div (Nat.two_pow_pos _), Nat.div_eq_of_lt hx, Nat.add_zero, pow_add]
  · rw [h, Nat.mul_add_mod_self_right, Nat.mod_mod]

/-- The bytes of a number in which a field was replaced, read back as a number, for a field that the bytes hold. -/
theorem ofBe_be_field (bs : List Byte) {skip w : Nat} (h : skip + w ≤ 8 * bs.length) {sh x v1 : Nat} (hsh : sh = 8 * bs.length - skip - w)
    (hx : x < 2 ^ w) (h1 : v1 = ofBe bs - ofBe bs / 2 ^ sh % 2 ^ w * 2 ^ sh + x * 2 ^ sh) : ofBe (be bs.length v1) = v1 := by
  obtain ⟨-, habove, -⟩ := field_replaced_parts (ofBe bs) sh w hx h1
  have hpow : 256 ^ bs.length = 2 ^ skip * 2 ^ (sh + w) := by
    rw [← pow_add, show (256 : Nat) = 2 ^ 8 from rfl, ← pow_mul]
    congr 1
    omega
  have hlt := ofBe_lt bs
  rw [hpow, ← Nat.div_lt_iff_lt_mul (Nat.two_pow_pos _), ← habove, Nat.div_lt_iff_lt_mul (Nat.two_pow_pos _), ← hpow] at hlt
  rw [ofBe_be, Nat.mod_eq_of_lt hlt]

/-! ### The near crossing number, the stamp -/

theorem toSigned_of_range {k d : Int} {v : Nat} (hv : (v : Int) = d + k * 2 ^ 32) (h : d < 2 ^ 31) (hl : -(2 ^ 31) ≤ d) : toSigned 32 v = d := by
  simp only [toSigned]
  norm_num at h hl hv ⊢
  split <;> omega

/-- The crossing number nearest the count with given low bits (R429). -/
theorem State.nearXing_eq {s : State} {x lo : Nat} (hlo : x % 2 ^ 32 = lo) (h : (x : Int) - s.xing.num < 2 ^ 31)
    (hl : -(2 ^ 31 : Int) ≤ (x : Int) - s.xing.num) : s.nearXing lo = x := by
  have hd : toSigned 32 (lo + 2 ^ 32 - s.xing.num % 2 ^ 32) = (x : Int) - s.xing.num :=
    toSigned_of_range (k := s.xing.num / 2 ^ 32 - x / 2 ^ 32 + 1) (by norm_num; omega) h hl
  simp only [State.nearXing, hd]
  omega

/-- Counting busy cycles leaves the time as it stands. -/
theorem State.busied_stamp (s : State) (n cycles rank : Nat) : (s.busied n cycles).stamp rank = s.stamp rank := by
  have hreg : ∀ a, a < 0xE00014 → (s.busied n cycles).reg a = s.reg a := fun a ha =>
    s.set_regs (oarBusy_CYCLES n) _ a (by simp only [oarBusy_CYCLES, oarBusy, List.mem_singleton]; omega)
  have hcoast : (s.busied n cycles).coasting = s.coasting := by
    simp only [State.coasting, State.flag, State.get, hreg xingStatus_COASTING.addr (by decide)]
  have hlock : (s.busied n cycles).flag ptpStat_LOCKED = s.flag ptpStat_LOCKED := by
    simp only [State.flag, State.get, hreg ptpStat_LOCKED.addr (by decide)]
  have hperiod : (s.busied n cycles).period = s.period := by
    simp only [State.period, State.get, hreg xingPeriod_PERIOD.addr (by decide)]
    rfl
  simp only [State.stamp, State.xt, State.fraction, State.lastPeriod, hperiod, State.stampFlags, hcoast, hlock, State.wrapUp_clk,
    State.wrapUp_xing]

/-! ### The instructions -/

/-- An instruction that reaches data memory within its bounds answers what it does there. -/
theorem answers_oarMem {c : Instr} {s : State} {n cycles base len al a gd : Nat} {off v : Word} {o : Oarsman} {P : State → Prop}
    {f : Oarsman → State → Nat → State}
    (hx : exec c s = s.out (s.oarDo n cycles fun o s => s.oarMem n o base off len al (f o s))) (hrun : oarRuns n s)
    (ha : a = ((s.oarN n).gr base + off).toNat) (hr : a + len ≤ 0x2000) (hal : a % al = 0)
    (hf : f (s.oarN n) (s.busied n cycles) a = (s.busied n cycles).oarRet n o gd v)
    (hP : P ((s.busied n cycles).oarRet n o gd v)) : answers c s P := by
  rw [State.oarDo_runs hrun, State.oarMem_reaches _ _ _ _ _ _ ha hr hal, hf] at hx
  exact answers_of_out hx rfl rfl hP

theorem loadStoreWord_answer (s : State) (n gd ga imm a : Nat) (hrun : oarRuns n s)
    (ha : a = ((s.oarN n).gr ga + BitVec.ofInt 32 (toSigned 18 imm)).toNat) (hr : a + 4 ≤ 0x2000) (hal : a % 4 = 0) :
    answers (.opLdw n gd ga imm) s (fun t => oarWrites n gd (BitVec.ofNat 32 (ofBe (getBytes (s.oarN n).mem a 4))) s t) ∧
    answers (.opStw n gd ga imm) s (fun t => obStored n a (be 4 ((s.oarN n).gr gd).toNat) s t) :=
  ⟨answers_oarMem rfl hrun ha hr hal rfl (s.oarRet_writes n 1 gd _), answers_oarMem rfl hrun ha hr hal rfl (s.oarRet_stored n 1 a _)⟩

theorem loadStoreByte_answer (s : State) (n gd ga imm a : Nat) (hrun : oarRuns n s)
    (ha : a = ((s.oarN n).gr ga + BitVec.ofInt 32 (toSigned 18 imm)).toNat) (hr : a < 0x2000) :
    answers (.opLdb n gd ga imm) s (fun t => oarWrites n gd ((smGet 0 (s.oarN n).mem a).setWidth 32) s t) ∧
    answers (.opStb n gd ga imm) s (fun t => obStored n a [((s.oarN n).gr gd).setWidth 8] s t) := by
  have hload : wd ((s.oarN n).load a 1) = (smGet 0 (s.oarN n).mem a).setWidth 32 := by
    apply BitVec.eq_of_toNat_eq
    simp [wd, Oarsman.load, getBytes, ofBe]
  have hstore : be 1 (((s.oarN n).gr gd).toNat % 256) = [((s.oarN n).gr gd).setWidth 8] := by
    simp only [be, List.cons.injEq, and_true]
    apply BitVec.eq_of_toNat_eq
    simp
  refine ⟨answers_oarMem rfl hrun ha hr (Nat.mod_one a) rfl ?_, answers_oarMem rfl hrun ha hr (Nat.mod_one a) rfl ?_⟩
  · rw [hload]
    exact s.oarRet_writes n 1 gd _
  · rw [hstore]
    exact s.oarRet_stored n 1 a _

/-- FINS's bytes, from the field's parts. -/
theorem insertField_answer (s : State) (n gd ga imm a skip w k : Nat) (hrun : oarRuns n s) (himm : imm < 2 ^ 18)
    (ha : a = ((s.oarN n).gr ga + BitVec.ofNat 32 (imm % 1024)).toNat) (hskip : skip = imm / 1024 % 8) (hw : w = imm / 8192 + 1)
    (hk : k = (skip + w + 7) / 8) (hr : a + k ≤ 0x2000) :
    answers (.opFex n gd ga imm) s (fun t =>
      oarWrites n gd (BitVec.ofNat 32 (ofBe (getBytes (s.oarN n).mem a k) / 2 ^ (8 * k - skip - w) % 2 ^ w)) s t) ∧
    answers (.opFins n gd ga imm) s (fun t =>
      ofBe (getBytes (t.oarN n).mem a k) / 2 ^ (8 * k - skip - w) % 2 ^ w = ((s.oarN n).gr gd).toNat % 2 ^ w ∧
      ofBe (getBytes (t.oarN n).mem a k) / 2 ^ (8 * k - skip) = ofBe (getBytes (s.oarN n).mem a k) / 2 ^ (8 * k - skip) ∧
      ofBe (getBytes (t.oarN n).mem a k) % 2 ^ (8 * k - skip - w) = ofBe (getBytes (s.oarN n).mem a k) % 2 ^ (8 * k - skip - w) ∧
      (∀ j ∈ List.range 0x2000, j < a ∨ a + k ≤ j → smGet 0 (t.oarN n).mem j = smGet 0 (s.oarN n).mem j) ∧
      t.oarN n = { s.oarN n with mem := (t.oarN n).mem, pc := (s.oarN n).pc + 1 } ∧ oarOnly n s t) := by
  have hfield : fieldAt imm = { off := imm % 1024, skip := skip, width := w, bytes := k } := by
    have hwidth : imm / 2 ^ 13 % 32 + 1 = w := by omega
    simp only [fieldAt, hwidth]
    rw [hk, hskip]
    norm_num
  have hbytes : (fieldAt imm).bytes = k := by rw [hfield]
  have hoff : a = ((s.oarN n).gr ga + wd (fieldAt imm).off).toNat := by rw [hfield]; exact ha
  refine ⟨answers_oarMem rfl hrun hoff (by rwa [hbytes]) (Nat.mod_one a) rfl ?_,
    answers_oarMem rfl hrun hoff (by rwa [hbytes]) (Nat.mod_one a) rfl ?_⟩
  · rw [hfield]
    exact s.oarRet_writes n 2 gd _
  · rw [hfield]
    simp only [Oarsman.load]
    have hlen : (getBytes (s.oarN n).mem a k).length = k := getBytes_length _ _ _
    generalize hbs : getBytes (s.oarN n).mem a k = bs at hlen ⊢
    have hfits : skip + w ≤ 8 * k := by omega
    have hx : ((s.oarN n).gr gd).toNat % 2 ^ w < 2 ^ w := Nat.mod_lt _ (Nat.two_pow_pos w)
    obtain ⟨hin, habove, hbelow⟩ := field_replaced_parts (ofBe bs) (8 * k - skip - w) w hx rfl
    have hread := ofBe_be_field bs (skip := skip) (w := w) (by omega) (by rw [hlen]) hx rfl
    rw [hlen] at hread
    obtain ⟨hmem, hother, hoar, honly⟩ := s.oarRet_stored n 3 a (be k (ofBe bs - ofBe bs / 2 ^ (8 * k - skip - w) % 2 ^ w * 2 ^ (8 * k - skip - w) +
      ((s.oarN n).gr gd).toNat % 2 ^ w * 2 ^ (8 * k - skip - w)))
    rw [be_length] at hmem hother
    rw [show 8 * k - skip - w + w = 8 * k - skip by omega] at habove
    refine ⟨?_, ?_, ?_, hother, hoar, honly⟩ <;> rw [hmem, hread]
    · exact hin
    · exact habove
    · exact hbelow

theorem launchWordXing_answer (s : State) (n gd ga gb a x : Nat) (hrun : oarRuns n s) (ha : a = ((s.oarN n).gr ga).toNat)
    (hr : a + 8 ≤ 0x2000) (hlo : x % 2 ^ 32 = ((s.oarN n).gr gb).toNat) (hx : x < 2 ^ 46) (hhi : (x : Int) - s.xing.num < 2 ^ 31)
    (hlow : -(2 ^ 31 : Int) ≤ (x : Int) - s.xing.num) :
    answers (.opLwx n gd ga gb) s (fun t =>
      obStored n a (be 8 (2 ^ 63 + 2 ^ 62 + x * 2 ^ 16 + ((s.oarN n).gr gd).toNat % 2 ^ 16)) s t) := by
  have hnear : (s.busied n 2).nearXing ((s.oarN n).gr gb).toNat = x := State.nearXing_eq hlo hhi hlow
  refine answers_oarMem rfl hrun (by simpa using ha) hr (Nat.mod_one a) rfl ?_
  rw [hnear, Nat.mod_eq_of_lt hx]
  exact s.oarRet_stored n 2 a _

theorem launchWordPtp_answer (s : State) (n gd ga gb a : Nat) (hrun : oarRuns n s) (ha : a = ((s.oarN n).gr ga).toNat)
    (hr : a + 8 ≤ 0x2000) :
    answers (.opLwp n gd ga gb) s (fun t =>
      obStored n a (be 8 (2 ^ 63 + ((s.oarN n).gr gb).toNat % 2 ^ 30 * 2 ^ 32 + ((s.oarN n).gr gd).toNat)) s t) :=
  answers_oarMem rfl hrun (by simpa using ha) hr (Nat.mod_one a) rfl (s.oarRet_stored n 2 a _)

theorem stamp_answer (s : State) (n ga a : Nat) (hrun : oarRuns n s) (ha : a = ((s.oarN n).gr ga).toNat) (hr : a + 20 ≤ 0x2000) :
    answers (.opStamp n ga) s (fun t =>
      obStored n a ({ ptp := s.clk.ptp, epoch := s.clk.epoch, xt := s.xt, rank := 8, flags := s.stampFlags : Stamp }.bytes) s t) := by
  refine answers_oarMem rfl hrun (by simpa using ha) hr (Nat.mod_one a) rfl ?_
  rw [State.busied_stamp]
  exact s.oarRet_stored n 6 a _

/-- Settles O42: each form is one data-memory access within its bounds (`answers_oarMem`); FINS's field by `field_replaced_parts`. -/
theorem oarsmanReachesDataMemory : Obligations.OarsmanReachesDataMemory :=
  ⟨loadStoreWord_answer, loadStoreByte_answer, insertField_answer, launchWordXing_answer, launchWordPtp_answer, stamp_answer⟩

end Sys2Proof.Machine

/-! ## 22_power_reset.md: reset release, LPDDR5 training, the wait for HOLD_SENSE -/

namespace Sys2Proof.Machine

/-! ### A record in the Logbook's buffer -/

theorem State.lgbEnter_buf (s : State) (r : LogRec) : (s.lgbEnter r).lgb.buf = s.lgb.buf ++
    [{ r with num := s.lgb.next, opsec := s.aon.opSeconds, pcycle := s.aon.powerCycles, flags := r.flags + 2 * ofBool (s.flag pwrStat_WARN) }] := by
  simp only [State.lgbEnter]
  split <;> simp

/-- A device record with room for it stands in the buffer under the next number, its payload after the stamp (R469, R473). -/
theorem State.logRec_enters (s : State) (typ source extra : Nat) (d : List Byte) (h : 0 < s.lgbRoom) :
    ∃ r ∈ (s.logRec typ source extra d).lgb.buf, r.num = s.lgb.next ∧ r.typ = typ ∧ r.payload = padTo 48 ((s.stamp 8).bytes ++ d) := by
  rw [State.logRec, if_neg h.ne']
  simp only [State.lgbAppend]
  split
  · rw [State.lgbEnter_buf]
    exact ⟨_, List.mem_append_right _ (List.mem_singleton_self _), rfl, rfl, rfl⟩
  · rw [State.lgbEnter_buf]
    simp only [State.lgbEnter_buf]
    exact ⟨_, List.mem_append_left _ (List.mem_append_right _ (List.mem_singleton_self _)), rfl, rfl, rfl⟩

@[simp] theorem Stamp.bytes_length (t : Stamp) : t.bytes.length = 20 := by simp [Stamp.bytes]

/-- An event-linked record names its event after the stamp (R469). -/
theorem State.logEvt_enters (s : State) (e : Nat) (d : List Byte) (h : 0 < s.lgbRoom) :
    ∃ r ∈ (s.logEvt e d).lgb.buf, r.num = s.lgb.next ∧ r.typ = 0x10 ∧ slice r.payload 20 2 = be 2 e := by
  obtain ⟨r, hr, hnum, htyp, hpay⟩ := s.logRec_enters 0x10 (evtSource e) 0 (be 2 e ++ padTo 26 d) h
  refine ⟨r, hr, hnum, htyp, ?_⟩
  have hlen : ((s.stamp 8).bytes ++ (be 2 e ++ padTo 26 d)).length = 48 := by simp
  rw [hpay, ← hlen, padTo_self, slice, List.drop_left' (Stamp.bytes_length _), List.take_left' (be_length 2 e)]

/-! ### A latched event -/

theorem foldl_wake_latches (e : Nat) (l : List Nat) (s : State) : (l.foldl (fun st t => st.wake e t) s).fry.latches = s.fry.latches :=
  foldl_keeps (f := fun st t => st.wake e t) (fun st => st.fry.latches) (fun _ _ => rfl) l s

/-- A latched event stays latched through an assertion (R411). -/
theorem State.assertEvt_latched {s : State} {e : Nat} (h : e ∈ s.fry.latches) (d : Nat) : e ∈ (s.assertEvt d).1.fry.latches := by
  rw [State.assertEvt_eq]
  split
  · split
    · split
      · simpa using h
      · exact h
    · exact List.mem_cons_of_mem _ h
  · rw [foldl_wake_latches]
    simpa using h

theorem State.raise_latched {s : State} {e : Nat} (h : e ∈ s.fry.latches) (d : Nat) : e ∈ (s.raise d).fry.latches := by
  unfold State.raise
  split
  · simp only
    split
    · exact State.assertEvt_latched (State.assertEvt_latched h d) 388
    · exact State.assertEvt_latched h d
  · exact h

theorem State.lgbEnter_latched {s : State} {e : Nat} (h : e ∈ s.fry.latches) (r : LogRec) : e ∈ (s.lgbEnter r).fry.latches := by
  unfold State.lgbEnter
  simp only
  split
  · refine State.raise_latched ?_ 450
    simp only
    refine State.raise_latched ?_ 448
    exact h
  · refine State.raise_latched ?_ 448
    exact h

/-- A latched event stays latched through a Logbook record. -/
theorem State.logRec_latched {s : State} {e : Nat} (h : e ∈ s.fry.latches) (typ source extra : Nat) (d : List Byte) :
    e ∈ (s.logRec typ source extra d).fry.latches := by
  unfold State.logRec
  split
  · simp only
    refine State.raise_latched ?_ 451
    exact h
  · unfold State.lgbAppend
    simp only
    split
    · refine State.lgbEnter_latched ?_ _
      exact h
    · refine State.lgbEnter_latched ?_ _
      simp only
      refine State.lgbEnter_latched ?_ _
      exact h

/-! ### Reset release -/

/-- A break counted changes the fuses, the seal's state and what a break opens (R90). -/
theorem State.countBreak_only (s : State) : onlyIn [.regs, .fuses, .bil, .aon] s s.countBreak := fun p hp => by
  cases p <;> first | rfl | exact absurd (by decide) hp

/-- A break found at start-up changes, beside that, what event 50 reaches. -/
theorem State.breakAtStart_only (s : State) : onlyIn (.fuses :: .bil :: .aon :: evtParts) s s.breakAtStart := by
  have hraise : ∀ a, onlyIn (.fuses :: .bil :: .aon :: evtParts) s (State.raise { s.countBreak with aon := a } 50) := fun a =>
    onlyIn_trans (onlyIn_mono s.countBreak_only (by decide))
      (onlyIn_trans (onlyIn_aon s.countBreak a _ (by decide)) (onlyIn_mono (State.raise_only _ _) (by decide)))
  rw [State.breakAtStart]
  split
  · exact hraise _
  · split
    · exact hraise _
    · exact onlyIn_refl _ s

theorem State.countBreak_regs (s : State) : keepsRegs [metSealStat] s s.countBreak :=
  keepsRegs_trans (State.set_regs { s with fuses := { s.fuses with breaks := min 255 (s.get metSealStat_BREAKS + 1) } } metSealStat_BREAKS _)
    (keepsRegs_trans (State.set_regs _ metSealStat_STATE _) (keepsRegs_of_eq _ rfl))

theorem State.breakAtStart_regs (s : State) : keepsRegs [metSealStat, fryCnt] s s.breakAtStart := by
  have hraise : ∀ a, keepsRegs [metSealStat, fryCnt] s (State.raise { s.countBreak with aon := a } 50) := fun a =>
    keepsRegs_trans (keepsRegs_mono s.countBreak_regs (by decide))
      (keepsRegs_trans (t := { s.countBreak with aon := a }) (keepsRegs_of_eq _ rfl) (keepsRegs_mono (State.raise_regs _ _) (by decide)))
  rw [State.breakAtStart]
  split
  · exact hraise _
  · split
    · exact hraise _
    · exact keepsRegs_refl _ s

/-- A break found at start-up leaves the counts of the always-on domain. -/
theorem State.breakAtStart_counts (s : State) : s.breakAtStart.aon.powerCycles = s.aon.powerCycles ∧ s.breakAtStart.aon.opSeconds = s.aon.opSeconds := by
  rw [State.breakAtStart]
  split
  · simp [State.countBreak]
  · split <;> simp [State.countBreak]

/-- The device released from reset, its clocks and always-on domain being settled (R519, R522). -/
def State.released (s : State) : State :=
  let s1 := (s.breakAtStart.set pwrReset_CAUSE s.aon.cause).set metSealStat_LOOP (ofBool !(s.aon.pendingBreak || s.aon.loopOpen))
  let s2 := s1.logRec 0x05 0x13 s.aon.cause (be 8 s1.hld.endJseq)
  { s2 with pwr := { s2.pwr with t0 := s2.clk.mono, off := false } }

/-- The parts that a release may change once the clocks and the always-on domain are settled. -/
def releaseParts : List Part := .pwr :: .fuses :: .bil :: .aon :: logParts

theorem State.released_only (s : State) : onlyIn releaseParts s s.released :=
  onlyIn_trans (onlyIn_mono s.breakAtStart_only (by decide))
    (onlyIn_trans (s.breakAtStart.set_only pwrReset_CAUSE _ _ (by decide))
      (onlyIn_trans (State.set_only _ metSealStat_LOOP _ _ (by decide))
        (onlyIn_trans (onlyIn_mono (State.logRec_only _ 0x05 0x13 s.aon.cause _) (by decide)) (onlyIn_pwr _ _ _ (by decide)))))

theorem State.released_regs (s : State) : keepsRegs (pwrReset :: metSealStat :: logRegs) s s.released :=
  keepsRegs_trans (keepsRegs_mono s.breakAtStart_regs (by decide))
    (keepsRegs_trans (keepsRegs_mono (s.breakAtStart.set_regs pwrReset_CAUSE _) (by decide))
      (keepsRegs_trans (keepsRegs_mono (State.set_regs _ metSealStat_LOOP _) (by decide))
        (keepsRegs_trans (keepsRegs_mono (State.logRec_regs _ 0x05 0x13 s.aon.cause _) (by decide)) (keepsRegs_of_eq _ rfl))))

theorem State.released_cause {s : State} (h : s.aon.cause < 256) : s.released.get pwrReset_CAUSE = s.aon.cause := by
  have hlog : s.released.reg pwrReset = ((s.breakAtStart.set pwrReset_CAUSE s.aon.cause).set metSealStat_LOOP
      (ofBool !(s.aon.pendingBreak || s.aon.loopOpen))).reg pwrReset := State.logRec_reg _ _ _ _ _ _ (by decide) (by decide)
  rw [State.get_congr (f := pwrReset_CAUSE) hlog, State.get_set_other _ _ _ _ (by decide) (by decide) (by decide),
    State.get_set _ _ _ (by decide) (by decide)]
  exact Nat.mod_eq_of_lt h

theorem State.released_counts (s : State) : s.released.aon.powerCycles = s.aon.powerCycles ∧ s.released.aon.opSeconds = s.aon.opSeconds := by
  simp [State.released, s.breakAtStart_counts]

theorem State.released_pwr (s : State) : s.released.pwr = { s.pwr with t0 := s.clk.mono, off := false } := by
  have hpwr : s.breakAtStart.pwr = s.pwr := s.breakAtStart_only .pwr (by decide)
  have hclk : s.breakAtStart.clk = s.clk := s.breakAtStart_only .clk (by decide)
  simp [State.released, hpwr, hclk]

/-- The start-up record of a release (R470, R519). -/
theorem State.released_record {s : State} (h : 0 < s.lgbRoom) :
    (s.released.lgb.buf.any fun r => decide (r.num = s.lgb.next) && decide (r.typ = 5)) = true := by
  have hlgb : s.breakAtStart.lgb = s.lgb := s.breakAtStart_only .lgb (by decide)
  let s1 := (s.breakAtStart.set pwrReset_CAUSE s.aon.cause).set metSealStat_LOOP (ofBool !(s.aon.pendingBreak || s.aon.loopOpen))
  have hs1 : s1.lgb = s.lgb := hlgb
  obtain ⟨r, hr, hnum, htyp, -⟩ := s1.logRec_enters 0x05 0x13 s.aon.cause (be 8 s1.hld.endJseq) (by rwa [State.lgbRoom, hs1])
  exact List.any_eq_true.mpr ⟨r, hr, by simp [hnum, htyp, hs1]⟩

theorem exec_resetRelease {s : State} (hc : s.get pwrReset_CAUSE = 0) (hh : s.pwr.heat = false) (elapsed : Nat) :
    exec (.resetRelease elapsed) s = s.out (State.released (if s.aon.valid then s.aonRun elapsed else s.aonCold).showFuses) := by
  simp only [exec, execResetRelease, hc, hh]
  rfl

/-- Showing the fuses changes registers of the identification and key blocks alone (R470). -/
theorem State.showFuses_only (s : State) : onlyIn [.regs] s s.showFuses := fun p hp => by
  cases p <;> first | rfl | exact absurd (by decide) hp

theorem State.showFuses_regs (s : State) : keepsRegs [sysDeviceId_VARIANT.addr, keyIdStat_EPOCH.addr, keyFpHi, keyFpLo] s s.showFuses :=
  keepsRegs_trans (keepsRegs_mono (s.set_regs sysDeviceId_VARIANT _) (by decide))
    (keepsRegs_trans (keepsRegs_mono (State.set_regs _ keyIdStat_EPOCH _) (by decide))
      (keepsRegs_trans (keepsRegs_mono (State.setReg_regs _ keyFpHi _) (by decide)) (keepsRegs_mono (State.setReg_regs _ keyFpLo _) (by decide))))

/-- While no Manifest is verified the pins stand in the columns before it (Pin states table, R526), and the slew class is 1 (R553). -/
theorem State.pinStage_unverified {s : State} (h : s.pwr.verified = false) : s.pinStage ≤ 2 := by
  simp only [State.pinStage, h]
  split
  · omega
  · split <;> simp

theorem State.driverEnables_unverified {s : State} (h : s.pwr.verified = false) : ([0, 1, 2].all fun p => s.pinLevel (.drven p) == .low) = true := by
  have hle := State.pinStage_unverified h
  have hstage : s.pinStage = 0 ∨ s.pinStage = 1 ∨ s.pinStage = 2 := by omega
  rcases hstage with hs | hs | hs <;> simp [State.pinLevel, State.pinColumn, hs]

theorem State.slewClasses_unverified {s : State} (h : s.pwr.verified = false) : ((List.range 512).all fun k => s.slewClass k == 1) = true := by
  have hle := State.pinStage_unverified h
  simp [State.slewClass, State.pinCfg, show s.pinStage < 3 by omega]

theorem State.showFuses_aonValid (s : State) : (State.showFuses (s.set pwrStat_AON_VALID 1)).get pwrStat_AON_VALID = 1 := by
  rw [State.get_congr (State.showFuses_regs _ pwrStat (by decide)), State.get_set _ _ _ (by decide) (by decide)]
  rfl

/-- What a start with valid always-on contents settles: the times run on, one more power cycle (R470, R525). -/
theorem State.aonRun_shown (s : State) (elapsed : Nat) : (s.aonRun elapsed).showFuses.aon.cause = s.aon.cause ∧
    (s.aonRun elapsed).showFuses.aon.powerCycles = s.aon.powerCycles + 1 ∧ (s.aonRun elapsed).showFuses.aon.opSeconds = s.aon.opSeconds ∧
    (s.aonRun elapsed).showFuses.clk.ptp = s.aon.rtc + elapsed ∧
    (s.aonRun elapsed).showFuses.xing.num = s.aon.crossing + (if s.aon.held = 0 then 0 else (s.aon.since + elapsed) / s.aon.held) ∧
    (s.aonRun elapsed).showFuses.get pwrStat_AON_VALID = 1 ∧ (s.aonRun elapsed).showFuses.pwr = s.pwr ∧
    (s.aonRun elapsed).showFuses.live = s.live ∧ (s.aonRun elapsed).showFuses.man = s.man ∧ (s.aonRun elapsed).showFuses.lgb = s.lgb :=
  ⟨rfl, rfl, rfl, rfl, rfl, State.showFuses_aonValid _, rfl, rfl, rfl, rfl⟩

theorem resetRelease_valid (s : State) (elapsed : Nat) (hc : s.get pwrReset_CAUSE = 0) (hh : s.pwr.heat = false) (hv : s.aon.valid = true)
    (hcause : s.aon.cause < 256) : answers (.resetRelease elapsed) s fun t =>
      t.get pwrReset_CAUSE = s.aon.cause ∧ t.clk.ptp = s.aon.rtc + elapsed ∧ t.aon.powerCycles = s.aon.powerCycles + 1 ∧
      t.aon.opSeconds = s.aon.opSeconds ∧ t.xing.num = s.aon.crossing + (if s.aon.held = 0 then 0 else (s.aon.since + elapsed) / s.aon.held) ∧
      t.get pwrStat_AON_VALID = 1 ∧ t.pwr = { s.pwr with t0 := t.clk.mono, off := false } ∧ t.live = s.live ∧ t.man = s.man ∧
      (0 < s.lgbRoom → (t.lgb.buf.any fun r => decide (r.num = s.lgb.next) && decide (r.typ = 5)) = true) ∧
      (s.pwr.verified = false → ([0, 1, 2].all fun p => t.pinLevel (.drven p) == .low) = true) ∧
      (s.pwr.verified = false → ((List.range 512).all fun k => t.slewClass k == 1) = true) := by
  have hx := exec_resetRelease hc hh elapsed
  rw [hv, if_pos rfl] at hx
  refine answers_of_out_congr hx ?_
  obtain ⟨hcause', hcycles, hsecs, hptp, hnum, hvalid, hpwr, hlive, hman, hlgb⟩ := s.aonRun_shown elapsed
  generalize (s.aonRun elapsed).showFuses = u at *
  have hclk : u.released.clk = u.clk := u.released_only .clk (by decide)
  have hxing : u.released.xing = u.xing := u.released_only .xing (by decide)
  have hlive' : u.released.live = u.live := u.released_only .live (by decide)
  have hman' : u.released.man = u.man := u.released_only .man (by decide)
  have hpwr' : u.released.pwr = { s.pwr with t0 := u.clk.mono, off := false } := by rw [u.released_pwr, hpwr]
  obtain ⟨hcycles', hsecs'⟩ := u.released_counts
  have hunver : s.pwr.verified = false → u.released.pwr.verified = false := fun h => by rw [hpwr', ← h]
  refine ⟨(State.released_cause (hcause' ▸ hcause)).trans hcause', ?_, hcycles'.trans hcycles, hsecs'.trans hsecs, ?_,
    (State.get_congr (u.released_regs pwrStat (by decide))).trans hvalid, ?_, hlive'.trans hlive, hman'.trans hman,
    fun h => ?_, fun h => ?_, fun h => ?_⟩
  · simp only [hclk, hptp]
  · simp only [hxing, hnum]
  · simp only [hpwr', hclk]
  · have hroom : 0 < u.lgbRoom := by rwa [State.lgbRoom, hlgb]
    exact hlgb ▸ State.released_record hroom
  · exact State.driverEnables_unverified (hunver h)
  · exact State.slewClasses_unverified (hunver h)

/-- What a start without valid always-on contents settles (R470, R525). -/
theorem State.aonCold_shown (s : State) : s.aonCold.showFuses.aon.cause = 1 ∧ s.aonCold.showFuses.aon.powerCycles = s.hld.endPcycle + 1 ∧
    s.aonCold.showFuses.aon.opSeconds = s.hld.endOpsec ∧ s.aonCold.showFuses.xing = {} ∧ s.aonCold.showFuses.pwr = s.pwr ∧
    s.aonCold.showFuses.live = s.live ∧ s.aonCold.showFuses.man = s.man := ⟨rfl, rfl, rfl, rfl, rfl, rfl, rfl⟩

theorem resetRelease_invalid (s : State) (elapsed : Nat) (hc : s.get pwrReset_CAUSE = 0) (hh : s.pwr.heat = false) (hv : s.aon.valid = false) :
    answers (.resetRelease elapsed) s fun t =>
      t.get pwrReset_CAUSE = 1 ∧ t.aon.powerCycles = s.hld.endPcycle + 1 ∧ t.aon.opSeconds = s.hld.endOpsec ∧ t.xing.valid = false ∧
      t.pwr = { s.pwr with t0 := t.clk.mono, off := false } ∧ t.live = s.live ∧ t.man = s.man := by
  have hx := exec_resetRelease hc hh elapsed
  rw [hv, if_neg (by decide)] at hx
  refine answers_of_out_congr hx ?_
  obtain ⟨hcause, hcycles, hsecs, hxing, hpwr, hlive, hman⟩ := s.aonCold_shown
  generalize s.aonCold.showFuses = u at *
  have hclk : u.released.clk = u.clk := u.released_only .clk (by decide)
  have hxing' : u.released.xing = u.xing := u.released_only .xing (by decide)
  have hlive' : u.released.live = u.live := u.released_only .live (by decide)
  have hman' : u.released.man = u.man := u.released_only .man (by decide)
  obtain ⟨hcycles', hsecs'⟩ := u.released_counts
  refine ⟨(State.released_cause (by rw [hcause]; decide)).trans hcause, hcycles'.trans hcycles, hsecs'.trans hsecs, ?_, ?_,
    hlive'.trans hlive, hman'.trans hman⟩
  · simp only [hxing', hxing]
  · simp only [u.released_pwr, hclk, hpwr]

theorem resetRelease_hot (s : State) (elapsed : Nat) (hh : s.pwr.heat = true) : answers (.resetRelease elapsed) s fun t => t = s := by
  refine ⟨s, ?_, rfl⟩
  simp [exec, execResetRelease, hh, State.out_self]

theorem lpddr5Trained_answers (s : State) (h : s.pwr.verified = true ∨ s.flag mftStat_RESCUE = true) :
    answers .lpddr5Trained s fun t => t.pwr = { s.pwr with trained := true, dram := s.dramUsed } ∧ onlyIn [.pwr] s t := by
  have hx : exec .lpddr5Trained s = s.out { s with pwr := { s.pwr with trained := true, dram := s.dramUsed } } := by
    simp [exec, execLpddr5Trained, h]
  exact answers_of_out hx rfl rfl ⟨rfl, onlyIn_pwr s _ _ (by decide)⟩

theorem holdSenseWaitExpiry_answers (s : State) (hv : s.pwr.verified = true) (hm : s.pwr.mounted = false) (hw : s.pwr.waited = false)
    (hh : s.flag pwrStat_HOLD_OK = false) : answers .holdSenseWaitExpiry s fun t =>
      t.pwr = { s.pwr with waited := true } ∧ (s.evtOn 4 = true → s.waitersOn 4 = [] → 4 ∈ t.fry.latches) ∧
      (0 < s.lgbRoom → (t.lgb.buf.any fun r =>
        decide (r.num = s.lgb.next) && decide (r.typ = 0x10) && decide (slice r.payload 20 2 = be 2 4)) = true) ∧
      onlyIn (.pwr :: logParts) s t ∧ keepsRegs logRegs s t := by
  set u : State := { s with pwr := { s.pwr with waited := true } } with hu
  have hx : exec .holdSenseWaitExpiry s = s.out (u.raiseLog 4 []) := by
    simp [exec, execHoldSenseWaitExpiry, hv, hm, hw, hh, hu]
  refine answers_of_out hx (by simp [hu]) (by simp [hu]) ⟨by simp [hu], fun he hwait => ?_, fun hroom => ?_, ?_, ?_⟩
  · exact State.logRec_latched (u.raise_latch 4 he hwait) _ _ _ _
  · obtain ⟨r, hr, hnum, htyp, hname⟩ := (u.raise 4).logEvt_enters 4 [] (by simpa [State.lgbRoom] using hroom)
    refine List.any_eq_true.mpr ⟨r, hr, ?_⟩
    simp [hnum, htyp, hname, hu]
  · exact onlyIn_trans (onlyIn_pwr s _ _ (by decide)) (onlyIn_mono (u.raiseLog_only 4 []) (by decide))
  · exact keepsRegs_trans (keepsRegs_of_eq _ rfl) (u.raiseLog_regs 4 [])

/-- Settles O58: a release settles clocks and always-on domain (`State.aonRun`, `State.aonCold`), then `State.released` keeps them. -/
theorem startUpIsFollowed : Obligations.StartUpIsFollowed :=
  ⟨resetRelease_valid, resetRelease_invalid, fun s elapsed _ hh => resetRelease_hot s elapsed hh, lpddr5Trained_answers,
    holdSenseWaitExpiry_answers⟩

end Sys2Proof.Machine

/-! ## 02_crossing_time.md: anchor age, holdover, leap instant, time latch, late counters -/

namespace Sys2Proof.Machine

/-! ### Anchor age and leap -/

theorem State.showLock_only (s : State) : onlyIn [.regs] s s.showLock := s.set_only xingStatus_ANCHOR_LOCK _ _ (by decide)

theorem State.showLock_regs (s : State) : keepsRegs [xingStatus] s s.showLock := s.set_regs xingStatus_ANCHOR_LOCK _

theorem State.showLock_noAnchor {s : State} (h : s.anchorNow = none) : s.showLock.get xingStatus_ANCHOR_LOCK = 0 := by
  rw [State.showLock, State.get_set_bit _ _ _ rfl (by decide), h]
  simp [ofBool]

theorem State.anchorNow_none {s : State} (h : s.xing.anchor = none) : s.anchorNow = none := by simp [State.anchorNow, h]

theorem anchorAgeExpiry_answers (s : State) (h : 512 < s.xing.anchorAge) : answers .anchorAgeExpiry s fun t =>
    t.xing.anchor = none ∧ t.get xingStatus_ANCHOR_LOCK = 0 ∧ onlyIn [.xing, .regs] s t ∧ keepsRegs [xingStatus] s t := by
  let u : State := { s with xing := { s.xing with anchor := none, anchorFresh := false } }
  have hx : exec .anchorAgeExpiry s = s.out u.showLock := by simp [exec, execAnchorAgeExpiry, h, u]
  refine answers_of_out hx rfl rfl ⟨rfl, State.showLock_noAnchor (State.anchorNow_none rfl), ?_, ?_⟩
  · exact onlyIn_trans (onlyIn_xing s _ _ (by decide)) (onlyIn_mono u.showLock_only (by decide))
  · exact keepsRegs_trans (keepsRegs_of_eq _ rfl) u.showLock_regs

theorem ofSigned_lt (n : Nat) (i : Int) : ofSigned n i < 2 ^ n := by
  have h : (0 : Int) < ((2 ^ n : Nat) : Int) := by exact_mod_cast Nat.two_pow_pos n
  have hl := Int.emod_nonneg i h.ne'
  have hu := Int.emod_lt_of_pos i h
  simp only [ofSigned]
  omega

theorem leapInstant_answers (s : State) (l : Nat × Int) (h : s.xing.leap = some l) : answers .leapInstant s fun t =>
    t.get xingUtcOfs_OFFSET = ofSigned 16 l.2 ∧ t.get xingUtcOfs_PENDING = 0 ∧ t.xing = { s.xing with leap := none } ∧
    onlyIn (.xing :: evtParts) s t := by
  let u : State := { s with xing := { s.xing with leap := none } }
  let v := (u.set xingUtcOfs_OFFSET (ofSigned 16 l.2)).set xingUtcOfs_PENDING 0
  have hx : exec .leapInstant s = s.out (v.raise 31) := by simp [exec, execLeapInstant, h, u, v]
  have hreg : (v.raise 31).reg xingUtcOfs = v.reg xingUtcOfs := State.raise_reg _ _ _ (by decide)
  refine answers_of_out hx (by simp [u, v]) (by simp [u, v]) ⟨?_, ?_, by simp [u, v], ?_⟩
  · rw [State.get_congr (f := xingUtcOfs_OFFSET) hreg, State.get_set_other _ _ _ _ (by decide) (by decide) (by decide),
      State.get_set _ _ _ (by decide) (by decide)]
    exact Nat.mod_eq_of_lt (ofSigned_lt 16 l.2)
  · rw [State.get_congr (f := xingUtcOfs_PENDING) hreg, State.get_set _ _ _ (by decide) (by decide), Nat.zero_mod]
  · exact onlyIn_trans (onlyIn_xing s _ _ (by decide)) (onlyIn_trans (u.set_only xingUtcOfs_OFFSET _ _ (by decide))
      (onlyIn_trans (State.set_only _ xingUtcOfs_PENDING _ _ (by decide)) (onlyIn_mono (v.raise_only 31) (by decide))))

/-! ### Holdover -/

/-- A metrological record changes no register but MET_MLOG_STAT and FRY_CNT (R96, R97). -/
theorem State.mlogPut_regs (s : State) (typ detail : Nat) (rest : List Byte) : keepsRegs [metMlogStat, fryCnt] s (s.mlogPut typ detail rest) := by
  have hset : ∀ (t : State) (f : Fld) (v : Nat), f.addr = metMlogStat → keepsRegs [metMlogStat, fryCnt] t (t.set f v) := fun t f v hf =>
    keepsRegs_mono (t.set_regs f v) (by simp [hf])
  have hmark : ∀ (t : State) (c : Prop) [Decidable c] (f : Fld) (e : Nat), f.addr = metMlogStat →
      keepsRegs [metMlogStat, fryCnt] t (if c then (t.set f 1).raise e else t) := by
    intro t c _ f e hf
    split
    · exact keepsRegs_trans (hset t f 1 hf) (keepsRegs_mono (State.raise_regs _ e) (by decide))
    · exact keepsRegs_refl _ t
  unfold State.mlogPut
  split
  · exact hset s metMlogStat_OVERFLOW _ rfl
  · refine keepsRegs_trans ?_ (hmark _ _ metMlogStat_FULL 57 rfl)
    refine keepsRegs_trans ?_ (hmark _ _ metMlogStat_NEAR_FULL 56 rfl)
    exact keepsRegs_trans (keepsRegs_of_eq _ (s.sealedStore_regs tabMlog _ _)) (hset _ metMlogStat_COUNT _ rfl)

theorem State.mlog_regs (s : State) (typ detail : Nat) (payload : List Byte) : keepsRegs [metMlogStat, fryCnt] s (s.mlog typ detail payload) := by
  unfold State.mlog
  split
  · exact s.mlogPut_regs _ _ _
  · exact keepsRegs_of_eq _ rfl

theorem State.setFlag_regs (s : State) (k : Nat) : (s.setFlag k).regs = s.regs := s.sealedStore_regs tabFlag k [1]

/-- What follows an untrusted clock changes no register but TRF_STAT and FRY_CNT (R314). -/
theorem State.trustFollows_regs (s : State) (new : Nat) : keepsRegs [trfStat, fryCnt] s (s.trustFollows new) := by
  have hset (u : State) (v : Nat) (e : Nat) : keepsRegs [trfStat, fryCnt] u ((u.set trfStat_SUSPENDED v).raise e) :=
    keepsRegs_trans (keepsRegs_mono (u.set_regs trfStat_SUSPENDED v) (by decide)) (keepsRegs_mono (State.raise_regs _ e) (by decide))
  rw [State.trustFollows]
  split
  · refine keepsRegs_trans ?_ (keepsRegs_of_eq _ (State.setFlag_regs _ 5))
    exact keepsRegs_trans (t := { s with bil := { s.bil with trustBad := true } }) (keepsRegs_of_eq _ rfl) (hset _ 1 260)
  · split
    · rw [State.resumeCal]
      split
      · exact hset s 0 261
      · exact keepsRegs_refl _ s
    · exact keepsRegs_refl _ s

/-- A change of clock trust stands in TRF_CLOCK_TRUST once all that it brings is done (R70). -/
theorem State.setTrust_reg (s : State) (new cause : Nat) : (s.setTrust new cause).reg trfClockTrust =
    ((s.set trfClockTrust_STATE new).set trfClockTrust_CAUSE cause).reg trfClockTrust := by
  simp only [State.setTrust]
  rw [State.trustFollows_regs _ new trfClockTrust (by decide)]
  split
  · rw [State.mlog_regs _ _ _ _ trfClockTrust (by decide), State.raiseLog_reg _ _ _ _ (by decide) (by decide)]
  · rw [State.raiseLog_reg _ _ _ _ (by decide) (by decide)]

theorem State.setTrust_get (s : State) {new cause : Nat} (hn : new < 4) (hc : cause < 256) :
    (s.setTrust new cause).get trfClockTrust_STATE = new ∧ (s.setTrust new cause).get trfClockTrust_CAUSE = cause := by
  have hreg := s.setTrust_reg new cause
  constructor
  · rw [State.get_congr (f := trfClockTrust_STATE) hreg, State.get_set_other _ _ _ _ (by decide) (by decide) (by decide),
      State.get_set _ _ _ (by decide) (by decide)]
    exact Nat.mod_eq_of_lt hn
  · rw [State.get_congr (f := trfClockTrust_CAUSE) hreg, State.get_set _ _ _ (by decide) (by decide)]
    exact Nat.mod_eq_of_lt hc

theorem holdoverExpiry_answers (s : State) (p : Nat) (hok : s.xing.trustOk = true) (hst : s.get trfClockTrust_STATE = 1)
    (hp : s.aon.syncedPtp = some p) (hd : 72 * 3600 * nsPerSec ≤ s.clk.ptp - p) (ha : s.agrees = true) :
    answers .holdoverExpiry s fun t => t.get trfClockTrust_STATE = 2 ∧ t.get trfClockTrust_CAUSE = 2 := by
  have hx : exec .holdoverExpiry s = s.out (s.setTrust 2 0x02) := by
    have hpast : holdoverNs ≤ s.clk.ptp - p := hd
    simp [exec, execHoldoverExpiry, hok, State.trust, hst, State.sinceSynced, hp, hpast, ha]
  exact answers_of_out_congr hx (s.setTrust_get (by decide) (by decide))

/-! ### The time latch -/

/-- A granted write of a register without SL fields, with one copy for every interface, stores its fields and nothing else. -/
theorem State.storeWord_plain (s : State) (i : Iface) {a : Nat} (v : Word) {d : RegDesc} (hd : regDesc? a = some d)
    (hown : ownByIface a = false) (hwin : windowed a = none) (hoar : a ≠ Machine.oarCtrl 12 ∧ a ≠ Machine.oarCtrl 13) (hsl : ∀ f ∈ d.fields, f.acc ≠ .sl) :
    s.storeWord i a v = s.setReg a (writeFields i a s.sealOpen d.fields (s.reg a) v) :=
  State.storeWord_stored hd (regKey_plain i a hown hwin) (.inr (slAttempt_false (fun f hf => by simp [actsAsSl, hsl f hf, hoar]) _ _))

theorem xingLatch_desc : ∃ d, regDesc? xingLatch = some d ∧ ∀ f ∈ d.fields, f.acc ≠ .sl := ⟨_, rfl, by decide⟩

/-- The time does not depend on the latch registers. -/
theorem State.setReg_latch_time (s : State) (w : Word) : (s.setReg xingLatch w).xt = s.xt ∧ (s.setReg xingLatch w).coasting = s.coasting := by
  have hget (f : Fld) (h : f.addr ≠ xingLatch) : (s.setReg xingLatch w).get f = s.get f := by rw [State.get_setReg, if_neg h]
  have hperiod := hget xingPeriod_PERIOD (by decide)
  have hcoast := hget xingStatus_COASTING (by decide)
  constructor
  · simp only [State.xt, State.fraction, State.lastPeriod, State.period, hperiod, State.setReg_xing, State.setReg_clk, State.setReg_man]
  · simp only [State.coasting, State.flag, hcoast]

/-- The words that a latch captures, high to low (XING_LAT_XHI to XING_LAT_NS, R59). -/
theorem State.latchTime_reg (s : State) : s.latchTime.reg xingLatXhi = BitVec.ofNat 32 (s.xt / 2 ^ 32) ∧
    s.latchTime.reg xingLatXlo = BitVec.ofNat 32 s.xt ∧
    s.latchTime.reg xingLatShi = BitVec.ofNat 32 (ofBool s.coasting * 2 ^ 19 + s.clk.epoch % 8 * 2 ^ 16 + s.ptpSec / 2 ^ 32 % 65536) ∧
    s.latchTime.reg xingLatSlo = BitVec.ofNat 32 s.ptpSec ∧ s.latchTime.reg xingLatNs = BitVec.ofNat 32 (s.clk.ptp % nsPerSec) := by
  simp [State.latchTime, State.setWords, xingLatXhi, xingLatXlo, xingLatShi, xingLatSlo, xingLatNs]

theorem State.latchTime_only (s : State) : onlyIn [.regs] s s.latchTime := by
  rw [State.latchTime, State.setWords_frame]
  exact onlyIn_regs s _ _ (by decide)

theorem State.latchTime_regs (s : State) : keepsRegs [xingLatXhi, xingLatXlo, xingLatShi, xingLatSlo, xingLatNs] s s.latchTime := fun a ha => by
  simp only [List.mem_cons, not_or] at ha
  obtain ⟨hxhi, hxlo, hshi, hslo, hns, -⟩ := ha
  simp only [xingLatXhi, xingLatXlo, xingLatShi, xingLatSlo, xingLatNs] at hxhi hxlo hshi hslo hns
  simp [State.latchTime, State.setWords, xingLatXhi, hxhi, hxlo, hshi, hslo, hns]

/-- XING_LAT_SHI by its fields. -/
theorem latShi_fields (c : Bool) (e n : Nat) :
    let w : Word := BitVec.ofNat 32 (ofBool c * 2 ^ 19 + e % 8 * 2 ^ 16 + n % 65536)
    bitsOf w 19 19 = ofBool c ∧ bitsOf w 18 16 = e % 8 ∧ bitsOf w 15 0 = n % 65536 := by
  have hc : ofBool c ≤ 1 := by cases c <;> decide
  simp only [bitsOf, BitVec.toNat_ofNat, Nat.shiftRight_eq_div_pow]
  omega

theorem exec_xingLatch {s : State} {i : Iface} (hm : s.mayAccess i xingLatch true = true) :
    ∃ w, exec (.xingLatch i) s = s.out (s.setReg xingLatch w).latchTime := by
  obtain ⟨d, hd, hsl⟩ := xingLatch_desc
  have hstore := s.storeWord_plain i 1 hd (by decide) (by decide) (by decide) hsl
  refine ⟨writeFields i xingLatch s.sealOpen d.fields (s.reg xingLatch) 1, ?_⟩
  rw [← hstore]
  exact congrArg s.out (State.writeGate_granted s i xingLatch 1 (fun s => s.latchWrite 1) hm)

theorem xingLatch_answers (s : State) (i : Iface) (hm : s.mayAccess i xingLatch true = true) : answers (.xingLatch i) s fun t =>
    t.reg xingLatXhi = BitVec.ofNat 32 (s.xt / 2 ^ 32) ∧ t.reg xingLatXlo = BitVec.ofNat 32 s.xt ∧
    t.get xingLatShi_COAST = ofBool s.coasting ∧ t.get xingLatShi_EPOCH = s.clk.epoch % 8 ∧
    t.get xingLatShi_SEC_HI = s.ptpSec / 2 ^ 32 % 65536 ∧
    t.reg xingLatSlo = BitVec.ofNat 32 s.ptpSec ∧ t.reg xingLatNs = BitVec.ofNat 32 (s.clk.ptp % nsPerSec) ∧
    onlyIn [.regs] s t ∧ keepsRegs [xingLatch, xingLatXhi, xingLatXlo, xingLatShi, xingLatSlo, xingLatNs] s t := by
  obtain ⟨w, hx⟩ := exec_xingLatch hm
  let u := s.setReg xingLatch w
  obtain ⟨hxt, hcoast⟩ := s.setReg_latch_time w
  obtain ⟨hxhi, hxlo, hshi, hslo, hns⟩ := u.latchTime_reg
  have honly := onlyIn_trans (s.setReg_only xingLatch w _ (by decide)) u.latchTime_only
  obtain ⟨hc, he, hn⟩ := latShi_fields u.coasting s.clk.epoch (s.ptpSec / 2 ^ 32)
  refine answers_of_out hx (honly .pending (by decide)) (honly .fuses (by decide)) ⟨hxhi.trans (by rw [hxt]), hxlo.trans (by rw [hxt]),
    ?_, ?_, ?_, hslo, hns, honly, ?_⟩
  · exact (congrArg (bitsOf · 19 19) hshi).trans (hc.trans (by rw [hcoast]))
  · exact (congrArg (bitsOf · 18 16) hshi).trans he
  · exact (congrArg (bitsOf · 15 0) hshi).trans hn
  · exact keepsRegs_trans (keepsRegs_mono (s.setReg_regs xingLatch w) (by decide)) (keepsRegs_mono u.latchTime_regs (by decide))

/-! ### The late counters -/

/-- XING_LATE_q: POLICY, FAR and LATE are read only, CLR is written only. -/
theorem xingLate_desc : ∀ q, q < 256 → regDesc? (xingLate q) =
    some ⟨0x100400, [(256, 0x4)], [⟨31, 31, .ro⟩, ⟨30, 30, .wo⟩, ⟨23, 16, .ro⟩, ⟨15, 0, .ro⟩]⟩ := by decide +kernel

theorem xingLate_place : ∀ q, q < 256 → ownByIface (xingLate q) = false ∧ windowed (xingLate q) = none ∧
    xingLate q ≠ oarCtrl 12 ∧ xingLate q ≠ oarCtrl 13 := by decide +kernel

/-- A write of XING_LATE_q leaves POLICY. -/
theorem State.storeWord_late (s : State) (i : Iface) {q : Nat} (hq : q < 256) (v : Word) :
    ∃ w, s.storeWord i (xingLate q) v = s.setReg (xingLate q) w ∧ bitsOf w 31 31 = bitsOf (s.reg (xingLate q)) 31 31 := by
  obtain ⟨hown, hwin, hoar⟩ := xingLate_place q hq
  refine ⟨_, s.storeWord_plain i v (xingLate_desc q hq) hown hwin hoar (by decide), ?_⟩
  have hsl : ∀ f : FieldDesc, f.acc ≠ .sl → actsAsSl i (xingLate q) f = false := fun f hf => by simp [actsAsSl, hf, hoar]
  simp only [writeFields, List.foldl_cons, List.foldl_nil, hsl ⟨31, 31, .ro⟩ (by decide), hsl ⟨30, 30, .wo⟩ (by decide),
    hsl ⟨23, 16, .ro⟩ (by decide), hsl ⟨15, 0, .ro⟩ (by decide), fieldNew, Bool.false_and, Bool.false_eq_true, if_false]
  rw [bitsOf_putBits_other _ _ _ _ _ _ (by decide) (by decide) (by decide), bitsOf_putBits_other _ _ _ _ _ _ (by decide) (by decide) (by decide),
    bitsOf_putBits_other _ _ _ _ _ _ (by decide) (by decide) (by decide), putBits_bitsOf _ _ _ (by decide) (by decide)]

theorem xingLateClear_answers (s : State) (i : Iface) (q : Nat) (hq : q < 256) (hm : s.mayAccess i (xingLate q) true = true) :
    answers (.xingLateClear i q) s fun t =>
      t.get (xingLate_LATE q) = 0 ∧ t.get (xingLate_FAR q) = 0 ∧ t.get (xingLate_POLICY q) = s.get (xingLate_POLICY q) ∧
      onlyIn [.regs] s t ∧ keepsRegs [xingLate q] s t := by
  obtain ⟨w, hw, hpolicy⟩ := s.storeWord_late i hq 0x40000000
  let u := s.setReg (xingLate q) w
  have hx : exec (.xingLateClear i q) s = s.out ((u.set (xingLate_LATE q) 0).set (xingLate_FAR q) 0) := by
    have hgate := State.writeGate_granted s i (xingLate q) 0x40000000 (fun s => s.lateWrite q 0x40000000) hm
    rw [hw] at hgate
    simp only [exec, execXingLateClear, Nat.mod_eq_of_lt hq, hgate]
    rfl
  have hother (v : State) (f g : Fld) (hl : f.lo ≤ f.hi) (hh : f.hi < 32) (hd : g.hi < f.lo ∨ f.hi < g.lo) : (v.set f 0).get g = v.get g :=
    State.get_set_other v f g 0 hl hh (.inr hd)
  have hfar : (xingLate_FAR q).lo = 16 ∧ (xingLate_FAR q).hi = 23 := ⟨rfl, rfl⟩
  have hlate : (xingLate_LATE q).lo = 0 ∧ (xingLate_LATE q).hi = 15 := ⟨rfl, rfl⟩
  have hpol : (xingLate_POLICY q).lo = 31 := rfl
  refine answers_of_out hx rfl rfl ⟨?_, ?_, ?_, ?_, ?_⟩
  · rw [hother _ (xingLate_FAR q) (xingLate_LATE q) (by omega) (by omega) (by omega), State.get_set _ _ _ (by omega) (by omega), Nat.zero_mod]
  · rw [State.get_set _ _ _ (by omega) (by omega), Nat.zero_mod]
  · rw [hother _ (xingLate_FAR q) (xingLate_POLICY q) (by omega) (by omega) (by omega),
      hother _ (xingLate_LATE q) (xingLate_POLICY q) (by omega) (by omega) (by omega), State.get_setReg, if_pos (show (xingLate_POLICY q).addr = xingLate q from rfl)]
    exact hpolicy
  · exact onlyIn_trans (s.setReg_only _ _ _ (by decide)) (onlyIn_trans (u.set_only (xingLate_LATE q) _ _ (by decide))
      (State.set_only _ (xingLate_FAR q) _ _ (by decide)))
  · exact keepsRegs_trans (s.setReg_regs _ _) (keepsRegs_trans (u.set_regs (xingLate_LATE q) _) (State.set_regs _ (xingLate_FAR q) _))

/-- Settles O11, command by command. -/
theorem clockCommands : Obligations.ClockCommands :=
  ⟨anchorAgeExpiry_answers, holdoverExpiry_answers, leapInstant_answers, xingLatch_answers, xingLateClear_answers⟩

end Sys2Proof.Machine

/-! ## 07_ethernet_gangway.md: the PTP servo, masters, messages -/

namespace Sys2Proof.Machine

/-! ### What clock trust may change (R68 to R71) -/

/-- The parts that a clock-trust transition, and what follows it, may change. -/
def trustParts : List Part := .aon :: .live :: .img :: .nand :: .met :: .bil :: .xing :: logParts

/-- The registers that it may change. -/
def trustRegs : List Nat := trfClockTrust :: trfStat :: metMlogStat :: logRegs

theorem State.mlogPut_only (s : State) (typ detail : Nat) (rest : List Byte) : onlyIn trustParts s (s.mlogPut typ detail rest) := by
  have hmark : ∀ (t : State) (c : Prop) [Decidable c] (f : Fld) (e : Nat), onlyIn trustParts t (if c then (t.set f 1).raise e else t) := by
    intro t c _ f e
    split
    · exact onlyIn_trans (t.set_only f 1 _ (by decide)) (onlyIn_mono (State.raise_only _ e) (by decide))
    · exact onlyIn_refl _ t
  unfold State.mlogPut
  split
  · exact s.set_only metMlogStat_OVERFLOW _ _ (by decide)
  · refine onlyIn_trans ?_ (hmark _ _ metMlogStat_FULL 57)
    refine onlyIn_trans ?_ (hmark _ _ metMlogStat_NEAR_FULL 56)
    exact onlyIn_trans (onlyIn_mono (s.sealedStore_only tabMlog _ _) (by decide)) (State.set_only _ metMlogStat_COUNT _ _ (by decide))

theorem State.mlog_only (s : State) (typ detail : Nat) (payload : List Byte) : onlyIn trustParts s (s.mlog typ detail payload) := by
  unfold State.mlog
  split
  · exact s.mlogPut_only _ _ _
  · exact onlyIn_met s _ _ (by decide)

theorem State.setFlag_only (s : State) (k : Nat) : onlyIn trustParts s (s.setFlag k) := by
  have hstore : onlyIn trustParts s (s.sealedStore tabFlag k [1]) := onlyIn_mono (s.sealedStore_only tabFlag k [1]) (by decide)
  have hflags (u : State) (m : Metrology) (b : Billing) : onlyIn trustParts u { u with met := m, bil := b } :=
    onlyIn_trans (onlyIn_met u m _ (by decide)) (onlyIn_bil { u with met := m } b _ (by decide))
  exact onlyIn_trans hstore (hflags _ _ _)

theorem State.trustFollows_only (s : State) (new : Nat) : onlyIn trustParts s (s.trustFollows new) := by
  have hset (u : State) (v e : Nat) : onlyIn trustParts u ((u.set trfStat_SUSPENDED v).raise e) :=
    onlyIn_trans (u.set_only trfStat_SUSPENDED v _ (by decide)) (onlyIn_mono (State.raise_only _ e) (by decide))
  rw [State.trustFollows]
  split
  · refine onlyIn_trans ?_ (State.setFlag_only _ 5)
    exact onlyIn_trans (onlyIn_bil s { s.bil with trustBad := true } _ (by decide)) (hset _ 1 260)
  · split
    · rw [State.resumeCal]
      split
      · exact hset s 0 261
      · exact onlyIn_refl _ s
    · exact onlyIn_refl _ s

/-- A transition: the register's fields, event 26, the Logbook record; then the metrological record and what follows. -/
theorem State.setTrust_eq (s : State) (new cause : Nat) : ∃ d, s.setTrust new cause =
    State.trustFollows (if 2 ≤ s.trust ∨ 2 ≤ new then
      (((s.set trfClockTrust_STATE new).set trfClockTrust_CAUSE cause).raiseLog 26 d).mlog 0x06 (s.trust * 256 + new) (be 1 cause)
      else ((s.set trfClockTrust_STATE new).set trfClockTrust_CAUSE cause).raiseLog 26 d) new := ⟨_, rfl⟩

theorem State.setTrust_only (s : State) (new cause : Nat) : onlyIn trustParts s (s.setTrust new cause) := by
  obtain ⟨d, hd⟩ := s.setTrust_eq new cause
  rw [hd]
  refine onlyIn_trans ?_ (State.trustFollows_only _ new)
  have hlog : onlyIn trustParts s (((s.set trfClockTrust_STATE new).set trfClockTrust_CAUSE cause).raiseLog 26 d) :=
    onlyIn_trans (s.set_only trfClockTrust_STATE new _ (by decide)) (onlyIn_trans (State.set_only _ trfClockTrust_CAUSE cause _ (by decide))
      (onlyIn_mono (State.raiseLog_only _ 26 d) (by decide)))
  split
  · exact onlyIn_trans hlog (State.mlog_only _ _ _ _)
  · exact hlog

theorem State.setTrust_regs (s : State) (new cause : Nat) : keepsRegs trustRegs s (s.setTrust new cause) := by
  obtain ⟨d, hd⟩ := s.setTrust_eq new cause
  rw [hd]
  refine keepsRegs_trans ?_ (keepsRegs_mono (State.trustFollows_regs _ new) (by decide))
  have hlog : keepsRegs trustRegs s (((s.set trfClockTrust_STATE new).set trfClockTrust_CAUSE cause).raiseLog 26 d) :=
    keepsRegs_trans (keepsRegs_mono (s.set_regs trfClockTrust_STATE new) (by decide))
      (keepsRegs_trans (keepsRegs_mono (State.set_regs _ trfClockTrust_CAUSE cause) (by decide))
        (keepsRegs_mono (State.raiseLog_regs _ 26 d) (by decide)))
  split
  · exact keepsRegs_trans hlog (keepsRegs_mono (State.mlog_regs _ _ _ _) (by decide))
  · exact hlog

/-- The evaluation is one transition at most: to SYNCED with a new SYNCED instant, to another state, or none (R70). -/
theorem State.trustEval_cases (s : State) : s.trustEval = s ∨ s.trustEval = s.noteSynced ∨ (∃ new cause, s.trustEval = s.setTrust new cause) ∨
    s.trustEval = s.trustSynced := by
  rw [State.trustEval]
  grind

theorem State.noteSynced_only (s : State) : onlyIn trustParts s s.noteSynced := onlyIn_aon s _ _ (by decide)

theorem State.noteSynced_regs (s : State) : keepsRegs trustRegs s s.noteSynced := keepsRegs_of_eq _ rfl

theorem State.trustSynced_only (s : State) : onlyIn trustParts s s.trustSynced := by
  rw [State.trustSynced]
  refine onlyIn_trans ?_ (State.noteSynced_only _)
  refine onlyIn_trans ?_ (State.setTrust_only _ 0 0)
  split
  · exact onlyIn_xing s _ _ (by decide)
  · exact onlyIn_refl _ s

theorem State.trustSynced_regs (s : State) : keepsRegs trustRegs s s.trustSynced := by
  rw [State.trustSynced]
  refine keepsRegs_trans ?_ (State.noteSynced_regs _)
  refine keepsRegs_trans ?_ (State.setTrust_regs _ 0 0)
  split
  · exact keepsRegs_of_eq _ rfl
  · exact keepsRegs_refl _ s

theorem State.trustEval_only (s : State) : onlyIn trustParts s s.trustEval := by
  rcases s.trustEval_cases with h | h | ⟨new, cause, h⟩ | h <;> rw [h]
  · exact onlyIn_refl _ s
  · exact s.noteSynced_only
  · exact s.setTrust_only new cause
  · exact s.trustSynced_only

theorem State.trustEval_regs (s : State) : keepsRegs trustRegs s s.trustEval := by
  rcases s.trustEval_cases with h | h | ⟨new, cause, h⟩ | h <;> rw [h]
  · exact keepsRegs_refl _ s
  · exact s.noteSynced_regs
  · exact s.setTrust_regs new cause
  · exact s.trustSynced_regs


/-! ### Lock, port states, masters -/

theorem State.unlockServo_eth (s : State) : s.unlockServo.eth = { s.eth with lockRun := 0 } := by
  rw [State.unlockServo]
  split <;> simp

theorem State.unlockServo_only (s : State) : onlyIn (.eth :: evtParts) s s.unlockServo := by
  have he : onlyIn (.eth :: evtParts) s { s with eth := { s.eth with lockRun := 0 } } := onlyIn_eth s _ _ (by decide)
  rw [State.unlockServo]
  simp only
  split
  · exact onlyIn_trans he (onlyIn_trans (State.set_only _ ptpStat_LOCKED 0 _ (by decide)) (onlyIn_mono (State.raise_only _ 163) (by decide)))
  · exact he

/-- After it, LOCKED is 0 and the rest of PTP_STAT as before. -/
theorem State.unlockServo_stat (s : State) : s.unlockServo.get ptpStat_LOCKED = 0 ∧
    (∀ f : Fld, f.addr = ptpStat → f.hi < 8 → s.unlockServo.get f = s.get f) ∧ keepsRegs [ptpStat, fryCnt] s s.unlockServo := by
  rw [State.unlockServo]
  simp only
  split
  · have hreg := State.raise_reg (State.set { s with eth := { s.eth with lockRun := 0 } } ptpStat_LOCKED 0) 163 ptpStat (by decide)
    refine ⟨?_, fun f ha hf => ?_, ?_⟩
    · rw [State.get_congr (f := ptpStat_LOCKED) hreg, State.get_set _ _ _ (by decide) (by decide), Nat.zero_mod]
    · rw [State.get_congr (ha ▸ hreg), State.get_set_other _ _ _ _ (by decide) (by decide) (.inr (.inl hf))]
      rfl
    · exact keepsRegs_trans (t := { s with eth := { s.eth with lockRun := 0 } }) (keepsRegs_of_eq _ rfl)
        (keepsRegs_trans (keepsRegs_mono (State.set_regs _ ptpStat_LOCKED 0) (by decide)) (keepsRegs_mono (State.raise_regs _ 163) (by decide)))
  · rename_i h
    refine ⟨?_, fun f _ _ => rfl, keepsRegs_of_eq _ rfl⟩
    simpa [State.flag] using h

/-- The state field of a port. -/
def ptpStateFld (x : Nat) : Fld := if x = 0 then ptpStat_STATE_A else ptpStat_STATE_B

theorem State.ptpState_eq (s : State) (x : Nat) : s.ptpState x = s.get (ptpStateFld x) := by
  rw [State.ptpState, ptpStateFld]
  split <;> rfl

theorem ptpStateFld_place (x : Nat) : (ptpStateFld x).addr = ptpStat ∧ (ptpStateFld x).lo ≤ (ptpStateFld x).hi ∧ (ptpStateFld x).hi < 8 ∧
    (ptpStateFld x).hi + 1 - (ptpStateFld x).lo = 4 := by
  rw [ptpStateFld]
  split <;> decide

theorem State.ptpState_congr {s t : State} (h : t.reg ptpStat = s.reg ptpStat) (x : Nat) : t.ptpState x = s.ptpState x := by
  rw [State.ptpState_eq, State.ptpState_eq]
  exact State.get_congr ((ptpStateFld_place x).1 ▸ h)

theorem State.unlockServo_state (s : State) (x : Nat) : s.unlockServo.ptpState x = s.ptpState x := by
  obtain ⟨ha, -, hh, -⟩ := ptpStateFld_place x
  rw [State.ptpState_eq, State.ptpState_eq, s.unlockServo_stat.2.1 _ ha hh]

theorem State.trustEval_state (s : State) (x : Nat) : s.trustEval.ptpState x = s.ptpState x :=
  State.ptpState_congr (s.trustEval_regs ptpStat (by decide)) x

theorem State.setPtpState_only (s : State) (x st : Nat) : onlyIn evtParts s (s.setPtpState x st) := by
  rw [State.setPtpState]
  split
  · exact onlyIn_refl _ s
  · exact onlyIn_trans (s.set_only _ st _ (by decide)) (State.raise_only _ 164)

theorem State.setPtpState_eq (s : State) (x st : Nat) : s.setPtpState x st =
    if s.ptpState x = st then s else (s.set (ptpStateFld x) st).raise 164 := rfl

theorem State.setPtpState_state (s : State) (x : Nat) {st : Nat} (h : st < 16) : (s.setPtpState x st).ptpState x = st := by
  obtain ⟨ha, hl, hh, hw⟩ := ptpStateFld_place x
  rw [State.setPtpState_eq]
  split
  · assumption
  · rw [State.ptpState_congr (State.raise_reg _ 164 ptpStat (by decide)), State.ptpState_eq, State.get_set _ _ _ hl (by omega), hw]
    exact Nat.mod_eq_of_lt h

/-- The other port's state stays. -/
theorem State.setPtpState_other (s : State) {x y : Nat} (st : Nat) (h : (y = 0) ≠ (x = 0)) : (s.setPtpState x st).ptpState y = s.ptpState y := by
  have hd : (ptpStateFld y).hi < (ptpStateFld x).lo ∨ (ptpStateFld x).hi < (ptpStateFld y).lo := by
    by_cases hx : x = 0 <;> by_cases hy : y = 0
    · simp [hx, hy] at h
    · exact .inr (by simp [ptpStateFld, hx, hy, ptpStat_STATE_A, ptpStat_STATE_B])
    · exact .inl (by simp [ptpStateFld, hx, hy, ptpStat_STATE_A, ptpStat_STATE_B])
    · simp [hx, hy] at h
  obtain ⟨-, hl, hh, -⟩ := ptpStateFld_place x
  rw [State.setPtpState_eq]
  split
  · rfl
  · rw [State.ptpState_congr (State.raise_reg _ 164 ptpStat (by decide)), State.ptpState_eq, State.ptpState_eq,
      State.get_set_other _ _ _ _ hl (by omega) (.inr hd)]

theorem State.leaveSlave_state (s : State) (x : Nat) {st : Nat} (h : st < 16) : (s.leaveSlave x st).ptpState x = st := by
  rw [State.leaveSlave]
  split
  · rw [State.trustEval_state, State.unlockServo_state, State.setPtpState_state _ _ h]
  · exact s.setPtpState_state x h

theorem State.leaveSlave_other (s : State) {x y : Nat} (st : Nat) (h : (y = 0) ≠ (x = 0)) : (s.leaveSlave x st).ptpState y = s.ptpState y := by
  rw [State.leaveSlave]
  split
  · rw [State.trustEval_state, State.unlockServo_state, State.setPtpState_other _ _ h]
  · exact s.setPtpState_other st h

/-- Leaving the slave state changes no more of the ports' content than the run of small offsets. -/
theorem State.leaveSlave_eth (s : State) (x st : Nat) : (s.leaveSlave x st).eth = { s.eth with lockRun := (s.leaveSlave x st).eth.lockRun } := by
  have hset : (s.setPtpState x st).eth = s.eth := s.setPtpState_only x st .eth (by decide)
  rw [State.leaveSlave]
  split
  · have htrust : ((s.setPtpState x st).unlockServo).trustEval.eth = (s.setPtpState x st).unlockServo.eth := State.trustEval_only _ .eth (by decide)
    rw [htrust, State.unlockServo_eth, hset]
  · rw [hset]

theorem State.dropMaster_master (s : State) : s.dropMaster.eth.master = 0 := by
  rw [State.dropMaster]
  split
  · assumption
  · simp

theorem State.dropMaster_regs (s : State) : keepsRegs [fryCnt] s s.dropMaster := by
  rw [State.dropMaster]
  split
  · exact keepsRegs_refl _ s
  · exact keepsRegs_trans (t := { s with eth := { s.eth with master := 0 } }) (keepsRegs_of_eq _ rfl) (State.raise_regs _ 165)

/-! ### Sync -/

theorem ptpSyncWaits_answers (s : State) (x : Nat) (b : List Byte) (hr : s.ptpRuns = true) (hs : s.ptpState x = 9) (ht : ptpType b 0 = 0)
    (hd : beAt b 4 1 = s.ptpDomain) (hm : s.fromMaster b 0 = true) (h2 : ptpTwoStep b 0 = true) : answers (.ptpSyncReceived x b) s fun t =>
      (t.slave x).wait = some (beAt b 30 2, (s.ethRx x).ptp, toSigned 64 (beAt b 8 8)) ∧ onlyIn [.eth] s t := by
  have hx : exec (.ptpSyncReceived x b) s =
      s.out (s.setSlave x { s.slave x with wait := some (beAt b 30 2, (s.ethRx x).ptp, toSigned 64 (beAt b 8 8)) }) := by
    simp [exec, execPtpSyncReceived, hr, hs, ht, hd, hm, State.syncIn, h2]
  refine answers_of_out hx rfl rfl ⟨?_, onlyIn_eth s _ _ (by decide)⟩
  simp [State.slave, State.setSlave]

/-- The lock rule changes PTP_STAT and the run of small offsets (R210). -/
theorem State.servoLock_frame (s : State) (off : Int) : onlyIn (.eth :: evtParts) s (s.servoLock off) ∧
    keepsRegs [ptpStat, fryCnt] s (s.servoLock off) := by
  have hlock (u : State) (c : Prop) [Decidable c] : onlyIn (.eth :: evtParts) u (if c then (u.set ptpStat_LOCKED 1).raise 162 else u) ∧
      keepsRegs [ptpStat, fryCnt] u (if c then (u.set ptpStat_LOCKED 1).raise 162 else u) := by
    split
    · exact ⟨onlyIn_trans (u.set_only ptpStat_LOCKED 1 _ (by decide)) (onlyIn_mono (State.raise_only _ 162) (by decide)),
        keepsRegs_trans (keepsRegs_mono (u.set_regs ptpStat_LOCKED 1) (by decide)) (keepsRegs_mono (State.raise_regs _ 162) (by decide))⟩
    · exact ⟨onlyIn_refl _ u, keepsRegs_refl _ u⟩
  rw [State.servoLock]
  split
  · exact ⟨s.unlockServo_only, s.unlockServo_stat.2.2⟩
  · have he (n : Nat) : onlyIn (.eth :: evtParts) s { s with eth := { s.eth with lockRun := n } } := onlyIn_eth s _ _ (by decide)
    have hr (n : Nat) : keepsRegs [ptpStat, fryCnt] s { s with eth := { s.eth with lockRun := n } } := keepsRegs_of_eq _ rfl
    exact ⟨onlyIn_trans (he _) (hlock _ _).1, keepsRegs_trans (hr _) (hlock _ _).2⟩

/-- A backstep changes what a transition does, and begins the backstep hold (R71, R341). -/
theorem State.beginHold_frame (s : State) : onlyIn trustParts s s.beginHold ∧ keepsRegs [bilStat, fryCnt] s s.beginHold := by
  rw [State.beginHold]
  split
  · exact ⟨onlyIn_refl _ s, keepsRegs_refl _ s⟩
  · exact ⟨onlyIn_trans (s.set_only bilStat_HOLD 1 _ (by decide)) (onlyIn_trans (onlyIn_bil (s.set bilStat_HOLD 1) _ _ (by decide))
        (onlyIn_mono (State.raise_only _ 271) (by decide))),
      keepsRegs_trans (keepsRegs_mono (s.set_regs bilStat_HOLD 1) (by decide))
        (keepsRegs_trans (t := { s.set bilStat_HOLD 1 with bil := { (s.set bilStat_HOLD 1).bil with wantS := true } }) (keepsRegs_of_eq _ rfl)
          (keepsRegs_mono (State.raise_regs _ 271) (by decide)))⟩

theorem State.backstep_frame (s : State) : onlyIn trustParts s s.backstep ∧ keepsRegs (bilStat :: trustRegs) s s.backstep := by
  have hfirst (c : Prop) [Decidable c] : onlyIn trustParts s (if c then s.setTrust 2 0x04 else s) ∧
      keepsRegs (bilStat :: trustRegs) s (if c then s.setTrust 2 0x04 else s) := by
    split
    · exact ⟨s.setTrust_only 2 4, keepsRegs_mono (s.setTrust_regs 2 4) (by decide)⟩
    · exact ⟨onlyIn_refl _ s, keepsRegs_refl _ s⟩
  rw [State.backstep]
  obtain ⟨hparts, hregs⟩ := hfirst (s.trust ≠ 3 ∧ ¬(s.trust = 2 ∧ s.get trfClockTrust_CAUSE = 4))
  refine ⟨onlyIn_trans hparts (onlyIn_trans (onlyIn_mono (State.raise_only _ 27) (by decide)) (onlyIn_trans (State.mlog_only _ _ _ _)
      (State.beginHold_frame _).1)),
    keepsRegs_trans hregs (keepsRegs_trans (keepsRegs_mono (State.raise_regs _ 27) (by decide))
      (keepsRegs_trans (keepsRegs_mono (State.mlog_regs _ _ _ _) (by decide)) (keepsRegs_mono (State.beginHold_frame _).2 (by decide))))⟩

/-- A step moves PTP time and EPOCH, and no register but those of what follows it (R62). -/
theorem State.stepPtp_spec (s : State) (d : Int) :
    (s.stepPtp d).clk = { s.clk with ptp := shiftNs s.clk.ptp d, epoch := (s.clk.epoch + 1) % 8 } ∧
    keepsRegs (bilStat :: trustRegs) s (s.stepPtp d) := by
  let s1 : State := { s with clk := { s.clk with ptp := shiftNs s.clk.ptp d, epoch := (s.clk.epoch + 1) % 8 } }
  have hclk : (s1.raise 30).clk = s1.clk := State.raise_clk _ _
  have hregs : keepsRegs (bilStat :: trustRegs) s (s1.raise 30) :=
    keepsRegs_trans (t := s1) (keepsRegs_of_eq _ rfl) (keepsRegs_mono (s1.raise_regs 30) (by decide))
  rw [State.stepPtp]
  simp only
  split
  · exact ⟨((State.backstep_frame _).1 .clk (by decide)).trans hclk, keepsRegs_trans hregs (State.backstep_frame _).2⟩
  · exact ⟨hclk, hregs⟩

/-- The state once an offset is shown, judged for lock and trust (R209, R210). -/
def State.judged (s : State) (offset : Int) : State :=
  ((s.setReg ptpOffset (BitVec.ofNat 32 (ofSigned 32 (clampInt (-(2 ^ 31)) (2 ^ 31 - 1) offset)))).servoLock offset).trustEval

theorem State.judged_spec (s : State) (offset : Int) : (s.judged offset).clk = s.clk ∧
    (s.judged offset).reg ptpOffset = BitVec.ofNat 32 (ofSigned 32 (clampInt (-(2 ^ 31)) (2 ^ 31 - 1) offset)) ∧
    (s.judged offset).reg ptpServo = s.reg ptpServo := by
  let u := s.setReg ptpOffset (BitVec.ofNat 32 (ofSigned 32 (clampInt (-(2 ^ 31)) (2 ^ 31 - 1) offset)))
  obtain ⟨hlock, hregs⟩ := u.servoLock_frame offset
  have hreg (a : Nat) (ha : a ∉ [ptpStat, fryCnt]) (hb : a ∉ trustRegs) : (s.judged offset).reg a = u.reg a :=
    ((u.servoLock offset).trustEval_regs a hb).trans (hregs a ha)
  refine ⟨((u.servoLock offset).trustEval_only .clk (by decide)).trans (hlock .clk (by decide)), ?_, ?_⟩
  · rw [hreg ptpOffset (by decide) (by decide), State.reg_setReg, if_pos rfl]
  · rw [hreg ptpServo (by decide) (by decide), State.reg_setReg, if_neg (by decide)]

theorem State.servo_eq (s : State) (offset : Int) : s.servo offset =
    if max 1 ((s.judged offset).get ptpServo_STEP_US) * 1000 < offset.natAbs then
      State.trustEval (State.stepPtp { s.judged offset with clk := { (s.judged offset).clk with adj := toSigned 32 ((s.judged offset).reg ptpAdj).toNat } } (-offset))
    else (s.judged offset).setSlew := rfl

theorem State.servo_steps {s : State} {offset : Int} (h : max 1 (s.get ptpServo_STEP_US) * 1000 < offset.natAbs) :
    (s.servo offset).reg ptpOffset = BitVec.ofNat 32 (ofSigned 32 (clampInt (-(2 ^ 31)) (2 ^ 31 - 1) offset)) ∧
    (s.servo offset).clk.ptp = shiftNs s.clk.ptp (-offset) ∧ (s.servo offset).clk.epoch = (s.clk.epoch + 1) % 8 := by
  obtain ⟨hclk, hofs, hservo⟩ := s.judged_spec offset
  rw [State.servo_eq, State.get_congr (f := ptpServo_STEP_US) hservo, if_pos h]
  generalize s.judged offset = u at *
  let v : State := { u with clk := { u.clk with adj := toSigned 32 (u.reg ptpAdj).toNat } }
  obtain ⟨hstep, hregs⟩ := v.stepPtp_spec (-offset)
  have hc : (v.stepPtp (-offset)).trustEval.clk = (v.stepPtp (-offset)).clk := State.trustEval_only _ .clk (by decide)
  refine ⟨?_, ?_, ?_⟩
  · rw [State.trustEval_regs _ ptpOffset (by decide), hregs ptpOffset (by decide)]
    exact hofs
  · rw [hc, hstep, ← hclk]
  · rw [hc, hstep, ← hclk]

theorem State.servo_slews {s : State} {offset : Int} (h : offset.natAbs ≤ max 1 (s.get ptpServo_STEP_US) * 1000) :
    (s.servo offset).reg ptpOffset = BitVec.ofNat 32 (ofSigned 32 (clampInt (-(2 ^ 31)) (2 ^ 31 - 1) offset)) ∧
    (s.servo offset).clk = { s.clk with adj := (s.servo offset).clk.adj } := by
  obtain ⟨hclk, hofs, hservo⟩ := s.judged_spec offset
  rw [State.servo_eq, State.get_congr (f := ptpServo_STEP_US) hservo, if_neg (by omega)]
  generalize s.judged offset = u at *
  refine ⟨?_, ?_⟩
  · rw [← hofs]
    exact (State.reg_setReg _ ptpAdj ptpOffset _).trans (if_neg (by decide))
  · rw [← hclk]
    rfl

theorem ptpSync_answers (s : State) (x : Nat) (b : List Byte) (offset : Int) (hr : s.ptpRuns = true) (hs : s.ptpState x = 9)
    (ht : ptpType b 0 = 0) (hd : beAt b 4 1 = s.ptpDomain) (hm : s.fromMaster b 0 = true) (h2 : ptpTwoStep b 0 = false)
    (ho : offset = s.offsetOf x (syncSpan (ptpTimeAt b 34) (s.ethRx x).ptp (toSigned 64 (beAt b 8 8)))) :
    answers (.ptpSyncReceived x b) s fun t =>
      t.reg ptpOffset = BitVec.ofNat 32 (ofSigned 32 (clampInt (-(2 ^ 31)) (2 ^ 31 - 1) offset)) ∧
      (max 1 (s.get ptpServo_STEP_US) * 1000 < offset.natAbs →
        t.clk.ptp = shiftNs s.clk.ptp (-offset) ∧ t.clk.epoch = (s.clk.epoch + 1) % 8) ∧
      (offset.natAbs ≤ max 1 (s.get ptpServo_STEP_US) * 1000 → t.clk = { s.clk with adj := t.clk.adj }) := by
  have hx : exec (.ptpSyncReceived x b) s = s.out (s.syncIn x b) := congrArg s.out (if_pos ⟨hr, hs, ht, hd, hm⟩)
  obtain ⟨v, hv⟩ : ∃ v, s.syncIn x b = (s.setSlave x v).servo offset := by
    simp only [State.syncIn, h2, Bool.false_eq_true, if_false, State.takeSync, ← ho]
    exact ⟨_, rfl⟩
  rw [hv] at hx
  have hclk : (s.setSlave x v).clk = s.clk := rfl
  have hstep : (s.setSlave x v).get ptpServo_STEP_US = s.get ptpServo_STEP_US := rfl
  refine answers_of_out_congr hx ?_
  rw [← hstep, ← hclk]
  generalize s.setSlave x v = u
  by_cases h : max 1 (u.get ptpServo_STEP_US) * 1000 < offset.natAbs
  · obtain ⟨hofs, hptp, hepoch⟩ := State.servo_steps h
    exact ⟨hofs, fun _ => ⟨hptp, hepoch⟩, fun hle => absurd h (not_lt.mpr hle)⟩
  · obtain ⟨hofs, hslew⟩ := State.servo_slews (not_lt.mp h)
    exact ⟨hofs, fun hlt => absurd hlt h, fun _ => hslew⟩

/-! ### Timeouts, Announce -/

theorem syncTimeout_answers (s : State) (h : s.eth.ptpOn = true) : answers .syncTimeout s fun t =>
    t.get ptpStat_LOCKED = 0 ∧ t.eth = { s.eth with lockRun := 0 } := by
  have hx : exec .syncTimeout s = s.out s.unlockServo.trustEval := by simp [exec, execSyncTimeout, h]
  refine answers_of_out_congr hx ⟨?_, ?_⟩
  · exact (State.get_congr (s.unlockServo.trustEval_regs ptpStat (by decide))).trans s.unlockServo_stat.1
  · exact (s.unlockServo.trustEval_only .eth (by decide)).trans s.unlockServo_eth

theorem announceTimeout_slave_answers (s : State) (x : Nat) (hon : s.eth.ptpOn = true) (hp : s.ptpPort x = true) (hs : s.ptpState x = 9) :
    answers (.announceReceiptTimeout x) s fun t => t.ptpState x = 6 ∧ t.get ptpStat_LOCKED = 0 ∧ t.eth.master = 0 := by
  have hx : exec (.announceReceiptTimeout x) s = s.out (s.dropMaster.leaveSlave x 6) := by
    simp [exec, execAnnounceReceiptTimeout, hon, hp, hs]
  refine answers_of_out_congr hx ⟨State.leaveSlave_state _ x (by decide), ?_, ?_⟩
  · have hslave : s.dropMaster.ptpState x = 9 := (State.ptpState_congr (s.dropMaster_regs ptpStat (by decide)) x).trans hs
    have hlocked : (s.dropMaster.leaveSlave x 6).get ptpStat_LOCKED = 0 := by
      rw [State.leaveSlave, if_pos hslave, State.get_congr (State.trustEval_regs _ ptpStat (by decide)), (State.unlockServo_stat _).1]
    exact hlocked
  · have hm : (s.dropMaster.leaveSlave x 6).eth.master = 0 := by rw [State.leaveSlave_eth, s.dropMaster_master]
    exact hm

theorem announceTimeout_listening_answers (s : State) (x : Nat) (hon : s.eth.ptpOn = true) (hp : s.ptpPort x = true) (hs : s.ptpState x = 4) :
    answers (.announceReceiptTimeout x) s fun t => t.ptpState x = 6 ∧ t.eth = s.eth := by
  have hx : exec (.announceReceiptTimeout x) s = s.out (s.setPtpState x 6) := by
    simp [exec, execAnnounceReceiptTimeout, hon, hp, hs]
  exact answers_of_out_congr hx ⟨s.setPtpState_state x (by decide), s.setPtpState_only x 6 .eth (by decide)⟩

/-- The UTC offset that an Announce gives, its source, and what else it changes (R58). -/
theorem State.takeUtc_spec (s : State) (b : List Byte) :
    (s.takeUtc b).get xingUtcOfs_OFFSET = (if natBit (beAt b 7 1) 2 then beAt b 44 2 else s.manUtc) ∧
    (s.takeUtc b).get xingUtcOfs_FROM_PTP = ofBool (natBit (beAt b 7 1) 2) ∧ (s.takeUtc b).eth = s.eth ∧
    (s.takeUtc b).reg ptpStat = s.reg ptpStat := by
  have hofs : (if natBit (beAt b 7 1) 2 then beAt b 44 2 else s.manUtc) < 65536 := by
    split
    · simpa [beAt] using ofBe_lt ((List.range 2).map fun i => b.getD (44 + i) 0)
    · exact Nat.mod_lt _ (by decide)
  simp only [State.takeUtc]
  generalize (if natBit (beAt b 7 1) 2 then beAt b 44 2 else s.manUtc) = o at hofs ⊢
  let s1 := (s.set xingUtcOfs_OFFSET o).set xingUtcOfs_FROM_PTP (ofBool (natBit (beAt b 7 1) 2))
  have hreg (a : Nat) (ha : a ≠ fryCnt) : (s1.raiseIf (decide (s.get xingUtcOfs_OFFSET ≠ o)) 31).reg a = s1.reg a :=
    State.raiseIf_reg _ _ _ _ ha
  have hpend (u : State) (v : Nat) (f : Fld) (hf : f.hi < 17) : (u.set xingUtcOfs_PENDING v).get f = u.get f :=
    State.get_set_other _ _ _ _ (by decide) (by decide) (.inr (.inl hf))
  refine ⟨?_, ?_, by simp, ?_⟩
  · rw [hpend _ _ _ (by decide)]
    refine (State.get_congr (hreg xingUtcOfs (by decide))).trans ?_
    rw [State.get_set_other _ _ _ _ (by decide) (by decide) (by decide), State.get_set _ _ _ (by decide) (by decide)]
    exact Nat.mod_eq_of_lt hofs
  · rw [hpend _ _ _ (by decide)]
    refine (State.get_congr (hreg xingUtcOfs (by decide))).trans ?_
    exact State.get_set_bit _ _ _ rfl (by decide)
  · rw [State.reg_set, if_neg (by decide)]
    refine (hreg ptpStat (by decide)).trans ?_
    rw [State.reg_set, if_neg (by decide), State.reg_set, if_neg (by decide)]

theorem ptpAnnounce_answers (s : State) (x : Nat) (b : List Byte) (hr : s.ptpRuns = true) (hp : s.ptpPort x = true)
    (hd : beAt b 4 1 = s.ptpDomain) (hown : announceKey b < s.ownKey) (hbest : s.eth.master = 0 ∨ announceKey b < s.eth.master / 2 ^ 80)
    (hother : s.ptpState (1 - x) ≠ 9) : answers (.ptpAnnounceReceived x b) s fun t =>
      t.ptpState x = 9 ∧ t.eth.master = announceKey b * 2 ^ 80 + beAt b 20 10 ∧
      t.get xingUtcOfs_OFFSET = (if natBit (beAt b 7 1) 2 then beAt b 44 2 else s.manUtc) ∧
      t.get xingUtcOfs_FROM_PTP = ofBool (natBit (beAt b 7 1) 2) := by
  have hx : exec (.ptpAnnounceReceived x b) s = s.out (s.selectMaster x b) := by
    simp only [exec, execPtpAnnounceReceived]
    rw [if_neg (by simp [hr, hp, hd]), if_neg (not_le.mpr hown), if_pos (.inr (by simpa using hbest))]
  obtain ⟨u, hu⟩ : ∃ u, u = State.raiseIf { s with eth := { s.eth with master := announceKey b * 2 ^ 80 + beAt b 20 10 } }
      (s.eth.master % 2 ^ 80 ≠ beAt b 20 10) 165 := ⟨_, rfl⟩
  have hustate : u.ptpState (1 - x) ≠ 9 := by
    rw [hu, State.ptpState_congr (State.raiseIf_reg _ _ _ ptpStat (by decide))]
    exact hother
  have hueth : u.eth.master = announceKey b * 2 ^ 80 + beAt b 20 10 := by rw [hu, State.raiseIf_eth]
  have hselect : s.selectMaster x b = (u.setPtpState x 9).takeUtc b := by
    simp only [State.selectMaster, ← hu]
    rw [if_neg hustate]
  rw [hselect] at hx
  have hman : (u.setPtpState x 9).manUtc = s.manUtc := by
    rw [State.manUtc, State.manUtc, show (u.setPtpState x 9).man = u.man from u.setPtpState_only x 9 .man (by decide), hu, State.raiseIf_man]
  obtain ⟨hofs, hfrom, heth, hstat⟩ := (u.setPtpState x 9).takeUtc_spec b
  rw [hman] at hofs
  have hmaster : ((u.setPtpState x 9).takeUtc b).eth.master = announceKey b * 2 ^ 80 + beAt b 20 10 := by
    rw [heth, show (u.setPtpState x 9).eth = u.eth from u.setPtpState_only x 9 .eth (by decide), hueth]
  exact answers_of_out_congr hx ⟨(State.ptpState_congr hstat x).trans (u.setPtpState_state x (by decide)), hmaster, hofs, hfrom⟩

/-! ### Port initialisation -/

theorem State.ptpPort_congr {s t : State} (h : t.eth.cfg = s.eth.cfg) (x : Nat) : t.ptpPort x = s.ptpPort x := by
  simp only [State.ptpPort, State.ptpClock, h]

theorem ptpPortInit_answers (s : State) (h : s.eth.ptpOn = true) : answers .ptpPortInit s fun t =>
    t.eth.cfg = s.reg ptpCfg ∧ t.eth.master = 0 ∧ ∀ x ∈ List.range 2, t.ptpState x = if t.ptpPort x then 4 else 3 := by
  obtain ⟨u, hu⟩ : ∃ u : State, s.ptpInit = (u.leaveSlave 0 (if u.ptpPort 0 then 4 else 3)).leaveSlave 1
      (if (u.leaveSlave 0 (if u.ptpPort 0 then 4 else 3)).ptpPort 1 then 4 else 3) ∧ u.eth.cfg = s.reg ptpCfg ∧ u.eth.master = 0 :=
    ⟨_, rfl, s.dropMaster_regs ptpCfg (by decide), s.dropMaster_master⟩
  obtain ⟨hinit, hcfg, hmaster⟩ := hu
  have hx : exec .ptpPortInit s = s.out s.ptpInit := by simp [exec, execPtpPortInit, h]
  rw [hinit] at hx
  have hst (c : Bool) : (if c then 4 else 3) < 16 := by cases c <;> decide
  generalize hv : u.leaveSlave 0 (if u.ptpPort 0 then 4 else 3) = v at hx
  have hveth : v.eth = { u.eth with lockRun := v.eth.lockRun } := hv ▸ u.leaveSlave_eth 0 _
  have hteth := v.leaveSlave_eth 1 (if v.ptpPort 1 then 4 else 3)
  have hv0 : v.ptpState 0 = if u.ptpPort 0 then 4 else 3 := hv ▸ u.leaveSlave_state 0 (hst _)
  have ht0 := v.leaveSlave_other (x := 1) (y := 0) (if v.ptpPort 1 then 4 else 3) (by simp)
  have ht1 := v.leaveSlave_state 1 (hst (v.ptpPort 1))
  have hvcfg : v.eth.cfg = u.eth.cfg := by rw [hveth]
  have htcfg : (v.leaveSlave 1 (if v.ptpPort 1 then 4 else 3)).eth.cfg = v.eth.cfg := by rw [hteth]
  have hstate : ∀ x ∈ List.range 2, (v.leaveSlave 1 (if v.ptpPort 1 then 4 else 3)).ptpState x =
      if (v.leaveSlave 1 (if v.ptpPort 1 then 4 else 3)).ptpPort x then 4 else 3 := by
    intro x hx2
    rw [State.ptpPort_congr htcfg]
    have hx2' : x = 0 ∨ x = 1 := by have := List.mem_range.mp hx2; omega
    rcases hx2' with rfl | rfl
    · rw [ht0, hv0, State.ptpPort_congr hvcfg]
    · exact ht1
  exact answers_of_out_congr hx ⟨(htcfg.trans hvcfg).trans hcfg, (by rw [hteth, hveth]; exact hmaster), hstate⟩

/-! ### An item that joins a queue -/

theorem State.armedEntry_of_empty {s : State} (h : s.tst.entries = []) (kind : Nat) (p : TEntry → Bool) : s.armedEntry kind p = none := by
  rw [State.armedEntry, List.find?_eq_none]
  intro n _
  rw [State.entry, h]
  simp [smGet]

theorem State.perturbItem_of_empty {s : State} (h : s.tst.entries = []) (n : Nat) (it : Item) : s.perturbItem n it = (it, s) := by
  simp [State.perturbItem, State.everyNth, State.armedEntry_of_empty h]

/-- With nothing armed an item with room joins its queue at the tail (R390). -/
theorem State.produce_q {s : State} {n : Nat} {it : Item} (p : Producer) (h : s.tst.entries = []) (hu : s.qUsed n = true)
    (hw : (s.q n).waiters = []) (hr : it.words ≤ s.qFree n) :
    ((s.produce p n it).q n).items = (s.q n).items ++ [{ it with iseq := (s.q n).tail }] ∧
      ((s.produce p n it).q n).tail = ((s.q n).tail + 1) % 2 ^ 32 := by
  have hroom : s.qRoom n it.words = true := by simp [State.qRoom, hw, hr]
  have hq : (s.produce p n it).q n = { s.q n with
      items := (s.q n).items ++ [{ it with iseq := (s.q n).tail }], tail := ((s.q n).tail + 1) % 2 ^ 32,
      idleRun := (decide (s.get (whfQTmo_TIMEOUT n) ≠ 0) && !it.delayed) || (s.q n).idleRun } := by
    rw [State.produce, State.hwEnqueue, hu, hroom]
    simp only [Bool.not_true, Bool.false_eq_true, if_false, if_true, State.enqueueNow, State.perturbItem_of_empty h]
    rw [State.q, State.touchQ_whf]
    simp [State.setQ]
  rw [hq]
  exact ⟨rfl, rfl⟩

theorem State.everyNth_eth (s : State) (kind : Nat) (p : TEntry → Bool) : (s.everyNth kind p).2.eth = s.eth := by
  unfold State.everyNth
  simp only
  (repeat' split) <;> rfl

theorem State.perturbItem_eth (s : State) (n : Nat) (it : Item) : (s.perturbItem n it).2.eth = s.eth := by
  unfold State.perturbItem
  simp only
  split
  · exact s.everyNth_eth _ _
  · exact s.everyNth_eth _ _

theorem State.touchQ_eth (s : State) (n : Nat) (f : State → State) : (s.touchQ n f).eth = (f s).eth := by
  unfold State.touchQ
  simp only
  split <;> split <;> simp

theorem State.produce_eth (s : State) (p : Producer) (n : Nat) (it : Item) : (s.produce p n it).eth = s.eth := by
  unfold State.produce State.hwEnqueue
  split
  · rfl
  · split
    · simp only [State.enqueueNow]
      rw [State.touchQ_eth]
      exact s.perturbItem_eth n it
    · rfl

theorem State.queueEth_eth (s : State) (x kind : Nat) (t : Option Stamp) (b : List Byte) : (s.queueEth x kind t b).eth = s.eth := by
  simp only [State.queueEth]
  split
  · rw [State.produce_eth]
  · rfl

/-! ### The answer to a Pdelay_Req, the messages' numbers -/

@[simp] theorem dwordsAux_length (n : Nat) (b : List Byte) : (dwordsAux n b).length = n := by
  induction n generalizing b with
  | zero => rfl
  | succ n ih => simp [dwordsAux, ih]

@[simp] theorem dwords_length (b : List Byte) : (dwords b).length = (b.length + 7) / 8 := dwordsAux_length _ b

theorem State.macOf_length (s : State) (x : Nat) : (s.macOf x).length = 6 := padTo_length _ _

theorem State.ownIp_length (s : State) (v6 : Bool) : (s.ownIp v6).length = if v6 then 16 else 4 := by
  simp only [State.ownIp]
  cases h : s.man.ipAddrs.find? fun a => a.length == if v6 then 16 else 4 with
  | none => exact be_length _ _
  | some a => simpa using List.find?_some h

theorem State.ptpHeader_length (s : State) (x typ len flags : Nat) (corr : Int) (seq : Nat) :
    (s.ptpHeader x typ len flags corr seq).length = 34 := by simp [State.ptpHeader, State.clockId]

/-- The longest frame of a message is the one over IPv6 and UDP. -/
theorem State.ptpFrame_length (s : State) (x : Nat) (m : List Byte) : (s.ptpFrame x m).length ≤ 62 + m.length := by
  simp only [State.ptpFrame]
  split
  · simp [udpFrame, s.macOf_length, s.ownIp_length]; omega
  · split
    · simp [udpFrame, s.macOf_length, s.ownIp_length]; omega
    · simp [s.macOf_length]; omega

theorem State.queueEth_q {s : State} {x q : Nat} (kind : Nat) (t : Option Stamp) (b : List Byte) (hq : roleQ s.man.roles.ethLaunch x = some q)
    (he : s.tst.entries = []) (hu : s.qUsed q = true) (hw : (s.q q).waiters = []) (hr : (b.length + 7) / 8 + 4 ≤ s.qFree q) :
    ((s.queueEth x kind t b).q q).items.length = (s.q q).items.length + 1 ∧
      ((s.queueEth x kind t b).q q).tail = ((s.q q).tail + 1) % 2 ^ 32 := by
  have joins (it : Item) (hit : it.words = (b.length + 7) / 8 + 4) : ((s.produce (.oarsman 6 0) q it).q q).items.length = (s.q q).items.length + 1 ∧
      ((s.produce (.oarsman 6 0) q it).q q).tail = ((s.q q).tail + 1) % 2 ^ 32 := by
    obtain ⟨hitems, htail⟩ := State.produce_q (.oarsman 6 0) he hu hw (hit ▸ hr)
    exact ⟨by rw [hitems, List.length_append, List.length_singleton], htail⟩
  simp only [State.queueEth, hq]
  cases t with
  | none => exact joins _ (by simp [Item.words, State.wordItem, mkItem])
  | some k => exact joins _ (by simp [Item.words, State.wordItem, mkItem])

theorem pdelayReq_answers (s : State) (x q : Nat) (m : List Byte) (hon : s.eth.ptpOn = true) (hp : s.ptpP2p = true) (hw : s.warned = false)
    (hd : beAt m 4 1 = s.ptpDomain) (he : s.tst.entries = []) (hq : roleQ s.man.roles.ethLaunch x = some q) (hu : s.qUsed q = true)
    (hwait : (s.q q).waiters = []) (hfree : 100 ≤ s.qFree q) :
    answers (.pdelayReqReceived x m) s fun t =>
      (t.q q).items.length = (s.q q).items.length + 1 ∧ (t.q q).tail = ((s.q q).tail + 1) % 2 ^ 32 := by
  have hx : exec (.pdelayReqReceived x m) s = s.out (s.pdelayResp x m) := by simp [exec, execPdelayReqReceived, hon, hp, hw, hd]
  refine answers_of_out_congr hx (State.queueEth_q _ _ _ hq he hu hwait ?_)
  refine le_trans ?_ hfree
  have hbody : ((if s.ptpTwo then ptpTime (s.ethRx x).ptp else be 10 0) ++ slice m 20 10).length ≤ 20 := by
    rw [List.length_append, slice_length]
    split <;> simp [ptpTime] <;> omega
  have hframe := s.ptpFrame_length x (s.ptpHeader x 3 54 (if s.ptpTwo then 0x0200 else 0) (toSigned 64 (beAt m 8 8)) (beAt m 30 2) ++
    ((if s.ptpTwo then ptpTime (s.ethRx x).ptp else be 10 0) ++ slice m 20 10))
  rw [List.length_append, s.ptpHeader_length] at hframe
  omega

theorem ptpInterval_answers (s : State) (x typ : Nat) (hon : s.eth.ptpOn = true) (hp : s.ptpPort x = true) (hs : s.ptpSends x typ = true) :
    answers (.ptpMessageInterval x typ) s fun t =>
      smGet 0 t.eth.seqs (x * 16 + typ) = (smGet 0 s.eth.seqs (x * 16 + typ) + 1) % 65536 := by
  have hx : exec (.ptpMessageInterval x typ) s = s.out (s.ptpSend x typ) := by simp [exec, execPtpMessageInterval, hon, hp, hs]
  refine answers_of_out_congr hx ?_
  show smGet 0 (s.ptpSend x typ).eth.seqs (x * 16 + typ) = _
  rw [State.ptpSend, State.queueEth_eth]
  simp [State.ptpSeq]
/-- Settles O24, a clause for each lemma: what a port receives, sends and loses. -/
theorem ptpServoFollowsItsMaster : Obligations.PtpServoFollowsItsMaster :=
  ⟨fun s x b offset _ => ptpSync_answers s x b offset,
   fun s x b _ => ptpSyncWaits_answers s x b,
   syncTimeout_answers,
   fun s x b _ => ptpAnnounce_answers s x b,
   fun s x q m _ => pdelayReq_answers s x q m,
   ptpPortInit_answers,
   fun s x typ _ _ => ptpInterval_answers s x typ,
   fun s x _ => announceTimeout_slave_answers s x,
   fun s x _ => announceTimeout_listening_answers s x⟩

end Sys2Proof.Machine

/-! ## 02_crossing_time.md: what the work of a crossing and the latch of a snapshot leave of the count and of metrology

A crossing sets off events, records, the cells' frames, the Gangway's messages; the latch of a snapshot a sealed group and the
entering of records. None of them touches the count, XING_STATUS, the cumulative energies or the latched set. The lemmas stand in
the order of the functions that they are about. -/

namespace Sys2Proof.Machine

/-! ### The count and the quantities of a state -/

/-- The count and where its crossings lie (R44, R50, R52). -/
def Xing.core (x : Xing) : Nat × Nat × Nat × Nat × Option Nat := (x.num, x.placed, x.held, x.hold, x.lastEdge)

/-- The quantities of a state's metrology and the latched set (R76, R80, R81). -/
def Metrology.core (m : Metrology) : (Nat × Nat × Nat × Nat) × SMap Int × SMap Word × List Nat × Stamp :=
  ((m.impA, m.expA, m.impR, m.expR), m.inst, m.active, m.latched, m.latchStamp)

/-- What the crossing commands answer for. -/
abbrev Seen : Type := Word × (Nat × Nat × Nat × Nat × Option Nat) × (Nat × Nat × Nat × Nat) × SMap Int × SMap Word × List Nat × Stamp

/-- What the crossing commands answer for, of a state. Opaque, as `observe` is: states are compared by their functions' lemmas. -/
opaque observeSeen : { f : State → Seen // f = fun s => (smGet 0#32 s.regs xingStatus, s.xing.core, s.met.core) } := ⟨_, rfl⟩

/-- XING_STATUS, the count, the quantities. -/
def State.seen (s : State) : Seen := observeSeen.1 s

theorem State.seen_eq (s : State) : s.seen = (smGet 0#32 s.regs xingStatus, s.xing.core, s.met.core) := congrFun observeSeen.2 s

@[simp] theorem State.seen_mk (pending free regs clk xing aon fuses whf fry oar flows txn cmt hld nand lgb man live img met plc
      rad eth gwy val ept bal trf bil tok pan keys mft pwr tst msix sram dram sent) :
    State.seen ⟨pending, free, regs, clk, xing, aon, fuses, whf, fry, oar, flows, txn, cmt, hld, nand, lgb, man, live, img, met,
      plc, rad, eth, gwy, val, ept, bal, trf, bil, tok, pan, keys, mft, pwr, tst, msix, sram, dram, sent⟩ =
    (smGet 0#32 regs xingStatus, xing.core, met.core) := State.seen_eq _

@[simp] theorem State.seen_eta (s : State) : (smGet 0#32 s.regs xingStatus, s.xing.core, s.met.core) = s.seen := s.seen_eq.symm

@[simp] theorem State.seen_ite (c : Prop) [Decidable c] (a b : State) : (if c then a else b).seen = if c then a.seen else b.seen :=
  apply_ite _ _ _ _

@[simp] theorem foldl_seen {α : Type} (f : State → α → State) (h : ∀ s x, (f s x).seen = s.seen) (l : List α) (s : State) :
    (l.foldl f s).seen = s.seen := foldl_keeps State.seen h l s

/-- A state that differs only in other parts and other registers shows the same. -/
theorem State.seen_of_only {ps : List Part} {rs : List Nat} {s t : State} (h : onlyIn ps s t) (hr : keepsRegs rs s t)
    (hp : Part.xing ∉ ps ∧ Part.met ∉ ps ∧ xingStatus ∉ rs) : t.seen = s.seen := by
  obtain ⟨hxing, hmet, hstatus⟩ := hp
  have hx : t.xing = s.xing := h .xing hxing
  have hm : t.met = s.met := h .met hmet
  have hreg : smGet 0#32 t.regs xingStatus = smGet 0#32 s.regs xingStatus := hr xingStatus hstatus
  simp only [State.seen_eq, hx, hm, hreg]

@[simp] theorem Metrology.core_mk (m : Metrology) (copy lastV closing calChanged notProven uncal waitLog waitStore) :
    Metrology.core ⟨m.active, copy, m.impA, m.expA, m.impR, m.expR, m.inst, m.latched, m.latchStamp, lastV, closing, calChanged, notProven,
      uncal, waitLog, waitStore⟩ = m.core := rfl

@[simp] theorem Xing.core_mk (x : Xing) (valid periods goodRun floor skipFrom skipTo anchor anchorAge anchorFresh residuals disagree far l2
      l3 inRange leap instants trustOk rtcValid) :
    Xing.core ⟨x.num, valid, x.placed, periods, x.lastEdge, x.held, goodRun, x.hold, floor, skipFrom, skipTo, anchor, anchorAge, anchorFresh,
      residuals, disagree, far, l2, l3, inRange, leap, instants, trustOk, rtcValid⟩ = x.core := rfl

/-! ### The registers that are written -/

/-- A register other than XING_STATUS. -/
@[simp] theorem State.setReg_seen (s : State) (a : Nat) (w : Word) (h : a ≠ xingStatus) : (s.setReg a w).seen = s.seen := by
  simp [State.setReg, h.symm]

@[simp] theorem State.set_seen (s : State) (f : Fld) (v : Nat) (h : f.addr ≠ xingStatus) : (s.set f v).seen = s.seen :=
  s.setReg_seen _ _ h

@[simp] theorem State.bump_seen (s : State) (f : Fld) (v : Nat) (h : f.addr ≠ xingStatus) : (s.bump f v).seen = s.seen := s.set_seen _ _ h

@[simp] theorem State.wrapUp_seen (s : State) (f : Fld) (v : Nat) (h : f.addr ≠ xingStatus) : (s.wrapUp f v).seen = s.seen :=
  s.set_seen _ _ h

@[simp] theorem State.setSat_seen (s : State) (f : Fld) (v : Nat) (h : f.addr ≠ xingStatus) : (s.setSat f v).seen = s.seen :=
  s.set_seen _ _ h

/-- The registers that the work of a crossing or of a latch writes lie beside XING_STATUS. -/
@[simp] theorem written_ne_xingStatus : fryCnt_COALESCED.addr ≠ xingStatus ∧ lgbStat_LOST.addr ≠ xingStatus ∧
    tstStat_ARMED.addr ≠ xingStatus ∧ metMlogStat_OVERFLOW.addr ≠ xingStatus ∧ metMlogStat_COUNT.addr ≠ xingStatus ∧
    metMlogStat_NEAR_FULL.addr ≠ xingStatus ∧ metMlogStat_FULL.addr ≠ xingStatus ∧ sysDramEcc_CORR.addr ≠ xingStatus ∧
    sysDramEcc_UNCORR.addr ≠ xingStatus ∧ eptCacheHit_COUNT.addr ≠ xingStatus ∧ eptCacheMiss_COUNT.addr ≠ xingStatus ∧
    valBatchStat_OPEN.addr ≠ xingStatus ∧ valBatchStat_UNACKED.addr ≠ xingStatus ∧ trfStat_PENDING.addr ≠ xingStatus ∧
    trfStat_SUSPENDED.addr ≠ xingStatus ∧ bilStat_OPEN.addr ≠ xingStatus ∧ bilStat_STAGED.addr ≠ xingStatus ∧
    bilQ_Q.addr ≠ xingStatus ∧ bilHwHi ≠ xingStatus ∧ bilHwLo ≠ xingStatus ∧ trfClockTrust_STATE.addr ≠ xingStatus ∧
    trfClockTrust_CAUSE.addr ≠ xingStatus := by decide

/-- So do those of a queue, a cell or a port. -/
@[simp] theorem indexed_ne_xingStatus (n : Nat) : (whfQStat_CREDIT n).addr ≠ xingStatus ∧ (plcCellCnt_JOINED n).addr ≠ xingStatus ∧
    (plcCellCnt_FREE n).addr ≠ xingStatus ∧ (radCnt_JOINED n).addr ≠ xingStatus ∧ (radCnt_FREE n).addr ≠ xingStatus ∧
    (plcSnapHi_VALID n).addr ≠ xingStatus ∧
    (plcSnapHi_LOCAL n).addr ≠ xingStatus ∧ (plcSnapHi_N_HI n).addr ≠ xingStatus ∧ plcSnapLo n ≠ xingStatus := by
  simp only [whfQStat_CREDIT, plcCellCnt_JOINED, plcCellCnt_FREE, radCnt_JOINED, radCnt_FREE,
    plcSnapHi_VALID, plcSnapHi_LOCAL, plcSnapHi_N_HI, whfQStat, plcCellCnt, radCnt, plcSnapHi, plcSnapLo, xingStatus]
  omega

/-! ### What leaves the count and the quantities alone -/

@[simp] theorem State.random_seen (s : State) (n : Nat) : (s.random n).2.seen = s.seen := by simp [State.random]

@[simp] theorem State.assertEvt_seen (s : State) (e : Nat) : (s.assertEvt e).1.seen = s.seen :=
  State.seen_of_only (s.assertEvt_only e) (s.assertEvt_regs e) (by decide)

@[simp] theorem State.raise_seen (s : State) (e : Nat) : (s.raise e).seen = s.seen := by simp [State.raise]
@[simp] theorem State.raiseIf_seen (s : State) (c : Bool) (e : Nat) : (s.raiseIf c e).seen = s.seen := by simp [State.raiseIf]

@[simp] theorem State.lgbEnter_seen (s : State) (r : LogRec) : (s.lgbEnter r).seen = s.seen :=
  State.seen_of_only (s.lgbEnter_only r) (s.lgbEnter_regs r) (by decide)

@[simp] theorem State.lgbAppend_seen (s : State) (r : LogRec) : (s.lgbAppend r).seen = s.seen := by simp [State.lgbAppend]

@[simp] theorem State.logRec_seen (s : State) (typ source extra : Nat) (detail : List Byte) :
    (s.logRec typ source extra detail).seen = s.seen :=
  State.seen_of_only (s.logRec_only typ source extra detail) (s.logRec_regs typ source extra detail) (by decide)

@[simp] theorem State.logEvt_seen (s : State) (e : Nat) (detail : List Byte) : (s.logEvt e detail).seen = s.seen := by simp [State.logEvt]

@[simp] theorem State.raiseLog_seen (s : State) (e : Nat) (detail : List Byte) : (s.raiseLog e detail).seen = s.seen := by
  simp [State.raiseLog]

@[simp] theorem State.setEntry_seen (s : State) (n : Nat) (e : TEntry) : (s.setEntry n e).seen = s.seen := by simp [State.setEntry]
@[simp] theorem State.hit_seen (s : State) (n : Nat) : (s.hit n).seen = s.seen := by simp [State.hit]

@[simp] theorem State.everyNth_seen (s : State) (kind : Nat) (p : TEntry → Bool) : (s.everyNth kind p).2.seen = s.seen := by
  unfold State.everyNth
  simp only
  (repeat' split) <;> simp

@[simp] theorem State.disarm_seen (s : State) (n win cause : Nat) : (s.disarm n win cause).seen = s.seen := by simp [State.disarm]
@[simp] theorem State.setQ_seen (s : State) (n : Nat) (x : Queue) : (s.setQ n x).seen = s.seen := by simp [State.setQ]

@[simp] theorem State.touchQ_seen (s : State) (n : Nat) (f : State → State) (h : ∀ s, (f s).seen = s.seen) :
    (s.touchQ n f).seen = s.seen := by
  unfold State.touchQ
  simp only
  split <;> simp [h]

@[simp] theorem State.perturbItem_seen (s : State) (n : Nat) (it : Item) : (s.perturbItem n it).2.seen = s.seen := by
  unfold State.perturbItem
  simp only
  split <;> simp

@[simp] theorem State.enqueueNow_seen (s : State) (n : Nat) (it : Item) : (s.enqueueNow n it).seen = s.seen := by simp [State.enqueueNow]

@[simp] theorem State.hwEnqueue_seen (s : State) (p : Producer) (n : Nat) (it : Item) : (s.hwEnqueue p n it).1.seen = s.seen := by
  unfold State.hwEnqueue
  (repeat' split) <;> simp

@[simp] theorem State.produce_seen (s : State) (p : Producer) (n : Nat) (it : Item) : (s.produce p n it).seen = s.seen := by
  simp [State.produce]

@[simp] theorem State.qRelease_seen (s : State) (n : Nat) (all : Bool) (iseq : Nat) : (s.qRelease n all iseq).seen = s.seen := by
  simp [State.qRelease]

@[simp] theorem State.nandGo_seen (n : Nat) (s : State) : (s.nandGo n).seen = s.seen := by
  induction n generalizing s with
  | zero => rfl
  | succ n ih =>
    unfold State.nandGo
    split
    · rfl
    · split <;> simp [ih]

@[simp] theorem State.nandRun_seen (s : State) : (s.nandRun).seen = s.seen := by simp [State.nandRun]
@[simp] theorem State.nandAdd_seen (s : State) (k : NandKind) : (s.nandAdd k).seen = s.seen := by simp [State.nandAdd]
@[simp] theorem State.pageDue_seen (s : State) (l p : Nat) : (s.pageDue l p).seen = s.seen := by simp [State.pageDue]

@[simp] theorem State.gatherPage_seen (s : State) (l p at0 n : Nat) : (s.gatherPage l p at0 n).seen = s.seen := by
  unfold State.gatherPage
  simp only
  (repeat' split) <;> simp

@[simp] theorem State.gatherAt_seen (s : State) (a len : Nat) : (s.gatherAt a len).seen = s.seen := by simp [State.gatherAt]

@[simp] theorem State.sealUpd_seen (s : State) (u : StoreUpd) : (s.sealUpd u).2.seen = s.seen := by
  unfold State.sealUpd
  (repeat' split) <;> simp

@[simp] theorem State.gather_seen (s : State) (us : List StoreUpd) : (s.gather us).seen = s.seen := by simp [State.gather]

@[simp] theorem State.sealUpds_seen (s : State) (us : List StoreUpd) : (s.sealUpds us).2.seen = s.seen := by
  induction us generalizing s with
  | nil => rfl
  | cons u us ih => simp [State.sealUpds, ih]

@[simp] theorem State.setGrp_seen (s : State) (g : Nat) (x : Group) : (s.setGrp g x).seen = s.seen := by simp [State.setGrp]

@[simp] theorem State.openGroup_seen (s : State) (iss : Issuer) (reserved : Bool) :
    (s.openGroup iss reserved).2.2.seen = s.seen := by
  unfold State.openGroup
  simp only
  (repeat' split) <;> simp

@[simp] theorem State.dirtyCtx_seen (s : State) (us : List StoreUpd) : (s.dirtyCtx us).seen = s.seen := by simp [State.dirtyCtx]

@[simp] theorem State.claim_seen (s : State) (a : Action) : (s.claim a).seen = s.seen := by
  unfold State.claim
  split <;> simp

@[simp] theorem State.unclaim_seen (s : State) (a : Action) : (s.unclaim a).seen = s.seen := by
  unfold State.unclaim
  split <;> simp

@[simp] theorem State.spendClaim_seen (s : State) (a : Action) : (s.spendClaim a).seen = s.seen := by simp [State.spendClaim]
@[simp] theorem State.setStr_seen (s : State) (r : Nat) (x : Stream) : (s.setStr r x).seen = s.seen := by simp [State.setStr]
@[simp] theorem State.noteStreamFull_seen (s : State) (a : Action) : (s.noteStreamFull a).seen = s.seen := by simp [State.noteStreamFull]

@[simp] theorem State.stage_seen (s : State) (g : Nat) (iss : Issuer) (a : Action) : (s.stage g iss a).2.seen = s.seen := by
  unfold State.stage
  simp only
  (repeat' split) <;> simp

@[simp] theorem State.loseVal_seen (s : State) (g : Nat) : (s.loseVal g).seen = s.seen := by simp [State.loseVal]
@[simp] theorem State.abortGroup_seen (s : State) (g : Nat) : (s.abortGroup g).seen = s.seen := by simp [State.abortGroup]

@[simp] theorem State.withdraw_seen (s : State) (g : Nat) : (s.withdraw g).seen = s.seen := by
  unfold State.withdraw
  simp only
  generalize hu : State.raise _ 296 = u
  have hseen : u.seen = s.seen := by rw [← hu]; simp
  split
  · split
    · simp [hseen]
    · exact hseen
  · exact hseen

@[simp] theorem State.sealedStore_seen (s : State) (t k : Nat) (v : List Nat) : (s.sealedStore t k v).seen = s.seen := by
  simp [State.sealedStore]

@[simp] theorem State.mlogPut_seen (s : State) (typ detail : Nat) (rest : List Byte) :
    (s.mlogPut typ detail rest).seen = s.seen := by simp [State.mlogPut]

@[simp] theorem State.mlog_seen (s : State) (typ detail : Nat) (payload : List Byte) :
    (s.mlog typ detail payload).seen = s.seen := by simp [State.mlog]

@[simp] theorem State.setFlag_seen (s : State) (k : Nat) : (s.setFlag k).seen = s.seen := by
  have hmet (m : Metrology) : Metrology.core (if k = 0 then { m with notProven := true } else if k = 1 then { m with calChanged := true }
      else if k = 2 then { m with uncal := true } else m) = m.core := by (repeat' split) <;> rfl
  have hstore := s.sealedStore_seen tabFlag k [1]
  simp only [State.setFlag]
  generalize s.sealedStore tabFlag k [1] = u at hstore
  simp [hmet, hstore]

@[simp] theorem State.journalUpd_seen (s : State) (us : List StoreUpd) : (s.journalUpd us).seen = s.seen := by simp [State.journalUpd]
@[simp] theorem State.setFlow_seen (s : State) (t : Nat) (o : Owner) : (s.setFlow t o).seen = s.seen := by simp [State.setFlow]
@[simp] theorem State.dropFlows_seen (s : State) (o : Owner) : (s.dropFlows o).seen = s.seen := by simp [State.dropFlows]

@[simp] theorem State.setCacheE_seen (s : State) (k : Nat) (e : Option CacheE) : (s.setCacheE k e).seen = s.seen := by
  simp [State.setCacheE]

@[simp] theorem clockSweep_seen (pins : List Nat) (n : Nat) (s : State) : (clockSweep pins n s).2.seen = s.seen := by
  induction n generalizing s with
  | zero => rfl
  | succ n ih =>
    unfold clockSweep
    simp only
    split
    · simp
    · split
      · simp [ih]
      · split <;> simp [ih]

@[simp] theorem State.cacheRoom_seen (s : State) : (s.cacheRoom).2.seen = s.seen := by
  unfold State.cacheRoom
  split <;> simp

@[simp] theorem State.restoreCtx_seen (s : State) (slot : Nat) : (s.restoreCtx slot).seen = s.seen := by simp [State.restoreCtx]

@[simp] theorem State.dramCount_seen (s : State) (x : LineRead) : (s.dramCount x).seen = s.seen := by
  unfold State.dramCount
  split <;> simp

@[simp] theorem State.ctxFetch_seen (s0 : State) (slot : Nat) (line : LineRead) : (s0.ctxFetch slot line).2.seen = s0.seen := by
  unfold State.ctxFetch
  simp only
  (repeat' split) <;> simp

@[simp] theorem State.hot_seen (s : State) (slot : Nat) (write : Bool) (line : LineRead) :
    (s.hot slot write line).2.seen = s.seen := by
  unfold State.hot
  split
  · simp
  · have h := State.cacheRoom_seen ((s.wrapUp eptCacheMiss_COUNT 1).ctxFetch slot line).2
    simp only
    split <;> next hc => simp_all

@[simp] theorem State.setCell_seen (s : State) (c : Nat) (x : Cell) : (s.setCell c x).seen = s.seen := by simp [State.setCell]

@[simp] theorem State.releaseFrames_seen (s : State) (c : Nat) : (s.releaseFrames c).seen = s.seen := by
  unfold State.releaseFrames
  split <;> simp

@[simp] theorem State.queuePlc_seen (s : State) (c slot modc tone flow : Nat) (psdu : List Byte) :
    (s.queuePlc c slot modc tone flow psdu).seen = s.seen := by simp [State.queuePlc]

@[simp] theorem State.takeFseq_seen (s : State) (c : Nat) : (s.takeFseq c).2.seen = s.seen := by simp [State.takeFseq]
@[simp] theorem State.showCell_seen (s : State) (c : Nat) : (s.showCell c).seen = s.seen := by simp [State.showCell]
@[simp] theorem State.queueBeacon_seen (s : State) (c x : Nat) : (s.queueBeacon c x).seen = s.seen := by simp [State.queueBeacon]

@[simp] theorem State.refreshBeacon_seen (s : State) (c x : Nat) : (s.refreshBeacon c x).seen = s.seen := by
  unfold State.refreshBeacon
  simp only
  (repeat' split) <;> simp

@[simp] theorem State.beaconStep_seen (s : State) (c : Nat) : (s.beaconStep c).seen = s.seen := by simp [State.beaconStep]

@[simp] theorem State.setExchange_seen (s : State) (c : Nat) (e : Exchange) : (s.setExchange c e).seen = s.seen := by
  simp [State.setExchange]

@[simp] theorem State.setPort_seen (s : State) (r : Nat) (x : RadPort) : (s.setPort r x).seen = s.seen := by simp [State.setPort]

@[simp] theorem State.setRnode_seen (s : State) (r a : Nat) (n : Option RNode) : (s.setRnode r a n).seen = s.seen := by
  simp [State.setRnode]

@[simp] theorem State.queueRadK_seen (s : State) (r dst kind flow : Nat) (launch : DWord) (m : List Byte) :
    (s.queueRadK r dst kind flow launch m).seen = s.seen := by
  unfold State.queueRadK
  split <;> simp

@[simp] theorem State.queueRad_seen (s : State) (r a flow : Nat) (launch : DWord) (msg : List Byte) :
    (s.queueRad r a flow launch msg).seen = s.seen := by simp [State.queueRad]

@[simp] theorem State.refreshTime_seen (s : State) (r x : Nat) : (s.refreshTime r x).seen = s.seen := by
  unfold State.refreshTime
  split <;> simp

@[simp] theorem State.timeStep_seen (s : State) (r : Nat) : (s.timeStep r).seen = s.seen := by
  unfold State.timeStep
  split <;> simp

@[simp] theorem State.setPeer_seen (s : State) (p : Nat) (x : Peer) : (s.setPeer p x).seen = s.seen := by simp [State.setPeer]

@[simp] theorem State.gwyPut_seen (s : State) (p : Nat) (launch : DWord) (bytes : List Byte) :
    (s.gwyPut p launch bytes).seen = s.seen := by
  unfold State.gwyPut
  split <;> simp

@[simp] theorem State.gwyUnreliable_seen (s : State) (p typ : Nat) (launch : DWord) (body : List Byte) :
    (s.gwyUnreliable p typ launch body).seen = s.seen := by simp [State.gwyUnreliable]

@[simp] theorem State.gwySend_seen (s : State) (p typ : Nat) (body : List Byte) (batch : Option Nat) :
    (s.gwySend p typ body batch).seen = s.seen := by simp [State.gwySend]

@[simp] theorem State.gwyDrain_seen (n : Nat) (s : State) (k : Nat) : (s.gwyDrain n k).seen = s.seen := by
  induction n generalizing s with
  | zero => rfl
  | succ n ih =>
    unfold State.gwyDrain
    simp only
    split
    · rfl
    · split <;> simp [ih]

@[simp] theorem State.gwyReliable_seen (s : State) (p typ : Nat) (body : List Byte) (batch : Option Nat) :
    (s.gwyReliable p typ body batch).seen = s.seen := by simp [State.gwyReliable]

@[simp] theorem State.sendAck_seen (s : State) (c a seq status verdict : Nat) :
    (s.sendAck c a seq status verdict).seen = s.seen := by
  unfold State.sendAck
  (repeat' split) <;> simp

@[simp] theorem State.showBatch_seen (s : State) : (s.showBatch).seen = s.seen := by simp [State.showBatch]

@[simp] theorem State.batchIdle_seen (s : State) (run : Bool) : (s.batchIdle run).seen = s.seen := by
  unfold State.batchIdle
  split <;> simp

@[simp] theorem State.closeBatch_seen (s : State) (flags : Nat) : (s.closeBatch flags).seen = s.seen := by simp [State.closeBatch]
@[simp] theorem State.appendEntry_seen (s : State) (e : List Byte) : (s.appendEntry e).seen = s.seen := by simp [State.appendEntry]
@[simp] theorem State.setRec_seen (s : State) (n : Nat) (v : Option VRec) : (s.setRec n v).seen = s.seen := by simp [State.setRec]
@[simp] theorem State.noteFull_seen (s : State) : (s.noteFull).seen = s.seen := by simp [State.noteFull]

@[simp] theorem State.countVerdict_seen (s : State) (v : Nat) : (s.countVerdict v).seen = s.seen := by
  unfold State.countVerdict
  split <;> simp

@[simp] theorem State.leavePlace_seen (s : State) (n : Nat) : (s.leavePlace n).seen = s.seen := by simp [State.leavePlace]

theorem State.valGroup_seen {s u : State} {x : Nat} (h : s.valGroup = some (x, u)) : u.seen = s.seen := by
  unfold State.valGroup at h
  split at h
  · cases h
    rfl
  · have hg := s.openGroup_seen 7 false
    split at h
    · next he =>
      cases h
      simpa [he] using hg
    · cases h

@[simp] theorem State.noteNoGroup_seen (s : State) : (s.noteNoGroup).seen = s.seen := by simp [State.noteNoGroup]

@[simp] theorem State.stageAll_seen (s : State) (g : Nat) (acts : List Action) : (s.stageAll g acts).1.seen = s.seen := by
  unfold State.stageAll
  refine foldl_keeps (fun r : State × Bool => r.1.seen) (fun r a => ?_) _ _
  split <;> simp

@[simp] theorem State.applyPend_seen (s : State) : (s.applyPend).seen = s.seen := by simp [State.applyPend]

@[simp] theorem State.phaseEvents_seen (s : State) (n : Nat) : (s.phaseEvents n).seen = s.seen := by
  unfold State.phaseEvents
  (repeat' split) <;> simp

@[simp] theorem State.stageEntry_seen (s : State) (g : Nat) (e : List Byte) : (s.stageEntry g e).1.seen = s.seen := by
  unfold State.stageEntry
  simp only
  split <;> simp

@[simp] theorem State.stageHeld_seen (n : Nat) (s : State) (k : Nat) : (s.stageHeld n k).seen = s.seen := by
  induction n generalizing s with
  | zero => rfl
  | succ n ih =>
    unfold State.stageHeld
    split
    · rfl
    · simp only
      split <;> simp [ih]

@[simp] theorem State.duplicateRec_seen (s : State) (n : Nat) (v : VRec) : (s.duplicateRec n v).seen = s.seen := by
  simp [State.duplicateRec]

@[simp] theorem State.fetchFor_seen (s : State) (v : VRec) (slot : Nat) (line : LineRead) :
    (s.fetchFor v slot line).2.seen = s.seen := by
  unfold State.fetchFor
  simp only
  split <;> simp

@[simp] theorem State.takePlace_seen (s : State) (n : Nat) (v : VRec) : (s.takePlace n v).seen = s.seen := by simp [State.takePlace]
@[simp] theorem State.showSnap_seen (s : State) (valid : Bool) (c : Nat) : (s.showSnap valid c).seen = s.seen := by simp [State.showSnap]

@[simp] theorem State.timeDue_seen (s : State) : (s.timeDue).seen = s.seen := by
  refine foldl_seen _ (fun s r => ?_) _ _
  simp only [State.setPort_seen]
  refine foldl_seen _ (fun s a => ?_) _ _
  split <;> simp

@[simp] theorem State.fixSnap_seen (s : State) (n b : Nat) (loc : Bool) : (s.fixSnap n b loc).seen = s.seen := by simp [State.fixSnap]
@[simp] theorem State.showTrf_seen (s : State) : (s.showTrf).seen = s.seen := by simp [State.showTrf]
@[simp] theorem State.activated_seen (s : State) (gs : List Nat) : (s.activated gs).seen = s.seen := by simp [State.activated]
@[simp] theorem State.suspendCal_seen (s : State) : (s.suspendCal).seen = s.seen := by simp [State.suspendCal]
@[simp] theorem State.resumeCal_seen (s : State) : (s.resumeCal).seen = s.seen := by simp [State.resumeCal]

@[simp] theorem State.sealedResult_seen (s : State) (b : List Byte) : (s.sealedResult b).seen = s.seen := by
  unfold State.sealedResult
  split <;> simp

@[simp] theorem State.acctHeld_seen (s : State) (n : Nat) : (s.acctHeld n).seen = s.seen := by simp [State.acctHeld]

@[simp] theorem State.acctOut_seen (s : State) (recs : List (List Byte)) (evs : List Nat) : (s.acctOut recs evs).seen = s.seen := by
  simp [State.acctOut]

@[simp] theorem State.showOpen_seen (s : State) : (s.showOpen).seen = s.seen := by simp [State.showOpen]
@[simp] theorem State.setClosed_seen (s : State) (key : Nat) : (s.setClosed key).seen = s.seen := by simp [State.setClosed]

@[simp] theorem State.boundaryDone_seen (s : State) (r : BoundaryRes) (b next : Nat)
    (d : List StoreUpd × List (List Byte) × List Nat) : (s.boundaryDone r b next d).seen = s.seen := by simp [State.boundaryDone]

@[simp] theorem State.backStart_seen (s : State) : (s.backStart).seen = s.seen := by
  unfold State.backStart
  simp only
  (repeat' split) <;> simp

@[simp] theorem State.noteSynced_seen (s : State) : (s.noteSynced).seen = s.seen := by simp [State.noteSynced]
@[simp] theorem State.trustFollows_seen (s : State) (new : Nat) : (s.trustFollows new).seen = s.seen := by simp [State.trustFollows]
@[simp] theorem State.setTrust_seen (s : State) (new cause : Nat) : (s.setTrust new cause).seen = s.seen := by simp [State.setTrust]
@[simp] theorem State.trustSynced_seen (s : State) : (s.trustSynced).seen = s.seen := by simp [State.trustSynced]
@[simp] theorem State.trustEval_seen (s : State) : (s.trustEval).seen = s.seen := by simp [State.trustEval]
@[simp] theorem State.publishAnchors_seen (s : State) : (s.publishAnchors).seen = s.seen := by simp [State.publishAnchors]
@[simp] theorem State.sendSnapshots_seen (s : State) (b n : Nat) : (s.sendSnapshots b n).seen = s.seen := by simp [State.sendSnapshots]
@[simp] theorem State.snapFix_seen (s : State) : (s.snapFix).seen = s.seen := by simp [State.snapFix]
@[simp] theorem State.snapReached_seen (s : State) (prev : Nat) : (s.snapReached prev).seen = s.seen := by simp [State.snapReached]
@[simp] theorem State.exchangeSuspension_seen (s : State) : (s.exchangeSuspension).seen = s.seen := by simp [State.exchangeSuspension]
@[simp] theorem State.cellsStep_seen (s : State) : (s.cellsStep).seen = s.seen := by simp [State.cellsStep]
@[simp] theorem State.superframe_seen (s : State) : (s.superframe).seen = s.seen := by simp [State.superframe]

/-! ### The sealing of a group and the entering of records -/

@[simp] theorem State.dramPut_seen (s : State) (a : Nat) (bs : List Byte) : (s.dramPut a bs).seen = s.seen := by simp [State.dramPut]

@[simp] theorem State.applyAction_seen (iss : Issuer) (s : State) (ad : Action × List Byte) : (s.applyAction iss ad).seen = s.seen := by
  unfold State.applyAction
  simp only
  split <;> simp

@[simp] theorem State.sealGroup_seen (s : State) (g : Nat) (bound : List Byte) (jflags : Nat) (extra : List StoreUpd) :
    (s.sealGroup g bound jflags extra).seen = s.seen := by
  have hfold (l : List (Action × List Byte)) : (l.foldl (State.applyAction (s.grp g).issuer) s).seen = s.seen :=
    foldl_seen _ (fun s p => s.applyAction_seen _ p) l s
  simp only [State.sealGroup]
  simp [hfold]

@[simp] theorem State.sealVal_seen (s : State) : (s.sealVal).seen = s.seen := by
  unfold State.sealVal
  split <;> simp

@[simp] theorem State.sealFull_seen (s : State) : (s.sealFull).seen = s.seen := by simp [State.sealFull]

@[simp] theorem State.stageEvidence_seen (s : State) (n : Nat) (v : VRec) (verdict : Nat) :
    (s.stageEvidence n v verdict).seen = s.seen := by
  unfold State.stageEvidence
  split <;> simp

@[simp] theorem State.rejectRec_seen (s : State) (n : Nat) (v : VRec) (verdict : Nat) : (s.rejectRec n v verdict).seen = s.seen := by
  simp [State.rejectRec]

@[simp] theorem State.storeRec_seen (s : State) (n : Nat) (v : VRec) (slot : Nat) : (s.storeRec n v slot).seen = s.seen := by
  unfold State.storeRec
  simp only
  split
  · simp
  · split
    · simp
    · next g s0 hv =>
      have h0 : s0.seen = s.seen := State.valGroup_seen hv
      (split <;> split) <;> simp [h0]

@[simp] theorem State.resumeRec_seen (s : State) (n : Nat) : (s.resumeRec n).seen = s.seen := by
  unfold State.resumeRec
  (repeat' split) <;> simp

@[simp] theorem State.enterRec_seen (s : State) (v : VRec) (line : LineRead) : (s.enterRec v line).seen = s.seen := by
  unfold State.enterRec
  simp only
  (repeat' split) <;> simp

@[simp] theorem State.enterEntry_seen (s : State) (n : Nat) (v : VRec) : (s.enterEntry n v).seen = s.seen := by
  unfold State.enterEntry
  simp only
  split <;> simp

@[simp] theorem State.enterWaiting_seen (n : Nat) (s : State) : (s.enterWaiting n).seen = s.seen := by
  induction n generalizing s with
  | zero => rfl
  | succ fuel ih =>
    unfold State.enterWaiting
    split
    · rfl
    · split
      · rw [ih]
        split <;> simp
      · rfl

@[simp] theorem State.siteEmit_seen (s : State) (n : Nat) (regs : List Nat) : (s.siteEmit n regs).seen = s.seen := by
  simp [State.siteEmit]

@[simp] theorem State.sealStaged_seen (s : State) (t : Staged) (n : Nat) (regs : List Nat) (good : Bool) (flags : Nat) :
    (s.sealStaged t n regs good flags).seen = s.seen := by simp [State.sealStaged]

@[simp] theorem State.bilLatch_seen (s : State) (n : Nat) (regs : List Nat) : (s.bilLatch n regs).seen = s.seen := by
  unfold State.bilLatch
  simp only
  split <;> simp

end Sys2Proof.Machine

/-! ## 02_crossing_time.md: the latch of a snapshot -/

namespace Sys2Proof.Machine

/-- Two states that show the same have the same quantities (R76, R80). -/
theorem State.met_of_seen {s t : State} (h : t.seen = s.seen) : t.energies = s.energies ∧ t.met.inst = s.met.inst ∧
    t.met.active = s.met.active ∧ t.met.latched = s.met.latched ∧ t.met.latchStamp = s.met.latchStamp := by
  simp only [State.seen_eq, Metrology.core, Prod.mk.injEq] at h
  obtain ⟨-, -, ⟨himpA, hexpA, himpR, hexpR⟩, hinst, hactive, hlatched, hstamp⟩ := h
  exact ⟨by rw [State.energies, State.energies, himpA, hexpA, himpR, hexpR], hinst, hactive, hlatched, hstamp⟩

/-- The latch as such: the four energies, the stamp, the site's net energy (R81, R286). -/
def State.latched (s : State) : State :=
  { s with
    met := { s.met with latched := s.energies
                        latchStamp := { s.rxStamp 7 with flags := (s.rxStamp 7).flags + 16 * ofBool (s.wasSkipped s.plc.snapN) } }
    bal := { s.bal with site := s.bal.site ++ [(s.plc.snapN, ((s.energies.getD 0 0 : Nat) : Int) - ((s.energies.getD 1 0 : Nat) : Int))] } }

theorem snapshotLatch_answers (s : State) (hn : s.plc.snapN ≠ 0) (hl : s.bil.latchN ≠ s.plc.snapN) (hr : s.plc.snapN ≤ s.xing.num) :
    answers .snapshotLatch s fun t => t.met.latched = s.energies ∧
      t.met.latchStamp = { s.rxStamp 7 with flags := (s.rxStamp 7).flags + (if s.wasSkipped s.plc.snapN = true then 16 else 0) } ∧
      t.energies = s.energies ∧ t.met.inst = s.met.inst ∧ t.met.active = s.met.active := by
  have hx : exec .snapshotLatch s =
      s.out (((s.latched.raise 48).bilLatch s.plc.snapN s.energies).siteEmit s.plc.snapN s.energies) := by
    simp only [exec, execSnapshotLatch]
    rw [if_neg (by simp [hn, hl, hr])]
    rfl
  have hseen : (((s.latched.raise 48).bilLatch s.plc.snapN s.energies).siteEmit s.plc.snapN s.energies).seen = s.latched.seen := by simp
  obtain ⟨henergies, hinst, hactive, hlatched, hstamp⟩ := State.met_of_seen hseen
  refine answers_of_out_congr hx ⟨hlatched, hstamp.trans ?_, henergies, hinst, hactive⟩
  cases h : s.wasSkipped s.plc.snapN <;> simp [State.latched, h, ofBool]

/-- Settles O15: what follows the latch leaves metrology as it was. -/
theorem snapshotLatchesEnergies : Obligations.SnapshotLatchesEnergies := by
  refine ⟨fun s hn hl hr => snapshotLatch_answers s hn hl hr, fun s h => ?_⟩
  simp only [exec, execSnapshotLatch]
  rw [if_pos (.inr (.inl h)), State.out_self]

end Sys2Proof.Machine

/-! ## 02_crossing_time.md: crossings, counted and coasted -/

namespace Sys2Proof.Machine

/-! ### The count, COASTING and MAINS_L1 -/

/-- The count, with the two bits of XING_STATUS that tell of L1 (R44, R50). -/
def State.count (s : State) : (Nat × Nat × Nat × Nat × Option Nat) × Nat × Nat :=
  (s.xing.core, s.get xingStatus_COASTING, s.get xingStatus_MAINS_L1)

theorem State.count_of_reg {s t : State} (hx : t.xing.core = s.xing.core) (hr : t.reg xingStatus = s.reg xingStatus) : t.count = s.count := by
  have hbits (f : Fld) (h : f.addr = xingStatus) : t.get f = s.get f := State.get_congr (h ▸ hr)
  rw [State.count, State.count, hx, hbits xingStatus_COASTING rfl, hbits xingStatus_MAINS_L1 rfl]

theorem State.count_of_seen {s t : State} (h : t.seen = s.seen) : t.count = s.count := by
  simp only [State.seen_eq, Prod.mk.injEq] at h
  obtain ⟨hreg, hxing, -⟩ := h
  exact State.count_of_reg hxing hreg

/-- Another field of XING_STATUS, or of another register, tells nothing of L1. -/
theorem State.set_count (s : State) (f : Fld) (v : Nat) (h : f.lo ≤ f.hi ∧ f.hi < 32 ∧ (f.addr ≠ xingStatus ∨ 2 ≤ f.lo)) :
    (s.set f v).count = s.count := by
  obtain ⟨hl, hh, ha⟩ := h
  have hbit (g : Fld) (hg : g.addr = xingStatus ∧ g.hi < 2) : (s.set f v).get g = s.get g := by
    refine State.get_set_other s f g v hl hh ?_
    rcases ha with ha | ha
    · exact .inl (by rw [hg.1]; exact ha.symm)
    · exact .inr (.inl (by omega))
  rw [State.count, State.count, hbit xingStatus_COASTING ⟨rfl, by decide⟩, hbit xingStatus_MAINS_L1 ⟨rfl, by decide⟩, State.set_xing]

theorem State.raise_count (s : State) (e : Nat) : (s.raise e).count = s.count := State.count_of_seen (s.raise_seen e)

theorem State.raiseIf_count (s : State) (c : Bool) (e : Nat) : (s.raiseIf c e).count = s.count := State.count_of_seen (s.raiseIf_seen c e)

theorem State.ite_count (c : Prop) [Decidable c] (a b : State) : (if c then a else b).count = if c then a.count else b.count :=
  apply_ite State.count _ _ _

/-- Metrology at a crossing (R76). -/
theorem State.metCrossing_count (s : State) (dur : Nat) (raw : List (List Int)) : (s.metCrossing dur raw).count = s.count := by
  have hpulse (u : State) (a b : Nat) : (u.pulse a b).count = u.count := by
    simp only [State.pulse]
    split <;> rfl
  simp only [State.metCrossing]
  rw [State.raiseIf_count, State.set_count _ _ _ (by decide), hpulse]
  rfl

theorem State.showLock_count (s : State) : s.showLock.count = s.count := s.set_count _ _ (by decide)

/-- L2 and L3 are judged in bits of their own (R49). -/
theorem State.judgePhases_count (s : State) : s.judgePhases.count = s.count := by
  unfold State.judgePhases
  extract_lets a b p2 p3 out calm xing s1 s2 s3 s4 oor rev new s5
  have h2 : s2.count = s1.count := by simp (disch := decide) only [s2, State.set_count]
  have h3 : s3.count = s2.count := by simp (disch := decide) only [s3, State.ite_count, State.set_count, ite_self]
  have h4 : s4.count = s3.count := by simp (disch := decide) only [s4, State.ite_count, State.set_count, ite_self]
  have h5 : s5.count = s4.count := by simp (disch := decide) only [s5, State.ite_count, State.set_count, ite_self]
  rw [State.raiseIf_count, State.ite_count, State.set_count _ _ _ (by decide), ite_self, h5, h4, h3, h2]
  rfl

/-- What every counted or coasted crossing brings leaves the count and L1's bits (R70, R76, R132, R159, R314). -/
theorem State.crossingWork_count (s : State) (prev dur : Nat) (raw : List (List Int)) : (s.crossingWork prev dur raw).count = s.count := by
  simp only [State.crossingWork]
  refine (State.count_of_seen (State.superframe_seen _)).trans ?_
  rw [State.count_of_seen (State.publishAnchors_seen _), State.count_of_seen (State.snapFix_seen _), State.count_of_seen (State.snapReached_seen _ _),
    State.count_of_seen (State.exchangeSuspension_seen _), State.count_of_seen (State.trustEval_seen _), State.count_of_seen (State.backStart_seen _),
    State.raise_count, State.showLock_count]
  exact (State.count_of_reg rfl rfl).trans (s.metCrossing_count dur raw)

/-- A real crossing leaves L1's bits, and is the crossing placed last and the last edge. -/
theorem State.countCrossing_count (s : State) (n dur : Nat) (raw : List (List Int)) :
    (s.countCrossing n dur raw).count = ((n, s.clk.mono, s.xing.held, s.xing.hold, some s.clk.mono), s.get xingStatus_COASTING, s.get xingStatus_MAINS_L1) := by
  simp only [State.countCrossing, State.ite_count, State.crossingWork_count, State.count_of_seen (State.exchangeSuspension_seen _),
    State.metCrossing_count, State.judgePhases_count, ite_self]
  rfl

theorem State.coastOne_count (s : State) (raw : List (List Int)) :
    (s.coastOne raw).count = ((s.xing.num + 1, s.xing.placed + s.xing.held, s.xing.held, s.xing.hold, s.xing.lastEdge),
      s.get xingStatus_COASTING, s.get xingStatus_MAINS_L1) := by
  simp only [State.coastOne, State.crossingWork_count, State.judgePhases_count]
  rfl


theorem State.of_count {t : State} {n p h k c m : Nat} {e : Option Nat} (ht : t.count = ((n, p, h, k, e), c, m)) :
    t.xing.num = n ∧ t.xing.placed = p ∧ t.xing.held = h ∧ t.xing.hold = k ∧ t.xing.lastEdge = e ∧ t.get xingStatus_COASTING = c ∧
      t.get xingStatus_MAINS_L1 = m := by
  simpa only [State.count, Xing.core, Prod.mk.injEq, and_assoc] using ht

/-! ### A valid period, and the number of a crossing -/

/-- A valid period shows in FREQ_OOR and XING_PERIOD alone (R48). -/
theorem State.goodPeriod_spec (s : State) (p : Nat) : (s.goodPeriod p).xing = { s.xing with periods := (p :: s.xing.periods).take 8 } ∧
    onlyIn [.xing, .regs] s (s.goodPeriod p) ∧ keepsRegs [xingStatus, xingPeriod] s (s.goodPeriod p) ∧
    (s.goodPeriod p).get xingStatus_COASTING = s.get xingStatus_COASTING := by
  obtain ⟨u, hu⟩ : ∃ u : State, u = { s with xing := { s.xing with periods := (p :: s.xing.periods).take 8 } } := ⟨_, rfl⟩
  have hxing : onlyIn [.xing] s u := hu ▸ onlyIn_xing s _ _ (by decide)
  have hregs : u.regs = s.regs := by rw [hu]
  have hgood : s.goodPeriod p = (u.set xingStatus_FREQ_OOR 0).setReg xingPeriod
      (BitVec.ofNat 32 (((p :: s.xing.periods).take 8).sum / ((p :: s.xing.periods).take 8).length)) := by rw [hu]; rfl
  rw [hgood]
  refine ⟨by rw [hu]; rfl, ?_, ?_, ?_⟩
  · exact onlyIn_trans (onlyIn_mono hxing (by decide)) (onlyIn_trans (u.set_only xingStatus_FREQ_OOR 0 _ (by decide))
      (State.setReg_only _ xingPeriod _ _ (by decide)))
  · exact keepsRegs_trans (keepsRegs_of_eq _ hregs) (keepsRegs_trans (keepsRegs_mono (u.set_regs xingStatus_FREQ_OOR 0) (by decide))
      (keepsRegs_mono (State.setReg_regs _ xingPeriod _) (by decide)))
  · rw [State.get_setReg, if_neg (by decide), State.get_set_other _ _ _ _ (by decide) (by decide) (by decide)]
    exact State.get_congr (by rw [State.reg, hregs]; rfl)

/-- Without an anchor in use the number is the next one (R54). -/
theorem State.nextNumber_noAnchor {s : State} (ret : Bool) (hh : s.xing.hold = 0) (ha : s.anchorNow = none) :
    s.nextNumber ret = (s, s.xing.num + 1) := by
  have hself : ({ s with xing := { s.xing with hold := 0 } } : State) = s := by rw [← hh]
  simp only [State.nextNumber, hself, ha]
  rw [if_neg (by omega)]

/-- A crossing that a hold covers is not counted (R52). -/
theorem State.nextNumber_held {s : State} (ret : Bool) (hh : 1 < s.xing.hold) :
    s.nextNumber ret = ({ s with xing := { s.xing with hold := s.xing.hold - 1 } }, s.xing.num) := by
  simp only [State.nextNumber, if_pos hh]

theorem State.anchorNow_congr {s t : State} (ha : t.xing.anchorAge = s.xing.anchorAge) (hn : t.xing.anchor = s.xing.anchor)
    (hr : t.reg xingConfig = s.reg xingConfig) : t.anchorNow = s.anchorNow := by
  simp only [State.anchorNow, State.flag, State.get_congr (f := xingConfig_ANCHOR_EN) hr, ha, hn]
  rfl

/-- A real crossing in step: its number is what `nextNumber` says. -/
theorem State.realCrossing_count {s u : State} {p n : Nat} (raw : List (List Int)) (h : (s.goodPeriod p).nextNumber false = (u, n)) :
    (s.realCrossing p raw).count =
      ((n, u.clk.mono, u.xing.held, u.xing.hold, some u.clk.mono), u.get xingStatus_COASTING, u.get xingStatus_MAINS_L1) := by
  simp only [State.realCrossing, h]
  exact State.countCrossing_count { u with aon := { u.aon with counted := u.aon.counted + 1 } } n (s.clk.mono - s.xing.placed) raw

/-- The state in which mains has returned: coasting is over (R51). -/
def State.mainsBack (s : State) (p : Nat) : State := (((s.goodPeriod p).set xingStatus_COASTING 0).set xingStatus_MAINS_L1 1).raise 19

theorem State.mainsBack_spec (s : State) (p : Nat) : (s.mainsBack p).xing = { s.xing with periods := (p :: s.xing.periods).take 8 } ∧
    (s.mainsBack p).reg xingConfig = s.reg xingConfig ∧ (s.mainsBack p).get xingStatus_COASTING = 0 ∧
    (s.mainsBack p).get xingStatus_MAINS_L1 = 1 := by
  obtain ⟨hxing, -, hregs, -⟩ := s.goodPeriod_spec p
  have hreg (a : Nat) (h : a ≠ fryCnt) : (s.mainsBack p).reg a = (((s.goodPeriod p).set xingStatus_COASTING 0).set xingStatus_MAINS_L1 1).reg a :=
    State.raise_reg _ _ _ h
  refine ⟨?_, ?_, ?_, ?_⟩
  · rw [State.mainsBack, State.raise_xing, State.set_xing, State.set_xing, hxing]
  · rw [hreg _ (by decide), State.set_regs _ _ _ _ (by decide), State.set_regs _ _ _ _ (by decide), hregs _ (by decide)]
  · rw [State.get_congr (hreg _ (by decide)), State.get_set_other _ _ _ _ (by decide) (by decide) (by decide),
      State.get_set _ _ _ (by decide) (by decide)]
    rfl
  · rw [State.get_congr (hreg _ (by decide)), State.get_set _ _ _ (by decide) (by decide)]
    rfl

theorem State.mainsReturn_count {s u : State} {p n : Nat} (raw : List (List Int)) (hv : s.xing.valid = true)
    (h : (s.mainsBack p).nextNumber true = (u, n)) : (s.mainsReturn p raw).count =
      ((n, u.clk.mono, 0, u.xing.hold, some u.clk.mono), u.get xingStatus_COASTING, u.get xingStatus_MAINS_L1) := by
  rw [State.mainsBack] at h
  simp only [State.mainsReturn, hv, if_true, h]
  exact State.countCrossing_count { u with xing := { u.xing with held := 0 }, aon := { u.aon with coastNs := u.aon.coastNs + (s.clk.mono - s.xing.placed) } } n
    (s.clk.mono - s.xing.placed) raw

/-! ### L1_CROSSING -/

theorem l1Crossing_first {s : State} (raw : List (List Int)) (hf : s.clockFault 0 = false) (he : s.xing.lastEdge = none) :
    exec (.l1Crossing raw) s = .next { s with xing := { s.xing with lastEdge := some s.clk.mono } } := by
  simp only [exec, execL1Crossing, hf, he]
  exact State.out_plain s _ rfl rfl

section
variable {s : State} {e : Nat} (raw : List (List Int)) (hf : s.clockFault 0 = false) (he : s.xing.lastEdge = some e)
include hf he

theorem l1Crossing_bad (hp : s.periodOk (s.clk.mono - e) = false) :
    answers (.l1Crossing raw) s fun t => t.get xingStatus_FREQ_OOR = 1 ∧ t.xing.num = s.xing.num := by
  have hoor (u : State) : u.badPeriod.get xingStatus_FREQ_OOR = 1 ∧ u.badPeriod.xing = u.xing := by
    refine ⟨(State.get_congr (State.raise_reg _ _ _ (by decide))).trans ?_, by simp [State.badPeriod]⟩
    rw [State.get_set _ _ _ (by decide) (by decide)]
    rfl
  have hx : exec (.l1Crossing raw) s = s.out (if s.coasting then
      State.badPeriod { s with xing := { s.xing with lastEdge := some s.clk.mono, goodRun := 0 } } else s.badPeriod) := by
    simp [exec, execL1Crossing, hf, he, hp]
  refine answers_of_out_congr hx ?_
  split
  · exact ⟨(hoor _).1, by rw [(hoor _).2]⟩
  · exact ⟨(hoor _).1, by rw [(hoor _).2]⟩

theorem l1Crossing_inStep (hp : s.periodOk (s.clk.mono - e) = true) (hc : s.coasting = false) :
    exec (.l1Crossing raw) s = s.out (s.realCrossing (s.clk.mono - e) raw) := by simp [exec, execL1Crossing, hf, he, hp, hc]

theorem l1Crossing_counted (hp : s.periodOk (s.clk.mono - e) = true) (hc : s.coasting = false) (hh : s.xing.hold = 0)
    (ha : s.anchorNow = none) : answers (.l1Crossing raw) s fun t =>
      t.xing.num = s.xing.num + 1 ∧ t.xing.placed = s.clk.mono ∧ t.xing.lastEdge = some s.clk.mono := by
  obtain ⟨hxing, honly, hregs, -⟩ := s.goodPeriod_spec (s.clk.mono - e)
  have hnone : (s.goodPeriod (s.clk.mono - e)).anchorNow = none :=
    (State.anchorNow_congr (by rw [hxing]) (by rw [hxing]) (hregs xingConfig (by decide))).trans ha
  have hclk : (s.goodPeriod (s.clk.mono - e)).clk = s.clk := honly .clk (by decide)
  obtain ⟨hn, hplaced, -, -, hedge, -⟩ := State.of_count (State.realCrossing_count raw
    (State.nextNumber_noAnchor (s := s.goodPeriod (s.clk.mono - e)) false (by rw [hxing]; exact hh) hnone))
  rw [hxing] at hn
  rw [hclk] at hplaced hedge
  exact answers_of_out_congr (l1Crossing_inStep raw hf he hp hc) ⟨hn, hplaced, hedge⟩

theorem l1Crossing_held (hp : s.periodOk (s.clk.mono - e) = true) (hc : s.coasting = false) (hh : 1 < s.xing.hold) :
    answers (.l1Crossing raw) s fun t =>
      t.xing.num = s.xing.num ∧ t.xing.hold = s.xing.hold - 1 ∧ t.xing.lastEdge = some s.clk.mono := by
  obtain ⟨hxing, honly, -⟩ := s.goodPeriod_spec (s.clk.mono - e)
  have hclk : (s.goodPeriod (s.clk.mono - e)).clk = s.clk := honly .clk (by decide)
  obtain ⟨hn, -, -, hhold, hedge, -⟩ := State.of_count (State.realCrossing_count raw
    (State.nextNumber_held (s := s.goodPeriod (s.clk.mono - e)) false (by rw [hxing]; exact hh)))
  rw [hxing] at hn hhold
  rw [hclk] at hedge
  exact answers_of_out_congr (l1Crossing_inStep raw hf he hp hc) ⟨hn, hhold, hedge⟩

theorem l1Crossing_goodRun (hp : s.periodOk (s.clk.mono - e) = true) (hc : s.coasting = true) (hr : s.xing.goodRun < 3) :
    answers (.l1Crossing raw) s fun t =>
      t.xing.num = s.xing.num ∧ t.xing.goodRun = s.xing.goodRun + 1 ∧ t.coasting = true ∧ onlyIn [.xing, .regs] s t := by
  obtain ⟨u, hu⟩ : ∃ u : State, u = { s with xing := { s.xing with lastEdge := some s.clk.mono, goodRun := s.xing.goodRun + 1 } } := ⟨_, rfl⟩
  have hx : exec (.l1Crossing raw) s = s.out (u.goodPeriod (s.clk.mono - e)) := by simp [exec, execL1Crossing, hf, he, hp, hc, hr, hu]
  obtain ⟨hxing, honly, -, hcoast⟩ := u.goodPeriod_spec (s.clk.mono - e)
  have hall : onlyIn [.xing, .regs] s (u.goodPeriod (s.clk.mono - e)) := onlyIn_trans (hu ▸ onlyIn_xing s _ _ (by decide)) honly
  refine answers_of_out hx (hall .pending (by decide)) (hall .fuses (by decide)) ⟨?_, ?_, ?_, hall⟩
  · rw [hxing, hu]
  · rw [hxing, hu]
  · rw [State.coasting, State.flag, hcoast, hu]
    exact hc

theorem l1Crossing_mainsBack (hp : s.periodOk (s.clk.mono - e) = true) (hc : s.coasting = true) (hr : 3 ≤ s.xing.goodRun)
    (hh : s.xing.hold = 0) (ha : s.anchorNow = none) (hv : s.xing.valid = true) : answers (.l1Crossing raw) s fun t =>
      t.xing.num = s.xing.num + 1 ∧ t.coasting = false ∧ t.get xingStatus_MAINS_L1 = 1 := by
  have hx : exec (.l1Crossing raw) s = s.out (s.mainsReturn (s.clk.mono - e) raw) := by
    simp [exec, execL1Crossing, hf, he, hp, hc, not_lt.mpr hr]
  obtain ⟨hxing, hconfig, hcoast, hmains⟩ := s.mainsBack_spec (s.clk.mono - e)
  have hnone : (s.mainsBack (s.clk.mono - e)).anchorNow = none := (State.anchorNow_congr (by rw [hxing]) (by rw [hxing]) hconfig).trans ha
  obtain ⟨hn, -, -, -, -, hcoasting, hl1⟩ := State.of_count (State.mainsReturn_count raw hv
    (State.nextNumber_noAnchor (s := s.mainsBack (s.clk.mono - e)) true (by rw [hxing]; exact hh) hnone))
  rw [hxing] at hn
  refine answers_of_out_congr hx ⟨hn, ?_, hl1.trans hmains⟩
  show ((s.mainsReturn (s.clk.mono - e) raw).get xingStatus_COASTING != 0) = false
  rw [hcoasting, hcoast]
  rfl

/-! ### PHASE_CROSSING -/

theorem phaseCrossing_answers (p : Nat) (hp : p = 1 ∨ p = 2) : answers (.phaseCrossing p) s fun t =>
      (if p = 1 then t.xing.l2 else t.xing.l3) = (if p = 1 then s.xing.l2 else s.xing.l3).edge
        ((s.clk.mono - (if s.coasting = true ∧ s.xing.valid = true then s.xing.placed else e)) * 65536 / s.lastPeriod % 65536) ∧
      t.xing = { s.xing with l2 := t.xing.l2, l3 := t.xing.l3 } ∧ (p = 1 → t.xing.l3 = s.xing.l3) ∧
      (p = 2 → t.xing.l2 = s.xing.l2) ∧ onlyIn [.xing] s t := by
  obtain ⟨off, hoff⟩ : ∃ off, off = (s.clk.mono - (if s.coasting = true ∧ s.xing.valid = true then s.xing.placed else e)) * 65536 /
    s.lastPeriod % 65536 := ⟨_, rfl⟩
  rw [← hoff]
  rcases hp with rfl | rfl
  · exact answers_of_out (u := { s with xing := { s.xing with l2 := s.xing.l2.edge off } }) (by simp [exec, execPhaseCrossing, hf, he, hoff])
      rfl rfl ⟨rfl, rfl, fun _ => rfl, fun h => absurd h (by decide), onlyIn_xing s _ _ (by decide)⟩
  · exact answers_of_out (u := { s with xing := { s.xing with l3 := s.xing.l3.edge off } }) (by simp [exec, execPhaseCrossing, hf, he, hoff])
      rfl rfl ⟨rfl, rfl, fun h => absurd h (by decide), fun _ => rfl, onlyIn_xing s _ _ (by decide)⟩

end

/-! ### Coasting -/

theorem coastingBegins_answers (s : State) (raw : List (List Int)) (e : Nat) (he : s.xing.lastEdge = some e) (hc : s.coasting = false)
    (hp : s.lastPeriod * 3 / 2 ≤ s.clk.mono - e) : answers (.coastingBegins raw) s fun t =>
      t.xing.num = s.xing.num + 1 ∧ t.xing.held = s.period ∧ t.xing.placed = s.xing.placed + s.period ∧
      t.get xingStatus_COASTING = 1 ∧ t.get xingStatus_MAINS_L1 = 0 := by
  obtain ⟨u, hu⟩ : ∃ u : State, u = { s with xing := { s.xing with held := s.period, hold := 0, goodRun := 0 } } := ⟨_, rfl⟩
  obtain ⟨v, hv⟩ : ∃ v, v = ((u.set xingStatus_COASTING 1).set xingStatus_MAINS_L1 0).raise 18 := ⟨_, rfl⟩
  have hx : exec (.coastingBegins raw) s = s.out (v.coastOne raw) := by
    simp [exec, execCoastingBegins, he, hc, not_lt.mpr hp, hu, hv]
  have hxing : v.xing = { s.xing with held := s.period, hold := 0, goodRun := 0 } := by rw [hv, State.raise_xing, State.set_xing, State.set_xing, hu]
  have hreg : v.reg xingStatus = ((u.set xingStatus_COASTING 1).set xingStatus_MAINS_L1 0).reg xingStatus := by
    rw [hv, State.raise_reg _ _ _ (by decide)]
  have hcoasting : v.get xingStatus_COASTING = 1 := by
    rw [State.get_congr hreg, State.get_set_other _ _ _ _ (by decide) (by decide) (by decide), State.get_set _ _ _ (by decide) (by decide)]
    rfl
  have hmains : v.get xingStatus_MAINS_L1 = 0 := by
    rw [State.get_congr hreg, State.get_set _ _ _ (by decide) (by decide)]
    rfl
  obtain ⟨hn, hplaced, hheld, -, -, hcoast, hl1⟩ := State.of_count (v.coastOne_count raw)
  simp only [hxing] at hn hplaced hheld
  generalize v.coastOne raw = t at hx hn hplaced hheld hcoast hl1
  exact answers_of_out_congr hx ⟨hn, hheld, hplaced, hcoast.trans hcoasting, hl1.trans hmains⟩

theorem coastedCrossing_answers (s : State) (raw : List (List Int)) (hc : s.coasting = true) (hv : s.xing.valid = true) (hh : s.xing.held ≠ 0)
    (hp : s.xing.placed + s.xing.held ≤ s.clk.mono) : answers (.coastedCrossing raw) s fun t =>
      t.xing.num = s.xing.num + 1 ∧ t.xing.placed = s.xing.placed + s.xing.held ∧ t.xing.held = s.xing.held := by
  have hx : exec (.coastedCrossing raw) s = s.out (s.coastOne raw) := by simp [exec, execCoastedCrossing, hc, hv, hh, hp]
  obtain ⟨hn, hplaced, hheld, -⟩ := State.of_count (s.coastOne_count raw)
  generalize s.coastOne raw = t at hx hn hplaced hheld
  exact answers_of_out_congr hx ⟨hn, hplaced, hheld⟩

/-- Settles O10, a clause for each lemma. -/
theorem crossingsAreCounted : Obligations.CrossingsAreCounted :=
  ⟨fun _ raw => l1Crossing_first raw, fun _ raw _ => l1Crossing_bad raw, fun _ raw _ => l1Crossing_counted raw,
   fun _ raw _ => l1Crossing_held raw, fun _ raw _ => l1Crossing_goodRun raw, fun _ raw _ => l1Crossing_mainsBack raw,
   fun _ p _ hf he => phaseCrossing_answers hf he p, coastingBegins_answers, coastedCrossing_answers⟩

end Sys2Proof.Machine

/-! ## 02_crossing_time.md: the launch unit -/

namespace Sys2Proof.Machine

/-! ### What has left the device stays on record -/

theorem msixOf_sent (e : Nat) (s : State) : s.sent <:+ (msixOf e s).sent := by
  simp only [msixOf]
  split
  · exact List.suffix_rfl
  · split
    · exact List.suffix_cons _ _
    · exact List.suffix_rfl

theorem State.reach_sent (s : State) (e : Nat) : s.sent <:+ (s.reach e).sent := by
  have hoar (s : State) (n : Nat) : (oarAssert e s n).sent = s.sent := oarAssert_only e n s .sent (by decide)
  rw [State.reach, foldl_keeps State.sent hoar]
  exact msixOf_sent e s

theorem State.assertEvt_sent (s : State) (e : Nat) : s.sent <:+ (s.assertEvt e).1.sent := by
  have hreach := s.reach_sent e
  have hwake (ws : List Nat) : (ws.foldl (fun st t => st.wake e t) (s.reach e)).sent = (s.reach e).sent :=
    foldl_keeps State.sent (fun s t => s.wake_sent e t) _ _
  rw [State.assertEvt_eq]
  generalize s.reach e = r at hreach hwake
  split
  · split
    · split
      · rwa [State.bump_sent]
      · simpa only [State.bump_sent] using hreach
    · exact hreach
  · rwa [hwake]

theorem State.raise_sent (s : State) (e : Nat) : s.sent <:+ (s.raise e).sent := by
  unfold State.raise
  split
  · simp only
    split
    · exact (s.assertEvt_sent e).trans (State.assertEvt_sent _ 388)
    · exact s.assertEvt_sent e
  · exact List.suffix_rfl

/-! ### Which queues are the network's -/

/-- An indirect queue is the radio's, if not the PLC line's (R185). -/
theorem State.isIndirect_of_medium {s : State} {q : Nat} (h : s.man.medium q = .gwy ∨ ∃ x, s.man.medium q = .eth x) :
    s.isIndirect q = false := by
  by_contra hi
  rw [Bool.not_eq_false, State.isIndirect, List.any_eq_true] at hi
  obtain ⟨r, -, hr⟩ := hi
  have hlt : r < s.man.roles.radIndirect.length := by
    by_contra hge
    rw [roleQ, List.getD_eq_default _ _ (not_lt.mp hge)] at hr
    simp at hr
  obtain ⟨k, hk⟩ : ∃ k, (List.range s.man.roles.radIndirect.length).find? (fun i => roleQ s.man.roles.radIndirect i == some q) = some k :=
    Option.isSome_iff_exists.mp (List.find?_isSome.mpr ⟨r, List.mem_range.mpr hlt, hr⟩)
  simp only [Manifest.medium, hk] at h
  (repeat' split at h) <;> simp_all


/-! ### What the handling of a queue may change -/

/-- From `s` to `t` nothing changes but the queues, what an event reaches, and the registers of queue `n`; what has left stays. -/
structure onlyQueue (n : Nat) (s t : State) : Prop where
  only : onlyIn (.whf :: evtParts) s t
  regs : keepsRegs [whfQStat n, whfQCnt n, fryCnt] s t
  sent : s.sent <:+ t.sent

theorem onlyQueue.trans {n : Nat} {s t u : State} (h : onlyQueue n s t) (k : onlyQueue n t u) : onlyQueue n s u :=
  ⟨onlyIn_trans h.only k.only, keepsRegs_trans h.regs k.regs, h.sent.trans k.sent⟩

theorem onlyQueue.refl {n : Nat} {s : State} : onlyQueue n s s := ⟨onlyIn_refl _ s, keepsRegs_refl _ s, List.suffix_rfl⟩

theorem State.setQ_onlyQueue (s : State) (m n : Nat) (x : Queue) : onlyQueue n s (s.setQ m x) :=
  ⟨onlyIn_whf s _ _ (by decide), keepsRegs_of_eq _ rfl, List.suffix_rfl⟩

theorem State.raise_onlyQueue (s : State) (n e : Nat) : onlyQueue n s (s.raise e) :=
  ⟨onlyIn_mono (s.raise_only e) (by decide), keepsRegs_mono (s.raise_regs e) (by simp), s.raise_sent e⟩

theorem State.raiseIf_onlyQueue (s : State) (n : Nat) (c : Bool) (e : Nat) : onlyQueue n s (s.raiseIf c e) := by
  cases c
  · exact .refl
  · exact s.raise_onlyQueue n e

/-- A field of a register of the queue. -/
theorem State.set_onlyQueue (s : State) {n : Nat} {f : Fld} (v : Nat) (h : f.addr = whfQStat n ∨ f.addr = whfQCnt n) : onlyQueue n s (s.set f v) := by
  refine ⟨s.set_only f v _ (by decide), keepsRegs_mono (s.set_regs f v) ?_, ?_⟩
  · rcases h with h | h <;> simp [h]
  · exact List.suffix_rfl

theorem State.noteDelivery_onlyQueue (s : State) (n : Nat) (it : Item) : onlyQueue n s (s.noteDelivery n it) := by
  unfold State.noteDelivery
  split
  · exact (s.set_onlyQueue _ (.inr rfl)).trans (State.set_onlyQueue _ _ (.inl rfl))
  · exact .refl

theorem State.touchQ_onlyQueue (s : State) (n : Nat) (f : State → State) (h : onlyQueue n s (f s)) : onlyQueue n s (s.touchQ n f) := by
  have hcredit : onlyQueue n s (if s.qFree n < 258 ∧ 258 ≤ (f s).qFree n then (f s).set (whfQStat_CREDIT n) 1 else f s) := by
    split
    · exact h.trans (State.set_onlyQueue _ 1 (.inl rfl))
    · exact h
  unfold State.touchQ
  simp only
  generalize (if s.qFree n < 258 ∧ 258 ≤ (f s).qFree n then (f s).set (whfQStat_CREDIT n) 1 else f s) = u at hcredit
  split
  · exact hcredit.trans (u.raise_onlyQueue n _)
  · exact hcredit

theorem State.touchQ_q (s : State) (n : Nat) (f : State → State) : (s.touchQ n f).q n = (f s).q n := by
  rw [State.q, State.q, State.touchQ_whf]

theorem State.q_setQ (s : State) (n : Nat) (x : Queue) : (s.setQ n x).q n = x := by simp [State.q, State.setQ]

/-! ### The item at the head -/

theorem State.launchHead_iff {s : State} {q : Nat} {it : Item} : s.launchHead q = some it ↔
    ∃ i, (s.q q).nextIdx = some i ∧ (s.q q).items.getD i {} = it ∧ it.delayed = false := by
  rw [State.launchHead]
  cases (s.q q).nextIdx with
  | none => simp
  | some i =>
    simp only [Option.some.injEq, exists_eq_left']
    split
    · next h => simp only [reduceCtorEq, false_iff, not_and]; rintro rfl; rwa [Bool.not_eq_false]
    · next h => simp only [Option.some.injEq]; constructor
                · rintro rfl; exact ⟨rfl, by simpa using h⟩
                · exact fun h => h.1

theorem Queue.nextIdx_lt {x : Queue} {i : Nat} (h : x.nextIdx = some i) : i < x.items.length :=
  List.mem_range.mp (List.mem_of_find?_eq_some h)

/-- An item changed where it stands, its done mark kept, leaves the next item to be the same one. -/
theorem Queue.nextIdx_set (x : Queue) (i : Nat) (it : Item) (h : it.done = (x.items.getD i {}).done) :
    Queue.nextIdx { x with items := x.items.set i it } = x.nextIdx := by
  have hdone (j : Nat) : ((x.items.set i it).getD j {}).done = (x.items.getD j {}).done := by
    rw [List.getD_eq_getElem?_getD, List.getElem?_set]
    split
    · next hij =>
      subst hij
      split
      · exact h
      · next hlt => rw [List.getD_eq_default _ _ (not_lt.mp hlt)]; rfl
    · rw [List.getD_eq_getElem?_getD]
  simp only [Queue.nextIdx, List.length_set, hdone]

theorem State.markLate_onlyQueue (s : State) (q : Nat) : onlyQueue q s (s.markLate q) := by
  simp only [State.markLate, State.markHead]
  split
  · exact .refl
  · exact s.setQ_onlyQueue q q _

theorem State.markLate_q {s : State} {q i : Nat} (h : (s.q q).nextIdx = some i) : (s.markLate q).q q =
    { s.q q with items := (s.q q).items.set i { (s.q q).items.getD i {} with late := true } } := by
  simp only [State.markLate, State.markHead, h]
  exact s.q_setQ q _

theorem State.markLate_nextIdx {s : State} {q i : Nat} (h : (s.q q).nextIdx = some i) : ((s.markLate q).q q).nextIdx = some i := by
  rw [State.markLate_q h, ← h]
  exact Queue.nextIdx_set (s.q q) i _ rfl

theorem State.markLate_launchHead {s : State} {q : Nat} {it : Item} (h : s.launchHead q = some it) :
    (s.markLate q).launchHead q = some { it with late := true } := by
  obtain ⟨i, hi, hit, hdelayed⟩ := State.launchHead_iff.mp h
  refine State.launchHead_iff.mpr ⟨i, State.markLate_nextIdx hi, ?_, hdelayed⟩
  rw [State.markLate_q hi, hit]
  simp [List.getD_eq_getElem?_getD, Queue.nextIdx_lt hi]

/-- Removal: HEAD passes the item (R64, R65). -/
theorem State.qDropHead_spec {s : State} {q n : Nat} (h : (s.q q).nextIdx = some n) : onlyQueue q s (s.qDropHead q) ∧
    ((s.qDropHead q).q q).head = ((s.q q).mark + n + 1) % 2 ^ 32 := by
  have hsettle (x y : Queue) : (x.settle y).head = x.head := by
    unfold Queue.settle
    simp only
    split <;> split <;> rfl
  simp only [State.qDropHead, h]
  refine ⟨State.touchQ_onlyQueue _ _ _ (s.setQ_onlyQueue _ _ _), ?_⟩
  rw [State.touchQ_q, State.q_setQ, hsettle]
  split <;> rfl

/-- Delivery of the item at the head to the launch unit (R63, R66). -/
theorem State.takeMain_spec {s : State} {q : Nat} {it : Item} (hu : s.qUsed q = true) (h : s.launchHead q = some it) :
    ∃ r t, s.takeMain q = some ({ it with redelivered := r }, t) ∧ onlyQueue q s t ∧ (t.q q).held = false := by
  obtain ⟨i, hi, hit, hdelayed⟩ := State.launchHead_iff.mp h
  obtain ⟨y, hy⟩ : ∃ y : Queue, y = { s.q q with lane := [], held := false, due := none } := ⟨_, rfl⟩
  have hnext : y.nextIdx = some i := by rw [hy]; exact hi
  have hitem : y.items.getD i {} = it := by rw [hy]; exact hit
  have hdeliverable : y.deliverable = true := by
    have hlane : y.lane = [] := by rw [hy]
    have hheld : y.held = false := by rw [hy]
    simp only [Queue.deliverable, hlane, hnext, hheld, hitem, hdelayed, Bool.not_false, Bool.and_self]
  have hlane : y.lane = [] := by rw [hy]
  have hused : (s.setQ q y).qUsed q = true := hu
  have hdeliver : ∃ (r : Bool) (x : Queue), (s.setQ q y).deliver q = some ({ it with redelivered := r }, (s.setQ q y).touchQ q fun s =>
      (s.setQ q x).noteDelivery q { it with redelivered := r }) ∧ x.held = false := by
    simp only [State.deliver, State.q_setQ, hused, hdeliverable, hlane, hnext, hitem, Bool.not_true, Bool.or_self, Bool.false_eq_true, if_false]
    refine ⟨_, _, rfl, ?_⟩
    have hheld : y.held = false := by rw [hy]
    refine ite_keeps Queue.held ?_ ?_ <;> exact ite_keeps Queue.held hheld hheld
  obtain ⟨r, x, hx, hheld⟩ := hdeliver
  generalize hit' : ({ it with redelivered := r } : Item) = it' at hx
  have honly : onlyQueue q s ((s.setQ q y).touchQ q fun s => (s.setQ q x).noteDelivery q it') :=
    (s.setQ_onlyQueue q q y).trans (State.touchQ_onlyQueue _ _ _ ((State.setQ_onlyQueue _ q q x).trans (State.noteDelivery_onlyQueue _ _ _)))
  have hq : (((s.setQ q y).touchQ q fun s => (s.setQ q x).noteDelivery q it').q q).held = false := by
    rw [State.touchQ_q]
    have hnote (u : State) : (u.noteDelivery q it').q q = u.q q := by
      unfold State.noteDelivery
      split <;> rfl
    rw [hnote, State.q_setQ]
    exact hheld
  generalize ((s.setQ q y).touchQ q fun s => (s.setQ q x).noteDelivery q it') = t at hx honly hq
  have htake : s.takeMain q = some (it', t.setQ q { t.q q with
      lane := (s.q q).lane, idleRun := if (s.q q).lane = [] then (t.q q).idleRun else (s.q q).idleRun }) := by
    simp only [State.takeMain, ← hy, hx, Option.map_some]
  exact ⟨r, _, hit' ▸ htake, honly.trans (t.setQ_onlyQueue q q _), by rw [State.q_setQ]; exact hq⟩


/-! ### A frame leaves -/

/-- An item of an Ethernet port's queue leaves with its bytes (R66, R206). -/
theorem State.startEth_eq {s : State} {q x : Nat} {it : Item} (late renum : Bool) (hu : s.qUsed q = true) (hh : s.launchHead q = some it)
    (hj : smGet none s.eth.jobs x = none) (hf : s.fwdWaits x = false) (hk : it.radKind = 0) : ∃ u : State, onlyQueue q s u ∧
      (u.q q).held = false ∧
      s.startEth q x late renum = u.sendEth x { q := q, flow := it.flow, bytes := it.ethBytes, stamp := u.ethTx x late renum } := by
  obtain ⟨r, u, htake, honly, hheld⟩ := State.takeMain_spec hu hh
  refine ⟨u, honly, hheld, ?_⟩
  have hkind : Item.radKind { it with redelivered := r } = 0 := hk
  simp only [State.startEth, hj, hf, htake, hkind, Option.isSome_none, Bool.false_eq_true, if_false, if_true]
  rfl

theorem State.sendEth_sent (s : State) (x : Nat) (j : EthJob) : Output.ethFrame x j.bytes ∈ (s.sendEth x j).sent := List.mem_cons_self

/-- The registers below the Wharf's are no queue's. -/
theorem onlyQueue.reg_below {n a : Nat} {s t : State} (h : onlyQueue n s t) (ha : a < whfQStat 0) : t.reg a = s.reg a := by
  refine h.regs a ?_
  have h0 : whfQStat 0 = 0xC00008 := rfl
  have hstat : whfQStat n = 0xC00008 + 0x20 * n := rfl
  have hcnt : whfQCnt n = 0xC0001C + 0x20 * n := rfl
  have hfry : fryCnt = 0xD00004 := rfl
  simp only [List.mem_cons, List.not_mem_nil, or_false]
  omega

theorem State.gwyFrame_congr {s t : State} {n : Nat} (h : onlyQueue n s t) (p : Nat) (d : List Byte) : t.gwyFrame p d = s.gwyFrame p d := by
  have hman : t.man = s.man := h.only .man (by decide)
  have hgwy : t.gwy = s.gwy := h.only .gwy (by decide)
  have hcfg (f : Fld) (hf : f.addr = gwyCfg) : t.get f = s.get f := State.get_congr (h.reg_below (by rw [hf]; decide))
  have hplace : t.peerPlace p = s.peerPlace p := by
    simp only [State.peerPlace, State.chipEnrol, State.peer, hman, hgwy]
  simp only [State.gwyFrame, hplace, State.macOf, State.ownIp, State.flag, hman, hcfg gwyCfg_IPVER rfl, hcfg gwyCfg_PORT rfl]
  rfl

theorem Queue.settle_held {x : Queue} (y : Queue) (h : x.held = false) : (x.settle y).held = false := by
  unfold Queue.settle
  simp only
  split <;> split
  · exact h
  · exact h
  · rfl
  · rfl

/-- Releasing retained items holds none (R399). -/
theorem State.qRelease_spec (s : State) (m : Nat) (all : Bool) (iseq : Nat) : s.sent <:+ (s.qRelease m all iseq).sent ∧
    ∀ q, (s.q q).held = false → ((s.qRelease m all iseq).q q).held = false := by
  have hself : s.sent <:+ s.sent ∧ ∀ q, (s.q q).held = false → (s.q q).held = false := ⟨List.suffix_rfl, fun _ h => h⟩
  unfold State.qRelease
  split
  · exact hself
  · simp only
    split
    · exact hself
    · refine ⟨(State.touchQ_onlyQueue _ _ _ (s.setQ_onlyQueue _ _ _)).sent, fun q hq => ?_⟩
      by_cases hqm : q = m
      · subst hqm
        rw [State.touchQ_q, State.q_setQ]
        exact Queue.settle_held _ hq
      · rw [State.q, State.touchQ_whf]
        simp only [State.setQ, smGet_put, if_neg hqm]
        exact hq

/-- The Gangway's queue settles by a release, or not at all. -/
theorem State.gwySettle_cases (s : State) : s.gwySettle = s ∨ ∃ m k, s.gwySettle = s.qRelease m false k := by
  obtain ⟨last, hlast⟩ : ∃ l, l = @List.getLast? Item := ⟨_, rfl⟩
  rw [State.gwySettle, ← hlast]
  clear hlast
  split
  · exact .inl rfl
  · simp only
    split
    · exact .inl rfl
    · exact .inr ⟨_, _, rfl⟩

theorem State.gwySettle_spec (s : State) : s.sent <:+ s.gwySettle.sent ∧ ∀ q, (s.q q).held = false → (s.gwySettle.q q).held = false := by
  rcases s.gwySettle_cases with h | ⟨m, k, h⟩ <;> rw [h]
  · exact ⟨List.suffix_rfl, fun _ h => h⟩
  · exact s.qRelease_spec m false k

/-- An item of the Gangway's queue leaves as its message in a UDP frame (R66, R214). -/
theorem State.startGwy_sent {s : State} {q : Nat} {it : Item} (late renum : Bool) (hu : s.qUsed q = true) (hh : s.launchHead q = some it)
    (hj : smGet none s.eth.jobs (s.peerPlace it.radDst).port = none) (hf : s.fwdWaits (s.peerPlace it.radDst).port = false) :
    Output.ethFrame (s.peerPlace it.radDst).port (s.gwyFrame it.radDst it.ethBytes) ∈ (s.startGwy q late renum).sent ∧
      ((s.startGwy q late renum).q q).held = false := by
  obtain ⟨r, u, htake, honly, hheld⟩ := State.takeMain_spec hu hh
  obtain ⟨j, hstart, hbytes⟩ : ∃ j : EthJob, s.startGwy q late renum = (((u.sendEth (s.peerPlace it.radDst).port j).ackCarried it.radDst
      it.ethBytes).gwySettle).raiseIf (beAt it.ethBytes 1 1 == 3) 176 ∧ j.bytes = s.gwyFrame it.radDst it.ethBytes := by
    simp only [State.startGwy, hh, hj, hf, htake, Option.isSome_none, Bool.false_eq_true, if_false]
    exact ⟨_, rfl, State.gwyFrame_congr honly _ _⟩
  rw [hstart]
  have hsent := u.sendEth_sent (s.peerPlace it.radDst).port j
  have hsend : ((u.sendEth (s.peerPlace it.radDst).port j).q q).held = false := hheld
  generalize u.sendEth (s.peerPlace it.radDst).port j = v at hsent hsend
  have hack : (v.ackCarried it.radDst it.ethBytes).sent = v.sent ∧ (v.ackCarried it.radDst it.ethBytes).q q = v.q q := by
    unfold State.ackCarried
    split <;> exact ⟨rfl, rfl⟩
  obtain ⟨hacksent, hackq⟩ := hack
  obtain ⟨hsettle, hsettled⟩ := (v.ackCarried it.radDst it.ethBytes).gwySettle_spec
  generalize (v.ackCarried it.radDst it.ethBytes).gwySettle = w at hsettle hsettled
  have hraise := w.raiseIf_onlyQueue q (beAt it.ethBytes 1 1 == 3) 176
  have hraiseq : (w.raiseIf (beAt it.ethBytes 1 1 == 3) 176).q q = w.q q := by
    cases beAt it.ethBytes 1 1 == 3
    · rfl
    · exact w.raise_q 176 q
  refine ⟨hraise.sent.subset (hsettle.subset (by rw [hacksent, ← hbytes]; exact hsent)), ?_⟩
  rw [hraiseq]
  exact hsettled q (by rw [hackq]; exact hsend)

/-! ### What the launch unit makes of the item at the head -/

theorem State.medium_of_netQueue {s : State} {q : Nat} (h : s.netQueue q = true) :
    s.man.medium q = .gwy ∨ ∃ x, s.man.medium q = .eth x ∧ s.fwdWaits x = false := by
  unfold State.netQueue at h
  split at h
  · next hm => exact .inl hm
  · next x hm => exact .inr ⟨x, hm, by simpa [State.fwdWaits] using h⟩
  · exact absurd h (by decide)

/-- What the launch unit makes of the item at the head, by the judgement of its instant (R63 to R65). -/
def State.launchAs (s : State) (q air : Nat) (due : Option (Bool × Nat)) : LaunchWhen → State
  | .now => s.startMain q air false false
  | .held => s.holdFor q due
  | .late => s.lateItem q air
  | .far => s.removeFar q
  | .skipped => s.startMain q air false true

/-- Of an item that is its to judge the launch unit makes what the judgement says (R63 to R65). -/
theorem launchAtHead_judged {s : State} {q : Nat} {it : Item} {w : LaunchWhen} (air : Nat) (hr : launchReady s q it) (hn : s.netQueue q = true)
    (hl : it.late = false) (hw : s.judge (s.launchDue (it.word 0) 0) = w) :
    exec (.launchItemAtHead q air) s = s.out (s.launchAs q air (s.launchDue (it.word 0) 0) w) := by
  obtain ⟨hwarn, hused, hlane, hheld, hhead, harmed⟩ := hr
  have hjit : s.jitter q (it.word 0) = (0, s) := by simp only [State.jitter, harmed]
  have hind : s.isIndirect q = false := by
    rcases State.medium_of_netQueue hn with hm | ⟨x, hm, -⟩
    · exact State.isIndirect_of_medium (.inl hm)
    · exact State.isIndirect_of_medium (.inr ⟨x, hm⟩)
  have hstep : s.launchHeadStep q air = s.launchMain q air := by
    rcases State.medium_of_netQueue hn with hm | ⟨x, hm, hf⟩
    · simp only [State.launchHeadStep, hlane, hm]
    · simp only [State.launchHeadStep, hlane, hm, hf, Bool.false_eq_true, if_false]
  have hmain : s.launchMain q air = s.launchAs q air (s.launchDue (it.word 0) 0) w := by
    rcases State.medium_of_netQueue hn with hm | ⟨x, hm, -⟩ <;>
      simp only [State.launchMain, hhead, hheld, hind, hm, hjit, hl, hw, Option.isSome_none, Option.any_none, Bool.or_self, Bool.false_and,
        Bool.false_eq_true, if_false] <;> rfl
  simp only [exec, execLaunchItemAtHead, hwarn, hused, Bool.not_true, Bool.or_self, Bool.false_eq_true, if_false, hstep, hmain]

/-- An item counted, with its event (R64, R65). -/
theorem State.counted_get (s : State) (f : Fld) (e : Nat) (hl : f.lo ≤ f.hi) (hh : f.hi < 32) (ha : f.addr ≠ fryCnt) :
    ((s.bump f 1).raise e).get f = satAdd (s.get f) 1 f.top := by
  have htop : satAdd (s.get f) 1 f.top < 2 ^ (f.hi + 1 - f.lo) := by
    have hpos := Nat.two_pow_pos (f.hi + 1 - f.lo)
    rw [satAdd, Fld.top]
    omega
  rw [State.get_congr (State.raise_reg _ e _ ha), State.bump, State.get_set _ _ _ hl hh, Nat.mod_eq_of_lt htop]

/-- XING_LATE_q lies below the Wharf's registers. -/
theorem xingLate_below {q : Nat} (hq : q < 256) : xingLate q < whfQStat 0 ∧ xingLate q ≠ fryCnt := by
  have h0 : whfQStat 0 = 0xC00008 := rfl
  have hl : xingLate q = 0x100400 + 0x4 * q := rfl
  have hfry : fryCnt = 0xD00004 := rfl
  omega

/-- The crossing-time instant of a launch word, in the present run of 2^62 (R63). -/
theorem State.launchDue_xt {s : State} {w : Nat} (h63 : natBit w 63 = true) (h62 : natBit w 62 = true) :
    s.launchDue w 0 = some (true, w % 2 ^ 62 + s.xt / 2 ^ 62 * 2 ^ 62) := by
  simp [State.launchDue, h63, h62]

theorem launchAtHead_held (s : State) (q air : Nat) (it : Item) (hr : launchReady s q it) (hn : s.netQueue q = true) (hl : it.late = false)
    (h63 : natBit (it.word 0) 63 = true) (h62 : natBit (it.word 0) 62 = true) (ha : s.xt < it.word 0 % 2 ^ 62 + s.xt / 2 ^ 62 * 2 ^ 62)
    (hb : it.word 0 % 2 ^ 62 + s.xt / 2 ^ 62 * 2 ^ 62 ≤ s.xt + 4096 * 65536) :
    answers (.launchItemAtHead q air) s fun t => (t.q q).held = true ∧
      (t.q q).due = some (true, it.word 0 % 2 ^ 62 + s.xt / 2 ^ 62 * 2 ^ 62) ∧ (t.q q).items = (s.q q).items ∧ onlyIn [.whf] s t := by
  have hw : s.judge (s.launchDue (it.word 0) 0) = .held := by
    rw [State.launchDue_xt h63 h62]
    simp only [State.judge]
    rw [if_neg (not_lt.mpr hb), if_neg ha.ne, if_pos ha]
  have hx := launchAtHead_judged air hr hn hl hw
  rw [State.launchDue_xt h63 h62] at hx
  refine answers_of_out hx rfl rfl ?_
  simp only [State.launchAs, State.holdFor, State.q_setQ, true_and]
  exact onlyIn_whf s _ _ (by decide)

theorem launchAtHead_far (s : State) (q air n : Nat) (it : Item) (hq : q < 256) (hr : launchReady s q it) (hn : s.netQueue q = true)
    (hl : it.late = false) (h63 : natBit (it.word 0) 63 = true) (h62 : natBit (it.word 0) 62 = true)
    (hf : s.xt + 4096 * 65536 < it.word 0 % 2 ^ 62 + s.xt / 2 ^ 62 * 2 ^ 62) (hi : (s.q q).nextIdx = some n) :
    answers (.launchItemAtHead q air) s fun t =>
      t.get (xingLate_FAR q) = satAdd (s.get (xingLate_FAR q)) 1 255 ∧ (t.q q).head = ((s.q q).mark + n + 1) % 2 ^ 32 := by
  have hw : s.judge (s.launchDue (it.word 0) 0) = .far := by
    rw [State.launchDue_xt h63 h62]
    simp only [State.judge]
    rw [if_pos hf]
  obtain ⟨u, hu⟩ : ∃ u, u = (s.bump (xingLate_FAR q) 1).raise 29 := ⟨_, rfl⟩
  have hremove : s.removeFar q = u.qDropHead q := by
    have hman : u.man = s.man := by rw [hu, State.raise_man, State.bump_man]
    rcases State.medium_of_netQueue hn with hm | ⟨x, hm, -⟩ <;> simp only [State.removeFar, ← hu, hman, hm]
  have huq : u.q q = s.q q := by rw [hu, State.raise_q]; rfl
  obtain ⟨hdrop, hhead⟩ := State.qDropHead_spec (s := u) (by rw [huq]; exact hi)
  have hx := launchAtHead_judged air hr hn hl hw
  simp only [State.launchAs, hremove] at hx
  have hfar : (u.qDropHead q).get (xingLate_FAR q) = satAdd (s.get (xingLate_FAR q)) 1 255 := by
    obtain ⟨hbelow, hfry⟩ := xingLate_below hq
    rw [State.get_congr (f := xingLate_FAR q) (hdrop.reg_below hbelow), hu]
    exact s.counted_get (xingLate_FAR q) 29 (show 16 ≤ 23 by decide) (show 23 < 32 by decide) hfry
  rw [huq] at hhead
  generalize u.qDropHead q = t at hx hhead hfar
  exact answers_of_out_congr hx ⟨hfar, hhead⟩

/-! ### A late item -/

/-- A late item that was not counted yet: counted, with event 28, and marked (R65). -/
def State.lateCounted (s : State) (q : Nat) : State := ((s.bump (xingLate_LATE q) 1).raise 28).markLate q

theorem State.lateCounted_spec (s : State) {q : Nat} (hq : q < 256) :
    onlyIn (.whf :: evtParts) s (s.lateCounted q) ∧
    (s.lateCounted q).get (xingLate_LATE q) = satAdd (s.get (xingLate_LATE q)) 1 65535 ∧
    (s.lateCounted q).flag (xingLate_POLICY q) = s.flag (xingLate_POLICY q) := by
  obtain ⟨hbelow, hfry⟩ := xingLate_below hq
  have hmark := State.markLate_onlyQueue ((s.bump (xingLate_LATE q) 1).raise 28) q
  refine ⟨?_, ?_, ?_⟩
  · exact onlyIn_trans (s.bump_only _ _ _ (by decide)) (onlyIn_trans (onlyIn_mono (State.raise_only _ 28) (by decide)) hmark.only)
  · rw [State.lateCounted, State.get_congr (f := xingLate_LATE q) (hmark.reg_below hbelow)]
    exact s.counted_get (xingLate_LATE q) 28 (show 0 ≤ 15 by decide) (show 15 < 32 by decide) hfry
  · rw [State.flag, State.flag, State.lateCounted, State.get_congr (f := xingLate_POLICY q) (hmark.reg_below hbelow),
      State.get_congr (f := xingLate_POLICY q) (State.raise_reg _ 28 _ hfry), State.bump,
      State.get_set_other _ _ _ _ (show 0 ≤ 15 by decide) (show 15 < 32 by decide) (.inr (.inr (show 15 < 31 by decide)))]

theorem State.lateCounted_q (s : State) (q : Nat) : ∃ u : State, u.q q = s.q q ∧ s.lateCounted q = u.markLate q :=
  ⟨(s.bump (xingLate_LATE q) 1).raise 28, (State.raise_q _ 28 q).trans rfl, rfl⟩

theorem State.lateCounted_nextIdx {s : State} {q n : Nat} (h : (s.q q).nextIdx = some n) :
    ((s.lateCounted q).q q).nextIdx = some n ∧ ((s.lateCounted q).q q).mark = (s.q q).mark := by
  obtain ⟨u, huq, hu⟩ := s.lateCounted_q q
  have hn : (u.q q).nextIdx = some n := by rw [huq]; exact h
  rw [hu]
  exact ⟨State.markLate_nextIdx hn, by rw [State.markLate_q hn, huq]⟩

theorem State.lateCounted_launchHead {s : State} {q : Nat} {it : Item} (h : s.launchHead q = some it) :
    (s.lateCounted q).launchHead q = some { it with late := true } := by
  obtain ⟨u, huq, hu⟩ := s.lateCounted_q q
  rw [hu]
  exact State.markLate_launchHead (by rw [State.launchHead, huq]; exact h)

theorem State.lateItem_eq {s : State} {q : Nat} {it : Item} (air : Nat) (h : s.launchHead q = some it) (hl : it.late = false) :
    s.lateItem q air = if (s.lateCounted q).flag (xingLate_POLICY q) && !(s.lateCounted q).headIsAnchor q then
      (s.lateCounted q).startMain q air true false else (s.lateCounted q).removeLate q := by
  simp only [State.lateItem, h, hl, Bool.false_eq_true, if_false]
  rfl

theorem launchAtHead_dropped (s : State) (q air n : Nat) (it : Item) (hq : q < 256) (hr : launchReady s q it) (hn : s.netQueue q = true)
    (hl : it.late = false) (hw : s.judge (s.launchDue (it.word 0) 0) = .late) (hp : s.flag (xingLate_POLICY q) = false)
    (hi : (s.q q).nextIdx = some n) : answers (.launchItemAtHead q air) s fun t =>
      t.get (xingLate_LATE q) = satAdd (s.get (xingLate_LATE q)) 1 65535 ∧ (t.q q).head = ((s.q q).mark + n + 1) % 2 ^ 32 := by
  have hx := launchAtHead_judged air hr hn hl hw
  obtain ⟨-, -, -, -, hhead, -⟩ := hr
  obtain ⟨honly, hlate, hpolicy⟩ := s.lateCounted_spec hq
  obtain ⟨hnext, hmark⟩ := State.lateCounted_nextIdx hi
  have hitem : s.lateItem q air = (s.lateCounted q).removeLate q := by
    rw [State.lateItem_eq air hhead hl, hpolicy, hp]
    rfl
  rw [State.launchAs, hitem] at hx
  have hman : (s.lateCounted q).man = s.man := honly .man (by decide)
  generalize s.lateCounted q = u at hx hlate hnext hmark hman
  obtain ⟨hdrop, hdrophead⟩ := State.qDropHead_spec hnext
  have hdropman : (u.qDropHead q).man = s.man := (hdrop.only .man (by decide)).trans hman
  have hremove : u.removeLate q = u.qDropHead q := by
    rcases State.medium_of_netQueue hn with hm | ⟨x, hm, -⟩ <;>
      simp only [State.removeLate, State.headIsBeacon, State.dropDone, State.launchDone, hdropman, hman, hm]
  rw [hremove] at hx
  rw [← hlate, ← State.get_congr (f := xingLate_LATE q) (hdrop.reg_below (xingLate_below hq).1), ← hmark]
  generalize u.qDropHead q = t at hx hdrophead
  exact answers_of_out_congr hx ⟨rfl, hdrophead⟩

theorem launchAtHead_sentLate (s : State) (q air x : Nat) (it : Item) (hq : q < 256) (hr : launchReady s q it) (hm : s.man.medium q = .eth x)
    (hf : s.eth.fwd.all (fun p => p.1 != x) = true) (hl : it.late = false) (hk : it.radKind = 0)
    (hw : s.judge (s.launchDue (it.word 0) 0) = .late) (hp : s.flag (xingLate_POLICY q) = true) (hj : smGet none s.eth.jobs x = none) :
    answers (.launchItemAtHead q air) s fun t =>
      t.get (xingLate_LATE q) = satAdd (s.get (xingLate_LATE q)) 1 65535 ∧ Output.ethFrame x it.ethBytes ∈ t.sent ∧
      (smGet none t.eth.jobs x).any (fun j => natBit j.stamp.flags 3) = true := by
  have hn : s.netQueue q = true := by simp only [State.netQueue, hm, hf]
  have hx := launchAtHead_judged air hr hn hl hw
  obtain ⟨-, hused, -, -, hhead, -⟩ := hr
  obtain ⟨honly, hlate, hpolicy⟩ := s.lateCounted_spec hq
  have hman : (s.lateCounted q).man = s.man := honly .man (by decide)
  have heth : (s.lateCounted q).eth = s.eth := honly .eth (by decide)
  have hanchor : (s.lateCounted q).headIsAnchor q = false := by simp only [State.headIsAnchor, hman, hm]
  have hitem : s.lateItem q air = (s.lateCounted q).startEth q x true false := by
    rw [State.lateItem_eq air hhead hl, hpolicy, hp, hanchor]
    simp only [Bool.not_false, Bool.and_self, if_true, State.startMain, hman, hm]
  rw [State.launchAs, hitem] at hx
  have hcounted := State.lateCounted_launchHead hhead
  generalize s.lateCounted q = u at hx hlate hman heth hcounted
  have hwaits : u.fwdWaits x = false := by
    rw [State.fwdWaits, heth]
    simpa using hf
  obtain ⟨v, hv, -, hstart⟩ := State.startEth_eq true false (by rw [State.qUsed, hman]; exact hused) hcounted (by rw [heth]; exact hj) hwaits hk
  rw [hstart] at hx
  have hflags : natBit (v.ethTx x true false).flags 3 = true := by
    simp only [State.ethTx, State.txStamp, State.stampFlags]
    cases v.coasting <;> cases v.flag ptpStat_LOCKED <;> decide
  have hget : (v.sendEth x { q := q, flow := it.flow, bytes := it.ethBytes, stamp := v.ethTx x true false }).get (xingLate_LATE q) =
      satAdd (s.get (xingLate_LATE q)) 1 65535 :=
    (State.get_congr (f := xingLate_LATE q) (hv.reg_below (xingLate_below hq).1)).trans hlate
  have hjob : smGet none (v.sendEth x { q := q, flow := it.flow, bytes := it.ethBytes, stamp := v.ethTx x true false }).eth.jobs x =
      some { q := q, flow := it.flow, bytes := it.ethBytes, stamp := v.ethTx x true false } := by simp [State.sendEth, State.emit]
  refine answers_of_out_congr hx ⟨hget, List.mem_cons_self, ?_⟩
  exact (congrArg (Option.any fun j : EthJob => natBit j.stamp.flags 3) hjob).trans hflags

/-! ### An item without an instant, and one at its instant -/

theorem launchAtHead_gwy (s : State) (q air : Nat) (it : Item) (hr : launchReady s q it) (hm : s.man.medium q = .gwy) (hl : it.late = false)
    (h63 : natBit (it.word 0) 63 = false) (hj : smGet none s.eth.jobs (s.peerPlace it.radDst).port = none)
    (hf : s.fwdWaits (s.peerPlace it.radDst).port = false) : answers (.launchItemAtHead q air) s fun t =>
      Output.ethFrame (s.peerPlace it.radDst).port (s.gwyFrame it.radDst it.ethBytes) ∈ t.sent := by
  have hw : s.judge (s.launchDue (it.word 0) 0) = .now := by simp [State.launchDue, h63, State.judge]
  have hx := launchAtHead_judged air hr (by simp only [State.netQueue, hm]) hl hw
  obtain ⟨-, hused, -, -, hhead, -⟩ := hr
  obtain ⟨hsent, -⟩ := State.startGwy_sent false false hused hhead hj hf
  simp only [State.launchAs, State.startMain, hm] at hx
  generalize s.startGwy q false false = t at hx hsent
  exact answers_of_out_congr hx hsent

theorem launchAtHead_eth (s : State) (q air x : Nat) (it : Item) (hr : launchReady s q it) (hm : s.man.medium q = .eth x) (hl : it.late = false)
    (h63 : natBit (it.word 0) 63 = false) (hk : it.radKind = 0) (hj : smGet none s.eth.jobs x = none)
    (hf : s.eth.fwd.all (fun p => p.1 != x) = true) : answers (.launchItemAtHead q air) s fun t => Output.ethFrame x it.ethBytes ∈ t.sent := by
  have hw : s.judge (s.launchDue (it.word 0) 0) = .now := by simp [State.launchDue, h63, State.judge]
  have hx := launchAtHead_judged air hr (by simp only [State.netQueue, hm, hf]) hl hw
  obtain ⟨-, hused, -, -, hhead, -⟩ := hr
  obtain ⟨v, -, -, hstart⟩ := State.startEth_eq false false hused hhead hj (by simpa [State.fwdWaits] using hf) hk
  simp only [State.launchAs, State.startMain, hm, hstart] at hx
  exact answers_of_out_congr hx List.mem_cons_self

theorem launchAtHead_laneHeld (s : State) (q air : Nat) (l : LaneItem) (r : List LaneItem) (h : (s.q q).lane = l :: r) (hl : l.hold = true) :
    exec (.launchItemAtHead q air) s = .next s := by
  have hstep : s.launchHeadStep q air = s := by
    simp only [State.launchHeadStep, h, hl, Bool.not_true, Bool.false_and, Bool.false_eq_true, if_false, if_true]
    split <;> rfl
  simp only [exec, execLaunchItemAtHead, hstep, ite_self, State.out_self]

/-- The held item of a free lane at its PTP instant starts on its medium (R63). -/
theorem instantReached_starts {s : State} {q : Nat} {it : Item} (air : Nat) (hwarn : s.warned = false) (hu : s.qUsed q = true)
    (hlane : (s.q q).lane = []) (hheld : (s.q q).held = true) (hh : s.launchHead q = some it) (hd : it.deferred = false)
    (hdue : (s.q q).due = some (false, s.clk.ptp)) :
    exec (.launchInstantReached q air) s = s.out (s.startMain q air false false) := by
  have hdeferred : s.headDeferred q = false := by simp only [State.headDeferred, hh, hd]
  have hreached : s.instantReached q air = s.startMain q air false false := by
    simp [State.instantReached, State.heldDue, hheld, hlane, hdue, hdeferred, State.ahead, State.missed, State.dueSkipped]
  simp only [exec, execLaunchInstantReached, hwarn, hu, hreached, Bool.not_true, Bool.or_self, Bool.false_eq_true, if_false]

theorem instantReached_gwy (s : State) (q air : Nat) (it : Item) (hwarn : s.warned = false) (hu : s.qUsed q = true)
    (hlane : (s.q q).lane = []) (hheld : (s.q q).held = true) (hm : s.man.medium q = .gwy) (hh : s.launchHead q = some it)
    (hd : it.deferred = false) (hdue : (s.q q).due = some (false, s.clk.ptp))
    (hj : smGet none s.eth.jobs (s.peerPlace it.radDst).port = none) (hf : s.fwdWaits (s.peerPlace it.radDst).port = false) :
    answers (.launchInstantReached q air) s fun t => (t.q q).held = false ∧
      Output.ethFrame (s.peerPlace it.radDst).port (s.gwyFrame it.radDst it.ethBytes) ∈ t.sent := by
  have hx := instantReached_starts air hwarn hu hlane hheld hh hd hdue
  obtain ⟨hsent, hfree⟩ := State.startGwy_sent false false hu hh hj hf
  simp only [State.startMain, hm] at hx
  generalize s.startGwy q false false = t at hx hsent hfree
  exact answers_of_out_congr hx ⟨hfree, hsent⟩

theorem instantReached_eth (s : State) (q air x : Nat) (it : Item) (hwarn : s.warned = false) (hu : s.qUsed q = true)
    (hlane : (s.q q).lane = []) (hheld : (s.q q).held = true) (hm : s.man.medium q = .eth x) (hh : s.launchHead q = some it)
    (hd : it.deferred = false) (hdue : (s.q q).due = some (false, s.clk.ptp)) (hk : it.radKind = 0)
    (hj : smGet none s.eth.jobs x = none) (hf : s.fwdWaits x = false) :
    answers (.launchInstantReached q air) s fun t => (t.q q).held = false ∧ Output.ethFrame x it.ethBytes ∈ t.sent := by
  have hx := instantReached_starts air hwarn hu hlane hheld hh hd hdue
  obtain ⟨v, -, hfree, hstart⟩ := State.startEth_eq false false hu hh hj hf hk
  simp only [State.startMain, hm, hstart] at hx
  exact answers_of_out_congr hx ⟨hfree, List.mem_cons_self⟩

theorem instantReached_early (s : State) (q air n : Nat) (hheld : (s.q q).held = true) (hdue : (s.q q).due = some (false, n))
    (h : s.clk.ptp + 4000 < n ∨ (s.q q).lane ≠ []) : exec (.launchInstantReached q air) s = .next s := by
  have htol : s.launchTol q ≤ 4000 := by
    unfold State.launchTol
    split
    · decide
    · exact Nat.div_le_self _ _
    · decide
  have hreached : s.instantReached q air = s := by
    by_cases hlane : (s.q q).lane = []
    · have hahead : s.ahead q (some (false, n)) = true := by
        have := h.resolve_right (fun k => k hlane)
        simp only [State.ahead, decide_eq_true_eq]
        omega
      simp only [State.instantReached, hheld, hlane, State.heldDue, hdue, hahead, Bool.or_true, if_true]
    · simp only [State.instantReached, hheld, hlane, if_true, if_false]
  simp only [exec, execLaunchInstantReached, hreached, ite_self, State.out_self]

/-- Settles O12, a clause for each lemma. -/
theorem launchUnitHoldsAndSends : Obligations.LaunchUnitHoldsAndSends :=
  ⟨fun s q air it _ => launchAtHead_held s q air it, launchAtHead_far, launchAtHead_dropped, launchAtHead_sentLate,
   fun s q air it _ => launchAtHead_gwy s q air it, fun s q air x it _ => launchAtHead_eth s q air x it, launchAtHead_laneHeld,
   fun s q air it _ => instantReached_gwy s q air it, fun s q air x it _ => instantReached_eth s q air x it, instantReached_early⟩

end Sys2Proof.Machine

/-! ## 03_metrology_seal.md: what eFuses keep over every step -/

namespace Sys2Proof.Machine

theorem fusesHold_refl (a : Fuses) : fusesHold a a := by
  have h := a.burn_holds a
  rwa [Fuses.burn_self] at h

theorem State.tick_fuses (s : State) : s.tick.fuses = s.fuses := s.tick_only .fuses (by decide)

/-- A command's answer is `State.out` of its effect, which burns fuses and no more (R88, R486, R489, R500, R501; log entry 105). -/
theorem exec_fusesHold {c : Instr} {s t : State} (h : exec c s = .next t) : fusesHold s.fuses t.fuses := by
  obtain ⟨u, hu⟩ := exec_out c s
  rw [hu, State.out_eq] at h
  obtain rfl := Host.Outcome.next.inj h
  exact s.fuses.burn_holds u.fuses

/-- Settles O3: a step is the tick of an idle block, which leaves the fuses, or the front command, which only burns them. That
fuses only burn is the model's reading (log entry 105). -/
theorem fusesOnlyBurn : Obligations.FusesOnlyBurn := by
  intro s t h
  unfold step at h
  split at h
  · obtain rfl := Host.Outcome.next.inj h
    rw [s.tick_fuses]
    exact fusesHold_refl _
  · next c rest _ => exact exec_fusesHold (s := { s with pending := rest }) h

end Sys2Proof.Machine

/-! ## 03_metrology_seal.md: the seal -/

namespace Sys2Proof.Machine

/-! ### What leaves the seal alone -/

/-- MET_SEAL_STAT, the running watch and the fuses are those of another state. -/
def keepsSeal (s t : State) : Prop :=
  t.reg metSealStat = s.reg metSealStat ∧ t.met.closing = s.met.closing ∧ t.fuses = s.fuses

theorem keepsSeal_trans {s t u : State} (h : keepsSeal s t) (k : keepsSeal t u) : keepsSeal s u := by
  obtain ⟨hreg, hclosing, hfuses⟩ := h
  obtain ⟨kreg, kclosing, kfuses⟩ := k
  exact ⟨kreg.trans hreg, kclosing.trans hclosing, kfuses.trans hfuses⟩

/-- A change of other parts and other registers. -/
theorem keepsSeal_of_only {ps : List Part} {rs : List Nat} {s t : State} (h : onlyIn ps s t) (hr : keepsRegs rs s t)
    (hp : Part.met ∉ ps ∧ Part.fuses ∉ ps ∧ metSealStat ∉ rs) : keepsSeal s t := by
  obtain ⟨hmet, hfuses, hstat⟩ := hp
  have hm : t.met = s.met := h .met hmet
  exact ⟨hr _ hstat, by rw [hm], h .fuses hfuses⟩

theorem State.raise_keepsSeal (s : State) (e : Nat) : keepsSeal s (s.raise e) :=
  keepsSeal_of_only (s.raise_only e) (s.raise_regs e) (by decide)

/-- An entry that disarms changes the test block and the Logbook, and what their event reaches (R530). -/
theorem State.disarm_only (s : State) (n win cause : Nat) : onlyIn (.tst :: logParts) s (s.disarm n win cause) := by
  unfold State.disarm
  split
  · exact onlyIn_trans (onlyIn_lgb s _ _ (by decide)) (onlyIn_trans (onlyIn_tst _ _ _ (by decide))
      (onlyIn_trans (State.set_only _ tstStat_ARMED _ _ (by decide)) (onlyIn_mono (State.raiseLog_only _ 483 _) (by decide))))
  · exact onlyIn_refl _ s

/-- An entry that disarms changes no register but TST_STAT, FRY_CNT and LGB_STAT. -/
theorem State.disarm_regs (s : State) (n win cause : Nat) : keepsRegs (tstStat :: logRegs) s (s.disarm n win cause) := by
  unfold State.disarm
  split
  · refine keepsRegs_trans (keepsRegs_trans ?_ (keepsRegs_mono (State.set_regs _ tstStat_ARMED _) (by decide)))
      (keepsRegs_mono (State.raiseLog_regs _ 483 _) (by decide))
    exact keepsRegs_of_eq _ rfl
  · exact keepsRegs_refl _ s

theorem State.disarmAll_keepsSeal (s : State) (p : TEntry → Bool) (win cause : Nat) : keepsSeal s (s.disarmAll p win cause) := by
  refine keepsSeal_of_only (ps := .tst :: logParts) (rs := tstStat :: logRegs) (onlyIn_foldl _ (fun st n => ?_) _ s)
    (keepsRegs_foldl _ (fun st n => ?_) _ s) (by decide)
  · split
    · exact st.disarm_only n win cause
    · exact onlyIn_refl _ st
  · split
    · exact st.disarm_regs n win cause
    · exact keepsRegs_refl _ st

theorem State.sealedStore_closing (s : State) (t k : Nat) (v : List Nat) : (s.sealedStore t k v).met.closing = s.met.closing := by
  obtain ⟨w, hw⟩ := s.sealedStore_met t k v
  rw [hw]

/-- A seal's flag leaves the watch (R88). -/
theorem State.setFlag_seal_closing (s : State) : (s.setFlag 3).met.closing = s.met.closing := s.sealedStore_closing tabFlag 3 [1]

theorem State.setFlag_seal_keepsSeal (s : State) : keepsSeal s (s.setFlag 3) :=
  ⟨keepsRegs_of_eq [] (s.setFlag_regs 3) _ (by decide), s.setFlag_seal_closing, s.setFlag_only 3 .fuses (by decide)⟩

theorem State.mlogPut_closing (s : State) (typ detail : Nat) (rest : List Byte) :
    (s.mlogPut typ detail rest).met.closing = s.met.closing := by
  have hmark (t : State) (c : Prop) [Decidable c] (f : Fld) (e : Nat) : (if c then (t.set f 1).raise e else t).met = t.met := by
    split
    · exact State.raise_met _ e
    · rfl
  unfold State.mlogPut
  split
  · rfl
  · simp only [hmark, State.set_met, State.sealedStore_closing]

/-- A record of the metrological log leaves the seal (R96, R97). -/
theorem State.mlog_keepsSeal (s : State) (typ detail : Nat) (payload : List Byte) : keepsSeal s (s.mlog typ detail payload) := by
  refine ⟨s.mlog_regs typ detail payload _ (by decide), ?_, s.mlog_only typ detail payload .fuses (by decide)⟩
  unfold State.mlog
  split
  · exact s.mlogPut_closing _ _ _
  · rfl

/-! ### A refused close -/

@[simp] theorem State.refuseClose_met (s : State) : s.refuseClose.met = s.met := by simp [State.refuseClose]

/-- A refused close sets REFUSED and leaves the seal's state (R89). -/
theorem State.refuseClose_stat (s : State) :
    s.refuseClose.get metSealStat_REFUSED = 1 ∧ s.refuseClose.get metSealStat_STATE = s.get metSealStat_STATE := by
  have hlog : s.refuseClose.reg metSealStat = (s.set metSealStat_REFUSED 1).reg metSealStat :=
    State.raiseLog_regs _ 52 _ _ (by decide)
  exact ⟨(State.get_congr hlog).trans (State.get_set _ _ _ (by decide) (by decide)),
    (State.get_congr hlog).trans (State.get_set_other _ _ _ _ (by decide) (by decide) (by decide))⟩

/-! ### SEAL_CLOSE_REQUEST -/

/-- The state that a write of 1 to CLOSE acts on. -/
abbrev State.closeStored (s : State) (i : Iface) (v : Word) : State := s.storeWord i metSealCtrl (v ||| 1)

/-- The stored write of MET_SEAL_CTRL leaves every register but it, FRY_CNT and LGB_STAT. -/
theorem State.closeStored_reg (s : State) (i : Iface) (v : Word) {b : Nat} (h : b ∉ metSealCtrl :: logRegs) :
    (s.closeStored i v).reg b = s.reg b := by
  have hk : regKey i metSealCtrl = metSealCtrl := regKey_plain i _ (by decide) (by decide)
  exact s.storeWord_regs i metSealCtrl (v ||| 1) b (by rwa [hk])

theorem State.closeStored_state (s : State) (i : Iface) (v : Word) :
    (s.closeStored i v).get metSealStat_STATE = s.get metSealStat_STATE := State.get_congr (s.closeStored_reg i v (by decide))

/-- The four conditions of a close read the calibration, BREAKS and the log's FULL. -/
theorem State.closeOk_congr {s t : State} (hc : t.met.copy = s.met.copy) (hcal : t.reg metCalStat = s.reg metCalStat)
    (hseal : t.reg metSealStat = s.reg metSealStat) (hlog : t.reg metMlogStat = s.reg metMlogStat) : t.closeOk = s.closeOk := by
  simp only [State.closeOk, State.mlogFull, State.flag, hc, State.get_congr (f := metCalStat_PENDING) hcal,
    State.get_congr (f := metSealStat_BREAKS) hseal, State.get_congr (f := metMlogStat_FULL) hlog]

theorem State.closeStored_closeOk (s : State) (i : Iface) (v : Word) : (s.closeStored i v).closeOk = s.closeOk :=
  State.closeOk_congr (by rw [State.storeWord_met]) (s.closeStored_reg i v (by decide)) (s.closeStored_reg i v (by decide))
    (s.closeStored_reg i v (by decide))

/-- A write of 1 to CLOSE while a watch runs has no effect (R89). -/
theorem State.closeWrite_watched {s : State} (h : s.met.closing = true) : s.closeWrite = s := if_pos h

/-- With a condition that fails, or SEALED or EXHAUSTED, it is refused (R89). -/
theorem State.closeWrite_refused {s : State} (h : s.met.closing = false) (hr : s.get metSealStat_STATE ≠ 0 ∨ s.closeOk = false) :
    s.closeWrite = s.refuseClose := by
  rw [State.closeWrite, h, if_neg Bool.false_ne_true, if_pos (by simpa using hr)]

/-- Otherwise the watch begins (R89). -/
theorem State.closeWrite_begins {s : State} (h : s.met.closing = false) (hs : s.get metSealStat_STATE = 0) (hk : s.closeOk = true) :
    s.closeWrite = { s with met := { s.met with closing := true } } := by
  rw [State.closeWrite, h, if_neg Bool.false_ne_true, if_neg (by simp [hs, hk])]

/-- A granted write of 1 to CLOSE (R89). -/
theorem exec_sealCloseRequest {s : State} {i : Iface} (v : Word) (hm : s.mayAccess i metSealCtrl true = true) :
    exec (.sealCloseRequest i v) s = s.out (s.closeStored i v).closeWrite :=
  congrArg s.out (State.writeGate_granted _ _ _ _ _ hm)

theorem sealCloseRequest_begins (s : State) (i : Iface) (v : Word) (hm : s.mayAccess i metSealCtrl true = true)
    (hs : s.get metSealStat_STATE = 0) (hc : s.met.closing = false) (hk : s.closeOk = true) :
    answers (.sealCloseRequest i v) s fun t =>
      t.met = { s.met with closing := true } ∧ t.get metSealStat_STATE = 0 ∧ onlyIn [.regs, .met] s t := by
  have hopen : s.sealOpen = true := by simp [State.sealOpen, hs]
  have hstored := onlyIn_mono (qs := [.regs, .met]) (State.storeWord_open_only hopen i metSealCtrl (v ||| 1)) (by decide)
  have hstate := (s.closeStored_state i v).trans hs
  have hx := exec_sealCloseRequest v hm
  rw [State.closeWrite_begins (by rwa [State.storeWord_met]) hstate (by rwa [State.closeStored_closeOk]), State.storeWord_met] at hx
  have honly := onlyIn_trans hstored (onlyIn_met (s.closeStored i v) { s.met with closing := true } _ (by decide))
  exact answers_of_out hx (honly .pending (by decide)) (honly .fuses (by decide)) ⟨rfl, hstate, honly⟩

theorem sealCloseRequest_refused (s : State) (i : Iface) (v : Word) (hm : s.mayAccess i metSealCtrl true = true)
    (hc : s.met.closing = false) (hr : s.get metSealStat_STATE ≠ 0 ∨ s.closeOk = false) :
    answers (.sealCloseRequest i v) s fun t =>
      t.met = s.met ∧ t.get metSealStat_REFUSED = 1 ∧ t.get metSealStat_STATE = s.get metSealStat_STATE := by
  have hx := exec_sealCloseRequest v hm
  rw [State.closeWrite_refused (by rwa [State.storeWord_met]) (by rwa [State.closeStored_state, State.closeStored_closeOk])] at hx
  obtain ⟨hrefused, hstate⟩ := (s.closeStored i v).refuseClose_stat
  exact answers_of_out_congr hx ⟨by simp, hrefused, hstate.trans (s.closeStored_state i v)⟩

theorem sealCloseRequest_watched (s : State) (i : Iface) (v : Word) (hm : s.mayAccess i metSealCtrl true = true)
    (hc : s.met.closing = true) :
    answers (.sealCloseRequest i v) s fun t => t.met = s.met ∧ t.get metSealStat_STATE = s.get metSealStat_STATE := by
  have hx := exec_sealCloseRequest v hm
  rw [State.closeWrite_watched (by rwa [State.storeWord_met])] at hx
  exact answers_of_out_congr hx ⟨s.storeWord_met i metSealCtrl (v ||| 1), s.closeStored_state i v⟩

/-! ### SEAL_CLOSE_JUDGED -/

/-- The watch over. -/
def State.watchEnded (s : State) : State := { s with met := { s.met with closing := false } }

theorem State.watchEnded_closeOk (s : State) : s.watchEnded.closeOk = s.closeOk := State.closeOk_congr rfl rfl rfl rfl

/-- The seal closed: SEALED, LOOP, the ever-closed fuse (R88, R89). -/
def State.closed (s : State) : State :=
  let s1 := (s.watchEnded.set metSealStat_STATE 1).set metSealStat_LOOP 1
  { s1 with fuses := { s1.fuses with everClosed := true }, aon := { s1.aon with loopOpen := false } }

/-- What follows a close: the flag of the open interval, the log, event 49, the clock faults that disarm (R88, R96, R534). -/
def State.closeFollows (s : State) : State :=
  let s2 := s.setFlag 3
  ((s2.mlog 0x01 0 ((s2.regBytes (metCalHash 0) 8).take 16)).raise 49).disarmAll (fun e => e.kind == 9) 0 0x04

theorem State.closed_stat (s : State) : s.closed.get metSealStat_STATE = 1 ∧ s.closed.get metSealStat_LOOP = 1 :=
  ⟨(State.get_set_other _ metSealStat_LOOP metSealStat_STATE 1 (by decide) (by decide) (by decide)).trans
    (State.get_set _ metSealStat_STATE 1 (by decide) (by decide)), State.get_set _ metSealStat_LOOP 1 (by decide) (by decide)⟩

theorem State.closed_closing (s : State) : s.closed.met.closing = false := rfl

theorem State.closed_everClosed (s : State) : s.closed.fuses.everClosed = true := rfl

theorem State.closeFollows_keepsSeal (s : State) : keepsSeal s s.closeFollows := by
  unfold State.closeFollows
  exact keepsSeal_trans s.setFlag_seal_keepsSeal (keepsSeal_trans (State.mlog_keepsSeal _ _ _ _)
    (keepsSeal_trans (State.raise_keepsSeal _ 49) (State.disarmAll_keepsSeal _ _ _ _)))

/-- A watch at its end, its conditions checked again (R89). -/
theorem exec_sealCloseJudged {s : State} (hc : s.met.closing = true) :
    exec .sealCloseJudged s = s.out (if s.closeOk = true then s.closed.closeFollows else s.watchEnded.refuseClose) := by
  have hk := s.watchEnded_closeOk
  unfold State.watchEnded at hk
  simp only [exec, execSealCloseJudged, hc, hk]
  cases s.closeOk <;> rfl

theorem sealCloseJudged_closes (s : State) (hc : s.met.closing = true) (hk : s.closeOk = true) :
    answers .sealCloseJudged s fun t =>
      t.get metSealStat_STATE = 1 ∧ t.get metSealStat_LOOP = 1 ∧ t.met.closing = false ∧ t.fuses.everClosed = true := by
  have hx := exec_sealCloseJudged hc
  rw [if_pos hk] at hx
  obtain ⟨hreg, hclosing, hfuses⟩ := s.closed.closeFollows_keepsSeal
  obtain ⟨hstate, hloop⟩ := s.closed_stat
  have hblown : s.closed.closeFollows.fuses.everClosed = true := by rw [hfuses, State.closed_everClosed]
  rw [State.closed_closing] at hclosing
  generalize s.closed.closeFollows = u at *
  exact answers_of_out_congr hx ⟨(State.get_congr hreg).trans hstate, (State.get_congr hreg).trans hloop, hclosing,
    by simp [Fuses.burn, hblown]⟩

theorem sealCloseJudged_refused (s : State) (hc : s.met.closing = true) (hk : s.closeOk = false) :
    answers .sealCloseJudged s fun t =>
      t.get metSealStat_STATE = s.get metSealStat_STATE ∧ t.get metSealStat_REFUSED = 1 ∧ t.met.closing = false := by
  have hx := exec_sealCloseJudged hc
  rw [if_neg (by simp [hk])] at hx
  obtain ⟨hrefused, hstate⟩ := s.watchEnded.refuseClose_stat
  exact answers_of_out_congr hx ⟨hstate, hrefused, congrArg Metrology.closing s.watchEnded.refuseClose_met⟩

/-! ### SEAL_OPENING -/

/-- The loop open: LOOP reads 0, and the opening is remembered over a reset (R87; log entry 116). -/
def State.loopOpened (s : State) : State := { s.set metSealStat_LOOP 0 with aon := { s.aon with loopOpen := true } }

theorem State.loopOpened_only (s : State) : onlyIn [.regs, .aon] s s.loopOpened :=
  onlyIn_trans (s.set_only metSealStat_LOOP 0 _ (by decide)) (onlyIn_aon _ _ _ (by decide))

theorem State.loopOpened_loop (s : State) : s.loopOpened.get metSealStat_LOOP = 0 := State.get_set _ _ _ (by decide) (by decide)

/-- The other fields of MET_SEAL_STAT stay. -/
theorem State.loopOpened_get (s : State) {f : Fld} (h : f.hi < 2 ∨ 2 < f.lo) : s.loopOpened.get f = s.get f :=
  State.get_set_other s metSealStat_LOOP f 0 (by decide) (by decide) (.inr h)

/-- MET_SEAL_STAT after a break: BREAKS counted up to 255, OPEN or EXHAUSTED (R90). -/
theorem State.countBreak_reg (s : State) : s.countBreak.reg metSealStat =
    ((s.set metSealStat_BREAKS (min 255 (s.get metSealStat_BREAKS + 1))).set metSealStat_STATE
      (if min 255 (s.get metSealStat_BREAKS + 1) = 255 then 2 else 0)).reg metSealStat := rfl

theorem State.countBreak_breaks (s : State) : s.countBreak.get metSealStat_BREAKS = min 255 (s.get metSealStat_BREAKS + 1) := by
  rw [State.get_congr (f := metSealStat_BREAKS) s.countBreak_reg, State.get_set_other _ _ _ _ (by decide) (by decide) (by decide),
    State.get_set _ _ _ (by decide) (by decide)]
  exact Nat.mod_eq_of_lt (Nat.lt_succ_of_le (min_le_left _ _))

/-- At 255 breaks the seal is EXHAUSTED, else OPEN (R90). -/
theorem State.countBreak_state (s : State) :
    s.countBreak.get metSealStat_STATE = if 254 ≤ s.get metSealStat_BREAKS then 2 else 0 := by
  have hexhausted : min 255 (s.get metSealStat_BREAKS + 1) = 255 ↔ 254 ≤ s.get metSealStat_BREAKS := by omega
  rw [State.get_congr (f := metSealStat_STATE) s.countBreak_reg, State.get_set _ _ _ (by decide) (by decide)]
  simp only [hexhausted]
  split <;> rfl

theorem State.countBreak_loop (s : State) : s.countBreak.get metSealStat_LOOP = s.get metSealStat_LOOP := by
  rw [State.get_congr (f := metSealStat_LOOP) s.countBreak_reg, State.get_set_other _ _ _ _ (by decide) (by decide) (by decide),
    State.get_set_other _ _ _ _ (by decide) (by decide) (by decide)]

theorem State.countBreak_fuses (s : State) :
    s.countBreak.fuses = { s.fuses with breaks := min 255 (s.get metSealStat_BREAKS + 1) } := rfl

/-- While SEALED and out of reset an opening is counted as a break; its record and event 50 leave the seal (R90). -/
theorem exec_sealOpening_breaks {s : State} (hs : s.get metSealStat_STATE = 1) (hr : s.get pwrReset_CAUSE ≠ 0) :
    ∃ u, exec .sealOpening s = s.out u ∧ keepsSeal s.loopOpened.countBreak u := by
  simp only [exec, execSealOpening, if_pos hs, if_neg hr]
  split
  · exact ⟨_, rfl, keepsSeal_trans (State.mlog_keepsSeal _ 0x02 0 []) (State.raise_keepsSeal _ 50)⟩
  · exact ⟨_, rfl, State.raise_keepsSeal { s.loopOpened.countBreak with aon := { s.loopOpened.countBreak.aon with breakLog := 2 } } 50⟩

theorem sealOpening_breaks (s : State) (hs : s.get metSealStat_STATE = 1) (hr : s.get pwrReset_CAUSE ≠ 0) :
    answers .sealOpening s fun t =>
      t.get metSealStat_BREAKS = min 255 (s.get metSealStat_BREAKS + 1) ∧
      t.fuses.breaks = max s.fuses.breaks (min 255 (s.get metSealStat_BREAKS + 1)) ∧
      t.get metSealStat_STATE = (if 254 ≤ s.get metSealStat_BREAKS then 2 else 0) ∧ t.get metSealStat_LOOP = 0 := by
  obtain ⟨u, hx, hreg, -, hfuses⟩ := exec_sealOpening_breaks hs hr
  have hbreaks := s.loopOpened.countBreak_breaks
  have hstate := s.loopOpened.countBreak_state
  have hburnt := hfuses.trans s.loopOpened.countBreak_fuses
  rw [s.loopOpened_get (by decide)] at hbreaks hstate hburnt
  exact answers_of_out_congr hx ⟨(State.get_congr hreg).trans hbreaks, congrArg (fun f => (s.fuses.burn f).breaks) hburnt,
    (State.get_congr hreg).trans hstate, (State.get_congr hreg).trans (s.loopOpened.countBreak_loop.trans s.loopOpened_loop)⟩

theorem sealOpening_inReset (s : State) (hs : s.get metSealStat_STATE = 1) (hr : s.get pwrReset_CAUSE = 0) :
    answers .sealOpening s fun t =>
      t.aon = { s.aon with pendingBreak := true, loopOpen := true } ∧ t.get metSealStat_LOOP = 0 ∧ onlyIn [.regs, .aon] s t := by
  have hx : exec .sealOpening s = s.out { s.loopOpened with aon := { s.loopOpened.aon with pendingBreak := true } } := by
    simp only [exec, execSealOpening, if_pos hs, if_pos hr]
    rfl
  exact answers_of_out hx rfl rfl ⟨rfl, s.loopOpened_loop, onlyIn_trans s.loopOpened_only (onlyIn_aon _ _ _ (by decide))⟩

theorem sealOpening_endsWatch (s : State) (hs : s.get metSealStat_STATE ≠ 1) (hc : s.met.closing = true) :
    answers .sealOpening s fun t =>
      t.met.closing = false ∧ t.get metSealStat_REFUSED = 1 ∧ t.get metSealStat_STATE = s.get metSealStat_STATE := by
  have hx : exec .sealOpening s = s.out s.loopOpened.watchEnded.refuseClose := by
    simp only [exec, execSealOpening, if_neg hs, if_pos hc]
    rfl
  obtain ⟨hrefused, hstate⟩ := s.loopOpened.watchEnded.refuseClose_stat
  exact answers_of_out_congr hx
    ⟨congrArg Metrology.closing (State.refuseClose_met _), hrefused, hstate.trans (s.loopOpened_get (by decide))⟩

theorem sealOpening_unsealed (s : State) (hs : s.get metSealStat_STATE ≠ 1) (hc : s.met.closing = false) :
    answers .sealOpening s fun t => t.get metSealStat_LOOP = 0 ∧ t.get metSealStat_STATE = s.get metSealStat_STATE ∧
      t.aon = { s.aon with loopOpen := true } ∧ onlyIn [.regs, .aon] s t := by
  have hx : exec .sealOpening s = s.out s.loopOpened := by
    simp only [exec, execSealOpening, if_neg hs, hc]
    rfl
  exact answers_of_out hx rfl rfl ⟨s.loopOpened_loop, s.loopOpened_get (by decide), rfl, s.loopOpened_only⟩

/-- Settles O14: the request, the judgement and the opening, a lemma for each of their branches. -/
theorem sealClosesAndBreaks : Obligations.SealClosesAndBreaks :=
  ⟨sealCloseRequest_begins, sealCloseRequest_refused, sealCloseRequest_watched, sealCloseJudged_closes, sealCloseJudged_refused,
    sealOpening_breaks, sealOpening_inReset, sealOpening_endsWatch, sealOpening_unsealed⟩

end Sys2Proof.Machine

/-! ## 04_plc_physical.md: frames received and sent, driver trips -/

namespace Sys2Proof.Machine

/-! ### Work on the queues, perturbed or not -/

/-- From `s` to `t` only queues are worked on: they change, the perturbations that meet their items, draws, what an event reaches
and registers from WHF_Q_STAT on; what has left stays. -/
structure queueWork (s t : State) : Prop where
  only : onlyIn (.whf :: .tst :: .free :: evtParts) s t
  regs : ∀ a, a < whfQStat 0 → t.reg a = s.reg a
  sent : s.sent <:+ t.sent

theorem queueWork.refl {s : State} : queueWork s s := ⟨onlyIn_refl _ s, fun _ _ => rfl, List.suffix_rfl⟩

theorem queueWork.trans {s t u : State} (h : queueWork s t) (k : queueWork t u) : queueWork s u :=
  ⟨onlyIn_trans h.only k.only, fun a ha => (k.regs a ha).trans (h.regs a ha), h.sent.trans k.sent⟩

theorem onlyQueue.queueWork {n : Nat} {s t : State} (h : onlyQueue n s t) : queueWork s t :=
  ⟨onlyIn_mono h.only (by decide), fun _ ha => h.reg_below ha, h.sent⟩

theorem State.setEntry_queueWork (s : State) (n : Nat) (e : TEntry) : queueWork s (s.setEntry n e) :=
  ⟨onlyIn_tst s _ _ (by decide), fun _ _ => rfl, List.suffix_rfl⟩

theorem State.random_queueWork (s : State) (n : Nat) : queueWork s (s.random n).2 :=
  ⟨onlyIn_free s _ _ (by decide), fun _ _ => rfl, List.suffix_rfl⟩

theorem State.everyNth_queueWork (s : State) (kind : Nat) (p : TEntry → Bool) : queueWork s (s.everyNth kind p).2 := by
  unfold State.everyNth
  split
  · exact .refl
  · simp only
    split
    · exact (s.setEntry_queueWork _ _).trans (State.setEntry_queueWork _ _ _)
    · exact s.setEntry_queueWork _ _

theorem State.perturbItem_queueWork (s : State) (n : Nat) (it : Item) : queueWork s (s.perturbItem n it).2 := by
  have hnth := s.everyNth_queueWork 6 fun e => e.target == n
  unfold State.perturbItem
  simp only
  split
  · exact (hnth.trans (State.random_queueWork _ 16)).trans (State.setEntry_queueWork _ _ _)
  · exact hnth

theorem State.enqueueNow_queueWork (s : State) (n : Nat) (it : Item) : queueWork s (s.enqueueNow n it) := by
  have hperturb := s.perturbItem_queueWork n it
  unfold State.enqueueNow
  simp only
  generalize s.perturbItem n it = r at hperturb ⊢
  exact hperturb.trans (State.touchQ_onlyQueue _ _ _ (State.setQ_onlyQueue _ _ _ _)).queueWork

theorem State.produce_queueWork (s : State) (p : Producer) (n : Nat) (it : Item) : queueWork s (s.produce p n it) := by
  unfold State.produce State.hwEnqueue
  split
  · exact .refl
  · split
    · exact s.enqueueNow_queueWork n it
    · exact (s.setQ_onlyQueue n n _).queueWork

theorem State.rxEnqueue_queueWork (s : State) (p : Producer) (n : Nat) (it : Item) : queueWork s (s.rxEnqueue p n it) := by
  unfold State.rxEnqueue
  split
  · exact .refl
  · split
    · split
      · exact s.enqueueNow_queueWork n it
      · exact (State.touchQ_onlyQueue _ _ _ ((s.set_onlyQueue _ (.inr rfl)).trans (State.set_onlyQueue _ _ (.inl rfl)))).queueWork
    · exact s.produce_queueWork p n it

theorem State.spend_queueWork (s : State) (q i : Nat) : queueWork s (s.spend q i) :=
  (State.touchQ_onlyQueue _ _ _ (s.setQ_onlyQueue _ _ _)).queueWork

theorem State.plcCompletion_queueWork (s : State) (c flow : Nat) (t : Stamp) (status steps : Nat) :
    queueWork s (s.plcCompletion c flow t status steps) := by
  unfold State.plcCompletion
  split
  · exact s.produce_queueWork _ _ _
  · exact .refl

theorem State.freeSent_queueWork (s : State) (c : Nat) (j : TxJob) : queueWork s (s.freeSent c j) := by
  unfold State.freeSent
  split
  · exact .refl
  · split
    · exact s.spend_queueWork _ _
    · exact .refl

/-- With nothing armed an item joins its queue at the tail (R390, R395). -/
theorem State.enqueueNow_q {s : State} (h : s.tst.entries = []) (n : Nat) (it : Item) :
    ((s.enqueueNow n it).q n).items = (s.q n).items ++ [{ it with iseq := (s.q n).tail }] ∧
      ((s.enqueueNow n it).q n).tail = ((s.q n).tail + 1) % 2 ^ 32 := by
  rw [State.enqueueNow, State.perturbItem_of_empty h, State.touchQ_q, State.q_setQ]
  exact ⟨rfl, rfl⟩

/-- The free words of a queue depend on the queues, its configuration, the Manifest and the perturbations (R393). -/
theorem State.qFree_congr {s t : State} {n : Nat} (hwhf : t.whf = s.whf) (hman : t.man = s.man) (htst : t.tst = s.tst)
    (hcfg : t.reg (whfQCfg n) = s.reg (whfQCfg n)) : t.qFree n = s.qFree n := by
  have hused : t.qUsed n = s.qUsed n := by simp [State.qUsed, hman]
  have hwithheld : t.withheld n = s.withheld n := by simp only [State.withheld, State.armedEntry, State.entry, htst]
  have hq : t.q n = s.q n := by rw [State.q, hwhf]; rfl
  have hlane : t.flag (whfQCfg_LANE n) = s.flag (whfQCfg_LANE n) := by rw [State.flag, State.get_congr (f := whfQCfg_LANE n) hcfg]; rfl
  rw [State.qFree, State.qFree, hused, hlane, hq, hwithheld, State.get_congr (f := whfQCfg_SIZE n) hcfg]

/-! ### Counters, and fields that no event changes -/

theorem State.get_bump (s : State) (f : Fld) (n : Nat) (hl : f.lo ≤ f.hi) (hh : f.hi < 32) :
    (s.bump f n).get f = satAdd (s.get f) n f.top := by
  have htop : satAdd (s.get f) n f.top < 2 ^ (f.hi + 1 - f.lo) := by
    have hpos := Nat.two_pow_pos (f.hi + 1 - f.lo)
    rw [satAdd, Fld.top]
    omega
  rw [State.bump, State.get_set _ _ _ hl hh, Nat.mod_eq_of_lt htop]

theorem State.raise_get (s : State) (e : Nat) {f : Fld} (h : f.addr ≠ fryCnt) : (s.raise e).get f = s.get f :=
  State.get_congr (s.raise_reg e _ h)

theorem State.raiseIf_get (s : State) (c : Bool) (e : Nat) {f : Fld} (h : f.addr ≠ fryCnt) : (s.raiseIf c e).get f = s.get f :=
  State.get_congr (s.raiseIf_reg c e _ h)

/-- PLC_TX_STAT is neither PLC_STATUS nor FRY_CNT. -/
theorem plcTxStat_place (p : Nat) : plcTxStat p ≠ plcStatus ∧ plcTxStat p ≠ fryCnt := by
  simp only [plcTxStat, plcStatus, fryCnt]
  omega

/-- The registers of the three paths lie between PLC_STATUS and PLC_XCH_OK. -/
theorem plcTxStat_range {p : Nat} (hp : p < 3) : plcStatus < plcTxStat p ∧ plcTxStat p < plcXchOk 0 := by
  simp only [plcTxStat, plcStatus, plcXchOk]
  omega

/-- PLC_RX_CNT is neither FRY_CNT nor PLC_MRC_STAT nor a path's PLC_RX_STAT. -/
theorem plcRxCnt_place (p : Nat) : plcRxCnt p ≠ fryCnt ∧ plcRxCnt p ≠ plcMrcStat ∧ (∀ k, plcRxCnt p ≠ plcRxStat k) := by
  simp only [plcRxCnt, fryCnt, plcMrcStat, plcRxStat]
  exact ⟨by omega, by omega, fun k => by omega⟩

/-- The three paths' counters lie below the registers that work on queues writes. -/
theorem plcRxCnt_below {p : Nat} (hp : p < 3) : plcRxCnt p < whfQStat 0 := by
  simp only [plcRxCnt, whfQStat]
  omega

/-- WHF_Q_CFG is no register that a reception writes. -/
theorem whfQCfg_place (q : Nat) : whfQCfg q ≠ fryCnt ∧ whfQCfg q ≠ plcMrcStat ∧ (∀ k, whfQCfg q ≠ plcRxStat k) ∧
    (∀ k, whfQCfg q ≠ plcRxCnt k) := by
  simp only [whfQCfg, fryCnt, plcMrcStat, plcRxStat, plcRxCnt]
  exact ⟨by omega, by omega, fun k => by omega, fun k => by omega⟩

/-! ### A frame is received -/

/-- From `s` to `t` only PLC_RX_STAT, PLC_MRC_STAT and IMPULSE change, and what an event reaches: the queues' configurations and BAD
stay. -/
structure onlyHeard (s t : State) : Prop where
  only : onlyIn evtParts s t
  cfg : ∀ q, t.reg (whfQCfg q) = s.reg (whfQCfg q)
  bad : ∀ p, t.get (plcRxCnt_BAD p) = s.get (plcRxCnt_BAD p)

theorem onlyHeard.refl {s : State} : onlyHeard s s := ⟨onlyIn_refl _ s, fun _ => rfl, fun _ => rfl⟩

theorem onlyHeard.trans {s t u : State} (h : onlyHeard s t) (k : onlyHeard t u) : onlyHeard s u :=
  ⟨onlyIn_trans h.only k.only, fun q => (k.cfg q).trans (h.cfg q), fun p => (k.bad p).trans (h.bad p)⟩

theorem onlyHeard.foldl {α : Type} (f : State → α → State) (h : ∀ s x, onlyHeard s (f s x)) (l : List α) (s : State) :
    onlyHeard s (l.foldl f s) := by
  induction l generalizing s with
  | nil => exact .refl
  | cons x l ih => exact (h s x).trans (ih (f s x))

theorem State.raiseIf_onlyHeard (s : State) (c : Bool) (e : Nat) : onlyHeard s (s.raiseIf c e) := by
  refine ⟨s.raiseIf_only c e, fun q => ?_, fun p => ?_⟩
  · obtain ⟨hfry, -⟩ := whfQCfg_place q
    exact s.raiseIf_reg c e _ hfry
  · obtain ⟨hfry, -⟩ := plcRxCnt_place p
    exact s.raiseIf_get c e hfry

/-- A field of PLC_RX_STAT or PLC_MRC_STAT. -/
theorem State.set_onlyHeard (s : State) (f : Fld) (v : Nat) (h : f.addr = plcMrcStat ∨ ∃ k, f.addr = plcRxStat k) :
    onlyHeard s (s.set f v) := by
  have hreg : ∀ a, a ≠ plcMrcStat → (∀ k, a ≠ plcRxStat k) → (s.set f v).reg a = s.reg a := fun a hmrc hstat =>
    s.set_regs f v a (by rcases h with h | ⟨k, h⟩ <;> simp [h, hmrc, hstat])
  refine ⟨s.set_only f v _ (by decide), fun q => ?_, fun p => ?_⟩
  · obtain ⟨-, hmrc, hstat, -⟩ := whfQCfg_place q
    exact hreg _ hmrc hstat
  · obtain ⟨-, hmrc, hstat⟩ := plcRxCnt_place p
    exact State.get_congr (hreg _ hmrc hstat)

/-- IMPULSE stands beside BAD in PLC_RX_CNT (R106). -/
theorem State.countImpulse_onlyHeard (s : State) (x : PlcRx) (k : Nat) : onlyHeard s (s.countImpulse x k) := by
  unfold State.countImpulse
  split
  · refine ⟨s.bump_only _ 1 _ (by decide), fun q => ?_, fun p => ?_⟩
    · obtain ⟨-, -, -, hcnt⟩ := whfQCfg_place q
      exact s.bump_regs (plcRxCnt_IMPULSE k) 1 _ (fun h => hcnt k (List.mem_singleton.mp h))
    · exact State.get_set_other s (plcRxCnt_IMPULSE k) (plcRxCnt_BAD p) _ (by decide : 0 ≤ 14) (by decide : 14 < 32)
        (.inr (.inr (by decide : 14 < 16)))
  · exact .refl

theorem State.rxStatus_onlyHeard (s : State) (p : Nat) (x : PlcRx) : onlyHeard s (s.rxStatus p x) := by
  unfold State.rxStatus
  extract_lets code one
  have hone : ∀ st k, onlyHeard st (one st k) := fun st k =>
    ((st.set_onlyHeard (plcRxStat_GAIN k) _ (.inr ⟨k, rfl⟩)).trans (State.set_onlyHeard _ (plcRxStat_SNR k) _ (.inr ⟨k, rfl⟩))).trans
      (State.set_onlyHeard _ (plcRxStat_NOISE k) _ (.inr ⟨k, rfl⟩))
  clear_value one
  split
  · exact (((onlyHeard.foldl one hone _ s).trans (State.set_onlyHeard _ plcMrcStat_SNR_L1 _ (.inl rfl))).trans
      (State.set_onlyHeard _ plcMrcStat_SNR_L2 _ (.inl rfl))).trans (State.set_onlyHeard _ plcMrcStat_SNR_L3 _ (.inl rfl))
  · exact hone s p

/-- The paths that an all-phase reception leaves out (R118). -/
def State.leftOut (s : State) (x : PlcRx) : List Nat := if s.plcMode = 2 then s.excluded x else []

/-- The rank that stamps a reception on a path (R61). -/
def State.rxRank (s : State) (p : Nat) : Nat := if s.plcMode = 2 then 2 else 2 + p

/-- A frame as the path has heard it, before its verdict counts: path status, event 73, IMPULSE (R104 to R106, R118). -/
def State.heard (s : State) (p : Nat) (x : PlcRx) : State :=
  (s.contributors p x).foldl (fun st k => st.countImpulse x k) ((s.rxStatus p x).raiseIf (s.leftOut x ≠ []) 73)

theorem State.heard_onlyHeard (s : State) (p : Nat) (x : PlcRx) : onlyHeard s (s.heard p x) :=
  ((s.rxStatus_onlyHeard p x).trans (State.raiseIf_onlyHeard _ _ 73)).trans
    (onlyHeard.foldl _ (fun st k => st.countImpulse_onlyHeard x k) _ _)

theorem State.everyNth_of_empty {s : State} (h : s.tst.entries = []) (kind : Nat) (p : TEntry → Bool) : s.everyNth kind p = (false, s) := by
  simp [State.everyNth, State.armedEntry_of_empty h]

/-- What the receiver suggests changes a cell's links, no queue and no register (R150). -/
theorem State.ownSuggestion_keeps (s : State) (c v : Nat) (x : PlcRx) (b : List Byte) :
    (s.ownSuggestion c v x b).whf = s.whf ∧ (s.ownSuggestion c v x b).regs = s.regs := by
  unfold State.ownSuggestion
  split <;> exact ⟨rfl, rfl⟩

/-- The item of a good frame: descriptor and PSDU (R107). -/
def State.rxBytes (s : State) (p : Nat) (x : PlcRx) : List Byte :=
  s.rxDescriptor p 0 x (s.leftOut x) (s.rxStamp (s.rxRank p)) ++ x.delivered 0

theorem State.rxDescriptor_length (s : State) (p v : Nat) (x : PlcRx) (ex : List Nat) (t : Stamp) :
    (s.rxDescriptor p v x ex t).length = 40 := by simp [State.rxDescriptor]

theorem PlcRx.delivered_length (x : PlcRx) : (x.delivered 0).length = x.len := by
  unfold PlcRx.delivered
  rw [if_neg (by decide)]
  split <;> exact padTo_length _ _

theorem State.rxBytes_length (s : State) (p : Nat) (x : PlcRx) : (s.rxBytes p x).length = 40 + x.len := by
  rw [State.rxBytes, List.length_append, State.rxDescriptor_length, PlcRx.delivered_length]

/-- A good frame, with nothing armed, goes to the cell's receive queue (R106, R394). -/
theorem State.plcReceive_good {s : State} {p q : Nat} {x : PlcRx} (he : s.tst.entries = []) (hv : x.verdict false = 0)
    (hq : roleQ s.man.roles.plcRx (s.pathCell p) = some q) : ∃ (w : Producer) (flow : Nat), s.plcReceive p x =
      ((s.heard p x).rxEnqueue w q (mkItem flow (s.rxStamp (s.rxRank p)) (s.rxBytes p x))).ownSuggestion (s.pathCell p) 0 x (x.delivered 0) := by
  have hman : (s.heard p x).man = s.man := (s.heard_onlyHeard p x).only .man (by decide)
  have hrole : roleQ (s.heard p x).man.roles.plcRx (s.pathCell p) = some q := by rw [hman, hq]
  unfold State.plcReceive
  simp only [State.everyNth_of_empty he, hv, ne_eq, not_true_eq_false, if_false, true_or, if_true]
  rw [show ((s.contributors p x).foldl (fun st k => st.countImpulse x k)
    ((s.rxStatus p x).raiseIf (¬ (if s.plcMode = 2 then s.excluded x else []) = []) 73)) = s.heard p x from rfl, hrole]
  exact ⟨_, _, rfl⟩

/-- A bad frame, with nothing armed, counts in BAD; what may follow is its report to the receive queue (R106). -/
theorem State.plcReceive_bad {s : State} {p : Nat} {x : PlcRx} (he : s.tst.entries = []) (hv : x.verdict false ≠ 0) :
    queueWork (((s.heard p x).bump (plcRxCnt_BAD p) 1).raiseIf (x.verdict false == 3) 74) (s.plcReceive p x) := by
  unfold State.plcReceive
  simp only [State.everyNth_of_empty he, hv, ne_eq, not_false_eq_true, if_true, false_or, State.ownSuggestion, false_and, if_false]
  rw [show ((s.contributors p x).foldl (fun st k => st.countImpulse x k)
    ((s.rxStatus p x).raiseIf (¬ (if s.plcMode = 2 then s.excluded x else []) = []) 73)) = s.heard p x from rfl]
  split
  · split
    · exact State.rxEnqueue_queueWork _ _ _ _
    · exact .refl
  · exact .refl

/-- A path that is on, with no power warning, receives (R106, R110). -/
theorem exec_plcFrameReceived_on {s : State} {p : Nat} (x : PlcRx) (hw : s.warned = false) (hon : natBit (s.get plcStatus_PATH_ON) p = true) :
    exec (.plcFrameReceived p x) s = s.out (s.plcReceive p x) := by
  simp [exec, execPlcFrameReceived, hw, hon]

/-- An item that fits into a flag-mode queue enters it (R394). -/
theorem State.rxEnqueue_fits {s : State} {q : Nat} {it : Item} (w : Producer) (hused : s.qUsed q = true)
    (hflag : s.flag (whfQCfg_FLAG q) = true) (hfits : it.words ≤ s.qFree q) : s.rxEnqueue w q it = s.enqueueNow q it := by
  simp only [State.rxEnqueue, hused, hflag, hfits, Bool.not_true, Bool.false_eq_true, if_false, if_true]

/-- What a reception changes before its item enters leaves the queue as it was, so that the item fits all the same. -/
theorem State.heard_rxEnqueue {s : State} {p q : Nat} (x : PlcRx) {it : Item} (w : Producer) (hp : p < 3) (he : s.tst.entries = [])
    (hused : s.qUsed q = true) (hflag : s.flag (whfQCfg_FLAG q) = true) (hfits : it.words ≤ s.qFree q) :
    (((s.heard p x).rxEnqueue w q it).q q).items = (s.q q).items ++ [{ it with iseq := (s.q q).tail }] ∧
      (((s.heard p x).rxEnqueue w q it).q q).tail = ((s.q q).tail + 1) % 2 ^ 32 ∧
      ((s.heard p x).rxEnqueue w q it).get (plcRxCnt_BAD p) = s.get (plcRxCnt_BAD p) := by
  obtain ⟨honly, hcfg, hbad⟩ := s.heard_onlyHeard p x
  generalize s.heard p x = u at honly hcfg hbad ⊢
  have hman : u.man = s.man := honly .man (by decide)
  have hwhf : u.whf = s.whf := honly .whf (by decide)
  have htst : u.tst = s.tst := honly .tst (by decide)
  have huused : u.qUsed q = true := by rw [State.qUsed, hman]; exact hused
  have huflag : u.flag (whfQCfg_FLAG q) = true := by rw [State.flag, State.get_congr (f := whfQCfg_FLAG q) (hcfg q)]; exact hflag
  have hq : u.q q = s.q q := by rw [State.q, hwhf]; rfl
  have hentered := State.enqueueNow_q (htst ▸ he) q it
  rw [State.rxEnqueue_fits w huused huflag (by rwa [State.qFree_congr hwhf hman htst (hcfg q)]), ← hq, ← hbad p]
  exact ⟨hentered.1, hentered.2,
    State.get_congr (f := plcRxCnt_BAD p) ((u.enqueueNow_queueWork q it).regs _ (plcRxCnt_below hp))⟩

theorem plcFrameReceived_delivered (s : State) (p q : Nat) (x : PlcRx) (hp : p < 3) (hw : s.warned = false)
    (hon : natBit (s.get plcStatus_PATH_ON) p = true) (he : s.tst.entries = []) (hv : x.verdict false = 0)
    (hq : roleQ s.man.roles.plcRx (s.pathCell p) = some q) (hused : s.qUsed q = true) (hflag : s.flag (whfQCfg_FLAG q) = true)
    (hroom : 40 + x.len ≤ 8 * (s.qFree q - 2)) :
    answers (.plcFrameReceived p x) s fun t =>
      (t.q q).items.dropLast = (s.q q).items ∧ (t.q q).tail = ((s.q q).tail + 1) % 2 ^ 32 ∧
      ((t.q q).items.getLastD {}).bytes.take (40 + x.len) = s.rxBytes p x ∧ t.get (plcRxCnt_BAD p) = s.get (plcRxCnt_BAD p) := by
  obtain ⟨w, flow, hrx⟩ := State.plcReceive_good he hv hq
  have hx := exec_plcFrameReceived_on x hw hon
  rw [hrx] at hx
  have hlen := s.rxBytes_length p x
  obtain ⟨zeros, hbytes⟩ : ∃ z, (mkItem flow (s.rxStamp (s.rxRank p)) (s.rxBytes p x)).bytes = s.rxBytes p x ++ z := ⟨_, mkItem_bytes _ _ _⟩
  have hwords : (mkItem flow (s.rxStamp (s.rxRank p)) (s.rxBytes p x)).words = (40 + x.len + 7) / 8 + 2 := by
    simp [Item.words, mkItem, hlen]
  generalize mkItem flow (s.rxStamp (s.rxRank p)) (s.rxBytes p x) = it at hx hbytes hwords
  obtain ⟨hitems, htail, hbad⟩ := State.heard_rxEnqueue x w hp he hused hflag (show it.words ≤ s.qFree q by omega)
  generalize (s.heard p x).rxEnqueue w q it = v at hx hitems htail hbad
  obtain ⟨hwhf, hregs⟩ := v.ownSuggestion_keeps (s.pathCell p) 0 x (x.delivered 0)
  generalize v.ownSuggestion (s.pathCell p) 0 x (x.delivered 0) = z at hx hwhf hregs
  have hzq : z.q q = v.q q := by rw [State.q, hwhf]; rfl
  have hzbad : z.get (plcRxCnt_BAD p) = v.get (plcRxCnt_BAD p) := by rw [State.get, State.reg, hregs]; rfl
  rw [← hzq] at hitems htail
  have hlast : ((z.q q).items.getLastD {}).bytes = it.bytes := by rw [hitems, List.getLastD_concat]; rfl
  exact answers_of_out_congr hx ⟨(congrArg List.dropLast hitems).trans List.dropLast_concat, htail,
    (congrArg (List.take _) (hlast.trans hbytes)).trans (List.take_left' hlen), hzbad.trans hbad⟩

theorem plcFrameReceived_bad (s : State) (p : Nat) (x : PlcRx) (hp : p < 3) (hw : s.warned = false)
    (hon : natBit (s.get plcStatus_PATH_ON) p = true) (he : s.tst.entries = []) (hv : x.verdict false ≠ 0) :
    answers (.plcFrameReceived p x) s fun t => t.get (plcRxCnt_BAD p) = satAdd (s.get (plcRxCnt_BAD p)) 1 32767 := by
  refine answers_of_out_congr (exec_plcFrameReceived_on x hw hon) ?_
  obtain ⟨hfry, -⟩ := plcRxCnt_place p
  have hcount := State.get_bump (s.heard p x) (plcRxCnt_BAD p) 1 (by decide : 16 ≤ 30) (by decide : 30 < 32)
  rw [(s.heard_onlyHeard p x).bad] at hcount
  exact (State.get_congr (f := plcRxCnt_BAD p) ((State.plcReceive_bad he hv).regs _ (plcRxCnt_below hp))).trans
    ((State.raiseIf_get _ _ 74 hfry).trans hcount)

theorem plcFrameReceived_off (s : State) (p : Nat) (x : PlcRx) (h : s.warned = true ∨ natBit (s.get plcStatus_PATH_ON) p = false) :
    exec (.plcFrameReceived p x) s = .next s := by
  have hoff : (s.warned || !natBit (s.get plcStatus_PATH_ON) p) = true := by rcases h with h | h <;> simp [h]
  simp only [exec, execPlcFrameReceived, hoff, if_true, State.out_self]

/-! ### A frame leaves its paths -/

theorem State.path_setPath (s : State) (p k : Nat) (x : PlcPath) : (s.setPath p x).path k = if k = p then x else s.path k := by
  simp [State.path, State.setPath]

theorem State.path_congr {s t : State} (h : t.plc.paths = s.plc.paths) (k : Nat) : t.path k = s.path k := by simp only [State.path, h]

theorem State.pathStop_path (s : State) (p k : Nat) : (s.pathStop p).path k = if k = p then { s.path k with job := none } else s.path k := by
  have h := s.path_setPath p k { s.path p with job := none }
  split at h
  · next hk => subst hk; rw [if_pos rfl]; exact h
  · next hk => rw [if_neg hk]; exact h

/-- A frame leaves the paths that send it; a trip that stands there stays (R110). -/
theorem State.clearJob_path (s : State) (j : TxJob) (k : Nat) :
    (s.clearJob j).path k = if k ∈ j.phases then { s.path k with job := none } else s.path k := by
  unfold State.clearJob
  generalize j.phases = l
  induction l generalizing s with
  | nil => simp
  | cons p l ih =>
    rw [List.foldl_cons, ih, State.pathStop_path]
    by_cases hp : k = p <;> by_cases hl : k ∈ l <;> simp [hp, hl]

theorem State.pathStop_only (s : State) (p : Nat) : onlyIn [.plc, .sent] s (s.pathStop p) :=
  onlyIn_trans (onlyIn_plc s _ _ (by decide)) (State.emit_only _ _ _ (by decide))

theorem State.clearJob_only (s : State) (j : TxJob) : onlyIn [.plc, .sent] s (s.clearJob j) :=
  onlyIn_foldl _ (fun st p => st.pathStop_only p) _ s

theorem State.clearJob_get (s : State) (j : TxJob) (f : Fld) : (s.clearJob j).get f = s.get f := by
  have hregs : (s.clearJob j).regs = s.regs := s.clearJob_only j .regs (by decide)
  simp only [State.get, State.reg, hregs]

/-! ### A frame completes -/

/-- The path counts a limited frame; its event leaves the paths (R120, R124). -/
theorem State.noteLimited_get (s : State) (p k : Nat) : (s.noteLimited p).get (plcTxStat_LIMITED k) =
    if k = p then satAdd (s.get (plcTxStat_LIMITED k)) 1 65535 else s.get (plcTxStat_LIMITED k) := by
  split
  · next h =>
    obtain ⟨-, hfry⟩ := plcTxStat_place p
    subst h
    exact s.counted_get _ _ (by decide : 16 ≤ 31) (by decide : 31 < 32) hfry
  · next h =>
    obtain ⟨-, hfry⟩ := plcTxStat_place k
    have haddr : plcTxStat k ≠ plcTxStat p := by simp only [plcTxStat]; omega
    exact (State.raise_get _ _ hfry).trans
      (State.get_set_other s (plcTxStat_LIMITED p) _ _ (by decide : 16 ≤ 31) (by decide : 31 < 32) (.inl haddr))

theorem State.foldl_noteLimited_get {l : List Nat} (hl : l.Nodup) (s : State) (k : Nat) :
    (l.foldl State.noteLimited s).get (plcTxStat_LIMITED k) =
      if k ∈ l then satAdd (s.get (plcTxStat_LIMITED k)) 1 65535 else s.get (plcTxStat_LIMITED k) := by
  induction l generalizing s with
  | nil => simp
  | cons p l ih =>
    obtain ⟨hp, hl⟩ := List.nodup_cons.mp hl
    rw [List.foldl_cons, ih hl, State.noteLimited_get]
    by_cases hk : k = p
    · subst hk; simp [hp]
    · simp [hk]

theorem State.noteLimited_only (s : State) (p : Nat) : onlyIn evtParts s (s.noteLimited p) :=
  onlyIn_trans (s.bump_only _ 1 _ (by decide)) (State.raise_only _ _)

theorem State.foldl_noteLimited_path (s : State) (l : List Nat) (k : Nat) : (l.foldl State.noteLimited s).path k = s.path k := by
  have hplc : (l.foldl State.noteLimited s).plc = s.plc := onlyIn_foldl _ (fun st p => st.noteLimited_only p) l s .plc (by decide)
  rw [State.path, hplc]
  rfl

/-- A frame completes: off its paths, its limited ones counted when it was sent; the completion, the item's end are work on queues
(R114, R120). -/
theorem State.plcComplete_queueWork (s : State) (c : Nat) (j : TxJob) (status : Nat) :
    queueWork ((if status ≤ 1 then s.jobLimited j else []).foldl State.noteLimited (s.clearJob j)) (s.plcComplete c j status) := by
  unfold State.plcComplete
  generalize (if status ≤ 1 then s.jobLimited j else []) = limited
  simp only
  split
  · exact .refl
  · exact (State.plcCompletion_queueWork _ _ _ _ _ _).trans (State.freeSent_queueWork _ _ _)

/-! ### What the cells' work leaves of the paths -/

/-- The paths and their registers, those between PLC_STATUS and PLC_XCH_OK, stay. -/
structure keepsPaths (s t : State) : Prop where
  paths : t.plc.paths = s.plc.paths
  regs : ∀ a, plcStatus < a → a < plcXchOk 0 → t.reg a = s.reg a

theorem keepsPaths.refl {s : State} : keepsPaths s s := ⟨rfl, fun _ _ _ => rfl⟩

theorem keepsPaths.trans {s t u : State} (h : keepsPaths s t) (k : keepsPaths t u) : keepsPaths s u :=
  ⟨k.paths.trans h.paths, fun a hlo hhi => (k.regs a hlo hhi).trans (h.regs a hlo hhi)⟩

theorem keepsPaths.foldl {α : Type} (f : State → α → State) (h : ∀ s x, keepsPaths s (f s x)) (l : List α) (s : State) :
    keepsPaths s (l.foldl f s) := by
  induction l generalizing s with
  | nil => exact .refl
  | cons x l ih => exact (h s x).trans (ih (f s x))

/-- A change of other parts than the PLC and the registers. -/
theorem keepsPaths_of_only {ps : List Part} {s t : State} (h : onlyIn ps s t) (hp : Part.plc ∉ ps ∧ Part.regs ∉ ps) : keepsPaths s t := by
  have hplc : t.plc = s.plc := h .plc hp.1
  have hregs : t.regs = s.regs := h .regs hp.2
  exact ⟨by rw [hplc], fun a _ _ => by rw [State.reg, hregs]; rfl⟩

theorem queueWork.keepsPaths {s t : State} (h : queueWork s t) : keepsPaths s t := by
  have hplc : t.plc = s.plc := h.only .plc (by decide)
  exact ⟨by rw [hplc], fun a _ ha => h.regs a (ha.trans (by decide))⟩

theorem State.raise_keepsPaths (s : State) (e : Nat) : keepsPaths s (s.raise e) := (s.raise_onlyQueue 0 e).queueWork.keepsPaths

theorem State.raiseIf_keepsPaths (s : State) (c : Bool) (e : Nat) : keepsPaths s (s.raiseIf c e) :=
  (s.raiseIf_onlyQueue 0 c e).queueWork.keepsPaths

/-- A field of a register that is no path's. -/
theorem State.set_keepsPaths (s : State) (f : Fld) (v : Nat) (h : f.addr ≤ plcStatus ∨ plcXchOk 0 ≤ f.addr) : keepsPaths s (s.set f v) :=
  ⟨rfl, fun a hlo hhi => s.set_regs f v a (by rw [List.mem_singleton]; omega)⟩

theorem State.setCell_keepsPaths (s : State) (c : Nat) (x : Cell) : keepsPaths s (s.setCell c x) := ⟨rfl, fun _ _ _ => rfl⟩

theorem State.setNode_keepsPaths (s : State) (c a : Nat) (n : Option Node) : keepsPaths s (s.setNode c a n) := s.setCell_keepsPaths c _

theorem State.sealUpds_only (s : State) (us : List StoreUpd) : onlyIn [.aon] s (s.sealUpds us).2 := by
  induction us generalizing s with
  | nil => exact onlyIn_refl _ s
  | cons u us ih => exact onlyIn_trans (s.sealUpd_only u) (ih _)

theorem State.dirtyCtx_only (s : State) (us : List StoreUpd) : onlyIn [.ept] s (s.dirtyCtx us) := by
  unfold State.dirtyCtx
  simp only
  split
  · exact onlyIn_refl _ s
  · exact onlyIn_ept s _ _ (by decide)

/-- The parts that a journalled change of stored content touches (R267). -/
def journalParts : List Part := [.aon, .live, .nand, .ept, .cmt]

theorem State.journalUpd_only (s : State) (us : List StoreUpd) : onlyIn journalParts s (s.journalUpd us) := by
  have hseal := onlyIn_mono (qs := journalParts) (s.sealUpds_only us) (by decide)
  unfold State.journalUpd
  generalize s.sealUpds us = q at hseal ⊢
  obtain ⟨done, u⟩ := q
  have hlive := onlyIn_trans hseal (onlyIn_live u (s.live.applyAll s.man done) journalParts (by decide))
  simp only at hlive ⊢
  generalize ({ u with live := s.live.applyAll s.man done } : State) = v at hlive ⊢
  have hstored := onlyIn_trans (onlyIn_trans hlive (onlyIn_mono (v.gather_only done) (by decide)))
    (onlyIn_mono ((v.gather done).dirtyCtx_only done) (by decide))
  generalize (v.gather done).dirtyCtx done = w at hstored ⊢
  exact onlyIn_trans hstored (onlyIn_cmt w _ _ (by decide))

theorem State.ctxRoute_keepsPaths (s : State) (c a : Nat) (n : Node) : keepsPaths s (s.ctxRoute c a n) :=
  keepsPaths_of_only (s.journalUpd_only _) (by decide)

theorem State.takeRoute_keepsPaths (s : State) (c a : Nat) (n : Node) (p : List Nat) : keepsPaths s (s.takeRoute c a n p) :=
  ((s.setNode_keepsPaths c a _).trans (State.ctxRoute_keepsPaths _ c a _)).trans (State.raise_keepsPaths _ _)

theorem State.roles_keepsPaths (s : State) (c : Nat) : keepsPaths s (s.roles c) := by
  refine keepsPaths.foldl _ (fun st p => ?_) _ s
  split
  · exact .refl
  · simp only
    split
    · exact ((st.setNode_keepsPaths c _ _).trans (State.ctxRoute_keepsPaths _ c _ _)).trans (State.setCell_keepsPaths _ c _)
    · exact .refl

theorem State.penalise_keepsPaths (s : State) (c : Nat) (x : Exchange) : keepsPaths s (s.penalise c x) :=
  keepsPaths.foldl _ (fun st _ => st.setCell_keepsPaths c _) _ s

theorem State.reroute_keepsPaths (s : State) (c a : Nat) : keepsPaths s (s.reroute c a) := by
  unfold State.reroute
  split
  · exact .refl
  · split
    · exact .refl
    · split
      · exact (s.takeRoute_keepsPaths c a _ _).trans (State.roles_keepsPaths _ c)
      · exact .refl

theorem State.txnTake_only {s u : State} {t : Txn} {e : Nat} (h : s.txnTake t = some (e, u)) : onlyIn [.txn, .oar] s u := by
  unfold State.txnTake at h
  split at h
  · obtain ⟨n, -, hn⟩ := Option.map_eq_some_iff.mp h
    cases hn
    exact onlyIn_txn s _ _ (by decide)
  · cases h

theorem State.txnServe_only (s : State) (w : TxnWaiter) : onlyIn [.txn, .oar] s (s.txnServe w) := by
  unfold State.txnServe
  split
  · next h =>
    split
    · exact onlyIn_trans (State.txnTake_only h) (onlyIn_oar _ _ _ (by decide))
    · exact State.txnTake_only h
  · next h => exact onlyIn_trans (State.txnTake_only h) (onlyIn_txn _ _ _ (by decide))
  · next h => exact onlyIn_trans (State.txnTake_only h) (onlyIn_txn _ _ _ (by decide))
  · exact onlyIn_refl _ s

theorem State.txnRelease_only (s : State) (e : Nat) : onlyIn [.txn, .oar] s (s.txnRelease e) := by
  unfold State.txnRelease
  simp only
  split
  · exact onlyIn_txn s _ _ (by decide)
  · exact onlyIn_trans (onlyIn_txn s _ _ (by decide)) (State.txnServe_only _ _)

theorem State.dropExchange_keepsPaths (s : State) (c : Nat) (x : Exchange) : keepsPaths s (s.dropExchange c x) := by
  have hrelease (u : State) : keepsPaths u (u.txnRelease x.txn) := keepsPaths_of_only (u.txnRelease_only x.txn) (by decide)
  unfold State.dropExchange
  simp only
  split
  · exact (((s.setCell_keepsPaths c _).trans (State.penalise_keepsPaths _ c x)).trans (State.reroute_keepsPaths _ c x.addr)).trans (hrelease _)
  · exact (s.setCell_keepsPaths c _).trans (hrelease _)

theorem State.endExchange_keepsPaths (s : State) (c : Nat) (x : Exchange) : keepsPaths s (s.endExchange c x) := by
  unfold State.endExchange
  extract_lets s1 s2
  have hs1 : keepsPaths s s1 := by
    have hcount : plcXchOk 0 ≤ plcXchOk c := by simp only [plcXchOk]; omega
    by_cases hc : c < 3
    · simp only [s1, hc, if_true]
      exact s.set_keepsPaths (plcXchOk_COUNT c) _ (.inr hcount)
    · simp only [s1, hc, if_false]
      exact .refl
  have hs2 : keepsPaths s s2 := by
    clear_value s1
    dsimp only [s2]
    split
    · exact hs1.trans (s1.setNode_keepsPaths c x.addr _)
    · exact hs1
  exact hs2.trans (s2.dropExchange_keepsPaths c x)

theorem State.sentFrame_keepsPaths (s : State) (c : Nat) (j : TxJob) (limited : Bool) : keepsPaths s (s.sentFrame c j limited) := by
  unfold State.sentFrame
  simp only
  split
  · split
    · exact (s.setCell_keepsPaths c _).trans (State.endExchange_keepsPaths _ c _)
    · exact s.setCell_keepsPaths c _
  · exact .refl

/-- The cancellers stand beside the paths; their convergence shows in PLC_STATUS (R116). -/
theorem State.adaptAll_keepsPaths (s : State) (x : XtcRead) (q : Nat) : keepsPaths s (s.adaptAll x q) := by
  have hcanceller (u : State) (a b : Nat) (y : Canceller) : keepsPaths u (u.setCanceller a b y) := ⟨rfl, fun _ _ _ => rfl⟩
  have hadapt (u : State) (p : Nat) : keepsPaths u (u.adapt x q p) := (hcanceller u p q _).trans (hcanceller _ p q _)
  have hconv (u : State) : keepsPaths u u.convergence :=
    (u.set_keepsPaths plcStatus_XTC_CONV _ (.inl le_rfl)).trans (keepsPaths.foldl _ (fun st p => st.raiseIf_keepsPaths _ _) _ _)
  exact (keepsPaths.foldl _ hadapt _ s).trans (hconv _)

/-! ### PLC_TRANSMIT_COMPLETE -/

/-- A cell's frame completes: what follows its leaving the paths and its count leaves both (R114, R116, R149). -/
theorem exec_plcTransmitComplete {s : State} {c : Nat} {j : TxJob} (x : XtcRead) (hj : s.cellJob c = some j) :
    ∃ u, exec (.plcTransmitComplete c x) s = s.out u ∧
      keepsPaths ((s.jobLimited j).foldl State.noteLimited (s.clearJob j)) u := by
  have hle (b : Bool) : ofBool b ≤ 1 := by cases b <;> decide
  have hdone := (s.plcComplete_queueWork c j (ofBool (decide (s.jobLimited j ≠ [])))).keepsPaths
  rw [if_pos (hle _)] at hdone
  simp only [exec, execPlcTransmitComplete, hj]
  refine ⟨_, rfl, ?_⟩
  generalize s.plcComplete c j (ofBool (decide (s.jobLimited j ≠ []))) = u at hdone ⊢
  refine (hdone.trans ?_).trans (State.sentFrame_keepsPaths _ _ _ _)
  split
  · exact u.adaptAll_keepsPaths x c
  · exact .refl

theorem plcTransmitComplete_answers (s : State) (c k : Nat) (x : XtcRead) (j : TxJob) (hj : s.cellJob c = some j) (hn : j.phases.Nodup)
    (hk : k ∈ j.phases) (hlt : k < 3) :
    answers (.plcTransmitComplete c x) s fun t => (t.path k).job = none ∧ t.get (plcTxStat_LIMITED k) =
      if k ∈ s.jobLimited j then satAdd (s.get (plcTxStat_LIMITED k)) 1 65535 else s.get (plcTxStat_LIMITED k) := by
  obtain ⟨u, hx, hpaths, hregs⟩ := exec_plcTransmitComplete x hj
  obtain ⟨hlo, hhi⟩ := plcTxStat_range hlt
  have hjob : (u.path k).job = none := by
    rw [State.path_congr hpaths, State.foldl_noteLimited_path, State.clearJob_path, if_pos hk]
  have hcount := State.foldl_noteLimited_get (l := s.jobLimited j) (hn.filter _) (s.clearJob j) k
  rw [State.clearJob_get, ← State.get_congr (f := plcTxStat_LIMITED k) (hregs _ hlo hhi)] at hcount
  exact answers_of_out_congr hx ⟨hjob, hcount⟩

/-! ### DRIVE_LIMIT_DETECTION -/

/-- A frame once a limit detection has marked it (R120). -/
def TxJob.limitedBy (j : TxJob) (last : Bool) : TxJob :=
  { j with limited := true, steps := if last = true ∨ j.maxStep ≤ j.steps then j.steps else j.steps + 1 }

/-- The state with a frame marked on a path that sends it. -/
def State.pathLimited (s : State) (p : Nat) (j : TxJob) (last : Bool) : State :=
  s.setPath p { s.path p with job := some (j.limitedBy last) }

theorem State.pathLimited_path (s : State) (p : Nat) (j : TxJob) (last : Bool) :
    (s.pathLimited p j last).path p = { s.path p with job := some (j.limitedBy last) } := by rw [State.pathLimited, State.path_setPath, if_pos rfl]

theorem State.pathLimited_only (s : State) (p : Nat) (j : TxJob) (last : Bool) : onlyIn [.plc, .sent] s (s.pathLimited p j last) :=
  onlyIn_plc s _ _ (by decide)

theorem exec_driveLimitDetection {s : State} {x : IsnsRead} {j : TxJob} (last : Bool) (hj : (s.path x.path).job = some j)
    (hd : j.detects x.samples = true) : exec (.driveLimitDetection x last) s = s.out
      (if (j.limitedBy last).steps = j.steps then s.pathLimited x.path j last
      else (s.pathLimited x.path j last).emit (.plcLevel x.path (j.limitedBy last).level)) := by
  simp only [exec, execDriveLimitDetection, hj, hd, Bool.not_true, Bool.false_eq_true, if_false]
  rfl

theorem driveLimitDetection_detects (s : State) (x : IsnsRead) (p : Nat) (last : Bool) (j : TxJob) (hp : x.path = p)
    (hj : (s.path p).job = some j) (hd : j.detects x.samples = true) :
    answers (.driveLimitDetection x last) s fun t =>
      (t.path p).job = some (j.limitedBy last) ∧ (t.path p).tripAt = (s.path p).tripAt ∧
      (last = false → j.steps < j.maxStep → t.sent = .plcLevel p (min 63 (j.base + 3 * (j.steps + 1))) :: s.sent) ∧
      onlyIn [.plc, .sent] s t := by
  subst hp
  have hx := exec_driveLimitDetection last hj hd
  have hpath := s.pathLimited_path x.path j last
  have honly := s.pathLimited_only x.path j last
  have hsent : (s.pathLimited x.path j last).sent = s.sent := rfl
  generalize s.pathLimited x.path j last = u at hx hpath honly hsent
  have hpending : u.pending = s.pending := honly .pending (by decide)
  have hfuses : u.fuses = s.fuses := honly .fuses (by decide)
  have hjob : (u.path x.path).job = some (j.limitedBy last) := by rw [hpath]
  have htrip : (u.path x.path).tripAt = (s.path x.path).tripAt := by rw [hpath]
  by_cases hsame : last = true ∨ j.maxStep ≤ j.steps
  · have hsteps : (j.limitedBy last).steps = j.steps := if_pos hsame
    rw [if_pos hsteps] at hx
    refine answers_of_out hx hpending hfuses ⟨hjob, htrip, fun hlast hlt => ?_, honly⟩
    exact absurd hsame (by simp [hlast, hlt])
  · have hsteps : (j.limitedBy last).steps = j.steps + 1 := if_neg hsame
    have hlevel : (j.limitedBy last).level = min 63 (j.base + 3 * (j.steps + 1)) := by rw [TxJob.level, hsteps]; rfl
    rw [if_neg (by omega), hlevel] at hx
    exact answers_of_out hx hpending hfuses ⟨hjob, htrip, fun _ _ => congrArg _ hsent, onlyIn_trans honly (State.emit_only _ _ _ (by decide))⟩

theorem driveLimitDetection_quiet (s : State) (x : IsnsRead) (last : Bool) (j : TxJob) (hj : (s.path x.path).job = some j)
    (hd : j.detects x.samples = false) : exec (.driveLimitDetection x last) s = .next s := by
  simp only [exec, execDriveLimitDetection, hj, hd, Bool.not_false, if_true, State.out_self]

/-- Settles O16, a lemma for each clause. -/
theorem plcFramesAreReceivedAndSent : Obligations.PlcFramesAreReceivedAndSent :=
  ⟨fun s p q x hp hw hon he hv hq _ hused hflag hroom _ => plcFrameReceived_delivered s p q x hp hw hon he hv hq hused hflag hroom,
   plcFrameReceived_bad, plcFrameReceived_off,
   fun s c k x j hj hn hk hlt _ => plcTransmitComplete_answers s c k x j hj hn hk hlt, driveLimitDetection_detects, driveLimitDetection_quiet⟩

/-! ### DRIVER_TRIP -/

/-- The bits of three paths, one of them set or cleared. -/
theorem pathBit_set : ∀ p < 3, ∀ n < 8, (n ||| 2 ^ p) % 8 = n ||| 2 ^ p := by decide

theorem pathBit_clear : ∀ p < 3, ∀ n < 8, (n &&& (7 - 2 ^ p)) % 8 = n &&& (7 - 2 ^ p) ∧ natBit (n &&& (7 - 2 ^ p)) p = false := by decide

/-- What a trip does whichever it is: the DAC at mid-scale, TRIPPED, its event (R120). -/
def State.tripNoted (s : State) (p : Nat) : State := ((s.emit (.pin (.txdac p) .mid)).set (plcTxStat_TRIPPED p) 1).raise (67 + p)

theorem State.tripNoted_only (s : State) (p : Nat) : onlyIn evtParts s (s.tripNoted p) :=
  onlyIn_trans (onlyIn_trans (s.emit_only _ _ (by decide)) (State.set_only _ _ _ _ (by decide))) (State.raise_only _ _)

theorem State.tripNoted_sent (s : State) (p : Nat) : Output.pin (.txdac p) .mid ∈ (s.tripNoted p).sent :=
  (State.raise_sent _ (67 + p)).subset List.mem_cons_self

theorem State.tripNoted_tripped (s : State) (p : Nat) : (s.tripNoted p).get (plcTxStat_TRIPPED p) = 1 := by
  obtain ⟨-, hfry⟩ := plcTxStat_place p
  exact (State.raise_get _ _ hfry).trans (State.get_set _ _ _ (by decide : 0 ≤ 0) (by decide : 0 < 32))

/-- Fields beside TRIPPED and FRY_CNT stay. -/
theorem State.tripNoted_get (s : State) (p : Nat) {f : Fld} (hfry : f.addr ≠ fryCnt) (h : f.addr ≠ plcTxStat p ∨ 0 < f.lo) :
    (s.tripNoted p).get f = s.get f :=
  (State.raise_get _ _ hfry).trans
    (State.get_set_other _ (plcTxStat_TRIPPED p) f 1 (by decide : 0 ≤ 0) (by decide : 0 < 32) (h.imp_right .inr))

/-- With re-arms left the trip's crossing is remembered (R121). -/
theorem State.tripPath_waits {s : State} {p : Nat} (h : (s.tripNoted p).get (plcTxStat_REARMS p) ≠ 3) :
    s.tripPath p = (s.tripNoted p).setPath p { (s.tripNoted p).path p with tripAt := some (s.tripNoted p).xing.num } := if_neg h

/-- The path latched off: OFF in its register and in PLC_STATUS, no re-arming due (R121). -/
def State.latchedOff (s : State) (p : Nat) : State :=
  ((s.set (plcTxStat_OFF p) 1).set plcStatus_OFF (s.get plcStatus_OFF ||| 2 ^ p)).setPath p { s.path p with tripAt := none }

/-- With none left the driver is latched off (R121). -/
theorem State.tripPath_off {s : State} {p : Nat} (h : (s.tripNoted p).get (plcTxStat_REARMS p) = 3) :
    s.tripPath p = ((s.tripNoted p).latchedOff p).raise (70 + p) := if_pos h

/-- What a path sends stands in no register. -/
theorem State.setPath_get (s : State) (p : Nat) (x : PlcPath) (f : Fld) : (s.setPath p x).get f = s.get f := rfl

/-- A field of PLC_TX_STAT after PLC_STATUS is written. -/
theorem State.get_set_status (s : State) (n p : Nat) {f : Fld} (hf : f.addr = plcTxStat p) : (s.set plcStatus_OFF n).get f = s.get f := by
  obtain ⟨hstat, -⟩ := plcTxStat_place p
  exact State.get_set_other s plcStatus_OFF f n (by decide) (by decide) (.inl (by rw [hf]; exact hstat))

theorem State.latchedOff_get (s : State) {p : Nat} (hp : p < 3) :
    (s.latchedOff p).get (plcTxStat_OFF p) = 1 ∧ (s.latchedOff p).get plcStatus_OFF = (s.get plcStatus_OFF ||| 2 ^ p) ∧
      (s.latchedOff p).get (plcTxStat_TRIPPED p) = s.get (plcTxStat_TRIPPED p) := by
  have hfits : (s.get plcStatus_OFF ||| 2 ^ p) % 8 = s.get plcStatus_OFF ||| 2 ^ p := pathBit_set p hp _ (s.get_lt plcStatus_OFF)
  rw [State.latchedOff, State.setPath_get, State.setPath_get, State.setPath_get, State.get_set_status _ _ p (f := plcTxStat_OFF p) rfl,
    State.get_set_status _ _ p (f := plcTxStat_TRIPPED p) rfl, State.get_set _ plcStatus_OFF _ (by decide) (by decide)]
  exact ⟨State.get_set s (plcTxStat_OFF p) 1 (by decide : 1 ≤ 1) (by decide : 1 < 32), hfits,
    State.get_set_other s (plcTxStat_OFF p) (plcTxStat_TRIPPED p) 1 (by decide : 1 ≤ 1) (by decide : 1 < 32) (.inr (.inl (by decide : 0 < 1)))⟩

/-- A trip ends the path's frame; nothing is counted as limited (R120). -/
theorem exec_driverTrip {s : State} {x : IsnsRead} {j : TxJob} (hj : (s.path x.path).job = some j) (ht : j.trips x.samples = true) :
    ∃ u, exec (.driverTrip x) s = s.out (u.tripPath x.path) ∧ queueWork (s.clearJob j) u := by
  have hdone := s.plcComplete_queueWork (s.pathCell x.path) j 2
  simp only [exec, execDriverTrip, hj, ht, if_true]
  exact ⟨_, rfl, hdone⟩

/-- The path that a trip finds: off its frame, its counters, PLC_STATUS and the time as before. -/
theorem State.clearJob_tripState {s u : State} {j : TxJob} (h : queueWork (s.clearJob j) u) {p : Nat} (hp : p < 3) (hmem : p ∈ j.phases) :
    u.path p = { s.path p with job := none } ∧ u.xing = s.xing ∧
      ∀ f : Fld, f.addr = plcTxStat p ∨ f.addr = plcStatus → u.get f = s.get f := by
  have hplc : u.plc = (s.clearJob j).plc := h.only .plc (by decide)
  have hxing : u.xing = (s.clearJob j).xing := h.only .xing (by decide)
  refine ⟨?_, hxing.trans (s.clearJob_only j .xing (by decide)), fun f hf => ?_⟩
  · rw [State.path_congr (congrArg Plc.paths hplc), State.clearJob_path, if_pos hmem]
  · have hbelow : f.addr < whfQStat 0 := by
      rcases hf with hf | hf <;> rw [hf]
      · simp only [plcTxStat, whfQStat]; omega
      · decide
    rw [State.get_congr (h.regs _ hbelow), State.clearJob_get]

theorem driverTrip_answers (s : State) (x : IsnsRead) (p : Nat) (j : TxJob) (hx : x.path = p) (hp : p < 3) (hj : (s.path p).job = some j)
    (hmem : p ∈ j.phases) (ht : j.trips x.samples = true) :
    answers (.driverTrip x) s fun t =>
      t.get (plcTxStat_TRIPPED p) = 1 ∧ (t.path p).job = none ∧ Output.pin (.txdac p) .mid ∈ t.sent ∧
      (s.get (plcTxStat_REARMS p) ≠ 3 → (t.path p).tripAt = some s.xing.num ∧ t.get (plcTxStat_OFF p) = s.get (plcTxStat_OFF p)) ∧
      (s.get (plcTxStat_REARMS p) = 3 →
        (t.path p).tripAt = none ∧ t.get (plcTxStat_OFF p) = 1 ∧ t.get plcStatus_OFF = (s.get plcStatus_OFF ||| 2 ^ p)) := by
  subst hx
  obtain ⟨u, hexec, hwork⟩ := exec_driverTrip hj ht
  obtain ⟨hpath, hxing, hget⟩ := State.clearJob_tripState hwork hp hmem
  obtain ⟨-, hfry⟩ := plcTxStat_place x.path
  have honly := u.tripNoted_only x.path
  have hsent := u.tripNoted_sent x.path
  have htripped := u.tripNoted_tripped x.path
  have hrearms := (u.tripNoted_get x.path (f := plcTxStat_REARMS x.path) hfry (.inr (by decide : 0 < 8))).trans (hget _ (.inl rfl))
  have hoff := (u.tripNoted_get x.path (f := plcTxStat_OFF x.path) hfry (.inr (by decide : 0 < 1))).trans (hget _ (.inl rfl))
  have hstatus := (u.tripNoted_get x.path (f := plcStatus_OFF) (by decide) (.inr (by decide))).trans (hget _ (.inr rfl))
  by_cases hr : s.get (plcTxStat_REARMS x.path) = 3
  · rw [State.tripPath_off (hrearms.trans hr)] at hexec
    generalize u.tripNoted x.path = v at hexec honly hsent htripped hrearms hoff hstatus
    have hvplc : v.plc = u.plc := honly .plc (by decide)
    obtain ⟨hlatched, hbits, hkept⟩ := v.latchedOff_get hp
    have hvpath : v.path x.path = { s.path x.path with job := none } := by rw [State.path_congr (congrArg Plc.paths hvplc), hpath]
    have hlpath : (v.latchedOff x.path).path x.path = { v.path x.path with tripAt := none } := by
      rw [State.latchedOff, State.path_setPath, if_pos rfl]
    have hrpath : ((v.latchedOff x.path).raise (70 + x.path)).path x.path = { job := none, tripAt := none } := by
      rw [State.path_congr (congrArg Plc.paths (State.raise_plc _ _)), hlpath, hvpath]
    refine answers_of_out_congr hexec ⟨?_, congrArg PlcPath.job hrpath, ?_, fun h => absurd hr h, fun _ => ⟨congrArg PlcPath.tripAt hrpath, ?_, ?_⟩⟩
    · exact (State.raise_get _ _ hfry).trans (hkept.trans htripped)
    · exact (State.raise_sent _ _).subset hsent
    · exact (State.raise_get _ _ hfry).trans hlatched
    · exact (State.raise_get _ _ (by decide)).trans (by rw [hbits, hstatus])
  · rw [State.tripPath_waits (by rwa [hrearms])] at hexec
    generalize u.tripNoted x.path = v at hexec honly hsent htripped hrearms hoff hstatus
    have hvplc : v.plc = u.plc := honly .plc (by decide)
    have hvxing : v.xing = u.xing := honly .xing (by decide)
    have hvpath : (v.setPath x.path { v.path x.path with tripAt := some v.xing.num }).path x.path =
        { job := none, tripAt := some s.xing.num } := by
      rw [State.path_setPath, if_pos rfl, State.path_congr (congrArg Plc.paths hvplc), hpath, hvxing, hxing]
    exact answers_of_out_congr hexec ⟨htripped, congrArg PlcPath.job hvpath, hsent,
      fun _ => ⟨congrArg PlcPath.tripAt hvpath, hoff⟩, fun h => absurd h hr⟩

/-! ### DRIVER_REARM -/

theorem driverRearm_answers (s : State) (p k : Nat) (ht : (s.path p).tripAt = some k) (hn : s.xing.num % 32 = 0)
    (hk : k + 32 ≤ s.xing.num) :
    answers (.driverRearm p) s fun t =>
      t.path p = { s.path p with tripAt := none } ∧ t.get (plcTxStat_REARMS p) = satAdd (s.get (plcTxStat_REARMS p)) 1 3 ∧
      onlyIn [.plc, .regs] s t ∧ keepsRegs [plcTxStat p] s t := by
  have hx : exec (.driverRearm p) s = s.out ((s.setPath p { s.path p with tripAt := none }).bump (plcTxStat_REARMS p) 1) := by
    simp only [exec, execDriverRearm, ht, hn, hk, and_self, if_true]
  have hpath := s.path_setPath p p { s.path p with tripAt := none }
  rw [if_pos rfl] at hpath
  have honly := onlyIn_plc s { s.plc with paths := smPut {} s.plc.paths p { s.path p with tripAt := none } } [.plc, .regs] (by decide)
  exact answers_of_out hx rfl rfl ⟨hpath, State.get_bump _ (plcTxStat_REARMS p) 1 (by decide : 8 ≤ 9) (by decide : 9 < 32),
    onlyIn_trans honly (State.bump_only _ (plcTxStat_REARMS p) 1 _ (by decide)), State.bump_regs _ (plcTxStat_REARMS p) 1⟩

/-! ### The clears -/

/-- PLC_TX_STAT: TRIPPED is cleared by a 1, the rest is read only. -/
theorem plcTxStat_desc : ∀ p, p < 3 → regDesc? (plcTxStat p) =
    some ⟨0x300114, [(3, 0x40)], [⟨31, 16, .ro⟩, ⟨9, 8, .ro⟩, ⟨1, 1, .ro⟩, ⟨0, 0, .w1c⟩]⟩ := by decide +kernel

theorem plcRxCnt_desc : ∀ p, p < 3 → regDesc? (plcRxCnt p) =
    some ⟨0x300108, [(3, 0x40)], [⟨31, 31, .wo⟩, ⟨30, 16, .ro⟩, ⟨14, 0, .ro⟩]⟩ := by decide +kernel

theorem plcTxStat_single : ∀ p, p < 3 → ownByIface (plcTxStat p) = false ∧ windowed (plcTxStat p) = none ∧
    plcTxStat p ≠ oarCtrl 12 ∧ plcTxStat p ≠ oarCtrl 13 := by decide +kernel

theorem plcRxCnt_single : ∀ p, p < 3 → ownByIface (plcRxCnt p) = false ∧ windowed (plcRxCnt p) = none ∧
    plcRxCnt p ≠ oarCtrl 12 ∧ plcRxCnt p ≠ oarCtrl 13 := by decide +kernel

/-- A bit written with what a 1 leaves of it is 0 (R15). -/
theorem writeFields_w1c_zero (i : Iface) {a : Nat} (sealOpen : Bool) (fs : List FieldDesc) (old : Word)
    (hoar : a ≠ oarCtrl 12 ∧ a ≠ oarCtrl 13) : bitsOf (writeFields i a sealOpen (fs ++ [⟨0, 0, .w1c⟩]) old 1) 0 0 = 0 := by
  have hsl : actsAsSl i a ⟨0, 0, .w1c⟩ = false := by simp [actsAsSl, hoar]
  have hbit : bitsOf (old &&& ~~~1) 0 0 = 0 := by
    apply Nat.eq_of_testBit_eq
    intro k
    rw [bitsOf_bit, Nat.zero_testBit]
    by_cases hk : k = 0
    · subst hk; simp
    · simp [hk]
  rw [writeFields, List.foldl_append, List.foldl_cons, List.foldl_nil, hsl, bitsOf_putBits _ _ _ _ (by decide) (by decide)]
  simp only [fieldNew, Bool.false_and, Bool.false_eq_true, if_false, hbit, Nat.zero_mod]

/-- A granted write of 1 to TRIPPED stores in PLC_TX_STAT alone, and TRIPPED is 0 (R121). -/
theorem State.storeWord_tripped (s : State) (i : Iface) {p : Nat} (hp : p < 3) :
    ∃ w, s.storeWord i (plcTxStat p) 1 = s.setReg (plcTxStat p) w ∧ bitsOf w 0 0 = 0 := by
  obtain ⟨hown, hwin, hoar⟩ := plcTxStat_single p hp
  exact ⟨_, s.storeWord_plain i 1 (plcTxStat_desc p hp) hown hwin hoar (by decide),
    writeFields_w1c_zero i s.sealOpen [⟨31, 16, .ro⟩, ⟨9, 8, .ro⟩, ⟨1, 1, .ro⟩] _ hoar⟩

/-- What a 1 written to TRIPPED does beside clearing it (R121). -/
theorem State.rearm_spec (s : State) {p : Nat} (hp : p < 3) :
    (s.rearm p 1).get (plcTxStat_TRIPPED p) = s.get (plcTxStat_TRIPPED p) ∧ (s.rearm p 1).get (plcTxStat_OFF p) = 0 ∧
      (s.rearm p 1).get (plcTxStat_REARMS p) = 0 ∧ (s.rearm p 1).get plcStatus_OFF = (s.get plcStatus_OFF &&& (7 - 2 ^ p)) ∧
      ((s.rearm p 1).path p).tripAt = none := by
  have hfits : (s.get plcStatus_OFF &&& (7 - 2 ^ p)) % 8 = (s.get plcStatus_OFF &&& (7 - 2 ^ p)) :=
    (pathBit_clear p hp _ (s.get_lt plcStatus_OFF)).1
  -- REARMS lies above OFF and TRIPPED.
  have hrearms (v : State) {f : Fld} (hf : f.hi < 8) : (v.set (plcTxStat_REARMS p) 0).get f = v.get f :=
    State.get_set_other v (plcTxStat_REARMS p) f 0 (by decide : 8 ≤ 9) (by decide : 9 < 32) (.inr (.inl hf))
  rw [State.rearm, if_pos (show wordBits 1 (plcTxStat_TRIPPED p) = 1 from rfl), State.path_setPath, if_pos rfl,
    State.setPath_get, State.setPath_get, State.setPath_get, State.setPath_get, State.get_set_status _ _ p (f := plcTxStat_TRIPPED p) rfl,
    State.get_set_status _ _ p (f := plcTxStat_OFF p) rfl, State.get_set_status _ _ p (f := plcTxStat_REARMS p) rfl,
    State.get_set _ plcStatus_OFF _ (by decide) (by decide), hrearms _ (by decide : 0 < 8), hrearms _ (by decide : 1 < 8)]
  exact ⟨State.get_set_other s (plcTxStat_OFF p) (plcTxStat_TRIPPED p) 0 (by decide : 1 ≤ 1) (by decide : 1 < 32) (.inr (.inl (by decide : 0 < 1))),
    State.get_set s (plcTxStat_OFF p) 0 (by decide : 1 ≤ 1) (by decide : 1 < 32),
    State.get_set _ (plcTxStat_REARMS p) 0 (by decide : 8 ≤ 9) (by decide : 9 < 32), hfits, rfl⟩

theorem exec_trippedClear {s : State} {i : Iface} {p : Nat} (hp : p < 3) (hm : s.mayAccess i (plcTxStat p) true = true) :
    ∃ u, exec (.trippedClear i p) s = s.out u ∧ u.get (plcTxStat_TRIPPED p) = 0 ∧ u.get (plcTxStat_OFF p) = 0 ∧
      u.get (plcTxStat_REARMS p) = 0 ∧ u.get plcStatus_OFF = (s.get plcStatus_OFF &&& (7 - 2 ^ p)) ∧ (u.path p).tripAt = none := by
  obtain ⟨w, hw, hcleared⟩ := s.storeWord_tripped i hp
  obtain ⟨hplace, -⟩ := plcTxStat_place p
  have hx : exec (.trippedClear i p) s = s.out ((s.setReg (plcTxStat p) w).rearm p 1) := by
    simp only [exec, execTrippedClear, if_pos hp, State.writeGate_granted _ _ _ _ _ hm, hw]
  have hstored : (s.setReg (plcTxStat p) w).get (plcTxStat_TRIPPED p) = 0 :=
    (State.get_setReg _ _ _ _).trans ((if_pos rfl).trans hcleared)
  have hbefore : (s.setReg (plcTxStat p) w).get plcStatus_OFF = s.get plcStatus_OFF :=
    (State.get_setReg _ _ _ _).trans (if_neg hplace.symm)
  obtain ⟨htripped, hoff, hrearms, hstatus, htrip⟩ := (s.setReg (plcTxStat p) w).rearm_spec hp
  rw [hbefore] at hstatus
  exact ⟨_, hx, htripped.trans hstored, hoff, hrearms, hstatus, htrip⟩

theorem trippedClear_answers (s : State) (i : Iface) (p : Nat) (hp : p < 3) (hm : s.mayAccess i (plcTxStat p) true = true) :
    answers (.trippedClear i p) s fun t =>
      t.get (plcTxStat_TRIPPED p) = 0 ∧ t.get (plcTxStat_OFF p) = 0 ∧ t.get (plcTxStat_REARMS p) = 0 ∧
      natBit (t.get plcStatus_OFF) p = false ∧ (t.path p).tripAt = none ∧ t.get plcStatus_OFF = (s.get plcStatus_OFF &&& (7 - 2 ^ p)) := by
  obtain ⟨u, hx, htripped, hoff, hrearms, hstatus, htrip⟩ := exec_trippedClear hp hm
  have hbit : natBit (u.get plcStatus_OFF) p = false := by
    rw [hstatus]
    exact (pathBit_clear p hp _ (s.get_lt plcStatus_OFF)).2
  exact answers_of_out_congr hx ⟨htripped, hoff, hrearms, hbit, htrip, hstatus⟩

theorem plcRxCntClear_answers (s : State) (i : Iface) (p : Nat) (hp : p < 3) (hm : s.mayAccess i (plcRxCnt p) true = true) :
    answers (.plcRxCntClear i p) s fun t =>
      t.get (plcRxCnt_BAD p) = 0 ∧ t.get (plcRxCnt_IMPULSE p) = 0 ∧ onlyIn [.regs] s t ∧ keepsRegs [plcRxCnt p] s t := by
  obtain ⟨hown, hwin, hoar⟩ := plcRxCnt_single p hp
  obtain ⟨w, hw⟩ : ∃ w, s.storeWord i (plcRxCnt p) 0x80000000 = s.setReg (plcRxCnt p) w :=
    ⟨_, s.storeWord_plain i _ (plcRxCnt_desc p hp) hown hwin hoar (by decide)⟩
  have hx : exec (.plcRxCntClear i p) s = s.out (((s.setReg (plcRxCnt p) w).set (plcRxCnt_BAD p) 0).set (plcRxCnt_IMPULSE p) 0) := by
    simp only [exec, execPlcRxCntClear, if_pos hp, State.writeGate_granted _ _ _ _ _ hm, hw]
    rfl
  refine answers_of_out hx rfl rfl ⟨?_, ?_, ?_, ?_⟩
  · exact (State.get_set_other _ (plcRxCnt_IMPULSE p) (plcRxCnt_BAD p) 0 (by decide : 0 ≤ 14) (by decide : 14 < 32)
      (.inr (.inr (by decide : 14 < 16)))).trans (State.get_set _ (plcRxCnt_BAD p) 0 (by decide : 16 ≤ 30) (by decide : 30 < 32))
  · exact State.get_set _ (plcRxCnt_IMPULSE p) 0 (by decide : 0 ≤ 14) (by decide : 14 < 32)
  · exact onlyIn_trans (s.setReg_only _ _ _ (by decide)) (onlyIn_trans (State.set_only _ _ _ _ (by decide)) (State.set_only _ _ _ _ (by decide)))
  · exact keepsRegs_trans (s.setReg_regs _ _) (keepsRegs_trans (State.set_regs _ (plcRxCnt_BAD p) 0) (State.set_regs _ (plcRxCnt_IMPULSE p) 0))

/-- Settles O17, a lemma for each command. -/
theorem plcDriverTripsAndRearms : Obligations.PlcDriverTripsAndRearms :=
  ⟨driverTrip_answers, fun s p k _ => driverRearm_answers s p k, trippedClear_answers, plcRxCntClear_answers⟩

end Sys2Proof.Machine

/-! ## 05_plc_cell_protocol.md: exchanges of a cell -/

namespace Sys2Proof.Machine

/-! ### A cell after a write -/

theorem State.cell_setCell (s : State) (c d : Nat) (x : Cell) : (s.setCell c x).cell d = if d = c then x else s.cell d := by
  simp [State.cell, State.setCell]

@[simp] theorem State.cell_setCell_same (s : State) (c : Nat) (x : Cell) : (s.setCell c x).cell c = x := by
  rw [State.cell_setCell, if_pos rfl]

theorem State.cell_congr {s t : State} (h : t.plc = s.plc) (c : Nat) : t.cell c = s.cell c := by simp only [State.cell, h]

/-! ### What leaves the exchanges of a cell alone -/

/-- From `s` to `t` the exchanges of a cell and its frame sequence stay; of a PLC cell its exchange counters too. -/
structure keepsExchanges (c : Nat) (s t : State) : Prop where
  xch : (t.cell c).xch = (s.cell c).xch
  fseq : (t.cell c).fseq = (s.cell c).fseq
  counts : c < 3 → t.reg (plcXchOk c) = s.reg (plcXchOk c) ∧ t.reg (plcXchFail c) = s.reg (plcXchFail c)

theorem keepsExchanges.refl {c : Nat} {s : State} : keepsExchanges c s s := ⟨rfl, rfl, fun _ => ⟨rfl, rfl⟩⟩

theorem keepsExchanges.trans {c : Nat} {s t u : State} (h : keepsExchanges c s t) (k : keepsExchanges c t u) : keepsExchanges c s u :=
  ⟨k.xch.trans h.xch, k.fseq.trans h.fseq, fun hc => ⟨(k.counts hc).1.trans (h.counts hc).1, (k.counts hc).2.trans (h.counts hc).2⟩⟩

theorem keepsExchanges.foldl {α : Type} {c : Nat} (f : State → α → State) (h : ∀ s x, keepsExchanges c s (f s x)) (l : List α) (s : State) :
    keepsExchanges c s (l.foldl f s) := by
  induction l generalizing s with
  | nil => exact .refl
  | cons x l ih => exact (h s x).trans (ih (f s x))

/-- A change of other parts than the PLC and the registers. -/
theorem keepsExchanges_of_only {ps : List Part} {s t : State} (h : onlyIn ps s t) (hp : Part.plc ∉ ps ∧ Part.regs ∉ ps) (c : Nat) :
    keepsExchanges c s t := by
  have hplc : t.plc = s.plc := h .plc hp.1
  have hregs : t.regs = s.regs := h .regs hp.2
  have hcell : t.cell c = s.cell c := State.cell_congr hplc c
  have hreg (a : Nat) : t.reg a = s.reg a := by simp only [State.reg, hregs]
  exact ⟨by rw [hcell], by rw [hcell], fun _ => ⟨hreg _, hreg _⟩⟩

/-- The exchange counters of a PLC cell lie below the registers of the queues, and are neither PLC_CELL_CNT nor FRY_CNT. -/
theorem plcXch_place {c : Nat} (hc : c < 3) : plcXchOk c < whfQStat 0 ∧ plcXchFail c < whfQStat 0 ∧ plcXchOk c ≠ plcCellCnt c ∧
    plcXchFail c ≠ plcCellCnt c ∧ plcXchOk c ≠ fryCnt ∧ plcXchFail c ≠ fryCnt ∧ plcXchOk c ≠ plcXchFail c := by
  simp only [plcXchOk, plcXchFail, plcCellCnt, whfQStat, fryCnt]
  omega

theorem queueWork.keepsExchanges {s t : State} (h : queueWork s t) (c : Nat) : keepsExchanges c s t := by
  have hcell : t.cell c = s.cell c := State.cell_congr (h.only .plc (by decide)) c
  refine ⟨by rw [hcell], by rw [hcell], fun hc => ?_⟩
  obtain ⟨hok, hfail, -⟩ := plcXch_place hc
  exact ⟨h.regs _ hok, h.regs _ hfail⟩

theorem State.raise_keepsExchanges (s : State) (c e : Nat) : keepsExchanges c s (s.raise e) := (s.raise_onlyQueue 0 e).queueWork.keepsExchanges c

theorem State.raiseIf_keepsExchanges (s : State) (c : Nat) (b : Bool) (e : Nat) : keepsExchanges c s (s.raiseIf b e) :=
  (s.raiseIf_onlyQueue 0 b e).queueWork.keepsExchanges c

/-- A cell written with the exchanges and the frame sequence that it had. -/
theorem State.setCell_keepsExchanges (s : State) (c : Nat) (x : Cell) (hx : x.xch = (s.cell c).xch) (hf : x.fseq = (s.cell c).fseq) :
    keepsExchanges c s (s.setCell c x) :=
  ⟨by rw [State.cell_setCell_same, hx], by rw [State.cell_setCell_same, hf], fun _ => ⟨rfl, rfl⟩⟩

theorem State.setNode_keepsExchanges (s : State) (c a : Nat) (n : Option Node) : keepsExchanges c s (s.setNode c a n) :=
  s.setCell_keepsExchanges c _ (by rfl) (by rfl)

theorem State.ctxPut_keepsExchanges (s : State) (c slot off : Nat) (bs : List Byte) : keepsExchanges c s (s.ctxPut slot off bs) :=
  keepsExchanges_of_only (s.journalUpd_only _) (by decide) c

theorem State.lowerLink_keepsExchanges (s : State) (c a b : Nat) : keepsExchanges c s (s.lowerLink c a b) :=
  s.setCell_keepsExchanges c _ (by rfl) (by rfl)

theorem State.penalise_keepsExchanges (s : State) (c : Nat) (x : Exchange) : keepsExchanges c s (s.penalise c x) :=
  keepsExchanges.foldl _ (fun st _ => st.setCell_keepsExchanges c _ (by rfl) (by rfl)) _ s

theorem State.takeRoute_keepsExchanges (s : State) (c a : Nat) (n : Node) (p : List Nat) : keepsExchanges c s (s.takeRoute c a n p) :=
  ((s.setNode_keepsExchanges c a _).trans (State.ctxPut_keepsExchanges _ c _ _ _)).trans (State.raise_keepsExchanges _ c _)

theorem State.roles_keepsExchanges (s : State) (c : Nat) : keepsExchanges c s (s.roles c) := by
  refine keepsExchanges.foldl _ (fun st p => ?_) _ s
  split
  · exact .refl
  · simp only
    split
    · exact ((st.setNode_keepsExchanges c _ _).trans (State.ctxPut_keepsExchanges _ c _ _ _)).trans
        (State.setCell_keepsExchanges _ c _ rfl rfl)
    · exact .refl

theorem State.reroute_keepsExchanges (s : State) (c a : Nat) : keepsExchanges c s (s.reroute c a) := by
  unfold State.reroute
  split
  · exact .refl
  · split
    · exact .refl
    · split
      · exact (s.takeRoute_keepsExchanges c a _ _).trans (State.roles_keepsExchanges _ c)
      · exact .refl

theorem State.routesWithout_keepsExchanges (s : State) (c r : Nat) : keepsExchanges c s (s.routesWithout c r) := by
  unfold State.routesWithout
  exact (keepsExchanges.foldl _ (fun st _ => st.takeRoute_keepsExchanges c _ _ _) _ s).trans (State.roles_keepsExchanges _ c)

theorem State.leaveAddr_keepsExchanges (s : State) (c a : Nat) : keepsExchanges c s (s.leaveAddr c a) := by
  unfold State.leaveAddr
  split
  · split
    · exact s.ctxPut_keepsExchanges c _ _ _
    · exact .refl
  · exact .refl

/-- JOINED and FREE stand in a register of their own (R138). -/
theorem State.showCell_keepsExchanges (s : State) (c : Nat) : keepsExchanges c s (s.showCell c) := by
  unfold State.showCell
  simp only
  split
  · next hc =>
    obtain ⟨-, -, hok, hfail, -⟩ := plcXch_place hc
    have hreg (a : Nat) (ha : a ≠ plcCellCnt c) (v w : Nat) :
        ((s.setSat (plcCellCnt_JOINED c) v).setSat (plcCellCnt_FREE c) w).reg a = s.reg a :=
      (State.set_regs _ (plcCellCnt_FREE c) _ a (List.not_mem_cons_of_ne_of_not_mem ha List.not_mem_nil)).trans
        (s.set_regs (plcCellCnt_JOINED c) _ a (List.not_mem_cons_of_ne_of_not_mem ha List.not_mem_nil))
    exact ⟨rfl, rfl, fun _ => ⟨hreg _ hok _ _, hreg _ hfail _ _⟩⟩
  · next hc => exact ⟨rfl, rfl, fun h => absurd h hc⟩

theorem State.releaseFrames_keepsExchanges (s : State) (c : Nat) : keepsExchanges c s (s.releaseFrames c) := by
  unfold State.releaseFrames
  simp only
  split
  · exact (s.setCell_keepsExchanges c _ (by rfl) (by rfl)).trans
      (keepsExchanges.foldl _ (fun st f => (st.produce_queueWork _ _ _).keepsExchanges c) _ _)
  · exact s.setCell_keepsExchanges c _ (by rfl) (by rfl)

theorem State.queuePlc_keepsExchanges (s : State) (c slot modc tone flow : Nat) (psdu : List Byte) :
    keepsExchanges c s (s.queuePlc c slot modc tone flow psdu) :=
  (s.setCell_keepsExchanges c _ (by rfl) (by rfl)).trans (State.releaseFrames_keepsExchanges _ c)

theorem State.noteKeySent_keepsExchanges (s : State) (c : Nat) (x : Exchange) : keepsExchanges c s (s.noteKeySent c x) := by
  unfold State.noteKeySent
  simp only
  split
  · exact s.setCell_keepsExchanges c _ (by rfl) (by rfl)
  · exact .refl

theorem State.doneItem_keepsExchanges (s : State) (c fseq : Nat) : keepsExchanges c s (s.doneItem c fseq) := by
  unfold State.doneItem
  split
  · exact .refl
  · split
    · exact (s.spend_queueWork _ _).keepsExchanges c
    · exact .refl

theorem State.queueRadK_queueWork (s : State) (r dst kind flow : Nat) (launch : DWord) (m : List Byte) :
    queueWork s (s.queueRadK r dst kind flow launch m) := by
  unfold State.queueRadK
  split
  · exact s.produce_queueWork _ _ _
  · exact .refl

theorem State.answered_keepsExchanges (s : State) (c a : Nat) (f : Node → Node) : keepsExchanges c s (s.answered c a f) := by
  unfold State.answered
  split
  · exact s.setNode_keepsExchanges c a _
  · exact .refl

/-! ### An exchange leaves the scheduler -/

/-- A cell without the exchange of a frame sequence (R143). -/
def State.withoutExchange (s : State) (c : Nat) (x : Exchange) : State :=
  s.setCell c { s.cell c with xch := (s.cell c).xch.filter fun y => decide (y.fseq ≠ x.fseq) }

theorem State.withoutExchange_xch (s : State) (c : Nat) (x : Exchange) :
    ((s.withoutExchange c x).cell c).xch = (s.cell c).xch.filter fun y => decide (y.fseq ≠ x.fseq) := by
  rw [State.withoutExchange, State.cell_setCell_same]

/-- What leaves the exchanges alone does so without one of them. -/
theorem keepsExchanges.without {c : Nat} {s t : State} (h : keepsExchanges c s t) (x : Exchange) :
    keepsExchanges c (s.withoutExchange c x) (t.withoutExchange c x) :=
  ⟨by rw [State.withoutExchange_xch, State.withoutExchange_xch, h.xch], by simp only [State.withoutExchange, State.cell_setCell_same, h.fseq],
    h.counts⟩

/-- An exchange that leaves takes its entry with it, penalties and routes follow: nothing else of the exchanges changes (R143, R151). -/
theorem State.dropExchange_keepsExchanges (s : State) (c : Nat) (x : Exchange) :
    keepsExchanges c (s.withoutExchange c x) (s.dropExchange c x) := by
  have hrelease (u : State) : keepsExchanges c u (u.txnRelease x.txn) := keepsExchanges_of_only (u.txnRelease_only x.txn) (by decide) c
  unfold State.dropExchange
  simp only
  split
  · exact ((State.penalise_keepsExchanges _ c x).trans (State.reroute_keepsExchanges _ c x.addr)).trans (hrelease _)
  · exact hrelease _

/-- An exchange reaches its end, counted in PLC_XCH_OK of a PLC cell. -/
theorem State.endExchange_keepsExchanges (s : State) (c : Nat) (x : Exchange) :
    keepsExchanges c ((if c < 3 then s.wrapUp (plcXchOk_COUNT c) 1 else s).withoutExchange c x) (s.endExchange c x) := by
  unfold State.endExchange
  extract_lets s1 s2
  have hs2 : keepsExchanges c s1 s2 := by
    dsimp only [s2]
    split
    · exact s1.setNode_keepsExchanges c x.addr _
    · exact .refl
  exact (hs2.without x).trans (s2.dropExchange_keepsExchanges c x)

/-- No exchange comes back: those after were there before, and the ended one is gone. -/
theorem State.endExchange_xch (s : State) (c : Nat) (x : Exchange) :
    ((s.endExchange c x).cell c).xch = (s.cell c).xch.filter fun y => decide (y.fseq ≠ x.fseq) := by
  rw [(s.endExchange_keepsExchanges c x).xch, State.withoutExchange_xch]
  split <;> rfl

/-! ### EXCHANGE_PLANNED -/

/-- The sending of a request leaves the rest of the work alone: frames, queues, the key's first command. -/
theorem State.sendRequest_keepsExchanges (s : State) (c : Nat) (x : Exchange) (k : Nat) (retry : Bool) :
    keepsExchanges c (s.putExchange c (s.planFrom c x k).1 (s.planFrom c x k).2) (s.sendRequest c x k retry) :=
  (State.queuePlc_keepsExchanges _ c _ _ _ _ _).trans (State.noteKeySent_keepsExchanges _ c x)

/-- A message to a radio endpoint is work on a queue. -/
theorem State.sendRadio_queued (s : State) (c : Nat) (x : Exchange) :
    ∃ u, queueWork s u ∧ s.sendRadio c x = (u.putExchange c x 0).noteKeySent c x := by
  unfold State.sendRadio
  extract_lets r flow s1
  refine ⟨s1, ?_, rfl⟩
  dsimp only [s1]
  split
  · exact s.queueRadK_queueWork _ _ _ _ _ _
  · split
    · exact s.queueRadK_queueWork _ _ _ _ _ _
    · split <;> exact s.queueRadK_queueWork _ _ _ _ _ _

theorem State.putExchange_cell (s : State) (c : Nat) (x : Exchange) (next : Nat) : (s.putExchange c x next).cell c =
    { s.cell c with xch := ((s.cell c).xch.filter fun y => decide (y.fseq ≠ x.fseq)) ++ [x], nextSlot := max (s.cell c).nextSlot next } := by
  rw [State.putExchange, State.cell_setCell_same]

/-- The plan of an exchange gives it slots and nothing else (R131, R143). -/
theorem State.planFrom_keeps (s : State) (c : Nat) (x : Exchange) (k : Nat) : (s.planFrom c x k).1.fseq = x.fseq ∧
    (s.planFrom c x k).1.addr = x.addr ∧ (s.planFrom c x k).1.kind = x.kind ∧ (s.planFrom c x k).1.txn = x.txn ∧
    (s.planFrom c x k).1.retries = x.retries := ⟨rfl, rfl, rfl, rfl, rfl⟩

/-- An exchange put into its cell stands there after work that leaves the exchanges alone. -/
theorem keepsExchanges.of_put {c next : Nat} {s t : State} {x : Exchange} (h : keepsExchanges c (s.putExchange c x next) t) :
    (t.cell c).fseq = (s.cell c).fseq ∧ x ∈ (t.cell c).xch := by
  rw [h.fseq, h.xch, State.putExchange_cell]
  exact ⟨rfl, List.mem_append_right _ (List.mem_singleton_self x)⟩

/-- A picked exchange takes the cell's frame sequence and its entry (R134, R143, R279). -/
theorem State.startExchange_spec (s : State) (c : Nat) (x : Exchange) (e : Nat) :
    ((s.startExchange c x e).cell c).fseq = ((s.cell c).fseq + 1) % 65536 ∧
      ∃ y ∈ ((s.startExchange c x e).cell c).xch, y.fseq = (s.cell c).fseq ∧ y.addr = x.addr ∧ y.kind = x.kind ∧ y.txn = e := by
  unfold State.startExchange
  extract_lets fs q s1 cl s2 x1
  have hs2 : (s2.cell c).fseq = ((s.cell c).fseq + 1) % 65536 := by rw [State.cell_setCell_same]
  have hx1 : x1.fseq = (s.cell c).fseq ∧ x1.addr = x.addr ∧ x1.kind = x.kind ∧ x1.txn = e := ⟨rfl, rfl, rfl, rfl⟩
  clear_value s2 x1
  split
  · obtain ⟨hf, ha, hk, ht, -⟩ := s2.planFrom_keeps c x1 (max (s2.cell c).nextSlot s2.nowSlot)
    obtain ⟨hfseq, hmem⟩ := (s2.sendRequest_keepsExchanges c x1 (max (s2.cell c).nextSlot s2.nowSlot) false).of_put
    rw [← hf, ← ha, ← hk, ← ht] at hx1
    exact ⟨hfseq.trans hs2, _, hmem, hx1⟩
  · obtain ⟨u, hu, hsend⟩ := s2.sendRadio_queued c x1
    obtain ⟨hfseq, hmem⟩ := (State.noteKeySent_keepsExchanges (u.putExchange c x1 0) c x1).of_put
    rw [hsend]
    exact ⟨hfseq.trans ((hu.keepsExchanges c).fseq.trans hs2), x1, hmem, hx1⟩

/-- What a request's sending may change. -/
def frameParts : List Part := .plc :: .whf :: .tst :: .free :: evtParts

theorem State.setCell_only (s : State) (c : Nat) (x : Cell) (ps : List Part) (h : Part.plc ∈ ps) : onlyIn ps s (s.setCell c x) :=
  onlyIn_plc s _ ps h

theorem State.releaseFrames_only (s : State) (c : Nat) : onlyIn frameParts s (s.releaseFrames c) := by
  unfold State.releaseFrames
  simp only
  split
  · exact onlyIn_trans (s.setCell_only c _ _ (by decide))
      (onlyIn_foldl _ (fun st f => onlyIn_mono (st.produce_queueWork _ _ _).only (by decide)) _ _)
  · exact s.setCell_only c _ _ (by decide)

theorem State.queuePlc_only (s : State) (c slot modc tone flow : Nat) (psdu : List Byte) :
    onlyIn frameParts s (s.queuePlc c slot modc tone flow psdu) :=
  onlyIn_trans (s.setCell_only c _ _ (by decide)) (State.releaseFrames_only _ c)

theorem State.noteKeySent_only (s : State) (c : Nat) (x : Exchange) : onlyIn frameParts s (s.noteKeySent c x) := by
  unfold State.noteKeySent
  simp only
  split
  · exact s.setCell_only c _ _ (by decide)
  · exact onlyIn_refl _ s

/-- The start of an exchange takes no other transaction entry and gives none back. -/
theorem State.startExchange_txn (s : State) (c : Nat) (x : Exchange) (e : Nat) : (s.startExchange c x e).txn = s.txn := by
  unfold State.startExchange
  extract_lets fs q s1 cl s2 x1
  have hq : s1.txn = s.txn := by
    dsimp only [s1, q]
    split
    · exact s.journalUpd_only _ .txn (by decide)
    · rfl
  have hs2 : s2.txn = s.txn := hq
  clear_value s2
  split
  · have hsend : onlyIn frameParts s2 (s2.sendRequest c x1 (max (s2.cell c).nextSlot s2.nowSlot) false) :=
      onlyIn_trans (onlyIn_trans (s2.setCell_only c _ _ (by decide)) (State.queuePlc_only _ c _ _ _ _ _)) (State.noteKeySent_only _ c x1)
    exact (hsend .txn (by decide)).trans hs2
  · obtain ⟨u, hu, hsend⟩ := s2.sendRadio_queued c x1
    rw [hsend]
    have hput : onlyIn frameParts u ((u.putExchange c x1 0).noteKeySent c x1) :=
      onlyIn_trans (u.setCell_only c _ _ (by decide)) (State.noteKeySent_only _ c x1)
    have htxn : u.txn = s2.txn := hu.only .txn (by decide)
    exact ((hput .txn (by decide)).trans htxn).trans hs2

/-- With no entry granted before and one that the issuer may take, the planner takes it (R279, R280). -/
theorem State.planWith_taken {s : State} {c e : Nat} (x : Exchange) (hg : smGet none s.txn.granted c = none)
    (hcan : s.txnCan (if c < 3 then 3 else c + 1) = true) (hfree : s.txnFree = some e) :
    ∃ t : Txn, s.planWith c x = (s.txnGive e t).startExchange c x e := by
  unfold State.planWith
  extract_lets slot t
  have htake : s.txnFor c t = some (e, s.txnGive e t) := by
    rw [State.txnFor, State.takeGranted, hg, Option.map_none, State.txnTake, show t.issuer = if c < 3 then 3 else c + 1 from rfl, if_pos hcan,
      hfree, Option.map_some]
  rw [htake]
  exact ⟨t, rfl⟩

/-- With no exchange under way, no segment waiting and no session record due, the plan is that of the pick (R143). -/
theorem State.plan_picked {s : State} {c : Nat} {x : Exchange} (hx : (s.cell c).xch = [])
    (hdue : (s.pollable c).any (s.sessionDue c) = false) (hp : s.pick c = some x) : s.plan c = s.planWith c x := by
  have hstale : s.endStale c = s := by rw [State.endStale, hx]; rfl
  simp only [State.plan, hstale, hx, hdue, hp, ne_eq, not_true_eq_false, and_false, if_false, Bool.false_and, Bool.false_eq_true]

theorem State.retrySegs_none {s : State} (h : s.val.segs = []) (c : Nat) : s.retrySegs c = s := by rw [State.retrySegs, h]; rfl

theorem exchangePlanned_answers (s : State) (c e : Nat) (x : Exchange) (hup : s.cellUp c = true) (hsus : (s.cell c).suspended = false)
    (hw : s.warned = false) (hx : (s.cell c).xch = []) (hsegs : s.val.segs = []) (hdue : (s.pollable c).any (s.sessionDue c) = false)
    (hp : s.pick c = some x) (hg : smGet none s.txn.granted c = none) (hcan : s.txnCan (if c < 3 then 3 else c + 1) = true)
    (hfree : s.txnFree = some e) :
    answers (.exchangePlanned c) s fun t =>
      (t.cell c).fseq = ((s.cell c).fseq + 1) % 65536 ∧ (smGet none t.txn.used e).isSome = true ∧
      ∃ y ∈ (t.cell c).xch, y.fseq = (s.cell c).fseq ∧ y.addr = x.addr ∧ y.kind = x.kind ∧ y.txn = e := by
  obtain ⟨t, ht⟩ := State.planWith_taken x hg hcan hfree
  have hexec : exec (.exchangePlanned c) s = s.out ((s.txnGive e t).startExchange c x e) := by
    simp only [exec, execExchangePlanned, hup, hsus, hw, and_self, if_true, State.retrySegs_none hsegs, State.plan_picked hx hdue hp, ht]
  obtain ⟨hfseq, hxch⟩ := (s.txnGive e t).startExchange_spec c x e
  have hused : (smGet none ((s.txnGive e t).startExchange c x e).txn.used e).isSome = true := by
    rw [State.startExchange_txn]
    simp [State.txnGive]
  exact answers_of_out_congr hexec ⟨hfseq, hused, hxch⟩

theorem exchangePlanned_held (s : State) (c : Nat) (h : (s.cell c).suspended = true ∨ s.warned = true) :
    exec (.exchangePlanned c) s = .next s := by
  have hno : ¬ (s.cellUp c = true ∧ (s.cell c).suspended = false ∧ s.warned = false) := by
    rintro ⟨-, hsus, hw⟩
    simp [hsus, hw] at h
  simp only [exec, execExchangePlanned, hno, if_false, State.out_self]

/-! ### UPWARD_FRAME_FAILED -/

theorem State.rewindItem_queueWork (s : State) (q i : Nat) (f : PlcFrame) : queueWork s (s.rewindItem q i f) := by
  unfold State.rewindItem State.qRewind
  simp only
  split
  · exact (s.setQ_onlyQueue q q _).queueWork
  · exact ((s.setQ_onlyQueue q q _).trans (State.touchQ_onlyQueue _ q _ (State.setQ_onlyQueue _ q q _))).queueWork

/-- A retry counts in RETRIES, and the exchange goes on with one more (R144). -/
theorem State.resend_spec {s : State} {c : Nat} (x : Exchange) (hc : c < 3) :
    (s.resend c x).reg (plcXchFail c) = (s.bump (plcXchFail_RETRIES c) 1).reg (plcXchFail c) ∧
      ∃ y ∈ ((s.resend c x).cell c).xch, y.fseq = x.fseq ∧ y.retries = x.retries + 1 := by
  have hput (u v : State) (y : Exchange) (next : Nat) (hu : u.reg (plcXchFail c) = (s.bump (plcXchFail_RETRIES c) 1).reg (plcXchFail c))
      (hv : keepsExchanges c (u.putExchange c y next) v) (hy : y.fseq = x.fseq ∧ y.retries = x.retries + 1) :
      v.reg (plcXchFail c) = (s.bump (plcXchFail_RETRIES c) 1).reg (plcXchFail c) ∧
        ∃ y ∈ (v.cell c).xch, y.fseq = x.fseq ∧ y.retries = x.retries + 1 :=
    ⟨(hv.counts hc).2.trans hu, y, hv.of_put.2, hy⟩
  unfold State.resend
  rw [if_neg (by omega)]
  extract_lets h s1 s2 y
  have hs2 : keepsExchanges c (s.bump (plcXchFail_RETRIES c) 1) s2 := by
    have hs1 := (s.bump (plcXchFail_RETRIES c) 1).raiseIf_keepsExchanges c (x.retries == 0) (80 + 16 * c + 4)
    dsimp only [s2]
    split
    · exact hs1
    · exact hs1.trans (State.lowerLink_keepsExchanges _ c _ _)
  have hy : y.fseq = x.fseq ∧ y.retries = x.retries + 1 := ⟨rfl, rfl⟩
  clear_value s2 y
  split
  · have hdone := hs2.trans (s2.doneItem_keepsExchanges c x.fseq)
    obtain ⟨hf, -, -, -, hr⟩ := (s2.doneItem c x.fseq).planFrom_keeps c y x.nextDown
    exact hput _ _ _ _ (hdone.counts hc).2 (State.sendRequest_keepsExchanges _ c y x.nextDown true) ⟨hf.trans hy.1, hr.trans hy.2⟩
  · obtain ⟨hf, -, -, -, hr⟩ := s2.planFrom_keeps c y x.nextDown
    exact hput _ _ _ _ (hs2.counts hc).2 ((State.rewindItem_queueWork _ _ _ _).keepsExchanges c) ⟨hf.trans hy.1, hr.trans hy.2⟩

/-- An exchange left unreached counts in UNREACHED and is gone (R144 step 4). -/
theorem State.unreached_keepsExchanges {s : State} {c : Nat} {x : Exchange} (hc : c < 3) (hj : x.job.all (fun j => !j.leave) = true) :
    keepsExchanges c ((s.bump (plcXchFail_UNREACHED c) 1).withoutExchange c x) (s.unreached c x) := by
  unfold State.unreached
  extract_lets s1 s2 cl s3 s4
  have hs1 : keepsExchanges c (s.bump (plcXchFail_UNREACHED c) 1) s1 := by
    dsimp only [s1]
    rw [if_pos hc]
    exact (State.raise_keepsExchanges _ c _).trans (State.doneItem_keepsExchanges _ c _)
  have hs2 : keepsExchanges c s1 s2 := by
    dsimp only [s2]
    split
    · exact s1.setNode_keepsExchanges c x.addr _
    · exact .refl
  have hs3 : keepsExchanges c s2 s3 := by
    dsimp only [s3]
    split
    · split
      · exact .refl
      · exact s2.setCell_keepsExchanges c _ (by rfl) (by rfl)
    · exact .refl
  have hs4 : keepsExchanges c ((s.bump (plcXchFail_UNREACHED c) 1).withoutExchange c x) s4 :=
    (((hs1.trans hs2).trans hs3).without x).trans (s3.dropExchange_keepsExchanges c x)
  split
  · next j hjob =>
    have hstays : j.leave = false := by simpa [hjob] using hj
    rw [hstays]
    exact hs4
  · exact hs4

theorem upwardFrameFailed_retries (s : State) (c fseq : Nat) (x : Exchange) (hc : c < 3)
    (hx : ((s.cell c).xch.find? fun e => e.fseq == fseq && !e.acking) = some x) (hr : x.retries < x.limit) :
    answers (.upwardFrameFailed c fseq) s fun t =>
      t.get (plcXchFail_RETRIES c) = satAdd (s.get (plcXchFail_RETRIES c)) 1 (plcXchFail_RETRIES c).top ∧
      ∃ y ∈ (t.cell c).xch, y.fseq = fseq ∧ y.retries = x.retries + 1 := by
  have hfseq : x.fseq = fseq := by
    have hfound := List.find?_some hx
    rw [Bool.and_eq_true, beq_iff_eq] at hfound
    exact hfound.1
  obtain ⟨hcount, hxch⟩ := s.resend_spec x hc
  have hexec : exec (.upwardFrameFailed c fseq) s = s.out (s.resend c x) := by simp only [exec, execUpwardFrameFailed, hx, hr, if_true]
  rw [hfseq] at hxch
  exact answers_of_out_congr hexec ⟨(State.get_congr (f := plcXchFail_RETRIES c) hcount).trans
    (State.get_bump _ (plcXchFail_RETRIES c) 1 (by decide : 16 ≤ 30) (by decide : 30 < 32)), hxch⟩

theorem upwardFrameFailed_unreached (s : State) (c fseq : Nat) (x : Exchange) (hc : c < 3)
    (hx : ((s.cell c).xch.find? fun e => e.fseq == fseq && !e.acking) = some x) (hr : x.limit ≤ x.retries)
    (hj : x.job.all (fun j => !j.leave) = true) :
    answers (.upwardFrameFailed c fseq) s fun t =>
      t.get (plcXchFail_UNREACHED c) = satAdd (s.get (plcXchFail_UNREACHED c)) 1 (plcXchFail_UNREACHED c).top ∧
      ∀ y ∈ (t.cell c).xch, y.fseq ≠ fseq := by
  have hfseq : x.fseq = fseq := by
    have hfound := List.find?_some hx
    rw [Bool.and_eq_true, beq_iff_eq] at hfound
    exact hfound.1
  have hexec : exec (.upwardFrameFailed c fseq) s = s.out (s.unreached c { x with fails := x.fails ++ [x.badHop] }) := by
    simp only [exec, execUpwardFrameFailed, hx, if_neg (Nat.not_lt.mpr hr)]
  have hdone := State.unreached_keepsExchanges (s := s) (x := { x with fails := x.fails ++ [x.badHop] }) hc hj
  refine answers_of_out_congr hexec ⟨?_, fun y hy => ?_⟩
  · exact (State.get_congr (f := plcXchFail_UNREACHED c) (hdone.counts hc).2).trans
      (State.get_bump s (plcXchFail_UNREACHED c) 1 (by decide : 0 ≤ 15) (by decide : 15 < 32))
  · have hmem : y ∈ ((s.unreached c { x with fails := x.fails ++ [x.badHop] }).cell c).xch := hy
    rw [hdone.xch, State.withoutExchange_xch, List.mem_filter, decide_eq_true_eq] at hmem
    exact hfseq ▸ hmem.2

/-! ### RESPONSE_RECEIVED -/

/-- An exchange of its cell that is changed in place stands there changed. -/
theorem State.mem_setExchange {s : State} {c : Nat} {x y : Exchange} (hx : x ∈ (s.cell c).xch) (hf : y.fseq = x.fseq) :
    y ∈ ((s.setExchange c y).cell c).xch := by
  rw [State.setExchange, State.cell_setCell_same]
  exact List.mem_map.mpr ⟨x, hx, if_pos hf.symm⟩

/-- The exchange with an endpoint is one of its cell. -/
theorem Cell.exchangeOf_some {x : Cell} {a : Nat} {e : Exchange} (h : x.exchangeOf a = some e) : e ∈ x.xch ∧ e.addr = a :=
  ⟨List.mem_of_find?_eq_some h, by simpa using List.find?_some h⟩

/-- A reading that answers its exchange waits for its acknowledgement (R143). -/
theorem State.response_reading {s : State} {c : Nat} {f : List Byte} {x : Exchange} (t : Stamp)
    (hx : (s.cell c).exchangeOf (frSrc f) = some x) (ha : x.acking = false) (hk : beAt (frBody f) 0 1 = 1) :
    { x with acking := true } ∈ ((s.response c f t).cell c).xch := by
  obtain ⟨hmem, -⟩ := Cell.exchangeOf_some hx
  unfold State.response
  extract_lets a b data parent s1
  have hcell : (s1.cell c).xch = (s.cell c).xch := (s.setCell_keepsExchanges c _ (by rfl) (by rfl)).xch
  have hof : (s1.cell c).exchangeOf a = some x := by rw [Cell.exchangeOf, hcell]; exact hx
  clear_value s1
  have hanswer : s1.answer c x (beAt b 0 1) (beAt b 6 2) (beAt b 8 2) data t =
      (s1.setExchange c { x with acking := true }).answered c x.addr fun n => { n with polled := n.polled + 1 } := by
    rw [State.answer, if_pos hk]
  rw [if_neg (by rw [show beAt b 0 1 = 1 from hk]; decide), hof]
  simp only [ha, Bool.false_eq_true, if_false]
  rw [hanswer, (State.answered_keepsExchanges _ c _ _).xch]
  exact State.mem_setExchange (x := x) (by rw [hcell]; exact hmem) rfl

theorem responseReceived_answers (s : State) (c : Nat) (psdu : List Byte) (x : Exchange) (hup : s.cellUp c = true)
    (hok : s.frameOk c psdu = true) (ht : frType psdu = 3) (hx : (s.cell c).exchangeOf (frSrc psdu) = some x) (ha : x.acking = false)
    (hk : beAt (frBody psdu) 0 1 = 1) :
    answers (.responseReceived c psdu) s fun t => ∃ y ∈ (t.cell c).xch, y.fseq = x.fseq ∧ y.addr = x.addr ∧ y.acking = true := by
  have hexec : exec (.responseReceived c psdu) s = s.out (s.response c psdu (s.rxStamp (s.cellRank c))) := by
    simp only [exec, execResponseReceived, hup, hok, ht, and_self, if_true]
  exact answers_of_out_congr hexec ⟨_, State.response_reading _ hx ha hk, rfl, rfl, rfl⟩

/-! ### PLC_ACK_RECEIVED -/

/-- The work of an endpoint that leaves: its exchange goes, no other comes, nothing is counted (R153). -/
theorem State.dropWork_exchanges (s : State) (c a : Nat) : (∀ y ∈ ((s.dropWork c a).cell c).xch, y ∈ (s.cell c).xch) ∧
    (c < 3 → (s.dropWork c a).reg (plcXchOk c) = s.reg (plcXchOk c)) := by
  unfold State.dropWork
  extract_lets cl s1
  have hs1 : keepsExchanges c s s1 := s.setCell_keepsExchanges c _ (by rfl) (by rfl)
  clear_value s1
  rw [← hs1.xch]
  split
  · next e he =>
    have hdrop := s1.dropExchange_keepsExchanges c e
    rw [hdrop.xch, State.withoutExchange_xch]
    exact ⟨fun y hy => List.mem_of_mem_filter hy, fun hc => (hdrop.counts hc).1.trans (hs1.counts hc).1⟩
  · exact ⟨fun y hy => hy, fun hc => (hs1.counts hc).1⟩

/-- So do the exchanges when an endpoint leaves a PLC cell (R153). -/
theorem State.leaveNow_exchanges {s : State} {c : Nat} (a : Nat) (hc : c < 3) : (∀ y ∈ ((s.leaveNow c a).cell c).xch, y ∈ (s.cell c).xch) ∧
    (s.leaveNow c a).reg (plcXchOk c) = s.reg (plcXchOk c) := by
  have haddr := s.leaveAddr_keepsExchanges c a
  obtain ⟨hwork, hcount⟩ := (s.leaveAddr c a).dropWork_exchanges c a
  have hrest : keepsExchanges c ((s.leaveAddr c a).dropWork c a) (s.leaveNow c a) := by
    rw [State.leaveNow, if_neg (by omega), State.dropNode, if_pos hc]
    exact ((State.setNode_keepsExchanges _ c a none).trans (State.showCell_keepsExchanges _ c)).trans (State.routesWithout_keepsExchanges _ c a)
  rw [hrest.xch, ← haddr.xch]
  exact ⟨hwork, ((hrest.counts hc).1.trans (hcount hc)).trans (haddr.counts hc).1⟩

/-- A counter that wraps shows its value and the step, modulo its size. -/
theorem State.get_wrapUp (s : State) (f : Fld) (n : Nat) (hl : f.lo ≤ f.hi) (hh : f.hi < 32) :
    (s.wrapUp f n).get f = (s.get f + n) % (f.top + 1) := by
  have htop : f.top + 1 = 2 ^ (f.hi + 1 - f.lo) := Nat.sub_add_cancel Nat.one_le_two_pow
  rw [State.wrapUp, State.get_set s f _ hl hh, htop, Nat.mod_mod]

/-- An exchange whose command is acknowledged is gone, and PLC_XCH_OK counts it (R147). -/
theorem State.ackedJob_exchanges {s : State} {c : Nat} (x : Exchange) (status : Nat) (hc : c < 3) :
    (∀ y ∈ ((s.ackedJob c x status).cell c).xch, y.fseq ≠ x.fseq) ∧
      (s.ackedJob c x status).get (plcXchOk_COUNT c) = (s.get (plcXchOk_COUNT c) + 1) % ((plcXchOk_COUNT c).top + 1) := by
  unfold State.ackedJob
  extract_lets s1
  have hend := (s.doneItem c x.fseq).endExchange_keepsExchanges c x
  have hdone := (s.doneItem_keepsExchanges c x.fseq).counts hc
  have hgone : ∀ y ∈ (s1.cell c).xch, y.fseq ≠ x.fseq := fun y hy => by
    rw [State.endExchange_xch, List.mem_filter, decide_eq_true_eq] at hy
    exact hy.2
  have hcount : s1.get (plcXchOk_COUNT c) = (s.get (plcXchOk_COUNT c) + 1) % ((plcXchOk_COUNT c).top + 1) := by
    have hreg := (hend.counts hc).1
    rw [if_pos hc] at hreg
    rw [State.get_congr (f := plcXchOk_COUNT c) hreg, ← State.get_congr (f := plcXchOk_COUNT c) hdone.1]
    exact State.get_wrapUp _ (plcXchOk_COUNT c) 1 (by decide : 0 ≤ 31) (by decide : 31 < 32)
  clear_value s1
  split
  · exact ⟨hgone, hcount⟩
  · split
    · obtain ⟨hleft, hreg⟩ := s1.leaveNow_exchanges x.addr hc
      exact ⟨fun y hy => hgone y (hleft y hy), (State.get_congr (f := plcXchOk_COUNT c) hreg).trans hcount⟩
    · split
      · have hkeyed := s1.answered_keepsExchanges c x.addr fun n => { n with keyAcked := true }
        exact ⟨fun y hy => hgone y (hkeyed.xch ▸ hy), (State.get_congr (f := plcXchOk_COUNT c) (hkeyed.counts hc).1).trans hcount⟩
      · exact ⟨hgone, hcount⟩

theorem plcAckReceived_answers (s : State) (c : Nat) (psdu : List Byte) (x : Exchange) (hc : c < 3) (hup : s.cellUp c = true)
    (hok : s.frameOk c psdu = true) (ht : frType psdu = 4) (hx : (s.cell c).exchangeOf (frSrc psdu) = some x) (hj : x.job.isSome = true)
    (hseq : x.cseq = beAt (frBody psdu) 0 4) (hlo : 4 ≤ beAt (frBody psdu) 4 1) (hhi : beAt (frBody psdu) 4 1 ≤ 6) :
    answers (.plcAckReceived c psdu) s fun t =>
      t.get (plcXchOk_COUNT c) = (s.get (plcXchOk_COUNT c) + 1) % ((plcXchOk_COUNT c).top + 1) ∧
      ∀ y ∈ (t.cell c).xch, y.fseq ≠ x.fseq := by
  have hexec : exec (.plcAckReceived c psdu) s = s.out (s.ackedJob c x (beAt (frBody psdu) 4 1)) := by
    simp only [exec, execPlcAckReceived, hup, hok, ht, hx, hj, hseq, hlo, hhi, and_self, if_true]
  obtain ⟨hgone, hcount⟩ := s.ackedJob_exchanges x (beAt (frBody psdu) 4 1) hc
  exact answers_of_out_congr hexec ⟨hcount, hgone⟩

/-- Settles O18, a lemma for each clause. -/
theorem cellExchangesRunAndEnd : Obligations.CellExchangesRunAndEnd :=
  ⟨exchangePlanned_answers, exchangePlanned_held, upwardFrameFailed_retries, upwardFrameFailed_unreached, responseReceived_answers,
    plcAckReceived_answers⟩

end Sys2Proof.Machine

/-! ## 05_plc_cell_protocol.md: what a record on its way to the pipeline leaves of the cells and of the radio ports

A session-record segment, or the record that it completes, reaches queues, groups, the journal, contexts and batches, and an
acknowledgement goes out. None of them touches the endpoints of a cell or a radio port. The lemmas stand in the order of the functions
that they are about. -/

namespace Sys2Proof.Machine

/-! ### The endpoints of a state -/

/-- The endpoints of every cell. -/
def Plc.nodes (p : Plc) (c : Nat) : SMap (Option Node) := (smGet {} p.cells c).nodes

/-- The endpoints of every cell and the radio ports, of a state. Opaque: states are compared by their functions' lemmas. -/
opaque observeHomes : { f : State → (Nat → SMap (Option Node)) × Radio // f = fun s => (s.plc.nodes, s.rad) } := ⟨_, rfl⟩

/-- Where the endpoints are: the cells' tables and the radio ports. -/
def State.homes (s : State) : (Nat → SMap (Option Node)) × Radio := observeHomes.1 s

theorem State.homes_eq (s : State) : s.homes = (s.plc.nodes, s.rad) := congrFun observeHomes.2 s

@[simp] theorem State.homes_mk (pending free regs clk xing aon fuses whf fry oar flows txn cmt hld nand lgb man live img met plc
      rad eth gwy val ept bal trf bil tok pan keys mft pwr tst msix sram dram sent) :
    State.homes ⟨pending, free, regs, clk, xing, aon, fuses, whf, fry, oar, flows, txn, cmt, hld, nand, lgb, man, live, img, met,
      plc, rad, eth, gwy, val, ept, bal, trf, bil, tok, pan, keys, mft, pwr, tst, msix, sram, dram, sent⟩ =
    (plc.nodes, rad) := State.homes_eq _

@[simp] theorem State.homes_eta (s : State) : (s.plc.nodes, s.rad) = s.homes := s.homes_eq.symm

@[simp] theorem State.homes_ite (c : Prop) [Decidable c] (a b : State) : (if c then a else b).homes = if c then a.homes else b.homes :=
  apply_ite _ _ _ _

@[simp] theorem foldl_homes {α : Type} (f : State → α → State) (h : ∀ s x, (f s x).homes = s.homes) (l : List α) (s : State) :
    (l.foldl f s).homes = s.homes := foldl_keeps State.homes h l s

/-- The radio ports and the endpoints of a cell are those of a state with the same homes. -/
theorem State.homes_parts {s t : State} (h : t.homes = s.homes) : t.rad = s.rad ∧ ∀ c, (t.cell c).nodes = (s.cell c).nodes := by
  rw [State.homes_eq, State.homes_eq, Prod.mk.injEq] at h
  obtain ⟨hnodes, hrad⟩ := h
  exact ⟨hrad, fun c => congrFun hnodes c⟩

/-- A change of other parts than the PLC and the radio. -/
theorem State.homes_of_only {ps : List Part} {s t : State} (h : onlyIn ps s t) (hp : Part.plc ∉ ps ∧ Part.rad ∉ ps) : t.homes = s.homes := by
  have hplc : t.plc = s.plc := h .plc hp.1
  have hrad : t.rad = s.rad := h .rad hp.2
  simp only [State.homes_eq, hplc, hrad]

theorem queueWork.homes {s t : State} (h : queueWork s t) : t.homes = s.homes := State.homes_of_only h.only (by decide)

/-! ### Events, registers, queues, stored content -/

@[simp] theorem State.set_homes (s : State) (f : Fld) (v : Nat) : (s.set f v).homes = s.homes := by simp [State.set, State.setReg]
@[simp] theorem State.setSat_homes (s : State) (f : Fld) (v : Nat) : (s.setSat f v).homes = s.homes := s.set_homes _ _
@[simp] theorem State.bump_homes (s : State) (f : Fld) (n : Nat) : (s.bump f n).homes = s.homes := s.set_homes _ _
@[simp] theorem State.wrapUp_homes (s : State) (f : Fld) (n : Nat) : (s.wrapUp f n).homes = s.homes := s.set_homes _ _

@[simp] theorem State.raise_homes (s : State) (e : Nat) : (s.raise e).homes = s.homes := State.homes_of_only (s.raise_only e) (by decide)
@[simp] theorem State.raiseIf_homes (s : State) (c : Bool) (e : Nat) : (s.raiseIf c e).homes = s.homes := by simp [State.raiseIf]
@[simp] theorem State.raiseLog_homes (s : State) (e : Nat) (detail : List Byte) : (s.raiseLog e detail).homes = s.homes :=
  State.homes_of_only (s.raiseLog_only e detail) (by decide)
@[simp] theorem State.lgbAppend_homes (s : State) (r : LogRec) : (s.lgbAppend r).homes = s.homes :=
  State.homes_of_only (s.lgbAppend_only r) (by decide)
@[simp] theorem State.hit_homes (s : State) (n : Nat) : (s.hit n).homes = s.homes := by simp [State.hit, State.setEntry]
@[simp] theorem State.disarm_homes (s : State) (n win cause : Nat) : (s.disarm n win cause).homes = s.homes :=
  State.homes_of_only (s.disarm_only n win cause) (by decide)

@[simp] theorem State.setQ_homes (s : State) (n : Nat) (x : Queue) : (s.setQ n x).homes = s.homes := by simp [State.setQ]
@[simp] theorem State.touchQ_homes (s : State) (n : Nat) (f : State → State) (h : ∀ s, (f s).homes = s.homes) :
    (s.touchQ n f).homes = s.homes := by
  unfold State.touchQ
  simp only
  split <;> simp [h]

@[simp] theorem State.enqueueNow_homes (s : State) (n : Nat) (it : Item) : (s.enqueueNow n it).homes = s.homes :=
  (s.enqueueNow_queueWork n it).homes
@[simp] theorem State.produce_homes (s : State) (p : Producer) (n : Nat) (it : Item) : (s.produce p n it).homes = s.homes :=
  (s.produce_queueWork p n it).homes

@[simp] theorem State.qRelease_homes (s : State) (n : Nat) (all : Bool) (iseq : Nat) : (s.qRelease n all iseq).homes = s.homes := by
  simp [State.qRelease]

@[simp] theorem State.sealUpds_homes (s : State) (us : List StoreUpd) : (s.sealUpds us).2.homes = s.homes :=
  State.homes_of_only (s.sealUpds_only us) (by decide)
@[simp] theorem State.gather_homes (s : State) (us : List StoreUpd) : (s.gather us).homes = s.homes :=
  State.homes_of_only (s.gather_only us) (by decide)
@[simp] theorem State.dirtyCtx_homes (s : State) (us : List StoreUpd) : (s.dirtyCtx us).homes = s.homes :=
  State.homes_of_only (s.dirtyCtx_only us) (by decide)
@[simp] theorem State.journalUpd_homes (s : State) (us : List StoreUpd) : (s.journalUpd us).homes = s.homes :=
  State.homes_of_only (s.journalUpd_only us) (by decide)
@[simp] theorem State.dramPut_homes (s : State) (a : Nat) (bs : List Byte) : (s.dramPut a bs).homes = s.homes := by simp [State.dramPut]

/-! ### Flows, transaction entries, the hot cache -/

@[simp] theorem State.setFlow_homes (s : State) (t : Nat) (o : Owner) : (s.setFlow t o).homes = s.homes := by simp [State.setFlow]
@[simp] theorem State.dropFlows_homes (s : State) (o : Owner) : (s.dropFlows o).homes = s.homes := by simp [State.dropFlows]

@[simp] theorem State.txnGive_homes (s : State) (e : Nat) (t : Txn) : (s.txnGive e t).homes = s.homes := by simp [State.txnGive]
@[simp] theorem State.txnRelease_homes (s : State) (e : Nat) : (s.txnRelease e).homes = s.homes :=
  State.homes_of_only (s.txnRelease_only e) (by decide)
@[simp] theorem State.workWaits_homes (s : State) (key issuer : Nat) : (s.workWaits key issuer).homes = s.homes := by
  simp [State.workWaits, State.txnWait]

/-- Work that has its entry leaves the rest as it is, whether the entry was granted to it before or is fresh. -/
theorem State.txnFor_homes {s u : State} {key e : Nat} {t : Txn} (h : s.txnFor key t = some (e, u)) : u.homes = s.homes := by
  unfold State.txnFor State.takeGranted at h
  cases hg : smGet none s.txn.granted key with
  | none =>
    rw [hg, Option.map_none] at h
    exact State.homes_of_only (State.txnTake_only h) (by decide)
  | some e1 =>
    rw [hg, Option.map_some] at h
    cases h
    simp

@[simp] theorem State.setCacheE_homes (s : State) (k : Nat) (e : Option CacheE) : (s.setCacheE k e).homes = s.homes := by
  simp [State.setCacheE]

@[simp] theorem clockSweep_homes (pins : List Nat) (n : Nat) (s : State) : (clockSweep pins n s).2.homes = s.homes := by
  induction n generalizing s with
  | zero => rfl
  | succ n ih =>
    unfold clockSweep
    simp only
    split
    · simp
    · split
      · simp [ih]
      · split <;> simp [ih]

@[simp] theorem State.cacheRoom_homes (s : State) : s.cacheRoom.2.homes = s.homes := by
  unfold State.cacheRoom
  split <;> simp

@[simp] theorem State.ctxFetch_homes (s : State) (slot : Nat) (line : LineRead) : (s.ctxFetch slot line).2.homes = s.homes := by
  have hcount : (s.dramCount line).homes = s.homes := by
    unfold State.dramCount
    split <;> simp
  unfold State.ctxFetch
  simp only
  (repeat' split) <;> simp [State.restoreCtx, hcount]

@[simp] theorem State.hot_homes (s : State) (slot : Nat) (write : Bool) (line : LineRead) : (s.hot slot write line).2.homes = s.homes := by
  unfold State.hot
  split
  · simp
  · have hroom := State.cacheRoom_homes ((s.wrapUp eptCacheMiss_COUNT 1).ctxFetch slot line).2
    simp only
    split <;> next hc => simp_all

@[simp] theorem State.fetchFor_homes (s : State) (v : VRec) (slot : Nat) (line : LineRead) : (s.fetchFor v slot line).2.homes = s.homes := by
  unfold State.fetchFor
  simp only
  split <;> simp

/-! ### Frames of a cell -/

/-- A cell written with the endpoints that it had. -/
theorem State.setCell_homes {s : State} {c : Nat} {x : Cell} (h : x.nodes = (s.cell c).nodes) : (s.setCell c x).homes = s.homes := by
  have hnodes : Plc.nodes { s.plc with cells := smPut {} s.plc.cells c x } = s.plc.nodes := by
    funext d
    by_cases hd : d = c
    · subst hd
      simpa [Plc.nodes, State.cell] using h
    · simp [Plc.nodes, hd]
  rw [State.homes_eq, State.homes_eq, State.setCell, hnodes]

@[simp] theorem State.queuePlc_homes (s : State) (c slot modc tone flow : Nat) (psdu : List Byte) :
    (s.queuePlc c slot modc tone flow psdu).homes = s.homes := by
  have hrelease (u : State) : (u.releaseFrames c).homes = u.homes := by
    unfold State.releaseFrames
    simp only
    split
    · simp only [foldl_homes, State.produce_homes, implies_true]
      exact State.setCell_homes rfl
    · exact State.setCell_homes rfl
  exact (hrelease _).trans (State.setCell_homes rfl)

@[simp] theorem State.setExchange_homes (s : State) (c : Nat) (e : Exchange) : (s.setExchange c e).homes = s.homes :=
  State.setCell_homes rfl

@[simp] theorem State.queueRad_homes (s : State) (r a flow : Nat) (launch : DWord) (msg : List Byte) :
    (s.queueRad r a flow launch msg).homes = s.homes := (s.queueRadK_queueWork _ _ _ _ _ _).homes

@[simp] theorem State.sendAck_homes (s : State) (c a seq status verdict : Nat) : (s.sendAck c a seq status verdict).homes = s.homes := by
  have htake : (s.takeFseq c).2.homes = s.homes := State.setCell_homes rfl
  unfold State.sendAck
  simp only
  (repeat' split) <;> simp [htake]

/-! ### Batches and groups -/

@[simp] theorem State.showBatch_homes (s : State) : s.showBatch.homes = s.homes := by simp [State.showBatch]

@[simp] theorem State.batchIdle_homes (s : State) (run : Bool) : (s.batchIdle run).homes = s.homes := by
  unfold State.batchIdle
  split <;> simp

@[simp] theorem State.closeBatch_homes (s : State) (flags : Nat) : (s.closeBatch flags).homes = s.homes := by simp [State.closeBatch]
@[simp] theorem State.appendEntry_homes (s : State) (e : List Byte) : (s.appendEntry e).homes = s.homes := by simp [State.appendEntry]
@[simp] theorem State.applyPend_homes (s : State) : s.applyPend.homes = s.homes := by simp [State.applyPend]

@[simp] theorem State.setGrp_homes (s : State) (g : Nat) (x : Group) : (s.setGrp g x).homes = s.homes := by simp [State.setGrp]

@[simp] theorem State.claim_homes (s : State) (a : Action) : (s.claim a).homes = s.homes := by
  unfold State.claim
  split <;> simp

@[simp] theorem State.stage_homes (s : State) (g : Nat) (iss : Issuer) (a : Action) : (s.stage g iss a).2.homes = s.homes := by
  unfold State.stage
  simp only
  (repeat' split) <;> simp [State.noteStreamFull, State.setStr]

@[simp] theorem State.stageAll_homes (s : State) (g : Nat) (acts : List Action) : (s.stageAll g acts).1.homes = s.homes := by
  unfold State.stageAll
  refine foldl_keeps (fun r : State × Bool => r.1.homes) (fun r a => ?_) _ _
  split <;> simp

@[simp] theorem State.applyAction_homes (iss : Issuer) (s : State) (ad : Action × List Byte) : (s.applyAction iss ad).homes = s.homes := by
  have hunclaim : (s.unclaim ad.1).homes = s.homes := by
    unfold State.unclaim
    split <;> simp
  unfold State.applyAction
  simp only
  split <;> simp [State.spendClaim, hunclaim]

@[simp] theorem State.sealGroup_homes (s : State) (g : Nat) (bound : List Byte) (jflags : Nat) (extra : List StoreUpd) :
    (s.sealGroup g bound jflags extra).homes = s.homes := by
  have hfold (l : List (Action × List Byte)) : (l.foldl (State.applyAction (s.grp g).issuer) s).homes = s.homes :=
    foldl_homes _ (fun s p => s.applyAction_homes _ p) l s
  simp only [State.sealGroup]
  simp [hfold]

theorem State.valGroup_homes {s u : State} {g : Nat} (h : s.valGroup = some (g, u)) : u.homes = s.homes := by
  have hopen : (s.openGroup 7 false).2.2.homes = s.homes := by
    unfold State.openGroup
    simp only
    (repeat' split) <;> simp
  unfold State.valGroup at h
  split at h
  · cases h
    rfl
  · split at h
    · next he =>
      cases h
      simpa [he] using hopen
    · cases h

/-! ### A record through the stages -/

@[simp] theorem State.setRec_homes (s : State) (n : Nat) (v : Option VRec) : (s.setRec n v).homes = s.homes := by simp [State.setRec]
@[simp] theorem State.noteFull_homes (s : State) : s.noteFull.homes = s.homes := by simp [State.noteFull]
@[simp] theorem State.takePlace_homes (s : State) (n : Nat) (v : VRec) : (s.takePlace n v).homes = s.homes := by simp [State.takePlace]
@[simp] theorem State.leavePlace_homes (s : State) (n : Nat) : (s.leavePlace n).homes = s.homes := by simp [State.leavePlace]

@[simp] theorem State.countVerdict_homes (s : State) (v : Nat) : (s.countVerdict v).homes = s.homes := by
  unfold State.countVerdict
  split <;> simp

@[simp] theorem State.phaseEvents_homes (s : State) (n : Nat) : (s.phaseEvents n).homes = s.homes := by
  unfold State.phaseEvents
  (repeat' split) <;> simp

@[simp] theorem State.sealFull_homes (s : State) : s.sealFull.homes = s.homes := by
  have hseal : s.sealVal.homes = s.homes := by
    unfold State.sealVal
    split <;> simp
  simp [State.sealFull, hseal]

@[simp] theorem State.stageEntry_homes (s : State) (g : Nat) (e : List Byte) : (s.stageEntry g e).1.homes = s.homes := by
  unfold State.stageEntry
  simp only
  split <;> simp

@[simp] theorem State.stageHeld_homes (n : Nat) (s : State) (g : Nat) : (s.stageHeld n g).homes = s.homes := by
  induction n generalizing s with
  | zero => rfl
  | succ n ih =>
    unfold State.stageHeld
    split
    · rfl
    · simp only
      split <;> simp [ih]

@[simp] theorem State.rejectRec_homes (s : State) (n : Nat) (v : VRec) (verdict : Nat) : (s.rejectRec n v verdict).homes = s.homes := by
  have hevidence (u : State) : (u.stageEvidence n v verdict).homes = u.homes := by
    unfold State.stageEvidence
    split <;> simp
  simp [State.rejectRec, hevidence]

@[simp] theorem State.duplicateRec_homes (s : State) (n : Nat) (v : VRec) : (s.duplicateRec n v).homes = s.homes := by
  simp [State.duplicateRec]

@[simp] theorem State.storeRec_homes (s : State) (n : Nat) (v : VRec) (slot : Nat) : (s.storeRec n v slot).homes = s.homes := by
  unfold State.storeRec
  simp only
  split
  · simp
  · split
    · simp [State.noteNoGroup]
    · next g s0 hv =>
      have h0 : s0.homes = s.homes := State.valGroup_homes hv
      (split <;> split) <;> simp [h0]

@[simp] theorem State.resumeRec_homes (s : State) (n : Nat) : (s.resumeRec n).homes = s.homes := by
  unfold State.resumeRec
  (repeat' split) <;> simp

@[simp] theorem State.enterRec_homes (s : State) (v : VRec) (line : LineRead) : (s.enterRec v line).homes = s.homes := by
  unfold State.enterRec
  simp only
  (repeat' split) <;> simp

/-! ### Segments -/

@[simp] theorem State.putReasm_homes (s : State) (x : Reasm) : (s.putReasm x).homes = s.homes := by simp [State.putReasm]

@[simp] theorem State.dropReasm_homes (s : State) (c a : Nat) : (s.dropReasm c a).homes = s.homes := by
  unfold State.dropReasm
  split <;> simp

@[simp] theorem State.segmentIn_homes (s : State) (x : Reasm) (data : List Byte) (t : Stamp) : (s.segmentIn x data t).homes = s.homes := by
  unfold State.segmentIn
  simp only
  (repeat' split) <;> simp

/-- A segment leaves every endpoint and the radio ports as they are. -/
@[simp] theorem State.segment_homes (s : State) (c a off total : Nat) (data : List Byte) (t : Stamp) :
    (s.segment c a off total data t).homes = s.homes := by
  unfold State.segment
  simp only
  split
  · split <;> simp
  · split
    · rfl
    · split
      · simp [State.noteReasm]
      · split
        · simp
        · next e u hu => simp [State.txnFor_homes hu]

end Sys2Proof.Machine

/-! ## 05_plc_cell_protocol.md: radio endpoints that join and speak -/

namespace Sys2Proof.Machine

/-! ### Endpoints and ports after a write -/

theorem State.node_setNode (s : State) (c a b : Nat) (n : Option Node) : (s.setNode c a n).node c b = if b = a then n else s.node c b := by
  rw [State.node, State.setNode, State.cell_setCell_same, smGet_put]
  rfl

@[simp] theorem State.node_setNode_same (s : State) (c a : Nat) (n : Option Node) : (s.setNode c a n).node c a = n := by
  rw [State.node_setNode, if_pos rfl]

@[simp] theorem State.port_setPort_same (s : State) (r : Nat) (x : RadPort) : (s.setPort r x).port r = x := by
  simp [State.port, State.setPort]

@[simp] theorem State.rnode_setRnode_same (s : State) (r a : Nat) (n : Option RNode) : (s.setRnode r a n).rnode r a = n := by
  rw [State.rnode, State.setRnode, State.port_setPort_same]
  simp

theorem State.node_congr {s t : State} (h : ∀ c, (t.cell c).nodes = (s.cell c).nodes) (c a : Nat) : t.node c a = s.node c a := by
  rw [State.node, State.node, h c]

theorem State.port_congr {s t : State} (h : t.rad = s.rad) (r : Nat) : t.port r = s.port r := by rw [State.port, State.port, h]

theorem State.rnode_congr {s t : State} (h : t.rad = s.rad) (r a : Nat) : t.rnode r a = s.rnode r a := by
  rw [State.rnode, State.rnode, State.port_congr h]

/-! ### Exchanges of a radio cell end -/

/-- An exchange of a radio cell leaves no mark on an endpoint. -/
theorem State.dropExchange_homes (s : State) {c : Nat} (x : Exchange) (hc : 3 ≤ c) : (s.dropExchange c x).homes = s.homes := by
  unfold State.dropExchange
  simp only [if_neg (Nat.not_lt.mpr hc), State.txnRelease_homes]
  exact State.setCell_homes rfl

/-- An endpoint whose exchange ends is heard again: it keeps its slot and what it was polled for; no radio port changes. -/
theorem State.endExchange_radio (s : State) {c : Nat} (x : Exchange) (hc : 3 ≤ c) : (s.endExchange c x).rad = s.rad ∧
    ∀ a n, s.node c a = some n → ∃ m, (s.endExchange c x).node c a = some m ∧ m.polled = n.polled ∧ m.slot = n.slot ∧ m.lsrHeld = n.lsrHeld := by
  unfold State.endExchange
  rw [if_neg (Nat.not_lt.mpr hc)]
  extract_lets _ s2
  obtain ⟨hrad, hnodes⟩ := State.homes_parts (s2.dropExchange_homes x hc)
  refine ⟨hrad.trans ?_, fun a n hn => ?_⟩
  · dsimp only [s2]
    split <;> rfl
  · rw [State.node_congr hnodes]
    dsimp only [s2]
    split
    · next k hk =>
      rw [State.node_setNode]
      split
      · next ha =>
        subst ha
        rw [hk] at hn
        cases hn
        exact ⟨_, rfl, rfl, rfl, rfl⟩
      · exact ⟨n, hn, rfl, rfl, rfl⟩
    · exact ⟨n, hn, rfl, rfl, rfl⟩

/-- So does the poll that a message answers (R188). -/
theorem State.endPoll_radio (s : State) (r b : Nat) (p : Exchange → Bool) : (s.endPoll r b p).rad = s.rad ∧ ∀ a n, s.node (3 + r) a = some n →
    ∃ m, (s.endPoll r b p).node (3 + r) a = some m ∧ m.polled = n.polled ∧ m.slot = n.slot ∧ m.lsrHeld = n.lsrHeld := by
  have hself : s.rad = s.rad ∧ ∀ a n, s.node (3 + r) a = some n →
      ∃ m, s.node (3 + r) a = some m ∧ m.polled = n.polled ∧ m.slot = n.slot ∧ m.lsrHeld = n.lsrHeld :=
    ⟨rfl, fun a n hn => ⟨n, hn, rfl, rfl, rfl⟩⟩
  unfold State.endPoll
  split
  · split
    · exact s.endExchange_radio _ (Nat.le_add_right 3 r)
    · exact hself
  · exact hself

/-! ### Messages of an endpoint -/

theorem State.recordIn_queueWork (s : State) (r a flags : Nat) (crr : List Byte) (t : Stamp) : queueWork s (s.recordIn r a flags crr t) := by
  unfold State.recordIn
  split
  · exact s.produce_queueWork _ _ _
  · exact .refl

/-- A reading is counted for its endpoint and leaves the radio ports (R188). -/
theorem State.reading_radio (s : State) (r a flags : Nat) (crr : List Byte) : (s.reading r a flags crr).rad = s.rad ∧
    ∀ n, s.node (3 + r) a = some n → ∃ m, (s.reading r a flags crr).node (3 + r) a = some m ∧ m.polled = n.polled + 1 ∧ m.slot = n.slot := by
  unfold State.reading
  extract_lets snap s1
  have hs1 : s1.rad = s.rad := by
    dsimp only [s1]
    split <;> rfl
  obtain ⟨hrec, hnodes⟩ := State.homes_parts (s1.recordIn_queueWork r a flags crr (s.rxStamp (5 + r))).homes
  obtain ⟨hpoll, hkept⟩ := (s1.recordIn r a flags crr (s.rxStamp (5 + r))).endPoll_radio r a fun x => x.kind == 1 || x.kind == 2
  refine ⟨(hpoll.trans hrec).trans hs1, fun n hn => ?_⟩
  have hcount : s1.node (3 + r) a = some { n with polled := n.polled + 1, snapDone := max n.snapDone snap } := by
    dsimp only [s1]
    rw [hn, State.node_setNode_same]
  obtain ⟨m, hm, hpolled, hslot, -⟩ := hkept a _ ((State.node_congr hnodes (3 + r) a).trans hcount)
  exact ⟨m, hm, hpolled, hslot⟩

/-- A segment marks what its endpoint was polled for as held and leaves the radio ports (R188, R237). -/
theorem State.radSegment_radio (s : State) (r a : Nat) (body : List Byte) : (s.radSegment r a body).rad = s.rad ∧
    ∀ n, s.node (3 + r) a = some n → ∃ m, (s.radSegment r a body).node (3 + r) a = some m ∧ m.lsrHeld = n.polled := by
  unfold State.radSegment
  extract_lets s1 s2
  obtain ⟨hseg, hnodes⟩ := State.homes_parts (s.segment_homes (3 + r) a (beAt body 0 2) (beAt body 2 2) (body.drop 4) (s.rxStamp (5 + r)))
  have hs2 : s2.rad = s1.rad := by
    dsimp only [s2]
    split <;> rfl
  obtain ⟨hpoll, hkept⟩ := s2.endPoll_radio r a fun x => x.kind == 3
  refine ⟨(hpoll.trans hs2).trans hseg, fun n hn => ?_⟩
  have hheld : s2.node (3 + r) a = some { n with lsrHeld := n.polled } := by
    have hs1 : s1.node (3 + r) a = some n := (State.node_congr hnodes (3 + r) a).trans hn
    dsimp only [s2]
    rw [hs1, State.node_setNode_same]
  obtain ⟨m, hm, -, -, hlsr⟩ := hkept a _ hheld
  exact ⟨m, hm, hlsr⟩

theorem State.radAckIn_rad (s : State) (r a : Nat) (body : List Byte) : (s.radAckIn r a body).rad = s.rad := by
  unfold State.radAckIn
  simp only
  split
  · split
    · exact (s.endExchange_radio _ (Nat.le_add_right 3 r)).1
    · rfl
  · rfl

theorem readingMessage_answers (s : State) (r a : Nat) (msg : List Byte) (n : Node) (hw : s.warned = false) (hn : s.node (3 + r) a = some n) :
    answers (.readingMessage r a msg) s fun t => ∃ m, t.node (3 + r) a = some m ∧ m.polled = n.polled + 1 ∧ m.slot = n.slot := by
  have hexec : exec (.readingMessage r a msg) s = s.out (s.reading r a (beAt msg 0 1) (msg.drop 1)) := by
    simp only [exec, execReadingMessage, hw, Bool.false_eq_true, if_false]
  obtain ⟨-, hnode⟩ := s.reading_radio r a (beAt msg 0 1) (msg.drop 1)
  exact answers_of_out_congr hexec (hnode n hn)

theorem segmentMessage_answers (s : State) (r a : Nat) (body : List Byte) (n : Node) (hw : s.warned = false) (hn : s.node (3 + r) a = some n) :
    answers (.segmentMessage r a body) s fun t => ∃ m, t.node (3 + r) a = some m ∧ m.lsrHeld = n.polled := by
  have hexec : exec (.segmentMessage r a body) s = s.out (s.radSegment r a body) := by
    simp only [exec, execSegmentMessage, hw, Bool.false_eq_true, if_false]
  obtain ⟨-, hnode⟩ := s.radSegment_radio r a body
  exact answers_of_out_congr hexec (hnode n hn)

theorem radioAckMessage_answers (s : State) (r a : Nat) (body : List Byte) (x : Exchange) (hx : (s.cell (3 + r)).exchangeOf a = some x)
    (hj : x.job.isSome = true) (hseq : x.cseq = beAt body 0 4) (hlo : 4 ≤ beAt body 4 1) (hhi : beAt body 4 1 ≤ 6) :
    answers (.radioAckMessage r a body) s fun t => x.fseq ∉ (t.cell (3 + r)).xch.map fun y => y.fseq := by
  have hexec : exec (.radioAckMessage r a body) s = s.out (s.endExchange (3 + r) x) := by
    simp only [exec, execRadioAckMessage, State.radAckIn, hx, hj, hseq, hlo, hhi, and_self, if_true]
  refine answers_of_out_congr hexec fun hmem => ?_
  obtain ⟨y, hy, hfseq⟩ := List.mem_map.mp hmem
  have hleft : y ∈ ((s.endExchange (3 + r) x).cell (3 + r)).xch := hy
  rw [State.endExchange_xch, List.mem_filter, decide_eq_true_eq] at hleft
  exact hleft.2 hfseq

/-! ### RELAY -/

/-- An endpoint that speaks securely, its association answered, is no longer provisional (R184). -/
theorem State.endProvisional_rnode {s : State} {r a : Nat} {x : RNode} (hx : s.rnode r a = some x) (ha : (x.provisional && !x.answered) = false) :
    (s.endProvisional r a true).rnode r a = some { x with provisional := false } := by
  simp only [State.endProvisional, hx]
  split
  · exact s.rnode_setRnode_same r a _
  · next hno =>
    have hprov : x.provisional = false := by
      cases hp : x.provisional with
      | false => rfl
      | true => simp_all
    rw [hx, ← hprov]

/-- Whatever message is inside, it leaves the radio ports. -/
theorem relayMessage_answers (s : State) (r a k : Nat) (body : List Byte) (n : Node) (x : RNode) (hw : s.warned = false)
    (he : s.radByEui r (beAt body 0 8) = some (k, n)) (hx : s.rnode r k = some x) (hp : x.parent = a)
    (ha : (x.provisional && !x.answered) = false) :
    answers (.relayMessage r a body) s fun t => ∃ y, t.rnode r k = some y ∧ y.provisional = false ∧ y.parent = a := by
  have hexec : exec (.relayMessage r a body) s = s.out (s.relayed r a (beAt body 0 8) (body.drop 8)) := by
    simp only [exec, execRelayMessage, hw, Bool.false_eq_true, if_false]
  have hrad : (s.relayed r a (beAt body 0 8) (body.drop 8)).rad = (s.endProvisional r k true).rad := by
    simp only [State.relayed, he, hx, Option.any_some, hp, beq_self_eq_true, if_true]
    split
    · exact (State.reading_radio _ r k _ _).1
    · split
      · exact (State.radSegment_radio _ r k _).1
      · split
        · exact State.radAckIn_rad _ r k _
        · rfl
  refine answers_of_out_congr hexec ⟨{ x with provisional := false }, ?_, rfl, hp⟩
  exact (State.rnode_congr hrad r k).trans (State.endProvisional_rnode hx ha)

/-! ### PROVISIONAL_EXPIRY -/

theorem State.showCell_plc (s : State) (c : Nat) : (s.showCell c).plc = s.plc := by
  unfold State.showCell
  simp only
  split <;> rfl

/-- An endpoint that leaves a radio cell is in its table no longer, nor in the port's (R153, R184). -/
theorem State.leaveNow_radio (s : State) (r a : Nat) : (s.leaveNow (3 + r) a).rnode r a = none ∧ (s.leaveNow (3 + r) a).node (3 + r) a = none := by
  have hc : ¬ 3 + r < 3 := by omega
  rw [State.leaveNow, if_pos (Nat.le_add_right 3 r), Nat.add_sub_cancel_left, State.radDrop]
  constructor
  · rw [State.rnode, State.port_setPort_same]
    exact State.rnode_setRnode_same _ r a none
  · have hdrop : (s.dropNode (3 + r) a).node (3 + r) a = none := by
      rw [State.dropNode, if_neg hc, State.node, State.cell_congr (State.showCell_plc _ _)]
      exact State.node_setNode_same _ (3 + r) a none
    exact hdrop

theorem provisionalExpiry_answers (s : State) (r a : Nat) (n : RNode) (hn : s.rnode r a = some n) (hp : n.provisional = true) :
    answers (.provisionalExpiry r a) s fun t =>
      t.rnode r a = none ∧ t.node (3 + r) a = none ∧ ∀ p ∈ (t.port r).ext, p.2.1 ≠ a := by
  obtain ⟨u, hu⟩ : ∃ u, u = s.leaveNow (3 + r) a := ⟨_, rfl⟩
  obtain ⟨l, hl⟩ : ∃ l, l = (s.port r).ext.filter fun p => decide (p.2.1 ≠ a) := ⟨_, rfl⟩
  have hexec : exec (.provisionalExpiry r a) s = s.out ((u.setPort r { u.port r with ext := l }).raise (radEvt r 3)) := by
    simp only [exec, execProvisionalExpiry, hn, hp, if_true, hu, hl]
  obtain ⟨hrnode, hnode⟩ := s.leaveNow_radio r a
  rw [← hu] at hrnode hnode
  have hraised := State.raise_rad (u.setPort r { u.port r with ext := l }) (radEvt r 3)
  have hport := (State.port_congr hraised r).trans (u.port_setPort_same r _)
  have hext := congrArg RadPort.ext hport
  dsimp only at hext
  refine answers_of_out_congr hexec ⟨?_, ?_, fun p hp => ?_⟩
  · exact (congrArg (fun x : RadPort => smGet none x.nodes a) hport).trans hrnode
  · have hplc := State.raise_plc (u.setPort r { u.port r with ext := l }) (radEvt r 3)
    exact (congrArg (fun x : Cell => smGet none x.nodes a) (State.cell_congr hplc (3 + r))).trans hnode
  · have hmem : p ∈ l := by
      rw [← hext]
      exact hp
    rw [hl, List.mem_filter, decide_eq_true_eq] at hmem
    exact hmem.2

/-! ### A frame accepted -/

/-- Airtime is booked in the port's present bin and shown; the port keeps who it answers. -/
theorem State.book_spec (s : State) (r air : Nat) : onlyIn [.rad, .regs] s (s.book r air) ∧ keepsRegs [radDutyUsed r] s (s.book r air) ∧
    ((s.book r air).port r).ext = (s.port r).ext := by
  obtain ⟨bins, hbook⟩ : ∃ bins v, s.book r air = (s.setPort r { s.port r with bins := bins }).set (radDutyUsed_USED r) v := ⟨_, _, rfl⟩
  obtain ⟨v, hbook⟩ := hbook
  rw [hbook]
  refine ⟨onlyIn_trans (onlyIn_rad s _ _ (by decide)) (State.set_only _ (radDutyUsed_USED r) v _ (by decide)),
    keepsRegs_trans (keepsRegs_of_eq _ rfl) (State.set_regs _ (radDutyUsed_USED r) v), ?_⟩
  have hport := s.port_setPort_same r { s.port r with bins := bins }
  have hext := congrArg RadPort.ext hport
  exact hext

/-- The acknowledgement of a frame books airtime on the port, goes out, or raises an event: the port keeps who it answers (R180). -/
theorem State.autoAck_spec (s : State) (r : Nat) (x : RadRx) (p : Bool) : onlyIn (.rad :: evtParts) s (s.autoAck r x p) ∧
    keepsRegs [radDutyUsed r, fryCnt] s (s.autoAck r x p) ∧ ((s.autoAck r x p).port r).ext = (s.port r).ext := by
  unfold State.autoAck
  split
  · exact ⟨onlyIn_refl _ s, keepsRegs_refl _ s, rfl⟩
  · split
    · obtain ⟨honly, hregs, hext⟩ := s.book_spec r x.ackAir
      obtain ⟨l, hl⟩ : ∃ l, (((s.book r x.ackAir).radOn r).emit (.radioAck r x.seq p)).radOff r = { s.book r x.ackAir with sent := l } := ⟨_, rfl⟩
      rw [hl]
      exact ⟨onlyIn_trans (onlyIn_mono honly (by decide)) (onlyIn_sent _ l _ (by decide)), keepsRegs_mono hregs (by simp), hext⟩
    · refine ⟨onlyIn_mono (s.raise_only _) (by decide), keepsRegs_mono (s.raise_regs _) (by simp), ?_⟩
      rw [State.port_congr (s.raise_rad _)]

/-- An unsecured association request over the air goes on (R176, R179): the acknowledgement is all that it leaves. -/
theorem State.radAccept_association {s : State} {r : Nat} {x : RadRx} (ht : s.tst.entries = []) (hf : s.radFilter r x = true)
    (hcmd : x.cmd = 1) (hs : x.secured = false) : s.radAccept r x = (some x.payload, s.autoAck r x false) := by
  simp [State.radAccept, State.radBroken, State.everyNth_of_empty ht, hf, hcmd, State.radOpen, hs]

/-- What the association of an endpoint looks at is as it was: the cells, the contexts, the port's responses, the cell's number. -/
structure sameRolls (s t : State) (r : Nat) : Prop where
  plc : t.plc = s.plc
  live : t.live = s.live
  ext : (t.port r).ext = (s.port r).ext
  number : t.cellNo (3 + r) = s.cellNo (3 + r)

theorem State.autoAck_sameRolls (s : State) {r : Nat} (hr : r < 2) (x : RadRx) (p : Bool) : sameRolls s (s.autoAck r x p) r := by
  obtain ⟨honly, hregs, hext⟩ := s.autoAck_spec r x p
  have hplace : radCfg r ∉ [radDutyUsed r, fryCnt] := by
    simp only [radCfg, radDutyUsed, fryCnt, List.mem_cons, List.not_mem_nil, or_false]
    omega
  refine ⟨honly .plc (by decide), honly .live (by decide), hext, ?_⟩
  rw [State.cellNo, State.cellNo, if_neg (by omega), if_neg (by omega), Nat.add_sub_cancel_left]
  exact State.get_congr (f := radCfg_CELL r) (hregs _ hplace)

/-- Contexts, the cell's table and its number settle the lowest free address (R184). -/
theorem sameRolls.freeAddr {s t : State} {r : Nat} (h : sameRolls s t r) : t.freeAddr (3 + r) = s.freeAddr (3 + r) := by
  have hctx (slot off n : Nat) : t.ctxAt slot off n = s.ctxAt slot off n := by rw [State.ctxAt, State.ctxAt, h.live]
  have hlimit : t.cellLimit (3 + r) = s.cellLimit (3 + r) := by rw [State.cellLimit, State.cellLimit, if_neg (by omega), if_neg (by omega)]
  have hheld : t.heldAddrs (3 + r) = s.heldAddrs (3 + r) := by
    have haddr : t.epAddr = s.epAddr := funext fun slot => hctx slot 16 2
    simp only [State.heldAddrs, State.ctxSlots, State.epState, State.epCell, haddr, hctx, h.live, h.number]
  have hnode (a : Nat) : t.node (3 + r) a = s.node (3 + r) a := State.node_congr (fun c => by rw [State.cell_congr h.plc]) _ _
  simp only [State.freeAddr, hheld, hlimit, hnode]

theorem sameRolls.enrolment {s t : State} {r : Nat} (h : sameRolls s t r) (e : Nat) : t.enrolment e = s.enrolment e := by
  rw [State.enrolment, State.enrolment, h.live]

theorem sameRolls.radByEui {s t : State} {r : Nat} (h : sameRolls s t r) (e : Nat) : t.radByEui r e = s.radByEui r e := by
  rw [State.radByEui, State.radByEui, State.cell_congr h.plc]

/-! ### Registration leaves the radio ports -/

/-- The parts that an exchange's end reaches. -/
def exchangeParts : List Part := .plc :: .txn :: (evtParts ++ journalParts)

theorem State.setNode_only (s : State) (c a : Nat) (n : Option Node) : onlyIn exchangeParts s (s.setNode c a n) :=
  s.setCell_only c _ _ (by decide)

theorem State.ctxPut_only (s : State) (slot off : Nat) (bs : List Byte) : onlyIn exchangeParts s (s.ctxPut slot off bs) :=
  onlyIn_mono (s.journalUpd_only _) (by decide)

theorem State.takeRoute_only (s : State) (c a : Nat) (n : Node) (p : List Nat) : onlyIn exchangeParts s (s.takeRoute c a n p) :=
  onlyIn_trans (onlyIn_trans (s.setNode_only c a _) (State.ctxPut_only _ _ _ _)) (onlyIn_mono (State.raise_only _ _) (by decide))

theorem State.roles_only (s : State) (c : Nat) : onlyIn exchangeParts s (s.roles c) := by
  refine onlyIn_foldl _ (fun st p => ?_) _ s
  split
  · exact onlyIn_refl _ st
  · simp only
    split
    · exact onlyIn_trans (onlyIn_trans (st.setNode_only c _ _) (State.ctxPut_only _ _ _ _)) (State.setCell_only _ c _ _ (by decide))
    · exact onlyIn_refl _ st

theorem State.reroute_only (s : State) (c a : Nat) : onlyIn exchangeParts s (s.reroute c a) := by
  unfold State.reroute
  split
  · exact onlyIn_refl _ s
  · split
    · exact onlyIn_refl _ s
    · split
      · exact onlyIn_trans (s.takeRoute_only c a _ _) (State.roles_only _ c)
      · exact onlyIn_refl _ s

theorem State.dropExchange_only (s : State) (c : Nat) (x : Exchange) : onlyIn exchangeParts s (s.dropExchange c x) := by
  have hpen (u : State) : onlyIn exchangeParts u (u.penalise c x) := onlyIn_foldl _ (fun st _ => st.setCell_only c _ _ (by decide)) _ u
  have hrelease (u : State) : onlyIn exchangeParts u (u.txnRelease x.txn) := onlyIn_mono (u.txnRelease_only x.txn) (by decide)
  unfold State.dropExchange
  extract_lets cl s1 s2
  have hs1 : onlyIn exchangeParts s s1 := s.setCell_only c _ _ (by decide)
  have hs2 : onlyIn exchangeParts s1 s2 := by
    dsimp only [s2]
    split
    · exact onlyIn_trans (hpen s1) (State.reroute_only _ c _)
    · exact onlyIn_refl _ s1
  exact onlyIn_trans (onlyIn_trans hs1 hs2) (hrelease s2)

theorem State.dropWork_only (s : State) (c a : Nat) : onlyIn exchangeParts s (s.dropWork c a) := by
  unfold State.dropWork
  extract_lets cl s1
  have hs1 : onlyIn exchangeParts s s1 := s.setCell_only c _ _ (by decide)
  split
  · exact onlyIn_trans hs1 (s1.dropExchange_only c _)
  · exact hs1

theorem State.sendAway_only (s : State) (c a : Nat) : onlyIn exchangeParts s (s.sendAway c a) := by
  unfold State.sendAway
  split
  · exact onlyIn_refl _ s
  · exact onlyIn_trans (onlyIn_trans (s.dropWork_only c a) (State.setNode_only _ c a _)) (State.setCell_only _ c _ _ (by decide))

/-- The parts that a registration reaches in the hub's table and on the Gangway. -/
def registerParts : List Part := .gwy :: .bal :: .whf :: .tst :: .free :: (evtParts ++ journalParts)

theorem State.gwyReliable_only (s : State) (p typ : Nat) (body : List Byte) (batch : Option Nat) :
    onlyIn registerParts s (s.gwyReliable p typ body batch) := by
  have hpeer (v : State) (x : Peer) : onlyIn registerParts v (v.setPeer p x) := onlyIn_gwy v _ _ (by decide)
  have hput (v : State) (launch : DWord) (bytes : List Byte) : onlyIn registerParts v (v.gwyPut p launch bytes) := by
    unfold State.gwyPut
    split
    · exact onlyIn_mono (v.produce_queueWork _ _ _).only (by decide)
    · exact onlyIn_refl _ v
  have hsend (v : State) (m : Nat) (l : List Byte) (b : Option Nat) : onlyIn registerParts v (v.gwySend p m l b) :=
    onlyIn_trans (hpeer v _) (hput _ _ _)
  have hdrain (fuel : Nat) (v : State) : onlyIn registerParts v (v.gwyDrain fuel p) := by
    induction fuel generalizing v with
    | zero => exact onlyIn_refl _ v
    | succ fuel ih =>
      unfold State.gwyDrain
      simp only
      split
      · exact onlyIn_refl _ v
      · split
        · exact onlyIn_refl _ v
        · exact onlyIn_trans (onlyIn_trans (hpeer v _) (hsend _ _ _ _)) (ih _)
  exact onlyIn_trans (hpeer s _) (hdrain 64 _)

/-- A new endpoint's context and balance record, with its event (R274). -/
theorem State.registerEp_only {s : State} {rec1 : List Byte} {n a d p : Nat} {q : Nat × State} (h : s.registerEp rec1 n a d p = some q) :
    onlyIn registerParts s q.2 := by
  obtain ⟨i, -, hi⟩ := Option.map_eq_some_iff.mp h
  have hcount (v : State) : onlyIn registerParts v v.recount :=
    onlyIn_trans (v.set_only eptCount_REGISTERED _ _ (by decide)) (State.set_only _ eptQuar_QUARANTINED _ _ (by decide))
  have hfresh (v : State) : onlyIn registerParts v (v.freshBrec i) := onlyIn_bal v _ _ (by decide)
  rw [← hi]
  exact onlyIn_trans (onlyIn_trans (onlyIn_trans (onlyIn_mono (s.journalUpd_only _) (by decide)) (hcount _)) (hfresh _))
    (onlyIn_mono (State.raiseIf_only _ _ _) (by decide))

/-- The state once an endpoint that registers anew has been sent away from where it was joined (R275). -/
def State.movedAway (s : State) (eui c a : Nat) : State :=
  match s.joinedAt eui with
  | some (c', a') => if c' = c ∧ a' = a then s else s.sendAway c' a'
  | none => s

/-- Registration sends the record's endpoint away from where it was, and reaches no cell and no radio port after that (R274, R275). -/
theorem State.register_only {s u : State} {rec1 : List Byte} {c a d p k : Nat} (h : s.register rec1 c a d p = some (k, u)) :
    onlyIn registerParts (s.movedAway (beAt rec1 0 8) c a) u := by
  have hput (v : State) (slot off : Nat) (bs : List Byte) : onlyIn registerParts v (v.ctxPut slot off bs) :=
    onlyIn_mono (v.journalUpd_only _) (by decide)
  unfold State.register at h
  extract_lets eui s0 reg at h
  have hs0 : s.movedAway (beAt rec1 0 8) c a = s0 := rfl
  have hreg (v : State) : onlyIn registerParts v (reg v) := by
    dsimp only [reg]
    split
    · exact v.gwyReliable_only _ _ _ _
    · exact onlyIn_refl _ v
  rw [hs0]
  split at h
  · extract_lets s1 at h
    have hs1 : onlyIn registerParts s0 s1 := onlyIn_trans (hput _ _ _ _) (hput _ _ _ _)
    cases h
    split
    · exact onlyIn_trans hs1 (hreg s1)
    · exact hs1
  · obtain ⟨q, hq, hqu⟩ := Option.map_eq_some_iff.mp h
    cases hqu
    exact onlyIn_trans (State.registerEp_only hq) (hreg q.2)

theorem State.register_rad {s u : State} {rec1 : List Byte} {c a d p k : Nat} (h : s.register rec1 c a d p = some (k, u)) : u.rad = s.rad := by
  have hmoved : (s.movedAway (beAt rec1 0 8) c a).rad = s.rad := by
    unfold State.movedAway
    split
    · split
      · rfl
      · exact s.sendAway_only _ _ .rad (by decide)
    · rfl
  exact (State.register_only h .rad (by decide)).trans hmoved

/-! ### ASSOCIATION_REQUEST -/

/-- A response waits behind fewer than 16 others, in place of the endpoint's earlier one (R184). -/
theorem State.putExt_spec {s : State} {r : Nat} (e a st : Nat) (hroom : (s.port r).ext.length < 16) :
    (e, a, st) ∈ ((s.putExt r e a st 0).port r).ext ∧ (s.putExt r e a st 0).plc = s.plc ∧
      ∀ b, (s.putExt r e a st 0).rnode r b = s.rnode r b := by
  obtain ⟨l, hl⟩ : ∃ l, l = (s.port r).ext.filter fun p => decide (p.1 ≠ e) := ⟨_, rfl⟩
  have hlen : ¬ 16 ≤ l.length := by
    have := List.length_filter_le (fun p : Nat × Nat × Nat => decide (p.1 ≠ e)) (s.port r).ext
    rw [hl]
    omega
  have hput : s.putExt r e a st 0 = s.setPort r { s.port r with ext := l ++ [(e, a, st)] } := by
    simp only [State.putExt, ← hl, hlen, ne_eq, not_true_eq_false, if_false]
  have hport := s.port_setPort_same r { s.port r with ext := l ++ [(e, a, st)] }
  rw [hput]
  refine ⟨?_, rfl, fun b => ?_⟩
  · rw [hport]
    exact List.mem_append_right l (List.mem_singleton_self _)
  · rw [State.rnode, hport]
    rfl

/-- An unsecured request of the air is decided in the state that its acceptance leaves. -/
theorem exec_associationRequest {s : State} {r e : Nat} (caps : Nat) {x : RadRx} (ht : s.tst.entries = []) (hh : s.radHears r = true)
    (hf : s.radFilter r x = true) (hcmd : x.cmd = 1) (hs : x.secured = false) (hsrc : x.src = .ext e) :
    exec (.associationRequest r x caps 0) s = s.out ((s.autoAck r x false).assocDecide r e caps 0) := by
  simp only [exec, execAssociationRequest, hh, if_true, State.assocRequest, hsrc, State.radAccept_association ht hf hcmd hs, Option.isSome_some]

theorem associationRequest_unenrolled (s : State) (r e caps : Nat) (x : RadRx) (hr : r < 2) (ht : s.tst.entries = [])
    (hh : s.radHears r = true) (hf : s.radFilter r x = true) (hcmd : x.cmd = 1) (hs : x.secured = false) (hsrc : x.src = .ext e)
    (he : s.enrolment e = none) (hroom : (s.port r).ext.length < 16) :
    answers (.associationRequest r x caps 0) s fun t =>
      (e, 0xFFFF, 2) ∈ (t.port r).ext ∧ (t.cell (3 + r)).nodes = (s.cell (3 + r)).nodes := by
  have hacked := s.autoAck_sameRolls hr x false
  have hdecide (u : State) (hu : u.enrolment e = none) :
      u.assocDecide r e caps 0 = (u.raiseLog (radEvt r 2) (be 8 e ++ be 1 1)).putExt r e 0xFFFF 2 0 := by
    simp only [State.assocDecide, State.assocCheck, hu]
  obtain ⟨u, hu⟩ : ∃ u, u = (s.autoAck r x false).raiseLog (radEvt r 2) (be 8 e ++ be 1 1) := ⟨_, rfl⟩
  have hexec := exec_associationRequest caps ht hh hf hcmd hs hsrc
  rw [hdecide _ ((hacked.enrolment e).trans he), ← hu] at hexec
  have hport : u.port r = (s.autoAck r x false).port r := State.port_congr (by rw [hu]; exact State.raiseLog_rad _ _ _) r
  have hplc : u.plc = s.plc := by
    rw [hu, State.raiseLog_plc]
    exact hacked.plc
  obtain ⟨hext, hput, -⟩ := State.putExt_spec (s := u) (r := r) e 0xFFFF 2 (by rw [hport, hacked.ext]; exact hroom)
  exact answers_of_out_congr hexec ⟨hext, congrArg Cell.nodes (State.cell_congr (hput.trans hplc) (3 + r))⟩

/-- An endpoint that registration gives a slot is entered in the cell and the port, provisional, a child of the chip; then the cell's
registers follow and the response waits (R184). -/
theorem State.associate_entered {s u : State} {r e k : Nat} (caps : Nat) (hn : s.radByEui r e = none)
    (hg : s.register ((s.enrolment e).getD []) (3 + r) (s.freeAddr (3 + r)) 1 0 = some (k, u)) :
    ∃ v : State, s.associate r e caps 0 = ((v.showCell (3 + r)).putExt r e (s.freeAddr (3 + r)) 0 0).raise (radEvt r 0) ∧
      (v.port r).ext = (u.port r).ext ∧
      (∃ n : Node, v.node (3 + r) (s.freeAddr (3 + r)) = some n ∧ n.slot = k ∧ n.eui = e ∧ n.depth = 1) ∧
      ∃ y : RNode, v.rnode r (s.freeAddr (3 + r)) = some y ∧ y.provisional = true ∧ y.parent = 0 := by
  unfold State.associate
  rw [hn]
  extract_lets c old a depth router x
  rw [show s.register ((s.enrolment e).getD []) c a depth 0 = some (k, u) from hg]
  dsimp -zeta only
  extract_lets n s2 due s3 p s4
  have hctx (v : State) (bs : List Byte) : (v.ctxPut k 236 bs).plc = v.plc ∧ (v.ctxPut k 236 bs).rad = v.rad :=
    ⟨v.journalUpd_only _ .plc (by decide), v.journalUpd_only _ .rad (by decide)⟩
  obtain ⟨hplc3, hrad3⟩ : s3.plc = s2.plc ∧ s3.rad = (s2.setRnode r a (some { x with timeDue := due })).rad := hctx _ _
  have hport3 : s3.port r = (s2.setRnode r a (some { x with timeDue := due })).port r := State.port_congr hrad3 r
  have h4 : s4.plc = s3.plc ∧ (s4.port r).ext = (s3.port r).ext ∧ (s4.port r).nodes = (s3.port r).nodes := by
    dsimp only [s4]
    split
    · have hport := s3.port_setPort_same r { p with force := addMem (s3.port r).force a }
      have hext := congrArg RadPort.ext hport
      have hnodes := congrArg RadPort.nodes hport
      exact ⟨rfl, hext, hnodes⟩
    · exact ⟨rfl, rfl, rfl⟩
  clear_value s4
  obtain ⟨hplc4, hext4, hnodes4⟩ := h4
  refine ⟨s4, rfl, ?_, ⟨n, ?_, rfl, rfl, rfl⟩, { x with timeDue := due }, ?_, rfl, rfl⟩
  · have hset := congrArg RadPort.ext (s2.port_setPort_same r
      { s2.port r with nodes := smPut none (s2.port r).nodes a (some { x with timeDue := due }) })
    rw [hext4, hport3]
    exact hset
  · rw [State.node, State.cell_congr (hplc4.trans hplc3)]
    exact u.node_setNode_same (3 + r) a (some n)
  · rw [State.rnode, hnodes4, hport3]
    exact s2.rnode_setRnode_same r a (some { x with timeDue := due })

/-- Where no row of the Association decisions table refuses, a place for a response is free (R184). -/
theorem State.room_of_assocCheck {s : State} {r e : Nat} (h : s.assocCheck r e = 0) : (s.port r).ext.length < 16 := by
  by_contra hfull
  have hrow : decide (16 ≤ (s.port r).ext.length) = true := decide_eq_true (not_lt.mp hfull)
  simp only [State.assocCheck, hrow, Bool.or_true, if_true] at h
  split at h
  · cases h
  · repeat' split at h
    all_goals cases h

/-- An endpoint that registration gives a slot joins at the lowest free address, provisional, a child of the chip (R184). -/
theorem State.associate_spec {s u : State} {r e k : Nat} (caps : Nat) (hn : s.radByEui r e = none)
    (hg : s.register ((s.enrolment e).getD []) (3 + r) (s.freeAddr (3 + r)) 1 0 = some (k, u)) (hroom : (s.port r).ext.length < 16) :
    (e, s.freeAddr (3 + r), 0) ∈ ((s.associate r e caps 0).port r).ext ∧
      (∃ n, (s.associate r e caps 0).node (3 + r) (s.freeAddr (3 + r)) = some n ∧ n.slot = k ∧ n.eui = e ∧ n.depth = 1) ∧
      ∃ y, (s.associate r e caps 0).rnode r (s.freeAddr (3 + r)) = some y ∧ y.provisional = true ∧ y.parent = 0 := by
  obtain ⟨v, hv, hext, ⟨n, hnode, hn⟩, y, hrnode, hy⟩ := State.associate_entered caps hn hg
  have hshown : (v.showCell (3 + r)).rad = v.rad := by
    unfold State.showCell
    simp only
    split <;> rfl
  have hport : (v.showCell (3 + r)).port r = v.port r := State.port_congr hshown r
  obtain ⟨hput, hplc, hrest⟩ := State.putExt_spec (s := v.showCell (3 + r)) (r := r) e (s.freeAddr (3 + r)) 0
    (by rw [hport, hext, State.port_congr (State.register_rad hg)]; exact hroom)
  rw [hv]
  generalize (v.showCell (3 + r)).putExt r e (s.freeAddr (3 + r)) 0 0 = w at hput hplc hrest
  refine ⟨?_, ⟨n, ?_, hn⟩, y, ?_, hy⟩
  · rw [State.port_congr (w.raise_rad _)]
    exact hput
  · rw [State.node, State.cell_congr (((w.raise_plc _).trans hplc).trans (v.showCell_plc _))]
    exact hnode
  · rw [State.rnode_congr (w.raise_rad _), hrest, State.rnode_congr hshown]
    exact hrnode

theorem associationRequest_joins (s u : State) (r e caps k : Nat) (x : RadRx) (hr : r < 2) (ht : s.tst.entries = [])
    (hh : s.radHears r = true) (hf : s.radFilter r x = true) (hcmd : x.cmd = 1) (hs : x.secured = false) (hsrc : x.src = .ext e)
    (hc : (s.radAccept r x).2.assocCheck r e = 0) (he : s.radByEui r e = none)
    (hg : (s.radAccept r x).2.register ((s.enrolment e).getD []) (3 + r) (s.freeAddr (3 + r)) 1 0 = some (k, u)) :
    answers (.associationRequest r x caps 0) s fun t =>
      (e, s.freeAddr (3 + r), 0) ∈ (t.port r).ext ∧
      (∃ n, t.node (3 + r) (s.freeAddr (3 + r)) = some n ∧ n.slot = k ∧ n.eui = e ∧ n.depth = 1) ∧
      ∃ y, t.rnode r (s.freeAddr (3 + r)) = some y ∧ y.provisional = true ∧ y.parent = 0 := by
  have hacked := s.autoAck_sameRolls hr x false
  have hexec := exec_associationRequest caps ht hh hf hcmd hs hsrc
  rw [State.radAccept_association ht hf hcmd hs] at hc hg
  simp only at hc hg
  generalize s.autoAck r x false = a at hacked hexec hc hg
  rw [State.assocDecide, hc] at hexec
  rw [← hacked.enrolment, ← hacked.freeAddr] at hg
  obtain ⟨hext, hnode, hrnode⟩ := State.associate_spec caps ((hacked.radByEui e).trans he) hg (State.room_of_assocCheck hc)
  rw [hacked.freeAddr] at hext hnode hrnode
  exact answers_of_out_congr hexec ⟨hext, hnode, hrnode⟩

/-- Settles O21, a lemma for each clause. -/
theorem radioEndpointsJoinAndSpeak : Obligations.RadioEndpointsJoinAndSpeak :=
  ⟨fun s r e caps x hr ht hh hf _ => associationRequest_unenrolled s r e caps x hr ht hh hf,
    fun s u r e caps k x hr ht hh hf _ => associationRequest_joins s u r e caps k x hr ht hh hf,
    fun s r a n _ => provisionalExpiry_answers s r a n, fun s r a msg n _ => readingMessage_answers s r a msg n,
    fun s r a body n _ => segmentMessage_answers s r a body n, fun s r a body x _ => radioAckMessage_answers s r a body x,
    fun s r a k body n x _ => relayMessage_answers s r a k body n x⟩

end Sys2Proof.Machine

/-! ## 05_plc_cell_protocol.md: a join that takes its own invitation away -/

namespace Sys2Proof.Machine

/-! ### Frames -/

/-- A check sequence fits in 32 bits (R134). -/
theorem crc32c_lt (b : List Byte) : crc32c b < 2 ^ 32 := by
  have hsum (c n : Nat) : (List.range n).foldl (fun a i => a + (if natBit c i then 2 ^ (31 - i) else 0)) 0 ≤
      (List.range n).foldl (fun a i => a + 2 ^ (31 - i)) 0 := by
    induction n with
    | zero => exact Nat.le_refl 0
    | succ n ih =>
      rw [List.range_succ, List.foldl_append, List.foldl_append]
      simp only [List.foldl_cons, List.foldl_nil]
      split
      · exact Nat.add_le_add_right ih _
      · exact Nat.le_add_right_of_le ih
  have hrev (c : Nat) : rev32 c < 2 ^ 32 := Nat.lt_of_le_of_lt (hsum c 32) (by decide)
  exact Nat.xor_lt_two_pow (hrev _) (by decide)

/-- A frame with its check sequence behind it passes the check (R134). -/
theorem State.frameOk_withFcs (s : State) (c : Nat) (h : List Byte) (hlen : 8 ≤ h.length) (hver : beAt h 0 1 % 4 = 1)
    (hcell : beAt h 1 1 = s.cellNo c) (hlo : 1 ≤ beAt h 0 1 / 16) (hhi : beAt h 0 1 / 16 ≤ 9) : s.frameOk c (withFcs h) = true := by
  have hl : (withFcs h).length = h.length + 4 := by rw [withFcs, List.length_append, be_length]
  have h0 : beAt (withFcs h) 0 1 = beAt h 0 1 := beAt_append_left h _ 0 1 (by omega)
  have h1 : beAt (withFcs h) 1 1 = beAt h 1 1 := beAt_append_left h _ 1 1 (by omega)
  have htake : (withFcs h).take h.length = h := by rw [withFcs, List.take_left]
  have hfcs : beAt (withFcs h) h.length 4 = crc32c h := by
    have hslice : slice (withFcs h) h.length 4 = be 4 (crc32c h) := by
      rw [slice, withFcs, List.drop_left, List.take_of_length_le (be_length 4 _).le]
    rw [beAt_eq _ _ _ hl.ge, hslice, ofBe_be]
    exact Nat.mod_eq_of_lt (crc32c_lt h)
  have hlong : 12 ≤ h.length + 4 := by omega
  rw [State.frameOk, hl, Nat.add_sub_cancel, htake, hfcs, h0, h1, hver, hcell]
  simp only [beq_self_eq_true, decide_eq_true hlong, decide_eq_true hlo, decide_eq_true hhi, Bool.and_self]

/-- The body of an unrouted frame: what stands between the header and the check sequence (R134). -/
theorem frBody_withFcs {h : List Byte} (hlen : 8 ≤ h.length) (hr : frRouted h = false) : frBody (withFcs h) = h.drop 8 := by
  have hrouted : frRouted (withFcs h) = false := by rw [frRouted, withFcs, beAt_append_left h _ 0 1 (by omega)]; exact hr
  have hl : (withFcs h).length - 8 - 4 = (h.drop 8).length := by
    rw [withFcs, List.length_append, be_length, List.length_drop]
    omega
  rw [frBody, hrouted]
  simp only [Bool.false_eq_true, if_false]
  rw [hl, withFcs, List.drop_append_of_le_length hlen, List.take_left]

/-! ### What becomes of the invitation -/

/-- The work of an endpoint that is sent away: its exchange is gone (R153, R273). -/
theorem State.sendAway_xch {s : State} {c a : Nat} {x : Exchange} (hx : (s.cell c).exchangeOf a = some x) (hn : s.node c a ≠ none) :
    ∀ y ∈ ((s.sendAway c a).cell c).xch, y.fseq ≠ x.fseq := by
  have hwork : ((s.dropWork c a).cell c).xch = (s.cell c).xch.filter fun y => decide (y.fseq ≠ x.fseq) := by
    unfold State.dropWork
    extract_lets cl s1
    have hs1 : keepsExchanges c s s1 := s.setCell_keepsExchanges c _ (by rfl) (by rfl)
    have hof : (s1.cell c).exchangeOf a = some x := by
      rw [Cell.exchangeOf, hs1.xch]
      exact hx
    rw [hof]
    simp only
    rw [(s1.dropExchange_keepsExchanges c x).xch, State.withoutExchange_xch, hs1.xch]
  obtain ⟨n, hsome⟩ := Option.ne_none_iff_exists'.mp hn
  obtain ⟨cmds, haway⟩ : ∃ cmds, (s.sendAway c a) = (((s.dropWork c a).setNode c a (some { n with leaving := true })).setCell c
      { ((s.dropWork c a).setNode c a (some { n with leaving := true })).cell c with cmds := cmds }) := by
    simp only [State.sendAway, hsome]
    exact ⟨_, rfl⟩
  intro y hy
  rw [haway, (State.setCell_keepsExchanges _ c _ (by rfl) (by rfl)).xch, (State.setNode_keepsExchanges _ c a _).xch, hwork, List.mem_filter,
    decide_eq_true_eq] at hy
  exact hy.2

theorem State.newKeyDue_keepsExchanges (s : State) (c a : Nat) : keepsExchanges c s (s.newKeyDue c a) := by
  unfold State.newKeyDue
  simp only
  split
  · exact s.setCell_keepsExchanges c _ (by rfl) (by rfl)
  · exact .refl

theorem State.joinBody_cell (s : State) (c d : Nat) (eui : Nat) (nonce : List Byte) (key : Option (List Byte)) (x : JoinRes) :
    (s.joinBody c eui nonce key x).2.cell d = s.cell d := by
  unfold State.joinBody
  cases key <;> rfl

/-- The invitation waits for the answer only if it stands among the cell's exchanges. -/
theorem State.sendJoinAnswer_xch {s : State} {c : Nat} {x : Exchange} (flow : Nat) (body : List Byte)
    (h : ∀ y ∈ (s.cell c).xch, y.fseq ≠ x.fseq) : ∀ y ∈ ((s.sendJoinAnswer c x flow body).cell c).xch, y.fseq ≠ x.fseq := by
  have htake : ((s.takeFseq c).2.cell c).xch = (s.cell c).xch := by
    simp only [State.takeFseq, State.cell_setCell_same]
  intro y hy
  unfold State.sendJoinAnswer at hy
  simp only at hy
  rw [(State.queuePlc_keepsExchanges _ c _ _ _ _ _).xch, State.setExchange, State.cell_setCell_same] at hy
  obtain ⟨z, hz, hzy⟩ := List.mem_map.mp hy
  rw [htake] at hz
  rw [if_neg (h z hz)] at hzy
  exact hzy ▸ h z hz

/-- A join whose enrolment record names the endpoint that the invitation is with: it is sent away, and the invitation with it (R275). -/
theorem State.join_xch {s u : State} {c a k : Nat} {f : List Byte} {x : Exchange} {rec1 : List Byte}
    (he : s.enrolment (beAt (frBody f) 0 8) = some rec1) (hc : s.joinCheck c f (some rec1) = 0)
    (hnew : s.joinedAt (beAt (frBody f) 0 8) = none) (hold : s.joinedAt (beAt rec1 0 8) = some (c, a)) (ha : a ≠ s.freeAddr c)
    (hx : (s.cell c).exchangeOf a = some x) (hn : s.node c a ≠ none)
    (hg : s.register rec1 c (s.freeAddr c) (x.route.length + 1) (x.route.getLastD 0) = some (k, u)) :
    ∀ y ∈ ((s.join c f x).cell c).xch, y.fseq ≠ x.fseq := by
  have hmoved : s.movedAway (beAt rec1 0 8) c (s.freeAddr c) = s.sendAway c a := by
    simp only [State.movedAway, hold, ha, and_false, if_false]
  have hu : u.plc = (s.sendAway c a).plc := by
    rw [← hmoved]
    exact State.register_only hg .plc (by decide)
  unfold State.join
  simp only [he, hc, hnew, Option.getD_some, hg, Option.filter_none, ne_eq, not_true_eq_false, if_false]
  refine State.sendJoinAnswer_xch _ _ fun y hy => ?_
  rw [State.joinBody_cell, (State.roles_keepsExchanges _ c).xch, (State.raise_keepsExchanges _ c _).xch,
    (State.newKeyDue_keepsExchanges _ c _).xch, (State.showCell_keepsExchanges _ c).xch, State.ctxRoute,
    (State.ctxPut_keepsExchanges _ c _ _ _).xch, (State.setNode_keepsExchanges _ c _ _).xch, State.cell_congr hu] at hy
  exact State.sendAway_xch hx hn y hy

/-! ### The counterexample to O19

The record that is stored under EUI-64 7 names EUI-64 5 itself. A node of 5 stands at address 1 of the cell, and the open invitation is
with that address. A valid JOIN_REQUEST of 7 is registered by its record: the node of 5 is sent away from the cell first (R275), and its
exchange, the invitation, is dropped with it (R153), so that no invitation is left to wait for the JOIN_ANSWER. -/

/-- The wrapped key of the record, under a zero key: 16 zero bytes. -/
def zeroKeyWrapped : List Byte :=
  [181, 149, 161, 192, 175, 190, 122, 137, 206, 67, 128, 124, 179, 178, 186, 87, 55, 255, 93, 113, 208, 163, 92, 215].map (BitVec.ofNat 8)

/-- The invitation, with address 1. -/
def lostInvitation : Exchange := { kind := 6, addr := 1, fseq := 9 }

/-- The record stored under EUI-64 7: that of EUI-64 5, with its wrapped key, under key slot 0. -/
def misfiledRecord : List Byte := be 8 5 ++ zeroKeyWrapped

/-- The device: a free table, one node, the record, the wrapping key's slot. -/
def misfiled : State :=
  { regs := [(eptCfg_CAPACITY.addr, 8)]
    keys := { slots := [(0, { attr := 0x80000002, key := [] })] }
    live := { tables := [(tabEnrol, [(7, misfiledRecord.map fun b => b.toNat)])] }
    plc := { cells := [(0, { nodes := [(1, some { slot := 5, eui := 5 })], xch := [lostInvitation] })] } }

/-- Header and tagged part of the JOIN_REQUEST of EUI-64 7 (R137). -/
def joinOfSeven : List Byte := be 1 0x61 ++ be 1 0 ++ be 2 0 ++ be 2 0xFFFE ++ be 2 1 ++ (be 8 7 ++ be 1 0 ++ be 3 0 ++ be 4 0)

/-- That frame, its tag under the record's key, with its check sequence. -/
def joinFrame : List Byte := withFcs (joinOfSeven ++ tagOf (List.replicate 16 0) (joinOfSeven.drop 8) 16 "JRQ1")

theorem misfiled_facts : misfiled.enrolment 7 = some misfiledRecord ∧ misfiled.joinedAt 7 = none ∧ misfiled.joinedAt 5 = some (0, 1) ∧
    misfiled.freeAddr 0 = 2 ∧ (misfiled.cell 0).xch = [lostInvitation] ∧ (misfiled.node 0 1).isSome = true ∧
    (misfiled.register misfiledRecord 0 2 1 0).isSome = true ∧ misfiled.totalReached = false ∧ misfiled.regResources = true := by
  decide +kernel

/-- The register and the two pieces of its unwrapping, as numbers, before each of the 12 steps and after the last. -/
def unwrapTrace : List (Nat × Nat × Nat) :=
  [(13084542141349132937, 14862864468331903575, 4035046534560308439), (14323608394090648578, 14862864468331903575, 13731392719833621763),
   (17648925908973032512, 18360116198695593086, 13731392719833621763), (9477965944918070942, 18360116198695593086, 12667378563109431671),
   (3606318781602911978, 3124320564889801846, 12667378563109431671), (16954611513881769148, 3124320564889801846, 11961863873176223005),
   (16732535945764333887, 9367760691386618614, 11961863873176223005), (3181709603754844949, 9367760691386618614, 12175128060811597902),
   (3914495542257489382, 16595237025692978928, 12175128060811597902), (8718434711335767667, 16595237025692978928, 8378908923247380803),
   (8163834339174184764, 661659906986126372, 8378908923247380803), (13466153892026187500, 661659906986126372, 0),
   (12008468691120727718, 0, 0)]

/-- What the unwrapping has reached before step `k`. -/
def unwrapAt (k : Nat) : List Byte × List (List Byte) :=
  (be 8 (unwrapTrace.getD k 0).1, [be 8 (unwrapTrace.getD k 0).2.1, be 8 (unwrapTrace.getD k 0).2.2])

/-- One step leads to the next, each a block of AES. -/
theorem unwrapStep_unwrapAt : ∀ k < 12, unwrapStep (padTo 32 []) (unwrapAt k) ((11 - k) % 2) (12 - k) = unwrapAt (k + 1) := by
  intro k hk
  interval_cases k <;> decide +kernel

theorem foldl_unwrapAt {n : Nat} (hn : n ≤ 12) :
    (List.range n).foldl (fun st k => unwrapStep (padTo 32 []) st ((11 - k) % 2) (12 - k)) (unwrapAt 0) = unwrapAt n := by
  induction n with
  | zero => rfl
  | succ n ih =>
    rw [List.range_succ, List.foldl_append, ih (by omega)]
    exact unwrapStep_unwrapAt n (by omega)

/-- The unwrapping of two pieces takes 12 steps (R266). -/
theorem aesUnwrap_two {kek w : List Byte} {r : List Byte × List (List Byte)} (hlen : w.length = 24)
    (hr : (List.range 12).foldl (fun st k => unwrapStep (padTo 32 kek) st ((11 - k) % 2) (12 - k))
      (w.take 8, (List.range 2).map fun i => slice w (8 * (i + 1)) 8) = r) (hiv : r.1 = wrapIv) :
    aesUnwrap kek w = some r.2.flatten := by
  subst hr
  rw [aesUnwrap, hlen]
  exact if_pos ⟨rfl, le_refl 2, hiv⟩

theorem aesUnwrap_zeroKeyWrapped : aesUnwrap [] zeroKeyWrapped = some (List.replicate 16 0) := by
  have hstart : (zeroKeyWrapped.take 8, (List.range 2).map fun i => slice zeroKeyWrapped (8 * (i + 1)) 8) = unwrapAt 0 := by decide +kernel
  have hiv : (unwrapAt 12).1 = wrapIv := by decide +kernel
  have hkey : (unwrapAt 12).2.flatten = List.replicate 16 0 := by decide +kernel
  have hfold : (List.range 12).foldl (fun st k => unwrapStep (padTo 32 []) st ((11 - k) % 2) (12 - k))
      (zeroKeyWrapped.take 8, (List.range 2).map fun i => slice zeroKeyWrapped (8 * (i + 1)) 8) = unwrapAt 12 := by
    rw [hstart]
    exact foldl_unwrapAt (le_refl 12)
  rw [← hkey]
  exact aesUnwrap_two rfl hfold hiv

theorem misfiled_enrolledKey : misfiled.enrolledKey misfiledRecord = some (List.replicate 16 0) := by
  have hslot : misfiled.keyFor (beAt misfiledRecord 48 2 % 1024) 1 = some [] := by decide
  have hbytes : slice misfiledRecord 8 40 = zeroKeyWrapped := by decide
  rw [State.enrolledKey, State.unwrapUnder, hslot, hbytes]
  exact aesUnwrap_zeroKeyWrapped

/-- The frame: its check passes, it is an unrouted JOIN_REQUEST, its body is the tagged part and its tag. -/
theorem joinFrame_parts : misfiled.frameOk 0 joinFrame = true ∧ frType joinFrame = 6 ∧ frRelays joinFrame = [] ∧
    frBody joinFrame = joinOfSeven.drop 8 ++ tagOf (List.replicate 16 0) (joinOfSeven.drop 8) 16 "JRQ1" := by
  obtain ⟨tag, htag⟩ : ∃ tag, tag = tagOf (List.replicate 16 0) (joinOfSeven.drop 8) 16 "JRQ1" := ⟨_, rfl⟩
  have hhead (off n : Nat) (h : off + n ≤ 24) : beAt (joinOfSeven ++ tag) off n = beAt joinOfSeven off n := beAt_append_left joinOfSeven tag off n h
  have hlen : 8 ≤ (joinOfSeven ++ tag).length := by
    rw [List.length_append]
    exact Nat.le_add_right_of_le (by decide)
  have htype : beAt joinFrame 0 1 = 0x61 := by
    rw [joinFrame, ← htag, withFcs, beAt_append_left _ _ 0 1 (by omega), hhead 0 1 (by decide)]
    decide
  have hplain : frRouted (joinOfSeven ++ tag) = false := by
    rw [frRouted, hhead 0 1 (by decide)]
    decide
  have hunrouted : frRouted joinFrame = false := by
    rw [frRouted, htype]
    decide
  refine ⟨?_, by rw [frType, htype], by rw [frRelays, hunrouted]; rfl, ?_⟩
  · rw [joinFrame, ← htag]
    refine State.frameOk_withFcs misfiled 0 _ hlen ?_ ?_ ?_ ?_
    · rw [hhead 0 1 (by decide)]; decide
    · rw [hhead 1 1 (by decide)]; decide
    · rw [hhead 0 1 (by decide)]; decide
    · rw [hhead 0 1 (by decide)]; decide
  · rw [joinFrame, ← htag, frBody_withFcs hlen hplain, List.drop_append_of_le_length (by decide)]

/-- EUI-64 7 asks to join. -/
theorem joinFrame_eui : beAt (frBody joinFrame) 0 8 = 7 := by
  obtain ⟨-, -, -, hbody⟩ := joinFrame_parts
  rw [hbody, beAt_append_left _ _ 0 8 (by decide)]
  decide

/-- No row of the Join decisions table refuses it. -/
theorem misfiled_joinCheck : misfiled.joinCheck 0 joinFrame (some misfiledRecord) = 0 := by
  obtain ⟨-, -, -, hbody⟩ := joinFrame_parts
  obtain ⟨-, hnew, -, -, -, -, -, htotal, hres⟩ := misfiled_facts
  have hlen : (joinOfSeven.drop 8).length = 16 := by decide
  have htag : tagOf (List.replicate 16 0) ((frBody joinFrame).take 16) 16 "JRQ1" = slice (frBody joinFrame) 16 16 := by
    rw [hbody, ← hlen, List.take_left, slice, List.drop_left, hlen, List.take_of_length_le (tagOf_length _ _ _ _).le]
  have hroom : ¬ misfiled.cellLimit 0 ≤ (misfiled.cell 0).members.length := by decide
  have hopen : natBit (beAt misfiledRecord 51 1) 0 = false := by decide
  simp only [State.joinCheck, hopen, misfiled_enrolledKey, htag, joinFrame_eui, hnew, hroom, htotal, hres, Option.any_none, Bool.false_eq_true,
    ne_eq, not_true_eq_false, Bool.not_true, if_false]

/-- The device registers EUI-64 7 and no invitation is left. -/
theorem exec_joinFrame : ∃ u, exec (.joinRequestReceived 0 joinFrame) misfiled = misfiled.out u ∧ ∀ y ∈ (u.cell 0).xch, y.fseq ≠ 9 := by
  obtain ⟨hok, htype, hrelays, -⟩ := joinFrame_parts
  obtain ⟨hrec, hnew, hold, hfree, hxch, hnode, hreg, -, -⟩ := misfiled_facts
  obtain ⟨⟨k, u⟩, hg⟩ := Option.isSome_iff_exists.mp hreg
  have hup : misfiled.cellUp 0 = true := by decide
  have hfind : ((misfiled.cell 0).xch.find? fun e => e.kind == 6 && !e.acking && e.route == frRelays joinFrame) = some lostInvitation := by
    rw [hxch, hrelays]
    rfl
  have hwith : (misfiled.cell 0).exchangeOf 1 = some lostInvitation := by
    rw [Cell.exchangeOf, hxch]
    rfl
  rw [← joinFrame_eui] at hrec hnew
  rw [← hfree] at hg
  refine ⟨misfiled.join 0 joinFrame lostInvitation, ?_, ?_⟩
  · simp only [exec, execJoinRequestReceived, hup, hok, htype, hfind, and_self, if_true]
  · exact State.join_xch hrec misfiled_joinCheck hnew hold (by rw [hfree]; decide) hwith (Option.isSome_iff_ne_none.mp hnode) hg

/-- Refutes O19: the record that an enrolment gives for an EUI-64 need not name that EUI-64, and the endpoint that it names may be the one
that the invitation is with; the invitation then leaves with it, and none waits for the JOIN_ANSWER. -/
theorem not_cellJoinsKeysAndQueries : ¬ Obligations.CellJoinsKeysAndQueries := by
  rintro ⟨hjoin, -⟩
  obtain ⟨hok, htype, hrelays, -⟩ := joinFrame_parts
  obtain ⟨-, -, -, -, hxch, -⟩ := misfiled_facts
  obtain ⟨u, hexec, hgone⟩ := exec_joinFrame
  obtain ⟨t, ht, ⟨y, hy, hfseq, -⟩, -⟩ := hjoin misfiled 0 joinFrame lostInvitation (by decide) hok htype (by rw [hxch, hrelays]; rfl)
  rw [hexec, State.out_eq] at ht
  cases ht
  exact hgone y hy hfseq

end Sys2Proof.Machine

/-! ## 05_plc_cell_protocol.md: an anchor on a port that does not exist -/

namespace Sys2Proof.Machine

/-! ### The counterexample to O26

The statement bounds the port of ANCHOR_RECEIVED nowhere. ETH_STAT of "port" 0x8000 would stand at the address of FRY_CNT, and the
acknowledgement that the anchor's message carries ends batch 5: event 206 is coalesced, and FRY_CNT counts it. SPEED as read of that
register goes from 1 to 2 meanwhile, so that SLOWDLY (R203) is taken off the receive stamp before the message is taken, not after it.
The stamp that the command uses is the earlier one, and puts the anchor more than 1 ms before its launch (R219). -/

/-- A device that waits for the head end's acknowledgement of batch 5, with event 206 on and latched. -/
def batchWaits : State :=
  { man := { headKey := 8 }
    keys := { slots := [(8, { attr := 0x80008001, key := List.replicate 32 7 })] }
    clk := { ptp := 2000000000 }
    gwy := { peers := [(0xFFFF, { out := [{ seq := 1, batch := some 5 }] })] }
    fry := { latches := [206], episodes := [206] }
    regs := [(xingConfig, 4), (valEvtEn, 0x4000), (ethCfg 0x8000, 0xFFFF0000), (fryCnt, 3)] }

/-- Header and body of an unreliable ANCHOR of crossing 1 that acknowledges message 1, launched 1 ms after the device's time. -/
def earlyAnchor : List Byte :=
  be 1 1 ++ be 1 3 ++ be 1 0 ++ be 1 0 ++ be 2 0 ++ be 2 0xFFFF ++ be 4 1 ++ be 4 1 ++ be 8 0 ++ be 2 32 ++ be 2 0 ++
    (be 6 1 ++ be 6 0 ++ be 4 0 ++ be 4 0 ++ be 1 0 ++ be 1 0 ++ be 6 2 ++ be 4 1000000)

/-- That message with its tag. -/
def anchorMessage : List Byte := taggedMsg (List.replicate 32 7) earlyAnchor

/-- The device once it has taken the message. -/
def batchEnded : State := (batchWaits.gwyArrive 0xFFFF anchorMessage).2.gwyRelease 0xFFFF anchorMessage

theorem anchorMessage_header : beAt anchorMessage 6 2 = 0xFFFF ∧ beAt anchorMessage 3 1 = 0 ∧
    gwyBody anchorMessage = be 6 1 ++ be 6 0 ++ be 4 0 ++ be 4 0 ++ be 1 0 ++ be 1 0 ++ be 6 2 ++ be 4 1000000 := by
  have hlen : beAt anchorMessage 24 2 = 32 := (beAt_append_left earlyAnchor _ 24 2 (by decide)).trans (by decide)
  refine ⟨(beAt_append_left earlyAnchor _ 6 2 (by decide)).trans (by decide), (beAt_append_left earlyAnchor _ 3 1 (by decide)).trans (by decide), ?_⟩
  rw [gwyBody, hlen]
  exact (slice_append_left earlyAnchor _ 28 32 (by decide)).trans (by decide)

/-- The message is taken and is to be processed. -/
theorem batchWaits_takes : batchWaits.gwyTake anchorMessage = some (true, batchEnded) := by
  obtain ⟨hfrom, hgen, -⟩ := anchorMessage_header
  have hcheck : batchWaits.gwyCheck anchorMessage (some (List.replicate 32 7)) false = none :=
    State.gwyCheck_tagged batchWaits _ earlyAnchor false (by decide) (by decide) (by decide)
  have hkey : batchWaits.peerKey 0xFFFF 0 = some (List.replicate 32 7) := by decide
  have hnew : (batchWaits.gwyArrive 0xFFFF anchorMessage).1 = true := by decide +kernel
  simp only [State.gwyTake, hfrom, hgen, hkey, hcheck, hnew]
  rfl

theorem batchEnded_facts : batchEnded.gwy.lastAnchor = none ∧ batchEnded.clockFault 2 = false ∧
    batchEnded.flag xingConfig_ANCHOR_EN = true ∧ batchEnded.get xingConfig_GRID_DOMAIN = 0 := by decide +kernel

/-- Before the message SLOWDLY is taken off the stamp of "port" 0x8000; after it, it is not. -/
theorem batchEnded_stamp : (batchWaits.ethRx 0x8000).ptp = 2000000000 - 0xFFFF ∧ (batchEnded.ethRx 0x8000).ptp = 2000000000 := by
  decide +kernel

/-- An anchor that comes more than 1 ms before its launch is not taken (R219). -/
theorem State.anchorIn_early (s : State) {b : List Byte} {t : Nat}
    (h : t + 1000000 < beAt (gwyBody b) 22 6 * nsPerSec + beAt (gwyBody b) 28 4) : (s.anchorIn b t).gwy = s.gwy := by
  have hearly : decide (beAt (gwyBody b) 22 6 * nsPerSec + beAt (gwyBody b) 28 4 ≤ t + 1000000) = false := decide_eq_false (not_le.mpr h)
  simp only [State.anchorIn, hearly, Bool.and_false, Bool.false_and, Bool.false_eq_true, if_false]
  split
  · rfl
  · exact s.raise_gwy 177

/-- A message that is taken and to be processed is judged by the stamp of the state before it. -/
theorem exec_anchorReceived {s u : State} {b : List Byte} (x : Nat) (h : s.gwyTake b = some (true, u)) :
    exec (.anchorReceived x b) s = s.out (u.anchorIn b (s.ethRx x).ptp) := by
  simp only [exec, execAnchorReceived, State.onMessage, h]

/-- What the device answers to the message: no anchor. -/
theorem exec_anchorMessage : ∃ u, exec (.anchorReceived 0x8000 anchorMessage) batchWaits = batchWaits.out u ∧ u.gwy.lastAnchor = none := by
  obtain ⟨-, -, hbody⟩ := anchorMessage_header
  obtain ⟨hbefore, -⟩ := batchEnded_stamp
  obtain ⟨hnone, -⟩ := batchEnded_facts
  refine ⟨batchEnded.anchorIn anchorMessage (batchWaits.ethRx 0x8000).ptp, exec_anchorReceived 0x8000 batchWaits_takes, ?_⟩
  rw [State.anchorIn_early _ (by rw [hbefore, hbody]; decide), hnone]

/-- Refutes O26: the port of ANCHOR_RECEIVED is not bounded, and the register read as ETH_STAT of "port" 0x8000 is FRY_CNT, which the
taking of the message may change: the stamp of the state after it is not the stamp that the command judges the anchor by. -/
theorem not_gangwayMessagesAreTaken : ¬ Obligations.GangwayMessagesAreTaken := by
  rintro ⟨-, hanchor, -⟩
  obtain ⟨-, -, hbody⟩ := anchorMessage_header
  obtain ⟨-, hafter⟩ := batchEnded_stamp
  obtain ⟨hnone, hclock, hen, hdom⟩ := batchEnded_facts
  obtain ⟨u, hexec, hno⟩ := exec_anchorMessage
  obtain ⟨t, ht, hlast, -⟩ := hanchor batchWaits batchEnded 0x8000 anchorMessage batchWaits_takes (by rw [hnone]; rfl)
    (by rw [hafter, hbody]; decide) (by rw [hafter, hbody]; decide) hclock hen (by rw [hdom, hbody]; decide)
  rw [hexec, State.out_eq] at ht
  cases ht
  rw [hno] at hlast
  cases hlast

end Sys2Proof.Machine

/-! ## 06_radio.md: radio frames, the duty account -/

namespace Sys2Proof.Machine

/-! ### A radio port after a frame -/

/-- From `s` to `t` only radio ports change, and of port `r` only its table of endpoints. -/
structure onlyNodes (r : Nat) (s t : State) : Prop where
  only : onlyIn [.rad] s t
  port : ∃ nodes, t.port r = { s.port r with nodes := nodes }

theorem onlyNodes.refl {r : Nat} {s : State} : onlyNodes r s s := ⟨onlyIn_refl _ s, _, rfl⟩

theorem onlyNodes.trans {r : Nat} {s t u : State} (h : onlyNodes r s t) (k : onlyNodes r t u) : onlyNodes r s u := by
  obtain ⟨nodes, ht⟩ := h.port
  obtain ⟨nodes', hu⟩ := k.port
  exact ⟨onlyIn_trans h.only k.only, nodes', by rw [hu, ht]⟩

theorem onlyNodes.force {r : Nat} {s t : State} (h : onlyNodes r s t) : (t.port r).force = (s.port r).force := by
  obtain ⟨nodes, ht⟩ := h.port
  rw [ht]

theorem onlyNodes.job {r : Nat} {s t : State} (h : onlyNodes r s t) : (t.port r).job = (s.port r).job := by
  obtain ⟨nodes, ht⟩ := h.port
  rw [ht]

theorem State.setPort_only (s : State) (r : Nat) (x : RadPort) : onlyIn [.rad] s (s.setPort r x) := onlyIn_rad s _ _ (by decide)

theorem State.setRnode_onlyNodes (s : State) (r a : Nat) (n : Option RNode) : onlyNodes r s (s.setRnode r a n) :=
  ⟨s.setPort_only r _, _, s.port_setPort_same r _⟩

theorem State.ackSync_onlyNodes (s : State) (r a : Nat) : onlyNodes r s (s.ackSync r a) := by
  unfold State.ackSync
  split
  · exact s.setRnode_onlyNodes r a _
  · exact .refl

theorem State.noteAnswered_onlyNodes (s : State) (r e : Nat) : onlyNodes r s (s.noteAnswered r e) := by
  unfold State.noteAnswered
  split
  · exact .refl
  · split
    · exact s.setRnode_onlyNodes r _ _
    · exact .refl

/-- A cover that is dropped leaves the port's frame (R192). -/
theorem State.dropCover_job (s : State) (r a : Nat) : ((s.dropCover r a).port r).job = (s.port r).job := by
  unfold State.dropCover
  split
  · split
    · rw [State.port_congr (State.txnRelease_only _ _ .rad (by decide)), State.port_setPort_same]
    · rfl
  · rfl

/-! ### Acknowledgements -/

/-- The end of an acknowledged frame's handling: the resynchronisation, and the TIME that is due no longer (R186, R189). -/
def State.ackNoted (s : State) (r : Nat) (j : RadJob) : State :=
  if j.typ = 6 ∧ j.dst ≠ 0xFFFF then
    match (s.ackSync r j.dst).rnode r j.dst with
    | some n => (s.ackSync r j.dst).setRnode r j.dst (some { n with timeDue := false })
    | none => s.ackSync r j.dst
  else s.ackSync r j.dst

theorem State.ackNoted_onlyNodes (s : State) (r : Nat) (j : RadJob) : onlyNodes r s (s.ackNoted r j) := by
  have hsync := s.ackSync_onlyNodes r j.dst
  unfold State.ackNoted
  split
  · split
    · exact hsync.trans (State.setRnode_onlyNodes _ r j.dst _)
    · exact hsync
  · exact hsync

/-- An acknowledged frame leaves the port's frame where it was: it is the transmission's end that takes it. -/
theorem State.radAcked_job (s : State) (r : Nat) (j : RadJob) : ((s.radAcked r j).port r).job = (s.port r).job := by
  unfold State.radAcked
  extract_lets s1 item s1b p s2 s3
  have h1 : s1.port r = s.port r := by
    refine State.port_congr ?_ r
    dsimp only [s1]
    split
    · split
      · exact (s.spend_queueWork _ _).only .rad (by decide)
      · rfl
    · rfl
  have h1b : (s1b.port r).job = (s1.port r).job := by
    dsimp only [s1b]
    split
    · exact (s1.noteAnswered_onlyNodes r j.ext).job
    · rfl
  have h2 : (s2.port r).job = (s1b.port r).job := by
    dsimp only [s2]
    rw [State.port_setPort_same]
  have h3 : ((if j.cover then s2.dropCover r j.dst else s2).port r).job = (s2.port r).job := by
    split
    · exact s2.dropCover_job r j.dst
    · rfl
  have hend := ((if j.cover then s2.dropCover r j.dst else s2).ackNoted_onlyNodes r j).job
  exact (((hend.trans h3).trans h2).trans h1b).trans (congrArg RadPort.job h1)

/-- The acknowledgement of an ordinary direct frame: FORCE of its destination goes with a TIME message (R187). -/
theorem State.radAcked_direct (s : State) (r : Nat) {j : RadJob} (hi : j.iseq = none) (hc : j.cover = false) (hk : j.kind ≠ 3) :
    onlyIn [.rad] s (s.radAcked r j) ∧
      ((s.radAcked r j).port r).force = if j.typ = 6 then dropMem (s.port r).force j.dst else (s.port r).force := by
  obtain ⟨u, hu⟩ : ∃ u, u = s.setPort r { s.port r with
    force := if j.typ = 6 then dropMem (s.port r).force j.dst else (s.port r).force } := ⟨_, rfl⟩
  have hacked : s.radAcked r j = u.ackNoted r j := by
    simp only [State.radAcked, hi, hc, hk, hu, Option.isSome_none, Bool.false_or, decide_eq_true_eq, Bool.false_eq_true, if_false]
    rfl
  have hend := u.ackNoted_onlyNodes r j
  rw [hacked]
  refine ⟨onlyIn_trans ?_ hend.only, hend.force.trans ?_⟩
  · rw [hu]
    exact s.setPort_only r _
  · rw [hu, State.port_setPort_same]

/-! ### RADIO_FRAME_RECEIVED -/

theorem radioFrameReceived_filtered (s : State) (r : Nat) (x : RadRx) (ht : s.tst.entries = []) (hh : s.radHears r = true)
    (hf : s.radFilter r x = false) :
    answers (.radioFrameReceived r x) s fun t =>
      t.get (radErr_FILTERED r) = satAdd (s.get (radErr_FILTERED r)) 1 (radErr_FILTERED r).top ∧ onlyIn [.regs] s t ∧
      keepsRegs [radErr r] s t := by
  have hexec : exec (.radioFrameReceived r x) s = s.out (s.bump (radErr_FILTERED r) 1) := by
    simp [exec, execRadioFrameReceived, hh, State.radFrameIn, State.radAccept, State.radBroken, State.everyNth_of_empty ht, hf]
  exact answers_of_out hexec rfl rfl ⟨State.get_bump s (radErr_FILTERED r) 1 (by decide : 0 ≤ 15) (by decide : 15 < 32),
    s.bump_only _ _ _ (by decide), s.bump_regs (radErr_FILTERED r) 1⟩

theorem radioFrameReceived_acknowledged (s : State) (r : Nat) (x : RadRx) (j : RadJob) (ht : s.tst.entries = []) (hh : s.radHears r = true)
    (hf : s.radFilter r x = true) (htyp : x.typ = 2) (hj : (s.port r).job = some j) (hack : j.ackReq = true) (hseq : j.seq = x.seq)
    (hi : j.iseq = none) (hc : j.cover = false) (hk : j.kind ≠ 3) (hsl : natBit (beAt x.payload 1 1) 0 = false) :
    answers (.radioFrameReceived r x) s fun t =>
      (t.port r).force = (if j.typ = 6 then dropMem (s.port r).force j.dst else (s.port r).force) ∧ onlyIn [.rad] s t := by
  have hsync (u : State) (k : Stamp) : u.sleepySync r j.dst k x.payload = u := by
    unfold State.sleepySync
    split
    · rfl
    · simp only [hsl, Bool.false_eq_true, if_false]
  have hexec : exec (.radioFrameReceived r x) s = s.out (s.radAcked r j) := by
    simp [exec, execRadioFrameReceived, hh, htyp, State.radBroken, State.everyNth_of_empty ht, hf, hj, hack, hseq, hsync]
  obtain ⟨honly, hforce⟩ := s.radAcked_direct r hi hc hk
  exact answers_of_out hexec (honly .pending (by decide)) (honly .fuses (by decide)) ⟨hforce, honly⟩

/-! ### Airtime booked -/

/-- Booked airtime changes of the port only its bins (R193). -/
theorem State.book_port (s : State) (r air : Nat) : ∃ bins, (s.book r air).port r = { s.port r with bins := bins } :=
  ⟨_, s.port_setPort_same r _⟩

theorem State.radOn_only (s : State) (r : Nat) : onlyIn [.sent] s (s.radOn r) :=
  onlyIn_trans (s.emit_only _ _ (by decide)) (State.emit_only _ _ _ (by decide))

theorem State.radOff_only (s : State) (r : Nat) : onlyIn [.sent] s (s.radOff r) :=
  onlyIn_trans (s.emit_only _ _ (by decide)) (State.emit_only _ _ _ (by decide))

theorem State.autoAck_port (s : State) (r : Nat) (x : RadRx) (p : Bool) : ∃ bins, (s.autoAck r x p).port r = { s.port r with bins := bins } := by
  unfold State.autoAck
  split
  · exact ⟨_, rfl⟩
  · split
    · obtain ⟨bins, hbook⟩ := s.book_port r x.ackAir
      have hsent := onlyIn_trans ((s.book r x.ackAir).radOn_only r)
        (onlyIn_trans (State.emit_only _ (.radioAck r x.seq p) _ (by decide)) (State.radOff_only _ r))
      exact ⟨bins, (State.port_congr (hsent .rad (by decide)) r).trans hbook⟩
    · exact ⟨_, State.port_congr (s.raise_rad _) r⟩

/-- A transmission puts on record what leaves, and nothing else (R174). -/
theorem State.radSend_only (s : State) (r : Nat) (j : RadJob) : onlyIn [.sent] s (s.radSend r j) :=
  onlyIn_trans (onlyIn_trans (s.radOn_only r) (onlyIn_foldl State.emit (fun u o => u.emit_only o _ (by decide)) _ _)) (State.radOff_only _ r)

theorem State.radSends_only (s : State) (r : Nat) (j : RadJob) (n : Nat) : onlyIn [.sent] s (s.radSends r j n) := by
  induction n with
  | zero => exact onlyIn_refl _ s
  | succ n ih => exact onlyIn_trans ih (State.radSend_only _ r j)

/-- The transmissions of a frame, booked and on record: of the port only the bins change (R172, R193). -/
theorem State.bookTries_spec (s : State) (r : Nat) (j : RadJob) (tries : Nat) :
    (s.bookTries r j tries).whf = s.whf ∧ (s.bookTries r j tries).man = s.man ∧
      ∃ bins, (s.bookTries r j tries).port r = { s.port r with bins := bins } := by
  unfold State.bookTries
  split
  · exact ⟨rfl, rfl, _, s.port_setPort_same r _⟩
  · extract_lets n
    have hsends := State.radSends_only (if n = 0 then s else s.book r (n * j.air)) r j (n + 1)
    rw [hsends .whf (by decide), hsends .man (by decide), State.port_congr (hsends .rad (by decide))]
    split
    · exact ⟨rfl, rfl, _, rfl⟩
    · exact ⟨rfl, rfl, s.book_port r (n * j.air)⟩

/-- Once a frame's transmissions are over the port has none, and FORCE is as it was. -/
theorem State.bookTries_radDone (s : State) (r : Nat) (j : RadJob) (tries : Nat) :
    (((s.bookTries r j tries).radDone r).port r).job = none ∧ (((s.bookTries r j tries).radDone r).port r).force = (s.port r).force := by
  obtain ⟨-, -, bins, hport⟩ := s.bookTries_spec r j tries
  rw [State.radDone, State.port_setPort_same, hport]
  exact ⟨rfl, rfl⟩

/-! ### Completions -/

theorem State.q_setQ_other (s : State) {n m : Nat} (x : Queue) (h : m ≠ n) : (s.setQ n x).q m = s.q m := by
  simp [State.q, State.setQ, h]

theorem State.q_congr {s t : State} (h : t.whf = s.whf) (n : Nat) : t.q n = s.q n := by rw [State.q, State.q, h]

theorem State.perturbItem_whf (s : State) (n : Nat) (it : Item) : (s.perturbItem n it).2.whf = s.whf := by
  have hnth : (s.everyNth 6 fun e => e.target == n).2.whf = s.whf := by
    unfold State.everyNth
    split
    · rfl
    · simp only
      split <;> rfl
  unfold State.perturbItem
  simp only
  split
  · exact hnth
  · exact hnth

/-- An item that a hardware producer enqueues reaches its own queue alone. -/
theorem State.produce_other (s : State) (p : Producer) {n m : Nat} (it : Item) (h : m ≠ n) : (s.produce p n it).q m = s.q m := by
  unfold State.produce State.hwEnqueue
  split
  · rfl
  · split
    · simp only [State.enqueueNow]
      rw [State.q_congr (State.touchQ_whf _ n _), State.q_setQ_other _ _ h, State.q_congr (s.perturbItem_whf n it)]
    · exact s.q_setQ_other _ h

theorem State.radCompletion_queueWork (s : State) (r flow : Nat) (t : Stamp) (status : Nat) : queueWork s (s.radCompletion r flow t status) := by
  unfold State.radCompletion
  split
  · exact s.produce_queueWork _ _ _
  · exact .refl

theorem State.radCompletion_port (s : State) (r flow : Nat) (t : Stamp) (status : Nat) : (s.radCompletion r flow t status).port r = s.port r :=
  State.port_congr ((s.radCompletion_queueWork r flow t status).only .rad (by decide)) r

/-- A completion goes into the port's completion queue and no other (R26). -/
theorem State.radCompletion_other (s : State) (r flow : Nat) (t : Stamp) (status : Nat) {m : Nat}
    (h : roleQ s.man.roles.completion (3 + r) ≠ some m) : (s.radCompletion r flow t status).q m = s.q m := by
  unfold State.radCompletion
  split
  · next n hn => exact s.produce_other _ _ fun hmn => h (hmn ▸ hn)
  · rfl

/-! ### INDIRECT_ITEM_UNACKED, RADIO_TRANSMIT_COMPLETE -/

theorem indirectItemUnacked_answers (s : State) (r a : Nat) (j : RadJob) (hj : (s.port r).job = some j) (ha : j.dst = a)
    (hi : j.iseq.isSome = true) (hc : j.cover = false) :
    answers (.indirectItemUnacked r a) s fun t => (t.port r).job = none ∧
      (roleQ s.man.roles.completion (3 + r) ≠ some j.q → t.q j.q = s.q j.q) := by
  obtain ⟨u, hu⟩ : ∃ u, u = (s.bookTries r j (1 + s.man.macRetries)).radDone r := ⟨_, rfl⟩
  have hexec : exec (.indirectItemUnacked r a) s = s.out (u.radCompletion r j.flow j.stamp 0x02) := by
    simp only [exec, execIndirectItemUnacked, hj, ha, hi, hc, and_self, if_true, hu]
  obtain ⟨hdone, -⟩ := s.bookTries_radDone r j (1 + s.man.macRetries)
  obtain ⟨hwhf, hman, -⟩ := s.bookTries_spec r j (1 + s.man.macRetries)
  rw [← hu] at hdone
  have huq : u.q j.q = s.q j.q := by
    rw [hu]
    exact State.q_congr hwhf j.q
  have human : u.man = s.man := by
    rw [hu]
    exact hman
  refine answers_of_out_congr hexec ⟨?_, fun hq => ?_⟩
  · exact (congrArg RadPort.job (u.radCompletion_port r j.flow j.stamp 0x02)).trans hdone
  · exact (u.radCompletion_other r j.flow j.stamp 0x02 (by rw [human]; exact hq)).trans huq

/-- An endpoint that leaves a radio cell leaves the port's frame (R184). -/
theorem State.leaveNow_job (s : State) (r a : Nat) : ((s.leaveNow (3 + r) a).port r).job = (s.port r).job := by
  have hdrop : (s.dropNode (3 + r) a).rad = s.rad := by
    have haddr : (s.leaveAddr (3 + r) a).rad = s.rad := by
      unfold State.leaveAddr
      split
      · split
        · exact s.ctxPut_only _ _ _ .rad (by decide)
        · rfl
      · rfl
    have hshow (u : State) : (u.showCell (3 + r)).rad = u.rad := by
      unfold State.showCell
      simp only
      split <;> rfl
    rw [State.dropNode, if_neg (by omega), hshow]
    exact ((State.setNode_only _ (3 + r) a none .rad (by decide)).trans (State.dropWork_only _ (3 + r) a .rad (by decide))).trans haddr
  rw [State.leaveNow, if_pos (Nat.le_add_right 3 r), Nat.add_sub_cancel_left, State.radDrop, State.port_setPort_same]
  exact (State.setRnode_onlyNodes _ r a none).job.trans (congrArg RadPort.job (State.port_congr hdrop r))

/-- What an acknowledged request means for its exchange leaves the port's frame (R127, R177, R184). -/
theorem State.radReqDone_job (s : State) (r : Nat) (j : RadJob) : ((s.radReqDone r j).port r).job = (s.port r).job := by
  have hend (u : State) (x : Exchange) : (u.endExchange (3 + r) x).rad = u.rad := (u.endExchange_radio x (Nat.le_add_right 3 r)).1
  have hnode (u : State) (n : Option Node) : (u.setNode (3 + r) j.dest n).rad = u.rad := u.setNode_only _ _ n .rad (by decide)
  have hport {u : State} (h : u.rad = s.rad) : (u.port r).job = (s.port r).job := by rw [State.port_congr h]
  unfold State.radReqDone
  extract_lets c
  split
  · rfl
  · split
    · split
      · exact (State.leaveNow_job _ r _).trans (hport (hend s _))
      · split
        · split
          · exact hport ((hnode _ _).trans (hend s _))
          · exact hport (hend s _)
        · rfl
    · split
      · split
        · exact hport ((hend _ _).trans (hnode s _))
        · rfl
      · rfl

theorem radioTransmitComplete_answers (s : State) (r : Nat) (x : RadDone) (j : RadJob) (hj : (s.port r).job = some j) :
    answers (.radioTransmitComplete r x) s fun t =>
      (t.port r).job = none ∧ (x.result ≠ 0 → (t.port r).force = (s.port r).force) := by
  simp only [answers, exec, execRadioTransmitComplete, hj]
  generalize (if x.result = 0 then ofBool j.deferred else if x.result = 2 then 2 else 3) = status
  generalize (if x.result = 0 then max 1 x.tries else if x.result = 2 then 1 + s.man.macRetries else x.tries) = n
  obtain ⟨hjob, hforce⟩ := s.bookTries_radDone r j n
  generalize (s.bookTries r j n).radDone r = u at hjob hforce
  refine ⟨_, State.out_eq _ _, ?_⟩
  have hport (v : State) := v.radCompletion_port r j.flow j.stamp status
  by_cases hres : x.result = 0
  · rw [if_pos hres]
    refine ⟨?_, fun h => absurd hres h⟩
    exact (congrArg RadPort.job (hport _)).trans (((State.radReqDone_job _ r j).trans (State.radAcked_job u r j)).trans hjob)
  · rw [if_neg hres]
    exact ⟨(congrArg RadPort.job (hport u)).trans hjob, fun _ => (congrArg RadPort.force (hport u)).trans hforce⟩

/-! ### DATA_REQUEST -/

/-- A data request of an extended address goes on unsecured, acknowledged with its pending bit (R180, R181, R185). -/
theorem State.radAccept_dataRequest {s : State} {r e : Nat} {x : RadRx} (ht : s.tst.entries = []) (hf : s.radFilter r x = true)
    (hcmd : x.cmd = 4) (hs : x.secured = false) (hsrc : x.src = .ext e) :
    s.radAccept r x = (some x.payload, s.autoAck r x (s.pendingFor r x.src)) := by
  simp [State.radAccept, State.radBroken, State.everyNth_of_empty ht, hf, hcmd, State.radOpen, hs, hsrc]

/-- An idle port without an airtime budget or a dwell limit sends the frame that follows a data request (R186, R193, R195). -/
theorem State.serve_starts {s u : State} {r air : Nat} (j : RadJob) (b : List Byte) (hidle : (s.port r).job = none)
    (hbudget : (s.port r).budgetUs = 0) (hdwell : bitsOf (s.port r).dwell 15 0 = 0) :
    ∃ d, ((s.serve r air j (some b, u)).port r).job = some { j with deferred := d, lead := [], bytes := b } := by
  have hlong : (s.port r).tooLong air = false := by simp [RadPort.tooLong, hdwell]
  have hmay : (s.port r).mayLaunch air false = true := by simp [RadPort.mayLaunch, hbudget]
  simp only [State.serve, hidle, hlong, hmay, Option.isSome_none, Bool.false_eq_true, if_false, Bool.not_true, State.radStart,
    State.port_setPort_same]
  exact ⟨_, rfl⟩

/-- What follows the data request of an extended address is the association response that waits for it (R184). -/
theorem State.answerDataRequest_waiting {s : State} {r air e e1 a st : Nat} {x : RadRx} (hsrc : x.src = .ext e)
    (hw : ((s.port r).ext.find? fun p => p.1 == e) = some (e1, a, st)) :
    ∃ j v, s.answerDataRequest r air x = s.serve r air j (some (s.assocResponse r e a st), v) ∧ j.kind = 3 ∧ j.ext = e ∧ j.air = air := by
  simp only [State.answerDataRequest, hsrc, hw]
  exact ⟨_, _, rfl, rfl, rfl, rfl⟩

theorem dataRequest_answers (s : State) (r air e e1 a st : Nat) (x : RadRx) (hr : r < 2) (ht : s.tst.entries = []) (hh : s.radHears r = true)
    (hf : s.radFilter r x = true) (hcmd : x.cmd = 4) (hs : x.secured = false) (hsrc : x.src = .ext e) (he : s.radByEui r e = none)
    (hw : ((s.port r).ext.find? fun p => p.1 == e) = some (e1, a, st)) (hj : (s.port r).job = none) (hb : (s.port r).budgetUs = 0)
    (hd : bitsOf (s.port r).dwell 15 0 = 0) :
    answers (.dataRequest r air x) s fun t =>
      ∃ j, (t.port r).job = some j ∧ j.kind = 3 ∧ j.ext = e ∧ j.air = air ∧ j.bytes = s.assocResponse r e a st := by
  have hfound := List.find?_some hw
  have hpending : s.pendingFor r (.ext e) = true := List.any_eq_true.mpr ⟨_, List.mem_of_find?_eq_some hw, hfound⟩
  have haccept := State.radAccept_dataRequest ht hf hcmd hs hsrc
  rw [hsrc, hpending] at haccept
  have hrolls := s.autoAck_sameRolls hr x true
  obtain ⟨honly, hregs, -⟩ := s.autoAck_spec r x true
  obtain ⟨bins, hport⟩ := s.autoAck_port r x true
  generalize s.autoAck r x true = u at haccept hrolls honly hregs hport
  have hexec : exec (.dataRequest r air x) s = s.out (u.answerDataRequest r air x) := by
    simp only [exec, execDataRequest, hh, if_true, State.dataRequest, haccept, hpending, hsrc, State.radSrc, hrolls.radByEui, he,
      Option.map_none]
  have hresponse : u.assocResponse r e a st = s.assocResponse r e a st := by
    have hpan : u.get (radPan_PANID r) = s.get (radPan_PANID r) := by
      refine State.get_congr (f := radPan_PANID r) (hregs _ ?_)
      simp only [radPan_PANID, radPan, radDutyUsed, fryCnt, List.mem_cons, List.not_mem_nil, or_false]
      omega
    rw [State.assocResponse, State.assocResponse, hport, hpan, show u.fuses = s.fuses from honly .fuses (by decide)]
  have hwaits : ((u.port r).ext.find? fun p => p.1 == e) = some (e1, a, st) := by rw [hport]; exact hw
  obtain ⟨j, v, hanswer, hkind, hext, hair⟩ := State.answerDataRequest_waiting (air := air) hsrc hwaits
  obtain ⟨d, hjob⟩ := State.serve_starts (s := u) (r := r) (air := air) (u := v) j (u.assocResponse r e a st) (by rw [hport]; exact hj)
    (by rw [hport]; exact hb) (by rw [hport]; exact hd)
  rw [hanswer] at hexec
  exact answers_of_out_congr hexec ⟨_, hjob, hkind, hext, hair, hresponse⟩

/-! ### DUTY_BIN_BOUNDARY, SPI_TIMEOUT -/

theorem State.get_setSat (s : State) (f : Fld) (v : Nat) (hl : f.lo ≤ f.hi) (hh : f.hi < 32) : (s.setSat f v).get f = min v f.top := by
  have htop : min v f.top < 2 ^ (f.hi + 1 - f.lo) := by
    have hpos := Nat.two_pow_pos (f.hi + 1 - f.lo)
    rw [Fld.top]
    omega
  rw [State.setSat, State.get_set _ _ _ hl hh, Nat.mod_eq_of_lt htop]

/-- The port with a new bin in front and the settings as written in force (R193, R200). -/
def State.binBegun (s : State) (r : Nat) : State :=
  s.setPort r { s.port r with
    bins := (0 :: (s.port r).bins).take 64, budget := s.reg (radDutyBudget r), dwell := s.reg (radDutyCfg r)
    job := (s.port r).job.map fun j => { j with bin := j.bin + 1 } }

/-- The state once a bin has begun and USED shows the bins' sum (R193). -/
def State.binShown (s : State) (r : Nat) : State :=
  (s.binBegun r).setSat (radDutyUsed_USED r) (ceilDiv ((0 :: (s.port r).bins).take 64).sum 10000)

/-- A bin boundary shows the new bin; what the budget holds is judged again but for a power warning (R193, R194). -/
theorem exec_dutyBinBoundary (s : State) (r air : Nat) :
    exec (.dutyBinBoundary r air) s = s.out (if (s.binShown r).warned then s.binShown r else (s.binShown r).recheck r air) := by
  have hused : ((s.binBegun r).port r).usedUs = ((0 :: (s.port r).bins).take 64).sum :=
    congrArg RadPort.usedUs (s.port_setPort_same r _)
  rw [State.binShown, ← hused]
  rfl

theorem State.binShown_port (s : State) (r : Nat) : (s.binShown r).port r = { s.port r with
    bins := (0 :: (s.port r).bins).take 64, budget := s.reg (radDutyBudget r), dwell := s.reg (radDutyCfg r)
    job := (s.port r).job.map fun j => { j with bin := j.bin + 1 } } :=
  s.port_setPort_same r _

theorem dutyBinBoundary_shown {s : State} {r air : Nat} (h : exec (.dutyBinBoundary r air) s = s.out (s.binShown r)) :
    answers (.dutyBinBoundary r air) s fun t =>
      (t.port r).bins = (0 :: (s.port r).bins).take 64 ∧ (t.port r).budget = s.reg (radDutyBudget r) ∧
      (t.port r).dwell = s.reg (radDutyCfg r) ∧
      t.get (radDutyUsed_USED r) = min (ceilDiv ((0 :: (s.port r).bins).take 64).sum 10000) 65535 ∧
      onlyIn [.regs, .rad] s t ∧ keepsRegs [radDutyUsed r] s t := by
  have hport := s.binShown_port r
  exact answers_of_out h rfl rfl ⟨congrArg RadPort.bins hport, congrArg RadPort.budget hport, congrArg RadPort.dwell hport,
    State.get_setSat _ (radDutyUsed_USED r) _ (by decide : 0 ≤ 15) (by decide : 15 < 32),
    onlyIn_trans (onlyIn_mono (s.setPort_only r _) (by decide)) (State.set_only _ (radDutyUsed_USED r) _ _ (by decide)),
    keepsRegs_trans (keepsRegs_of_eq _ rfl) (State.set_regs _ (radDutyUsed_USED r) _)⟩

/-- Without a frame that the budget has deferred, in the lane, at the head or as a cover, nothing is judged again (R194). -/
theorem State.recheck_idle {s : State} {r air q : Nat} (hq : roleQ s.man.roles.radLaunch r = some q) (hl : (s.q q).lane = [])
    (hh : s.headDeferred q = false) (hc : (s.port r).cover = none) : s.recheck r air = s := by
  have hmain : s.recheckMain q air = s := by
    unfold State.recheckMain
    unfold State.headDeferred at hh
    split
    · rfl
    · next it hit =>
      rw [hit] at hh
      simp only [hh, Bool.not_false, if_true]
  simp only [State.recheck, hq, hl, hmain, hc]

theorem dutyBinBoundary_undeferred (s : State) (r air q : Nat) (hq : roleQ s.man.roles.radLaunch r = some q) (hl : (s.q q).lane = [])
    (hh : s.headDeferred q = false) (hc : (s.port r).cover = none) :
    exec (.dutyBinBoundary r air) s = s.out (s.binShown r) := by
  have hcover : ((s.binShown r).port r).cover = none := (congrArg RadPort.cover (s.binShown_port r)).trans hc
  rw [exec_dutyBinBoundary, State.recheck_idle (s := s.binShown r) hq hl hh hcover, ite_self]

theorem dutyBinBoundary_warned (s : State) (r air : Nat) (hr : r < 2) (hw : s.warned = true) :
    exec (.dutyBinBoundary r air) s = s.out (s.binShown r) := by
  have hwarned : (s.binShown r).warned = true := by
    have hreg : (s.binShown r).reg pwrStat = s.reg pwrStat := by
      refine State.set_regs (s.binBegun r) (radDutyUsed_USED r) _ _ ?_
      simp only [radDutyUsed_USED, radDutyUsed, pwrStat, List.mem_singleton]
      omega
    rw [← hw, State.warned, State.flag, State.get_congr (f := pwrStat_WARN) hreg]
    rfl
  rw [exec_dutyBinBoundary, if_pos hwarned]

theorem spiTimeout_answers (s : State) (r : Nat) :
    answers (.spiTimeout r) s fun t =>
      t.fry = (s.raise (128 + 16 * r + 10)).fry ∧ t.oar = (s.raise (128 + 16 * r + 10)).oar ∧ onlyIn evtParts s t :=
  answers_of_out (u := s.raise (128 + 16 * r + 10)) rfl (s.raise_pending _) (s.raise_fuses _) ⟨rfl, rfl, s.raise_only _⟩

/-- Settles O20, a lemma for each clause. -/
theorem radioFramesAndDutyAccount : Obligations.RadioFramesAndDutyAccount :=
  ⟨fun s r x _ => radioFrameReceived_filtered s r x, fun s r x j _ => radioFrameReceived_acknowledged s r x j,
    fun s r air e e1 a st x hr ht hh hf _ => dataRequest_answers s r air e e1 a st x hr ht hh hf,
    fun s r a j _ => indirectItemUnacked_answers s r a j, fun s r x j _ => radioTransmitComplete_answers s r x j,
    fun s r air q _ hq hl hh hc => dutyBinBoundary_shown (dutyBinBoundary_undeferred s r air q hq hl hh hc),
    fun s r air hr hw => dutyBinBoundary_shown (dutyBinBoundary_warned s r air hr hw), fun s r _ => spiTimeout_answers s r⟩

end Sys2Proof.Machine

/-! ## 06_radio.md: covers, the pending table -/

namespace Sys2Proof.Machine

/-! ### COVER_PLAN -/

/-- The Cover procedure looks at the clock and the registers alone (R190). -/
theorem State.coverOf_congr {s t : State} (hclk : t.clk = s.clk) (hregs : t.regs = s.regs) (r : Nat) (m : Sleepy) :
    t.coverOf r m = s.coverOf r m := by
  have hget (f : Fld) : t.get f = s.get f := State.get_congr (by rw [State.reg, State.reg, hregs])
  unfold State.coverOf
  rw [hclk, hget, hget, hget]

theorem State.planCover_port (s : State) (r a : Nat) (m : Sleepy) (txn iseq : Nat) :
    ∃ c : Cover, (s.planCover r a m txn iseq).port r = { s.port r with cover := some c } ∧ c.addr = a ∧ c.iseq = iseq ∧ c.txn = txn ∧
      (c.start, c.len, c.whole) = s.coverOf r m :=
  ⟨_, s.port_setPort_same r _, rfl, rfl, rfl, rfl⟩

/-- Work that was granted no entry before takes the free one that its issuer may take (R280). -/
theorem State.txnFor_free {s : State} {key issuer e : Nat} (hg : smGet none s.txn.granted key = none) (hcan : s.txnCan issuer = true)
    (hfree : s.txnFree = some e) {t : Txn} (ht : t.issuer = issuer) : s.txnFor key t = some (e, s.txnGive e t) := by
  rw [State.txnFor, State.takeGranted, hg, Option.map_none, State.txnTake, ht, if_pos hcan, hfree, Option.map_some]

theorem coverPlan_answers (s : State) (r a q e : Nat) (it : Item) (n : RNode) (m : Sleepy) (hw : s.warned = false) (hn : s.rnode r a = some n)
    (hq : roleQ s.man.roles.radIndirect r = some q) (hm : n.sleepy = some m) (hp : n.parent = 0) (hc : (s.port r).cover = none)
    (htries : m.tries < 3) (hit : s.coverItem q a m = some it) (hg : smGet none s.txn.granted (8 + r) = none)
    (hcan : s.txnCan (4 + r) = true) (hfree : s.txnFree = some e) :
    answers (.coverPlan r a) s fun t => ∃ c, (t.port r).cover = some c ∧ c.addr = a ∧ c.iseq = it.iseq ∧ c.txn = e ∧
      (c.start, c.len, c.whole) = s.coverOf r m := by
  obtain ⟨x, hexec⟩ : ∃ x, exec (.coverPlan r a) s = s.out ((s.txnGive e x).planCover r a m e it.iseq) := by
    simp only [exec, execCoverPlan, hw, Bool.false_eq_true, if_false, State.coverPlan, hn, hq, hm, Option.bind_some, hit, Option.map_some,
      hp, ne_eq, not_true_eq_false, hc, Option.isSome_none, false_or, Nat.not_le.mpr htries, State.txnFor_free hg hcan hfree]
    exact ⟨_, rfl⟩
  obtain ⟨c, hport, haddr, hiseq, htxn, hplan⟩ := (s.txnGive e x).planCover_port r a m e it.iseq
  exact answers_of_out_congr hexec ⟨c, congrArg RadPort.cover hport, haddr, hiseq, htxn, hplan.trans (State.coverOf_congr (s := s) rfl rfl r m)⟩

/-! ### COVER_UNACKED -/

/-- The endpoint of a cover that failed, its guard doubled (R192). -/
def State.coverCounted (s : State) (r : Nat) (c : Cover) (n : RNode) (m : Sleepy) : State :=
  s.setRnode r c.addr (some { n with sleepy := some { m with tries := m.tries + 1 } })

/-- Before the third failure the cover is planned again (R192). -/
theorem State.coverFailed_again {s : State} {r : Nat} {c : Cover} {n : RNode} {m : Sleepy} (hn : s.rnode r c.addr = some n)
    (hm : n.sleepy = some m) (h : m.tries < 2) :
    s.coverFailed r c = (s.coverCounted r c n m).planCover r c.addr { m with tries := m.tries + 1 } c.txn c.iseq := by
  simp only [State.coverFailed, hn, hm, if_neg (show ¬ 3 ≤ m.tries + 1 by omega)]
  rfl

/-- The third failure ends the attempts: the port has no cover (R192). -/
theorem State.coverFailed_third {s : State} {r : Nat} {c : Cover} {n : RNode} {m : Sleepy} (hn : s.rnode r c.addr = some n)
    (hm : n.sleepy = some m) (h : 2 ≤ m.tries) :
    (s.coverFailed r c).port r = { (s.coverCounted r c n m).port r with cover := none } := by
  simp only [State.coverFailed, hn, hm, if_pos (show 3 ≤ m.tries + 1 by omega), ← State.coverCounted.eq_def]
  generalize s.coverCounted r c n m = u
  have hrelease := (u.setPort r { u.port r with cover := none }).txnRelease_only c.txn .rad (by decide)
  rw [State.port_congr (State.raise_rad _ _)]
  split
  · rw [State.port_congr (State.setNode_only _ _ _ _ .rad (by decide)), State.port_congr hrelease, State.port_setPort_same]
  · rw [State.port_congr hrelease, State.port_setPort_same]

/-- A cover's frame that failed has left, and the port has no frame (R174, R191, R192). -/
theorem exec_coverUnacked {s : State} {r : Nat} {c : Cover} (hc : (s.port r).cover = some c) :
    ∃ u : State, exec (.coverUnacked r) s = s.out (u.coverFailed r c) ∧ u.clk = s.clk ∧ u.regs = s.regs ∧
      u.rnode r c.addr = s.rnode r c.addr := by
  simp only [exec, execCoverUnacked, hc]
  split
  · next j hj =>
    refine ⟨_, rfl, ?_⟩
    have hsend := s.radSend_only r j
    split
    · refine ⟨hsend .clk (by decide), hsend .regs (by decide), ?_⟩
      rw [State.rnode, State.radDone, State.port_setPort_same]
      exact State.rnode_congr (hsend .rad (by decide)) r c.addr
    · exact ⟨rfl, rfl, rfl⟩
  · exact ⟨s, rfl, rfl, rfl, rfl⟩

theorem coverUnacked_answers (s : State) (r : Nat) (c : Cover) (n : RNode) (m : Sleepy) (hc : (s.port r).cover = some c)
    (hn : s.rnode r c.addr = some n) (hm : n.sleepy = some m) :
    answers (.coverUnacked r) s fun t =>
      (∃ k, t.rnode r c.addr = some k ∧ k.sleepy = some { m with tries := m.tries + 1 }) ∧
      (t.port r).cover.isNone = decide (2 ≤ m.tries) ∧
      (m.tries < 2 → ∃ d, (t.port r).cover = some d ∧ d.addr = c.addr ∧ d.txn = c.txn ∧
        (d.start, d.len, d.whole) = s.coverOf r { m with tries := m.tries + 1 }) := by
  obtain ⟨u, hexec, hclk, hregs, hrnode⟩ := exec_coverUnacked hc
  rw [hn] at hrnode
  have hcounted : (u.coverCounted r c n m).rnode r c.addr = some { n with sleepy := some { m with tries := m.tries + 1 } } :=
    u.rnode_setRnode_same r c.addr _
  rcases Nat.lt_or_ge m.tries 2 with h | h
  · rw [State.coverFailed_again hrnode hm h] at hexec
    obtain ⟨d, hport, haddr, -, htxn, hplan⟩ :=
      (u.coverCounted r c n m).planCover_port r c.addr { m with tries := m.tries + 1 } c.txn c.iseq
    refine answers_of_out_congr hexec ⟨⟨_, (congrArg (fun x : RadPort => smGet none x.nodes c.addr) hport).trans hcounted, rfl⟩, ?_,
      fun _ => ⟨d, congrArg RadPort.cover hport, haddr, htxn, hplan.trans (State.coverOf_congr (s := s) hclk hregs r _)⟩⟩
    rw [decide_eq_false (Nat.not_le.mpr h)]
    exact congrArg (fun x : RadPort => x.cover.isNone) hport
  · have hport := State.coverFailed_third hrnode hm h
    refine answers_of_out_congr hexec ⟨⟨_, (congrArg (fun x : RadPort => smGet none x.nodes c.addr) hport).trans hcounted, rfl⟩, ?_,
      fun hlt => absurd hlt (Nat.not_lt.mpr h)⟩
    rw [decide_eq_true h]
    exact congrArg (fun x : RadPort => x.cover.isNone) hport

/-! ### RAD_PEND_CTRL, RAD_ERR -/

/-- RAD_PEND_CTRL: OP is write only, ADDR is read and written; one copy for every interface. -/
theorem radPendCtrl_place : ∀ r, r < 2 →
    regDesc? (radPendCtrl r) = some ⟨0x400010, [(2, 0x1000)], [⟨31, 30, .wo⟩, ⟨15, 0, .rw⟩]⟩ ∧
    ownByIface (radPendCtrl r) = false ∧ windowed (radPendCtrl r) = none ∧ radPendCtrl r ≠ oarCtrl 12 ∧ radPendCtrl r ≠ oarCtrl 13 := by
  decide +kernel

/-- RAD_ERR: CLR is write only, the counts are read only; one copy for every interface. -/
theorem radErr_place : ∀ r, r < 2 →
    regDesc? (radErr r) = some ⟨0x400040, [(2, 0x1000)], [⟨31, 31, .wo⟩, ⟨30, 16, .ro⟩, ⟨15, 0, .ro⟩]⟩ ∧
    ownByIface (radErr r) = false ∧ windowed (radErr r) = none ∧ radErr r ≠ oarCtrl 12 ∧ radErr r ≠ oarCtrl 13 := by
  decide +kernel

/-- A granted write of RAD_PEND_CTRL stores there, then acts (R17, R185). -/
theorem writeGate_radPendCtrl {s : State} {i : Iface} {r : Nat} (v : Word) (act : State → State) (hr : r < 2)
    (hm : s.mayAccess i (radPendCtrl r) true = true) :
    ∃ w, s.writeGate i (radPendCtrl r) v act = act (s.setReg (radPendCtrl r) w) := by
  obtain ⟨hd, hown, hwin, hoar⟩ := radPendCtrl_place r hr
  exact ⟨_, by rw [State.writeGate_granted _ _ _ _ _ hm, s.storeWord_plain i v hd hown hwin hoar (by decide)]⟩

/-- A word of RAD_PEND_CTRL gives back the address and the operation that it was made of. -/
theorem pendWord_fields {op a : Nat} (hop : op < 4) (ha : a < 65536) : bitsOf (pendWord op a) 15 0 = a ∧ bitsOf (pendWord op a) 31 30 = op := by
  simp only [bitsOf, pendWord, BitVec.toNat_ofNat, Nat.shiftRight_eq_div_pow]
  omega

theorem State.pendOp_set (s : State) (r : Nat) {a : Nat} (h1 : 1 ≤ a) (h2 : a ≤ 0x800) :
    s.pendOp r (pendWord 1 a) = s.setPort r { s.port r with force := addMem (s.port r).force a } := by
  obtain ⟨haddr, hop⟩ := pendWord_fields (op := 1) (a := a) (by decide) (by omega)
  simp only [State.pendOp, haddr, hop, if_neg (show ¬ (a = 0 ∨ 0x800 < a) by omega), if_true]

theorem State.pendOp_clear (s : State) (r : Nat) {a : Nat} (h1 : 1 ≤ a) (h2 : a ≤ 0x800) :
    s.pendOp r (pendWord 2 a) = s.setPort r { s.port r with force := dropMem (s.port r).force a } := by
  obtain ⟨haddr, hop⟩ := pendWord_fields (op := 2) (a := a) (by decide) (by omega)
  simp only [State.pendOp, haddr, hop, if_neg (show ¬ (a = 0 ∨ 0x800 < a) by omega), OfNat.ofNat_ne_one, if_true, if_false]

theorem State.pendOp_query (s : State) (r : Nat) {a : Nat} (h1 : 1 ≤ a) (h2 : a ≤ 0x800) :
    ∃ n, s.pendOp r (pendWord 3 a) = ((s.set (radPendStat_FORCE r) (ofBool (decide (a ∈ (s.port r).force)))).set (radPendStat_PENDING r)
      (ofBool (s.pendingBit r a))).set (radPendStat_COUNT r) n := by
  obtain ⟨haddr, hop⟩ := pendWord_fields (op := 3) (a := a) (by decide) (by omega)
  simp only [State.pendOp, haddr, hop, if_neg (show ¬ (a = 0 ∨ 0x800 < a) by omega), OfNat.ofNat_ne_one,
    (by decide : (3 : Nat) ≠ 2), if_true, if_false]
  exact ⟨_, rfl⟩

theorem mem_addMem {α : Type} [DecidableEq α] (l : List α) (x y : α) : y ∈ addMem l x ↔ y = x ∨ y ∈ l := by
  unfold addMem
  split
  · next h => exact ⟨.inr, fun k => k.elim (fun e => e ▸ h) id⟩
  · rw [List.mem_append, List.mem_singleton, or_comm]

theorem mem_dropMem {α : Type} [DecidableEq α] (l : List α) (x y : α) : y ∈ dropMem l x ↔ y ≠ x ∧ y ∈ l := by
  rw [dropMem, List.mem_filter, decide_eq_true_eq, and_comm]

/-- A granted operation that changes FORCE alone stores in RAD_PEND_CTRL and reaches the port (R185). -/
theorem pendForce_answers {c : Instr} {s : State} {i : Iface} {r : Nat} {v : Word} {f : List Nat → List Nat} (P : List Nat → Prop) (hr : r < 2)
    (hm : s.mayAccess i (radPendCtrl r) true = true) (hexec : exec c s = s.out (s.writeGate i (radPendCtrl r) v fun u => u.pendOp r v))
    (hop : ∀ u : State, u.pendOp r v = u.setPort r { u.port r with force := f (u.port r).force }) (hP : P (f (s.port r).force)) :
    answers c s fun t => P (t.port r).force ∧ onlyIn [.regs, .rad] s t ∧ keepsRegs [radPendCtrl r] s t := by
  obtain ⟨w, hw⟩ := writeGate_radPendCtrl v (fun u => u.pendOp r v) hr hm
  rw [hw, hop] at hexec
  have hport := (s.setReg (radPendCtrl r) w).port_setPort_same r { s.port r with force := f (s.port r).force }
  refine answers_of_out hexec rfl rfl ⟨?_, ?_, ?_⟩
  · exact (congrArg (fun x : RadPort => P x.force) hport).mpr hP
  · exact onlyIn_trans (s.setReg_only _ w _ (by decide)) (onlyIn_mono (State.setPort_only _ r _) (by decide))
  · exact keepsRegs_trans (s.setReg_regs _ w) (keepsRegs_of_eq _ rfl)

theorem pendForceSet_answers (s : State) (i : Iface) (r a : Nat) (hr : r < 2) (h1 : 1 ≤ a) (h2 : a ≤ 0x800)
    (hm : s.mayAccess i (radPendCtrl r) true = true) :
    answers (.pendForceSet i r a) s fun t =>
      (∀ b ∈ List.range 2049, b ∈ (t.port r).force ↔ b = a ∨ b ∈ (s.port r).force) ∧ onlyIn [.regs, .rad] s t ∧
      keepsRegs [radPendCtrl r] s t :=
  pendForce_answers (v := pendWord 1 a) (f := fun l => addMem l a) (fun l => ∀ b ∈ List.range 2049, b ∈ l ↔ b = a ∨ b ∈ (s.port r).force)
    hr hm (by simp only [exec, execPendForceSet, if_pos hr]) (fun u => u.pendOp_set r h1 h2) fun b _ => mem_addMem _ a b

theorem pendForceClear_answers (s : State) (i : Iface) (r a : Nat) (hr : r < 2) (h1 : 1 ≤ a) (h2 : a ≤ 0x800)
    (hm : s.mayAccess i (radPendCtrl r) true = true) :
    answers (.pendForceClear i r a) s fun t =>
      (∀ b ∈ List.range 2049, b ∈ (t.port r).force ↔ b ≠ a ∧ b ∈ (s.port r).force) ∧ onlyIn [.regs, .rad] s t ∧
      keepsRegs [radPendCtrl r] s t :=
  pendForce_answers (v := pendWord 2 a) (f := fun l => dropMem l a) (fun l => ∀ b ∈ List.range 2049, b ∈ l ↔ b ≠ a ∧ b ∈ (s.port r).force)
    hr hm (by simp only [exec, execPendForceClear, if_pos hr]) (fun u => u.pendOp_clear r h1 h2) fun b _ => mem_dropMem _ a b

/-- The pending bit of an address depends on the roles, the queues and the radio ports (R185). -/
theorem State.pendingBit_congr {s t : State} (hman : t.man = s.man) (hwhf : t.whf = s.whf) (hrad : t.rad = s.rad) (r a : Nat) :
    t.pendingBit r a = s.pendingBit r a := by
  simp only [State.pendingBit, State.indirectIdx, hman, State.q_congr hwhf, State.port_congr hrad]

theorem ofBool_mod_two (b : Bool) : ofBool b % 2 = ofBool b := by cases b <;> rfl

theorem pendQuery_answers (s : State) (i : Iface) (r a : Nat) (hr : r < 2) (h1 : 1 ≤ a) (h2 : a ≤ 0x800)
    (hm : s.mayAccess i (radPendCtrl r) true = true) :
    answers (.pendQuery i r a) s fun t =>
      t.get (radPendStat_FORCE r) = ofBool (decide (a ∈ (s.port r).force)) ∧
      t.get (radPendStat_PENDING r) = ofBool (s.pendingBit r a) ∧ onlyIn [.regs] s t ∧
      keepsRegs [radPendCtrl r, radPendStat r] s t := by
  obtain ⟨w, hw⟩ := writeGate_radPendCtrl (pendWord 3 a) (fun s => s.pendOp r (pendWord 3 a)) hr hm
  obtain ⟨n, hn⟩ := (s.setReg (radPendCtrl r) w).pendOp_query r h1 h2
  rw [State.port_congr (s.setReg_rad _ w), State.pendingBit_congr (s.setReg_man _ w) (s.setReg_whf _ w) (s.setReg_rad _ w)] at hn
  have hexec : exec (.pendQuery i r a) s = s.out ((((s.setReg (radPendCtrl r) w).set (radPendStat_FORCE r)
      (ofBool (decide (a ∈ (s.port r).force)))).set (radPendStat_PENDING r) (ofBool (s.pendingBit r a))).set (radPendStat_COUNT r) n) := by
    simp only [exec, execPendQuery, if_pos hr, hw, hn]
  -- COUNT lies below FORCE and PENDING.
  have hcount (u : State) {f : Fld} (hf : 11 < f.lo) : (u.set (radPendStat_COUNT r) n).get f = u.get f :=
    State.get_set_other u (radPendStat_COUNT r) f n (by decide : 0 ≤ 11) (by decide : 11 < 32) (.inr (.inr hf))
  refine answers_of_out hexec rfl rfl ⟨?_, ?_, ?_, ?_⟩
  · rw [hcount _ (by decide : 11 < 17), State.get_set_other _ (radPendStat_PENDING r) (radPendStat_FORCE r) _ (by decide : 16 ≤ 16)
      (by decide : 16 < 32) (.inr (.inr (by decide : 16 < 17))), State.get_set _ (radPendStat_FORCE r) _ (by decide : 17 ≤ 17)
      (by decide : 17 < 32)]
    exact ofBool_mod_two _
  · rw [hcount _ (by decide : 11 < 16), State.get_set _ (radPendStat_PENDING r) _ (by decide : 16 ≤ 16) (by decide : 16 < 32)]
    exact ofBool_mod_two _
  · exact onlyIn_trans (s.setReg_only _ w _ (by decide)) (onlyIn_trans (State.set_only _ _ _ _ (by decide))
      (onlyIn_trans (State.set_only _ _ _ _ (by decide)) (State.set_only _ _ _ _ (by decide))))
  · have hstat (u : State) (f : Fld) (hf : f.addr = radPendStat r) (v : Nat) : keepsRegs [radPendCtrl r, radPendStat r] u (u.set f v) :=
      keepsRegs_mono (u.set_regs f v) (by simp [hf])
    exact keepsRegs_trans (keepsRegs_mono (s.setReg_regs _ w) (by simp)) (keepsRegs_trans (hstat _ _ rfl _)
      (keepsRegs_trans (hstat _ _ rfl _) (hstat _ _ rfl _)))

theorem radErrClear_answers (s : State) (i : Iface) (r : Nat) (hr : r < 2) (hm : s.mayAccess i (radErr r) true = true) :
    answers (.radErrClear i r) s fun t =>
      t.get (radErr_SECFAIL r) = 0 ∧ t.get (radErr_FILTERED r) = 0 ∧ onlyIn [.regs] s t ∧ keepsRegs [radErr r] s t := by
  obtain ⟨hd, hown, hwin, hoar⟩ := radErr_place r hr
  obtain ⟨w, hw⟩ : ∃ w, s.storeWord i (radErr r) 0x80000000 = s.setReg (radErr r) w :=
    ⟨_, s.storeWord_plain i _ hd hown hwin hoar (by decide)⟩
  have hexec : exec (.radErrClear i r) s = s.out (((s.setReg (radErr r) w).set (radErr_SECFAIL r) 0).set (radErr_FILTERED r) 0) := by
    simp only [exec, execRadErrClear, if_pos hr, State.writeGate_granted _ _ _ _ _ hm, hw]
    rfl
  refine answers_of_out hexec rfl rfl ⟨?_, ?_, ?_, ?_⟩
  · exact (State.get_set_other _ (radErr_FILTERED r) (radErr_SECFAIL r) 0 (by decide : 0 ≤ 15) (by decide : 15 < 32)
      (.inr (.inr (by decide : 15 < 16)))).trans (State.get_set _ (radErr_SECFAIL r) 0 (by decide : 16 ≤ 30) (by decide : 30 < 32))
  · exact State.get_set _ (radErr_FILTERED r) 0 (by decide : 0 ≤ 15) (by decide : 15 < 32)
  · exact onlyIn_trans (s.setReg_only _ _ _ (by decide)) (onlyIn_trans (State.set_only _ _ _ _ (by decide)) (State.set_only _ _ _ _ (by decide)))
  · exact keepsRegs_trans (s.setReg_regs _ _) (keepsRegs_trans (State.set_regs _ (radErr_SECFAIL r) 0) (State.set_regs _ (radErr_FILTERED r) 0))

/-- Settles O22, a lemma for each clause. -/
theorem coversAndPendingTable : Obligations.CoversAndPendingTable :=
  ⟨fun s r a q e it n m _ => coverPlan_answers s r a q e it n m, fun s r c n m _ => coverUnacked_answers s r c n m,
    pendForceSet_answers, pendForceClear_answers, pendQuery_answers, radErrClear_answers⟩

end Sys2Proof.Machine

/-! ## 07_ethernet_gangway.md: attachment and the timers of the peers -/

namespace Sys2Proof.Machine

/-! ### Peers -/

theorem State.peer_congr {s t : State} (h : t.gwy = s.gwy) (p : Nat) : t.peer p = s.peer p := by rw [State.peer, State.peer, h]

@[simp] theorem State.raise_peer (s : State) (e p : Nat) : (s.raise e).peer p = s.peer p := State.peer_congr (s.raise_gwy e) p

/-- The generation and the EUI-64 of a peer decide whether a message to it can be tagged (R215, R216). -/
theorem State.gwyKeyed_setPeer (s : State) {p : Nat} {x : Peer} (he : x.eui = (s.peer p).eui) (hk : x.keygen = (s.peer p).keygen) :
    (s.setPeer p x).gwyKeyed p = s.gwyKeyed p := by
  have hgen : (s.setPeer p x).genFor p = s.genFor p := by
    simp only [State.genFor, State.peer_setPeer_same, hk]
    rfl
  have hfamily : (s.setPeer p x).peerFamily p = s.peerFamily p := by
    simp only [State.peerFamily, State.peer_setPeer_same, he]
    rfl
  rw [State.gwyKeyed, State.peerKey, hgen, hfamily]
  rfl

/-! ### Messages put on the launch queue -/

theorem State.gwyPut_queueWork (s : State) (p : Nat) (launch : DWord) (bytes : List Byte) : queueWork s (s.gwyPut p launch bytes) := by
  unfold State.gwyPut
  split
  · exact s.produce_queueWork _ _ _
  · exact .refl

@[simp] theorem State.gwyPut_gwy (s : State) (p : Nat) (launch : DWord) (bytes : List Byte) : (s.gwyPut p launch bytes).gwy = s.gwy :=
  (s.gwyPut_queueWork p launch bytes).only .gwy (by decide)

@[simp] theorem State.gwyPut_peer (s : State) (p : Nat) (launch : DWord) (bytes : List Byte) (k : Nat) :
    (s.gwyPut p launch bytes).peer k = s.peer k := State.peer_congr (s.gwyPut_gwy p launch bytes) k

/-- Header and tag are 44 bytes (R215). -/
@[simp] theorem State.gwyBytes_length (s : State) (p typ flags seq : Nat) (body : List Byte) :
    (s.gwyBytes p typ flags seq body).length = 44 + body.length := by
  simp [State.gwyBytes]
  omega

/-- With nothing armed a message with room joins the launch queue at the tail (R390). -/
theorem State.gwyPut_tail {s : State} {q : Nat} (p : Nat) (launch : DWord) (bytes : List Byte) (hq : s.gwyQueue = some q)
    (hu : s.qUsed q = true) (he : s.tst.entries = []) (hw : (s.q q).waiters = []) (hr : (bytes.length + 7) / 8 + 4 ≤ s.qFree q) :
    ((s.gwyPut p launch bytes).q q).tail = ((s.q q).tail + 1) % 2 ^ 32 := by
  rw [State.gwyPut, hq]
  exact (State.produce_q _ he hu hw (le_trans (by simp [Item.words, State.wordItem, mkItem]) hr)).2

/-! ### What messages leave of an attachment -/

/-- What a peer is attached with (R8, R217): its EUI-64, domain, key generation and cell numbers. -/
def Peer.attachment (x : Peer) : Nat × Nat × Nat × List Nat := (x.eui, x.domain, x.keygen, x.cells)

/-- From `s` to `t` this chip's attachment stays as it is, and so do what peer p is attached with and that it is up. -/
structure staysAttached (p : Nat) (s t : State) : Prop where
  attach : t.gwy.attach = s.gwy.attach
  chip : t.gwy.chip = s.gwy.chip
  up : (s.peer p).up = true → (t.peer p).up = true
  peer : (t.peer p).attachment = (s.peer p).attachment

theorem staysAttached.of_gwy {s t : State} (p : Nat) (h : t.gwy = s.gwy) : staysAttached p s t := by
  have hpeer := State.peer_congr h p
  exact ⟨by rw [h], by rw [h], by rw [hpeer]; exact id, by rw [hpeer]⟩

theorem staysAttached.refl {p : Nat} {s : State} : staysAttached p s s := .of_gwy p rfl

theorem staysAttached.trans {p : Nat} {s t u : State} (h : staysAttached p s t) (k : staysAttached p t u) : staysAttached p s u :=
  ⟨k.attach.trans h.attach, k.chip.trans h.chip, k.up ∘ h.up, k.peer.trans h.peer⟩

theorem State.setPeer_staysAttached (s : State) {p : Nat} (x : Peer) (hu : (s.peer p).up = true → x.up = true)
    (h : x.attachment = (s.peer p).attachment) : staysAttached p s (s.setPeer p x) := by
  refine ⟨rfl, rfl, ?_, ?_⟩ <;> rw [State.peer_setPeer_same] <;> assumption

theorem State.raise_staysAttached (s : State) (p e : Nat) : staysAttached p s (s.raise e) := .of_gwy p (s.raise_gwy e)

theorem State.gwyPut_staysAttached (s : State) (p : Nat) (launch : DWord) (bytes : List Byte) :
    staysAttached p s (s.gwyPut p launch bytes) := .of_gwy p (s.gwyPut_gwy p launch bytes)

theorem State.gwySend_staysAttached (s : State) (p typ : Nat) (body : List Byte) (batch : Option Nat) :
    staysAttached p s (s.gwySend p typ body batch) :=
  .trans (s.setPeer_staysAttached _ (by exact id) (by rfl)) (State.gwyPut_staysAttached _ _ _ _)

theorem State.gwyDrain_staysAttached (fuel : Nat) (s : State) (p : Nat) : staysAttached p s (State.gwyDrain fuel s p) := by
  induction fuel generalizing s with
  | zero => exact .refl
  | succ fuel ih =>
    unfold State.gwyDrain
    simp only
    split
    · exact .refl
    · split
      · exact .refl
      · refine .trans (.trans (s.setPeer_staysAttached _ ?_ ?_) (State.gwySend_staysAttached _ _ _ _ _)) (ih _)
        · exact id
        · rfl

theorem State.gwyUnreliable_staysAttached (s : State) (p typ : Nat) (launch : DWord) (body : List Byte) :
    staysAttached p s (s.gwyUnreliable p typ launch body) := by
  unfold State.gwyUnreliable
  split
  · exact .refl
  · exact .trans (s.setPeer_staysAttached _ (by exact id) (by rfl)) (State.gwyPut_staysAttached _ _ _ _)

theorem State.gwyAck_staysAttached (s : State) (p : Nat) : staysAttached p s (s.gwyAck p) :=
  .trans (s.setPeer_staysAttached _ (by exact id) (by rfl)) (State.gwyUnreliable_staysAttached _ _ _ _ _)

theorem Peer.accept_up (x : Peer) (seq : Nat) : (x.accept seq).up = x.up := by
  unfold Peer.accept
  rfl

theorem Peer.accept_attachment (x : Peer) (seq : Nat) : (x.accept seq).attachment = x.attachment := by
  unfold Peer.accept
  rfl

theorem State.gwyArrive_staysAttached (s : State) (p : Nat) (b : List Byte) : staysAttached p s (s.gwyArrive p b).2 := by
  have hheard : staysAttached p s (s.setPeer p { s.peer p with heard := s.clk.mono }) :=
    s.setPeer_staysAttached _ (by exact id) (by rfl)
  have hpeer (v : State) (x : Peer) (hu : x.up = (v.peer p).up) (hx : x.attachment = (v.peer p).attachment) :
      staysAttached p v (v.setPeer p x) := v.setPeer_staysAttached x (by rw [hu]; exact id) hx
  by_cases hr : natBit (beAt b 2 1) 0 = true
  · rcases hj : (s.peer p).judge (beAt b 8 4) with _ | _ | k <;> simp only [State.gwyArrive, hr, hj, if_true]
    · exact hheard.trans (hpeer _ _ (Peer.accept_up _ _) (Peer.accept_attachment _ _))
    · exact ((hheard.trans (hpeer _ _ (by rfl) (by rfl))).trans (State.raise_staysAttached _ p 173)).trans
        (State.gwyAck_staysAttached _ p)
    · exact hheard
  · simp only [State.gwyArrive, hr, if_false, Bool.false_eq_true]
    exact iteInduction (motive := staysAttached p s) (fun _ => hheard.trans (hpeer _ _ (by rfl) (by rfl))) fun _ => hheard

theorem State.gwyUp_staysAttached (s : State) (p : Nat) : staysAttached p s (s.gwyUp p) := by
  unfold State.gwyUp
  split
  · exact .refl
  · exact .trans (s.setPeer_staysAttached _ (by exact fun _ => rfl) (by rfl)) (State.raise_staysAttached _ p 170)

theorem State.gwyUp_up (s : State) (p : Nat) : ((s.gwyUp p).peer p).up = true := by
  unfold State.gwyUp
  split
  · assumption
  · rw [State.raise_peer, State.peer_setPeer_same]

/-! ### ATTACH at a hub -/

/-- A chip whose ATTACH is accepted is up with what its enrolment and its message give it (R8, R217, R218). -/
theorem State.acceptAttach_peer (s : State) (c : ChipEnrol) (gen first : Nat) (cells : List Nat) :
    ((s.acceptAttach c gen first cells).peer (s.chipFor c.eui)).up = true ∧
      ((s.acceptAttach c gen first cells).peer (s.chipFor c.eui)).eui = c.eui ∧
      ((s.acceptAttach c gen first cells).peer (s.chipFor c.eui)).domain = c.domain ∧
      ((s.acceptAttach c gen first cells).peer (s.chipFor c.eui)).keygen = gen ∧
      ((s.acceptAttach c gen first cells).peer (s.chipFor c.eui)).cells = cells := by
  unfold State.acceptAttach
  simp only
  generalize s.chipFor c.eui = p
  generalize hx : ({ (s.peer p).restart first with eui := c.eui, keygen := gen, domain := c.domain, cells := cells } : Peer) = x
  generalize hv : ((s.setPeer p x).raise 167).gwyUp p = v
  have hcame : staysAttached p (s.setPeer p x) v := hv ▸ (State.raise_staysAttached _ p 167).trans (State.gwyUp_staysAttached _ p)
  have hup : (v.peer p).up = true := hv ▸ State.gwyUp_up _ p
  have hsent := (v.gwySend_staysAttached p 2 (attachAnswer 0 c.domain p cells (v.peer p).relNext) none).trans
    (State.gwyDrain_staysAttached 64 _ p)
  have hgiven := (hcame.trans hsent).peer
  rw [State.peer_setPeer_same, ← hx] at hgiven
  simp only [Peer.attachment, Prod.mk.injEq] at hgiven
  obtain ⟨heui, hdomain, hkeygen, hcells⟩ := hgiven
  exact ⟨hsent.up hup, heui, hdomain, hkeygen, hcells⟩

theorem attachReceived_answers (s : State) (b k : List Byte) (c : ChipEnrol) (hh : s.isHub = true) (hw : s.warned = false)
    (hc : s.chipEnrol (beAt (gwyBody b) 0 8) = some c) (he : c.eui = beAt (gwyBody b) 0 8)
    (hk : s.familyKey c.linkKey (beAt b 3 1) 0 = some k) (hv : s.gwyCheck b (some k) true = none)
    (hf : beAt (gwyBody b) 8 8 = c.fingerprint)
    (hn : beAt (gwyBody b) 16 1 ≤ (s.attachCells c.eui (beAt (gwyBody b) 16 1)).length) :
    answers (.attachReceived b) s fun t =>
      (t.peer (s.chipFor c.eui)).up = true ∧ (t.peer (s.chipFor c.eui)).eui = c.eui ∧
      (t.peer (s.chipFor c.eui)).domain = c.domain ∧ (t.peer (s.chipFor c.eui)).keygen = beAt b 3 1 ∧
      (t.peer (s.chipFor c.eui)).cells = s.attachCells c.eui (beAt (gwyBody b) 16 1) := by
  have hexec : exec (.attachReceived b) s =
      s.out (s.acceptAttach c (beAt b 3 1) (beAt (gwyBody b) 20 4) (s.attachCells c.eui (beAt (gwyBody b) 16 1))) := by
    rw [he] at hn
    simp [exec, execAttachReceived, hh, hw, hc, hk, hv, hf, he, Nat.not_lt.mpr hn]
  exact answers_of_out_congr hexec (s.acceptAttach_peer c _ _ _)

/-! ### ATTACH_ANSWER -/

/-- An accepted chip's attachment is over, it has its number, and its hub is up (R8, R217, R218). -/
theorem State.attachDone_spec (s : State) (b : List Byte) : (s.attachDone b).gwy.attach = 0 ∧
    (s.attachDone b).gwy.chip = beAt (gwyBody b) 2 2 ∧ ((s.attachDone b).peer 0).up = true := by
  obtain ⟨u, hattach, hchip, hu⟩ : ∃ u : State, u.gwy.attach = 0 ∧ u.gwy.chip = beAt (gwyBody b) 2 2 ∧
      s.attachDone b = State.gwyDrain 64 (((u.gwyArrive 0 b).2.raise 167).gwyUp 0) 0 := ⟨_, rfl, rfl, rfl⟩
  have hcame := ((u.gwyArrive_staysAttached 0 b).trans (State.raise_staysAttached _ 0 167)).trans (State.gwyUp_staysAttached _ 0)
  have hdrained := State.gwyDrain_staysAttached 64 (((u.gwyArrive 0 b).2.raise 167).gwyUp 0) 0
  have hall := hcame.trans hdrained
  rw [hu]
  exact ⟨hall.attach.trans hattach, hall.chip.trans hchip, hdrained.up (State.gwyUp_up _ 0)⟩

theorem State.attachRefused_gwy (s : State) (status : Nat) : (s.attachRefused status).gwy = { s.gwy with attach := 2 } :=
  State.raiseLog_gwy _ _ _

theorem attachAnswerReceived_answers (s : State) (b : List Byte) (hw : s.warned = false) (ha : s.gwy.attach = 1)
    (hv : s.gwyCheck b (s.familyKey s.man.linkKey (beAt b 3 1) 0) false = none) :
    answers (.attachAnswerReceived b) s fun t =>
      (beAt (gwyBody b) 0 1 = 0 → t.gwy.attach = 0 ∧ t.gwy.chip = beAt (gwyBody b) 2 2 ∧ (t.peer 0).up = true) ∧
      (beAt (gwyBody b) 0 1 ≠ 0 → t.gwy.attach = 2 ∧ t.gwy.chip = s.gwy.chip) := by
  cases hk : beAt (gwyBody b) 0 1 with
  | zero =>
    have hexec : exec (.attachAnswerReceived b) s = s.out (s.attachDone b) := by
      simp [exec, execAttachAnswerReceived, hw, ha, hv, hk]
    exact answers_of_out_congr hexec ⟨fun _ => s.attachDone_spec b, fun h => absurd rfl h⟩
  | succ k =>
    have hexec : exec (.attachAnswerReceived b) s = s.out (s.attachRefused (k + 1)) := by
      simp [exec, execAttachAnswerReceived, hw, ha, hv, hk]
    have hrefused : (s.attachRefused (k + 1)).gwy.attach = 2 ∧ (s.attachRefused (k + 1)).gwy.chip = s.gwy.chip := by
      rw [s.attachRefused_gwy]
      exact ⟨rfl, rfl⟩
    exact answers_of_out_congr hexec ⟨fun h => absurd h k.succ_ne_zero, fun _ => hrefused⟩

/-! ### ATTACH of this chip -/

theorem State.sendAttach_gwy (s : State) : s.sendAttach.gwy =
    { (s.setPeer 0 { s.peer 0 with keygen := s.newestGen s.man.linkKey, ack := 0, map := 0 }).gwy with attach := 1, chip := 0xFFFE } :=
  State.gwyPut_gwy _ _ _ _

theorem State.sendAttach_hub (s : State) :
    s.sendAttach.peer 0 = { s.peer 0 with keygen := s.newestGen s.man.linkKey, ack := 0, map := 0 } := by
  rw [State.peer, s.sendAttach_gwy]
  exact s.peer_setPeer_same 0 _

/-- An ATTACH and what it starts anew (R217; log entry 37 for the generation). -/
theorem State.sendAttach_spec (s : State) : s.sendAttach.gwy.attach = 1 ∧ s.sendAttach.gwy.chip = 0xFFFE ∧
    (s.sendAttach.peer 0).keygen = s.newestGen s.man.linkKey := by
  rw [s.sendAttach_gwy, s.sendAttach_hub]
  exact ⟨rfl, rfl, rfl⟩

/-- An ATTACH is 68 bytes long: with its launch word and descriptor it needs 13 words of the queue. -/
theorem State.sendAttach_tail {s : State} {q : Nat} (hq : s.gwyQueue = some q) (hu : s.qUsed q = true) (he : s.tst.entries = [])
    (hw : (s.q q).waiters = []) (hr : 32 ≤ s.qFree q) : (s.sendAttach.q q).tail = ((s.q q).tail + 1) % 2 ^ 32 := by
  have hsame (g : Gangway) : State.qFree { s with gwy := g } q = s.qFree q := State.qFree_congr rfl rfl rfl rfl
  unfold State.sendAttach
  refine State.gwyPut_tail (q := q) 0 0 _ hq hu he hw (le_trans ?_ ((hsame _).symm ▸ hr))
  simp

theorem exec_attachResend {s : State} (h : s.gwy.attach = 1) : exec .attachResend s = s.out s.sendAttach := by
  simp [exec, execAttachResend, h]

theorem exec_attachRetry {s : State} (h : s.gwy.attach = 2) : exec .attachRetry s = s.out s.sendAttach := by
  simp [exec, execAttachRetry, h]

theorem attachGiveUp_answers (s : State) (h : s.gwy.attach = 1) :
    answers .attachGiveUp s fun t => t.gwy = { s.gwy with attach := 2 } := by
  have hexec : exec .attachGiveUp s = s.out (s.attachRefused 0x02) := by simp [exec, execAttachGiveUp, h]
  exact answers_of_out_congr hexec (s.attachRefused_gwy 0x02)

/-! ### The timers of a peer -/

theorem peerDown_answers (s : State) (p : Nat) (hu : (s.peer p).up = true) (hh : (s.peer p).heard + 30 * nsPerSec ≤ s.clk.mono) :
    answers (.peerDown p) s fun t => (t.peer p).up = false ∧ (t.peer p).eui = (s.peer p).eui ∧ (t.peer p).out = (s.peer p).out := by
  generalize hv : (s.setPeer p { s.peer p with up := false }).raise 169 = v
  have hexec : exec (.peerDown p) s = s.out (if p = 0 ∧ s.isHub = false then v.sendAttach else v) := by
    rw [← hv]
    exact if_pos ⟨hu, hh⟩
  have hdown : (v.peer p).up = false ∧ (v.peer p).eui = (s.peer p).eui ∧ (v.peer p).out = (s.peer p).out := by
    rw [← hv, State.raise_peer, State.peer_setPeer_same]
    exact ⟨rfl, rfl, rfl⟩
  split at hexec
  · next hhub =>
    have hagain : v.sendAttach.peer p = { v.peer p with keygen := v.newestGen v.man.linkKey, ack := 0, map := 0 } :=
      hhub.1 ▸ v.sendAttach_hub
    refine answers_of_out_congr hexec ?_
    show (v.sendAttach.peer p).up = false ∧ (v.sendAttach.peer p).eui = (s.peer p).eui ∧ (v.sendAttach.peer p).out = (s.peer p).out
    rw [hagain]
    exact hdown
  · exact answers_of_out_congr hexec hdown

/-- An unreliable message takes the next unreliable number and changes nothing else of its peer (R221). -/
theorem State.gwyUnreliable_peer {s : State} {p : Nat} (h : s.gwyKeyed p = true) (typ : Nat) (launch : DWord) (body : List Byte) :
    (s.gwyUnreliable p typ launch body).peer p = { s.peer p with unrelNext := ((s.peer p).unrelNext + 1) % 2 ^ 32 } := by
  simp [State.gwyUnreliable, h]

theorem keepaliveSend_answers (s : State) (p : Nat) (hu : (s.peer p).up = true) (hw : s.warned = false) (hk : s.gwyKeyed p = true) :
    answers (.keepaliveSend p) s fun t => t.peer p = { s.peer p with unrelNext := ((s.peer p).unrelNext + 1) % 2 ^ 32 } := by
  have hexec : exec (.keepaliveSend p) s = s.out (s.gwyUnreliable p 0x0A 0
      (be 6 s.xing.num ++ be 4 (s.get eptCount_REGISTERED) ++ be 1 (s.get sysProfileStat_ACTIVE) ++ be 1 0)) := by
    simp only [exec, execKeepaliveSend, hu, hw, Bool.not_false, Bool.and_self, if_true]
  exact answers_of_out_congr hexec (State.gwyUnreliable_peer hk _ _ _)

theorem ackDelayExpiry_answers (s : State) (p : Nat) (hd : (s.peer p).ackDue = true) (hw : s.warned = false) (hk : s.gwyKeyed p = true) :
    answers (.ackDelayExpiry p) s fun t =>
      t.peer p = { s.peer p with unrelNext := ((s.peer p).unrelNext + 1) % 2 ^ 32, ackDue := false } := by
  have hexec : exec (.ackDelayExpiry p) s = s.out (s.gwyAck p) := by
    simp only [exec, execAckDelayExpiry, hd, hw, Bool.not_false, Bool.and_self, if_true]
  have hkeyed : (s.setPeer p { s.peer p with ackDue := false }).gwyKeyed p = true := (s.gwyKeyed_setPeer (by rfl) (by rfl)).trans hk
  have hpeer := State.gwyUnreliable_peer hkeyed 6 0 []
  rw [State.peer_setPeer_same] at hpeer
  exact answers_of_out_congr hexec hpeer

theorem retransmitTimerExpiry_answers (s : State) (p seq : Nat) (m : OutMsg)
    (hm : ((s.peer p).out.find? fun m => m.seq == seq && !m.mapped) = some m) (hw : s.warned = false) (hu : (s.peer p).up = true) :
    answers (.retransmitTimerExpiry p seq) s fun t =>
      { m with timer := min 6400 (2 * m.timer) } ∈ (t.peer p).out ∧
      (t.peer p).retrans = satAdd (s.peer p).retrans 1 65535 := by
  obtain ⟨v, hexec, hv⟩ : ∃ v, exec (.retransmitTimerExpiry p seq) s = s.out v ∧ v.peer p = { s.peer p with
      out := (s.peer p).out.map fun y => if y.seq = seq then { m with timer := min 6400 (2 * m.timer) } else y,
      retrans := satAdd (s.peer p).retrans 1 65535 } := by
    simp only [exec, execRetransmitTimerExpiry, hm, hw, hu, Bool.true_or, Bool.not_true, Bool.or_self, Bool.false_eq_true, if_false]
    exact ⟨_, rfl, by rw [State.raise_peer, State.gwyPut_peer, State.peer_setPeer_same]⟩
  have hseq : m.seq = seq := by
    have hfound := List.find?_some hm
    simp only [Bool.and_eq_true, beq_iff_eq] at hfound
    exact hfound.1
  refine answers_of_out_congr hexec ⟨?_, congrArg Peer.retrans hv⟩
  show _ ∈ (v.peer p).out
  rw [hv]
  exact List.mem_map.mpr ⟨m, List.mem_of_find?_eq_some hm, if_pos hseq⟩

/-- Settles O25, a lemma for each clause: ATTACH_RESEND and ATTACH_RETRY both send the ATTACH anew. -/
theorem gangwayChipsAttach : Obligations.GangwayChipsAttach :=
  ⟨attachReceived_answers, attachAnswerReceived_answers,
    fun s h => answers_of_out_congr (exec_attachResend h) s.sendAttach_spec,
    attachGiveUp_answers,
    fun s h => answers_of_out_congr (exec_attachRetry h) s.sendAttach_spec,
    peerDown_answers, keepaliveSend_answers, ackDelayExpiry_answers, retransmitTimerExpiry_answers,
    fun _ _ h hq hu he hw hr => answers_of_out_congr (exec_attachResend h) (State.sendAttach_tail hq hu he hw hr),
    fun _ _ h hq hu he hw hr => answers_of_out_congr (exec_attachRetry h) (State.sendAttach_tail hq hu he hw hr)⟩

end Sys2Proof.Machine

/-! ## 17_oarsman.md: hash jobs and commit groups of an Oarsman -/

namespace Sys2Proof.Machine

/-! ### What an instruction reads of a state whose busy cycles have been counted -/

/-- An instruction of a running Oarsman answers what it does. -/
theorem answers_oarDo {c : Instr} {s u : State} {n cycles : Nat} {P : State → Prop} {f : Oarsman → State → State}
    (hx : exec c s = s.out (s.oarDo n cycles f)) (hrun : oarRuns n s) (hu : f (s.oarN n) (s.busied n cycles) = u)
    (hq : u.pending = s.pending) (hfuses : u.fuses = s.fuses) (hP : P u) : answers c s P := by
  rw [State.oarDo_runs hrun, hu] at hx
  exact answers_of_out hx hq hfuses hP

/-- OAR_BUSY_n lies at 0x14 of each Oarsman's 64 bytes. -/
theorem State.busied_reg (s : State) (n cycles : Nat) {a : Nat} (h : a % 0x40 ≠ 0x14) : (s.busied n cycles).reg a = s.reg a :=
  s.set_regs (oarBusy_CYCLES n) _ a (by simp only [oarBusy_CYCLES, oarBusy, List.mem_singleton]; omega)

theorem State.busied_get (s : State) (n cycles : Nat) {f : Fld} (h : f.addr % 0x40 ≠ 0x14) : (s.busied n cycles).get f = s.get f :=
  State.get_congr (s.busied_reg n cycles h)

theorem State.busied_flag (s : State) (n cycles : Nat) {f : Fld} (h : f.addr % 0x40 ≠ 0x14) : (s.busied n cycles).flag f = s.flag f := by
  rw [State.flag, State.flag, s.busied_get n cycles h]

theorem State.busied_warned (s : State) (n cycles : Nat) : (s.busied n cycles).warned = s.warned := s.busied_flag n cycles (by decide)

theorem State.busied_slotOk (s : State) (n cycles k : Nat) : (s.busied n cycles).slotOk k = s.slotOk k := by
  have hcap := s.busied_get n cycles (f := eptCfg_CAPACITY) (by decide)
  have hhub : (s.busied n cycles).isHub = s.isHub := s.busied_flag n cycles (by decide)
  simp only [State.slotOk, State.siteSlot, State.underHub, hcap, hhub]
  rfl

/-- The registers of a queue's configuration. -/
theorem State.busied_qcfg (s : State) (n cycles : Nat) (q : Nat) : (s.busied n cycles).reg (whfQCfg q) = s.reg (whfQCfg q) :=
  s.busied_reg n cycles (by simp only [whfQCfg]; omega)

theorem State.busied_qFree (s : State) (n cycles q : Nat) : (s.busied n cycles).qFree q = s.qFree q :=
  State.qFree_congr rfl rfl rfl (s.busied_qcfg n cycles q)

theorem State.busied_actionValid (s : State) (n cycles g iss : Nat) (a : Action) :
    (s.busied n cycles).actionValid g iss a = s.actionValid g iss a := by
  have hflag : (s.busied n cycles).flag (whfQCfg_FLAG a.target) = s.flag (whfQCfg_FLAG a.target) := by
    rw [State.flag, State.flag, State.get_congr (f := whfQCfg_FLAG a.target) (s.busied_qcfg n cycles _)]
  have hretain : (s.busied n cycles).flag (whfQCfg_RETAIN a.target) = s.flag (whfQCfg_RETAIN a.target) := by
    rw [State.flag, State.flag, State.get_congr (f := whfQCfg_RETAIN a.target) (s.busied_qcfg n cycles _)]
  have hfits : (s.busied n cycles).actionFits a = s.actionFits a := by
    simp only [State.actionFits, hflag, hretain, s.busied_slotOk n cycles]
    rfl
  rw [State.actionValid, hfits]
  rfl

theorem State.busied_actionCredit (s : State) (n cycles : Nat) (a : Action) : (s.busied n cycles).actionCredit a = s.actionCredit a := by
  have hroom (q w : Nat) : (s.busied n cycles).qRoom q w = s.qRoom q w := by
    rw [State.qRoom, s.busied_qFree n cycles]
    rfl
  have hshort (r : Nat) : (s.busied n cycles).poolShort ((s.busied n cycles).regionPool r) = s.poolShort (s.regionPool r) := by
    have hspare : (s.busied n cycles).get (hldSpare_RETIRED (s.regionPool r)) = s.get (hldSpare_RETIRED (s.regionPool r)) :=
      s.busied_get n cycles (by unfold State.regionPool; split <;> decide)
    change (decide (s.poolBlocks (s.regionPool r) ≠ []) && decide ((s.freeBlocks (s.regionPool r)).length -
      (smGet 0 s.man.spares (s.regionPool r) - (s.busied n cycles).get (hldSpare_RETIRED (s.regionPool r))) < 2)) = _
    rw [hspare]
    rfl
  simp only [State.actionCredit, hroom, hshort]
  rfl

theorem State.busied_hashGranted (s : State) (n cycles m : Nat) (d : HashDesc) :
    (s.busied n cycles).hashGranted m d = s.hashGranted m d := by
  rw [State.hashGranted, s.busied_slotOk n cycles]
  rfl

/-! ### Registers of an Oarsman -/

@[simp] theorem Oarsman.setG_mem (o : Oarsman) (r : Nat) (v : Word) : (o.setG r v).mem = o.mem := by unfold Oarsman.setG; split <;> rfl
@[simp] theorem Oarsman.setG_jobs (o : Oarsman) (r : Nat) (v : Word) : (o.setG r v).jobs = o.jobs := by unfold Oarsman.setG; split <;> rfl
@[simp] theorem Oarsman.setG_st (o : Oarsman) (r : Nat) (v : Word) : (o.setG r v).st = o.st := by unfold Oarsman.setG; split <;> rfl

/-- A general register after a result stands in another one, or in itself. -/
theorem Oarsman.gr_setG (o : Oarsman) {r : Nat} (v : Word) (h : r ≠ 0) (k : Nat) : (o.setG r v).gr k = if k = r then v else o.gr k := by
  simp only [Oarsman.gr, Oarsman.setG, h, if_false, smGet_put]
  split
  · next hk => rw [if_neg (hk ▸ h.symm)]
  · rfl

theorem State.oarRet_oarN (s : State) (n : Nat) (o : Oarsman) (gd : Nat) (v : Word) :
    (s.oarRet n o gd v).oarN n = { o.setG gd v with pc := o.pc + 1 } := by rw [State.oarRet, State.oarN_setOar, if_pos rfl]

theorem State.oarN_congr {s t : State} (h : t.oar = s.oar) (k : Nat) : t.oarN k = s.oarN k := by rw [State.oarN, State.oarN, h]

/-! ### Hash jobs -/

theorem State.hashJob_result (s : State) (o : Oarsman) (d : HashDesc) : (s.hashJob o d).result = none := by
  unfold State.hashJob
  simp only
  (repeat' split) <;> rfl

/-- SHAKE256 of data memory needs no key and meets no poison (R432). -/
theorem State.hashJob_shake (s : State) (o : Oarsman) {d : HashDesc} (hbuf : d.fromBuf = false) (hfunc : d.func = 3) :
    s.hashJob o d =
      { outAddr := d.outAddr, out := padTo d.outLen (shake256 (getBytes o.mem (d.inAddr % 2 ^ 13) d.inLen) d.outLen) } := by
  simp [State.hashJob, State.hashPoison, State.hashInput, hbuf, hfunc]

/-- KMAC256 of data memory under a slot key (R432, R433). -/
theorem State.hashJob_kmac {s : State} (o : Oarsman) {d : HashDesc} {key : List Byte} (hbuf : d.fromBuf = false) (hfunc : d.func = 2)
    (hsrc : d.keySrc = 1) (hkey : s.keyFor (d.key % 1024) 0 = some key) :
    s.hashJob o d = { outAddr := d.outAddr
                      out := padTo d.outLen (kmac256 key (getBytes o.mem (d.inAddr % 2 ^ 13) d.inLen) (8 * d.outLen) d.custBytes) } := by
  simp [State.hashJob, State.hashPoison, State.hashInput, State.hashKey, hbuf, hfunc, hsrc, hkey]

theorem State.jobIssued_only (s : State) : onlyIn [.pwr] s s.jobIssued :=
  onlyIn_trans (onlyIn_pwr s _ _ (by decide)) (State.fillEngines_only 4 _)

/-- A valid, permitted HSUB with a tag free (R432). -/
theorem exec_opHsub_tag {s : State} {n gd ga a k : Nat} {d : HashDesc} (hrun : oarRuns n s) (ha : a = ((s.oarN n).gr ga).toNat)
    (hr : a + 32 ≤ 0x2000) (hd : d = (s.oarN n).hashDesc a) (hok : d.ok n = true) (hin : d.inRange = true)
    (hgr : s.hashGranted n d = true) (htag : (s.oarN n).freeTag = some k) :
    exec (.opHsub n gd ga) s = s.out
      ((s.busied n 4).oarRet n ((s.oarN n).addJob k ((s.busied n 4).newJob (s.oarN n) d)) gd (wd k)).jobIssued := by
  have hgr' := (s.busied_hashGranted n 4 n d).trans hgr
  simp only [exec, execOpHsub]
  rw [State.oarDo_runs hrun, State.oarMem_reaches _ _ _ _ _ _ (a := a) (by simpa using ha) hr (Nat.mod_one a), ← hd]
  simp only [hok, hin, hgr', htag, Bool.not_true, Bool.false_eq_true, if_false]

/-- With four jobs outstanding it waits (R432). -/
theorem exec_opHsub_full {s : State} {n gd ga a : Nat} {d : HashDesc} (hrun : oarRuns n s) (ha : a = ((s.oarN n).gr ga).toNat)
    (hr : a + 32 ≤ 0x2000) (hd : d = (s.oarN n).hashDesc a) (hok : d.ok n = true) (hin : d.inRange = true)
    (hgr : s.hashGranted n d = true) (htag : (s.oarN n).freeTag = none) :
    exec (.opHsub n gd ga) s = s.out ((s.busied n 4).oarWait n (.submit gd ga)) := by
  have hgr' := (s.busied_hashGranted n 4 n d).trans hgr
  simp only [exec, execOpHsub]
  rw [State.oarDo_runs hrun, State.oarMem_reaches _ _ _ _ _ _ (a := a) (by simpa using ha) hr (Nat.mod_one a), ← hd]
  simp only [hok, hin, hgr', htag, Bool.not_true, Bool.false_eq_true, if_false]

theorem opHsub_answers (s : State) (n gd ga a k : Nat) (d : HashDesc) (hrun : oarRuns n s) (hgd : gd ≠ 0)
    (ha : a = ((s.oarN n).gr ga).toNat) (hr : a + 32 ≤ 0x2000) (hd : d = (s.oarN n).hashDesc a) (hok : d.ok n = true)
    (hin : d.inRange = true) (hgr : s.hashGranted n d = true) (htag : (s.oarN n).freeTag = some k) :
    answers (.opHsub n gd ga) s fun t =>
      (t.oarN n).gr gd = BitVec.ofNat 32 k ∧ (t.oarN n).pc = (s.oarN n).pc + 1 ∧ (t.oarN n).mem = (s.oarN n).mem ∧
      (∀ r ∈ List.range 16, r ≠ gd → (t.oarN n).gr r = (s.oarN n).gr r) ∧
      smGet none (t.oarN n).jobs k ≠ none ∧ (∀ j ∈ smGet none (t.oarN n).jobs k, j.result = none ∧
        (d.fromBuf = false → d.func = 3 → j.code = 0 ∧ j.outAddr = d.outAddr ∧
          j.out = padTo d.outLen (shake256 (getBytes (s.oarN n).mem (d.inAddr % 2 ^ 13) d.inLen) d.outLen)) ∧
        (d.fromBuf = false → d.func = 2 → d.keySrc = 1 → (s.keyFor (d.key % 1024) 0).isSome = true → j.code = 0 ∧ j.outAddr = d.outAddr ∧
          j.out = padTo d.outLen (kmac256 ((s.keyFor (d.key % 1024) 0).getD []) (getBytes (s.oarN n).mem (d.inAddr % 2 ^ 13) d.inLen)
            (8 * d.outLen) d.custBytes))) ∧
      (∀ x ∈ List.range 4, x ≠ k → smGet none (t.oarN n).jobs x = smGet none (s.oarN n).jobs x) ∧
      (∀ x ∈ List.range 16, x ≠ n → t.oarN x = s.oarN x) ∧ onlyIn [.regs, .oar, .pwr] s t ∧ keepsRegs [oarBusy n] s t := by
  obtain ⟨j, hj⟩ : ∃ j, j = (s.busied n 4).newJob (s.oarN n) d := ⟨_, rfl⟩
  obtain ⟨u, hu⟩ : ∃ u, u = (s.busied n 4).oarRet n ((s.oarN n).addJob k j) gd (wd k) := ⟨_, rfl⟩
  have hexec := exec_opHsub_tag (gd := gd) hrun ha hr hd hok hin hgr htag
  rw [← hj, ← hu] at hexec
  obtain ⟨hbusyParts, hbusyRegs, hother⟩ := s.setOar_busied_only n 4
    { ((s.oarN n).addJob k j).setG gd (wd k) with pc := ((s.oarN n).addJob k j).pc + 1 }
  have hissued := u.jobIssued_only
  have honly : onlyIn [.regs, .oar, .pwr] s u.jobIssued :=
    onlyIn_trans (hu ▸ onlyIn_mono hbusyParts (by decide)) (onlyIn_mono hissued (by decide))
  have hoar (x : Nat) : u.jobIssued.oarN x = u.oarN x := State.oarN_congr (hissued .oar (by decide)) x
  have hn : u.jobIssued.oarN n = { ((s.oarN n).addJob k j).setG gd (wd k) with pc := (s.oarN n).pc + 1 } := by
    rw [hoar, hu]
    exact State.oarRet_oarN _ _ _ _ _
  have hgr (r : Nat) : (u.jobIssued.oarN n).gr r = if r = gd then wd k else (s.oarN n).gr r := by
    rw [hn]
    exact Oarsman.gr_setG _ (wd k) hgd r
  have hjobs (x : Nat) : smGet none (u.jobIssued.oarN n).jobs x = if x = k then some j else smGet none (s.oarN n).jobs x := by
    rw [hn]
    simp [Oarsman.addJob]
  refine answers_of_out hexec (honly .pending (by decide)) (honly .fuses (by decide))
    ⟨by rw [hgr, if_pos rfl]; rfl, by rw [hn], by simp [hn, Oarsman.addJob], fun r _ h => by rw [hgr, if_neg h], by simp [hjobs], ?_,
      fun x _ h => by rw [hjobs, if_neg h], fun x hx h => ?_, honly, ?_⟩
  · intro i hi
    rw [hjobs, if_pos rfl, Option.mem_some_iff] at hi
    subst hi
    rw [hj]
    refine ⟨State.hashJob_result _ _ _, fun hbuf hfunc => ?_, fun hbuf hfunc hsrc hkey => ?_⟩
    · rw [State.newJob, State.hashJob_shake _ _ hbuf hfunc]
      exact ⟨rfl, rfl, rfl⟩
    · obtain ⟨key, hkey⟩ := Option.isSome_iff_exists.mp hkey
      have hbusy : (s.busied n 4).keyFor (d.key % 1024) 0 = some key := hkey
      rw [State.newJob, State.hashJob_kmac _ hbuf hfunc hsrc hbusy, hkey]
      exact ⟨rfl, rfl, rfl⟩
  · rw [hoar, hu]
    exact hother x hx h
  · exact keepsRegs_trans (hu ▸ hbusyRegs) (keepsRegs_of_eq _ (hissued .regs (by decide)))

theorem opHsub_waits (s : State) (n gd ga a : Nat) (d : HashDesc) (hrun : oarRuns n s) (ha : a = ((s.oarN n).gr ga).toNat)
    (hr : a + 32 ≤ 0x2000) (hd : d = (s.oarN n).hashDesc a) (hok : d.ok n = true) (hin : d.inRange = true)
    (hgr : s.hashGranted n d = true) (htag : (s.oarN n).freeTag = none) :
    answers (.opHsub n gd ga) s fun t => t.oarN n = { s.oarN n with st := .waiting, wait := .submit gd ga } ∧ oarOnly n s t :=
  answers_of_out (exec_opHsub_full hrun ha hr hd hok hin hgr htag) rfl rfl
    ⟨by rw [State.oarWait, State.oarN_setOar, if_pos rfl]; rfl, s.setOar_busied_only n 4 _⟩

theorem opHwait_answers (s : State) (n gd ga k : Nat) (j : HashJob) (hrun : oarRuns n s) (hk : k = ((s.oarN n).gr ga).toNat)
    (hj : smGet none (s.oarN n).jobs k = some j) :
    answers (.opHwait n gd ga) s fun t =>
      (∀ v ∈ j.result, t.oarN n = { (s.oarN n).setG gd (BitVec.ofNat 32 v) with
        pc := (s.oarN n).pc + 1, jobs := smPut none (s.oarN n).jobs k none }) ∧
      (j.result = none → t.oarN n = { s.oarN n with st := .waiting, wait := .job gd k }) ∧ oarOnly n s t := by
  cases hres : j.result with
  | some v =>
    refine answers_oarDo (u := (s.busied n 2).oarRet n { s.oarN n with jobs := smPut none (s.oarN n).jobs k none } gd (wd v)) rfl hrun
      (by simp only [← hk, hj, hres]) rfl rfl ⟨fun w hw => ?_, nofun, s.setOar_busied_only n 2 _⟩
    rw [Option.mem_some_iff] at hw
    subst hw
    rw [State.oarRet_oarN]
    unfold Oarsman.setG
    split <;> rfl
  | none =>
    exact answers_oarDo (u := (s.busied n 2).oarWait n (.job gd k)) rfl hrun (by simp only [← hk, hj, hres]) rfl rfl
      ⟨nofun, fun _ => by rw [State.oarWait, State.oarN_setOar, if_pos rfl]; rfl, s.setOar_busied_only n 2 _⟩

/-! ### The end of a hash job -/

theorem State.fillEngines_parking (n : Nat) (s : State) : (State.fillEngines n s).pwr.parking = s.pwr.parking := by
  induction n generalizing s with
  | zero => rfl
  | succ n ih =>
    unfold State.fillEngines
    split
    · rfl
    · split
      · exact ih _
      · rfl

/-- A stalled HSUB alone goes on when a job is over (R432). -/
theorem State.submitStalled_other {s : State} {n : Nat} (h : ∀ gd ga, (s.oarN n).wait ≠ .submit gd ga) : s.submitStalled n = s := by
  unfold State.submitStalled
  simp only
  split
  · next hw _ => exact absurd hw (h _ _)
  · rfl

/-- An Oarsman with the result of a job, whose output is in data memory where the job ended with 0 (R433). -/
def Oarsman.jobEnded (o : Oarsman) (k : Nat) (j : HashJob) (code : Nat) : Oarsman :=
  { (if code = 0 then o.store j.outAddr j.out else o) with jobs := smPut none o.jobs k (some { j with result := some code }) }

/-- A job completes while its Oarsman does not wait for it. -/
theorem State.jobDone_stands {s : State} {n k : Nat} (j : HashJob) (p : Bool) (h : ∀ gd, (s.oarN n).wait ≠ .job gd k) :
    s.jobDone n k j p = s.setOar n ((s.oarN n).jobEnded k j (if p then 3 else j.code)) := by
  have hjobs (c : Nat) : (if c = 0 then (s.oarN n).store j.outAddr j.out else s.oarN n).jobs = (s.oarN n).jobs := by split <;> rfl
  unfold State.jobDone Oarsman.jobEnded
  simp only [hjobs]
  split
  · next gd t hw => rw [if_neg fun ht : t = k => h gd (ht ▸ hw)]
  · rfl

/-- A job completes for which its Oarsman waits: the result is handed over and the tag is free. -/
theorem State.jobDone_awaited {s : State} {n k gd : Nat} (j : HashJob) (p : Bool) (h : (s.oarN n).wait = .job gd k) :
    ∃ o : Oarsman, (∃ m, o = { s.oarN n with mem := m, jobs := smPut none (smPut none (s.oarN n).jobs k
        (some { j with result := some (if p then 3 else j.code) })) k none }) ∧
      (s.jobDone n k j p).oarN n =
        { o.setG gd (wd (if p then 3 else j.code)) with
          wait := .none, pc := (s.oarN n).pc + 1, st := if o.haltReq || o.ebHalt then .halted else .running } ∧
      onlyIn [.oar] s (s.jobDone n k j p) := by
  have hstore (c : Nat) : ∃ m, (if c = 0 then (s.oarN n).store j.outAddr j.out else s.oarN n) = { s.oarN n with mem := m } := by
    split
    · exact ⟨_, rfl⟩
    · exact ⟨_, rfl⟩
  obtain ⟨m, hm⟩ := hstore (if p then 3 else j.code)
  refine ⟨_, ⟨m, rfl⟩, ?_, ?_⟩
  · simp only [State.jobDone, h, if_true, hm, State.oarResume, State.oarN_setOar]
  · simp only [State.jobDone, h, if_true]
    exact onlyIn_oar s _ _ (by decide)

/-- HASH_JOB_COMPLETE of a job that an engine serves (R433). -/
theorem exec_hashJobComplete {s : State} {n k : Nat} {j : HashJob} (p : Bool) (hj : smGet none (s.oarN n).jobs k = some j)
    (hres : j.result = none) (hserve : (s.pwr.serving.find? fun x => x.1 == n && x.2.1 == k) = some (n, k, j.ord)) :
    exec (.hashJobComplete n k p) s =
      s.out (State.fillEngines 4 (((s.engineDone (n, k, j.ord)).jobDone n k j p).submitStalled n)) := by
  have hdone : smGet none ((s.engineDone (n, k, j.ord)).oarN n).jobs k = some j := hj
  simp only [exec, execHashJobComplete, hserve, State.hashResult, hdone, hres, and_self, if_true]

theorem hashJobComplete_answers (s : State) (n k code : Nat) (j : HashJob) (p : Bool) (hj : smGet none (s.oarN n).jobs k = some j)
    (hres : j.result = none) (hserve : (s.pwr.serving.find? fun x => x.1 == n && x.2.1 == k) = some (n, k, j.ord))
    (hcode : code = (if p = true then 3 else j.code)) (helse : obElse (s.oarN n) k = true) :
    answers (.hashJobComplete n k p) s fun t =>
      smGet none (t.oarN n).jobs k = some { j with result := some code } ∧ (t.oarN n).g = (s.oarN n).g ∧
      (if code = 0 then getBytes (t.oarN n).mem j.outAddr j.out.length = j.out else (t.oarN n).mem = (s.oarN n).mem) ∧
      (∀ i ∈ List.range 0x2000, i < j.outAddr ∨ j.outAddr + j.out.length ≤ i → smGet 0 (t.oarN n).mem i = smGet 0 (s.oarN n).mem i) ∧
      onlyIn [.oar, .pwr] s t ∧ t.pwr.parking = s.pwr.parking - 1 := by
  have hjob : ∀ gd, (s.oarN n).wait ≠ .job gd k := fun gd hw => by simp [obElse, hw] at helse
  have hsubmit : ∀ gd ga, (s.oarN n).wait ≠ .submit gd ga := fun gd ga hw => by simp [obElse, hw] at helse
  obtain ⟨o, ho⟩ : ∃ o, o = (s.oarN n).jobEnded k j code := ⟨_, rfl⟩
  obtain ⟨u, hu⟩ : ∃ u, u = (s.engineDone (n, k, j.ord)).setOar n o := ⟨_, rfl⟩
  have hwait : o.wait = (s.oarN n).wait := by
    rw [ho, Oarsman.jobEnded]
    split <;> rfl
  have hn : u.oarN n = o := by rw [hu, State.oarN_setOar, if_pos rfl]
  have hdone : ((s.engineDone (n, k, j.ord)).jobDone n k j p).submitStalled n = u := by
    have hstands : (s.engineDone (n, k, j.ord)).jobDone n k j p = u := by
      rw [hu, ho, hcode]
      exact State.jobDone_stands (s := s.engineDone (n, k, j.ord)) j p hjob
    rw [hstands]
    exact State.submitStalled_other fun gd ga hw => hsubmit gd ga (by rw [← hwait, ← hn, hw])
  have hexec := exec_hashJobComplete p hj hres hserve
  rw [hdone] at hexec
  have hfill := State.fillEngines_only 4 u
  have honly : onlyIn [.oar, .pwr] s (State.fillEngines 4 u) :=
    onlyIn_trans (hu ▸ onlyIn_trans (onlyIn_pwr s _ _ (by decide)) (onlyIn_oar _ _ _ (by decide))) (onlyIn_mono hfill (by decide))
  have hfilled : (State.fillEngines 4 u).oarN n = o := (State.oarN_congr (hfill .oar (by decide)) n).trans hn
  refine answers_of_out hexec (honly .pending (by decide)) (honly .fuses (by decide)) ?_
  rw [hfilled, ho]
  refine ⟨by simp [Oarsman.jobEnded], ?_, ?_, fun i _ hi => ?_, honly, ?_⟩
  · simp only [Oarsman.jobEnded]
    split <;> rfl
  · split
    · next h0 => simp only [Oarsman.jobEnded, h0, if_true, Oarsman.store, getBytes_putBytes]
    · next h0 => simp only [Oarsman.jobEnded, h0, if_false]
  · simp only [Oarsman.jobEnded]
    split
    · exact putBytes_other _ _ _ _ hi
    · rfl
  · rw [State.fillEngines_parking, hu]
    rfl

theorem hashJobComplete_unserved (s : State) (n k : Nat) (p : Bool)
    (h : (s.pwr.serving.find? fun x => x.1 == n && x.2.1 == k) = none) : answers (.hashJobComplete n k p) s fun t => t = s :=
  answers_of_out (u := s) (by simp only [exec, execHashJobComplete, h]) rfl rfl rfl

theorem hashJobComplete_awaited (s : State) (n gd k code : Nat) (j : HashJob) (p : Bool) (hgd : gd ≠ 0)
    (hj : smGet none (s.oarN n).jobs k = some j) (hres : j.result = none)
    (hserve : (s.pwr.serving.find? fun x => x.1 == n && x.2.1 == k) = some (n, k, j.ord))
    (hcode : code = (if p = true then 3 else j.code)) (hwait : (s.oarN n).wait = .job gd k) :
    answers (.hashJobComplete n k p) s fun t =>
      smGet none (t.oarN n).jobs k = none ∧ (t.oarN n).gr gd = BitVec.ofNat 32 code ∧ (t.oarN n).wait = .none ∧
      (t.oarN n).pc = (s.oarN n).pc + 1 ∧ onlyIn [.oar, .pwr] s t := by
  obtain ⟨o, ⟨m, ho⟩, hn, hdoneOnly⟩ := State.jobDone_awaited (s := s.engineDone (n, k, j.ord)) j p hwait
  obtain ⟨u, hu⟩ : ∃ u, u = (s.engineDone (n, k, j.ord)).jobDone n k j p := ⟨_, rfl⟩
  rw [← hu, ← hcode] at hn
  rw [← hu] at hdoneOnly
  have hexec := exec_hashJobComplete p hj hres hserve
  rw [← hu, State.submitStalled_other fun _ _ hw => by simp [hn] at hw] at hexec
  have hfill := State.fillEngines_only 4 u
  have honly : onlyIn [.oar, .pwr] s (State.fillEngines 4 u) :=
    onlyIn_trans (onlyIn_trans (onlyIn_pwr s _ _ (by decide)) (onlyIn_mono hdoneOnly (by decide))) (onlyIn_mono hfill (by decide))
  have hfilled := (State.oarN_congr (hfill .oar (by decide)) n).trans hn
  refine answers_of_out hexec (honly .pending (by decide)) (honly .fuses (by decide)) ?_
  rw [hfilled]
  refine ⟨by simp [ho], ?_, rfl, rfl, honly⟩
  exact (o.gr_setG (wd code) hgd gd).trans (if_pos rfl)

end Sys2Proof.Machine

namespace Sys2Proof.Machine

/-! ### Opening, staging and waiting for a group -/

@[simp] theorem State.grp_setGrp (s : State) (g : Nat) (x : Group) (k : Nat) : (s.setGrp g x).grp k = if k = g then x else s.grp k :=
  smGet_put _ _ _ _ _

@[simp] theorem State.oarRet_grp (s : State) (n : Nat) (o : Oarsman) (gd : Nat) (v : Word) (k : Nat) :
    (s.oarRet n o gd v).grp k = s.grp k := rfl

/-- COPEN that opens (R344, R434). -/
theorem opCopen_answers (s : State) (n gd imm g : Nat) (hrun : oarRuns n s) (hw : s.warned = false) (hkept : imm % 2 = 1 → n = 12 ∨ n = 13)
    (hg : ((if imm % 2 = 1 then [60, 61, 62, 63] else List.range 60).find? fun g => !(s.grp g).held) = some g) :
    answers (.opCopen n gd imm) s fun t =>
      t.oarN n = { (s.oarN n).setG gd (BitVec.ofNat 32 (2 ^ 31 + g)) with pc := (s.oarN n).pc + 1 } ∧ (t.grp g).st = .opened ∧
      (t.grp g).issuer = n ∧ (t.grp g).actions = [] ∧ (∀ k ∈ List.range 64, k ≠ g → t.grp k = s.grp k) ∧
      onlyIn [.regs, .oar, .cmt] s t ∧ keepsRegs [oarBusy n] s t := by
  have hbit : natBit imm 0 = decide (imm % 2 = 1) := by
    simp only [natBit, Nat.shiftRight_zero]
    rfl
  have hrefused : ¬ (natBit imm 0 = true ∧ n ≠ 12 ∧ n ≠ 13) := by
    rintro ⟨hi, h12, h13⟩
    rw [hbit, decide_eq_true_eq] at hi
    exact (hkept hi).elim h12 h13
  have hopen : (s.busied n 4).openGroup n (natBit imm 0) = (0x00, g, (s.busied n 4).setGrp g { st := .opened, issuer := n }) := by
    have hfind : ((if natBit imm 0 = true then [60, 61, 62, 63] else List.range 60).find? fun g => !((s.busied n 4).grp g).held) = some g := by
      rw [hbit]
      simp only [decide_eq_true_eq]
      exact hg
    simp only [State.openGroup, s.busied_warned n 4, hw, Bool.false_eq_true, if_false, hfind]
  obtain ⟨v, hv⟩ : ∃ v, v = (s.busied n 4).setGrp g { st := .opened, issuer := n } := ⟨_, rfl⟩
  have hgrp (k : Nat) : (v.oarRet n (s.oarN n) gd (wd (2 ^ 31 + g))).grp k =
      if k = g then { st := .opened, issuer := n } else s.grp k := by
    rw [hv, State.oarRet_grp, State.grp_setGrp]
    rfl
  have honly : onlyIn [.regs, .oar, .cmt] s (v.oarRet n (s.oarN n) gd (wd (2 ^ 31 + g))) := by
    rw [hv]
    exact onlyIn_trans (onlyIn_trans (s.set_only _ _ _ (by decide)) (onlyIn_cmt _ _ _ (by decide))) (onlyIn_oar _ _ _ (by decide))
  refine answers_oarDo (u := v.oarRet n (s.oarN n) gd (wd (2 ^ 31 + g))) rfl hrun ?_ (honly .pending (by decide))
    (honly .fuses (by decide)) ⟨State.oarRet_oarN _ _ _ _ _, by rw [hgrp, if_pos rfl], by rw [hgrp, if_pos rfl], by rw [hgrp, if_pos rfl],
      fun k _ hk => by rw [hgrp, if_neg hk], honly, ?_⟩
  · simp only [s.busied_warned n 4, hw, Bool.false_eq_true, if_false, if_neg hrefused, hopen, ← hv]
    rw [hv]
    rfl
  · rw [hv]
    exact keepsRegs_trans (s.set_regs (oarBusy_CYCLES n) _) (keepsRegs_of_eq _ rfl)

theorem opCopen_refused (s : State) (n gd imm : Nat) (hrun : oarRuns n s) (h : s.warned = true ∨ (imm % 2 = 1 ∧ n ≠ 12 ∧ n ≠ 13)) :
    answers (.opCopen n gd imm) s fun t => oarWrites n gd (if s.warned = true then 0x800 else 0x700) s t := by
  refine answers_oarDo (u := (s.busied n 4).oarRet n (s.oarN n) gd (if s.warned = true then 0x800 else 0x700)) rfl hrun ?_ rfl rfl
    (s.oarRet_writes n 4 gd _)
  simp only [s.busied_warned n 4]
  split
  · rfl
  · next hw =>
    have hkept := h.resolve_left hw
    rw [if_pos ⟨by simp [natBit, hkept.1], hkept.2⟩]
    rfl

theorem State.claim_only (s : State) (a : Action) : onlyIn [.whf, .lgb] s (s.claim a) := by
  unfold State.claim
  split
  · exact onlyIn_whf s _ _ (by decide)
  · exact onlyIn_lgb s _ _ (by decide)
  · exact onlyIn_refl _ s

/-- An action that no rule refuses is staged with its claims (R346, R561). -/
theorem State.stage_taken {s : State} {g iss : Nat} {a : Action} (hw : s.warned = false) (hst : (s.grp g).st = .opened)
    (hiss : (s.grp g).issuer = iss) (hvalid : s.actionValid g iss a = true) (hlen : (s.grp g).actions.length < 256)
    (hplace : s.placesUsed false < 7168) (hconf : s.conflict g a = false) (hcredit : s.actionCredit a = true) :
    ∃ k, s.stage g iss a = (0, (s.claim a).setGrp g { s.grp g with actions := (s.grp g).actions ++ [a], keptPlaces := k }) := by
  have hroom : ¬ (7168 - s.placesUsed false = 0 ∧ (g < 60 ∨ 1024 - s.placesUsed true = 0)) := fun h => by omega
  refine ⟨if 60 ≤ g ∧ 0 < 1024 - s.placesUsed true then (s.grp g).keptPlaces + 1 else (s.grp g).keptPlaces, ?_⟩
  simp only [State.stage, hw, Bool.false_eq_true, if_false, hst, hiss, ne_eq, not_true_eq_false, or_self, hvalid, Bool.not_true,
    if_neg (Nat.not_le.mpr hlen), if_neg hroom, hconf, hcredit]

theorem opCstage_answers (s : State) (n gd ga g a : Nat) (x : Action) (hrun : oarRuns n s) (hg : g < 64)
    (ha : a = ((s.oarN n).gr ga).toNat) (hr : a + 32 ≤ 0x2000) (hx : x = Action.ofBytes (getBytes (s.oarN n).mem a 32))
    (hw : s.warned = false) (hst : (s.grp g).st = .opened) (hiss : (s.grp g).issuer = n) (hvalid : s.actionValid g n x = true)
    (hlen : (s.grp g).actions.length < 256) (hplace : s.placesUsed false < 7168) (hconf : s.conflict g x = false)
    (hcredit : s.actionCredit x = true) :
    answers (.opCstage n gd ga g) s fun t =>
      (t.grp g).actions = (s.grp g).actions ++ [x] ∧ (t.grp g).st = .opened ∧
      t.oarN n = { (s.oarN n).setG gd 0 with pc := (s.oarN n).pc + 1 } := by
  obtain ⟨k, hk⟩ := State.stage_taken (s := s.busied n 12) (g := g) (iss := n) (a := x) ((s.busied_warned n 12).trans hw) hst hiss
    ((s.busied_actionValid n 12 g n x).trans hvalid) hlen hplace hconf ((s.busied_actionCredit n 12 x).trans hcredit)
  obtain ⟨v, hv⟩ : ∃ v, v = ((s.busied n 12).claim x).setGrp g
      { (s.busied n 12).grp g with actions := ((s.busied n 12).grp g).actions ++ [x], keptPlaces := k } := ⟨_, rfl⟩
  have honly : onlyIn [.regs, .whf, .lgb, .cmt] s v := by
    rw [hv]
    exact onlyIn_trans (onlyIn_trans (s.set_only _ _ _ (by decide)) (onlyIn_mono (State.claim_only _ x) (by decide)))
      (onlyIn_cmt _ _ _ (by decide))
  have hoar : v.oarN n = s.oarN n := State.oarN_congr (honly .oar (by decide)) n
  have hgrp : (v.oarRet n (s.oarN n) gd 0).grp g = { s.grp g with actions := (s.grp g).actions ++ [x], keptPlaces := k } := by
    rw [hv, State.oarRet_grp, State.grp_setGrp, if_pos rfl]
    rfl
  refine answers_oarDo (u := v.oarRet n (s.oarN n) gd 0) rfl hrun ?_ (honly .pending (by decide)) (honly .fuses (by decide))
    ⟨by rw [hgrp], by rw [hgrp]; exact hst, State.oarRet_oarN _ _ _ _ _⟩
  rw [State.oarMem_reaches _ _ _ _ _ _ (a := a) (by simpa using ha) hr (Nat.mod_one a), ← hx, Nat.mod_eq_of_lt hg, hk]
  show State.oarRet _ n (State.oarN _ n) gd (resWord 0) = _
  rw [← hv, hoar]
  rfl

theorem opCwaitd_answers (s : State) (n gd g : Nat) (hrun : oarRuns n s) (hg : g < 64) (hiss : (s.grp g).issuer = n)
    (hst : (s.grp g).st ≠ .free) :
    answers (.opCwaitd n gd g) s fun t =>
      if (s.grp g).st = .durable then oarWrites n gd 0 s t
      else t.oarN n = { s.oarN n with st := .waiting, wait := .group gd g } ∧ oarOnly n s t := by
  have hbusy : (s.busied n 2).grp (g % 64) = s.grp g := by rw [Nat.mod_eq_of_lt hg]; rfl
  by_cases hdur : (s.grp g).st = .durable
  · refine answers_oarDo (u := (s.busied n 2).oarRet n (s.oarN n) gd 0) rfl hrun ?_ rfl rfl ?_
    · simp only [hbusy, hiss, ne_eq, not_true_eq_false, if_false, hdur]
      rfl
    · rw [if_pos hdur]
      exact s.oarRet_writes n 2 gd 0
  · refine answers_oarDo (u := (s.busied n 2).oarWait n (.group gd g)) rfl hrun ?_ rfl rfl ?_
    · simp only [hbusy, hiss, ne_eq, not_true_eq_false, if_false]
      rw [Nat.mod_eq_of_lt hg]
    · rw [if_neg hdur, State.oarWait, State.oarN_setOar, if_pos rfl]
      exact ⟨rfl, s.setOar_busied_only n 2 _⟩

/-! ### What sealing and giving up a group leaves of the Oarsmen -/

/-- Whether each Oarsman runs, its PC and its registers: what no event changes (R431). -/
def State.standing (s : State) (k : Nat) : OState × Nat × SMap Word := ((s.oarN k).st, (s.oarN k).pc, (s.oarN k).g)

theorem State.standing_congr {s t : State} (h : t.oar = s.oar) : t.standing = s.standing := by
  funext k
  rw [State.standing, State.standing, State.oarN_congr h k]

theorem State.standing_of_only {ps : List Part} {s t : State} (h : onlyIn ps s t) (hp : Part.oar ∉ ps) : t.standing = s.standing :=
  State.standing_congr (h .oar hp)

/-- An Oarsman written with the STATE, PC and registers that it had. -/
theorem State.setOar_standing {s : State} {n : Nat} {o : Oarsman} (h : (o.st, o.pc, o.g) = s.standing n) :
    (s.setOar n o).standing = s.standing := by
  funext k
  rw [State.standing, State.oarN_setOar]
  split
  · next hk => rw [hk]; exact h
  · rfl

theorem oarAssert_standing (e : Nat) (s : State) (n : Nat) : (oarAssert e s n).standing = s.standing := by
  unfold oarAssert
  split
  · simp only
    split
    · split <;> exact State.setOar_standing rfl
    · exact State.setOar_standing rfl
  · rfl

theorem State.assertEvt_standing (s : State) (e : Nat) : (s.assertEvt e).1.standing = s.standing := by
  have hreach : (s.reach e).standing = s.standing :=
    (foldl_keeps State.standing (oarAssert_standing e) _ _).trans (State.standing_of_only (msixOf_only e s) (by decide))
  rw [State.assertEvt_eq, ← hreach]
  generalize s.reach e = r
  split
  · split
    · split <;> exact State.standing_congr rfl
    · exact State.standing_congr rfl
  · exact foldl_keeps State.standing (fun u t => State.standing_of_only (u.wake_only e t) (by decide)) _ r

@[simp] theorem State.raise_standing (s : State) (e : Nat) : (s.raise e).standing = s.standing := by
  unfold State.raise
  split
  · simp only
    split <;> simp only [State.assertEvt_standing]
  · rfl

theorem State.touchQ_standing {s : State} {n : Nat} {f : State → State} (h : (f s).standing = s.standing) :
    (s.touchQ n f).standing = s.standing := by
  have hset (u : State) (g : Fld) (v : Nat) : (u.set g v).standing = u.standing := State.standing_congr rfl
  unfold State.touchQ
  simp only
  split <;> split <;> simp only [State.raise_standing, hset, h]

theorem State.setQ_standing (s : State) (n : Nat) (x : Queue) : (s.setQ n x).standing = s.standing := State.standing_congr rfl

theorem State.perturbItem_standing (s : State) (n : Nat) (it : Item) : (s.perturbItem n it).2.standing = s.standing := by
  have hnth : (s.everyNth 6 fun e => e.target == n).2.standing = s.standing := by
    unfold State.everyNth
    split
    · rfl
    · simp only
      split <;> exact State.standing_congr rfl
  unfold State.perturbItem
  simp only
  split
  · exact (State.standing_congr rfl).trans hnth
  · exact hnth

theorem State.enqueueNow_standing (s : State) (n : Nat) (it : Item) : (s.enqueueNow n it).standing = s.standing := by
  have hperturb := s.perturbItem_standing n it
  unfold State.enqueueNow
  simp only
  generalize s.perturbItem n it = r at hperturb ⊢
  exact (State.touchQ_standing (State.setQ_standing _ _ _)).trans hperturb

theorem State.qRelease_standing (s : State) (n : Nat) (all : Bool) (iseq : Nat) : (s.qRelease n all iseq).standing = s.standing := by
  unfold State.qRelease
  simp only
  split
  · rfl
  · split
    · rfl
    · exact State.touchQ_standing (State.setQ_standing _ _ _)

theorem State.unclaim_standing (s : State) (a : Action) : (s.unclaim a).standing = s.standing := by
  unfold State.unclaim
  split
  · exact State.touchQ_standing (State.setQ_standing _ _ _)
  · exact State.standing_congr rfl
  · rfl

theorem State.lgbEnter_standing (s : State) (r : LogRec) : (s.lgbEnter r).standing = s.standing := by
  have hput (u : State) (l : Logbook) : State.standing { u with lgb := l } = u.standing := State.standing_congr rfl
  unfold State.lgbEnter
  simp only
  split <;> simp only [State.raise_standing, hput]

theorem State.lgbAppend_standing (s : State) (r : LogRec) : (s.lgbAppend r).standing = s.standing := by
  have hput (u : State) (l : Logbook) : State.standing { u with lgb := l } = u.standing := State.standing_congr rfl
  unfold State.lgbAppend
  simp only
  split <;> simp only [State.lgbEnter_standing, hput]

/-- The effect of an action at the seal reaches no Oarsman's registers (R353). -/
theorem State.applyAction_standing (iss : Issuer) (s : State) (ad : Action × List Byte) :
    (s.applyAction iss ad).standing = s.standing := by
  unfold State.applyAction
  simp only
  split
  · exact State.standing_congr rfl
  · exact State.standing_congr rfl
  · exact (State.enqueueNow_standing _ _ _).trans (State.setQ_standing _ _ _)
  · exact s.qRelease_standing _ _ _
  · exact (State.lgbAppend_standing _ _).trans (s.unclaim_standing _)
  · exact State.standing_congr rfl

/-! ### The parts that the actions of a group reach -/

/-- What the actions of a group may change (R347): memories, queues with their perturbations, the Logbook, stored content, events. -/
def actionParts : List Part := [.sram, .dram, .whf, .tst, .free, .lgb, .live] ++ evtParts

theorem State.touchQ_only {s : State} {n : Nat} {f : State → State} (h : onlyIn (.whf :: evtParts) s (f s)) :
    onlyIn (.whf :: evtParts) s (s.touchQ n f) := by
  have hcredit : onlyIn (.whf :: evtParts) s (if s.qFree n < 258 ∧ 258 ≤ (f s).qFree n then (f s).set (whfQStat_CREDIT n) 1 else f s) := by
    split
    · exact onlyIn_trans h (State.set_only _ _ _ _ (by decide))
    · exact h
  unfold State.touchQ
  simp only
  generalize (if s.qFree n < 258 ∧ 258 ≤ (f s).qFree n then (f s).set (whfQStat_CREDIT n) 1 else f s) = u at hcredit
  split
  · exact onlyIn_trans hcredit (onlyIn_mono (u.raise_only _) (by decide))
  · exact hcredit

theorem State.touchQ_setQ_only (s : State) (n m : Nat) (f : State → Queue) :
    onlyIn (.whf :: evtParts) s (s.touchQ n fun s => s.setQ m (f s)) :=
  State.touchQ_only (onlyIn_whf s _ _ (by decide))

theorem State.unclaim_only (s : State) (a : Action) : onlyIn (.lgb :: .whf :: evtParts) s (s.unclaim a) := by
  unfold State.unclaim
  split
  · exact onlyIn_mono (s.touchQ_setQ_only _ _ _) (by decide)
  · exact onlyIn_lgb s _ _ (by decide)
  · exact onlyIn_refl _ s

theorem State.qRelease_only (s : State) (n : Nat) (all : Bool) (iseq : Nat) : onlyIn (.whf :: evtParts) s (s.qRelease n all iseq) := by
  unfold State.qRelease
  simp only
  split
  · exact onlyIn_refl _ s
  · split
    · exact onlyIn_refl _ s
    · exact s.touchQ_setQ_only _ _ _

theorem State.applyAction_only (iss : Issuer) (s : State) (ad : Action × List Byte) : onlyIn actionParts s (s.applyAction iss ad) := by
  unfold State.applyAction
  simp only
  split
  · exact onlyIn_sram s _ _ (by decide)
  · exact onlyIn_dram s _ _ (by decide)
  · exact onlyIn_trans (onlyIn_whf s _ _ (by decide)) (onlyIn_mono (State.enqueueNow_queueWork _ _ _).only (by decide))
  · exact onlyIn_mono (s.qRelease_only _ _ _) (by decide)
  · exact onlyIn_trans (onlyIn_mono (s.unclaim_only _) (by decide)) (onlyIn_mono (State.lgbAppend_only _ _) (by decide))
  · exact onlyIn_live s _ _ (by decide)

/-! ### The seal of a group -/

/-- What the seal of a group may change. -/
def sealParts : List Part := [.aon, .nand, .ept, .cmt] ++ actionParts

/-- Stored content in force, its changed rows gathered for the NAND. -/
theorem State.putLive_only (s : State) (x : Image) (us : List StoreUpd) :
    onlyIn [.live, .nand, .ept] s (State.dirtyCtx (State.gather { s with live := x } us) us) := by
  have hlive := onlyIn_live s x [.live, .nand, .ept] (by decide)
  generalize ({ s with live := x } : State) = u at hlive ⊢
  exact onlyIn_trans (onlyIn_trans hlive (onlyIn_mono (u.gather_only us) (by decide)))
    (onlyIn_mono ((u.gather us).dirtyCtx_only us) (by decide))

/-- The seal of a group (R354): the parts that it keeps to, the number it takes, the group VISIBLE, the Oarsmen where they stood. -/
theorem State.sealGroup_spec (s : State) (g : Nat) (bound : List Byte) (jflags : Nat) (extra : List StoreUpd) :
    onlyIn sealParts s (s.sealGroup g bound jflags extra) ∧ ((s.sealGroup g bound jflags extra).grp g).st = .visible ∧
      ((s.sealGroup g bound jflags extra).grp g).jseq = s.cmt.next ∧ (s.sealGroup g bound jflags extra).cmt.next = s.cmt.next + 1 ∧
      (s.sealGroup g bound jflags extra).standing = s.standing := by
  unfold State.sealGroup
  extract_lets x j own ads s1 plain q upds _ s2 pre recs r _ s3
  have hfold : onlyIn actionParts s s1 ∧ s1.standing = s.standing :=
    ⟨onlyIn_foldl _ (fun u p => u.applyAction_only x.issuer p) _ _, foldl_keeps State.standing (fun u p => u.applyAction_standing x.issuer p) _ _⟩
  have hseal : onlyIn [.aon, .live, .nand, .ept] s1 q.2 := onlyIn_mono (s1.sealUpds_only _) (by decide)
  have hput : onlyIn [.aon, .live, .nand, .ept] q.2 s2 := onlyIn_mono (q.2.putLive_only (q.2.live.applyAll q.2.man q.1) upds) (by decide)
  have hstored := onlyIn_trans hseal hput
  have hcmt : s2.cmt = s.cmt := (hstored .cmt (by decide)).trans (hfold.1 .cmt (by decide))
  have honly : onlyIn sealParts s s3 :=
    onlyIn_trans (onlyIn_trans (onlyIn_mono hfold.1 (by decide)) (onlyIn_mono hstored (by decide))) (onlyIn_cmt s2 _ _ (by decide))
  have hstand : s2.standing = s.standing := (State.standing_of_only hstored (by decide)).trans hfold.2
  have hgrp (y : Group) : (s3.setGrp g y).grp g = y := by rw [State.grp_setGrp, if_pos rfl]
  refine ⟨onlyIn_trans honly (onlyIn_cmt s3 _ _ (by decide)), ?_, ?_, rfl, ?_⟩
  · rw [hgrp]
    split <;> rfl
  · rw [hgrp]
    split <;> rfl
  · exact (State.standing_congr rfl).trans hstand

theorem opCseal_answers (s : State) (n gd g : Nat) (hrun : oarRuns n s) (hgd : gd ≠ 0) (hg : g < 64) (hw : s.warned = false)
    (hst : (s.grp g).st = .opened) (hiss : (s.grp g).issuer = n) (hlate : (s.grp g).actions.any Action.late = false)
    (hval : s.val.group = none) :
    answers (.opCseal n gd g) s fun t =>
      (t.grp g).st = .visible ∧ (t.grp g).jseq = s.cmt.next ∧ t.cmt.next = s.cmt.next + 1 ∧ (t.oarN n).gr gd = 0 ∧
      (t.oarN n).pc = (s.oarN n).pc + 1 ∧ (t.oarN n).st = .running := by
  obtain ⟨v, hv⟩ : ∃ v, v = (s.busied n 1).sealGroup g [] (ofBool (n == 0x3F || n == 12 || n == 13)) [] := ⟨_, rfl⟩
  obtain ⟨honly, hvis, hjseq, hnext, hstand⟩ := (s.busied n 1).sealGroup_spec g [] (ofBool (n == 0x3F || n == 12 || n == 13)) []
  rw [← hv] at honly hvis hjseq hnext hstand
  have hby : (s.busied n 1).sealBy g n = (0, v) := by
    have hgrp : (s.busied n 1).grp g = s.grp g := rfl
    have hbusy : (s.busied n 1).val.group ≠ some g := by
      rw [show (s.busied n 1).val.group = none from hval]
      simp
    rw [State.sealBy, if_neg fun h => hbusy h.1]
    simp [State.sealRequest, hgrp, s.busied_warned n 1, hw, hst, hiss, hlate, hv]
  have hkept : onlyIn (.regs :: sealParts) s v := onlyIn_trans (s.set_only _ _ _ (by decide)) (onlyIn_mono honly (by decide))
  obtain ⟨hrunning, hpc, -⟩ : (v.oarN n).st = (s.oarN n).st ∧ (v.oarN n).pc = (s.oarN n).pc ∧ (v.oarN n).g = (s.oarN n).g := by
    have hn := congrFun hstand n
    simp only [State.standing, Prod.mk.injEq] at hn
    exact hn
  refine answers_oarDo (u := v.oarRet n (v.oarN n) gd 0) rfl hrun ?_ (hkept .pending (by decide)) (hkept .fuses (by decide))
    ⟨hvis, hjseq, hnext, ?_, ?_, ?_⟩
  · simp only [Nat.mod_eq_of_lt hg, hby]
    rfl
  · rw [State.oarRet_oarN]
    exact (Oarsman.gr_setG _ 0 hgd gd).trans (if_pos rfl)
  · rw [State.oarRet_oarN, hpc]
  · rw [State.oarRet_oarN]
    exact (Oarsman.setG_st _ _ _).trans (hrunning.trans hrun.1)

/-! ### A group given up -/

theorem State.putVal_only (s : State) (v : Valid) (fs : SMap Owner) :
    onlyIn [.val, .flows] s { s with val := v, flows := fs } :=
  onlyIn_trans (onlyIn_val s v _ (by decide)) (onlyIn_flows { s with val := v } fs _ (by decide))

theorem State.loseVal_only (s : State) (g : Nat) : onlyIn [.val, .flows] s (s.loseVal g) := by
  unfold State.loseVal
  split
  · exact s.putVal_only _ _
  · exact onlyIn_refl _ s

/-- An aborted group is FREE, and no other changes (R357). -/
theorem State.abortGroup_spec (s : State) (g : Nat) :
    onlyIn ([.cmt, .val, .flows, .lgb, .whf] ++ evtParts) s (s.abortGroup g) ∧ (s.abortGroup g).grp g = {} ∧
      (∀ k, k ≠ g → (s.abortGroup g).grp k = s.grp k) ∧ (s.abortGroup g).standing = s.standing := by
  obtain ⟨u, hu⟩ : ∃ u, u = (s.grp g).actions.foldl State.unclaim s := ⟨_, rfl⟩
  have hfold : onlyIn (.lgb :: .whf :: evtParts) s u := hu ▸ onlyIn_foldl _ State.unclaim_only _ s
  have hstand : u.standing = s.standing := hu ▸ foldl_keeps State.standing State.unclaim_standing _ s
  have hlost := (u.setGrp g {}).loseVal_only g
  have habort : s.abortGroup g = (u.setGrp g {}).loseVal g := by rw [hu]; rfl
  have hcmt : (s.abortGroup g).cmt = { s.cmt with groups := smPut {} s.cmt.groups g {} } := by
    rw [habort, hlost .cmt (by decide), State.setGrp, hfold .cmt (by decide)]
  refine ⟨?_, ?_, fun k hk => ?_, ?_⟩
  · rw [habort]
    exact onlyIn_trans (onlyIn_trans (onlyIn_mono hfold (by decide)) (onlyIn_cmt u _ _ (by decide))) (onlyIn_mono hlost (by decide))
  · rw [State.grp, hcmt, smGet_put, if_pos rfl]
  · rw [State.grp, hcmt, smGet_put, if_neg hk]
    rfl
  · rw [habort]
    exact ((State.standing_of_only hlost (by decide)).trans (State.standing_congr rfl)).trans hstand

theorem opCabort_answers (s : State) (n gd g : Nat) (hrun : oarRuns n s) (hgd : gd ≠ 0) (hg : g < 64) (hst : (s.grp g).st = .opened)
    (hiss : (s.grp g).issuer = n) :
    answers (.opCabort n gd g) s fun t =>
      t.grp g = {} ∧ (∀ k ∈ List.range 64, k ≠ g → t.grp k = s.grp k) ∧ (t.oarN n).gr gd = 0 ∧ (t.oarN n).pc = (s.oarN n).pc + 1 := by
  obtain ⟨honly, hfree, hother, hstand⟩ := (s.busied n 4).abortGroup_spec g
  have hreq : (s.busied n 4).abortRequest g n = (0, (s.busied n 4).abortGroup g) := by
    have hgrp : (s.busied n 4).grp g = s.grp g := rfl
    simp [State.abortRequest, hgrp, hst, hiss]
  obtain ⟨v, hv⟩ : ∃ v, v = (s.busied n 4).abortGroup g := ⟨_, rfl⟩
  rw [← hv] at honly hfree hother hstand hreq
  have hpc : (v.oarN n).pc = (s.oarN n).pc := congrArg (fun x => x.2.1) (congrFun hstand n)
  have hpending : v.pending = s.pending := honly .pending (by decide)
  have hfuses : v.fuses = s.fuses := honly .fuses (by decide)
  refine answers_oarDo (u := v.oarRet n (v.oarN n) gd 0) rfl hrun ?_ hpending hfuses ⟨hfree, fun k _ hk => hother k hk, ?_, ?_⟩
  · simp only [Nat.mod_eq_of_lt hg, hreq]
    rfl
  · rw [State.oarRet_oarN]
    exact (Oarsman.gr_setG _ 0 hgd gd).trans (if_pos rfl)
  · rw [State.oarRet_oarN, hpc]

/-- Settles O47, a lemma for each clause. -/
theorem oarsmanJobsAndCommitGroups : Obligations.OarsmanJobsAndCommitGroups :=
  ⟨opHsub_answers, opHsub_waits, opHwait_answers, hashJobComplete_answers, hashJobComplete_unserved, hashJobComplete_awaited,
    opCopen_answers, opCopen_refused, opCstage_answers, opCseal_answers, opCabort_answers, opCwaitd_answers⟩

end Sys2Proof.Machine

/-! ## 08_reading_validation.md: records through the stages, the group, the batches, the capture registers -/

namespace Sys2Proof.Machine

/-! ### Parts that the operations of the pipeline keep to -/

theorem State.sendAck_only (s : State) (c a seq status verdict : Nat) : onlyIn frameParts s (s.sendAck c a seq status verdict) := by
  unfold State.sendAck
  split
  · exact onlyIn_refl _ s
  · split
    · split
      · exact onlyIn_refl _ s
      · simp only
        split
        · exact onlyIn_trans (onlyIn_trans (s.setCell_only c _ _ (by decide)) (State.setCell_only _ c _ _ (by decide)))
            (State.queuePlc_only _ _ _ _ _ _ _)
        · exact onlyIn_refl _ s
    · exact onlyIn_mono (s.queueRadK_queueWork _ _ _ _ _ _).only (by decide)

theorem State.batchIdle_only (s : State) (run : Bool) : onlyIn (.whf :: evtParts) s (s.batchIdle run) := by
  unfold State.batchIdle
  split
  · exact onlyIn_refl _ s
  · split
    · exact onlyIn_refl _ s
    · exact s.touchQ_setQ_only _ _ _

theorem State.showBatch_only (s : State) : onlyIn [.regs] s s.showBatch :=
  onlyIn_trans (s.set_only _ _ _ (by decide)) (State.set_only _ _ _ _ (by decide))

theorem State.noteStreamFull_only (s : State) (a : Action) : onlyIn (.live :: evtParts) s (s.noteStreamFull a) := by
  unfold State.noteStreamFull
  split
  · exact onlyIn_trans (onlyIn_live s _ _ (by decide)) (onlyIn_mono (State.raiseIf_only _ _ _) (by decide))
  · exact onlyIn_refl _ s

/-- What staging may change (R351, R561): the group, the queues, the Logbook's places, the streams' marks, events. -/
def stageParts : List Part := [.cmt, .whf, .lgb, .live] ++ evtParts

theorem State.stage_only (s : State) (g : Nat) (iss : Issuer) (a : Action) : onlyIn stageParts s (s.stage g iss a).2 := by
  have hraise (e : Nat) : onlyIn stageParts s (s.raise e) := onlyIn_mono (s.raise_only e) (by decide)
  unfold State.stage
  simp only
  split; · exact onlyIn_refl _ s
  split; · exact onlyIn_refl _ s
  split; · exact onlyIn_refl _ s
  split; · exact hraise 290
  split; · exact hraise 297
  split; · exact hraise 289
  split; · exact onlyIn_mono (s.noteStreamFull_only a) (by decide)
  exact onlyIn_trans (onlyIn_mono (s.claim_only a) (by decide)) (onlyIn_cmt _ _ _ (by decide))

theorem State.stageAll_only (s : State) (g : Nat) (acts : List Action) : onlyIn stageParts s (s.stageAll g acts).1 := by
  unfold State.stageAll
  refine List.foldlRecOn (motive := fun r : State × Bool => onlyIn stageParts s r.1) acts _ (onlyIn_refl _ s) fun r hr a _ => ?_
  split
  · exact onlyIn_trans hr (r.1.stage_only g 7 a)
  · exact hr

/-! ### Contexts fetched -/

/-- What a context fetch may change (R268, R270): the hot cache and its counts, the test block, events and the Logbook. -/
def fetchParts : List Part := .ept :: .tst :: logParts

theorem clockSweep_only (pins : List Nat) (n : Nat) (s : State) : onlyIn [.ept] s (clockSweep pins n s).2 := by
  induction n generalizing s with
  | zero => exact onlyIn_refl _ s
  | succ n ih =>
    unfold clockSweep
    simp only
    split
    · exact onlyIn_ept s _ _ (by decide)
    · split
      · exact onlyIn_trans (onlyIn_ept s _ _ (by decide)) (ih _)
      · split
        · exact onlyIn_trans (onlyIn_ept s _ _ (by decide)) (ih _)
        · exact onlyIn_ept s _ _ (by decide)

theorem State.cacheRoom_only (s : State) : onlyIn [.ept] s s.cacheRoom.2 := by
  unfold State.cacheRoom
  split
  · exact onlyIn_refl _ s
  · exact clockSweep_only _ _ s

theorem State.ctxFetch_only (s : State) (slot : Nat) (line : LineRead) : onlyIn fetchParts s (s.ctxFetch slot line).2 := by
  have hcount : onlyIn fetchParts s (s.dramCount line) := by
    cases line
    · exact onlyIn_refl _ s
    · exact s.bump_only _ _ _ (by decide)
    · exact s.bump_only _ _ _ (by decide)
  have hrestore (u : State) : onlyIn fetchParts u (u.restoreCtx slot) := onlyIn_mono (u.raiseLog_only _ _) (by decide)
  unfold State.ctxFetch
  simp only
  refine onlyIn_trans hcount ?_
  split
  · exact onlyIn_trans (onlyIn_trans (onlyIn_trans (onlyIn_tst _ _ _ (by decide)) (onlyIn_mono (State.raiseLog_only _ _ _) (by decide)))
      (onlyIn_mono (State.disarm_only _ _ _ _) (by decide))) (hrestore _)
  · split
    · exact hrestore _
    · exact onlyIn_refl _ _

theorem State.hot_only (s : State) (slot : Nat) (write : Bool) (line : LineRead) : onlyIn fetchParts s (s.hot slot write line).2 := by
  unfold State.hot
  split
  · exact onlyIn_trans (s.set_only _ _ _ (by decide)) (onlyIn_ept _ _ _ (by decide))
  · have hfetch : onlyIn fetchParts s ((s.wrapUp eptCacheMiss_COUNT 1).ctxFetch slot line).2 :=
      onlyIn_trans (s.set_only _ _ _ (by decide)) (State.ctxFetch_only _ slot line)
    have hroom := State.cacheRoom_only ((s.wrapUp eptCacheMiss_COUNT 1).ctxFetch slot line).2
    simp only
    split
    · next hc =>
      rw [hc] at hroom
      exact onlyIn_trans (onlyIn_trans hfetch (onlyIn_mono hroom (by decide))) (onlyIn_ept _ _ _ (by decide))
    · next hc =>
      rw [hc] at hroom
      exact onlyIn_trans hfetch (onlyIn_mono hroom (by decide))

theorem State.fetchFor_only (s : State) (v : VRec) (slot : Nat) (line : LineRead) : onlyIn fetchParts s (s.fetchFor v slot line).2 := by
  unfold State.fetchFor
  simp only
  split
  · exact onlyIn_trans (s.hot_only slot false line) (State.ctxFetch_only _ slot line)
  · exact s.hot_only slot false line

/-! ### Batches -/

/-- The batch that a closing makes of the open one (R256). -/
def State.batchClosed (s : State) (flags : Nat) : Batch :=
  { s.val.batch with flags := flags + 8 * ofBool (s.get trfClockTrust_STATE != 0), closeNs := s.clk.ptp }

/-- A batch with an entry closes (R256): what becomes of the pipeline, which other parts change. -/
theorem State.closeBatch_spec {s : State} (flags : Nat) (h : s.val.batch.count ≠ 0) :
    (s.closeBatch flags).val = { s.val with batch := {}, closed := s.val.closed ++ [s.batchClosed flags] } ∧
      onlyIn (.val :: .whf :: (evtParts ++ journalParts)) s (s.closeBatch flags) := by
  obtain ⟨u, hu⟩ : ∃ u, u = s.journalUpd [.record tabClosed (s.cmt.next) (s.batchClosed flags).row, .record tabBatch 0 []] := ⟨_, rfl⟩
  have hjournal : onlyIn journalParts s u := hu ▸ s.journalUpd_only _
  have hval : u.val = s.val := hjournal .val (by decide)
  have hclose : s.closeBatch flags =
      (((State.showBatch { u with val := { u.val with batch := {}, closed := u.val.closed ++ [s.batchClosed flags] } }).batchIdle false).raise 204) := by
    rw [State.closeBatch, if_neg h, hu]
    rfl
  have hafter (v : State) : onlyIn (.whf :: evtParts) v ((v.showBatch.batchIdle false).raise 204) :=
    onlyIn_trans (onlyIn_trans (onlyIn_mono v.showBatch_only (by decide)) (State.batchIdle_only _ false))
      (onlyIn_mono (State.raise_only _ _) (by decide))
  rw [hclose]
  refine ⟨(hafter _ .val (by decide)).trans (by rw [hval]), ?_⟩
  exact onlyIn_trans (onlyIn_trans (onlyIn_mono hjournal (by decide)) (onlyIn_val u _ _ (by decide))) (onlyIn_mono (hafter _) (by decide))

/-- What a group takes with it of the batches: the open batch and the closed ones. -/
def onlyBatches (s t : State) : Prop := ∃ b c, t.val = { s.val with batch := b, closed := c }

theorem onlyBatches.trans {s t u : State} (h : onlyBatches s t) (k : onlyBatches t u) : onlyBatches s u := by
  obtain ⟨b, c, h⟩ := h
  obtain ⟨d, e, k⟩ := k
  exact ⟨d, e, by rw [k, h]⟩

theorem onlyBatches.of_val {s t : State} (h : t.val = s.val) : onlyBatches s t := ⟨s.val.batch, s.val.closed, h⟩

theorem State.closeBatch_onlyBatches (s : State) (flags : Nat) : onlyBatches s (s.closeBatch flags) := by
  by_cases h : s.val.batch.count = 0
  · rw [State.closeBatch, if_pos h]
    exact .of_val rfl
  · exact ⟨_, _, (s.closeBatch_spec flags h).1⟩

/-- The open batch replaced, and closed where it is full. -/
theorem State.putBatch_onlyBatches (s : State) (b : Batch) (full : Prop) [Decidable full] :
    onlyBatches s (if full then ((State.showBatch { s with val := { s.val with batch := b } }).batchIdle true).closeBatch 0
      else (State.showBatch { s with val := { s.val with batch := b } }).batchIdle true) := by
  have hput : onlyBatches s ((State.showBatch { s with val := { s.val with batch := b } }).batchIdle true) :=
    ⟨b, s.val.closed, (State.batchIdle_only _ true .val (by decide)).trans (State.showBatch_only _ .val (by decide))⟩
  split
  · exact hput.trans (State.closeBatch_onlyBatches _ 0)
  · exact hput

theorem State.appendEntry_onlyBatches (s : State) (e : List Byte) : onlyBatches s (s.appendEntry e) := by
  have hfull : onlyBatches s (if 1048576 < 64 + s.val.batch.entries.length + e.length then s.closeBatch 0 else s) := by
    split
    · exact s.closeBatch_onlyBatches 0
    · exact .of_val rfl
  unfold State.appendEntry
  simp only
  generalize (if 1048576 < 64 + s.val.batch.entries.length + e.length then s.closeBatch 0 else s) = u at hfull ⊢
  exact hfull.trans (u.putBatch_onlyBatches _ _)

theorem State.appendEntries_onlyBatches (es : List (List Byte)) (s : State) : onlyBatches s (es.foldl State.appendEntry s) :=
  List.foldlRecOn es _ (.of_val rfl) fun _ h e _ => h.trans (State.appendEntry_onlyBatches _ e)

/-! ### The group is sealed -/

theorem State.phaseEvents_only (s : State) (n : Nat) : onlyIn evtParts s (s.phaseEvents n) := by
  unfold State.phaseEvents
  split
  · split
    · exact onlyIn_trans (s.raiseIf_only _ _) (State.raiseIf_only _ _ _)
    · exact onlyIn_refl _ s
  · exact onlyIn_refl _ s

/-- The seal of the group in force empties it and takes its entries into the open batch (R251). -/
theorem State.sealVal_val {s : State} {g : Nat} (h : s.val.group = some g) : ∃ b c,
    s.sealVal.val = { s.val with batch := b, closed := c, pend := [], group := none, members := [], staged := 0 } := by
  obtain ⟨b, c, hbatch⟩ := State.appendEntries_onlyBatches s.val.pend s
  refine ⟨b, c, ?_⟩
  have hmember (u : State) (n : Nat) : ((u.phaseEvents n).dropFlows (.record n)).val = u.val := u.phaseEvents_only n .val (by decide)
  have hseal (u : State) (extra : List StoreUpd) : (u.sealGroup g [] 0 extra).val = u.val :=
    (u.sealGroup_spec g [] 0 extra).1 .val (by decide)
  have happly : s.applyPend.val = { s.val with batch := b, closed := c, pend := [] } := by
    simp only [State.applyPend, hbatch]
  simp only [State.sealVal, h]
  rw [foldl_keeps State.val hmember]
  change ({ (State.sealGroup _ g [] 0 _).val with group := none, members := [], staged := 0 } : Valid) = _
  rw [hseal, happly]

theorem State.sealFull_recs (s : State) : s.sealFull.val.recs = s.val.recs := by
  unfold State.sealFull
  split
  · cases hg : s.val.group with
    | none => simp only [State.sealVal, hg]
    | some g =>
      obtain ⟨b, c, h⟩ := State.sealVal_val hg
      rw [h]
  · rfl

theorem groupWaitExpiry_answers (s : State) (g : Nat) (hg : s.val.group = some g) (hw : s.warned = false)
    (ht : s.val.groupAt + 1000 * s.val.groupWait ≤ s.clk.mono) :
    answers .groupWaitExpiry s fun t => t.val.group = none ∧ t.val.members = [] ∧ t.val.pend = [] := by
  obtain ⟨b, c, hval⟩ := State.sealVal_val hg
  have hx : exec .groupWaitExpiry s = s.out s.sealVal := by
    simp only [exec, execGroupWaitExpiry, hw, Bool.false_or, decide_eq_true_eq, if_neg (Nat.not_lt.mpr ht)]
  refine answers_of_out_congr hx ?_
  show s.sealVal.val.group = none ∧ s.sealVal.val.members = [] ∧ s.sealVal.val.pend = []
  rw [hval]
  exact ⟨rfl, rfl, rfl⟩

theorem reassemblyTimeout_answers (s : State) (c a : Nat) (x : Reasm) (h : s.reasmOf c a = some x) :
    answers (.reassemblyTimeout c a) s fun t => t.reasmOf c a = none := by
  have hx : exec (.reassemblyTimeout c a) s = s.out ((s.dropReasm c a).raise 201) := by
    simp only [exec, execReassemblyTimeout, h]
  have hval : ((s.dropReasm c a).raise 201).val.reasm = s.val.reasm.filter fun x => !(x.cell == c && x.addr == a) := by
    rw [State.raise_val, State.dropReasm, h]
    exact congrArg Valid.reasm (State.txnRelease_only _ _ .val (by decide))
  refine answers_of_out_congr hx ?_
  show ((s.dropReasm c a).raise 201).val.reasm.find? (fun r => r.cell == c && r.addr == a) = none
  rw [hval, List.find?_eq_none]
  intro r hr
  simpa [imp_iff_not_or] using (List.mem_filter.mp hr).2

theorem batchMaxageExpiry_answers (s : State) (h : s.val.batch.count ≠ 0) :
    answers .batchMaxageExpiry s fun t => t.val.batch = {} ∧
      ∃ b ∈ t.val.closed, b.count = s.val.batch.count ∧ b.entries = s.val.batch.entries ∧ b.closeNs = s.clk.ptp := by
  obtain ⟨hval, -⟩ := s.closeBatch_spec 2 h
  refine answers_of_out_congr (u := s.closeBatch 2) rfl ?_
  show (s.closeBatch 2).val.batch = {} ∧ ∃ b ∈ (s.closeBatch 2).val.closed, _
  rw [hval]
  exact ⟨rfl, s.batchClosed 2, by simp, rfl, rfl, rfl⟩

/-! ### A batch is signed -/

/-- What a reservation of signing indices may change (R488). -/
def reserveParts : List Part := .keys :: (logParts ++ journalParts)

theorem State.putReservation_only (s : State) (k : Keys) (a : AlwaysOn) : onlyIn reserveParts s { s with keys := k, aon := a } :=
  onlyIn_trans (onlyIn_keys s k _ (by decide)) (onlyIn_aon { s with keys := k } a _ (by decide))

theorem State.reserve_only (s : State) (r : Nat) : onlyIn reserveParts s (s.reserve r) := by
  have hjournal : onlyIn reserveParts s (s.journalUpd [.record tabResv 0 [r]]) := onlyIn_mono (s.journalUpd_only _) (by decide)
  unfold State.reserve
  generalize s.journalUpd [.record tabResv 0 [r]] = u at hjournal ⊢
  exact onlyIn_trans (onlyIn_trans hjournal (u.putReservation_only _ _)) (onlyIn_mono (State.raise_only _ 462) (by decide))

/-- A reservation leaves the next index. -/
theorem State.reserve_next (s : State) (r : Nat) : (s.reserve r).keys.next = s.keys.next := by
  have hjournal : (s.journalUpd [.record tabResv 0 [r]]).keys = s.keys := s.journalUpd_only _ .keys (by decide)
  simp only [State.reserve, State.raise_keys, hjournal]

theorem State.putEpoch_only (s : State) (f : Fuses) (k : Keys) : onlyIn (.fuses :: reserveParts) s { s with fuses := f, keys := k } :=
  onlyIn_trans (onlyIn_fuses s f _ (by decide)) (onlyIn_keys { s with fuses := f } k _ (by decide))

theorem State.nextEpoch_only (s : State) : onlyIn (.fuses :: reserveParts) s s.nextEpoch := by
  have hset (u : State) (f : Fld) (v : Nat) : onlyIn reserveParts u (u.set f v) := u.set_only _ _ _ (by decide)
  unfold State.nextEpoch
  extract_lets e _ _ s1
  have hrest : onlyIn reserveParts s1
      (((((s1.set keyIdStat_EPOCH e).set keyIdStat_READY 0).set keyIdStat_GENERATING 1).raiseLog 463 (be 1 e)).reserve (e * 2 ^ 22 + 1)) :=
    onlyIn_trans (onlyIn_trans (onlyIn_trans (onlyIn_trans (hset _ _ _) (hset _ _ _)) (hset _ _ _))
      (onlyIn_mono (State.raiseLog_only _ _ _) (by decide))) (State.reserve_only _ _)
  exact onlyIn_trans (s.putEpoch_only _ _) (onlyIn_mono hrest (by decide))

/-- Indices of the next epoch begin at its first block (R489). -/
theorem State.nextEpoch_next (s : State) : s.nextEpoch.keys.next = min 63 (s.fuses.epoch + 1) * 2 ^ 34 := by
  simp only [State.nextEpoch, State.reserve_next, State.raiseLog_keys, State.set_keys]

/-- An index taken is used up: the next one lies past it (R488, R489). -/
theorem State.takeIndex_spec (s : State) : onlyIn (.fuses :: reserveParts) s s.takeIndex.2 ∧ s.keys.next < s.takeIndex.2.keys.next := by
  have hreserved (u : State) (c : Prop) [Decidable c] (r : Nat) : onlyIn reserveParts u (if c then u.reserve r else u) ∧
      (if c then u.reserve r else u).keys.next = u.keys.next := by
    split
    · exact ⟨u.reserve_only r, u.reserve_next r⟩
    · exact ⟨onlyIn_refl _ u, rfl⟩
  unfold State.takeIndex
  extract_lets i _ s1 s2 low _ s3
  obtain ⟨hs2, hnext2⟩ : onlyIn reserveParts s1 s2 ∧ s2.keys.next = i + 1 := hreserved s1 _ _
  clear_value s2 low
  have hnext3 : s3.keys.next = i + 1 := by
    rw [State.raiseIf_keys]
    exact hnext2
  have hi : s.keys.next < i + 1 := Nat.lt_succ_self _
  have honly : onlyIn reserveParts s s3 :=
    onlyIn_trans (onlyIn_trans (onlyIn_trans (onlyIn_keys s _ _ (by decide)) hs2) (onlyIn_keys s2 _ _ (by decide)))
      (onlyIn_mono (State.raiseIf_only _ _ _) (by decide))
  clear_value s3 i
  have hmore : onlyIn (.fuses :: reserveParts) s s3 := onlyIn_mono honly (by decide)
  simp only
  split
  · next hend =>
    split
    · next hlast =>
      have hfuses : s3.fuses = s.fuses := honly .fuses (by decide)
      have hstart : s3.nextEpoch.keys.next = epochEnd s.fuses.epoch := by
        rw [State.nextEpoch_next, hfuses, min_eq_right hlast, epochEnd]
      refine ⟨onlyIn_trans hmore s3.nextEpoch_only, ?_⟩
      rw [hstart, ← hend]
      exact hi
    · refine ⟨onlyIn_trans hmore (s3.set_only _ _ _ (by decide)), ?_⟩
      rw [State.set_keys, hnext3]
      exact hi
  · exact ⟨hmore, by rw [hnext3]; exact hi⟩

theorem State.sendParts_only (s : State) (p : Nat) (id : Option Nat) (b : List Byte) : onlyIn registerParts s (s.sendParts p id b) :=
  onlyIn_foldl _ (fun st _ => st.gwyReliable_only _ _ _ _) _ s

theorem State.noteLimit_val (s : State) : ∃ c, s.noteLimit.val = { s.val with limitSeen := c } ∧ s.noteLimit.keys = s.keys := by
  unfold State.noteLimit
  split
  · exact ⟨_, rfl, rfl⟩
  · split
    · exact ⟨_, rfl, rfl⟩
    · exact ⟨true, State.raise_val _ _, State.raise_keys _ _⟩

/-- A batch with its signature waits behind the signed ones and goes out to the peer above (R258). -/
def State.sendSigned (s : State) (b : Batch) (rest : List Batch) (n : Nat) (bytes : List Byte) : State :=
  let s1 : State := { s with val := { s.val with closed := rest, signed := s.val.signed ++ [b], bseq := n } }
  ((s1.showBatch.raise 205).sendParts s1.upPeer (some n) bytes).noteLimit

theorem State.sendSigned_spec (s : State) (b : Batch) (rest : List Batch) (n : Nat) (bytes : List Byte) :
    (∃ c, (s.sendSigned b rest n bytes).val =
      { s.val with closed := rest, signed := s.val.signed ++ [b], bseq := n, limitSeen := c }) ∧
      (s.sendSigned b rest n bytes).keys = s.keys := by
  have hsent (u : State) : onlyIn registerParts u ((u.showBatch.raise 205).sendParts u.upPeer (some n) bytes) :=
    onlyIn_trans (onlyIn_trans (onlyIn_mono u.showBatch_only (by decide)) (onlyIn_mono (State.raise_only _ 205) (by decide)))
      (State.sendParts_only _ _ _ _)
  unfold State.sendSigned
  extract_lets _ s1
  obtain ⟨c, hval, hkeys⟩ := ((s1.showBatch.raise 205).sendParts s1.upPeer (some n) bytes).noteLimit_val
  exact ⟨⟨c, by rw [hval, hsent s1 .val (by decide)]⟩, by rw [hkeys, hsent s1 .keys (by decide)]⟩

theorem State.signBatch_sends (s : State) (b : Batch) (rest : List Batch) :
    ∃ u b1 bytes, s.signBatch b rest = u.sendSigned b1 rest (s.val.bseq + 1) bytes ∧ b1.bseq = s.val.bseq + 1 ∧
      onlyIn journalParts s.takeIndex.2 u :=
  ⟨_, _, _, rfl, rfl, State.journalUpd_only _ _⟩

/-- A signed batch takes the next BSEQ; its index is used up (R257, R258, R488). -/
theorem State.signBatch_spec (s : State) (b : Batch) (rest : List Batch) : (s.signBatch b rest).val.closed = rest ∧
    (s.signBatch b rest).val.bseq = s.val.bseq + 1 ∧
    (s.signBatch b rest).val.signed.map (fun b => b.bseq) = s.val.signed.map (fun b => b.bseq) ++ [s.val.bseq + 1] ∧
    s.keys.next < (s.signBatch b rest).keys.next := by
  obtain ⟨htake, hnext⟩ := s.takeIndex_spec
  obtain ⟨u, b1, bytes, hsends, hb1, hu⟩ := s.signBatch_sends b rest
  obtain ⟨⟨c, hval⟩, hkeys⟩ := u.sendSigned_spec b1 rest (s.val.bseq + 1) bytes
  rw [hsends, hval, hkeys, hu .val (by decide), htake .val (by decide), hu .keys (by decide)]
  refine ⟨rfl, rfl, ?_, hnext⟩
  rw [List.map_append, List.map_singleton, hb1]

theorem batchSigned_answers (s : State) (b : Batch) (rest : List Batch) (j : Nat) (r : List Nat) (more : SMap (List Nat))
    (hclosed : s.val.closed = b :: rest) (htab : smGet [] s.live.tables tabClosed = (j, r) :: more) (hw : s.warned = false)
    (hready : s.idReady = true) (hindex : s.noIndex = false) (hsign : s.maySign s.keys.next = true) (hdur : j ≤ s.cmt.durJseq) :
    answers .batchSigned s fun t => t.val.closed = rest ∧ t.val.bseq = s.val.bseq + 1 ∧
      t.val.signed.map (fun b => b.bseq) = s.val.signed.map (fun b => b.bseq) ++ [s.val.bseq + 1] ∧ s.keys.next < t.keys.next := by
  have hable : s.batchSignable = true := by
    simp only [State.batchSignable, hclosed, htab, hready, hindex, hsign, decide_eq_true hdur, Bool.not_false, Bool.and_self]
  have hx : exec .batchSigned s = s.out (State.signBatch { s with val := { s.val with signing := false } } b rest) := by
    simp only [exec, execBatchSigned, hclosed, hw, hable, Bool.not_false, Bool.true_or, Bool.and_self, if_true]
  exact answers_of_out_congr hx (State.signBatch_spec { s with val := { s.val with signing := false } } b rest)

/-! ### The capture registers -/

/-- Two read-write fields of a register, one at its top and one at its bottom, after a write (R15). -/
theorem writeFields_two (i : Iface) {a x y : Nat} (sealOpen : Bool) (old v : Word) (hoar : a ≠ oarCtrl 12 ∧ a ≠ oarCtrl 13) (hx : x ≤ 31)
    (hy : y < x) : bitsOf (writeFields i a sealOpen [⟨31, x, .rw⟩, ⟨y, 0, .rw⟩] old v) 31 x = bitsOf v 31 x ∧
      bitsOf (writeFields i a sealOpen [⟨31, x, .rw⟩, ⟨y, 0, .rw⟩] old v) y 0 = bitsOf v y 0 := by
  have hsl (hi lo : Nat) : actsAsSl i a ⟨hi, lo, .rw⟩ = false := by simp [actsAsSl, hoar]
  have hlt (hi lo : Nat) : bitsOf v hi lo % 2 ^ (hi + 1 - lo) = bitsOf v hi lo := by simp [bitsOf]
  simp only [writeFields, List.foldl_cons, List.foldl_nil, hsl, fieldNew, Bool.false_and, Bool.false_eq_true, if_false]
  refine ⟨?_, ?_⟩
  · rw [bitsOf_putBits_other _ _ _ _ _ _ (by omega) (by omega) (by omega), bitsOf_putBits _ _ _ _ hx (by omega), hlt]
  · rw [bitsOf_putBits _ _ _ _ (by omega) (by omega), hlt]

theorem State.storeWord_dedupSel (s : State) (i : Iface) (v : Word) : ∃ w, s.storeWord i valDedupSel v = s.setReg valDedupSel w ∧
    bitsOf w 31 31 = bitsOf v 31 31 ∧ bitsOf w 19 0 = bitsOf v 19 0 :=
  ⟨_, s.storeWord_plain i v (d := ⟨0x600020, [], [⟨31, 31, .rw⟩, ⟨19, 0, .rw⟩]⟩) (by decide +kernel) (by decide) (by decide) (by decide)
    (by decide), writeFields_two i _ _ _ (by decide) (by decide) (by decide)⟩

theorem State.storeWord_batchCfg (s : State) (i : Iface) (v : Word) : ∃ w, s.storeWord i valBatchCfg v = s.setReg valBatchCfg w ∧
    bitsOf w 12 0 = bitsOf v 12 0 :=
  ⟨_, s.storeWord_plain i v (d := ⟨0x600040, [], [⟨31, 16, .rw⟩, ⟨12, 0, .rw⟩]⟩) (by decide +kernel) (by decide) (by decide) (by decide)
    (by decide), (writeFields_two i _ _ _ (by decide) (by decide) (by decide)).2⟩

theorem State.storeWord_vcntSel_only (s : State) (i : Iface) (v : Word) : onlyIn [.regs] s (s.storeWord i valVcntSel v) := by
  rw [s.storeWord_plain i v (d := ⟨0x600010, [], [⟨31, 31, .wo⟩, ⟨7, 0, .rw⟩]⟩) (by decide +kernel) (by decide) (by decide) (by decide)
    (by decide)]
  exact s.setReg_only _ _ _ (by decide)

theorem dedupQuery_answers (s : State) (i : Iface) (v : Word) (k : Nat) (hm : s.mayAccess i valDedupSel true = true)
    (hk : s.named (wordBits v valDedupSel_INDEX) = some k) :
    answers (.dedupQuery i v) s fun t =>
      t.reg valDedupTop = BitVec.ofNat 32 (s.window k (wordBits v valDedupSel_SESSION != 0)).1 ∧
      t.reg valDedupWhi = BitVec.ofNat 32 ((s.window k (wordBits v valDedupSel_SESSION != 0)).2 / 2 ^ 32) ∧
      t.reg valDedupWlo = BitVec.ofNat 32 (s.window k (wordBits v valDedupSel_SESSION != 0)).2 ∧ onlyIn [.regs] s t := by
  obtain ⟨w, hw, hsession, hindex⟩ := s.storeWord_dedupSel i v
  obtain ⟨u, hu⟩ : ∃ u, u = s.setReg valDedupSel w := ⟨_, rfl⟩
  have hfield (f : Fld) (h : f.addr = valDedupSel) : u.get f = bitsOf w f.hi f.lo := by rw [hu, State.get_setReg, if_pos h]
  have hnamed : u.named (u.get valDedupSel_INDEX) = some k := by
    rw [hfield _ rfl, show bitsOf w valDedupSel_INDEX.hi valDedupSel_INDEX.lo = wordBits v valDedupSel_INDEX from hindex, hu]
    exact hk
  have hwindow : u.window k (u.flag valDedupSel_SESSION) = s.window k (wordBits v valDedupSel_SESSION != 0) := by
    rw [State.flag, hfield _ rfl, show bitsOf w valDedupSel_SESSION.hi valDedupSel_SESSION.lo = wordBits v valDedupSel_SESSION from hsession, hu]
    rfl
  have hx : exec (.dedupQuery i v) s = s.out u.dedupQuery := by
    simp only [exec, execDedupQuery, State.writeGate_granted _ _ _ _ _ hm, hw, hu]
  have honly : onlyIn [.regs] s u.dedupQuery := hu ▸ onlyIn_trans (s.setReg_only _ _ _ (by decide))
    (onlyIn_trans (onlyIn_trans (State.setReg_only _ _ _ _ (by decide)) (State.setReg_only _ _ _ _ (by decide)))
      (State.setReg_only _ _ _ _ (by decide)))
  refine answers_of_out hx (honly .pending (by decide)) (honly .fuses (by decide)) ?_
  simp only [State.dedupQuery, hnamed, hwindow, State.reg_setReg] at honly ⊢
  exact ⟨rfl, rfl, rfl, honly⟩

theorem valVcntClear_answers (s : State) (i : Iface) (v : Word) (hm : s.mayAccess i valVcntSel true = true) :
    answers (.valVcntClear i v) s fun t => t.val = { s.val with vcnt := [] } ∧ onlyIn [.regs, .val] s t := by
  have hclr : wordBits (v ||| 0x80000000#32) valVcntSel_CLR = 1 := by
    apply Nat.eq_of_testBit_eq
    intro n
    rw [wordBits, bitsOf_bit]
    cases n with
    | zero => simp [valVcntSel_CLR]
    | succ n => simp [valVcntSel_CLR, Nat.testBit_succ]
  obtain ⟨u, hu⟩ : ∃ u, u = s.storeWord i valVcntSel (v ||| 0x80000000#32) := ⟨_, rfl⟩
  have hstored : onlyIn [.regs] s u := hu ▸ s.storeWord_vcntSel_only i _
  have hx : exec (.valVcntClear i v) s = s.out { u with val := { u.val with vcnt := [] } } := by
    simp only [exec, execValVcntClear, State.writeGate_granted _ _ _ _ _ hm, State.clearVcnt, hclr, if_true, hu]
  have honly : onlyIn [.regs, .val] s { u with val := { u.val with vcnt := [] } } :=
    onlyIn_trans (onlyIn_mono hstored (by decide)) (onlyIn_val u _ _ (by decide))
  refine answers_of_out hx (honly .pending (by decide)) (honly .fuses (by decide)) ⟨?_, honly⟩
  show ({ u.val with vcnt := [] } : Valid) = _
  rw [show u.val = s.val from hstored .val (by decide)]

/-- The closing of a batch leaves the registers of the blocks before the Wharf, but for VAL_BATCH_STAT. -/
theorem State.closeBatch_reg {s : State} (flags : Nat) {a : Nat} (h : s.val.batch.count ≠ 0) (ha : a < whfQStat 0)
    (hstat : a ≠ valBatchStat) : (s.closeBatch flags).reg a = s.reg a := by
  have hidle (u : State) : (u.batchIdle false).reg a = u.reg a := by
    unfold State.batchIdle
    split
    · rfl
    · split
      · rfl
      · exact (State.touchQ_onlyQueue _ _ _ (State.setQ_onlyQueue _ _ _ _)).queueWork.regs a ha
  have hshow (u : State) : u.showBatch.reg a = u.reg a := by
    rw [State.showBatch, State.setSat, State.reg_set, if_neg (show a ≠ valBatchStat_UNACKED.addr from hstat), State.reg_set,
      if_neg (show a ≠ valBatchStat_OPEN.addr from hstat)]
  have hevent : a ∉ [fryCnt] := by
    simp only [whfQStat, fryCnt, List.mem_singleton] at ha ⊢
    omega
  rw [State.closeBatch, if_neg h]
  simp only
  rw [State.raise_regs _ _ a hevent, hidle, hshow]
  exact keepsRegs_of_eq [] (s.journalUpd_only _ .regs (by decide)) a (by simp)

theorem valBatchCfgWrite_answers (s : State) (i : Iface) (v : Word) (hm : s.mayAccess i valBatchCfg true = true)
    (hc : s.val.batch.count ≠ 0) (h0 : wordBits v valBatchCfg_MAX_ENTRIES ≠ 0) (hmax : wordBits v valBatchCfg_MAX_ENTRIES ≤ 4096)
    (hmet : wordBits v valBatchCfg_MAX_ENTRIES ≤ s.val.batch.count) :
    answers (.valBatchCfgWrite i v) s fun t => t.val.batch = {} ∧ t.get valBatchCfg_MAX_ENTRIES = wordBits v valBatchCfg_MAX_ENTRIES := by
  obtain ⟨w, hw, hentries⟩ := s.storeWord_batchCfg i v
  obtain ⟨u, hu⟩ : ∃ u, u = s.setReg valBatchCfg w := ⟨_, rfl⟩
  have hlimit : u.get valBatchCfg_MAX_ENTRIES = wordBits v valBatchCfg_MAX_ENTRIES := by
    rw [hu, State.get_setReg, if_pos (show valBatchCfg_MAX_ENTRIES.addr = valBatchCfg from rfl)]
    exact hentries
  have hcount : u.val.batch.count = s.val.batch.count := by rw [hu]; rfl
  have hentry : u.maxEntries = wordBits v valBatchCfg_MAX_ENTRIES := by
    rw [State.maxEntries, hlimit]
    exact if_neg (by omega)
  obtain ⟨flags, hclose⟩ : ∃ flags, u.batchCfg = u.closeBatch flags := by
    unfold State.batchCfg
    simp only [hcount, if_neg hc]
    split
    · exact ⟨2, rfl⟩
    · exact ⟨0, if_pos (hentry ▸ hmet)⟩
  have hx : exec (.valBatchCfgWrite i v) s = s.out (u.closeBatch flags) := by
    rw [← hclose, hu, ← hw]
    exact congrArg s.out (State.writeGate_granted s i valBatchCfg v State.batchCfg hm)
  have hopen : u.val.batch.count ≠ 0 := hcount ▸ hc
  refine answers_of_out_congr hx ⟨?_, ?_⟩
  · show (u.closeBatch flags).val.batch = {}
    rw [(u.closeBatch_spec flags hopen).1]
  · show (u.closeBatch flags).get valBatchCfg_MAX_ENTRIES = _
    rw [State.get_congr (u.closeBatch_reg flags hopen (by decide) (by decide)), hlimit]

end Sys2Proof.Machine

namespace Sys2Proof.Machine

/-! ### Places and flows -/

theorem State.vrec_setRec (s : State) (n m : Nat) (v : Option VRec) : (s.setRec n v).vrec m = if m = n then v else s.vrec m :=
  smGet_put _ _ _ _ _

theorem State.vrec_congr {s t : State} (h : t.val.recs = s.val.recs) (n : Nat) : t.vrec n = s.vrec n := by rw [State.vrec, State.vrec, h]

/-- A verdict counted (R242). -/
theorem State.countVerdict_val (s : State) (k : Nat) :
    (s.countVerdict k).val = { s.val with vcnt := smPut 0 s.val.vcnt k ((smGet 0 s.val.vcnt k + 1) % 2 ^ 32) } := by
  unfold State.countVerdict
  simp only
  split <;> simp only [State.raise_val, State.raiseIf_val]

theorem State.countVerdict_only (s : State) (k : Nat) : onlyIn (.val :: evtParts) s (s.countVerdict k) := by
  have hraised (u : State) : onlyIn (.val :: evtParts) u (u.raiseIf (decide (0x10 ≤ k)) 192) := onlyIn_mono (u.raiseIf_only _ _) (by decide)
  unfold State.countVerdict
  simp only
  split
  · exact onlyIn_trans (onlyIn_trans (onlyIn_val s _ _ (by decide)) (hraised _)) (onlyIn_mono (State.raise_only _ _) (by decide))
  · exact onlyIn_trans (onlyIn_val s _ _ (by decide)) (hraised _)

/-- A table whose entries at a key hold the default reads as it there. -/
theorem smGet_eq_default {β : Type} {d : β} {m : SMap β} {k : Nat} (h : ∀ p ∈ m, p.1 = k → p.2 = d) : smGet d m k = d := by
  induction m with
  | nil => rfl
  | cons p m ih =>
    obtain ⟨hp, hm⟩ := List.forall_mem_cons.mp h
    rw [smGet]
    split
    · next hk => exact hp hk
    · exact ih hm

/-- A record that held a flow tag leaves it free (R241, R243). -/
theorem State.dropFlows_freed {s t : State} {f n : Nat} (h : t.flows = (s.setFlow f (.record n)).flows) :
    (t.dropFlows (.record n)).flow f = .nobody := by
  refine smGet_eq_default fun p hp hk => ?_
  obtain ⟨hmem, hne⟩ := List.mem_filter.mp hp
  rw [h, State.setFlow, smPut, if_neg (by simp)] at hmem
  rcases smInsert_sub _ _ _ p hmem with rfl | hold
  · simp at hne
  · exact absurd hk (smErase_fresh _ _ p hold)

/-- A repeat leaves: counted, its place and its flow free (R249). -/
theorem State.duplicateRec_spec (s : State) (n : Nat) (v : VRec) (f : Nat) :
    ((s.setFlow f (.record n)).duplicateRec n v).vrec n = none ∧
    smGet 0 ((s.setFlow f (.record n)).duplicateRec n v).val.vcnt 1 = (smGet 0 s.val.vcnt 1 + 1) % 2 ^ 32 ∧
    ((s.setFlow f (.record n)).duplicateRec n v).flow f = .nobody := by
  obtain ⟨u, hu⟩ : ∃ u, u = (s.setFlow f (.record n)).countVerdict 0x01 := ⟨_, rfl⟩
  obtain ⟨w, hw⟩ : ∃ w, w = (if v.fromBatch.isSome then u else (u.raise 198).sendAck v.cell v.addr v.seq 0x01 0) := ⟨_, rfl⟩
  have hsent : onlyIn frameParts u w := by
    rw [hw]
    split
    · exact onlyIn_refl _ u
    · exact onlyIn_trans (onlyIn_mono (u.raise_only 198) (by decide)) (State.sendAck_only _ _ _ _ _ _)
  have hflows : w.flows = (s.setFlow f (.record n)).flows :=
    (hsent .flows (by decide)).trans (hu ▸ State.countVerdict_only _ _ .flows (by decide))
  have hval : w.val = { s.val with vcnt := smPut 0 s.val.vcnt 1 ((smGet 0 s.val.vcnt 1 + 1) % 2 ^ 32) } := by
    rw [hsent .val (by decide), hu, State.countVerdict_val]
    rfl
  have hleave : (s.setFlow f (.record n)).duplicateRec n v = w.leavePlace n := by rw [hw, hu]; rfl
  rw [hleave]
  refine ⟨?_, ?_, ?_⟩
  · exact (w.vrec_setRec n n none).trans (if_pos rfl)
  · show smGet 0 w.val.vcnt 1 = _
    rw [hval, smGet_put, if_pos rfl]
  · exact State.dropFlows_freed (s := s) (t := w.setRec n none) hflows

/-! ### A record is stored, or waits -/

/-- The group in force, or the one that is opened: records and flows stay, entries staged are no more than they were (R251, R252). -/
theorem State.valGroup_spec {s u : State} {g : Nat} (h : s.valGroup = some (g, u)) :
    u.val.recs = s.val.recs ∧ u.flows = s.flows ∧ u.val.held = s.val.held ∧ u.val.staged ≤ s.val.staged := by
  unfold State.valGroup at h
  split at h
  · cases h
    exact ⟨rfl, rfl, rfl, le_rfl⟩
  · split at h
    · next hopen =>
      cases h
      unfold State.openGroup at hopen
      split at hopen
      · cases hopen
      · simp only at hopen
        split at hopen
        · cases hopen
        · cases hopen
          exact ⟨rfl, rfl, rfl, Nat.zero_le _⟩
    · cases h

/-- From `s` to `t` entries were staged: records and flows stay. -/
structure entriesStaged (s t : State) : Prop where
  recs : t.val.recs = s.val.recs
  flows : t.flows = s.flows

theorem State.stageEntry_spec (s : State) (g : Nat) (e : List Byte) : entriesStaged s (s.stageEntry g e).1 ∧
    (s.stageEntry g e).1.val.staged ≤ s.val.staged + 1 := by
  have hall := s.stageAll_only g [s.batchAct e]
  have hval : (s.stageAll g [s.batchAct e]).1.val = s.val := hall .val (by decide)
  unfold State.stageEntry
  simp only
  split
  · refine ⟨⟨?_, hall .flows (by decide)⟩, ?_⟩
    · show (s.stageAll g [s.batchAct e]).1.val.recs = _
      rw [hval]
    · show (s.stageAll g [s.batchAct e]).1.val.staged + 1 ≤ _
      rw [hval]
  · exact ⟨⟨rfl, rfl⟩, Nat.le_succ _⟩

theorem State.stageHeld_spec (fuel : Nat) (s : State) (g : Nat) : entriesStaged s (State.stageHeld fuel s g) ∧
    (State.stageHeld fuel s g).val.staged ≤ s.val.staged + fuel := by
  induction fuel generalizing s with
  | zero => exact ⟨⟨rfl, rfl⟩, le_rfl⟩
  | succ fuel ih =>
    unfold State.stageHeld
    split
    · exact ⟨⟨rfl, rfl⟩, Nat.le_add_right _ _⟩
    · next e rest _ =>
      obtain ⟨hkept, hone⟩ := s.stageEntry_spec g e
      simp only
      split
      · obtain ⟨hrest, hmore⟩ := ih { (s.stageEntry g e).1 with val := { (s.stageEntry g e).1.val with held := rest } }
        refine ⟨⟨hrest.recs.trans hkept.recs, hrest.flows.trans hkept.flows⟩, ?_⟩
        simp only at hmore
        omega
      · exact ⟨⟨rfl, rfl⟩, Nat.le_add_right _ _⟩

/-- A record stored or waiting holds its place with its endpoint, past the flow's wait (R251, R252). -/
theorem State.storeRec_vrec (s : State) (n : Nat) (v : VRec) (k : Nat) :
    ∃ w, (s.storeRec n v k).vrec n = some w ∧ w.slot = v.slot ∧ w.stage ≠ 1 := by
  have hplaced (u t : State) (w : VRec) (ht : t.val.recs = (u.setRec n (some w)).val.recs) : t.vrec n = some w :=
    (State.vrec_congr ht n).trans ((u.vrec_setRec n n _).trans (if_pos rfl))
  have hstage : (2 : Nat) ≠ 1 := by decide
  unfold State.storeRec
  extract_lets verdict
  split
  · exact ⟨_, hplaced s _ _ rfl, rfl, hstage⟩
  · split
    · exact ⟨_, hplaced s.noteNoGroup _ _ rfl, rfl, hstage⟩
    · next g s0 _ =>
      extract_lets s1 r es _ _ s2 w
      split
      · exact ⟨w, hplaced s2 _ _ ((State.sealFull_recs _).trans (by rw [State.countVerdict_val])), rfl, show (3 : Nat) ≠ 1 by decide⟩
      · exact ⟨_, hplaced s1 _ _ rfl, rfl, hstage⟩

/-- While the group takes one more record without being full, the flows stay as they are (R243, R251). -/
theorem State.storeRec_flows {s : State} (n : Nat) (v : VRec) (k : Nat) (h : s.val.staged + s.val.held.length < 63) :
    (s.storeRec n v k).flows = s.flows := by
  unfold State.storeRec
  extract_lets verdict
  split
  · rfl
  · split
    · show s.noteNoGroup.flows = s.flows
      unfold State.noteNoGroup
      split
      · rfl
      · exact State.raise_flows _ _
    · next g s0 hgroup =>
      obtain ⟨-, hflows, hheld, hstaged⟩ := State.valGroup_spec hgroup
      extract_lets s1 r es _ _ s2 w
      obtain ⟨hs1, hmore⟩ : entriesStaged s0 s1 ∧ s1.val.staged ≤ s0.val.staged + s0.val.held.length := State.stageHeld_spec _ _ _
      split
      · have hall := s1.stageAll_only g (s1.acceptActs v k verdict)
        have hcount := State.countVerdict_only (s2.setRec n (some w)) verdict
        have hroom : ¬ 64 ≤ ((s2.setRec n (some w)).countVerdict verdict).val.staged := by
          have hs2 : ((s2.setRec n (some w)).countVerdict verdict).val.staged = s1.val.staged + 1 := by
            rw [State.countVerdict_val]
            exact congrArg (fun x : Valid => x.staged + 1) (hall .val (by decide))
          rw [hs2]
          rw [hheld] at hmore
          omega
        rw [State.sealFull, if_neg hroom]
        exact (hcount .flows (by decide)).trans ((hall .flows (by decide)).trans (hs1.flows.trans hflows))
      · exact hs1.flows.trans hflows

/-! ### A record goes on under its flow -/

theorem State.resumeRec_goes {s : State} {n k : Nat} {v : VRec} (hv : s.vrec n = some v) (hk : v.slot = some k)
    (hflow : s.flow (s.epFlow k) = .nobody) (hold : s.olderWaits n (s.epFlow k) v = false) :
    s.resumeRec n =
      if s.stageMid v k = 0x01 then (s.setFlow (s.epFlow k) (.record n)).duplicateRec n v
      else if s.stageMid v k ≠ 0 then (s.setFlow (s.epFlow k) (.record n)).rejectRec n v (s.stageMid v k)
      else (s.setFlow (s.epFlow k) (.record n)).storeRec n { v with mark := (s.setFlow (s.epFlow k) (.record n)).snapMark v } k := by
  have hmid : (s.setFlow (s.epFlow k) (.record n)).stageMid v k = s.stageMid v k := rfl
  simp only [State.resumeRec, hv, hk, hflow, hold, ne_eq, not_true_eq_false, false_and, Bool.false_eq_true, or_self, if_false, hmid]

/-- Of the records that wait for a flow the one that no older one waits before goes first (R243). -/
theorem State.firstWaiter_self {s : State} {n k : Nat} {v : VRec} (hk : v.slot = some k) (hold : s.olderWaits n (s.epFlow k) v = false) :
    s.firstWaiter n v = n := by
  have hother : ∀ p ∈ s.val.recs, ∀ w, p.2 = some w → w.stage = 1 → w.ord < v.ord →
      (w.slot.any fun j => s.epFlow j == s.epFlow k) = true → p.1 = n := by
    intro p hp w hw hst hord hslot
    by_contra hne
    have hnone := List.any_eq_false.mp hold p hp
    simp [hne, hw, hst, hord, hslot] at hnone
  unfold State.firstWaiter
  rw [hk]
  refine (List.foldlRecOn (motive := fun b : Nat × Nat => b.1 = n ∧ b.2 ≤ v.ord) s.val.recs _ ⟨rfl, le_rfl⟩ fun b hb p hp => ?_).1
  split
  · next w hw =>
    split
    · next hc =>
      obtain ⟨hst, hlt, hslot⟩ := hc
      have hord := hlt.trans_le hb.2
      exact ⟨hother p hp w hw hst hord hslot, hord.le⟩
    · exact hb
  · exact hb

theorem exec_recordFlowResume {s : State} {n k : Nat} {v : VRec} (hop : s.ept.waitOp = none) (hv : s.vrec n = some v)
    (hst : v.stage = 1) (hk : v.slot = some k) (hold : s.olderWaits n (s.epFlow k) v = false) :
    exec (.recordFlowResume ⟨n, false⟩) s = s.out (s.resumeRec n) := by
  have hretry : s.retryOp = s := by rw [State.retryOp, hop]
  simp only [exec, execRecordFlowResume, hretry, hv, hst, State.firstWaiter_self hk hold, Bool.false_eq_true, if_false, if_true]

theorem recordFlowResume_repeats (s : State) (n k : Nat) (v : VRec) (hop : s.ept.waitOp = none) (hv : s.vrec n = some v)
    (hst : v.stage = 1) (hk : v.slot = some k) (hflow : s.flow (s.epFlow k) = .nobody) (hold : s.olderWaits n (s.epFlow k) v = false)
    (hmid : s.stageMid v k = 0x01) :
    answers (.recordFlowResume ⟨n, false⟩) s fun t =>
      t.vrec n = none ∧ smGet 0 t.val.vcnt 1 = (smGet 0 s.val.vcnt 1 + 1) % 2 ^ 32 ∧ t.flow (s.epFlow k) = .nobody := by
  have hx := exec_recordFlowResume hop hv hst hk hold
  rw [State.resumeRec_goes hv hk hflow hold, if_pos hmid] at hx
  exact answers_of_out_congr hx (s.duplicateRec_spec n v (s.epFlow k))

theorem recordFlowResume_passes (s : State) (n k : Nat) (v : VRec) (hop : s.ept.waitOp = none) (hv : s.vrec n = some v)
    (hst : v.stage = 1) (hk : v.slot = some k) (hflow : s.flow (s.epFlow k) = .nobody) (hold : s.olderWaits n (s.epFlow k) v = false)
    (hmid : s.stageMid v k = 0) (hroom : s.val.staged + s.val.held.length < 63) :
    answers (.recordFlowResume ⟨n, false⟩) s fun t =>
      ((t.vrec n).any fun w => w.slot == some k && w.stage != 1) = true ∧ t.flow (s.epFlow k) = .record n := by
  have hx := exec_recordFlowResume hop hv hst hk hold
  rw [State.resumeRec_goes hv hk hflow hold, if_neg (by omega), if_neg (by omega)] at hx
  obtain ⟨u, hu⟩ : ∃ u, u = s.setFlow (s.epFlow k) (.record n) := ⟨_, rfl⟩
  rw [← hu] at hx
  obtain ⟨w, hplace, hslot, hstage⟩ := u.storeRec_vrec n { v with mark := u.snapMark v } k
  have hflows := State.storeRec_flows (s := u) n { v with mark := u.snapMark v } k (by rw [hu]; exact hroom)
  obtain ⟨t, ht⟩ : ∃ t, t = u.storeRec n { v with mark := u.snapMark v } k := ⟨_, rfl⟩
  rw [← ht] at hx hplace hflows
  refine answers_of_out_congr hx ⟨?_, ?_⟩
  · show ((t.vrec n).any fun w => w.slot == some k && w.stage != 1) = true
    rw [hplace]
    simp [hslot, hk, hstage]
  · show t.flow (s.epFlow k) = .record n
    rw [State.flow, hflows, hu, State.setFlow, smGet_put, if_pos rfl]

/-! ### Where the queues stand -/

/-- HEAD of each queue. -/
def State.heads (s : State) (n : Nat) : Nat := (s.q n).head

theorem State.heads_congr {s t : State} (h : t.whf = s.whf) : t.heads = s.heads := by
  funext n
  rw [State.heads, State.heads, State.q_congr h]

/-- A queue written with the HEAD that it had. -/
theorem State.setQ_heads {s : State} {n : Nat} {x : Queue} (h : x.head = (s.q n).head) : (s.setQ n x).heads = s.heads := by
  funext m
  by_cases hm : m = n
  · rw [hm, State.heads, State.q_setQ, h, State.heads]
  · rw [State.heads, State.q_setQ_other _ _ hm, State.heads]

theorem State.enqueueNow_heads (s : State) (n : Nat) (it : Item) : (s.enqueueNow n it).heads = s.heads := by
  have hperturb := State.heads_congr (s.perturbItem_whf n it)
  unfold State.enqueueNow
  simp only
  generalize s.perturbItem n it = r at hperturb ⊢
  refine (State.heads_congr (State.touchQ_whf _ n _)).trans ((State.setQ_heads ?_).trans hperturb)
  rfl

theorem State.produce_heads (s : State) (p : Producer) (n : Nat) (it : Item) : (s.produce p n it).heads = s.heads := by
  unfold State.produce State.hwEnqueue
  split
  · rfl
  · split
    · exact s.enqueueNow_heads n it
    · exact State.setQ_heads rfl

theorem State.setCell_heads (s : State) (c : Nat) (x : Cell) : (s.setCell c x).heads = s.heads := State.heads_congr rfl

theorem State.releaseFrames_heads (s : State) (c : Nat) : (s.releaseFrames c).heads = s.heads := by
  unfold State.releaseFrames
  simp only
  split
  · exact (foldl_keeps State.heads (fun st f => st.produce_heads _ _ _) _ _).trans (s.setCell_heads c _)
  · exact s.setCell_heads c _

/-- An acknowledgement is produced; no queue's HEAD moves (R253). -/
theorem State.sendAck_heads (s : State) (c a seq status verdict : Nat) : (s.sendAck c a seq status verdict).heads = s.heads := by
  unfold State.sendAck
  split
  · rfl
  · split
    · split
      · rfl
      · simp only
        split
        · exact (State.releaseFrames_heads _ _).trans (State.heads_congr rfl)
        · rfl
    · unfold State.queueRad State.queueRadK
      simp only
      split
      · exact s.produce_heads _ _ _
      · rfl

/-! ### A record is taken from its queue -/

theorem State.deliver_only {s u : State} {n : Nat} {it : Item} (h : s.deliver n = some (it, u)) : onlyIn (.whf :: evtParts) s u := by
  have htouch (x : Queue) (y : Item) : onlyIn (.whf :: evtParts) s (s.touchQ n fun s => (s.setQ n x).noteDelivery n y) :=
    (State.touchQ_onlyQueue _ _ _ ((s.setQ_onlyQueue _ _ _).trans (State.noteDelivery_onlyQueue _ _ _))).only
  unfold State.deliver at h
  simp only at h
  split at h
  · cases h
  · split at h
    · cases h
      exact htouch _ _
    · split at h
      · cases h
      · cases h
        exact htouch _ _

theorem State.freePlace_empty {s : State} (h : s.val.recs = []) (hr : s.val.reasm = []) : s.freePlace = some 0 := by
  have hnone : s.vrec 0 = none := by rw [State.vrec, h]; rfl
  rw [State.freePlace, State.placesHeld, h, hr, if_neg (by decide), show 512 = 511 + 1 from rfl, List.range_succ_eq_map,
    List.find?_cons_of_pos (by simp [hnone])]

theorem State.noteFull_val (s : State) : ∃ c, s.noteFull.val = { s.val with fullSeen := c } := by
  unfold State.noteFull
  split
  · exact ⟨true, State.raise_val _ _⟩
  · exact ⟨_, rfl⟩

theorem State.noteFull_only (s : State) : onlyIn (.val :: evtParts) s s.noteFull := by
  unfold State.noteFull
  split
  · exact onlyIn_trans (onlyIn_val s _ _ (by decide)) (onlyIn_mono (State.raise_only _ _) (by decide))
  · exact onlyIn_refl _ s

/-- A record takes a place (R241): its place holds it, the others and the counts stay. -/
theorem State.takePlace_spec (s : State) (n : Nat) (v : VRec) : (s.takePlace n v).val.recs = smPut none s.val.recs n (some v) ∧
    (s.takePlace n v).val.vcnt = s.val.vcnt ∧ onlyIn (.val :: evtParts) s (s.takePlace n v) := by
  obtain ⟨u, hu⟩ : ∃ u, u = State.setRec { s with val := { s.val with arrivals := s.val.arrivals + 1 } } n (some v) := ⟨_, rfl⟩
  obtain ⟨c, hval⟩ := u.noteFull_val
  have htake : s.takePlace n v = u.noteFull := by rw [hu]; rfl
  rw [htake, hval]
  refine ⟨by rw [hu]; rfl, by rw [hu]; rfl, onlyIn_trans ?_ u.noteFull_only⟩
  rw [hu]
  exact onlyIn_val s _ _ (by decide)

/-- A record rejected for its format or its poison is counted and leaves its place; no queue's HEAD moves (R240, R242). -/
theorem State.rejectRec_spec (s : State) (n : Nat) (v : VRec) {k : Nat} (hk : hasEvidence k = false) :
    (s.rejectRec n v k).val.recs = smPut none s.val.recs n none ∧
    smGet 0 (s.rejectRec n v k).val.vcnt k = (smGet 0 s.val.vcnt k + 1) % 2 ^ 32 ∧ (s.rejectRec n v k).heads = s.heads := by
  obtain ⟨u, hu⟩ : ∃ u, u = s.countVerdict k := ⟨_, rfl⟩
  obtain ⟨w, hw⟩ : ∃ w, w = (if k = 0x60 ∨ v.fromBatch.isSome then u else u.sendAck v.cell v.addr v.seq 0x02 k) := ⟨_, rfl⟩
  have hsent : w.val = u.val ∧ w.heads = u.heads := by
    rw [hw]
    split
    · exact ⟨rfl, rfl⟩
    · exact ⟨State.sendAck_only _ _ _ _ _ _ .val (by decide), State.sendAck_heads _ _ _ _ _ _⟩
  have hleave : s.rejectRec n v k = w.leavePlace n := by
    simp only [State.rejectRec, hk, Bool.false_and, Bool.false_eq_true, if_false, hw, hu]
  have hval : w.val = { s.val with vcnt := smPut 0 s.val.vcnt k ((smGet 0 s.val.vcnt k + 1) % 2 ^ 32) } := by
    rw [hsent.1, hu, State.countVerdict_val]
  rw [hleave]
  refine ⟨?_, ?_, ?_⟩
  · show smPut none w.val.recs n none = _
    rw [hval]
  · show smGet 0 w.val.vcnt k = _
    rw [hval, smGet_put, if_pos rfl]
  · exact (State.heads_congr rfl).trans (hsent.2.trans (State.heads_congr (hu ▸ State.countVerdict_only _ _ .whf (by decide))))

/-- With nothing held the record of the queue that is served enters place 0 (R67, R240). -/
theorem exec_validationRecord {s u : State} {q : Nat} {it : Item} (hrecs : s.val.recs = []) (hreasm : s.val.reasm = [])
    (hentries : s.val.entries = []) (hphase : s.get pwrStat_PHASE = 4) (hmerge : s.mergeQueue q = q) (hd : s.deliver q = some (it, u))
    (hpath : u.pathOfQueue q = none) : exec (.validationRecord q .clean) s = s.out (u.enterRec (otherRecord it) .clean) := by
  have hretry : s.retryRecs = s := by
    simp only [State.retryRecs, hrecs, List.filterMap_nil, List.foldl_nil, hentries, List.length_nil, State.enterWaiting]
  have hready : s.tableReady = true := by rw [State.tableReady, hphase]; rfl
  simp only [exec, execValidationRecord, State.takeRecord, hretry, hmerge, hready, Bool.not_true, Bool.false_eq_true, if_false,
    State.freePlace_empty hrecs hreasm, hd, hpath]

/-- A record that passes the format check, the fetch, the tag and the stages of its context keeps its place with its endpoint. -/
theorem State.enterRec_passes {s : State} {v : VRec} {i : Nat} (hfree : s.freePlace = some 0) (hparse : s.stageParse v = (0, some i))
    (hfetch : (recFetched s v i).1 = false) (hauth : (recFetched s v i).2.stageAuth v i = 0)
    (hmid : (recFetched s v i).2.stageMid v i = 0) : ((s.enterRec v .clean).vrec 0).any (fun w => w.slot == some i) = true := by
  obtain ⟨v1, hv1⟩ : ∃ v1 : VRec, v1 = { v with slot := some i, ord := s.val.arrivals } := ⟨_, rfl⟩
  obtain ⟨u, hu⟩ : ∃ u, u = (recFetched s v i).2 := ⟨_, rfl⟩
  have hauth1 : u.stageAuth v1 i = 0 := by rw [hu, hv1]; exact hauth
  have hmid1 : u.stageMid v1 i = 0 := by rw [hu, hv1]; exact hmid
  have henter : s.enterRec v .clean = u.resumeRec 0 := by
    have hf : ((s.takePlace 0 v1).fetchFor v1 i .clean) = recFetched s v i := by rw [hv1]; rfl
    unfold State.enterRec
    simp only [hfree, hparse, ← hv1, hf, hfetch, ← hu, hauth1, Bool.false_eq_true, if_false, ne_eq, not_true_eq_false]
  have hplace : u.vrec 0 = some v1 := by
    have hkept : u.val = (s.takePlace 0 v1).val := by
      rw [hu, hv1]
      exact State.fetchFor_only _ _ _ _ .val (by decide)
    rw [State.vrec, hkept, (s.takePlace_spec 0 v1).1, smGet_put, if_pos rfl]
  have hslot : v1.slot = some i := by rw [hv1]
  have hstored (t : State) (x : VRec) (hx : x.slot = some i) : ((t.storeRec 0 x i).vrec 0).any (fun w => w.slot == some i) = true := by
    obtain ⟨w, hw, hwslot, -⟩ := t.storeRec_vrec 0 x i
    rw [hw]
    simp [hwslot, hx]
  rw [henter]
  unfold State.resumeRec
  simp only [hplace, hslot]
  split
  · rw [State.vrec_setRec, if_pos rfl]
    simp
  · have hm : (u.setFlow (u.epFlow i) (.record 0)).stageMid v1 i = 0 := hmid1
    rw [hm, if_neg (by decide), if_neg (by decide)]
    exact hstored _ _ rfl

theorem validationRecord_answers (s u : State) (q k : Nat) (it : Item) (o : Option Nat) (hrecs : s.val.recs = [])
    (hreasm : s.val.reasm = []) (hentries : s.val.entries = []) (hphase : s.get pwrStat_PHASE = 4) (hmerge : s.mergeQueue q = q)
    (hd : s.deliver q = some (it, u)) (hpath : u.pathOfQueue q = none) (hparse : u.stageParse (otherRecord it) = (k, o))
    (hk : k < 0x13 ∨ k = 0x60) :
    answers (.validationRecord q .clean) s fun t =>
      (k ≠ 0 → smGet 0 t.val.vcnt k = (smGet 0 s.val.vcnt k + 1) % 2 ^ 32 ∧ (∀ n ∈ List.range 512, t.vrec n = none) ∧
        (t.q q).head = (u.q q).head) ∧
      (k = 0 → o.all (fun i => (recFetched u (otherRecord it) i).1 || (recFetched u (otherRecord it) i).2.stageAuth (otherRecord it) i != 0 ||
        (recFetched u (otherRecord it) i).2.stageMid (otherRecord it) i != 0 || (t.vrec 0).any fun v => v.slot == some i) = true) := by
  have hval : u.val = s.val := State.deliver_only hd .val (by decide)
  have hfree : u.freePlace = some 0 := State.freePlace_empty (hval ▸ hrecs) (hval ▸ hreasm)
  refine answers_of_out_congr (exec_validationRecord hrecs hreasm hentries hphase hmerge hd hpath) ⟨fun hk0 => ?_, fun hk0 => ?_⟩
  · obtain ⟨v1, hv1⟩ : ∃ v1 : VRec, v1 = { otherRecord it with slot := o, ord := u.val.arrivals } := ⟨_, rfl⟩
    have henter : u.enterRec (otherRecord it) .clean = (u.takePlace 0 v1).rejectRec 0 v1 k := by
      unfold State.enterRec
      simp only [hfree, hparse, ← hv1]
      split
      · next h => exact absurd (Prod.mk.inj h).1 hk0
      · next h => rw [(Prod.mk.inj h).1]
    have hevidence : hasEvidence k = false := by
      rcases hk with hk | rfl
      · simp [hasEvidence, Nat.not_le.mpr hk]
      · rfl
    obtain ⟨htaken, hcounts, htakeOnly⟩ := u.takePlace_spec 0 v1
    obtain ⟨hgone, hcounted, hheads⟩ := (u.takePlace 0 v1).rejectRec_spec 0 v1 hevidence
    rw [← henter] at hgone hcounted hheads
    refine ⟨?_, fun n _ => ?_, ?_⟩
    · rw [← hval, ← hcounts]
      exact hcounted
    · show smGet none (u.enterRec (otherRecord it) .clean).val.recs n = none
      rw [hgone, htaken, hval, hrecs]
      simp only [smGet_put]
      split <;> rfl
    · exact congrFun (hheads.trans (State.heads_congr (htakeOnly .whf (by decide)))) q
  · cases o with
    | none => rfl
    | some i =>
      subst hk0
      rw [Option.all_some]
      by_contra hnot
      simp only [Bool.not_eq_true, Bool.or_eq_false_iff, bne_eq_false_iff_eq] at hnot
      obtain ⟨⟨⟨hfetch, hauth⟩, hmid⟩, hplace⟩ := hnot
      exact absurd (State.enterRec_passes hfree hparse hfetch hauth hmid) (Bool.eq_false_iff.mp hplace)

/-- Settles O27, a lemma for each clause. -/
theorem recordsAndBatchesAreJudged : Obligations.RecordsAndBatchesAreJudged :=
  ⟨validationRecord_answers, recordFlowResume_repeats, recordFlowResume_passes, groupWaitExpiry_answers, reassemblyTimeout_answers,
    batchMaxageExpiry_answers, batchSigned_answers, dedupQuery_answers, valVcntClear_answers, valBatchCfgWrite_answers⟩

end Sys2Proof.Machine
